-- ==== Sys2Proof/Word.lean ====
section
/-! DEFINITION. The word types of the model and the finite maps that hold its numbered units
(contexts, ports, groups, extents) as plain data. -/

namespace Sys2Proof

/-- One byte. -/
abbrev Byte := BitVec 8

/-- A 32-bit register or counter. -/
abbrev Word32 := BitVec 32

/-- A 64-bit register. -/
abbrev Word64 := BitVec 64

/-- A finite map from unit numbers to values: a list of pairs with strictly rising keys. -/
abbrev FMap (α : Type) := List (Nat × α)

/-- The value that `m` lists for `k`, if any. -/
def FMap.find {α : Type} : FMap α → Nat → Option α
  | [], _ => none
  | (j, v) :: m, k => if j = k then some v else FMap.find m k

/-- The value that `m` lists for `k`, or `d`. -/
def FMap.get {α : Type} (d : α) (m : FMap α) (k : Nat) : α := (FMap.find m k).getD d

/-- `m` with `v` listed for `k`, keeping the keys rising. -/
def FMap.put {α : Type} : FMap α → Nat → α → FMap α
  | [], k, v => [(k, v)]
  | (j, w) :: m, k, v =>
    if k < j then (k, v) :: (j, w) :: m
    else if j = k then (k, v) :: m
    else (j, w) :: FMap.put m k v

/-- `m` without an entry for `k`. -/
def FMap.del {α : Type} : FMap α → Nat → FMap α
  | [], _ => []
  | (j, w) :: m, k => if j = k then m else (j, w) :: FMap.del m k

end Sys2Proof
end

