-- ==== Sys2Proof/Syntax.lean ====
section
/-! DEFINITION. The commands of the block: one constructor of `Instr` for each row of the opcode table,
with the row's operands. What the spec carries in bytes (flits, seals, frames, management payloads)
is carried here in bytes; what the spec gives no carrier stands in `ChunkAux` and in the operands the
assumption log names. -/

namespace Sys2Proof

/-- What a host or its IOMMU answers to a DMA read (R401): data, Unsupported Request, Completer Abort,
or a refused IOVA. -/
inductive ReadResult where
  | ok (data : List Byte)
  | ur
  | ca
  | refused
deriving DecidableEq, Repr

/-- How a fabric port's training ends (R377, R378): the far end's Hall ID, engine ID, port number, the lanes that
work at this end and at the far end (R389) and the credits it advertises (R279), or a failure. -/
inductive TrainResult where
  | ok (hall : BitVec 16) (engine : BitVec 8) (port : BitVec 6) (lanes : BitVec 4) (farLanes : BitVec 4) (credits : List Nat)
  | failed
deriving DecidableEq, Repr

/-- What rides beside a chunk without a layout of its own (R257, R266, R268, R238): the member the body
comes from and the one it goes to, the subtree's latest and earliest stage-1 completions, the lowest member
the partial covers, and the elements that met an infinite input, an overflow or a saturation below. -/
structure ChunkAux where
  src : Nat
  dst : Nat
  lateEngine : BitVec 8
  lateHall : Word64
  earlyHall : Word64
  lowest : Nat
  infIn : List Nat
  ovf : List Nat
  sat : List Nat
deriving DecidableEq, Repr

/-- A host's configuration request (R83, R395, R400, R401): what it reads or sets in configuration space. -/
inductive ConfigReq where
  | read
  | readClassCode
  | assignBars
  | busMaster (on : Bool)
  | completionTimeout (us : Nat)
  | tag14 (on : Bool)
  | d3hot (on : Bool)
  | hdmCommit (on : Bool)
deriving DecidableEq, Repr

/-- What a patrol of the key slots, token buckets and lease timers meets; and, since the table gives them no row of their own, what the checks of
the other paths and arrays meet (R416; DESIGN CHOICE, entry 47). -/
inductive ArrayFinding where
  | clean
  /-- A corrected error, at a unit. -/
  | corrected (unitClass : Nat) (unitIndex : Nat)
  /-- An uncorrectable error in a key slot, a token bucket or a lease timer of a unit. -/
  | uncorrectable (unitClass : Nat) (unitIndex : Nat)
  /-- An uncorrectable error on a data path or a reduction operand (`dataPath`), or in a prefetch buffer, a group table, a translation or a local Bell,
  in a unit that a Figure in flight uses. -/
  | figure (ctx : Fin 256) (fid : Nat) (dataPath : Bool) (unitClass : Nat) (unitIndex : Nat)
  /-- An uncorrectable error in a tentative lane, by its place among the lanes. -/
  | lane (index : Nat)
  /-- An uncorrectable error in the held copy of an outgoing chunk, by its place among them. -/
  | heldCopy (index : Nat)
  /-- A parity error in the control registers of a unit: a host port's page, or a context's. -/
  | register (unitClass : Nat) (unitIndex : Nat)
  /-- An uncorrectable error in the Hearth's SRAM. -/
  | hearth
deriving DecidableEq, Repr

/-- One word error that a patrol lane meets: the cell of the group, the word of the cell, and whether it
is correctable (R357, R359). -/
structure WordError where
  cell : Nat
  word : Nat
  correctable : Bool
deriving DecidableEq, Repr

/-- The first difference of two echo runs (R433) and the scans of its two cells. -/
structure EchoDiff where
  engine : BitVec 8
  stage : Nat
  chunk : Nat
  cell1 : Nat
  cell2 : Nat
  pass1 : Bool
  pass2 : Bool
deriving DecidableEq, Repr

/-- How an echo's two runs end (R431, R433): the run digests, the first difference, and whether a chunk
was lost or a check failed. -/
structure EchoResult where
  digest1 : Word64
  digest2 : Word64
  diff : Option EchoDiff
  failed : Bool
deriving DecidableEq, Repr

/-- An SPDM KEY_EXCHANGE (R508, R509): the host function it comes over (none: MCTP), whether mutual
authentication completes, whether the chain's root hash is the management root hash, and the SHA-384 of
the chain presented. -/
structure KeyEx where
  host : Option (Fin 16)
  mutualAuth : Bool
  rootMatches : Bool
  identity : BitVec 384
deriving DecidableEq, Repr

/-- The commands: one constructor for each row of spec/opcode_table.json. -/
inductive Instr where
  -- the sled and its power path (20)
  | prsntNMate
  | prsntDebounceComplete
  | bulkChargeComplete
  | powerOnReset
  | prsntNBreak
  | inputVoltageFault (mv : Nat)
  | refclkLoss
  | refclkRestored
  -- start-up (03)
  | resetEnd (slotId : BitVec 3) (roomId : BitVec 5)
  | imageLoadComplete (flashMiB : Option Nat) (readOk : Bool)
  | lockingComplete
  | scrubComplete (bad : List (Nat × Nat))
  | trainingPhaseEnd
  | syncingComplete (port : Fin 36) (count : Word64)
  | counterMasterTimeout
  -- watchdog and halt inputs (16)
  | watchdogCheckIn (slot : Fin 8) (key : BitVec 16)
  | watchdogPeriodEnd
  | haltInputChange (channelB : Bool) (asserted : Bool) (samples : Nat)
  | haltDiscrepancyExpiry
  | haltGraceExpiry
  | resumeComplete
  -- thermal and TAP (20)
  | temperatureUpdate (sensors : List Int) (coreMv : Nat)
  | throttleStepDown
  | throttleStepUp
  | thermalHalt
  | tapInstruction (op : BitVec 8)
  | tapHaltInstruction (op : BitVec 8)
  -- power states (02)
  | dozeEntry
  | dozeWakeComplete
  | waitCountWake
  | bankedEntryComplete
  -- hall counter and SYNC pins (11, 06)
  | syncExchangeTimer
  | syncExchange (port : Fin 36) (flit : List Byte)
  | epochPulse
  | syncInEpochEdge
  | syncInWireEdge
  | wireBarrierComplete
  -- Figures (04, 06, 08)
  | figureFetch (ctx : Fin 256) (res : ReadResult)
  | nop (ctx : Fin 256)
  | endCard (ctx : Fin 256)
  | loop (ctx : Fin 256)
  | mark (ctx : Fin 256)
  | move (ctx : Fin 256)
  | moveComplete (ctx : Fin 256) (idx : Nat)
  | allreduce (ctx : Fin 256) (block : ReadResult)
  | reduceScatter (ctx : Fin 256) (block : ReadResult)
  | allgather (ctx : Fin 256) (block : ReadResult)
  | broadcast (ctx : Fin 256) (block : ReadResult)
  | reduce (ctx : Fin 256) (block : ReadResult)
  | alltoall (ctx : Fin 256) (block : ReadResult)
  | alltoallv (ctx : Fin 256) (block : ReadResult) (counts : List ReadResult)
  | badOpcode (ctx : Fin 256)
  | stagingReservationGranted
  | collectiveComplete (ctx : Fin 256) (idx : Nat) (treeDigest : Option Word64)
  | bellWait (ctx : Fin 256)
  | bellRingSet (ctx : Fin 256)
  | bellRingAdd (ctx : Fin 256)
  | bellRingTake (ctx : Fin 256)
  | bellTimeout (ctx : Fin 256)
  | barrier (ctx : Fin 256)
  | barrierTargetReached (ctx : Fin 256)
  | barrierTimeout (ctx : Fin 256)
  | waitCount (ctx : Fin 256)
  | waitCountTarget (ctx : Fin 256)
  | fence (ctx : Fin 256)
  -- chunks and fabric messages (10, 13)
  | chunkSend (n : Nat)
  | packetReceived (port : Fin 36) (header : List Byte) (body : List Byte) (src dst : Nat)
  | sealReceived (port : Fin 36) (sealFlit : List Byte) (aux : ChunkAux)
  | retractMarker (port : Fin 36) (flit : List Byte)
  | chunkAck (port : Fin 36) (flit : List Byte)
  | resendRequest (port : Fin 36) (flit : List Byte)
  | ackTimeout (n : Nat)
  | remoteBellRing (port : Fin 36) (flit : List Byte)
  | remoteRingMarksMet (n : Nat)
  | barrierArrival (port : Fin 36) (flit : List Byte)
  | barrierRelease (port : Fin 36) (flit : List Byte)
  | peerAbort (port : Fin 36) (flit : List Byte)
  -- links (13)
  | frameReceived (port : Fin 36) (frame : List Byte) (fecOk : Bool) (corrected : Nat)
  | replayTimeout (port : Fin 36)
  | linkFailureDetected (port : Fin 36)
  | portRetryTimer (port : Fin 36)
  | trainingPatternDetected (port : Fin 36)
  | trainingComplete (port : Fin 36) (res : TrainResult)
  | recalibrationDue (port : Fin 36)
  | recalibrationForced (port : Fin 36)
  | pllSettled (port : Fin 36)
  | pllSettleTimeout (port : Fin 36)
  | resyncTimeout (port : Fin 36)
  -- census (19)
  | censusQuery (port : Fin 36) (flit : List Byte)
  | censusSeen (port : Fin 36) (flit : List Byte)
  | censusConcurrent (port : Fin 36) (flit : List Byte)
  | censusSubtreeReply (port : Fin 36) (flits : List (List Byte))
  | censusReplyTimeout
  | censusCommitMessage (port : Fin 36) (flit : List Byte)
  | censusCommitDone (port : Fin 36) (flit : List Byte)
  -- host ports (14)
  | hostLinkUp (host : Fin 16) (rate : Nat) (width : Nat)
  | hostLinkDown (host : Fin 16)
  | hostWidthChange (host : Fin 16) (width : Nat)
  | configRequest (host : Fin 16) (req : ConfigReq)
  | hostSessionEstablished (host : Fin 16) (identity : BitVec 384)
  | dmaReadCompletion (host : Fin 16) (tag : Nat) (res : ReadResult)
  | dmaCompletionTimeout (host : Fin 16) (tag : Nat)
  | readTagLeak (host : Fin 16) (tag : Nat)
  | porchSweep
  | hostStall (host : Fin 16)
  | atsInvalidation (host : Fin 16) (iova : Word64) (len : Nat)
  | msixUnmask (host : Fin 16) (vector : Nat)
  | cxlMemRead (host : Fin 16) (addr : BitVec 31) (ecc : Option Nat)
  | cxlMemWrite (host : Fin 16) (addr : BitVec 31) (data : List Byte) (enables : List Bool) (ecc : Option Nat)
  | bar2Access (host : Fin 16) (addr : BitVec 31) (len : Nat) (write : Option (List Byte)) (atomic : Bool) (ecc : Option Nat)
  | tokenAvailable (host : Fin 16)
  | getDynamicCapacityConfiguration (host : Fin 16)
  | getDynamicCapacityExtentList (host : Fin 16)
  | addDynamicCapacityResponse (host : Fin 16) (slots : List Nat)
  | releaseDynamicCapacity (host : Fin 16) (slots : List Nat)
  -- host registers (18)
  | bar0UnsupportedAccess (host : Fin 16) (write : Bool) (offset : Nat) (size : Nat) (atomic : Bool)
  | registerWrite (host : Fin 16) (offset : Nat) (value : Word64) (wide : Bool)
  | rlFieldWrite (host : Fin 16) (offset : Nat)
  | lease (host : Fin 16) (value : Word32)
  | slowReadNs (host : Fin 16) (value : Word32)
  | start (host : Fin 16) (ctx : Fin 256)
  | stop (host : Fin 16) (ctx : Fin 256)
  | abort (host : Fin 16) (ctx : Fin 256)
  | bell (host : Fin 16) (ctx : Fin 256) (value : Word32)
  | ringHead (host : Fin 16) (ctx : Fin 256) (value : Word32)
  | histClear (host : Fin 16) (ctx : Fin 256)
  | translation (host : Fin 16) (ctx : Fin 256) (value : Word64)
  | assign (host : Fin 16) (value : Word64)
  | clearingComplete (ctx : Fin 256)
  | stallDetected (suite : Fin 16)
  | suiteReset (host : Fin 16)
  | suitePowerDown (host : Fin 16)
  | groupCommit (host : Fin 16) (group : BitVec 12)
  | groupInvalidate (host : Fin 16) (group : BitVec 12)
  | stagedCommitApplied (group : BitVec 12)
  | groupRead (host : Fin 16) (value : Word32)
  | bellBlockAllocate (host : Fin 16) (tenant : BitVec 8)
  | bellBlockFree (host : Fin 16) (offset : Word32)
  | bellDebugSel (host : Fin 16) (value : Word64)
  | bellDebugClear (host : Fin 16)
  | stallClear (host : Fin 16)
  | quotaWrite (host : Fin 16) (tenant : BitVec 8) (value : Word32)
  | recordSeq (host : Fin 16) (value : Word32)
  | echoGo (host : Fin 16)
  | echoPeerTimeout (suite : Fin 16)
  | echoComplete (suite : Fin 16) (res : EchoResult)
  -- the Cellar's timers (12, 15)
  | leaseTick
  | leaseExpiry (region : Bool) (number : Nat)
  | scrubBatchComplete (bad : List Nat)
  | groupRetentionTimeout (extent : Nat)
  | groupWakeComplete (extent : Nat)
  | patrolRow (lane : Fin 8) (errors : List WordError)
  | patrolCatchUp
  | arrayPatrol (finding : ArrayFinding)
  | faultRecordAtticWrite
  -- management transport (19)
  | smbusArbitrationLost
  | smbusSclTimeout
  | setEndpointId (eid : BitVec 8)
  | getEndpointId
  | getMctpVersionSupport
  | getMessageTypeSupport
  | getMeasurements (sess : Option Nat) (index : Nat)
  | getCertificate (slot : Nat)
  | challenge (slot : Nat) (nonce : BitVec 256)
  | keyExchange (req : KeyEx)
  | heartbeat (sess : Nat)
  | spdmSessionTimeout (sess : Nat)
  -- management commands (19)
  | getStatus (sess : Option Nat) (tag : BitVec 16) (payload : List Byte)
  | readRecords (sess : Option Nat) (tag : BitVec 16) (payload : List Byte)
  | imageWrite (sess : Option Nat) (tag : BitVec 16) (payload : List Byte)
  | warmReset (sess : Option Nat) (tag : BitVec 16) (payload : List Byte)
  | liveRestart (sess : Option Nat) (tag : BitVec 16) (payload : List Byte)
  | liveRestartComplete (flashMiB : Option Nat) (readOk : Bool)
  | fuseRaiseMinVersion (sess : Option Nat) (tag : BitVec 16) (payload : List Byte)
  | fuseRevokeKey (sess : Option Nat) (tag : BitVec 16) (payload : List Byte)
  | setWallclock (sess : Option Nat) (tag : BitVec 16) (payload : List Byte)
  | powerBank (sess : Option Nat) (tag : BitVec 16) (payload : List Byte)
  | powerUnbank (sess : Option Nat) (tag : BitVec 16) (payload : List Byte)
  | powerHoldOn (sess : Option Nat) (tag : BitVec 16) (payload : List Byte)
  | powerHoldOff (sess : Option Nat) (tag : BitVec 16) (payload : List Byte)
  | grant (sess : Option Nat) (tag : BitVec 16) (payload : List Byte)
  | release (sess : Option Nat) (tag : BitVec 16) (payload : List Byte)
  | map (sess : Option Nat) (tag : BitVec 16) (payload : List Byte)
  | unmap (sess : Option Nat) (tag : BitVec 16) (payload : List Byte)
  | renew (sess : Option Nat) (tag : BitVec 16) (payload : List Byte)
  | readExtent (sess : Option Nat) (tag : BitVec 16) (payload : List Byte)
  | regionCreate (sess : Option Nat) (tag : BitVec 16) (payload : List Byte)
  | regionRights (sess : Option Nat) (tag : BitVec 16) (payload : List Byte)
  | regionDelete (sess : Option Nat) (tag : BitVec 16) (payload : List Byte)
  | keyLoad (sess : Option Nat) (tag : BitVec 16) (payload : List Byte)
  | keyErase (sess : Option Nat) (tag : BitVec 16) (payload : List Byte)
  | tokenBucket (sess : Option Nat) (tag : BitVec 16) (payload : List Byte)
  | suiteWeight (sess : Option Nat) (tag : BitVec 16) (payload : List Byte)
  | serviceReset (sess : Option Nat) (tag : BitVec 16) (payload : List Byte)
  | servicePowerDown (sess : Option Nat) (tag : BitVec 16) (payload : List Byte)
  | serviceEnable (sess : Option Nat) (tag : BitVec 16) (payload : List Byte)
  | serviceHoldDown (sess : Option Nat) (tag : BitVec 16) (payload : List Byte)
  | serviceRelease (sess : Option Nat) (tag : BitVec 16) (payload : List Byte)
  | serviceRetrain (sess : Option Nat) (tag : BitVec 16) (payload : List Byte)
  | serviceDrainComplete (unitClass : Nat) (unitIndex : Nat)
  | serviceResetComplete (unitClass : Nat) (unitIndex : Nat)
  | abortContexts (sess : Option Nat) (tag : BitVec 16) (payload : List Byte)
  | clearCounters (sess : Option Nat) (tag : BitVec 16) (payload : List Byte)
  | scan (sess : Option Nat) (tag : BitVec 16) (payload : List Byte)
  | scanComplete (unitClass : Nat) (unitIndex : Nat) (pass : Bool)
  | packPush (sess : Option Nat) (tag : BitVec 16) (payload : List Byte)
  | resume (sess : Option Nat) (tag : BitVec 16) (payload : List Byte)
  | censusStart (sess : Option Nat) (tag : BitVec 16) (payload : List Byte)
  | censusRead (sess : Option Nat) (tag : BitVec 16) (payload : List Byte)
  | censusCommit (sess : Option Nat) (tag : BitVec 16) (payload : List Byte)
  | postedCreditReturn (host : Fin 16) (flits : Nat)
  | loadIndexUpdate
  | smbusRetry
  | flashWriteComplete
  | inputVoltageReturn (mv : Nat)
  | tapReset
  | lowHalfRead (host : Fin 16) (offset : Nat)
  | noEnd (ctx : Fin 256)
  | cardFetchError (ctx : Fin 256)
  | atsTranslationCompletion (host : Fin 16) (iova : Word64) (res : Option Word64)
  | badCommand (sess : Option Nat) (tag : BitVec 16) (code : BitVec 16) (len : Nat)
deriving DecidableEq, Repr

end Sys2Proof
end

