-- ==== Sys2Proof/Decode.lean ====
section
/-! DEFINITION. The command that a word of the opcode table spells. spec/opcode_table.json gives no row any bits (a command is an event
with operands, no word), so no word spells one. -/

namespace Sys2Proof

/-- The command that an instruction of `nbits` bits with the value `w` spells: none. -/
def decodeTableWord (_nbits _w : Nat) : Option Instr := none

end Sys2Proof
end

