-- ==== Sys2Proof/Config.lean ====
section
/-! DEFINITION. What the implementation fixes and the spec leaves open: free values, constants with no
body. No proof can see what they are, so a claim holds whatever they are. Each is named in a log entry. -/

namespace Sys2Proof.Config

/-- The length the cell mapping of R221 would give the piece that starts at a byte offset of a chunk slot:
map digest, slot length and offset to a raw length, which the model clamps to R247's bounds. -/
opaque pieceLength : BitVec 64 → Nat → Nat → Nat

/-- Which tree neighbour leads toward a member's engine, for a group and tree: 0 parent, 1 child 0, 2 child 1
(R238 routes along the tree path; no rule gives the engine that table). -/
opaque treeNext : Nat → Bool → Nat → Nat

/-- Whether the subtree below a child holds a member whose block a chunk overlaps (R238, REDUCE_SCATTER). -/
opaque subtreeNeeds : Nat → Bool → Nat → Nat → Bool

/-- The source and destination members of a chunk that arrives in a raw frame: group or context, forming
engine, send sequence, chunk index (R225, R238: no byte of the packet names them). -/
opaque chunkBody : Nat → Nat → Nat → Nat → Nat × Nat

/-- The engine and hall counts of R257 and the element events of R266 of a chunk whose seal arrives in a raw
frame (no byte of the seal carries them). -/
opaque sealEngine : List Byte → BitVec 8
opaque sealLate : List Byte → BitVec 64
opaque sealEarly : List Byte → BitVec 64
opaque sealLowest : List Byte → Nat
opaque sealInf : List Byte → List Nat
opaque sealOvf : List Byte → List Nat
opaque sealSat : List Byte → List Nat

/-- The status with which a remote ring completes, as a position in the list of those that R173, R174, R179,
R189 and R467 name (no flit carries the result back). -/
opaque remoteRingStatus : Nat → Nat

/-- Whether the home engine's acceptance of a remote ring is known here by now (R119: no flit carries it). -/
opaque remoteRingAccepted : Nat → Bool

/-- The status with which a MOVE that another engine has a part in completes, as a position in the list of those that R105,
R134 and R467 name (no flit carries the result back), and its detail. -/
opaque remoteMoveStatus : Nat → Nat
opaque remoteMoveDetail : Nat → BitVec 32
opaque remoteMoveSource : Nat → Bool

/-- The tenant of the context whose MOVE a chunk belongs to, by forming engine, context and send sequence (R105: the engine that owns the
destination checks its right, and no byte of a packet carries the tenant). -/
opaque moveTenant : Nat → Nat → Nat → BitVec 8

/-- Whether a Figure's read of Cellar bytes meets an uncorrectable error that nothing has found before, and at which of its 8-byte words (R359: a
read may meet one; no row brings it to a Figure's read). -/
opaque figureReadError : Nat → Option Nat

/-- The detail of a remote ring that completes with a failing status (R134). -/
opaque remoteRingDetail : Nat → BitVec 32

/-- The arrivals that the root of a BARRIER on another engine has counted (R202): no flit carries them here. -/
opaque remoteArrivals : Nat → BitVec 64

/-- A 48-byte hash that a measurement of R507 is taken over and the spec gives no contents of. -/
opaque bootRomMeasurement : List Byte

/-- The certificate chain of slot 0, and of slot 1 for the firmware measurement that it is issued over (R506). -/
opaque deviceChain : List Byte
opaque aliasChain : BitVec 384 → List Byte

/-- The engine's ECDSA signature over a message (R506, R507). -/
opaque deviceSignature : List Byte → List Byte

/-- The supported MCTP versions that the control message returns (R501). -/
opaque mctpVersions : List Byte

/-- The nanoseconds that a DMA read of a Figure, an operand block or a count array takes (R324: the spec gives host memory no time, and no row
brings such a read back later). -/
opaque readNs : Nat → Nat

/-- Whether the host refuses the address of an MSI-X message that it takes, by draw and place among the units taken (R408: such a message is counted,
and no row carries the refusal). -/
opaque msixRefused : Nat → Nat → Bool

/-- The reason code that BOOT_REASON shows after an uncorrectable error in the Hearth has reset the engine (R416, R479: the register's codes name no
such reset). -/
opaque hearthFaultReason : Nat

/-- The symbol errors of a lane in a window of 10 ms (R388, R391: no row carries them). -/
opaque laneErrors : Nat → Nat

/-- The stage-2 laggard and spread of a collective whose final chunks do not all come to this engine: group, generation and epoch to engine and
nanoseconds (R257: every engine of the group holds the same, and no byte of a flit carries it). -/
opaque groupLaggard : Nat → Nat → Nat → BitVec 8 × Nat

/-- The opcode byte in the completion entry of a Figure that no memory delivered (R101, R128, R130). -/
opaque unreadOpcode : Nat → BitVec 8

/-- A management message that arrives during a live restart came over PCIe VDM (R88: dropped and counted), rather than over SMBus (a
NACK). -/
opaque cameOverVdm : Nat → Bool

/-- Whether the boot ROM finishes a 64 KiB block of an image in a watchdog period of a load under way, by the period count (R62, R88: no row
is the end of a block). -/
opaque romBlockRead : Nat → Bool

/-- What a byte of an erased flash sector reads as (R515 says only that the sector is erased). -/
opaque erasedByte : BitVec 8

end Sys2Proof.Config
end

