-- ==== Sys2Proof/Machine/State.lean ====
section
/-! DEFINITION. The state of one OZN-256 engine, as plain data: every register, buffer, queue, table, timer
flag, mode and pin level that the spec gives it, and the queue of waiting commands. A field's default
is its value right after reset: the value the spec states, or the one that a log entry names. -/

namespace Sys2Proof.Machine

/-- Why a command stops: there is no such reason. The spec gives every command its effect, so no command ends in a fault; safe. -/
inductive Fault
deriving DecidableEq, Repr

/-- Why a command has no meaning. -/
inductive Refusal where
  /-- A row whose meaning has not been written. Safe: the block stops. -/
  | notModelled (mnemonic : String)
deriving DecidableEq, Repr

/-! ## Named codes -/

/-- Hearth start-up states (R61). -/
inductive Startup where
  | reset | loading | locking | scrubbing | training | syncing | ready | bootFailed | held | haltedAtStart
deriving DecidableEq, Repr

/-- Power states (R42), with the move to Banked in progress (R53) and the wake from Doze (R44). -/
inductive Power where
  | active | doze | dozeWaking | banking | banked
deriving DecidableEq, Repr

/-- The sled's main power path (R532, R533). -/
inductive PowerPath where
  | off | debounce | charging | sequencing | on
deriving DecidableEq, Repr

/-- Watchdog states (R452). -/
inductive WdState where
  | boot | armed | fenced | fencedClean
deriving DecidableEq, Repr

/-- Halt states (R460). -/
inductive HaltState where
  | running | halting | halted | resuming
deriving DecidableEq, Repr

/-- Sync status (R318). -/
inductive SyncStatus where
  | unsynced | synced | slewing | holdover
deriving DecidableEq, Repr

/-- Context states (R156). -/
inductive CtxState where
  | unassigned | clearing | idle | running | waiting | draining | drainRestart | stopped
deriving DecidableEq, Repr

/-- Stop reasons (R156). -/
inductive StopReason where
  | none | endReached | stop | abort | failed | startRefused | suiteDrain
deriving DecidableEq, Repr

/-- Suite states (R141). -/
inductive SuiteState where
  | disabled | serving | draining | drainRestart | resetting
deriving DecidableEq, Repr

/-- Fabric-port states (R390). -/
inductive PortState where
  | disabled | idleUnused | training | upNoCensus | up | miswired | down | heldDown
deriving DecidableEq, Repr

/-- Host-port states (R394). -/
inductive HostState where
  | disabled | detect | training | upNotReady | serving | linkLost | heldDown
deriving DecidableEq, Repr

/-- Extent states (R332); Retired is read from the disabled-unit map. -/
inductive ExtState where
  | free | granting | granted | fenced | reclaiming | staging | quarantined
deriving DecidableEq, Repr

/-- Cell-group power states (R329). -/
inductive CellPower where
  | off | retention | awake
deriving DecidableEq, Repr

/-- Who owns an extent (R515, READ_EXTENT). -/
inductive ExtOwner where
  | none
  | host (h : Nat)
  | region (r : Nat)
  | staging
deriving DecidableEq, Repr

/-- A pin driver's level. -/
inductive Level where
  | highZ | low | high
deriving DecidableEq, Repr

/-- Why the engine last reset (R479, BOOT_REASON). -/
inductive BootReason where
  | powerOn
  | watchdog (mask : BitVec 8)
  | management
  | hearthError
deriving DecidableEq, Repr

/-! ## Error records (R421) -/

/-- The operation fields of a record, bytes 20 through 26 of R421. -/
structure RecOp where
  opcode : Nat
  status : Nat
  ctx : Nat
  tenant : Nat
  figIdx : Nat
deriving DecidableEq, Repr

/-- One error record (R421). `inAttic` says that the Attic fault log holds it (R423). -/
structure ErrRec where
  seq : Word32
  hall : Word64
  event : Nat
  severity : Nat
  unitClass : Nat
  unitIndex : Nat
  op : Option RecOp := .none
  boot : Bool := false
  buffered : Bool := false
  fromBefore : Bool := false
  temp : Int := 0
  mv : Nat := 0
  repeats : Word32 := 0
  detail : Word32 := 0
  addr : Word64 := 0
  engine : Nat := 0
  hallId : BitVec 16 := 0
  fw : Word32 := 0
  inAttic : Bool := false
deriving DecidableEq, Repr

/-- The Attic's record store and the on-die ring (R423). -/
structure ErrLog where
  /-- The on-die ring, oldest first, at most 1,024 records. -/
  ring : List ErrRec := []
  /-- The Attic fault log, oldest first (R424). -/
  attic : List ErrRec := []
  nextSeq : Word32 := 0
  /-- Record-overflow counter (R423). -/
  overflow : Word32 := 0
  /-- Records buffered in hardware during a live Hearth restart, at most 64 (R88), and their overflow. -/
  bufferedNow : Nat := 0
  bufferedLost : Word32 := 0
  /-- Records of severity Unit fault or Fatal that the fabric manager has not read (R426). -/
  unread : List Word32 := []
deriving DecidableEq, Repr

/-! ## The sled, fuses and flash -/

/-- The sled's power path and pins (20). -/
structure Sled where
  path : PowerPath := .on
  /-- PRSNT_N reads low (R532). -/
  prsntLow : Bool := true
  /-- The 54 V input, mV (R529). -/
  inputMv : Nat := 54000
  /-- REFCLK_25 is running (R537). -/
  refclk : Bool := true
  /-- The compute Rooms of the Hall that the sled stands in, which its cables lead to (R31): from 1 through 16. -/
  rooms : Nat := 16
deriving DecidableEq, Repr

/-- Fuses and what manufacture fixes (R70, R77, R551). -/
structure Fuses where
  /-- 0x00 A0, 0x01 B1. -/
  stepping : BitVec 8 := 1
  /-- 16 or 14. -/
  grade : Nat := 16
  /-- Cell groups disabled at test. -/
  fusedOff : List Nat := []
  keyHash0 : BitVec 384 := 0
  keyHash1 : BitVec 384 := 0
  revoked0 : Bool := false
  revoked1 : Bool := false
  minSecurity : Word32 := 0
deriving DecidableEq, Repr

/-- The SPI NOR flash (R67, R424): its bytes, and the Attic header's retire list and pack minimums. -/
structure Flash where
  /-- Bytes that have been written; every other byte of the image and pack areas is erased. -/
  mem : List Host.Cell := []
  sizeMiB : Nat := 64
  /-- Retire list in the Attic header (R360). -/
  retireList : List Nat := []
  /-- Pattern-pack minimum versions, by pack ID (R441). -/
  packMin : FMap Nat := []
  /-- The copy in use of each pack ID, 0 or 1 (R441). -/
  packCopy : FMap Nat := []
deriving DecidableEq, Repr

/-! ## The Hearth -/

/-- A live Hearth restart in progress (R86). -/
structure LiveRestart where
  slotB : Bool
  tag : BitVec 16
deriving DecidableEq, Repr

/-- The Hearth's own registers (R39, R78, R479). -/
structure Hearth where
  startup : Startup := .reset
  bootReason : BootReason := .powerOn
  slotId : BitVec 3 := 0
  roomId : BitVec 5 := 0
  /-- The image being loaded: B when set (R61). -/
  loadingB : Bool := false
  /-- Image loaded: B when set (R78). -/
  imageB : Bool := false
  fwVersion : Word32 := 0
  /-- SHA-384 of the running firmware section (R507). -/
  fwMeasure : BitVec 384 := 0
  /-- The 512-byte configuration block as loaded; locked once `locked` (R73, R76). -/
  config : List Byte := []
  /-- The retire list of the loaded image (R71, R73). -/
  imageRetire : List Nat := []
  locked : Bool := false
  /-- R75 left the hard barrier wire disabled. -/
  wireDisabled : Bool := false
  /-- Disabled-unit map: the extents in it, ascending (R77). -/
  disabledMap : List Nat := []
  /-- Hall count at which it last became Ready (R519). -/
  readyHall : Word64 := 0
  /-- 0 until Scrubbing ends (R79). -/
  mapDigest : Word64 := 0
  configDigest : Word64 := 0
  power : Power := .active
  /-- Active hold set by management (R47). -/
  mgmtHold : Bool := false
  live : Option LiveRestart := none
  /-- Wall-clock reference: wall time, hall count (R427). -/
  wallclock : Option (Word64 × Word64) := none
  /-- ACCESS_STATUS (R478). -/
  rlOffset : BitVec 21 := 0
  rlSeen : Bool := false
  /-- Miswired, late-release and epoch-error counters (R28, R193, R319). -/
  miswired : Word32 := 0
  lateRelease : Word32 := 0
  epochErrors : Word32 := 0
  /-- Slots 5 and 6 wait for the first full period after a return to Active (R52). -/
  exempt56 : Bool := false
  /-- MCTP over VDM messages dropped and census flits dropped during a live restart (R88, R522). -/
  vdmDropped : Word32 := 0
  censusDropped : Word32 := 0
  /-- A later power move: the tag of the POWER command being carried out (R512). -/
  powerTag : BitVec 16 := 0
  /-- The Doze wake was begun (R44). -/
  syncOut : Level := .highZ
  alert : Bool := false
  /-- SMBus responder answering (R60, R502). -/
  smbusOn : Bool := false
  /-- SPI chip select asserted (R60). -/
  spiSelect : Bool := false
deriving DecidableEq, Repr

/-- Thermal state (R547, R548) and the CCLK domain (R40). -/
structure Thermal where
  /-- Tj in 0.25 °C units. -/
  tj : Int := 100
  coreMv : Nat := 750
  cclkMHz : Nat := 1600
  /-- Part of a CCLK cycle gone by, in 1/1000. -/
  cclkPhase : Nat := 0
  throttling : Bool := false
  throttledCycles : Word64 := 0
  /-- Halted by temperature (R548, R549). -/
  thermalHalt : Bool := false
deriving DecidableEq, Repr

/-- The TAP (R544). -/
structure Tap where
  instr : BitVec 8 := 0x01
  /-- EXTEST, HIGHZ or CLAMP holds the boundary-scan outputs (R546). -/
  drivesPins : Bool := false
  /-- The TDO contact: High-Z outside the Shift states, in which no command of the table leaves the TAP (R60, R526). -/
  tdo : Level := .highZ
deriving DecidableEq, Repr

/-- The watchdog (R443-R452). -/
structure Watchdog where
  state : WdState := .boot
  count : Word32 := 0
  /-- Slots checked in during this period. -/
  checked : BitVec 8 := 0
  streak : Nat := 0
  lastMissed : BitVec 8 := 0
  badKeys : Word32 := 0
  disabledCheckins : Word32 := 0
  /-- The lock fell inside this period: the locked period and mask start with the next (R62). -/
  lockPending : Bool := false
  /-- Callers that issued a Figure during this period, by number (R447). -/
  issued : List Nat := []
  /-- Patrol lanes that advanced during this period (R447). -/
  lanes : List Nat := []
deriving DecidableEq, Repr

/-- The halt inputs and halt state (R456-R461). -/
structure Halt where
  assertedA : Bool := false
  assertedB : Bool := false
  state : HaltState := .running
  /-- A disagreement has been found a fault already (R457). -/
  faultFound : Bool := false
  /-- A halt began before Training: start-up stops in Halted at start (R63, R458, R462). -/
  atStart : Bool := false
deriving DecidableEq, Repr

/-- The hall counter and its sync (R315-R320), and the SYNC pins (R538-R541). -/
structure Sync where
  status : SyncStatus := .unsynced
  depth : Nat := 3
  /-- The fabric port on which the sync source lies. -/
  source : Option Nat := none
  /-- Twice the last offset from the source, ns. -/
  offset2 : Int := 0
  exchangeSeq : BitVec 16 := 0
  /-- The requests outstanding, by port: sequence and t1. -/
  requests : FMap (BitVec 16 × Word64) := []
  /-- Part of the 10,000 ns gone by in which a count that slews moves by 1 ns (R317). -/
  slewPhase : Nat := 0
  /-- SYNC_OUT's epoch pulse ends here (R539). -/
  pulseEnd : Option Word64 := none
  /-- The hall count latched at the last epoch edge (R319). -/
  epochLatch : Word64 := 0
deriving DecidableEq, Repr

/-! ## Host ports (14, 18) -/

/-- What a DMA read is for: a member's send buffer (context, flight, member index, body offset) or a MOVE's
source (context, flight, offset). -/
inductive ReadOwner where
  | coll (ctx fid mem off : Nat)
  | move (ctx fid off : Nat)
deriving DecidableEq, Repr

/-- A DMA read request: IOVA, bytes and owner. -/
structure ReadReq where
  iova : Word64
  len : Nat
  owner : ReadOwner
deriving DecidableEq, Repr

/-- A read tag in use (R395, R401). -/
structure ReadTag where
  tag : Nat
  req : ReadReq
  issuedAt : Word64
  /-- The slow-read threshold that governs it (R325). -/
  threshold : Nat
  /-- Its context or port gave it up (R160): its completion is dropped. -/
  abandoned : Bool := false
  timedOut : Bool := false
deriving DecidableEq, Repr

/-- A unit on a host's ordered posted-write path (R403). -/
inductive HostWrite where
  | data (iova : Word64) (bytes : List Byte) (ctx fid : Nat)
  | msix (addr : Word64) (data : Word32) (vector : Nat)
deriving DecidableEq, Repr

/-- One MSI-X table entry (R484). -/
structure MsixEntry where
  addr : Word64 := 0
  data : Word32 := 0
  masked : Bool := true
deriving DecidableEq, Repr

/-- What the port last returned to its host. -/
inductive HostCpl where
  | none
  | data (bytes : List Byte)
  | poison
  | ur
  | ca
  | rrs
  | done
deriving DecidableEq, Repr

/-- A Cellar request of a host (R335, R355). -/
inductive CellarReq where
  | read (addr : Nat) (len : Nat) (ecc : Option Nat)
  | write (addr : Nat) (data : List Byte) (enables : List Bool) (ecc : Option Nat)
deriving DecidableEq, Repr

/-- A host port, or the host block of a bonded pair at its even port (R392, R480). -/
structure HostPort where
  state : HostState := .disabled
  rate : Nat := 0
  width : Nat := 0
  degraded : Bool := false
  everServed : Bool := false
  /-- Held down by a halt (R459, R461), or by Banked (R50). -/
  heldByHalt : Bool := false
  /-- Configuration space that the engine acts on (R83, R395, R400, R411). -/
  barsAssigned : Bool := false
  busMaster : Bool := false
  d3hot : Bool := false
  tag14 : Bool := false
  timeoutUs : Nat := 20000
  hdmCommitted : Bool := false
  msix : FMap MsixEntry := []
  pba : List Nat := []
  /-- Slow-read threshold in effect, and the one written (R325, R481). -/
  slowReadNs : Nat := 1500
  tags : List ReadTag := []
  heldReads : List ReadReq := []
  /-- The ordered posted-write path (at most 256 flits, R56) and the writes waiting for it. -/
  path : List HostWrite := []
  heldWrites : List HostWrite := []
  /-- The later of the host's last credit return and the moment the path last went from empty to holding units (R414). -/
  pathSince : Word64 := 0
  /-- ATS translation cache: IOVA page, translated page (R399). -/
  atsCache : List (Word64 × Word64) := []
  /-- ATS invalidations that wait for reads in flight: IOVA and length (R399). -/
  atsWaiting : List (Word64 × Nat) := []
  /-- Window slots: slot to extent (R334). -/
  window : FMap Nat := []
  /-- Token bucket (R354): rate and depth in effect, tokens, and staged values. -/
  rate64 : Nat := 0
  depth64 : Nat := 4096
  tokens : Nat := 4096
  stagedBucket : Option (Nat × Nat) := none
  /-- Requests that wait at the Porch for tokens, or for room in the Hallway (R54, R355). -/
  waitingReqs : List CellarReq := []
  loadIndex : BitVec 8 := 0
  /-- The DevLoad value that the last completion carried; none: it was no CXL.mem response (R356). -/
  cplLoad : Option Nat := none
  /-- Renewals that wait for the next lease tick (R351): a LEASE value each. -/
  renewals : List Word32 := []
  /-- Dynamic-capacity slots the host has been told of and has accepted (R396, R397). -/
  dcOffered : List Nat := []
  dcAccepted : List Nat := []
  dcReleasing : List Nat := []
  /-- Per-port latches of R477: high half of the last low-half read; low half of the last low-half write. -/
  readLatch : Word32 := 0
  writeLatch : FMap Word32 := []
  cpl : HostCpl := .none
  /-- Drain or reset of the port has blocked new host requests (R467). -/
  blocked : Bool := false
  -- counters of R480
  unmapped : Word32 := 0
  rightsViolations : Word32 := 0
  renewalsIgnored : Word32 := 0
  slowReads : Word32 := 0
  targetResets : Word32 := 0
  droppedReplies : Word32 := 0
  droppedWrites : Word32 := 0
  hostStalls : Word32 := 0
  tagLeaks : Word32 := 0
  bar0Unsupported : Word32 := 0
  msixLost : Word32 := 0
  /-- The media event records of a CXL host, oldest first: they mirror the fault records of uncorrectable errors in its extents (R396). -/
  mediaEvents : List ErrRec := []
  poisonPartialDrops : Word32 := 0
  bar2Unsupported : Word32 := 0
deriving DecidableEq, Repr

/-! ## Fabric ports (13) -/

/-- A flit queued on a virtual channel: its slot kind (R366) and its 64 bytes. -/
structure TxFlit where
  kind : Nat
  bytes : List Byte
  /-- The flow it belongs to on VC0 (R224): a group, or 2¹⁶ + engine × 256 + context for a MOVE flow. -/
  flow : Nat := 0
deriving DecidableEq, Repr

/-- A frame in the replay buffer: sequence, bytes, times replayed in a row (R372, R375). -/
structure TxFrame where
  seq : BitVec 16
  bytes : List Byte
  replays : Nat := 0
deriving DecidableEq, Repr

/-- Port counters (R391, R483). -/
structure PortCounters where
  framesSent : Word64 := 0
  framesReceived : Word64 := 0
  fecCorrected : Word64 := 0
  fecUncorrectable : Word32 := 0
  symbolErrors : List Word32 := []
  laneWarnings : Word32 := 0
  replays : Word32 := 0
  replayTimeouts : Word32 := 0
  recalibrations : Word32 := 0
  deferrals : Word32 := 0
  forced : Word32 := 0
  retrains : Word32 := 0
  trainingFailures : Word32 := 0
  routePicks : Word32 := 0
  badControl : Word32 := 0
  preReadyDrops : Word32 := 0
  starved0 : Word32 := 0
  starved1 : Word32 := 0
  starved2 : Word32 := 0
  starved3 : Word32 := 0
  confirmed : Word32 := 0
  checkFailures : Word32 := 0
  retractSent : Word32 := 0
  retractReceived : Word32 := 0
  resends : Word32 := 0
  ackTimeouts : Word32 := 0
  duplicates : Word32 := 0
  lost : Word32 := 0
  unroutable : Word32 := 0
deriving DecidableEq, Repr

/-- A fabric port (R390) and its link (R365-R384). -/
structure FabPort where
  state : PortState := .disabled
  width : Nat := 0
  /-- The lanes that it runs on: all four, 0 and 1, or 2 and 3 (R389); none of a port that has not trained. -/
  lanes : BitVec 4 := 0
  recalibrating : Bool := false
  /-- The recalibration under way was forced (R324, R382). -/
  recalForced : Bool := false
  farEngine : BitVec 8 := 0
  farPort : BitVec 6 := 0
  farHall : BitVec 16 := 0
  /-- Hall count at which it last entered Up, not in census (R519). -/
  upTime : Word64 := 0
  /-- Held down by a halt (R459, R461). -/
  heldByHalt : Bool := false
  /-- It is Held down, and its last frames are still being acknowledged (R466). -/
  draining : Bool := false
  /-- It failed training before: later failures are only counted (R379). -/
  failedBefore : Bool := false
  /-- Far-end credits held, VC0 through VC3 (R279), and credits to return. -/
  credits : List Nat := [0, 0, 0, 0]
  creditReturn : List Nat := [0, 0, 0, 0]
  /-- The credits of VC0 through VC3 that this port advertised to the far end at training (R56, R279); none of a link that is down. -/
  advertised : List Nat := [0, 0, 0, 0]
  /-- Send queues of VC0 through VC3 (R376). -/
  vc0 : List TxFlit := []
  vc1 : List TxFlit := []
  vc2 : List TxFlit := []
  vc3 : List TxFlit := []
  /-- Sequence of the next frame kept for replay. -/
  txSeq : BitVec 16 := 0
  /-- Last frame received in order and intact. -/
  rxSeq : BitVec 16 := 0xFFFF
  /-- A NAK to be sent; frames are discarded up to the replay (R372). -/
  nak : Bool := false
  discarding : Bool := false
  resync : Bool := false
  pauseSent : Bool := false
  pauseSeen : Bool := false
  replayBuf : List TxFrame := []
  /-- Frames of the replay buffer that are still to be sent again. -/
  resend : List (BitVec 16) := []
  /-- Hall counts of the replays of the last second (R375). -/
  replayHist : List Word64 := []
  /-- Part of a frame time gone by, in 1/100 ns. -/
  framePhase : Nat := 0
  /-- The frame last sent: the model's own record of it. -/
  sent : List Byte := []
  /-- VC0's packet under way, flow and flits left, and its deficit round robin: flows still to be served in the round, deficits in
  bytes, and the weights in effect, by Suite (R224, R226). -/
  vc0Now : Option (Nat × Nat) := none
  drrRound : List Nat := []
  drrDeficit : FMap Nat := []
  drrWeights : List Nat := []
  /-- Hall count at which a VC unit was last queued or sent (R382). -/
  lastUnit : Option Word64 := none
  /-- A census subtree reply being put together: its flits so far (R369). -/
  rxReply : List (List Byte) := []
  /-- A VC0 packet being put together from frames (R367): its header flit and body flits so far. -/
  rxPacket : List (List Byte) := []
  /-- The sync status, depth and source that the neighbour last advertised (R316). -/
  nbrStatus : Option (SyncStatus × Nat × BitVec 8) := none
  /-- Recalibration due and deferred (R382). -/
  recalDue : Bool := false
  cnt : PortCounters := {}
deriving DecidableEq, Repr

/-! ## Bells (06) -/

/-- A local Bell (R168). -/
structure LocalBell where
  value : Word64 := 0
  full : Bool := false
  overflow : Bool := false
deriving DecidableEq, Repr

/-- A Bell record with its waiter line (R177). -/
structure BellRec where
  value : Word64 := 0
  full : Bool := false
  lastHall : Word64 := 0
  lastFig : Nat := 0
  lastCtx : Nat := 0
  lastEngine : Nat := 0
  tenant : BitVec 8 := 0
  tenantValid : Bool := false
  overflow : Bool := false
  doubleFill : BitVec 16 := 0
  waiters : List Nat := []
  /-- The context that took last (R182). -/
  lastTaker : Nat := 255
deriving DecidableEq, Repr

/-- A Bell block: the Suite and tenant that hold it (R175). -/
structure BellBlock where
  suite : Nat
  tenant : BitVec 8
deriving DecidableEq, Repr

/-- The name of a chunk on a hop: the flow it travels in, its index, the engine that formed it, its destination and its send sequence (R225). -/
structure ChunkName where
  isMove : Bool
  flow : Nat
  chunk : Nat
  formedBy : Nat
  dest : Nat
  seq : Nat
deriving DecidableEq, Repr

/-- A remote ring held at its home (R188, R225, R147), or at an engine that relays it. -/
structure HeldRing where
  port : Nat
  engine : Nat
  ctx : Nat
  add : Bool
  figIdx : Nat
  tenant : BitVec 8
  value : Word64
  offset : Nat
  marks : List (Nat × Nat)
  /-- The chunks of the ringing engine that came before it on its port and are not committed, or not sent on, yet (R188). -/
  behind : List ChunkName := []
  /-- A transit or spine engine holds it, behind what came before it: the flit that goes on toward the home engine (R22, R188). -/
  onward : Option (List Byte) := none
  /-- Data of its own ahead of it was lost (R189). -/
  lost : Bool := false
  /-- It waits for this context's Clearing (R147). -/
  clearing : Option Nat := none
deriving DecidableEq, Repr

/-- What has been committed at this engine of one flow from one forming engine (R225): every sequence below
`upto`, and the later ones listed. -/
structure CommitRec where
  flow : Nat
  move : Bool
  formedBy : Nat
  upto : Nat := 0
  later : List Nat := []
deriving DecidableEq, Repr

/-! ## Collectives and chunks (08, 09, 10) -/

/-- A local member of a collective in flight: its operand-block entry (R107), counts and readiness. -/
structure LMember where
  id : Nat
  pair : Nat
  sendAddr : Word64 := 0
  sendSel : BitVec 16 := 0
  recvSel : BitVec 16 := 0
  recvAddr : Word64 := 0
  flagAddr : Word64 := 0
  countAddr : Word64 := 0
  dropAddr : Word64 := 0
  counts : List Nat := []
  toRead : Nat := 0
  readyAt : Option Word64 := none
  /-- Its place in the order in which the members became ready. -/
  readyNo : Nat := 0
deriving DecidableEq, Repr

/-- A piece of a member's send buffer as it arrived (R267). -/
structure InPiece where
  mem : Nat
  off : Nat
  bytes : List Byte
deriving DecidableEq, Repr

/-- A committed operand of a chunk at this node (R222, R291): own partial or a child's. -/
structure Part where
  chunk : Nat
  own : Bool
  engine : Nat
  rank : Nat
  lowest : Nat
  acc : List Word32
  infIn : List Nat
  ovf : List Nat
  sat : List Nat
  lateEngine : Nat
  lateHall : Word64
  earlyHall : Word64
deriving DecidableEq, Repr

/-- A tentative lane (R290): a chunk arriving on a hop. -/
structure Lane where
  port : Nat
  flow : Nat
  isMove : Bool
  gen : Nat
  chunk : Nat
  formedBy : Nat
  dest : Nat
  seq : Nat
  treeB : Bool
  down : Bool
  ordered : Bool
  epoch : Nat
  attempt : Nat
  src : Nat
  dst : Nat
  rank : Nat
  moveAddr : Word64
  moveSel : BitVec 16
  /-- The flight it was assigned to, if this engine runs a Figure for it (R367). -/
  owner : Option (Nat × Nat)
  pieces : List (Nat × List Byte)
  /-- A seal that came before any Figure of this engine took the chunk (R367). -/
  sealed : Option (List Byte × ChunkAux) := none
  /-- Its data arrived with the poisoned bit (R301). -/
  poisoned : Bool := false
deriving DecidableEq, Repr

/-- A chunk that was dropped on a port before its seal, which is dropped in its turn (R217, R301, R552). -/
structure DroppedChunk where
  port : Nat
  isMove : Bool
  flow : Nat
  chunk : Nat
  formedBy : Nat
  seq : Nat
deriving DecidableEq, Repr

/-- A sent chunk that its context or a part gave up: a reply to it is dropped, and counted for the part (R302, R468). -/
structure GivenUp where
  name : ChunkName
  part : Nat
deriving DecidableEq, Repr

/-- An outgoing chunk and its held copy (R281, R283, R288). `bytes` is none while an operand is unconfirmed
(R292). -/
structure OutChunk where
  /-- Owner flight (context, flight), or none for a forwarded chunk. -/
  owner : Option (Nat × Nat)
  flow : Nat
  isMove : Bool
  suite : Nat
  gen : Nat
  mask : List Nat
  ordered : Bool
  /-- The engine the chunk is for: the tree neighbour, or a MOVE's or forwarded chunk's destination. -/
  dest : Nat
  /-- The tree edge it counts against, if this engine applies a window to it. -/
  edge : Option (Bool × Nat)
  chunk : Nat
  formedBy : Nat
  seq : Nat
  treeB : Bool
  down : Bool
  poisoned : Bool := false
  attempt : Nat := 1
  epoch : Nat
  opcode : Nat
  dtype : BitVec 8
  root : Nat
  size : Nat
  capacity : Nat
  srpad : BitVec 8
  src : Nat
  dst : Nat
  aux : ChunkAux
  moveAddr : Word64 := 0
  moveSel : BitVec 16 := 0
  /-- B, the bytes one full chunk occupies on the edge (R281). -/
  full : Nat
  bytes : Option (List Byte)
  /-- The speculative data formed so far, by byte offset, and how many of these pieces have left on its port (R289, R293). -/
  pieces : List (Nat × List Byte) := []
  left : Nat := 0
  port : Option Nat := none
  sealed : Bool := false
  /-- It has been sent and not acknowledged: it holds a slot of its window, while it waits to be sent again too (R281, R288). -/
  inWindow : Bool := false
  /-- The port on which a forwarded chunk arrived. -/
  inPort : Nat := 0
deriving DecidableEq, Repr

/-- A chunk whose final bytes are at this engine: body (source, destination), chunk, its bytes, H (R275). -/
structure Final where
  src : Nat
  dst : Nat
  chunk : Nat
  bytes : List Byte
  h : Nat
deriving DecidableEq, Repr

/-- A collective in flight (R105-R109, R238). -/
structure Coll where
  opcode : Nat
  size : Nat
  group : Nat
  gen : Nat
  /-- The group entry in effect when it issued (R215). -/
  entry : List Byte
  dtype : Nat
  redop : Nat
  root : Nat
  seed : Word32
  capacity : Nat
  epoch : Nat
  stream : Bool
  sr : Bool
  padnan : Bool
  padPattern : Word32
  ordered : Bool
  members : List LMember
  /-- It holds its staging reservation (R282); until then it waits at issue. -/
  reserved : Bool
  reserve : Nat
  pieces : List InPiece := []
  parts : List Part := []
  /-- Bodies' chunks whose stage 1 is done or whose source bytes have been formed: source, destination, chunk. -/
  done1 : List (Nat × Nat × Nat) := []
  finals : List Final := []
  rankNext : Nat := 0
  /-- Stage-2 laggard record over chunks (R257): engine and lag. -/
  lag2 : Option (Nat × Nat) := none
  /-- Chunks received without the ordered mark, and folds out of member order (R307, R269). -/
  reorders : Nat := 0
  /-- ALLTOALLV slots that no source filled have been padded (R243). -/
  padded : Bool := false
deriving DecidableEq, Repr

/-- A MOVE in flight (R103-R105). -/
structure MoveFlight where
  srcSel : BitVec 16
  srcAddr : Word64
  dstSel : BitVec 16
  dstAddr : Word64
  size : Nat
  /-- Bytes of the source not yet read. -/
  toRead : Nat
  pieces : List (Nat × List Byte) := []
  /-- Chunks already formed for a remote destination. -/
  formed : List Nat := []
  /-- Bytes that have come from a source on another engine. -/
  got : Nat := 0
  reserve : Nat := 0
deriving DecidableEq, Repr

/-- A Bell that a Figure waits on or rings: a local Bell, a record of this engine, or a record of another. -/
inductive BellRef where
  | loc (id : Nat)
  | virt (offset : Nat)
  | away (engine offset : Nat)
deriving DecidableEq, Repr

/-- What an in-flight Figure is doing. -/
inductive FlightKind where
  | plain
  /-- A collective or BARRIER on this group that failed at issue. -/
  | failed (group : Nat)
  | endCard
  | fence
  | bellWait (bell : BellRef) (cmp : Bool) (v : Word64) (timeout : Nat)
  | take (bell : BellRef) (result : Nat) (timeout : Nat)
  | ring (bell : BellRef) (add : Bool) (value : Word64)
  | barrier (group : Nat) (gen : Nat) (seq : Word32) (timeout : Nat) (target : Option Word64) (wire : Bool)
  | waitCount (target : Word64)
  | move (m : MoveFlight)
  | coll (c : Coll)
deriving DecidableEq, Repr

/-- What a finished Figure reports in its completion entry (R130). -/
structure Done where
  status : Nat
  detail : Word32 := 0
  drops : Word32 := 0
  laggard : BitVec 16 := 0
  digest : Word64 := 0
deriving DecidableEq, Repr

/-- A Figure in flight (R116). -/
structure Flight where
  fid : Nat
  idx : Nat
  opcode : Nat
  pass : Nat
  cpl : Bool
  irq : Bool
  issuedAt : Word64
  /-- Choice increments attributed to it (R314). -/
  choice : Word32 := 0
  /-- The layer record (by age number) it counts in (R277). -/
  layer : Nat := 0
  /-- Its Bell selector, or its group (R202). -/
  selector : Nat := 0
  /-- A BELL_RING for another engine that has left: its home has not yet accepted it (R119). -/
  sent : Bool := false
  kind : FlightKind
  done : Option Done := none
deriving DecidableEq, Repr

/-! ## Contexts (05, 18) -/

/-- The Card and ring registers (R494): those of the next START, or those of the running Card. -/
structure CardRegs where
  base : Word64 := 0
  loc : BitVec 16 := 0
  len : Nat := 0
  startIdx : Nat := 0
  ringBase : Word64 := 0
  ringSize : Nat := 0
deriving DecidableEq, Repr

/-- An active loop (R124). -/
structure LoopEntry where
  idx : Nat
  start : Nat
  left : Nat
  pass : Nat
deriving DecidableEq, Repr

/-- An assignment as ASSIGN writes it (R486). -/
structure Assignment where
  tenant : BitVec 8 := 0
  valid : Bool := false
  ordered : Bool := false
  host : Nat := 0
  vector : Nat := 0
deriving DecidableEq, Repr

/-- A layer record (R277, R497); `age` numbers records in the order of their MARKs. -/
structure Layer where
  age : Nat
  tag : Word32
  count : Word32 := 0
  digest : Nat := 0
  incomplete : Bool := false
  /-- A later MARK has issued. -/
  closed : Bool := false
  /-- Collectives of the layer still in flight. -/
  inFlight : Nat := 0
deriving DecidableEq, Repr

/-- A context (R135-R166, R494-R498). -/
structure Context where
  state : CtxState := .unassigned
  stopReason : StopReason := .none
  stopIndex : Nat := 0
  lastStatus : Nat := 0
  asg : Assignment := {}
  /-- Latched assignment (R144) and queued START (R164). -/
  latched : Option Assignment := none
  /-- The tenant it held before the Clearing under way (R147). -/
  before : Option (BitVec 8) := none
  queued : Option CardRegs := none
  regs : CardRegs := {}
  run : CardRegs := {}
  pc : Nat := 0
  loops : List LoopEntry := []
  /-- Prefetch queue: index and fetched bytes, none for a failed fetch (R127, R128). -/
  prefetch : List (Nat × Option (List Byte)) := []
  flights : List Flight := []
  nextFid : Nat := 0
  ringHead : BitVec 16 := 0
  ringTail : BitVec 16 := 0
  ringUsed : Nat := 0
  ringPhase : Bool := true
  bells : FMap LocalBell := []
  doubleFill : Word32 := 0
  /-- Translation table: virtual Bell ID to translation entry (R171). -/
  trans : FMap Word64 := []
  transRefused : Bool := false
  /-- TRANSLATION as last written (R494). -/
  transReg : Word64 := 0
  /-- The context's MOVE flow: next send sequence by destination engine (R225). -/
  moveSeq : FMap Nat := []
  -- counters of R496
  routePicks : Word32 := 0
  reorders : Word32 := 0
  ringFull : Word64 := 0
  issuedFigs : Word64 := 0
  waitingCycles : Word64 := 0
  stagingWaits : Word32 := 0
  timingDist : Word32 := 0
  unsynced : Word32 := 0
  nan : Word32 := 0
  overflow : Word32 := 0
  saturation : Word32 := 0
  /-- Figures that completed with 0x40, 0x41 and 0x43, which are counted only (R134); no register shows them. -/
  aborted : Word32 := 0
  timedOut : Word32 := 0
  orderViolations : Word32 := 0
  lag1Member : Nat := 0
  lag1Valid : Bool := false
  lag1Ns : Word32 := 0
  lag2Engine : Nat := 0
  lag2Valid : Bool := false
  lag2Ns : Word32 := 0
  digest : Word64 := 0
  digestFig : Nat := 0
  layers : List Layer := []
  layerAge : Nat := 0
  /-- The record that collectives issuing now belong to; none from START to the first of them (R277). -/
  layerNow : Option Nat := none
  layerOverwrites : Word32 := 0
  hist : FMap Word32 := []
  /-- Groups its collectives and BARRIERs have used since START (R35). -/
  groups : List Nat := []
  /-- A START latched while the Caller is scanned (R435). -/
  heldStart : Option CardRegs := none
deriving DecidableEq, Repr

/-! ## Suites (05, 18) -/

/-- The echo request and result registers of a Suite (R491). -/
structure Echo where
  ctx : Nat := 0
  fig : Nat := 0
  pass : Word32 := 0
  id : BitVec 16 := 0
  wasOrdered : Bool := false
  digestLow : Word32 := 0
  busy : Bool := false
  /-- What the echo under way was asked for, and the hall count of the request. -/
  goCtx : Nat := 0
  goOrdered : Bool := false
  goDigest : Word32 := 0
  goHall : Word64 := 0
  outcome : Nat := 0
  idDone : BitVec 16 := 0
  run1 : Word64 := 0
  run2 : Word64 := 0
  diffEngine : BitVec 8 := 0
  diffStage : Nat := 0
  diffChunk : Nat := 0
  cell1 : Word32 := 0
  cell2 : Word32 := 0
deriving DecidableEq, Repr

/-- The Bell debug result registers (R489). -/
structure BellDebug where
  sel : Word64 := 0
  done : Bool := false
  error : Bool := false
  full : Bool := false
  overflow : Bool := false
  remote : Bool := false
  virt : Bool := false
  owner : BitVec 8 := 0
  doubleFill : Word32 := 0
  value : Word64 := 0
  lastHall : Word64 := 0
  lastFig : Nat := 0
  lastCtx : Nat := 0
  lastEngine : Nat := 0
  entry : Word64 := 0
  waiters : List Nat := []
deriving DecidableEq, Repr

/-- A wait-graph entry (R202). -/
structure StallEntry where
  ctx : Nat
  state : Nat
  opcode : Nat
  figIdx : Nat
  selector : Nat
  home : Nat
  tenant : Nat
  awaited : Word64
  current : Word64
  ringerEngine : Nat
  ringerCtx : Nat
deriving DecidableEq, Repr

/-- A Suite and its owner page (R138-R141, R485). -/
structure Suite where
  state : SuiteState := .disabled
  /-- R75 disabled it (R472). -/
  refusedAtBoot : Bool := false
  dropped : Word32 := 0
  /-- ASSIGN as last written, its result, and the context whose assignment the result follows (R486). -/
  assignLo : Word32 := 0
  assignHi : Word32 := 0
  assignResult : Nat := 0
  assignCtx : Nat := 0
  groupResult : Nat := 0
  groupResGroup : Nat := 0
  groupResOffset : Nat := 0
  groupRead : Word32 := 0
  groupWindow : List Byte := []
  groupReadback : List Byte := []
  bellResult : Nat := 0
  bellOffset : Word32 := 0
  dbg : BellDebug := {}
  stallValid : Bool := false
  stallHall : Word64 := 0
  stallReport : List StallEntry := []
  /-- Hall count at which a Figure of the Suite last issued or completed, or a Bell of its tenants changed (R200). -/
  progressAt : Word64 := 0
  /-- A stall has been reported and no progress has ended it (R201). -/
  stallTold : Bool := false
  echo : Echo := {}
  recordSeq : Word32 := 0
  recordValid : Bool := false
  recordDone : Bool := false
  recordWindow : Option ErrRec := none
  /-- Quotas: written and in effect, by tenant (R149, R487); 256 is not listed. -/
  quotaCtx : FMap Nat := []
  quotaGrp : FMap Nat := []
  quotaCtxEff : FMap Nat := []
  quotaGrpEff : FMap Nat := []
  /-- DRR weight as last written through management; none: the configuration's (R226). Each port adopts it at its next round. -/
  weight : Option Nat := none
deriving DecidableEq, Repr

/-! ## Groups (07) -/

/-- A staged commit or invalidation (R214). -/
inductive Staged where
  | commit (entry : List Byte)
  | invalidate
deriving DecidableEq, Repr

/-- A peer abort kept until its Figure issues (R370). -/
structure KeptAbort where
  gen : Nat
  key : Nat
  engine : Nat
  barrier : Bool
  status : Nat
deriving DecidableEq, Repr

/-- One of the 4,096 groups on this engine. -/
structure Group where
  entry : Option (List Byte) := none
  staged : Option Staged := none
  /-- Barrier sequence number (R191). -/
  barrierSeq : Word32 := 0
  /-- The root's count: the sequence being counted and the engines that have arrived (R191). -/
  rootSeq : Word32 := 0
  arrived : List Nat := []
  kept : List KeptAbort := []
  /-- Aborts already forwarded (R370). -/
  seen : List KeptAbort := []
  /-- The epochs of the collectives that have issued here under this entry (R370). -/
  issued : List Nat := []
  /-- Next send sequence by destination engine (R225). -/
  sendSeq : FMap Nat := []
deriving DecidableEq, Repr

/-! ## The Cellar (12) -/

/-- One extent (R326-R360). -/
structure Extent where
  state : ExtState := .free
  owner : ExtOwner := .none
  leaseS : Nat := 0
  leftMs : Nat := 0
  /-- The time left was set since the last lease tick, which does not count it down (R350, R351). -/
  fresh : Bool := false
  /-- A lease tick has ended its lease: LEASE_EXPIRY reclaims it (R350, R353). -/
  due : Bool := false
  identity : BitVec 384 := 0
  power : CellPower := .off
  waking : Bool := false
  quarantine : Bool := false
  /-- Single-bit errors corrected (R357). -/
  corrected : Word32 := 0
  /-- The renewal to apply at the next tick, in ms (R351). -/
  renewMs : Option Nat := none
  /-- Cause of the reclaim under way: 1 lease expired, 2 released, 3 region deleted (R353, R515). -/
  cause : Nat := 0
  reclaimHall : Word64 := 0
deriving DecidableEq, Repr

/-- A shared region (R341, R342). -/
structure Region where
  extents : List Nat
  leaseS : Nat
  leftMs : Nat
  fresh : Bool := true
  due : Bool := false
  hosts : List (Nat × Bool) := []
  tenants : List (Nat × Bool) := []
  staged : Option (List (Nat × Bool) × List (Nat × Bool)) := none
  renewMs : Option Nat := none
deriving DecidableEq, Repr

/-- A batch of the shared scrubber (R331). -/
structure ScrubJob where
  extents : List Nat
deriving DecidableEq, Repr

/-- A host request that waits at its Cellar ports for its cell group to wake: its host block and the Cellar offset that its window gave (R330). -/
structure CellWait where
  host : Nat
  req : CellarReq
  off : Nat
deriving DecidableEq, Repr

/-- A Figure's access that waits for its cell group to wake: a member's send buffer or a MOVE's source that is read, or bytes of a MOVE that are
written (R330). -/
inductive FigWait where
  | readColl (ctx fid mem : Nat)
  | readMove (ctx fid : Nat)
  | write (ctx fid off : Nat) (bytes : List Byte)
deriving DecidableEq, Repr

/-- One access in the queue of a Cellar port (R56, R330). -/
inductive CellAccess where
  | host (w : CellWait)
  | figure (ext : Nat) (w : FigWait)
deriving DecidableEq, Repr

/-- One of the Hallway's 148 inputs: the host requests queued there for a Cellar port's credit (R39, R54-R56). The other pools hold nothing
between two commands: a crossing takes no time in the model, and no other receiver lacks room. DESIGN CHOICE (entry 43). -/
structure HallPort where
  requests : List CellarReq := []
deriving DecidableEq, Repr

/-- The Cellar. -/
structure Cellar where
  extents : FMap Extent := []
  /-- Bytes by Cellar offset; an unlisted byte reads 0 (R80, R337). -/
  mem : List Host.Cell := []
  /-- Units (offset / 64) that are written (R337) and that are poisoned (R359), ascending. -/
  written : List Nat := []
  poisoned : List Nat := []
  /-- The word of a unit in which its uncorrectable error was found (R359). -/
  badWords : FMap Nat := []
  regions : FMap Region := []
  /-- Key slots (R347). -/
  keys : FMap (List Byte) := []
  /-- Staging extents in layout order, and the Bell area within it (R328). -/
  staging : List Nat := []
  bellArea : List Nat := []
  /-- Replacement extents that enter staging after their scrub: old, new (R360). -/
  replacing : List (Nat × Nat) := []
  /-- The scrubber's queue: the batch in progress first (R331). -/
  scrubQ : List ScrubJob := []
  /-- Patrol lanes: rows taken in the round, by lane (R357). -/
  patrolRows : FMap Nat := []
  /-- Staging bytes reserved, and the collectives that wait for staging in issue order (R282). -/
  reserved : Nat := 0
  waitingStaging : List (Nat × Nat) := []
  /-- Accesses queued at the Cellar ports behind the wake of their cell groups, in order of arrival (R56, R330). -/
  waiting : List CellAccess := []
  /-- Bell records by record offset and blocks by block offset (R175). -/
  bells : FMap BellRec := []
  blocks : FMap BellBlock := []
deriving DecidableEq, Repr

/-! ## Management and census (19) -/

/-- An SPDM session (R508, R509): its number, host function (none: a fabric manager), identity and the hall
count of its last traffic. -/
structure Session where
  id : Nat
  host : Option Nat
  identity : BitVec 384
  lastTraffic : Word64
deriving DecidableEq, Repr

/-- A management event (R517): its code and payload. -/
structure MgmtEvent where
  code : Nat
  payload : List Byte
deriving DecidableEq, Repr

/-- A command's response frame (R510). -/
structure Response where
  code : Nat
  tag : BitVec 16
  status : Nat
  detail : Word32
  payload : List Byte
deriving DecidableEq, Repr

/-- A command that answered ACCEPTED and has not completed (R512): its code and tag, and what it waits for. -/
structure Accepted where
  code : Nat
  tag : BitVec 16
  unitClass : Nat
  units : List Nat
  /-- The shared region it is about, which has no unit class. -/
  region : Option Nat := none
deriving DecidableEq, Repr

/-- What the engine last answered to an MCTP control message or an SPDM request. -/
inductive TransportReply where
  | none
  | ok
  | eid (e : BitVec 8)
  | bytes (b : List Byte)
  | busy
  | error
  | session (id : Nat)
deriving DecidableEq, Repr

/-- The management block. -/
structure Mgmt where
  sessions : List Session := []
  nextSession : Nat := 0
  /-- Events queued with no session open, oldest first (R517), and events lost. -/
  queue : List MgmtEvent := []
  lost : Word32 := 0
  lostSince : Bool := false
  /-- The events sent to the open sessions, oldest first: the model's own record of them. -/
  sent : List MgmtEvent := []
  response : Option Response := none
  reply : TransportReply := .none
  accepted : List Accepted := []
  /-- MCTP endpoint ID; 0 is null (R502). -/
  eid : BitVec 8 := 0
  /-- The event message the engine masters the SMBus for, retries made, and whether it waits to retry (R504). -/
  smbusEvent : Option MgmtEvent := none
  smbusRetries : Nat := 0
  /-- Hall count of its first attempt. -/
  smbusFirst : Word64 := 0
  smbusWaiting : Bool := false
  smbusAbandoned : Word32 := 0
  smbusResets : Word32 := 0
  /-- An image write under way (R512): flash offset and bytes. -/
  flashWrite : Option (Nat × List Byte) := none
  /-- A pack being received, by pack ID (R441), and the pack that has arrived whole and is being written, or waits for a scan. -/
  packBuf : FMap (List Byte) := []
  packWriting : Option Nat := none
deriving DecidableEq, Repr

/-- A census record (R523). -/
structure CensusRec where
  bytes : List Byte
deriving DecidableEq, Repr

/-- The census this engine takes part in, or took part in last (R518-R524). -/
structure Census where
  /-- It has not sent its subtree reply yet (R522). -/
  active : Bool := false
  /-- It has taken part in census `epoch`. -/
  took : Bool := false
  epoch : Word64 := 0
  isOrigin : Bool := false
  originId : BitVec 8 := 0
  parent : Nat := 0xFF
  /-- Ports forwarded on and not yet answered, and the hall count of the forwarding (R520). -/
  waiting : List Nat := []
  forwardedAt : Word64 := 0
  /-- Ports that answered with a subtree reply, and those on which the far end took part otherwise. -/
  children : List Nat := []
  seenPorts : List Nat := []
  /-- The records of the subtree below (R520). -/
  records : List CensusRec := []
  changed : Bool := false
  missing : Bool := false
  concurrent : Bool := false
  /-- Result at the origin: its epoch and records, the changed-during-census flag, and the hall count of the census-done event. -/
  done : Bool := false
  resultEpoch : Word64 := 0
  flag : Bool := false
  doneHall : Word64 := 0
  result : List CensusRec := []
  /-- Ports that have dropped since the census this engine took part in (R524). -/
  dropped : List Nat := []
  /-- Commit under way: the children that have not answered, engines counted so far. -/
  committing : Bool := false
  commitWaiting : List Nat := []
  commitCount : Nat := 0
deriving DecidableEq, Repr

/-! ## Service and scans (15, 17) -/

/-- The phase of a part in service (R465). -/
inductive SvcPhase where
  | draining | drainRestart | resetting
deriving DecidableEq, Repr

/-- A part being serviced (R464). -/
structure SvcJob where
  unitClass : Nat
  unitIndex : Nat
  powerDown : Bool
  phase : SvcPhase := .draining
  /-- Where staging moves when a staging cell group is serviced (R466). -/
  replacement : Option Nat := none
  since : Word64 := 0
deriving DecidableEq, Repr

/-- A scan under way (R435). -/
structure ScanJob where
  unitClass : Nat
  /-- The units still to be scanned, the one under scan first. -/
  units : List Nat
  tag : BitVec 16 := 0
  /-- The copy of the pack that it runs (R442). -/
  copy : Nat := 0
  /-- Staging extents moved away, and their replacements. -/
  replacements : List (Nat × Nat) := []
deriving DecidableEq, Repr

/-- Parts out of service and units that failed a scan (R436, R464). -/
structure Service where
  jobs : List SvcJob := []
  out : List (Nat × Nat) := []
  scans : List ScanJob := []
  failed : List (Nat × Nat) := []
  /-- Service requests dropped because a restart was queued already (R471). -/
  dropped : Word32 := 0
  /-- Target-reset and dropped-reply counters of parts other than host ports (R467, R468), by class × 2²⁴ + index. -/
  targetResets : FMap Word32 := []
  droppedReplies : FMap Word32 := []
  /-- Single-bit errors of key slots, token buckets and lease timers that were corrected, by class × 2²⁴ + index (R416). -/
  corrected : FMap Word32 := []
deriving DecidableEq, Repr

/-- The state of the engine. -/
structure State where
  /-- The commands that wait, first in first out: the model's own queue. -/
  pending : List Instr := []
  hall : Word64 := 0
  sled : Sled := {}
  fuses : Fuses := {}
  flash : Flash := {}
  hearth : Hearth := {}
  thermal : Thermal := {}
  tap : Tap := {}
  wd : Watchdog := {}
  halt : Halt := {}
  sync : Sync := {}
  log : ErrLog := {}
  hosts : FMap HostPort := []
  ports : FMap FabPort := []
  suites : FMap Suite := []
  ctxs : FMap Context := []
  /-- The slot that issued last on each Caller (R136); a Caller that has issued nothing is not listed. -/
  callers : FMap Nat := []
  groups : FMap Group := []
  cellar : Cellar := {}
  /-- Tentative lanes, outgoing chunks, confirmed chunks, rings held and commits seen. -/
  lanes : List Lane := []
  outs : List OutChunk := []
  confirmed : List ChunkName := []
  rings : List HeldRing := []
  commits : List CommitRec := []
  /-- Chunks that failed a check or were retracted here and are to come again (R295, R296), chunks whose seals are to be dropped, and sent chunks
  that were given up. -/
  owed : List ChunkName := []
  droppedChunks : List DroppedChunk := []
  givenUp : List GivenUp := []
  /-- The Hallway's inputs: host ports 0 through 15, fabric ports from 16, Callers from 52, Cellar ports from 84 (R39). -/
  hallway : FMap HallPort := []
  /-- Traffic that arrived during Doze or a Doze wake, in order: it waits in its receiving queue for the end of the wake (R46). -/
  arrivals : List Instr := []
  mgmt : Mgmt := {}
  census : Census := {}
  svc : Service := {}
  /-- The next free value to draw: the model's own counter, no register of the engine. -/
  freeCtr : Nat := 0
deriving DecidableEq, Repr

/-- The engine right after reset: every field at the value its default gives. -/
def State.reset : State := {}

end Sys2Proof.Machine
end

