-- ==== Sys2Proof/Machine/Bits.lean ====
section
/-! DEFINITION. Byte order, bit fields and saturating counters: R4 (bit ranges), R5 (little-endian fields),
R391 and R478 (saturating counters), and the check value of R284. -/

namespace Sys2Proof.Machine

/-- Byte `i` of `b`; 0 past its end. -/
def byteAt (b : List Byte) (i : Nat) : Byte := b.getD i 0

/-- The little-endian field of `len` bytes at `off` (R5). -/
def le (b : List Byte) (off : Nat) : Nat → Nat
  | 0 => 0
  | n + 1 => (byteAt b off).toNat + 256 * le b (off + 1) n

/-- The big-endian field of `len` bytes at `off`, as SEC1 and FIPS 186-5 order them (R68). -/
def be (b : List Byte) (off : Nat) (len : Nat) : Nat :=
  ((List.range len).map (fun i => (byteAt b (off + i)).toNat)).foldl (fun a x => 256 * a + x) 0

/-- `v` as `len` little-endian bytes (R5). -/
def toLe : Nat → Nat → List Byte
  | 0, _ => []
  | n + 1, v => BitVec.ofNat 8 v :: toLe n (v / 256)

/-- Bits [hi:lo] of `v` (R4). -/
def bits (v hi lo : Nat) : Nat := v / 2 ^ lo % 2 ^ (hi + 1 - lo)

/-- Whether bit `i` of `v` is 1. -/
def bit (v i : Nat) : Bool := v / 2 ^ i % 2 == 1

/-- `len` bytes of `b` from `off`, 0 past its end. -/
def slice (b : List Byte) (off len : Nat) : List Byte :=
  (List.range len).map (fun i => byteAt b (off + i))

/-- The offset of the first byte that is not 0 among `len` bytes from `off` (R97). -/
def firstNonzero (b : List Byte) (off : Nat) : Nat → Option Nat
  | 0 => none
  | n + 1 => if byteAt b off = 0 then firstNonzero b (off + 1) n else some off

/-- Every one of `len` bytes from `off` is 0. -/
def allZero (b : List Byte) (off len : Nat) : Bool := (firstNonzero b off len).isNone

/-- The numbers below `n` whose bit is set in `mask`. -/
def maskList (mask n : Nat) : List Nat := (List.range n).filter (fun i => bit mask i)

/-- A 32-bit counter's next value; it saturates at 0xFFFF_FFFF (R478). -/
def satInc (w : Word32) : Word32 := if w = 0xFFFFFFFF then w else w + 1

/-- A 32-bit counter after `n` more events (R478). -/
def satAdd (w : Word32) (n : Nat) : Word32 :=
  if 0xFFFFFFFF ≤ w.toNat + n then 0xFFFFFFFF else BitVec.ofNat 32 (w.toNat + n)

/-- `v` held to 32 bits by saturation. -/
def sat32 (v : Nat) : Word32 := if 0xFFFFFFFF ≤ v then 0xFFFFFFFF else BitVec.ofNat 32 v

/-- One bit step of the reflected CRC-32C (R284). -/
def crcBit (c : Word32) : Word32 :=
  if c &&& 1 = 1 then (c >>> 1) ^^^ 0x82F63B78 else c >>> 1

/-- The CRC register after one byte (R284). -/
def crcByte (c : Word32) (b : Byte) : Word32 :=
  let x := c ^^^ b.setWidth 32
  crcBit (crcBit (crcBit (crcBit (crcBit (crcBit (crcBit (crcBit x)))))))

/-- CRC-32C over a byte string: polynomial 0x1EDC_6F41 reflected, initial value and final XOR 0xFFFF_FFFF
(R284). -/
def crc32c (b : List Byte) : Word32 := b.foldl crcByte 0xFFFFFFFF ^^^ 0xFFFFFFFF

/-- `⌈a / b⌉`. -/
def ceilDiv (a b : Nat) : Nat := (a + b - 1) / b

/-- A list with `v` at position `i`, extended with `d` as needed. -/
def listSet {α : Type} (d : α) : List α → Nat → α → List α
  | [], 0, v => [v]
  | [], i + 1, v => d :: listSet d [] i v
  | _ :: l, 0, v => v :: l
  | a :: l, i + 1, v => a :: listSet d l i v

/-- A list with `v` put in ascending order, once. -/
def insertNat (v : Nat) : List Nat → List Nat
  | [] => [v]
  | a :: l => if v < a then v :: a :: l else if v = a then a :: l else a :: insertNat v l

/-- A list cut into runs of `n`; fuel bounds the number of runs. -/
def chunksOf {α : Type} (n : Nat) : Nat → List α → List (List α)
  | 0, _ => []
  | _ + 1, [] => []
  | f + 1, a :: l => (a :: l).take n :: chunksOf n f ((a :: l).drop n)

/-- The three-way result of a check list: the first condition that holds gives its code. -/
def firstFail : List (Bool × Nat × Nat) → Option (Nat × Nat)
  | [] => none
  | (c, r) :: l => if c then some r else firstFail l

end Sys2Proof.Machine
end

