-- ==== Sys2Proof/Machine/Flags.lean ====
section
/-! DEFINITION. The arithmetic of the reduction units and what it counts (chapter 09): number formats, FP32 sums,
saturating integers, rounding at the root, the stochastic generator, and the digest. A binary32 value is its 32
bits; its exact value is an integer multiple of 2^-149. -/

namespace Sys2Proof.Machine

/-! ## Binary32 and the narrower formats (R260-R264) -/

/-- The canonical NaN of FP32 (R263). -/
def nan32 : Nat := 0x7FC00000
/-- The magnitude bits of an FP32 value. -/
def mag32 (x : Nat) : Nat := x % 0x80000000
/-- The sign of an FP32 value. -/
def neg32 (x : Nat) : Bool := bit x 31
/-- `x` is a NaN. -/
def isNan32 (x : Nat) : Bool := 0x7F800000 < mag32 x
/-- `x` is an infinity. -/
def isInf32 (x : Nat) : Bool := mag32 x == 0x7F800000
/-- The magnitude of a finite FP32 value in units of 2^-149. -/
def fix32 (x : Nat) : Nat :=
  let e := bits x 30 23
  let f := bits x 22 0
  if e = 0 then f else (0x800000 + f) * 2 ^ (e - 1)
/-- The exact value of a finite FP32 value in units of 2^-149. -/
def int32 (x : Nat) : Int := if neg32 x then - (fix32 x : Int) else (fix32 x : Int)

/-- `n / 2^k` rounded to nearest, ties to even. -/
def rne (n k : Nat) : Nat :=
  let q := n / 2 ^ k
  let r := n % 2 ^ k
  if 2 ^ k < 2 * r ∨ (2 * r = 2 ^ k ∧ q % 2 = 1) then q + 1 else q

/-- A binary format: fraction bits, the unit of its subnormals as a power of two above 2^-149, the code of its largest
finite magnitude, its infinity's code (none where a rounded value past the range saturates), its sign bit and
its NaN. -/
structure Fmt where
  mant : Nat
  unit : Nat
  top : Nat
  inf : Option Nat
  sign : Nat
  nan : Nat

/-- FP32. -/
def fmtFp32 : Fmt := ⟨23, 0, 0x7F7FFFFF, some 0x7F800000, 31, 0x7FC00000⟩
/-- BF16. -/
def fmtBf16 : Fmt := ⟨7, 16, 0x7F7F, some 0x7F80, 15, 0x7FC0⟩
/-- FP16. -/
def fmtFp16 : Fmt := ⟨10, 125, 0x7BFF, some 0x7C00, 15, 0x7E00⟩
/-- OFP8 E4M3: no infinity (R264). -/
def fmtE4m3 : Fmt := ⟨3, 140, 0x7E, none, 7, 0x7F⟩
/-- OFP8 E5M2: a rounded value past the range saturates, an infinity stays one (R264). -/
def fmtE5m2 : Fmt := ⟨2, 133, 0x7B, none, 7, 0x7E⟩

/-- The power of two of the last place of a magnitude `n` in format `f`. -/
def Fmt.quantum (f : Fmt) (n : Nat) : Nat := max f.unit (Nat.log2 n - f.mant)
/-- The code of `r` units of the last place `2^q`, as though the exponent range had no upper limit. -/
def Fmt.code (f : Fmt) (q r : Nat) : Nat := (q - f.unit) * 2 ^ f.mant + r
/-- The code of magnitude `n` rounded to nearest even, range unlimited (R264, R270). -/
def Fmt.near (f : Fmt) (n : Nat) : Nat := f.code (f.quantum n) (rne n (f.quantum n))
/-- The code of magnitude `n` truncated, range unlimited (R271). -/
def Fmt.trunc (f : Fmt) (n : Nat) : Nat := f.code (f.quantum n) (n / 2 ^ f.quantum n)
/-- The code that stochastic rounding by the 24-bit `u` gives: up when u × |a − t| < |v − t| × 2²⁴ (R271); a value past
the largest finite one is rounded to nearest, whatever `u` is (DEDUCED, log 13). -/
def Fmt.stoch (f : Fmt) (n u : Nat) : Nat :=
  let q := f.quantum n
  let rem := n % 2 ^ q
  if f.top ≤ f.trunc n ∧ rem ≠ 0 ∨ f.top < f.trunc n then f.near n
  else if u * 2 ^ q < rem * 2 ^ 24 then f.trunc n + 1 else f.trunc n

/-- The FP32 bits of an exact value, rounded to nearest even; `zneg` is the sign of an exact zero (R262). -/
def round32 (v : Int) (zneg : Bool) : Nat :=
  let n := v.natAbs
  let c := fmtFp32.near n
  let m := if fmtFp32.top < c then 0x7F800000 else c
  (if v < 0 ∨ (n = 0 ∧ zneg) then 0x80000000 else 0) + m

/-- An IEEE 754 binary32 addition to nearest even, subnormals kept, every NaN canonical (R262, R263). -/
def add32 (x y : Nat) : Nat :=
  if isNan32 x || isNan32 y then nan32
  else if isInf32 x then (if isInf32 y && neg32 x != neg32 y then nan32 else x)
  else if isInf32 y then y
  else round32 (int32 x + int32 y) (neg32 x && neg32 y)

/-- An FP32 addition of finite values overflowed to infinity (R266). -/
def addOverflows (x y : Nat) : Bool :=
  !isNan32 x && !isInf32 x && !isNan32 y && !isInf32 y && isInf32 (add32 x y)

/-- A key that orders FP32 values with −0 below +0 (R263). -/
def key32 (x : Nat) : Int := if neg32 x then -1 - (mag32 x : Int) else (mag32 x : Int)

/-- FP max (R263). -/
def max32 (x y : Nat) : Nat := if isNan32 x || isNan32 y then nan32 else if key32 x < key32 y then y else x
/-- FP min (R263). -/
def min32 (x y : Nat) : Nat := if isNan32 x || isNan32 y then nan32 else if key32 y < key32 x then y else x

/-- A narrow value of format `f` widened exactly to FP32 (R260); its largest infinity code is the one past `top` where
`inf` has it, and E5M2's is 0x7C. -/
def widen (f : Fmt) (x : Nat) : Nat :=
  let m := x % 2 ^ f.sign
  let neg := bit x f.sign
  let e := m / 2 ^ f.mant
  let g := m % 2 ^ f.mant
  let sgn := if neg then 0x80000000 else 0
  if f.top < m then (if f.mant ≠ 3 ∧ m = f.top + 1 then sgn + 0x7F800000 else nan32)
  else
    let n := if e = 0 then g else (2 ^ f.mant + g) * 2 ^ (e - 1)
    let v : Int := n * 2 ^ f.unit
    round32 (if neg then -v else v) neg

/-! ## Data types of a Figure (chapter 04) -/

/-- Bytes of one element; 0 for an invalid code. -/
def elemBytes (dt : Nat) : Nat :=
  match dt with
  | 0 => 4 | 1 => 2 | 2 => 2 | 3 => 1 | 4 => 1 | 5 => 4 | 6 => 1 | _ => 0

/-- A floating-point type. -/
def isFloat (dt : Nat) : Bool := dt < 5

/-- The format of a floating-point type. -/
def fmtOf (dt : Nat) : Fmt :=
  match dt with
  | 1 => fmtBf16 | 2 => fmtFp16 | 3 => fmtE4m3 | 4 => fmtE5m2 | _ => fmtFp32

/-- The signed value of `n` bits. -/
def signedOf (n v : Nat) : Int := if 2 ^ (n - 1) ≤ v then (v : Int) - 2 ^ n else (v : Int)
/-- The two's-complement 32 bits of a value. -/
def wrap32 (v : Int) : Nat := (BitVec.ofInt 32 v).toNat

/-- An input element widened to its accumulator format (R260). -/
def toAcc (dt x : Nat) : Nat :=
  match dt with
  | 0 => if isNan32 x then nan32 else x
  | 5 => x
  | 6 => wrap32 (signedOf 8 x)
  | _ => widen (fmtOf dt) x

/-- A saturating INT32 sum and whether it saturated (R262). -/
def addSat (x y : Nat) : Nat × Bool :=
  let v := signedOf 32 x + signedOf 32 y
  if v < -0x80000000 then (0x80000000, true) else if 0x7FFFFFFF < v then (0x7FFFFFFF, true) else (wrap32 v, false)

/-- One operation on two accumulators: the result, and whether it overflowed or saturated (R262, R263, R266). -/
def accOp (dt op x y : Nat) : Nat × Bool × Bool :=
  if isFloat dt then
    match op with
    | 0 => (add32 x y, addOverflows x y, false)
    | 1 => (max32 x y, false, false)
    | _ => (min32 x y, false, false)
  else
    match op with
    | 0 => let r := addSat x y; (r.1, false, r.2)
    | 1 => (if signedOf 32 x < signedOf 32 y then y else x, false, false)
    | 2 => (if signedOf 32 y < signedOf 32 x then y else x, false, false)
    | _ => (x ||| y, false, false)

/-- A result element: its bits in the output format, and whether it is a NaN, overflowed at the conversion, or
saturated at the conversion (R264, R265, R266). -/
structure OutElem where
  bits : Nat
  nan : Bool
  ovf : Bool
  sat : Bool

/-- The conversion at the root (R264, R265, R270, R271); `u` is none when SR is clear. -/
def fromAcc (dt : Nat) (u : Option Nat) (v : Nat) : OutElem :=
  match dt with
  | 0 => if isNan32 v then ⟨nan32, true, false, false⟩ else ⟨v, false, false, false⟩
  | 5 => ⟨v, false, false, false⟩
  | 6 =>
    let x := signedOf 32 v
    if x < -128 then ⟨0x80, false, false, true⟩ else if 127 < x then ⟨0x7F, false, false, true⟩
    else ⟨wrap32 x % 256, false, false, false⟩
  | _ =>
    let f := fmtOf dt
    let sgn := if neg32 v then 2 ^ f.sign else 0
    if isNan32 v then ⟨f.nan, true, false, false⟩
    else if isInf32 v then
      (if dt = 3 then ⟨f.nan, true, false, false⟩ else ⟨sgn + f.top + 1, false, false, false⟩)
    else
      let n := fix32 v
      let c := match u with | none => f.near n | some w => f.stoch n w
      if f.top < c then
        match f.inf with
        | some i => ⟨sgn + i, false, true, false⟩
        | none => ⟨sgn + f.top, false, false, true⟩
      else ⟨sgn + c, false, false, false⟩

/-! ## The generator (R272, R273) -/

/-- m0 of R273. -/
def genM0 (y : Word32) : Word32 := let z := y + (y <<< 12) + (y <<< 20); z ^^^ (z >>> 16)
/-- m1 of R273. -/
def genM1 (y : Word32) : Word32 := let z := y + (y <<< 4) + (y <<< 24); z ^^^ (z >>> 16)

/-- Rounds `r` and after, `n` of them. -/
def genRounds (s : Word32) : Nat → Nat → Word32 → Word32 → Word32 → Word32 → Word32
  | 0, _, x0, _, _, _ => x0
  | n + 1, r, x0, x1, x2, x3 =>
    let k := s ^^^ BitVec.ofNat 32 (r * 0x11111111)
    let a := genM0 (x0 ^^^ k)
    let b := genM1 (x2 ^^^ k)
    genRounds s n (r + 1) (x1 ^^^ b) x2 (x3 ^^^ a) x0

/-- Output word x0 of `gen` (R273). -/
def gen (s c0 c1 c2 c3 : Word32) : Word32 := genRounds s 10 0 c0 c1 c2 c3

/-- The 24-bit u of an element (R272). -/
def srDraw (seed : Word32) (elem chunk group epoch : Nat) : Nat :=
  (gen seed (BitVec.ofNat 32 elem) (BitVec.ofNat 32 chunk) (BitVec.ofNat 32 group) (BitVec.ofNat 32 epoch)).toNat / 256

/-! ## The digest (R274, R275, R278) -/

/-- p = 2⁶¹ − 1. -/
def digP : Nat := 2 ^ 61 - 1
/-- P of R274. -/
def digMul : Nat := 0x0B5ED17E2A934C6B
/-- H of a byte string (R274). -/
def digH (b : List Byte) : Nat := b.foldl (fun h x => (h * digMul + x.toNat) % digP) 0
/-- `P^n mod p` over 64 bits of `n`. -/
def digPow : Nat → Nat → Nat → Nat
  | 0, _, _ => 1
  | k + 1, b, n => (if n % 2 = 1 then b else 1) * digPow k (b * b % digP) (n / 2) % digP
/-- H(A ‖ B) from H(A), H(B) and |B| (R275). -/
def digCat (ha hb lenB : Nat) : Nat := (ha * digPow 64 digMul lenB + hb) % digP
/-- D from H and the length (R274). -/
def digD (h n : Nat) : Nat := (h * digMul + n) % digP
/-- A collective's share of its layer digest (R278). -/
def digLayer (d idx pass : Nat) : Nat := (d * digMul + idx + 2 ^ 24 * pass) % digP

end Sys2Proof.Machine
end

