-- ==== Sys2Proof/Machine/Crypto.lean ====
section
/-! DEFINITION. The public standards that the spec names and the engine computes with: SHA-384 (R69, R70, R78,
R349; FIPS 180-4) and ECDSA P-384 signature checks (R69, R439; FIPS 186-5). PRESUMED: their text is the
standards', not the spec's (see the assumption log). -/

namespace Sys2Proof.Machine

/-- The 80 round constants of SHA-384, in four runs (FIPS 180-4). -/
def shaK0 : List Word64 :=
  [0x428A2F98D728AE22, 0x7137449123EF65CD, 0xB5C0FBCFEC4D3B2F, 0xE9B5DBA58189DBBC,
   0x3956C25BF348B538, 0x59F111F1B605D019, 0x923F82A4AF194F9B, 0xAB1C5ED5DA6D8118,
   0xD807AA98A3030242, 0x12835B0145706FBE, 0x243185BE4EE4B28C, 0x550C7DC3D5FFB4E2,
   0x72BE5D74F27B896F, 0x80DEB1FE3B1696B1, 0x9BDC06A725C71235, 0xC19BF174CF692694,
   0xE49B69C19EF14AD2, 0xEFBE4786384F25E3, 0x0FC19DC68B8CD5B5, 0x240CA1CC77AC9C65]

/-- Constants 20 to 39. -/
def shaK1 : List Word64 :=
  [0x2DE92C6F592B0275, 0x4A7484AA6EA6E483, 0x5CB0A9DCBD41FBD4, 0x76F988DA831153B5,
   0x983E5152EE66DFAB, 0xA831C66D2DB43210, 0xB00327C898FB213F, 0xBF597FC7BEEF0EE4,
   0xC6E00BF33DA88FC2, 0xD5A79147930AA725, 0x06CA6351E003826F, 0x142929670A0E6E70,
   0x27B70A8546D22FFC, 0x2E1B21385C26C926, 0x4D2C6DFC5AC42AED, 0x53380D139D95B3DF,
   0x650A73548BAF63DE, 0x766A0ABB3C77B2A8, 0x81C2C92E47EDAEE6, 0x92722C851482353B]

/-- Constants 40 to 59. -/
def shaK2 : List Word64 :=
  [0xA2BFE8A14CF10364, 0xA81A664BBC423001, 0xC24B8B70D0F89791, 0xC76C51A30654BE30,
   0xD192E819D6EF5218, 0xD69906245565A910, 0xF40E35855771202A, 0x106AA07032BBD1B8,
   0x19A4C116B8D2D0C8, 0x1E376C085141AB53, 0x2748774CDF8EEB99, 0x34B0BCB5E19B48A8,
   0x391C0CB3C5C95A63, 0x4ED8AA4AE3418ACB, 0x5B9CCA4F7763E373, 0x682E6FF3D6B2B8A3,
   0x748F82EE5DEFB2FC, 0x78A5636F43172F60, 0x84C87814A1F0AB72, 0x8CC702081A6439EC]

/-- Constants 60 to 79. -/
def shaK3 : List Word64 :=
  [0x90BEFFFA23631E28, 0xA4506CEBDE82BDE9, 0xBEF9A3F7B2C67915, 0xC67178F2E372532B,
   0xCA273ECEEA26619C, 0xD186B8C721C0C207, 0xEADA7DD6CDE0EB1E, 0xF57D4F7FEE6ED178,
   0x06F067AA72176FBA, 0x0A637DC5A2C898A6, 0x113F9804BEF90DAE, 0x1B710B35131C471B,
   0x28DB77F523047D84, 0x32CAAB7B40C72493, 0x3C9EBE0A15C9BEBC, 0x431D67C49C100D4C,
   0x4CC5D4BECB3E42B6, 0x597F299CFC657E2A, 0x5FCB6FAB3AD6FAEC, 0x6C44198C4A475817]

/-- The initial hash value of SHA-384. -/
def shaInit : List Word64 :=
  [0xCBBB9D5DC1059ED8, 0x629A292A367CD507, 0x9159015A3070DD17, 0x152FECD8F70E5939,
   0x67332667FFC00B31, 0x8EB44A8768581511, 0xDB0C2E0D64F98FA7, 0x47B5481DBEFA4FA4]

/-- The padded message: 0x80, zeros, and the bit length in 16 big-endian bytes. -/
def shaPad (m : List Byte) : List Byte :=
  let z := (239 - m.length % 128) % 128
  m ++ 0x80 :: List.replicate z 0 ++ (toLe 16 (8 * m.length)).reverse

/-- The 16 big-endian words of a 128-byte block. -/
def shaWords (b : List Byte) : List Word64 :=
  (List.range 16).map (fun i => BitVec.ofNat 64 (be b (8 * i) 8))

/-- The message schedule, newest word first: `n` more words. -/
def shaExpand : Nat → List Word64 → List Word64
  | 0, w => w
  | n + 1, w =>
    let w2 := w.getD 1 0
    let w15 := w.getD 14 0
    let s1 := w2.rotateRight 19 ^^^ w2.rotateRight 61 ^^^ (w2 >>> 6)
    let s0 := w15.rotateRight 1 ^^^ w15.rotateRight 8 ^^^ (w15 >>> 7)
    shaExpand n ((s1 + w.getD 6 0 + s0 + w.getD 15 0) :: w)

/-- One round on the eight working variables. -/
def shaRound (v : List Word64) (kw : Word64) : List Word64 :=
  match v with
  | [a, b, c, d, e, f, g, h] =>
    let t1 := h + (e.rotateRight 14 ^^^ e.rotateRight 18 ^^^ e.rotateRight 41) + ((e &&& f) ^^^ (~~~e &&& g)) + kw
    let t2 := (a.rotateRight 28 ^^^ a.rotateRight 34 ^^^ a.rotateRight 39) + ((a &&& b) ^^^ (a &&& c) ^^^ (b &&& c))
    [t1 + t2, a, b, c, d + t1, e, f, g]
  | _ => v

/-- The hash value after one block. -/
def shaBlock (h : List Word64) (b : List Byte) : List Word64 :=
  let w := (shaExpand 64 (shaWords b).reverse).reverse
  let k := shaK0 ++ shaK1 ++ shaK2 ++ shaK3
  List.zipWith (fun x y => x + y) h ((List.zipWith (fun x y => x + y) k w).foldl shaRound h)

/-- SHA-384 of a byte string: 48 bytes (R78, R349). -/
def sha384 (m : List Byte) : List Byte :=
  let p := shaPad m
  let h := (chunksOf 128 (p.length / 128) p).foldl shaBlock shaInit
  (h.take 6).flatMap (fun w => (toLe 8 w.toNat).reverse)

/-- SHA-384 as one number, big-endian. -/
def sha384Nat (m : List Byte) : Nat := be (sha384 m) 0 48

/-- The digest of R78: the first 8 bytes of SHA-384, read little-endian. -/
def digest8 (m : List Byte) : Word64 := BitVec.ofNat 64 (le (sha384 m) 0 8)

/-! ## ECDSA over P-384 -/

/-- The field prime. -/
def ecP : Nat := 2 ^ 384 - 2 ^ 128 - 2 ^ 96 + 2 ^ 32 - 1

/-- The group order. -/
def ecN : Nat := 0xffffffffffffffffffffffffffffffffffffffffffffffffc7634d81f4372ddf581a0db248b0a77aecec196accc52973

/-- The curve's coefficient b; a is −3. -/
def ecB : Nat := 0xb3312fa7e23ee7e4988e056be3f82d19181d9c6efe8141120314088f5013875ac656398d8a2ed19d2a85c8edd3ec2aef

/-- The base point. -/
def ecGx : Nat := 0xaa87ca22be8b05378eb1c71ef320ad746e1d3b628ba79b9859f741e082542a385502f25dbf55296c3a545e3872760ab7
def ecGy : Nat := 0x3617de4a96262c6f5d9e98bf9292dc29f8f41dbd289a147ce9da3113b5f0b8c00a60b1ce1d7e819d7a431d7c90ea0e5f

/-- `b ^ e mod m` over the low `n` bits of `e`. -/
def powMod (m : Nat) : Nat → Nat → Nat → Nat
  | 0, _, _ => 1 % m
  | n + 1, b, e => (if e % 2 = 1 then b else 1) * powMod m n (b * b % m) (e / 2) % m

/-- A point in Jacobian coordinates; z = 0 is the point at infinity. -/
structure EcPoint where
  x : Nat
  y : Nat
  z : Nat
deriving DecidableEq, Repr

/-- Doubling, for a = −3. -/
def ecDouble (a : EcPoint) : EcPoint :=
  let zz := a.z * a.z % ecP
  let yy := a.y * a.y % ecP
  let m := 3 * ((a.x + ecP - zz) * (a.x + zz) % ecP) % ecP
  let t := 4 * (a.x * yy % ecP) % ecP
  let x3 := (m * m + 2 * (ecP - t)) % ecP
  let y3 := (m * (t + ecP - x3) + (ecP - 8 * (yy * yy % ecP) % ecP)) % ecP
  ⟨x3, y3, 2 * a.y * a.z % ecP⟩

/-- Addition. -/
def ecAdd (a b : EcPoint) : EcPoint :=
  if a.z = 0 then b
  else if b.z = 0 then a
  else
    let za := a.z * a.z % ecP
    let zb := b.z * b.z % ecP
    let u1 := a.x * zb % ecP
    let u2 := b.x * za % ecP
    let s1 := a.y * zb % ecP * b.z % ecP
    let s2 := b.y * za % ecP * a.z % ecP
    if u1 = u2 then (if s1 = s2 then ecDouble a else ⟨1, 1, 0⟩)
    else
      let h := (u2 + ecP - u1) % ecP
      let r := (s2 + ecP - s1) % ecP
      let hh := h * h % ecP
      let hhh := hh * h % ecP
      let v := u1 * hh % ecP
      let x3 := (r * r + (ecP - hhh) + 2 * (ecP - v)) % ecP
      let y3 := (r * (v + ecP - x3) + (ecP - s1 * hhh % ecP)) % ecP
      ⟨x3, y3, h * a.z % ecP * b.z % ecP⟩

/-- `k` times a point, over the low `n` bits of `k`. -/
def ecMul : Nat → Nat → EcPoint → EcPoint
  | 0, _, _ => ⟨1, 1, 0⟩
  | n + 1, k, a => let r := ecMul n (k / 2) (ecDouble a); if k % 2 = 1 then ecAdd a r else r

/-- The uncompressed point 0x04 ‖ X ‖ Y lies on the curve (R68). -/
def ecOnCurve (x y : Nat) : Bool :=
  x < ecP && y < ecP && (y * y) % ecP == (x * x % ecP * x + (ecP - 3) * x + ecB) % ecP

/-- ECDSA P-384 over a SHA-384 hash `e` (R69): public key of 97 bytes and signature r ‖ s. -/
def ecdsaVerify (key : List Byte) (e : Nat) (sig : List Byte) : Bool :=
  let x := be key 1 48
  let y := be key 49 48
  let r := be sig 0 48
  let s := be sig 48 48
  if byteAt key 0 = 4 ∧ ecOnCurve x y ∧ 0 < r ∧ r < ecN ∧ 0 < s ∧ s < ecN then
    let w := powMod ecN 384 s (ecN - 2)
    let p := ecAdd (ecMul 384 (e * w % ecN) ⟨ecGx, ecGy, 1⟩) (ecMul 384 (r * w % ecN) ⟨x, y, 1⟩)
    if p.z = 0 then false
    else
      let zi := powMod ecP 384 (p.z * p.z % ecP) (ecP - 2)
      (p.x * zi % ecP) % ecN == r
  else false

end Sys2Proof.Machine
end

