-- ==== Sys2Proof/Machine/Ops.lean ====
section
/-! DEFINITION. The named operations over the state that every family shares: access to the numbered units, the
locked configuration (R73), byte memory, error records (R421-R426), management events (R517), MSI-X (R407,
R408) and the ordered posted-write paths (R403). -/

namespace Sys2Proof.Machine

/-- What a command answers. -/
abbrev Out := Host.Outcome State Fault Refusal

/-! ## Numbered units -/

/-- Context `c`. -/
def State.ctx (s : State) (c : Nat) : Context := FMap.get {} s.ctxs c
/-- `s` with context `c` replaced. -/
def State.putCtx (s : State) (c : Nat) (x : Context) : State := { s with ctxs := FMap.put s.ctxs c x }
/-- `s` with context `c` changed. -/
def State.modCtx (s : State) (c : Nat) (f : Context → Context) : State := s.putCtx c (f (s.ctx c))

/-- Host block `h`. -/
def State.host (s : State) (h : Nat) : HostPort := FMap.get {} s.hosts h
/-- `s` with host block `h` replaced. -/
def State.putHost (s : State) (h : Nat) (x : HostPort) : State := { s with hosts := FMap.put s.hosts h x }
/-- `s` with host block `h` changed. -/
def State.modHost (s : State) (h : Nat) (f : HostPort → HostPort) : State := s.putHost h (f (s.host h))

/-- Fabric port `p`. -/
def State.port (s : State) (p : Nat) : FabPort := FMap.get {} s.ports p
/-- `s` with fabric port `p` replaced. -/
def State.putPort (s : State) (p : Nat) (x : FabPort) : State := { s with ports := FMap.put s.ports p x }
/-- `s` with fabric port `p` changed. -/
def State.modPort (s : State) (p : Nat) (f : FabPort → FabPort) : State := s.putPort p (f (s.port p))
/-- `s` with the counters of port `p` changed. -/
def State.countPort (s : State) (p : Nat) (f : PortCounters → PortCounters) : State :=
  s.modPort p (fun x => { x with cnt := f x.cnt })

/-- Suite `i`. -/
def State.suite (s : State) (i : Nat) : Suite := FMap.get {} s.suites i
/-- `s` with Suite `i` replaced. -/
def State.putSuite (s : State) (i : Nat) (x : Suite) : State := { s with suites := FMap.put s.suites i x }
/-- `s` with Suite `i` changed. -/
def State.modSuite (s : State) (i : Nat) (f : Suite → Suite) : State := s.putSuite i (f (s.suite i))

/-- Group `g`. -/
def State.grp (s : State) (g : Nat) : Group := FMap.get {} s.groups g
/-- `s` with group `g` replaced. -/
def State.putGrp (s : State) (g : Nat) (x : Group) : State := { s with groups := FMap.put s.groups g x }
/-- `s` with group `g` changed. -/
def State.modGrp (s : State) (g : Nat) (f : Group → Group) : State := s.putGrp g (f (s.grp g))

/-- Extent `e`. -/
def State.ext (s : State) (e : Nat) : Extent := FMap.get {} s.cellar.extents e
/-- `s` with extent `e` replaced. -/
def State.putExt (s : State) (e : Nat) (x : Extent) : State :=
  { s with cellar := { s.cellar with extents := FMap.put s.cellar.extents e x } }
/-- `s` with extent `e` changed. -/
def State.modExt (s : State) (e : Nat) (f : Extent → Extent) : State := s.putExt e (f (s.ext e))

/-- `f` applied over a list of unit numbers, first to last. -/
def overList {α : Type} (f : State → α → State) (l : List α) (s : State) : State := l.foldl f s

/-! ## Engine identity and the locked configuration (R26, R73) -/

/-- The engine ID: ROOM_ID × 8 + SLOT_ID (R26). -/
def State.engineId (s : State) : Nat := s.hearth.roomId.toNat * 8 + s.hearth.slotId.toNat

/-- A little-endian field of the locked configuration block (R73). -/
def State.cfg (s : State) (off len : Nat) : Nat := le s.hearth.config off len

/-- The engine takes the spine role (R22). -/
def State.spine (s : State) : Bool := s.cfg 6 1 == 1
/-- The counter-master role (R66). -/
def State.master (s : State) : Bool := s.cfg 7 1 == 1
/-- The configured Hall ID. -/
def State.hallId (s : State) : BitVec 16 := BitVec.ofNat 16 (s.cfg 8 2)
/-- The Doze idle window, µs (R43). -/
def State.dozeWindow (s : State) : Nat := s.cfg 0x022 2
/-- The default lease, s (R350). -/
def State.defaultLease (s : State) : Nat := s.cfg 0x028 2
/-- The configured number of staging extents (R328). -/
def State.stagingCount (s : State) : Nat := s.cfg 0x02A 2
/-- Pair `n` is bonded (R392). -/
def State.bonded (s : State) (n : Nat) : Bool := bit (s.cfg 0x00A 1) n
/-- The watchdog period in µs: the boot period up to the first full period after the lock (R62). -/
def State.wdPeriodUs (s : State) : Nat := if s.hearth.locked && !s.wd.lockPending then s.cfg 0x01C 4 else 1000000
/-- The required slots: slot 0 alone before the lock; slot 0 always (R62). -/
def State.wdMask (s : State) : Nat := if s.hearth.locked && !s.wd.lockPending then s.cfg 0x020 1 ||| 1 else 1
/-- SYNC use bit `i`; the hard barrier wire only if boot left it enabled (R73, R75). -/
def State.syncUse (s : State) (i : Nat) : Bool := bit (s.cfg 0x00B 1) i && !(i == 1 && s.hearth.wireDisabled)

/-- The Suite table entry's field of Suite `i` (R73). -/
def State.suiteCfg (s : State) (i off len : Nat) : Nat := s.cfg (0x100 + 16 * i + off) len
/-- Suite `i` is enabled and boot did not disable it (R75, R141). -/
def State.suiteOn (s : State) (i : Nat) : Bool := i < 16 && bit (s.cfg 0x02C 2) i && !(s.suite i).refusedAtBoot
/-- The host-port mask of Suite `i` names port `p`. -/
def State.suiteHasPort (s : State) (i p : Nat) : Bool := bit (s.suiteCfg i 0 2) p
/-- Context `c` lies in the range of Suite `i`. -/
def State.suiteHasCtx (s : State) (i c : Nat) : Bool :=
  s.suiteCfg i 2 2 ≤ c && c < s.suiteCfg i 2 2 + s.suiteCfg i 4 2
/-- The enabled Suite that owns context `c` (R138). -/
def State.suiteOfCtx (s : State) (c : Nat) : Option Nat :=
  (List.range 16).find? (fun i => s.suiteOn i && s.suiteHasCtx i c)
/-- The enabled Suite that owns host port `p` (R138). -/
def State.suiteOfPort (s : State) (p : Nat) : Option Nat :=
  (List.range 16).find? (fun i => s.suiteOn i && s.suiteHasPort i p)
/-- The contexts of Suite `i`. -/
def State.suiteCtxs (s : State) (i : Nat) : List Nat :=
  (List.range (s.suiteCfg i 4 2)).map (fun k => s.suiteCfg i 2 2 + k)
/-- The owner port of Suite `i`: the lowest-numbered port of its mask (R139). -/
def State.ownerPort (s : State) (i : Nat) : Nat :=
  ((List.range 16).find? (fun p => s.suiteHasPort i p)).getD 16

/-- Host port `p` is enabled and boot did not disable it (R75). -/
def State.hostOn (s : State) (p : Nat) : Bool :=
  p < 16 && bit (s.cfg 0x00C 2) p && !s.spine && (s.suiteOfPort p).isSome
/-- CXL.mem is enabled on port `p`. -/
def State.cxlOn (s : State) (p : Nat) : Bool := bit (s.cfg 0x00E 2) p
/-- ATS is enabled on port `p`. -/
def State.atsOn (s : State) (p : Nat) : Bool := bit (s.cfg 0x010 2) p
/-- The host index of port `p`: the even port of a bonded pair (R392). -/
def State.hostIndex (s : State) (p : Nat) : Nat := if s.bonded (p / 2) then 2 * (p / 2) else p
/-- The host indices whose port may train: enabled ports, a bonded pair under its HP2n (R393). -/
def State.hostIndices (s : State) : List Nat :=
  (List.range 16).filter (fun p => s.hostIndex p == p && s.hostOn p)
/-- Fabric port `p` is enabled and boot did not disable it (R21, R75). DESIGN CHOICE (entry 33): the configuration block has no field by which
a new image makes a spare replace a downlink, so FP32 through FP35 of a spine stay idle under every image. -/
def State.fabOn (s : State) (p : Nat) : Bool :=
  p < 36 && bit (s.cfg 0x014 8) p && !(s.spine && 32 ≤ p)
/-- The host block of Suite `i`'s owner host. -/
def State.ownerHost (s : State) (i : Nat) : Nat := s.hostIndex (s.ownerPort i)

/-- The engine is Ready and not Banked or on the way there (R42, R61). -/
def State.isReady (s : State) : Bool :=
  s.hearth.startup == .ready && s.hearth.power != .banked && s.hearth.power != .banking
/-- Host block `h` is Serving (R394). -/
def State.hostServing (s : State) (h : Nat) : Bool := (s.host h).state == .serving
/-- No Figure issues: the engine is Fenced, halting or halted (R122). -/
def State.issueStopped (s : State) : Bool :=
  s.wd.state == .fenced || s.wd.state == .fencedClean || s.halt.state != .running
/-- The hall count as a number. -/
def State.now (s : State) : Nat := s.hall.toNat

/-! ## Byte memory in canonical form: rising addresses, no byte equal to the default -/

/-- The byte at `a`; an unlisted address reads `d`. -/
def memRead (d : Byte) : List Host.Cell → Nat → Byte
  | [], _ => d
  | (b, v) :: m, a => if b = a then v else memRead d m a

/-- `m` with the byte at `a` set to `v`; a default byte is not listed. -/
def memWrite (d : Byte) : List Host.Cell → Nat → Byte → List Host.Cell
  | [], a, v => if v = d then [] else [(a, v)]
  | (b, w) :: m, a, v =>
    if a < b then (if v = d then (b, w) :: m else (a, v) :: (b, w) :: m)
    else if b = a then (if v = d then m else (a, v) :: m)
    else (b, w) :: memWrite d m a v

/-- Canonical byte memory: addresses strictly rise, and no entry holds the default. -/
def Memory.wf (d : Byte) : List Host.Cell → Bool
  | [] => true
  | [(_, v)] => v != d
  | (a, v) :: (b, w) :: m => v != d && a < b && Memory.wf d ((b, w) :: m)

/-- `len` bytes from `a`. -/
def memBytes (d : Byte) (m : List Host.Cell) (a len : Nat) : List Byte :=
  (List.range len).map (fun i => memRead d m (a + i))

/-- `m` with a byte string written from `a`. -/
def memPut (d : Byte) : List Host.Cell → Nat → List Byte → List Host.Cell
  | m, _, [] => m
  | m, a, v :: l => memPut d (memWrite d m a v) (a + 1) l

/-- `m` with every byte from `lo` up to, not with, `hi` back at the default. -/
def memClear (m : List Host.Cell) (lo hi : Nat) : List Host.Cell :=
  m.filter (fun c => c.1 < lo || hi ≤ c.1)

/-! ## Management events (R517) -/

/-- A fabric-manager session is open (R508). -/
def Mgmt.fmOpen (m : Mgmt) : Bool := m.sessions.any (fun x => x.host.isNone)

/-- The management block after an event: sent to the open sessions, or queued, or lost (R517). -/
def Mgmt.event (m : Mgmt) (ev : MgmtEvent) : Mgmt :=
  if m.fmOpen then { m with sent := m.sent ++ [ev], smbusEvent := some ev, smbusRetries := 0, smbusWaiting := false }
  else if m.queue.length < 256 then { m with queue := m.queue ++ [ev] }
  else { m with lost := satInc m.lost, lostSince := true }

/-- The engine sends an event (R517). -/
def State.sendEvent (s : State) (code : Nat) (payload : List Byte) : State :=
  { s with mgmt := { s.mgmt.event ⟨code, payload⟩ with smbusFirst := s.hall } }

/-! ## Error records (R421-R426) -/

/-- The two's-complement 16 bits of a quarter-degree temperature. -/
def tempBits (t : Int) : Nat := (BitVec.ofInt 16 t).toNat

/-- The first 60 bytes of a record (R421). -/
def ErrRec.body (r : ErrRec) : List Byte :=
  let o := r.op.getD ⟨0, 0, 0, 0, 0⟩
  let flags := (if r.op.isSome then 1 else 0) + (if r.boot then 2 else 0) + (if r.buffered then 4 else 0) +
    (if r.fromBefore then 8 else 0)
  toLe 4 r.seq.toNat ++ toLe 8 r.hall.toNat ++ toLe 2 r.event ++ toLe 1 r.severity ++ toLe 1 r.unitClass ++
  toLe 3 r.unitIndex ++ toLe 1 flags ++ toLe 1 o.opcode ++ toLe 1 o.status ++ toLe 1 o.ctx ++ toLe 1 o.tenant ++
  toLe 3 o.figIdx ++ toLe 1 0 ++ toLe 2 (tempBits r.temp) ++ toLe 2 r.mv ++ toLe 4 r.repeats.toNat ++
  toLe 4 r.detail.toNat ++ toLe 8 r.addr.toNat ++ toLe 1 r.engine ++ toLe 1 0 ++ toLe 2 r.hallId.toNat ++
  toLe 4 r.fw.toNat ++ toLe 4 0

/-- The 64 bytes of a record (R421). -/
def ErrRec.bytes (r : ErrRec) : List Byte := r.body ++ toLe 4 (crc32c r.body).toNat

/-- What a record is written from: event, severity, unit and the fields of R421 that the event sets. -/
structure RecArgs where
  event : Nat
  severity : Nat
  unitClass : Nat
  unitIndex : Nat
  op : Option RecOp := none
  detail : Nat := 0
  addr : Nat := 0

/-- Whether record `r` takes an occurrence of `a` at hall count `now` as a repeat (R422). DESIGN CHOICE (entry 24): the failures of two
images are no repeats of each other, since each failure writes a record that carries its image (R71). -/
def ErrRec.folds (r : ErrRec) (a : RecArgs) (now : Nat) : Bool :=
  r.event == a.event && r.unitClass == a.unitClass && r.unitIndex == a.unitIndex && decide (r.op = a.op) &&
  (a.event != 0x0601 || r.addr.toNat == a.addr) &&
  !r.fromBefore && now - r.hall.toNat < 1000000000

/-- The ring with the newest record that takes the occurrence raised by one (R422); none if no record does. -/
def foldRepeat (ring : List ErrRec) (a : RecArgs) (now : Nat) : Option (List ErrRec) :=
  match ring.reverse.findIdx? (fun r => r.folds a now) with
  | none => none
  | some k =>
    let i := ring.length - 1 - k
    some ((List.range ring.length).zip ring |>.map (fun (j, r) => if j = i then { r with repeats := satInc r.repeats } else r))

/-- A record that the Attic still has to take (R423). -/
def ErrRec.waitsAttic (r : ErrRec) : Bool := 2 ≤ r.severity && !r.inAttic

/-- The ring with room for one record: its oldest record that may go, if it is full (R423). -/
def makeRoom (ring : List ErrRec) : Option (List ErrRec) :=
  if ring.length < 1024 then some ring
  else match ring.findIdx? (fun r => !r.waitsAttic) with
    | none => none
    | some i => some (ring.eraseIdx i)

/-- The record that the Hearth would write now (R421). -/
def State.newRecord (s : State) (a : RecArgs) : ErrRec :=
  { seq := s.log.nextSeq, hall := s.hall, event := a.event, severity := a.severity, unitClass := a.unitClass,
    unitIndex := a.unitIndex, op := a.op, boot := a.event / 256 == 6, buffered := s.hearth.live.isSome,
    temp := s.thermal.tj, mv := s.thermal.coreMv, detail := BitVec.ofNat 32 a.detail,
    addr := BitVec.ofNat 64 a.addr, engine := s.engineId % 256, hallId := s.hallId, fw := s.hearth.fwVersion }

/-- The log after an occurrence, and the record it wrote, if any (R88, R422, R423). -/
def State.logOccurrence (s : State) (a : RecArgs) : ErrLog × Option ErrRec :=
  let l := s.log
  match foldRepeat l.ring a s.now with
  | some ring => ({ l with ring := ring }, none)
  | none =>
    if s.hearth.live.isSome && 64 ≤ l.bufferedNow then ({ l with bufferedLost := satInc l.bufferedLost }, none)
    else match makeRoom l.ring with
      | none => ({ l with overflow := satInc l.overflow }, none)
      | some ring =>
        let r := s.newRecord a
        ({ l with ring := ring ++ [r], nextSeq := l.nextSeq + 1,
                  bufferedNow := if s.hearth.live.isSome then l.bufferedNow + 1 else l.bufferedNow,
                  unread := if 3 ≤ a.severity then l.unread ++ [r.seq] else l.unread }, some r)

/-- The Hearth firmware has started since the last reset: ALERT_N may be asserted (R60). -/
def State.alertOn (s : State) : Bool := s.hearth.startup != .reset && s.hearth.startup != .loading

/-- The engine writes an error record (R418-R423) and, at Unit fault or Fatal, sends the fault event and asserts
ALERT_N, once the firmware has started (R60, R426). -/
def State.record (s : State) (a : RecArgs) : State :=
  match s.logOccurrence a with
  | (l, none) => { s with log := l }
  | (l, some r) =>
    let s := { s with log := l }
    if 3 ≤ a.severity then
      ({ s with hearth := { s.hearth with alert := s.alertOn || s.hearth.alert } } : State).sendEvent 0x8001 r.bytes
    else s

/-! ## Posted writes and MSI-X (R403, R407, R408) -/

/-- The 64-byte flits a posted write takes (R56). -/
def HostWrite.flits : HostWrite → Nat
  | .data _ b _ _ => max 1 (ceilDiv b.length 64)
  | .msix _ _ _ => 1

/-- The flits on a path. -/
def pathFlits (l : List HostWrite) : Nat := (l.map HostWrite.flits).sum

/-- The 4 KiB page of an IOVA, the unit of a translation (R399). -/
def iovaPage (a : Word64) : Word64 := a >>> 12

/-- The IOVA needs no translation, or the port's cache holds it (R399). -/
def HostPort.translated (h : HostPort) (ats : Bool) (a : Word64) : Bool :=
  !ats || h.atsCache.any (fun t => t.1 == iovaPage a)

/-- A write that can be issued: Bus Master Enable is set (R400), and its address needs no translation or has one (R399). -/
def HostPort.writeReady (h : HostPort) (ats : Bool) : HostWrite → Bool
  | .data a _ _ _ => h.busMaster && h.translated ats a
  | .msix _ _ _ => h.busMaster

/-- Held writes enter the path in order while its 256 credits last (R54, R56). -/
def pumpWrites (ready : HostWrite → Bool) : List HostWrite → List HostWrite → List HostWrite × List HostWrite
  | path, [] => (path, [])
  | path, w :: l =>
    if ready w && pathFlits path + w.flits ≤ 256 then pumpWrites ready (path ++ [w]) l else (path, w :: l)

/-- A host block with its held writes moved on at hall count `now` (R54, R56); a path that was empty starts the 50 ms of R414. -/
def HostPort.pump (h : HostPort) (ats : Bool) (now : Word64) : HostPort :=
  let r := pumpWrites (h.writeReady ats) h.path h.heldWrites
  { h with path := r.1, heldWrites := r.2, pathSince := if h.path.isEmpty && !r.1.isEmpty then now else h.pathSince }

/-- The Porch takes a write toward host `h`, which waits while Bus Master Enable is clear (R133, R400); toward a host that is not Serving
it drops and counts it (R409). -/
def State.post (s : State) (h : Nat) (w : HostWrite) : State :=
  let x := s.host h
  if x.state == .serving then s.putHost h ({ x with heldWrites := x.heldWrites ++ [w] }.pump (s.atsOn h) s.hall)
  else s.putHost h { x with droppedWrites := satInc x.droppedWrites }

/-- `len` bytes that start `skew` bytes into an aligned 64-byte unit, cut at unit boundaries into parts of at most 512 bytes: offsets and lengths
(R118, R395). -/
def alignedCuts (skew len : Nat) : List (Nat × Nat) :=
  let d := skew % 64
  if len = 0 then [] else (List.range (ceilDiv (d + len) 512)).map (fun i => (512 * i - d, min (512 * i + 512 - d) len - (512 * i - d)))

/-- A byte string as writes of at most 512 bytes, cut at aligned 64-byte units (R118, R395). -/
def State.postBytes (s : State) (h : Nat) (iova : Nat) (b : List Byte) (c fid : Nat) : State :=
  (alignedCuts iova b.length).foldl (fun s (o, n) => s.post h (.data (BitVec.ofNat 64 (iova + o)) (slice b o n) c fid)) s

/-- The flight number that no flight has: completion entries are no Figure's data. -/
def noFlight : Nat := 0xFFFFFFFF

/-- The Porch sends vector `v` of host block `h`, or sets its pending bit (R408); after a link loss it is dropped and counted (R409). -/
def State.msix (s : State) (h v : Nat) : State :=
  let x := s.host h
  if x.state != .serving then (if x.everServed then s.putHost h { x with droppedWrites := satInc x.droppedWrites } else s)
  else
    let e := FMap.get {} x.msix v
    if e.masked then s.putHost h { x with pba := insertNat v x.pba }
    else s.post h (.msix e.addr e.data v)

/-- Vector 0 on a Suite's owner port (R407). -/
def State.suiteEvent (s : State) (i : Nat) : State := s.msix (s.ownerHost i) 0

/-- A Suite changes its state, and its owner port gets vector 0 (R141, R407). -/
def State.setSuite (s : State) (i : Nat) (st : SuiteState) : State := (s.modSuite i (fun x => { x with state := st })).suiteEvent i

/-- A draw of a free value: the counter's value, and the state after it. -/
def State.draw (s : State) : Nat × State := (s.freeCtr, { s with freeCtr := s.freeCtr + 1 })

end Sys2Proof.Machine
end

