-- ==== Sys2Proof/Machine/Topology.lean ====
section
/-! DEFINITION. The wiring of the Hall as one engine sees it (R17-R25): which engine and port each fabric port
meets, and the routes toward an engine. -/

namespace Sys2Proof.Machine

/-- The far engine and port that the wiring of a Hall of `rooms` compute Rooms prescribes for port `p` of the engine in slot `slot` of
Room `room`; none where the port stays in electrical idle: at the ends of the line, toward a Room that the Hall lacks, on a spare, and on
FP28 through FP35 of a Hall of one compute Room, which has no spine Rooms (R17-R21, R23, R31). -/
def prescribed (rooms room slot p : Nat) : Option (Nat × Nat) :=
  if 16 ≤ room then
    if p < 32 && p / 2 < rooms then some (p / 2 * 8 + slot, (if room = 16 then 32 else 34) + p % 2) else none
  else if p < 28 then some (room * 8 + (slot + p / 4 + 1) % 8, 4 * (6 - p / 4) + p % 4)
  else if rooms < 2 then none
  else if p < 30 then (if room = 0 then none else some ((room - 1) * 8 + slot, p + 2))
  else if p < 32 then (if room + 1 < rooms then some ((room + 1) * 8 + slot, p - 2) else none)
  else if p < 34 then some (16 * 8 + slot, 2 * room + (p - 32))
  else if p < 36 then some (17 * 8 + slot, 2 * room + (p - 34))
  else none

/-- The four ports toward the engine in slot `d` of the same Room (R17). -/
def meshPorts (slot d : Nat) : List Nat :=
  let j := (d + 7 - slot) % 8
  [4 * j, 4 * j + 1, 4 * j + 2, 4 * j + 3]

/-- The ports on which traffic for engine `dest` leaves the engine in `room`, `slot` (R17, R22, R24, R25). -/
def routesTo (room slot dest : Nat) : List Nat :=
  let r := dest / 8
  let d := dest % 8
  if 16 ≤ room then [2 * r, 2 * r + 1]
  else if r = room then (if d = slot then [] else meshPorts slot d)
  else if d ≠ slot then meshPorts slot d
  else if r + 1 = room then [28, 29]
  else if room + 1 = r then [30, 31]
  else [32, 33, 34, 35]

/-- Where port `p` of this engine should lead. DESIGN CHOICE (entry 33): the Rooms of the Hall are a fact of its wiring, `sled.rooms`, since
the spec has no field of configuration that names them. -/
def State.wired (s : State) (p : Nat) : Option (Nat × Nat) :=
  prescribed s.sled.rooms s.hearth.roomId.toNat s.hearth.slotId.toNat p

/-- The routes of this engine toward engine `dest`. -/
def State.routes (s : State) (dest : Nat) : List Nat :=
  routesTo s.hearth.roomId.toNat s.hearth.slotId.toNat dest

/-- Port `p` trains: enabled, and wired to something (R19, R21, R23). -/
def State.mayTrain (s : State) (p : Nat) : Bool := s.fabOn p && (s.wired p).isSome

/-- Engine `e` exists in the numbering of a Hall (R27). -/
def engineExists (e : Nat) : Bool := e < 144

/-- Accelerator position `a` exists (R29). -/
def positionExists (a : Nat) : Bool := a < 1024

end Sys2Proof.Machine
end

