-- ==== Sys2Proof/Machine/Operands.lean ====
section
/-! DEFINITION. Every operand form of a Figure (chapter 04): its fields, the reserved and range checks of R97-R114,
location selectors (R103, R105), group entries and tree descriptors (R207-R211), Bell selectors, the operand
block of a collective (R107, R108) with the buffer rules of R229-R235, R244 and R249, and its staging
reservation (R282). A check answers `none`, or a status and its detail. -/

namespace Sys2Proof.Machine

/-! ## Figure fields -/

/-- The opcode, byte 31 (R95). -/
def figOp (f : List Byte) : Nat := (byteAt f 31).toNat
/-- The flags, byte 30 (R95). -/
def figFlags (f : List Byte) : Nat := (byteAt f 30).toNat
/-- CPL (R96). -/
def figCpl (f : List Byte) : Bool := bit (figFlags f) 0
/-- IRQ (R96). -/
def figIrq (f : List Byte) : Bool := bit (figFlags f) 1
/-- A defined opcode (R97, R98). -/
def opKnown (op : Nat) : Bool := op ≤ 3 || op == 0x10 || (0x20 ≤ op && op ≤ 0x26) || (0x30 ≤ op && op ≤ 0x34)
/-- A collective opcode. -/
def isColl (op : Nat) : Bool := 0x20 ≤ op && op ≤ 0x26
/-- A collective that reduces: ALLREDUCE, REDUCE_SCATTER, REDUCE. -/
def isReducing (op : Nat) : Bool := op == 0x20 || op == 0x21 || op == 0x24
/-- BROADCAST and REDUCE use the root member. -/
def usesRoot (op : Nat) : Bool := op == 0x23 || op == 0x24
/-- Whether the Figure blocks later issue (R97, R115). -/
def figBlocks (f : List Byte) : Bool :=
  match figOp f with
  | 0x01 => true | 0x30 => true | 0x32 => true | 0x33 => true | 0x34 => true
  | 0x31 => bits (figFlags f) 3 2 == 2
  | _ => false

/-! ## Location selectors (R103) -/

/-- The space code. -/
def selSpace (v : Nat) : Nat := bits v 15 14
/-- Reserved bits of the selector's upper byte. -/
def selMask (hi : Nat) : Nat := if hi / 64 = 0 then 0x3C else if hi / 64 = 1 then 0x3F else 0
/-- A selector has a reserved bit set. -/
def selReserved (v : Nat) : Bool := (v / 256) &&& selMask (v / 256) != 0
/-- The engine that owns a location. -/
def selEngine (v : Nat) : Nat := if selSpace v = 1 then bits v 7 0 else bits v 9 0 / 8
/-- The selector names a location that exists (R103). -/
def selExists (v : Nat) : Bool :=
  (selSpace v == 0 && positionExists (bits v 9 0)) || (selSpace v == 1 && engineExists (bits v 7 0))
/-- The host block of a host location on this engine (R29). -/
def State.posHost (s : State) (v : Nat) : Nat := s.hostIndex (2 * (bits v 9 0 % 8))
/-- Its port is enabled (R105). -/
def State.posOn (s : State) (v : Nat) : Bool := s.hostOn (2 * (bits v 9 0 % 8))

/-! ## Reserved fields (R97, R106) -/

/-- Whole bytes `lo` up to, not with, `hi`. -/
def wholeBytes (lo hi : Nat) : List (Nat × Nat) := (List.range (hi - lo)).map (fun i => (lo + i, 0xFF))

/-- The reserved bits of a Bell selector at bytes 8-9. -/
def bellMasks (f : List Byte) : List (Nat × Nat) :=
  if bit (byteAt f 9).toNat 7 then [(9, 0x70)] else [(8, 0xC0), (9, 0x7F)]

/-- The bytes of a Figure and their bits that must be 0, in ascending offset. -/
def reservedMasks (f : List Byte) : List (Nat × Nat) :=
  let op := figOp f
  let fl := figFlags f
  match op with
  | 0x02 => wholeBytes 7 30 ++ [(30, 0xFC)]
  | 0x03 => wholeBytes 4 30 ++ [(30, 0xFC)]
  | 0x10 => [(21, 0xFF), (23, selMask (byteAt f 23).toNat), (25, selMask (byteAt f 25).toNat)] ++ wholeBytes 26 30 ++
      [(30, 0xFC)]
  | 0x30 => bellMasks f ++ wholeBytes 14 30 ++ [(30, 0xF8)]
  | 0x31 =>
    let take := bits fl 3 2 == 2
    bellMasks f ++ [(10, if take then 0xC0 else 0xFF), (11, 0xFF)] ++ (if take then [] else wholeBytes 12 16) ++
      wholeBytes 16 30 ++ [(30, 0xF0)]
  | 0x32 => [(1, 0xF0)] ++ wholeBytes 6 30 ++ [(30, 0xFC)]
  | 0x33 => wholeBytes 8 30 ++ [(30, 0xFC)]
  | _ =>
    if isColl op then
      [(14, 0xF0), (15, if isReducing op then 0xC0 else 0xF0)] ++
      (if usesRoot op then [(17, 0xFC)] else wholeBytes 16 18) ++
      (if bit fl 3 then [] else wholeBytes 18 22) ++ (if op = 0x26 then [] else wholeBytes 22 26) ++ [(30, 0xE0)]
    else wholeBytes 0 30 ++ [(30, 0xFC)]

/-- The first byte with a reserved bit set (R97). -/
def reservedHit (f : List Byte) : Option Nat :=
  ((reservedMasks f).find? (fun x => (byteAt f x.1).toNat &&& x.2 != 0)).map (fun x => x.1)

/-! ## Group entries (R206-R211) -/

/-- Whether an entry is transit-only (R210). -/
def geTransitOnly (e : List Byte) : Bool := bit (byteAt e 3).toNat 1
/-- Whether it selects the hard barrier wire (R197). -/
def geWire (e : List Byte) : Bool := bit (byteAt e 3).toNat 0
/-- Owner tenant. -/
def geTenant (e : List Byte) : Nat := (byteAt e 2).toNat
/-- Generation (R217). -/
def geGen (e : List Byte) : Nat := le e 4 2
/-- Total members. -/
def geTotal (e : List Byte) : Nat := le e 6 2
/-- Local members. -/
def geLocal (e : List Byte) : Nat := (byteAt e 8).toNat
/-- Chunk size in bytes. -/
def geChunk (e : List Byte) : Nat := 2 ^ (byteAt e 9).toNat
/-- Tree nodes. -/
def geEngines (e : List Byte) : Nat := (byteAt e 10).toNat
/-- Transit uplinks as ports (R210). -/
def geTransit (e : List Byte) : List Nat := (maskList (byteAt e 11).toNat 4).map (fun i => 32 + i)
/-- Barrier release lead, ns (R192). -/
def geLead (e : List Byte) : Nat := if le e 12 4 = 0 then 2000 else le e 12 4
/-- Base of a tree descriptor; Tree B when set. -/
def geTree (b : Bool) : Nat := if b then 0x28 else 0x10
/-- Root of a tree. -/
def geRoot (e : List Byte) (b : Bool) : Nat := (byteAt e (geTree b)).toNat
/-- Parent in a tree. -/
def geParent (e : List Byte) (b : Bool) : Nat := (byteAt e (geTree b + 1)).toNat
/-- Child count in a tree. -/
def geChildren (e : List Byte) (b : Bool) : Nat := (byteAt e (geTree b + 2)).toNat
/-- Child `i`. -/
def geChild (e : List Byte) (b : Bool) (i : Nat) : Nat := (byteAt e (geTree b + 3 + i)).toNat
/-- The ports of edge `i` of a tree: 0 the parent's, 1 and 2 the children's (R209). -/
def gePorts (e : List Byte) (b : Bool) (i : Nat) : List Nat := maskList (le e (geTree b + 8 + 5 * i) 5) 36
/-- The edges that exist at an engine: neighbour engine and edge index. -/
def geEdges (e : List Byte) (b : Bool) (self : Nat) : List (Nat × Nat) :=
  (if geRoot e b = self then [] else [(geParent e b, 0)]) ++
  (List.range (geChildren e b)).map (fun i => (geChild e b i, i + 1))
/-- Member ID of local entry `i` (R208). -/
def geMemId (e : List Byte) (i : Nat) : Nat := bits (le e (0x100 + 4 * i) 4) 9 0
/-- Accelerator pair of local entry `i`. -/
def geMemPair (e : List Byte) (i : Nat) : Nat := bits (le e (0x100 + 4 * i) 4) 12 10
/-- Every port that any listed route of an entry names (R34). -/
def gePortsAll (e : List Byte) : List Nat :=
  (List.range 36).filter (fun p =>
    [false, true].any (fun b => [0, 1, 2].any (fun i => (gePorts e b i).contains p)) || (geTransit e).contains p)

/-- The entry in effect for a collective or BARRIER of context `c` on group `g` (R114, R210). -/
def State.entryFor (s : State) (c g : Nat) : Option (List Byte) :=
  match (s.grp g).entry, s.suiteOfCtx c with
  | some e, some i => if g / 256 = i ∧ geTransitOnly e = false then some e else none
  | _, _ => none

/-- The group that a collective or BARRIER names. -/
def figGroup (f : List Byte) : Nat := if figOp f = 0x32 then bits (le f 0 2) 11 0 else bits (le f 13 2) 11 0

/-! ## Field ranges and alignment -/

/-- The largest buffer (R229). -/
def maxLen : Nat := 0xFFFFFFFFFF

/-- Field checks of a MOVE (R103, R104, R105). -/
def State.moveRanges (s : State) (f : List Byte) : Option (Nat × Nat) :=
  let size := le f 16 5
  let a := le f 0 8
  let b := le f 8 8
  let ss := le f 22 2
  let ds := le f 24 2
  let off (v : Nat) : Bool := selSpace v == 0 && selEngine v == s.engineId && !s.posOn v
  firstFail [
    (size == 0, 0x12, 16),
    (!selExists ss || off ss, 0x12, 22),
    (!selExists ds || off ds, 0x12, 24),
    (ss == ds && a < b + size && b < a + size, 0x12, 8)]

/-- Field checks of a collective (chapter 04; R106, R229). The members of the group are known once its entry is. -/
def collRanges (f : List Byte) (entry : Option (List Byte)) : Option (Nat × Nat) :=
  let op := figOp f
  let size := le f 8 5
  let t := (byteAt f 15).toNat
  let dt := bits t 3 0
  let e := elemBytes dt
  let total := match entry with | some g => geTotal g | none => 1
  let fl := figFlags f
  firstFail [
    (le f 0 8 % 32 != 0, 0x13, 0),
    (if op = 0x26 then size != 0 else size == 0 || (e != 0 && size % e != 0), 0x12, 8),
    (op == 0x21 && size % (total * e) != 0, 0x12, 8),
    ((op == 0x22 || op == 0x25) && maxLen < total * size, 0x12, 8),
    (e == 0 || (bits t 5 4 == 3 && isFloat dt), 0x12, 15),
    (usesRoot op && entry.isSome && total ≤ bits (le f 16 2) 9 0, 0x12, 16),
    (op == 0x26 && (le f 22 4 == 0 || maxLen < total * le f 22 4 * e), 0x12, 22),
    (bit fl 3 && !(isReducing op && 1 ≤ dt && dt ≤ 4), 0x12, 30),
    (bit fl 4 && !(op == 0x26 && isFloat dt), 0x12, 30)]

/-- Field checks of a Bell Figure (chapter 04; R181). -/
def bellRanges (f : List Byte) : Option (Nat × Nat) :=
  let sel := le f 8 2
  let loc := !bit sel 15
  let fl := figFlags f
  let sub := bits fl 3 2
  if figOp f = 0x30 then
    firstFail [(!bit fl 2 && le f 0 8 != 0, 0x12, 0), (loc && 48 ≤ bits sel 5 0, 0x12, 8)]
  else
    firstFail [
      (sub == 2 && le f 0 8 != 0, 0x12, 0),
      (loc && 48 ≤ bits sel 5 0, 0x12, 8),
      (sub == 2 && 48 ≤ bits (le f 10 1) 5 0, 0x12, 10),
      (sub == 2 && loc && bits sel 5 0 == bits (le f 10 1) 5 0, 0x12, 10),
      (sub == 3, 0x12, 30)]

/-- Field ranges and alignment of any Figure (R114). -/
def State.fieldCheck (s : State) (c : Nat) (f : List Byte) : Option (Nat × Nat) :=
  match figOp f with
  | 0x02 => firstFail [(le f 0 4 == 0, 0x12, 0)]
  | 0x03 => firstFail [(le f 0 4 == 0xFFFFFFFF, 0x12, 0)]
  | 0x10 => s.moveRanges f
  | 0x30 => bellRanges f
  | 0x31 => bellRanges f
  | op => if isColl op then collRanges f (s.entryFor c (figGroup f)) else none

/-- The group checks of a collective or BARRIER (R114, R210, R218). -/
def State.groupCheck (s : State) (c : Nat) (f : List Byte) : Option (Nat × Nat) :=
  if isColl (figOp f) || figOp f == 0x32 then
    match s.entryFor c (figGroup f) with
    | none => some (0x14, figGroup f)
    | some e => if geTenant e = (s.ctx c).asg.tenant.toNat then none else some (0x20, s.engineId)
  else none

/-- The loop checks: the body start, then the depth (R114, R124, R125). -/
def loopCheck (x : Context) (idx : Nat) (f : List Byte) : Option (Nat × Nat) :=
  if figOp f ≠ 0x02 then none
  else
    let start := le f 4 3
    let act := match x.loops with | e :: _ => e.idx == idx | [] => false
    if act then none
    else
      let outer := match x.loops with | e :: _ => e.start | [] => 0
      firstFail [(idx ≤ start || start < outer, 0x16, start), (le f 0 4 != 1 && 4 ≤ x.loops.length, 0x15, 0)]

/-- Opcode, reserved fields, field ranges, group and loop nesting, in the order of R114. -/
def State.issueCheck (s : State) (c idx : Nat) (f : List Byte) : Option (Nat × Nat) :=
  if !opKnown (figOp f) then some (0x10, figOp f)
  else match reservedHit f with
    | some o => some (0x11, o)
    | none =>
      -- The top LOOP that is already active is not checked again (R124's pseudocode).
      let x := s.ctx c
      let act := figOp f == 0x02 && (match x.loops with | e :: _ => e.idx == idx | [] => false)
      if act then none
      else match s.fieldCheck c f with
        | some r => some r
        | none => match s.groupCheck c f with
          | some r => some r
          | none => loopCheck x idx f

/-! ## Access to locations (R105, R232) -/

/-- The extent of a Cellar offset (R326). -/
def extentOf (off : Nat) : Nat := off / 0x200000
/-- The end of the Cellar. -/
def cellarEnd : Nat := 0x64000000

/-- A region's right for a tenant: read, or read-write when `wr` (R342). -/
def Region.tenantMay (r : Region) (tenant : Nat) (wr : Bool) : Bool :=
  r.tenants.any (fun t => t.1 == tenant && (t.2 || !wr))

/-- A region number that names no region: it has no extent and gives no right. -/
def noRegion : Region := { extents := [], leaseS := 0, leftMs := 0 }

/-- Whether a Cellar range on this engine may be read, or written, by a Figure of `tenant` in Suite `suite`; the status
of the failed check otherwise (R92, R105, R232, R327, R342). -/
def State.cellarCheck (s : State) (suite tenant : Nat) (wr : Bool) (off len : Nat) : Option Nat :=
  let e0 := extentOf off
  let exts := (List.range (extentOf (off + len - 1) + 1 - e0)).map (fun i => e0 + i)
  if cellarEnd < off + len || exts.any (fun e => s.hearth.disabledMap.contains e) then some 0x21
  else
    let x := s.ext e0
    match x.owner with
      | .host h =>
        if (x.state == .granted || x.state == .fenced) && s.suiteOfPort h == some suite && exts.length ≤ 1 then none
        else some 0x21
      | .region r =>
        let g := FMap.get noRegion s.cellar.regions r
        if x.state == .granted && exts.all (fun e => g.extents.contains e) && g.tenantMay tenant wr then none
        else some 0x21
      | _ => some 0x21

/-- Whether a tenant holds a context in Suite `i` (R105, R142). -/
def State.tenantIn (s : State) (i tenant : Nat) : Bool :=
  (s.suiteCtxs i).any (fun c => let x := s.ctx c; x.asg.valid && x.asg.tenant.toNat == tenant && x.state != .unassigned)

/-- The Porch reaches host block `h` by DMA (R400, R409, R467). -/
def State.hostReach (s : State) (h : Nat) : Bool := let x := s.host h; x.state == .serving && x.busMaster && !x.blocked

/-- What host block `h` answers to a read of the engine: nothing where the Porch does not reach it. -/
def State.hostAnswer (s : State) (h : Nat) (r : ReadResult) : ReadResult := if s.hostReach h then r else .ur

/-- Whether a Figure of `tenant` may use a host location of this engine, and whether its host can be reached: the status
and detail of the failed check otherwise (R105, R400, R401, R467). -/
def State.hostCheck (s : State) (tenant sel : Nat) : Option (Nat × Nat) :=
  let p := 2 * (bits sel 9 0 % 8)
  match s.suiteOfPort p with
  | none => some (0x20, s.engineId)
  | some i =>
    if !s.tenantIn i tenant then some (0x20, s.engineId)
    else
      let x := s.host (s.posHost sel)
      if s.hostReach (s.posHost sel) then none
      else if x.blocked then some (0x32, 0x05000000 + s.posHost sel)
      else some (0x23, bits sel 9 0)

/-- The checks of one location of this engine, a read or a write (R105). -/
def State.locCheck (s : State) (suite tenant : Nat) (wr : Bool) (sel addr len : Nat) : Option (Nat × Nat) :=
  if selEngine sel ≠ s.engineId then none
  else if selSpace sel = 1 then (s.cellarCheck suite tenant wr addr len).map (fun st => (st, s.engineId))
  else s.hostCheck tenant sel

/-! ## Bodies, chunk slots and buffers of a collective (R229-R246) -/

/-- Send and receive lengths of a member: opcode, size, total members, element bytes, capacity, sum of its counts
(R229). -/
def bufLens (op size total e cap countSum : Nat) : Nat × Nat :=
  match op with
  | 0x21 => (size, size / total)
  | 0x22 => (size, total * size)
  | 0x25 => (total * size, total * size)
  | 0x26 => (e * countSum, total * cap * e)
  | _ => (size, size)

/-- The number of chunk slots of member `m` (R246). -/
def slotCount (op m size total e cap c : Nat) : Nat :=
  match op with
  | 0x21 => ((m + 1) * (size / total) - 1) / c - m * (size / total) / c + 1
  | 0x22 => total * ceilDiv size c
  | 0x25 => total * ceilDiv size c
  | 0x26 => total * ceilDiv (cap * e) c
  | _ => ceilDiv size c

/-- The parts of an operand block and its Figure that the buffer rules use. -/
structure BlockArgs where
  op : Nat
  size : Nat
  root : Nat
  cap : Nat
  elem : Nat
  stream : Bool
  padnan : Bool
  entry : List Byte

/-- One entry of an operand block as a local member (R107). -/
def blockMember (a : BlockArgs) (b : List Byte) (i : Nat) : LMember :=
  let o := 32 + 64 * i
  { id := geMemId a.entry i, pair := geMemPair a.entry i, sendAddr := BitVec.ofNat 64 (le b o 8),
    sendSel := BitVec.ofNat 16 (le b (o + 8) 2), recvSel := BitVec.ofNat 16 (le b (o + 10) 2),
    recvAddr := BitVec.ofNat 64 (le b (o + 16) 8), flagAddr := BitVec.ofNat 64 (le b (o + 24) 8),
    countAddr := BitVec.ofNat 64 (le b (o + 32) 8), dropAddr := BitVec.ofNat 64 (le b (o + 40) 8), toRead := 0 }

/-- Whether a member sends, and whether it receives (R233). -/
def sends (a : BlockArgs) (m : LMember) : Bool := a.op != 0x23 || m.id == a.root
/-- Whether a member receives (R233). -/
def receives (a : BlockArgs) (m : LMember) : Bool := a.op != 0x24 || m.id == a.root

/-- The reserved bytes, and the fields an opcode does not use, of the block: ascending offsets (R97, R108). What R233 says of a member that sends or
receives nothing keeps its own status (R108). -/
def blockReserved (a : BlockArgs) (b : List Byte) : List Nat :=
  let v := a.op == 0x26
  (if v && a.padnan then [] else List.range 4) ++ (List.range 26).map (fun i => 6 + i) ++
  (List.range (geLocal a.entry)).flatMap (fun i =>
    let o := 32 + 64 * i
    let m := blockMember a b i
    (if sends a m && selReserved (le b (o + 8) 2) then [o + 9] else []) ++
    (if receives a m && selReserved (le b (o + 10) 2) then [o + 11] else []) ++
    (List.range 4).map (fun j => o + 12 + j) ++
    (if a.stream || !receives a m then [] else (List.range 8).map (fun j => o + 24 + j)) ++
    (if v then [] else (List.range 16).map (fun j => o + 32 + j)) ++ (List.range 16).map (fun j => o + 48 + j))

/-- The first reserved byte that is not 0; a selector's reserved bits stand for its upper byte. -/
def blockReservedHit (a : BlockArgs) (b : List Byte) : Option Nat :=
  (blockReserved a b).find? (fun o => byteAt b o != 0)

/-- The field checks of entry `i`: selectors and R233 (0x12), then alignments (R108, R231, R240, R244). -/
def entryCheck (a : BlockArgs) (b : List Byte) (self i : Nat) : Option (Nat × Nat) :=
  let o := 32 + 64 * i
  let m := blockMember a b i
  let pos := self * 8 + m.pair
  let ss := m.sendSel.toNat
  let rs := m.recvSel.toNat
  let cell := 0x4000 + self
  firstFail [
    (if sends a m then ss != pos && ss != cell else m.sendAddr != 0, 0x12, if sends a m then o + 8 else o),
    (!sends a m && ss != 0, 0x12, o + 8),
    (if receives a m then rs != pos else rs != 0, 0x12, o + 10),
    (!receives a m && m.recvAddr != 0, 0x12, o + 16),
    (!receives a m && m.flagAddr != 0, 0x12, o + 24),
    (m.sendAddr.toNat % a.elem != 0, 0x13, o),
    (m.recvAddr.toNat % a.elem != 0, 0x13, o + 16),
    (m.flagAddr.toNat % 8 != 0, 0x13, o + 24),
    (m.countAddr.toNat % 4 != 0, 0x13, o + 32),
    (m.dropAddr.toNat % 4 != 0, 0x13, o + 40)]

/-- The first of a list of checks that fails. -/
def firstSome {α : Type} : List (Option α) → Option α
  | [] => none
  | some a :: _ => some a
  | none :: l => firstSome l

/-- Header and entries of a block that was read (R107, R108). -/
def blockCheck (a : BlockArgs) (b : List Byte) (self : Nat) : Option (Nat × Nat) :=
  match blockReservedHit a b with
  | some o => some (0x11, o)
  | none =>
    if le b 4 2 ≠ geLocal a.entry then some (0x12, 4)
    else firstSome ((List.range (geLocal a.entry)).map (entryCheck a b self))

/-- A range of a member on its accelerator: 0 send, 1 receive, 2 flags, 3 drop counts; member index, pair, the block
offset of its address field, start and length. -/
structure BufRange where
  kind : Nat
  mem : Nat
  pair : Nat
  field : Nat
  lo : Nat
  len : Nat

/-- Two ranges on one accelerator share a byte. -/
def BufRange.meets (x y : BufRange) : Bool :=
  x.pair == y.pair && x.len != 0 && y.len != 0 && x.lo < y.lo + y.len && y.lo < x.lo + x.len

/-- The ranges of a member; its counts are already read. -/
def memberRanges (a : BlockArgs) (i : Nat) (m : LMember) : List BufRange :=
  let t := geTotal a.entry
  let l := bufLens a.op a.size t a.elem a.cap m.counts.sum
  let o := 32 + 64 * i
  let n := slotCount a.op m.id a.size t a.elem a.cap (geChunk a.entry)
  (if sends a m && selSpace m.sendSel.toNat == 0 then [⟨0, i, m.pair, o, m.sendAddr.toNat, l.1⟩] else []) ++
  (if receives a m then [⟨1, i, m.pair, o + 16, m.recvAddr.toNat, l.2⟩] else []) ++
  (if receives a m && a.stream then [⟨2, i, m.pair, o + 24, m.flagAddr.toNat, 8 * n⟩] else []) ++
  (if a.op == 0x26 then [⟨3, i, m.pair, o + 40, m.dropAddr.toNat, 4 * t⟩] else [])

/-- The in-place placements of R234: a member's own send and receive ranges. -/
def inPlace (a : BlockArgs) (m : LMember) : Bool :=
  let t := geTotal a.entry
  let sa := m.sendAddr.toNat
  let ra := m.recvAddr.toNat
  match a.op with
  | 0x20 => ra == sa
  | 0x21 => ra == sa + m.id * (a.size / t)
  | 0x22 => sa == ra + m.id * a.size
  | 0x23 => m.id == a.root && ra == sa
  | 0x24 => m.id == a.root && ra == sa
  | _ => false

/-- Whether two ranges, the first listed before the second, break R234, R235, R244 or R249. -/
def rangesClash (a : BlockArgs) (ms : List LMember) (x y : BufRange) : Bool :=
  x.meets y &&
  (match x.kind, y.kind with
   | 0, 0 => false
   | 3, 3 => false
   | 0, 1 => !(x.mem == y.mem && inPlace a (ms.getD x.mem ⟨0, 0, 0, 0, 0, 0, 0, 0, 0, [], 0, none, 0⟩))
   | 1, 0 => !(x.mem == y.mem && inPlace a (ms.getD x.mem ⟨0, 0, 0, 0, 0, 0, 0, 0, 0, [], 0, none, 0⟩))
   | 0, 3 => false
   | 3, 0 => false
   | _, _ => true)

/-- The overlap checks of a block: the first clashing pair gives the later range's address field (R234, R235, R244,
R249). -/
def overlapCheck (a : BlockArgs) (ms : List LMember) : Option (Nat × Nat) :=
  let rs := (List.range ms.length).zip ms |>.flatMap (fun (i, m) => memberRanges a i m)
  firstSome ((List.range rs.length).zip rs |>.map (fun (k, y) =>
    if (rs.take k).any (fun x => rangesClash a ms x y) then some (0x12, y.field) else none))

/-- The lengths of R229 with the counts read: a sum of counts that makes too long a buffer. -/
def countCheck (a : BlockArgs) (ms : List LMember) : Option (Nat × Nat) :=
  firstSome ((List.range ms.length).zip ms |>.map (fun (i, m) =>
    if maxLen < a.elem * m.counts.sum then some (0x12, 32 + 64 * i + 32) else none))

/-- The location checks of the members at issue (R105, R232, R400, R401). -/
def State.memberCheck (s : State) (a : BlockArgs) (suite tenant : Nat) (m : LMember) : Option (Nat × Nat) :=
  let l := bufLens a.op a.size (geTotal a.entry) a.elem a.cap m.counts.sum
  let host (sel : Nat) : Option (Nat × Nat) := if s.posOn sel then s.hostCheck tenant sel else none
  firstSome [
    if sends a m && l.1 != 0 then
      (if selSpace m.sendSel.toNat = 1 then s.locCheck suite tenant false m.sendSel.toNat m.sendAddr.toNat l.1
       else host m.sendSel.toNat) else none,
    if receives a m then host m.recvSel.toNat else none]

/-- A member's accelerator whose port the configuration does not enable (R105): offset of its selector field. -/
def State.memberOff (s : State) (a : BlockArgs) (i : Nat) (m : LMember) : Option (Nat × Nat) :=
  let o := 32 + 64 * i
  firstSome [
    if sends a m && selSpace m.sendSel.toNat == 0 && !s.posOn m.sendSel.toNat then some (0x12, o + 8) else none,
    if receives a m && !s.posOn m.recvSel.toNat then some (0x12, o + 10) else none]

/-! ## Staging (R281, R282, R328) -/

/-- Bytes of one full chunk on an edge: upward partials are in the accumulator format (R260, R281). -/
def edgeBytes (op dt c : Nat) (up : Bool) : Nat := if isReducing op && up then c / elemBytes dt * 4 else c
/-- The edge window W (R281). -/
def edgeWindow (b : Nat) : Nat := max 1 (min 8 (0x100000 / b))
/-- W × B of an edge. -/
def edgeReserve (b : Nat) : Nat := edgeWindow b * b

/-- The number of chunks of one body. -/
def bodyChunks (op size cap e c : Nat) : Nat := if op = 0x26 then ceilDiv (cap * e) c else ceilDiv size c

/-- The staging that a collective reserves on one tree (R282). -/
def treeReserve (a : BlockArgs) (dt self : Nat) (isB : Bool) : Nat :=
  let c := geChunk a.entry
  let n := geChildren a.entry isB
  let up := if geRoot a.entry isB = self then 0 else 1
  let bu := edgeReserve (edgeBytes a.op dt c true)
  let bd := edgeReserve (edgeBytes a.op dt c false)
  if isReducing a.op then (up * bu + n * bd) + (n * bu + up * bd) + bu
  else if a.op = 0x23 then (n + up) * bd
  else 2 * (n + up) * bd

/-- The whole reservation; a collective of one chunk uses Tree A only (R219, R282). -/
def stagingNeed (a : BlockArgs) (dt self : Nat) : Nat :=
  treeReserve a dt self false +
  (if bodyChunks a.op a.size a.cap a.elem (geChunk a.entry) ≤ 1 then 0 else treeReserve a dt self true)

/-- All the staging outside the Bell area, an extent whose replacement is being scrubbed among it (R282, R328, R360). -/
def State.stagingBytes (s : State) : Nat :=
  (s.cellar.staging.filter (fun e => !s.cellar.bellArea.contains e)).length * 0x200000

/-- The staging of those extents that can be used now: a replacement enters use after its scrub (R360). -/
def State.stagingUsable (s : State) : Nat :=
  (s.cellar.staging.filter (fun e => !s.cellar.bellArea.contains e && !s.cellar.replacing.any (fun r => r.1 == e))).length * 0x200000

end Sys2Proof.Machine
end

