-- ==== Sys2Proof/Machine/Flits.lean ====
section
/-! DEFINITION. The flits of the fabric (chapters 10 and 13): control flits (R368, R369), packet headers (R367), seals
(R286), and the queues they wait in (R376). -/

namespace Sys2Proof.Machine

/-- A byte string of `n` bytes from fields (offset, length, value); every other byte is 0. -/
def fields (n : Nat) (l : List (Nat × Nat × Nat)) : List Byte :=
  (List.range n).map (fun i =>
    match l.find? (fun x => x.1 ≤ i && i < x.1 + x.2.1) with
    | some (o, _, v) => BitVec.ofNat 8 (v / 256 ^ (i - o))
    | none => 0)

/-- A control flit: type and sender in bytes 0 and 1, then its fields (R369). -/
def ctlFlit (type self : Nat) (l : List (Nat × Nat × Nat)) : List Byte := fields 64 ((0, 1, type) :: (1, 1, self) :: l)

/-- The bits of each byte of a control flit that are not reserved, by type (R369). -/
def ctlMask (type : Nat) : List (Nat × Nat × Nat) :=
  match type with
  | 0x01 => [(0, 3, 0xFFFFFF), (3, 1, 0x0F), (4, 7, 0xFFFFFFFFFFFFFF), (11, 1, 0x1C), (12, 8, 0xFFFFFFFFFFFFFFFF), (21, 2, 0xFFFF)]
  | 0x08 => [(0, 3, 0xFFFFFF), (3, 1, 0x0F), (4, 7, 0xFFFFFFFFFFFFFF), (11, 1, 0x1C), (12, 8, 0xFFFFFFFFFFFFFFFF), (21, 2, 0xFFFF)]
  | 0x09 => [(0, 3, 0xFFFFFF), (3, 1, 0x0F), (4, 7, 0xFFFFFFFFFFFFFF), (11, 1, 0x1C), (12, 8, 0xFFFFFFFFFFFFFFFF), (20, 3, 0xFFFFFF)]
  | 0x02 => [(0, 8, 0xFFFFFFFFFFFFFFFF), (8, 8, 0xFFFFFFFFFFFFFFFF), (16, 4, 0x03FFFFFF), (20, 1, 0xFF),
      (24, 8, 0xFFFFFFFFFFFF8FFF), (32, 8, 0xFFFFFFFFFFFF8FFF), (40, 8, 0xFFFFFFFFFFFF8FFF), (48, 8, 0xFFFFFFFFFFFF8FFF)]
  | 0x10 => [(0, 3, 0xFFFFFF), (3, 1, 0x0F), (4, 8, 0xFFFFFFFFFFFFFFFF), (12, 7, 0xFFFFFFFFFFFFFF)]
  | 0x11 => [(0, 3, 0xFFFFFF), (3, 1, 0x0F), (4, 8, 0xFFFFFFFFFFFFFFFF), (12, 7, 0xFFFFFFFFFFFFFF)]
  | 0x12 => [(0, 3, 0xFFFFFF), (3, 1, 0x0F), (4, 7, 0xFFFFFFFFFFFFFF), (11, 2, 0xFF01)]
  | 0x13 => [(0, 8, 0xFFFFFFFFFFFFFFFF), (8, 8, 0xFFFFFFFFFFFFFFFF), (16, 8, 0xFFFFFFFFFFFFFFFF), (24, 8, 0xFFFFFFFFFFFFFFFF)]
  | 0x20 => [(0, 3, 0xFFFFFF), (4, 8, 0xFFFFFFFFFFFFFFFF)]
  | 0x21 => [(0, 3, 0xFFFFFF), (4, 8, 0xFFFFFFFFFFFFFFFF)]
  | 0x22 => [(0, 2, 0xFFFF), (4, 8, 0xFFFFFFFFFFFFFFFF)]
  | 0x23 => [(0, 2, 0xFFFF), (4, 8, 0xFFFFFFFFFFFFFFFF), (12, 8, 0xFFFFFFFFFFFFFFFF)]
  | 0x24 => [(0, 4, 0xFFFFFFFF), (4, 8, 0xFFFFFFFFFFFFFFFF)]
  | 0x25 => [(0, 64, 256 ^ 64 - 1)]
  | 0x26 => [(0, 4, 0xFFFFFFFF), (4, 8, 0xFFFFFFFFFFFFFFFF)]
  | _ => []

/-- The virtual channel a control flit travels on; none for a type not in the table of R368. -/
def ctlVC (type : Nat) : Option Nat :=
  match type with
  | 0x01 => some 0 | 0x02 => some 0 | 0x08 => some 3 | 0x09 => some 3
  | 0x10 => some 1 | 0x11 => some 1 | 0x12 => some 1 | 0x13 => some 1
  | 0x20 => some 2 | 0x21 => some 2 | 0x22 => some 2 | 0x23 => some 2 | 0x24 => some 2 | 0x25 => some 2 | 0x26 => some 2
  | _ => none

/-- A reserved byte or bit of a control flit is not 0 (R369). The last 4 bytes of part 2 of a record are 0. -/
def ctlReserved (b : List Byte) : Bool :=
  let keep := fields 64 (ctlMask (byteAt b 0).toNat)
  (List.range 64).any (fun i => byteAt b i &&& ~~~ byteAt keep i != 0) ||
  ((byteAt b 0).toNat == 0x25 && (2 < (byteAt b 3).toNat || 143 < (byteAt b 2).toNat || ((byteAt b 3).toNat == 2 && !allZero b 60 4))) ||
  ((byteAt b 0).toNat == 0x02 && 1 < (byteAt b 3).toNat)

/-- A control flit that is well formed and of type `type`. -/
def ctlOk (type : Nat) (b : List Byte) : Bool := (byteAt b 0).toNat == type && !ctlReserved b

/-- Port `p` carries frames (R390). -/
def State.portUp (s : State) (p : Nat) : Bool := (s.port p).state == .up || (s.port p).state == .upNoCensus

/-- The name of the chunk in a lane (R225). -/
def Lane.name (l : Lane) : ChunkName := ⟨l.isMove, l.flow, l.chunk, l.formedBy, l.dest, l.seq⟩
/-- The name of an outgoing chunk (R225). -/
def OutChunk.name (o : OutChunk) : ChunkName := ⟨o.isMove, o.flow, o.chunk, o.formedBy, o.dest, o.seq⟩
/-- A lane's chunk as one dropped on its port: its seal names no destination (R286). -/
def Lane.asDropped (l : Lane) : DroppedChunk := ⟨l.port, l.isMove, l.flow, l.chunk, l.formedBy, l.seq⟩

/-- The flow of a chunk on VC0 (R224): its group, or the MOVE flow of a context of the engine that formed its bytes. -/
def flowKey (isMove : Bool) (flow formedBy : Nat) : Nat := if isMove then 0x10000 + formedBy * 256 + flow % 256 else flow % 4096

/-- The flow that a VC0 flit belongs to: a body flit is its packet's, behind which it is queued. A ring that goes on toward its home
counts as its context's MOVE flow. -/
def vc0Flow (q : List TxFlit) (kind : Nat) (b : List Byte) : Nat :=
  match kind with
  | 0 => match q.getLast? with | some x => x.flow | none => 0
  | 1 => flowKey (bit (le b 16 1) 3) (le b 2 2) (le b 1 1)
  | 2 => flowKey (bit (le b 21 1) 3) (le b 0 2) (le b 23 1)
  | _ => if le b 0 1 = 2 then flowKey true (le b 2 1) (le b 1 1) else flowKey (bit (le b 11 1) 3) (le b 2 2) (le b 21 1)

/-- A flit joins VC0's queue on port `p` in a flow (R224, R376). -/
def State.queueFlow (s : State) (p flow kind : Nat) (b : List Byte) : State :=
  s.modPort p (fun x => { x with vc0 := x.vc0 ++ [⟨kind, b, flow⟩], lastUnit := some s.hall })

/-- A flit joins a virtual channel's queue on port `p` (R376). Slot kinds: 0 body, 1 header, 2 seal, 3 control (R366). -/
def State.queue (s : State) (p vc kind : Nat) (b : List Byte) : State :=
  let q : TxFlit := ⟨kind, b, 0⟩
  match vc with
  | 0 => s.queueFlow p (vc0Flow (s.port p).vc0 kind b) kind b
  | 1 => s.modPort p (fun x => { x with vc1 := x.vc1 ++ [q], lastUnit := some s.hall })
  | 2 => s.modPort p (fun x => { x with vc2 := x.vc2 ++ [q], lastUnit := some s.hall })
  | _ => s.modPort p (fun x => { x with vc3 := x.vc3 ++ [q], lastUnit := some s.hall })

/-- A control flit leaves on port `p`, on its own channel, if the port carries frames. -/
def State.sendCtl (s : State) (p type : Nat) (l : List (Nat × Nat × Nat)) : State :=
  if s.portUp p then s.queue p ((ctlVC type).getD 0) 3 (ctlFlit type s.engineId l) else s

/-- The lowest-numbered port of a mask that is Up (R386). -/
def State.lowestUp (s : State) (ports : List Nat) : Option Nat := ports.find? (fun p => (s.port p).state == .up)

/-- A control flit toward a tree neighbour (R386). -/
def State.sendEdge (s : State) (ports : List Nat) (type : Nat) (l : List (Nat × Nat × Nat)) : State :=
  match s.lowestUp ports with
  | some p => s.sendCtl p type l
  | none => s

/-- A peer abort on every edge of both trees of an entry but those through port `skip` (R161, R370). -/
def State.floodAbort (s : State) (g : Nat) (e : List Byte) (k : KeptAbort) (skip : Option Nat) : State :=
  let l := [(2, 2, g), (4, 2, k.gen), (6, 4, k.key), (10, 1, k.engine), (11, 1, if k.barrier then 1 else 0), (12, 1, k.status)]
  let masks := [false, true].flatMap (fun b => (geEdges e b s.engineId).map (fun x => gePorts e b x.2))
  -- An edge of both trees is one neighbour: one flit for each distinct port chosen.
  let ps := (masks.filterMap (fun m => if m.any (fun p => skip == some p) then none else s.lowestUp m)).eraseDups
  overList (fun s p => s.sendCtl p 0x12 l) ps s

/-- The root gives up the count of a BARRIER that was aborted, and counts the next sequence number (R191, R194). -/
def Group.dropCount (x : Group) (barrier : Bool) (key : Nat) : Group :=
  if barrier && x.rootSeq.toNat == key then { x with rootSeq := x.rootSeq + 1, arrived := [] } else x

/-- This engine stops a collective or BARRIER and tells its peers (R161). -/
def State.peerAbort (s : State) (g : Nat) (e : List Byte) (key : Nat) (barrier : Bool) (status : Nat) : State :=
  let k : KeptAbort := ⟨geGen e, key, s.engineId, barrier, status⟩
  if (s.grp g).seen.contains k then s
  else (s.modGrp g (fun x => ({ x with seen := x.seen ++ [k] }).dropCount barrier key)).floodAbort g e k none

end Sys2Proof.Machine
end

