-- ==== Sys2Proof/Machine/Issue.lean ====
section
/-! DEFINITION. How a context issues and completes Figures (R115-R134, R137, R144, R156-R166): the ready test, the completion
ring, retirement in Card order per group, failing statuses, the drain and what follows it, and DMA reads. The Figure
meanings of the other files call these operations. -/

namespace Sys2Proof.Machine

/-! ## Register codes -/

/-- The context state code (R156). -/
def CtxState.code : CtxState → Nat
  | .unassigned => 0 | .clearing => 1 | .idle => 2 | .running => 3 | .waiting => 4 | .draining => 5
  | .drainRestart => 6 | .stopped => 7

/-- The stop reason code (R156). -/
def StopReason.code : StopReason → Nat
  | .none => 0 | .endReached => 1 | .stop => 2 | .abort => 3 | .failed => 4 | .startRefused => 5 | .suiteDrain => 6

/-- A success status (R120). -/
def okStatus (st : Nat) : Bool := st < 0x10

/-! ## Flights -/

/-- A context with flight `fid` changed. -/
def Context.modFlight (x : Context) (fid : Nat) (f : Flight → Flight) : Context :=
  { x with flights := x.flights.map (fun y => if y.fid = fid then f y else y) }

/-- Flight `fid` of a context. -/
def Context.flight (x : Context) (fid : Nat) : Option Flight := x.flights.find? (fun y => y.fid = fid)

/-- A flight that blocks later issue (R115). -/
def FlightKind.blocks : FlightKind → Bool
  | .endCard => true
  | .fence => true
  | .bellWait _ _ _ _ => true
  | .take _ _ _ => true
  | .barrier _ _ _ _ _ _ => true
  | .waitCount _ => true
  | _ => false

/-- The group of a collective or BARRIER in flight (R117). -/
def FlightKind.group : FlightKind → Option Nat
  | .barrier g _ _ _ _ _ => some g
  | .coll k => some k.group
  | .failed g => some g
  | _ => none

/-- The collective of a flight. -/
def FlightKind.coll? : FlightKind → Option Coll
  | .coll k => some k
  | _ => none

/-- A flight with its collective changed. -/
def Flight.modColl (f : Flight) (g : Coll → Coll) : Flight :=
  match f.kind with
  | .coll k => { f with kind := .coll (g k) }
  | _ => f

/-- A context runs a Card: Running or Waiting. -/
def Context.live (x : Context) : Bool := x.state == .running || x.state == .waiting

/-- A context is draining. -/
def Context.drains (x : Context) : Bool := x.state == .draining || x.state == .drainRestart

/-- The Caller of a context is in service and not under scan (R435, R436, R463). -/
def State.callerOut (s : State) (c : Nat) : Bool :=
  s.svc.out.contains (3, c / 8) || s.svc.failed.contains (3, c / 8) ||
  s.svc.scans.any (fun j => j.unitClass == 3 && j.units.contains (c / 8)) ||
  s.svc.jobs.any (fun j => j.unitClass == 3 && j.unitIndex == c / 8)

/-- A host port in D3hot holds its contexts in Waiting (R395). DEDUCED (entry 19): those whose vector lies on the port. -/
def State.ctxAsleep (s : State) (c : Nat) : Bool := (s.host (s.hostIndex (s.ctx c).asg.host)).d3hot

/-- The ring has a free entry, or its host drops the entry (R133, R409). -/
def State.ringRoom (s : State) (c : Nat) : Bool :=
  let x := s.ctx c
  x.ringUsed < 2 ^ x.run.ringSize || !s.hostServing (s.ownerHost ((s.suiteOfCtx c).getD 16))

/-- A Figure that failed at issue and has not completed yet: nothing issues behind it (R120). -/
def Flight.stopsIssue (f : Flight) (pc : Nat) : Bool :=
  f.idx == pc && (match f.done with | some d => !okStatus d.status | none => false)

/-- What holds a context out of the ready set whatever its next Figure is (R116, R120, R133, R137). -/
def State.heldBack (s : State) (c : Nat) : Bool :=
  let x := s.ctx c
  16 ≤ x.flights.length || x.flights.any (fun f => f.kind.blocks || f.stopsIssue x.pc) || !s.ringRoom c || s.ctxAsleep c

/-- The context is in the ready set but for its next Figure (R122, R137). -/
def State.canIssue (s : State) (c : Nat) : Bool :=
  (s.ctx c).live && s.isReady && s.hearth.power == .active && !s.issueStopped && !s.callerOut c && !s.heldBack c

/-- The context has reached a Figure: its fetch has ended, or the Card has (R101, R127, R128). -/
def Context.reached (x : Context) : Bool :=
  (match x.prefetch with | (i, _) :: _ => i == x.pc | [] => false) || x.run.len ≤ x.pc

/-- The order in which the Caller of context `c` looks at its contexts: it starts with the slot after the one that issued last (R136).
DESIGN CHOICE (entry 7): a Caller that has issued nothing starts with slot 0. -/
def State.callerOrder (s : State) (c : Nat) : List Nat :=
  (List.range 8).map (fun k => c / 8 * 8 + (FMap.get 7 s.callers (c / 8) + 1 + k) % 8)

/-- The Caller's round robin comes to context `c`: it is the first of the Caller's ready contexts (R136). -/
def State.turn (s : State) (c : Nat) : Bool :=
  (s.callerOrder c).find? (fun d => s.canIssue d && (s.ctx d).reached) == some c

/-- The Figure that context `c` reaches now, in its turn: its index and bytes, if fetched (R127, R136). -/
def State.nextFig (s : State) (c : Nat) : Option (Nat × List Byte) :=
  let x := s.ctx c
  match x.prefetch with
  | (i, some b) :: _ => if s.canIssue c && s.turn c && i == x.pc then some (i, b) else none
  | _ => none

/-- That Figure, if it is of opcode `op`. -/
def State.nextOp (s : State) (c op : Nat) : Option (Nat × List Byte) :=
  match s.nextFig c with
  | some (i, b) => if figOp b = op then some (i, b) else none
  | none => none

/-- Running or Waiting, as R137 gives; a context in another state is left as it is. -/
def State.refresh (s : State) (c : Nat) : State :=
  let x := s.ctx c
  if x.live then
    s.putCtx c { x with state := if !x.reached || s.heldBack c then .waiting else .running }
  else s

/-- The pass number of the innermost active loop (R109). -/
def Context.pass (x : Context) : Nat := match x.loops with | e :: _ => e.pass | [] => 0

/-! ## Power (R44-R47) -/

/-- A wake from Doze begins (R44). -/
def State.wake (s : State) : State :=
  if s.hearth.power = .doze then { s with hearth := { s.hearth with power := .dozeWaking } } else s

/-- The engine dozes, or is on its way out of Doze (R43, R44). -/
def State.asleep (s : State) : Bool := s.hearth.power == .doze || s.hearth.power == .dozeWaking

/-- A unit of traffic, the command `i`, reaches a port. In Doze it wakes the engine, and it waits in its receiving queue, its credit held, until
the wake is over (R44, R46); otherwise `f` says what it does. DEDUCED (entry 42). -/
def State.arrive (s : State) (i : Instr) (f : State → Out) : Out :=
  if s.asleep then .next { s.wake with arrivals := s.arrivals ++ [i] } else f s

/-- Traffic of fabric port `p`, which carries frames if it is Up (R390). -/
def State.fabricIn (s : State) (p : Nat) (i : Instr) (f : State → Out) : Out :=
  if (s.port p).state == .up || (s.port p).state == .upNoCensus then s.arrive i f else f s

/-- Traffic of host block `h`, whose link is up if it is Serving (R394). -/
def State.hostIn (s : State) (h : Nat) (i : Instr) (f : State → Out) : Out :=
  if s.hostServing h then s.arrive i f else f s

/-- The Active hold (R47). -/
def State.activeHold (s : State) : Bool :=
  s.hearth.mgmtHold || s.ctxs.any (fun x => x.2.asg.valid && x.2.asg.ordered && x.2.state != .unassigned)

/-! ## DMA reads (R56, R395, R399, R401) -/

/-- The read tags of host block `h` (R56, R395). -/
def State.tagLimit (s : State) (h : Nat) : Nat :=
  if s.bonded (h / 2) && s.hostIndex h == h then (if (s.host h).tag14 then 1024 else 768) else 512

/-- The lowest free tag. -/
def freeTag (l : List ReadTag) : Nat :=
  ((List.range (l.length + 1)).find? (fun t => !l.any (fun x => x.tag == t))).getD 0

/-- Held reads take tags in order while tags last; `n` bounds the loop. -/
def pumpReads (limit : Nat) (now : Word64) (ats : Bool) : Nat → HostPort → HostPort
  | 0, h => h
  | n + 1, h =>
    match h.heldReads with
    | [] => h
    | r :: l =>
      if h.tags.length < limit && h.translated ats r.iova then
        pumpReads limit now ats n
          { h with heldReads := l, tags := h.tags ++ [{ tag := freeTag h.tags, req := r, issuedAt := now, threshold := h.slowReadNs }] }
      else h

/-- Held reads of host block `h` go out. -/
def State.pumpHost (s : State) (h : Nat) : State :=
  let x := s.host h
  if !x.busMaster then s else s.putHost h ((pumpReads (s.tagLimit h) s.hall (s.atsOn h) x.heldReads.length x).pump (s.atsOn h) s.hall)

/-- DMA reads of `len` bytes at `iova` as requests of at most 512 bytes (R395); `owner` names each one's offset. The bytes start `skew` bytes into
an aligned 64-byte unit of their destination, and no request ends within one (R118). -/
def State.readHost (s : State) (h : Nat) (iova skew len : Nat) (owner : Nat → ReadOwner) : State :=
  let reqs := (alignedCuts skew len).map (fun (o, n) => (⟨BitVec.ofNat 64 (iova + o), n, owner o⟩ : ReadReq))
  (s.modHost h (fun x => { x with heldReads := x.heldReads ++ reqs })).pumpHost h

/-- A slow read of host block `h` is counted at its port and in context `c` (R324). -/
def State.countSlow (s : State) (c h : Nat) : State :=
  (s.modHost h (fun x => { x with slowReads := satInc x.slowReads })).modCtx c (fun x => { x with timingDist := satInc x.timingDist })

/-- A Figure, an operand block or a count array has been read from host block `h`: the time that the read took is a free value, and a slow one
counts (R324, R325; entry 31). -/
def State.directRead (s : State) (c h : Nat) (res : ReadResult) : State :=
  match s.hostAnswer h res with
  | .ok _ =>
    let d := s.draw
    if (s.host h).slowReadNs < Config.readNs d.1 then d.2.countSlow c h else d.2
  | _ => s

/-- The context and flight a read belongs to. -/
def ReadOwner.flight : ReadOwner → Nat × Nat
  | .coll c f _ _ => (c, f)
  | .move c f _ => (c, f)

/-- The reads of a flight are given up: waiting ones vanish, outstanding ones are marked abandoned (R160). -/
def State.dropReads (s : State) (c fid : Nat) : State :=
  { s with hosts := s.hosts.map (fun (h, x) =>
      (h, { x with heldReads := x.heldReads.filter (fun r => r.owner.flight != (c, fid)),
                   tags := x.tags.map (fun t => if t.req.owner.flight = (c, fid) then { t with abandoned := true } else t) })) }

/-- The writes of a flight that have not entered the posted-write path are given up (R160, R253). -/
def State.dropWrites (s : State) (c fid : Nat) : State :=
  { s with hosts := s.hosts.map (fun (h, x) =>
      (h, { x with heldWrites := x.heldWrites.filter (fun w => match w with | .data _ _ d f => !(d == c && f == fid) | .msix .. => true) })) }

/-! ## Ending a flight -/

/-- The context's bit in the waiter lines it waits on is cleared (R185). -/
def State.clearWaiter (s : State) (c : Nat) : FlightKind → State
  | .bellWait (.virt o) _ _ _ =>
    { s with cellar := { s.cellar with bells := FMap.put s.cellar.bells o (let r := FMap.get {} s.cellar.bells o; { r with waiters := r.waiters.erase c }) } }
  | .take (.virt o) _ _ =>
    { s with cellar := { s.cellar with bells := FMap.put s.cellar.bells o (let r := FMap.get {} s.cellar.bells o; { r with waiters := r.waiters.erase c }) } }
  | _ => s

/-- The staging a flight holds, in bytes (R282). -/
def FlightKind.staged : FlightKind → Nat
  | .coll k => if k.reserved then k.reserve else 0
  | .move m => m.reserve
  | _ => 0

/-- A BARRIER on the hard barrier wire (R197). -/
def FlightKind.onWire : FlightKind → Bool
  | .barrier _ _ _ _ _ w => w
  | _ => false

/-- SYNC_OUT falls once no wire BARRIER but the one that ends is in flight (R540). -/
def State.dropWire (s : State) (c : Nat) (f : Flight) : State :=
  let other := s.ctxs.any (fun (d, x) => x.flights.any (fun g => g.kind.onWire && g.done.isNone && !(d == c && g.fid == f.fid)))
  if f.kind.onWire && !other then { s with hearth := { s.hearth with syncOut := .low } } else s

/-- The part that gives up a sent chunk with its flight, as unit class × 2²⁴ + index: a MOVE's Caller, or a group's Suite (R302, R468).
DESIGN CHOICE (entry 37): R468 counts per part, and names none for a chunk. -/
def OutChunk.part (o : OutChunk) (c : Nat) : Nat := if o.isMove then 0x03000000 + c / 8 else 0x08000000 + o.flow / 256

/-- The flight that a waiting Cellar access belongs to. -/
def CellAccess.flight : CellAccess → Option (Nat × Nat)
  | .host _ => none
  | .figure _ (.readColl c f _) => some (c, f)
  | .figure _ (.readMove c f) => some (c, f)
  | .figure _ (.write c f _ _) => some (c, f)

/-- What a flight holds is freed: waiter bits, reads, writes not yet on their path, lanes, held copies and staging. What comes later for a
discarded lane is dropped, and so is a reply about a freed copy (R160, R185, R282, R302). -/
def State.freeFlight (s : State) (c : Nat) (f : Flight) : State :=
  let s := (((s.clearWaiter c f.kind).dropReads c f.fid).dropWrites c f.fid).dropWire c f
  let mine (w : Option (Nat × Nat)) : Bool := w == some (c, f.fid)
  { s with
    lanes := s.lanes.filter (fun l => !mine l.owner)
    droppedChunks := s.droppedChunks ++ (s.lanes.filter (fun l => mine l.owner)).map Lane.asDropped
    outs := s.outs.filter (fun o => !mine o.owner)
    givenUp := s.givenUp ++ (s.outs.filter (fun o => mine o.owner && o.sealed)).map (fun o => ⟨o.name, o.part c⟩)
    cellar := { s.cellar with reserved := s.cellar.reserved - f.kind.staged,
                              waitingStaging := s.cellar.waitingStaging.filter (fun w => w != (c, f.fid)),
                              waiting := s.cellar.waiting.filter (fun a => !mine a.flight) } }

/-- A flight that has not finished takes its result, and what it holds is freed. -/
def State.endFlight (s : State) (c fid : Nat) (d : Done) : State :=
  match (s.ctx c).flight fid with
  | some f =>
    if f.done.isSome then s
    else (s.freeFlight c f).modCtx c (fun x => x.modFlight fid (fun f => { f with done := some d }))
  | none => s

/-- The key that a peer abort of this flight carries: epoch or barrier sequence (R369). -/
def FlightKind.abortKey : FlightKind → Nat
  | .coll k => k.epoch
  | .barrier _ _ q _ _ _ => q.toNat
  | _ => 0

/-- The entry a group's flight uses, for its edges. -/
def State.flightEntry (s : State) (k : FlightKind) : Option (List Byte) :=
  match k with
  | .coll c => some c.entry
  | .barrier g _ _ _ _ _ => (s.grp g).entry
  | _ => none

/-- A collective or BARRIER in flight fails or is cancelled here: its peers are told (R161). -/
def State.tellPeers (s : State) (f : Flight) (status : Nat) : State :=
  match f.kind.group, s.flightEntry f.kind with
  | some g, some e => s.peerAbort g e f.kind.abortKey (match f.kind with | .barrier .. => true | _ => false) status
  | _, _ => s

/-- A flight fails in flight: it takes the status, and its peers are told (R161). -/
def State.failFlight (s : State) (c fid : Nat) (d : Done) : State :=
  match (s.ctx c).flight fid with
  | some f => if f.done.isSome then s else (s.tellPeers f d.status).endFlight c fid d
  | none => s

/-- A flight is aborted: it completes with 0x40, also where it holds a result already and waits to complete (R158, R160, R161, R166). -/
def State.abortFlight (s : State) (c fid : Nat) : State :=
  match (s.ctx c).flight fid with
  | some f =>
    if f.done.isSome then (s.tellPeers f 0x40).modCtx c (fun x => x.modFlight fid (fun f => { f with done := some { status := 0x40 } }))
    else s.failFlight c fid { status := 0x40 }
  | none => s

/-! ## Completion (R117-R134) -/

/-- The 32 bytes of a completion entry (R130). -/
def entryBytes (phase : Bool) (f : Flight) (d : Done) (hall : Word64) : List Byte :=
  fields 32 [(0, 1, d.status), (1, 1, if phase then 1 else 0), (2, 2, f.pass), (4, 3, f.idx), (7, 1, f.opcode),
    (8, 4, d.drops.toNat), (12, 4, d.detail.toNat), (16, 2, d.laggard.toNat), (20, 4, d.digest.toNat),
    (24, 4, f.choice.toNat), (28, 4, hall.toNat)]

/-- The completion entry enters the ordered path behind the Figure's data (R131), and the ring's tail moves (R495). -/
def State.writeEntry (s : State) (c : Nat) (f : Flight) (d : Done) : State :=
  let x := s.ctx c
  let h := s.ownerHost ((s.suiteOfCtx c).getD 16)
  let b := entryBytes x.ringPhase f d s.hall
  let size := 2 ^ x.run.ringSize
  if s.hostServing h then
    let wrap := x.ringTail.toNat + 1 = size
    let s := s.post h (.data (x.run.ringBase + BitVec.ofNat 64 (32 * x.ringTail.toNat)) b c noFlight)
    s.modCtx c (fun x => { x with ringTail := if wrap then 0 else x.ringTail + 1, ringUsed := x.ringUsed + 1,
                                  ringPhase := if wrap then !x.ringPhase else x.ringPhase })
  else s.modHost h (fun y => { y with droppedWrites := satInc y.droppedWrites })

/-- The context's own MSI-X vector (R143). -/
def State.ctxVector (s : State) (c : Nat) : State :=
  let a := (s.ctx c).asg
  s.msix (s.hostIndex a.host) a.vector

/-- The operation fields of a record about a flight (R421). -/
def State.recOp (s : State) (c : Nat) (f : Flight) (status : Nat) : RecOp :=
  ⟨f.opcode, status, c, (s.ctx c).asg.tenant.toNat, f.idx⟩

/-- The fault record of a failing status, where R134 or R420 gives one (R111, R128, R134). -/
def State.statusRecord (s : State) (c : Nat) (f : Flight) (d : Done) : State :=
  let r (event : Nat) : State := s.record
    { event := event, severity := 2, unitClass := 4, unitIndex := c, op := some (s.recOp c f d.status), detail := d.detail.toNat }
  if d.status = 0x17 then r 0x0302
  else if d.status = 0x24 then r 0x0306
  else if (0x30 ≤ d.status ∧ d.status ≤ 0x34) ∨ d.status = 0x44 then r 0x0301
  else s

/-- A choice change turns a success in Ordered mode into 0x43 (R123, R308). -/
def Context.finalDone (x : Context) (f : Flight) (d : Done) : Done :=
  let counted := match f.kind with | .coll _ => true | .move _ => true | .ring .. => true | _ => false
  if x.asg.ordered && counted && okStatus d.status && f.choice != 0 then { d with status := 0x43, detail := f.choice, digest := 0 }
  else if okStatus d.status then d else { d with digest := 0 }

/-- A completed collective's share in its layer record (R276, R278). -/
def layerDone (ls : List Layer) (f : Flight) (d : Done) : List Layer :=
  ls.map (fun l =>
    if l.age ≠ f.layer then l
    else if okStatus d.status then
      { l with inFlight := l.inFlight - 1, count := satInc l.count, digest := (l.digest + digLayer d.digest.toNat f.idx f.pass) % digP }
    else { l with inFlight := l.inFlight - 1, incomplete := true })

/-- The registers that a completing collective sets (R276, R278, R496). -/
def Context.collDone (x : Context) (f : Flight) (d : Done) : Context :=
  if isColl f.opcode then { x with layers := layerDone x.layers f d, digest := d.digest, digestFig := f.idx } else x

/-- A new layer record (R277): the oldest of 64 is overwritten, and counted; a MARK closes the records before it (R278). -/
def Context.openLayer (x : Context) (tag : Word32) (mark : Bool) : Context :=
  let ls := if mark then x.layers.map (fun l => { l with closed := true }) else x.layers
  let full := 64 ≤ ls.length
  { x with layers := (if full then ls.drop 1 else ls) ++ [{ age := x.layerAge, tag := tag }], layerAge := x.layerAge + 1,
           layerNow := some x.layerAge, layerOverwrites := if full then satInc x.layerOverwrites else x.layerOverwrites }

/-- A collective that issues joins the layer of the last MARK, or the record of tag 0xFFFF_FFFF (R102, R277). -/
def Context.joinLayer (x : Context) : Context :=
  let x := if x.layerNow.isSome then x else x.openLayer 0xFFFFFFFF false
  { x with layers := x.layers.map (fun l => if x.layerNow = some l.age then { l with inFlight := l.inFlight + 1 } else l) }

/-- The statuses that are counted only (R134). -/
def Context.countStatus (x : Context) (st : Nat) : Context :=
  match st with
  | 0x40 => { x with aborted := satInc x.aborted }
  | 0x41 => { x with timedOut := satInc x.timedOut }
  | 0x43 => { x with orderViolations := satInc x.orderViolations }
  | _ => x

/-- A failing status stops the context (R120): what issues next is given by its drain. -/
def Context.failStop (x : Context) (st : Nat) : Context :=
  let x := { x with lastStatus := st }
  if x.live then { x with state := .draining, stopReason := .failed, stopIndex := x.pc, prefetch := [] } else x

/-- END ends the Card and discards the active loops (R100). -/
def Context.cardEnd (x : Context) : Context :=
  if x.live then { x with state := .idle, stopReason := .endReached, stopIndex := x.pc, loops := [], prefetch := [] } else x

/-- Suite `i`, if any, has made progress: a stall that was reported is over (R200, R201). -/
def State.progressIn (s : State) (i : Option Nat) : State :=
  match i with
  | some i => s.modSuite i (fun x => { x with progressAt := s.hall, stallTold := false })
  | none => s

/-- The later collectives and BARRIERs on the group of a failed flight fail with 0x34 (R121). -/
def State.failGroup (s : State) (c : Nat) (f : Flight) : State :=
  match f.kind.group with
  | none => s
  | some g =>
    let later := (s.ctx c).flights.filter (fun y => f.fid < y.fid && y.kind.group == some g)
    overList (fun s y => (if y.done.isSome then s else s.freeFlight c y).modCtx c (fun x => x.modFlight y.fid
      (fun z => { z with done := some { status := 0x34, detail := BitVec.ofNat 32 f.idx } }))) later s

/-- One finished flight leaves: entry, vector, record, registers, and what its status does (R117-R131). -/
def State.complete (s : State) (c : Nat) (f : Flight) (d0 : Done) : State :=
  let d := (s.ctx c).finalDone f d0
  let isEnd := match f.kind with | .endCard => true | _ => false
  let entry := isEnd || f.cpl || f.irq || !okStatus d.status
  let s := if entry then s.writeEntry c f d else s
  let s := if f.irq then s.ctxVector c else s
  let s := s.statusRecord c f d
  let s := if okStatus d.status then s else s.failGroup c f
  (s.modCtx c (fun x =>
    let x := { x with flights := x.flights.filter (fun y => y.fid != f.fid) }
    let x := (x.collDone f d).countStatus d.status
    if okStatus d.status then (if isEnd then x.cardEnd else x) else x.failStop d.status)).progressIn (s.suiteOfCtx c)

/-- END and FENCE finish once no earlier Figure is in flight (R100, R113). -/
def Flight.selfDone (f : Flight) (first : Bool) : Option Done :=
  match f.done with
  | some d => some d
  | none => match f.kind with
    | .endCard => if first then some { status := 0 } else none
    | .fence => if first then some { status := 0 } else none
    | _ => none

/-- A flight that has finished and is behind no earlier one of its group (R100, R113, R117): its result, and whether its completion
takes a ring entry (R129). -/
def Context.finished (x : Context) (f : Flight) : Option (Done × Bool) :=
  let first := match x.flights with | g :: _ => g.fid == f.fid | [] => false
  match f.selfDone first with
  | none => none
  | some d =>
    let behind := match f.kind.group with
      | some g => x.flights.any (fun y => y.fid < f.fid && y.kind.group == some g)
      | none => false
    let isEnd := match f.kind with | .endCard => true | _ => false
    if behind then none else some (d, isEnd || f.cpl || f.irq || !okStatus (x.finalDone f d).status)

/-- The first flight in Card order that may leave now (R117, R133). DESIGN CHOICE (entry 7): of several completions that wait for a ring
entry, the first in Card order takes the one that RING_HEAD frees; R117 gives them no order. -/
def State.readyFlight (s : State) (c : Nat) : Option (Flight × Done) :=
  let x := s.ctx c
  let room := s.ringRoom c
  x.flights.findSome? (fun f => match x.finished f with
    | none => none
    | some (d, entry) => if entry && !room then none else some (f, d))

/-- Every flight that may leave leaves, one after another; `n` bounds the loop. -/
def retire (c : Nat) : Nat → State → State
  | 0, s => s
  | n + 1, s =>
    match s.readyFlight c with
    | some (f, d) => retire c n (s.complete c f d)
    | none => s

/-! ## START, Clearing and the end of a drain (R145, R153, R156, R164) -/

/-- The context starts a Card with the registers given (R153). Its place in the ring stays (R145), within the ring's size. -/
def Context.begin (x : Context) (r : CardRegs) : Context :=
  let n := 2 ^ r.ringSize
  { x with ringHead := BitVec.ofNat 16 (x.ringHead.toNat % n), ringTail := BitVec.ofNat 16 (x.ringTail.toNat % n),
           state := .running, run := r, pc := r.startIdx, loops := [], prefetch := [], queued := none,
           layerNow := none, groups := [] }

/-- The context enters Clearing under an assignment (R144, R145). -/
def Context.clear (x : Context) (a : Assignment) : Context :=
  { x with state := .clearing, asg := a, before := if x.asg.valid then some x.asg.tenant else none, latched := none, queued := none, heldStart := none, prefetch := [] }

/-- An assignment is carried out: the context enters Clearing, and an Ordered one ends a Doze (R47, R144, R145). -/
def State.carryOut (s : State) (c : Nat) (a : Assignment) : State :=
  let s := s.putCtx c ((s.ctx c).clear a)
  if a.ordered then s.wake else s

/-- What Clearing leaves (R145, R169, R258, R311): every item at its reset value, the assignment kept. -/
def Context.cleared (x : Context) : Context :=
  { state := if x.asg.valid then .idle else .unassigned,
    asg := if x.asg.valid then x.asg else {}, latched := x.latched, nextFid := x.nextFid }

/-- The context's Suite serves and its Caller is in service. -/
def State.ctxServes (s : State) (c : Nat) : Bool :=
  (match s.suiteOfCtx c with | some i => (s.suite i).state == .serving | none => false) && !s.callerOut c

/-- The drain of a context ends once nothing is in flight (R144, R156, R157, R164). -/
def State.drainEnd (s : State) (c : Nat) : State :=
  let x := s.ctx c
  if !x.drains || !x.flights.isEmpty then s
  else match x.latched with
    -- DESIGN CHOICE (entry 7): where a START was queued after the assignment was latched, the assignment is carried out and the START
    -- is gone (R144, R166 name the other order only).
    | some a => if s.callerOut c then (s.putCtx c { x with state := .stopped, queued := none }).ctxVector c else s.carryOut c a
    | none => match x.state, x.queued with
      | .drainRestart, some r =>
        -- A START latched in a Suite or Caller that drains never runs: its context is cleared (R463, R473).
        if s.ctxServes c then s.putCtx c (x.begin r) else (s.putCtx c { x with state := .stopped, queued := none }).ctxVector c
      | _, _ => (s.putCtx c { x with state := .stopped, queued := none }).ctxVector c

/-- A context settles but for its rings: flights leave, a drain may end, and Running or Waiting is as R137 gives. -/
def State.settleFlights (s : State) (c : Nat) : State :=
  ((retire c (2 * (s.ctx c).flights.length + 1) s).drainEnd c).refresh c

end Sys2Proof.Machine
end

