-- ==== Sys2Proof/Machine/Rings.lean ====
section
/-! DEFINITION. Bells at their home (R167-R185, R187-R190, R225, R371): what SET, ADD, BELL_WAIT and TAKE do to a Bell, which
waiters a change wakes, and when a BELL_RING in flight may act or leave. With them the full settling of a context, and issue,
stop and abort, which every Figure uses. -/

namespace Sys2Proof.Machine

/-! ## Bells -/

/-- The engine that holds a Bell. -/
def BellRef.home (self : Nat) : BellRef → Nat
  | .away e _ => e
  | _ => self

/-- A Bell record of this engine. -/
def State.bell (s : State) (off : Nat) : BellRec := FMap.get {} s.cellar.bells off
/-- A Bell record changed. -/
def State.modBell (s : State) (off : Nat) (f : BellRec → BellRec) : State :=
  { s with cellar := { s.cellar with bells := FMap.put s.cellar.bells off (f (s.bell off)) } }
/-- A local Bell. -/
def Context.bell (x : Context) (id : Nat) : LocalBell := FMap.get {} x.bells id

/-- The block in which a record offset lies (R174, R175): 256 records of 32 bytes. -/
def bellBlockOf (off : Nat) : Nat := off / 0x2000 * 0x2000
/-- The record offset lies in an allocated block. -/
def State.inBlock (s : State) (off : Nat) : Bool := (FMap.find s.cellar.blocks (bellBlockOf off)).isSome

/-- The Suite of the block in which a record offset lies. -/
def State.suiteAt (s : State) (off : Nat) : Option Nat := (FMap.find s.cellar.blocks (bellBlockOf off)).map (fun b => b.suite)

/-- A 16-bit counter's next value; it saturates at 0xFFFF (R177). -/
def sat16 (w : BitVec 16) : BitVec 16 := if w = 0xFFFF then w else w + 1

/-- The full/empty bit and value of a Bell of this engine. -/
def State.bellState (s : State) (c : Nat) : BellRef → Bool × Word64
  | .loc id => ((s.ctx c |>.bell id).full, (s.ctx c |>.bell id).value)
  | .virt o => ((s.bell o).full, (s.bell o).value)
  | .away _ _ => (false, 0)

/-- The status of a SET or ADD on a Bell (R179): whether it wrapped, whether the Bell was full. -/
def ringStatus (wrapped wasFull : Bool) : Nat := if wrapped then 0x03 else if wasFull then 0x04 else 0x00

/-- The value that a SET or an ADD leaves, and whether it wrapped (R179). -/
def ringValue (add : Bool) (old v : Word64) : Word64 × Bool := if add then (old + v, 2 ^ 64 ≤ old.toNat + v.toNat) else (v, false)

/-- A SET or ADD on local Bell `id` of context `c` (R168, R169, R179, R180). -/
def State.ringLocal (s : State) (c id : Nat) (add : Bool) (v : Word64) : Nat × State :=
  let b := (s.ctx c).bell id
  let r := ringValue add b.value v
  (ringStatus r.2 b.full, (s.modCtx c (fun x =>
    { x with bells := FMap.put x.bells id { value := r.1, full := true, overflow := b.overflow || r.2 },
             doubleFill := if b.full then satInc x.doubleFill else x.doubleFill })).progressIn (s.suiteOfCtx c))

/-- A SET or ADD on a record of this engine, by a ringer (engine, context, Figure index) (R177, R179, R180). -/
def State.ringRecord (s : State) (off : Nat) (add : Bool) (v : Word64) (eng ctx fig : Nat) : Nat × State :=
  let b := s.bell off
  let r := ringValue add b.value v
  (ringStatus r.2 b.full, (s.modBell off (fun b =>
    { b with value := r.1, full := true, overflow := b.overflow || r.2, lastHall := s.hall, lastFig := fig, lastCtx := ctx,
             lastEngine := eng, doubleFill := if b.full then sat16 b.doubleFill else b.doubleFill })).progressIn (s.suiteAt off))

/-- A TAKE empties the Bell and fills its result local Bell with the value (R110, R179). -/
def State.takeBell (s : State) (c : Nat) (b : BellRef) (result : Nat) : State :=
  let v := (s.bellState c b).2
  let s := match b with
    | .loc id => s.modCtx c (fun x => { x with bells := FMap.put x.bells id { x.bell id with full := false } })
    | .virt o => (s.modBell o (fun r => { r with full := false, lastTaker := c })).progressIn (s.suiteAt o)
    | .away _ _ => s
  (s.modCtx c (fun x => { x with bells := FMap.put x.bells result { x.bell result with value := v, full := true } })).progressIn (s.suiteOfCtx c)

/-- The contexts that may wait on a Bell: the owner of a local Bell, or those of the waiter line, starting after the context
that took last (R182). -/
def State.waitersOf (s : State) (c : Nat) : BellRef → List Nat
  | .loc _ => [c]
  | .virt o => let r := s.bell o; r.waiters.filter (fun w => r.lastTaker < w) ++ r.waiters.filter (fun w => w ≤ r.lastTaker)
  | .away _ _ => []

/-- A flight's BELL_WAIT on this Bell whose condition holds (R179). -/
def Flight.waitMet (f : Flight) (b : BellRef) (full : Bool) (value : Word64) : Bool :=
  f.done.isNone && (match f.kind with | .bellWait q cmp v _ => decide (q = b) && full && (!cmp || v.toNat ≤ value.toNat) | _ => false)

/-- A flight's TAKE on this Bell: its result local Bell. -/
def Flight.takes (f : Flight) (b : BellRef) : Option Nat :=
  if f.done.isSome then none else match f.kind with | .take q r _ => if q = b then some r else none | _ => none

/-- Every BELL_WAIT on the Bell whose condition now holds completes; then at most one TAKE takes it (R182, R183). -/
def State.wakeBell (s : State) (c : Nat) (b : BellRef) : State :=
  let st := s.bellState c b
  let ws := s.waitersOf c b
  let s := overList (fun s w =>
    overList (fun s f => if f.waitMet b st.1 st.2 then s.endFlight w f.fid { status := 0 } else s) (s.ctx w).flights s) ws s
  let s := if st.1 then
      (match ws.findSome? (fun w => ((s.ctx w).flights.findSome? (fun f => (f.takes b).map (fun r => (f.fid, r)))).map (fun p => (w, p))) with
       | some (w, fid, r) => (s.takeBell w b r).endFlight w fid { status := 0 }
       | none => s)
    else s
  overList State.settleFlights ws s

/-- The fault record of a ring blocked at its home (R173): the ringer's engine, and its operation. -/
def State.ringBlocked (s : State) (eng ctx tenant fig off : Nat) : State :=
  s.record { event := 0x0303, severity := 2, unitClass := 0x0D, unitIndex := eng, op := some ⟨0x31, 0x20, ctx, tenant, fig⟩,
             detail := s.engineId, addr := off }

/-- The block's Suite is Resetting (R467). -/
def State.atReset (s : State) (off : Nat) : Bool :=
  match s.suiteAt off with | some i => (s.suite i).state == .resetting | none => false

/-- Whether a Figure or ring of `tenant` may use the record at `off`: the failing status otherwise (R173, R174, R467). -/
def State.recordCheck (s : State) (tenant off : Nat) : Option Nat :=
  if !s.inBlock off then some 0x21
  else if s.atReset off then some 0x32
  else if (s.bell off).tenantValid && (s.bell off).tenant.toNat == tenant then none else some 0x20

/-- The detail of such a failure: this engine, or the Suite that is Resetting (R134, R467). -/
def State.recordDetail (s : State) (off st : Nat) : Nat := if st = 0x32 then 0x08000000 + (s.suiteAt off).getD 0 else s.engineId

/-- A request that meets a part in service is counted there (R467): the part as unit class × 2²⁴ + index. -/
def State.countTarget (s : State) (part : Nat) : State :=
  if part / 2 ^ 24 = 5 then s.modHost (part % 2 ^ 24) (fun x => { x with targetResets := satInc x.targetResets })
  else { s with svc := { s.svc with targetResets := FMap.put s.svc.targetResets part (satInc (FMap.get 0 s.svc.targetResets part)) } }

/-- A failure that is a part in service is counted (R467). -/
def State.countService (s : State) (st detail : Nat) : State := if st = 0x32 then s.countTarget detail else s

/-! ## BELL_RINGs in flight (R187-R190, R225, R371) -/

/-- The tree edges of an entry toward engine `home`: tree and edge index. -/
def edgesTo (e : List Byte) (self home : Nat) : List (Bool × Nat) :=
  [false, true].flatMap (fun b => ((geEdges e b self).filter (fun x => x.1 == home)).map (fun x => (b, x.2)))

/-- Every chunk that an ALLREDUCE sends toward `home` has been formed: partials toward a parent, results toward a child. -/
def Coll.formedFor (k : Coll) (self home : Nat) : Bool :=
  let n := bodyChunks k.opcode k.size k.capacity (elemBytes k.dtype) (geChunk k.entry)
  k.opcode == 0x20 && (List.range n).all (fun i =>
    (edgesTo k.entry self home).all (fun e =>
      e.1 != (i % 2 == 1) || (if e.2 = 0 then k.done1.contains (1, 0, i) else k.finals.any (fun f => f.chunk == i))))

/-- A chunk of context `c` toward `home` that its next hop has not acknowledged. -/
def OutChunk.owed (o : OutChunk) (c self home : Nat) : Bool :=
  (match o.owner with | some (d, _) => d == c | none => false) && o.dest == home && o.formedBy == self

/-- An earlier Figure of the context still has data to send, or to write, at engine `home` (R187). -/
def State.writesAhead (s : State) (c fid home : Nat) : Bool :=
  let self := s.engineId
  (s.ctx c).flights.any (fun f => f.fid < fid && f.done.isNone && (match f.kind with
    | .move m => selEngine m.dstSel.toNat == home && (home == self || 0 < m.toRead || m.formed.length < ceilDiv m.size 0x10000 ||
        s.outs.any (fun o => o.owner == some (c, f.fid) && o.port.isNone))
    | .coll k =>
      if home = self then true
      else !(edgesTo k.entry self home).isEmpty &&
        (!k.formedFor self home || s.outs.any (fun o => o.owner == some (c, f.fid) && o.dest == home && o.port.isNone))
    | .ring b _ _ => b.home self == home
    | _ => false))

/-- The flow of an outgoing chunk, as a mark names it (R369). -/
def OutChunk.markFlow (o : OutChunk) : Nat := if o.isMove then 0xFFF else o.flow

/-- A mark of a remote ring (R369). -/
def ringMark (flow seq : Nat) : Nat := flow + 0x8000 + 2 ^ 16 * (seq % 2 ^ 48)

/-- The ring flit toward another engine (R369): the marks are of the flows with unacknowledged units other than the one it
travels in (R225, R371). -/
def ringFlit (self c tenant fig : Nat) (add : Bool) (v : Word64) (home off : Nat) (marks : List (Nat × Nat)) : List Byte :=
  ctlFlit 0x02 self ([(2, 1, c), (3, 1, if add then 1 else 0), (4, 3, fig), (7, 1, tenant), (8, 8, v.toNat), (16, 4, off / 32), (20, 1, home)] ++
    ((List.range marks.length).zip marks).map (fun (i, m) => (24 + 8 * i, 8, ringMark m.1 m.2)))

/-- How a remote ring may leave now: its port and marks. It travels behind the context's last chunk for its home, once
every unit of that flow not yet acknowledged went on one port, with at most four marks (R188, R225, R371). -/
def State.ringLeave (s : State) (c home : Nat) : Option (Nat × List (Nat × Nat)) :=
  let owed := s.outs.filter (fun o => o.owed c s.engineId home)
  match owed.getLast? with
  | none => (s.lowestUp (s.routes home)).map (fun p => (p, []))
  | some l =>
    let own := owed.filter (fun o => o.markFlow == l.markFlow)
    let flows := ((owed.map OutChunk.markFlow).eraseDups).filter (fun g => g != l.markFlow)
    let marks := flows.map (fun g => (g, ((owed.filter (fun o => o.markFlow == g)).map (fun o => o.seq)).foldl max 0))
    match l.port with
    | some p => if own.all (fun o => o.port == some p) && marks.length ≤ 4 && s.portUp p then some (p, marks) else none
    | none => none

/-- The flow in which a remote ring travels: that of the context's last chunk for its home, else its own MOVE flow (R225). -/
def State.ringFlow (s : State) (c home : Nat) : Nat :=
  match (s.outs.filter (fun o => o.owed c s.engineId home)).getLast? with
  | some o => flowKey o.isMove o.flow o.formedBy
  | none => flowKey true c s.engineId

/-- The statuses with which a remote ring can complete (R173, R174, R179, R189, R467). -/
def ringResults (add : Bool) : List Nat := if add then [0x00, 0x03, 0x04, 0x20, 0x21, 0x31, 0x32] else [0x00, 0x04, 0x20, 0x21, 0x31, 0x32]

/-- The completion of a remote ring: no flit carries its result back, so its status is a free value, and so is the detail where R134
makes it a chunk or a part of the home engine; a record that belongs to another tenant or may not be rung names the home engine. -/
def remoteDone (add : Bool) (home n : Nat) : Done :=
  let l := ringResults add
  let st := l.getD (Config.remoteRingStatus n % l.length) 0
  { status := st, detail := if okStatus st then 0 else if st = 0x20 ∨ st = 0x21 then BitVec.ofNat 32 home else Config.remoteRingDetail n }

/-- One BELL_RING in flight acts or leaves, if nothing ahead of it holds it (R187, R188). -/
def State.ringGo (s : State) (c : Nat) (f : Flight) : State :=
  match f.kind with
  | .ring b add v =>
    if f.done.isSome || f.sent || s.writesAhead c f.fid (b.home s.engineId) then s
    else match b with
      | .loc id =>
        let r := s.ringLocal c id add v
        (r.2.endFlight c f.fid { status := r.1 }).wakeBell c b
      | .virt o =>
        let tenant := (s.ctx c).asg.tenant.toNat
        match s.recordCheck tenant o with
        | some st =>
          let s := if st = 0x20 then s.ringBlocked s.engineId c tenant f.idx o else s
          let d := s.recordDetail o st
          (s.countService st d).endFlight c f.fid { status := st, detail := BitVec.ofNat 32 d }
        | none =>
          let r := s.ringRecord o add v s.engineId c f.idx
          (r.2.endFlight c f.fid { status := r.1 }).wakeBell c b
      | .away home off => match s.ringLeave c home with
        | none => s
        | some (p, marks) =>
          (s.queueFlow p (s.ringFlow c home) 3 (ringFlit s.engineId c (s.ctx c).asg.tenant.toNat f.idx add v home off marks)).modCtx c
            (fun x => x.modFlight f.fid (fun g => { g with sent := true }))
  | _ => s

/-- The rings of a context, in Card order. -/
def State.ringsGo (s : State) (c : Nat) : State := overList (fun s f => s.ringGo c f) (s.ctx c).flights s

/-- A context settles: its rings act, flights leave, a drain may end, and Running or Waiting is as R137 gives. -/
def State.settle (s : State) (c : Nat) : State := (((s.ringsGo c).settleFlights c).ringsGo c).settleFlights c

/-- The home engine's answer to a remote ring that has left arrives, at a time that no flit of the spec carries and a free value gives: the
ring completes once its home has accepted it (R119). -/
def State.ringAnswered (s : State) (c : Nat) (f : Flight) : State :=
  match f.kind with
  | .ring (.away home _) add _ =>
    if !f.sent || f.done.isSome then s
    else
      let d := s.draw
      if Config.remoteRingAccepted d.1 then (d.2.endFlight c f.fid (remoteDone add home d.1)).settle c else d.2
  | _ => s

/-- The answers to the remote rings in flight that arrive now. -/
def State.ringsAnswered (s : State) : State :=
  overList (fun s c => overList (fun s f => s.ringAnswered c f) (s.ctx c).flights s) (s.ctxs.map (fun x => x.1)) s

/-- Data of a context toward `home` that flight `fid` queued is lost: the rings behind it are discarded, and complete with 0x31 (R189). -/
def State.loseSentRings (s : State) (c fid home chunk : Nat) : State :=
  let l := (s.ctx c).flights.filter (fun f => f.sent && fid < f.fid && (match f.kind with | .ring (.away e _) _ _ => e == home | _ => false))
  overList (fun s f => s.endFlight c f.fid { status := 0x31, detail := BitVec.ofNat 32 chunk }) l s

/-- Every context settles. -/
def State.settleAll (s : State) : State := overList State.settle (s.ctxs.map (fun x => x.1)) s

/-! ## Issue (R115, R116, R135) -/

/-- The flight of a Figure that issues now. -/
def Context.newFlight (x : Context) (idx : Nat) (f : List Byte) (hall : Word64) (kind : FlightKind) (done : Option Done) : Flight :=
  { fid := x.nextFid, idx := idx, opcode := figOp f, pass := x.pass, cpl := figCpl f, irq := figIrq f,
    issuedAt := hall, layer := x.layerNow.getD 0,
    selector := if figOp f = 0x32 then figGroup f else le f 8 2, kind := kind, done := done }

/-- The Figure at the head of the prefetch buffer issues as a flight (R115, R116); the next Figure is `pc`. -/
def State.issueAt (s : State) (c idx : Nat) (f : List Byte) (pc : Nat) (kind : FlightKind) (done : Option Done) : State :=
  let s := if isColl (figOp f) then s.modCtx c Context.joinLayer else s
  let s := s.modCtx c (fun x => { x with pc := pc, prefetch := x.prefetch.drop 1, issuedFigs := x.issuedFigs + 1, nextFid := x.nextFid + 1, flights := x.flights ++ [x.newFlight idx f s.hall kind done] })
  ({ s with wd := { s.wd with issued := insertNat (c / 8) s.wd.issued }, callers := FMap.put s.callers (c / 8) (c % 8) } : State).progressIn (s.suiteOfCtx c)

/-- It issues, and the Card goes on behind it. -/
def State.issue (s : State) (c idx : Nat) (f : List Byte) (kind : FlightKind) (done : Option Done) : State :=
  s.issueAt c idx f (idx + 1) kind done

/-- A Figure that fails at issue: a collective or BARRIER keeps its place among those of its group (R117). -/
def failedKind (f : List Byte) : FlightKind := if isColl (figOp f) || figOp f == 0x32 then .failed (figGroup f) else .plain

/-- It fails a check at issue and moves no data (R114); issue stops at its index (R120). -/
def State.issueFail (s : State) (c idx : Nat) (f : List Byte) (r : Nat × Nat) : State :=
  ((s.countService r.1 r.2).issueAt c idx f idx (failedKind f) (some { status := r.1, detail := BitVec.ofNat 32 r.2 })).settle c

/-- The flight that the next issue makes. -/
def State.nextFid (s : State) (c : Nat) : Nat := (s.ctx c).nextFid

/-- A context's stop: issue ends, with reason and index (R159, R160). -/
def Context.stopIssue (x : Context) (r : StopReason) : Context :=
  { x with state := .draining, stopReason := r, stopIndex := x.pc, prefetch := [] }

/-- Every Figure in flight completes with 0x40 (R160), peers told (R161). -/
def State.cancelAll (s : State) (c : Nat) : State :=
  overList (fun s f => s.abortFlight c f.fid) (s.ctx c).flights s

/-- ABORT's effect on a context in Running, Waiting or draining (R158, R160, R166). -/
def State.abortCtx (s : State) (c : Nat) (r : StopReason) : State :=
  let x := s.ctx c
  match x.state with
  | .running => ((s.putCtx c (x.stopIssue r)).cancelAll c).settle c
  | .waiting => ((s.putCtx c (x.stopIssue r)).cancelAll c).settle c
  | .draining => (s.cancelAll c).settle c
  | .drainRestart => ((s.putCtx c { x with state := .draining, queued := none, stopReason := r }).cancelAll c).settle c
  | _ => s

end Sys2Proof.Machine
end

