-- ==== Sys2Proof/Machine/Clock.lean ====
section
/-! DEFINITION. Time as the model has it: the hall counter (R40, R315) and the counters of CCLK cycles (R133, R496). Nanoseconds
pass at a step on an empty queue, or when a command says that a hall count has been reached. -/

namespace Sys2Proof.Machine

/-- REFCLK_25 runs and the core rails are up: the hall counter counts. -/
def State.counting (s : State) : Bool := s.sled.refclk && s.sled.path == .on

/-- CCLK runs: it is gated in Doze and off in Banked (R42). -/
def State.cclkOn (s : State) : Bool := s.hearth.power == .active

/-- A completion of the context waits for a ring entry (R133). -/
def State.ringFullNow (s : State) (c : Nat) : Bool :=
  let x := s.ctx c
  !s.ringRoom c && x.flights.any (fun f => match x.finished f with | some (_, entry) => entry | none => false)

/-- `k` CCLK cycles of a context's counters: cycles in Waiting and ring-full cycles. -/
def State.countCycles (s : State) (k c : Nat) : State :=
  let full := s.ringFullNow c
  s.modCtx c (fun x =>
    { x with waitingCycles := if x.state == .waiting then x.waitingCycles + BitVec.ofNat 64 k else x.waitingCycles,
             ringFull := if full then x.ringFull + BitVec.ofNat 64 k else x.ringFull })

/-- A token bucket `k` µs later (R354). -/
def HostPort.refill (h : HostPort) (k : Nat) : HostPort :=
  if h.rate64 = 0 then h else { h with tokens := min h.depth64 (h.tokens + h.rate64 * k) }

/-- Every token bucket takes its rate as each µs of the hall count begins (R354). -/
def State.refill (s : State) (k : Nat) : State :=
  if k = 0 then s else { s with hosts := s.hosts.map (fun (h, x) => (h, x.refill k)) }

/-- An offset that slewing has brought `k` ns nearer 0. -/
def slewed (offset2 : Int) (k : Nat) : Int :=
  if 0 ≤ offset2 then max 0 (offset2 - 2 * k) else min 0 (offset2 + 2 * k)

/-- The sync block `n` counts later (R317): while the count slews at 100 ppm, the offset from its source shrinks by 1 ns each 10,000
counts. -/
def Sync.slew (y : Sync) (n : Nat) : Sync :=
  if (y.status = .slewing ∨ y.status = .holdover) ∧ y.offset2 ≠ 0 then
    { y with slewPhase := (y.slewPhase + n) % 10000, offset2 := slewed y.offset2 ((y.slewPhase + n) / 10000) }
  else { y with slewPhase := 0 }

/-- SYNC_OUT's epoch pulse ends 1,024 ns after it began (R539). -/
def State.endPulse (s : State) : State :=
  match s.sync.pulseEnd with
  | some t => if t.toNat ≤ s.hall.toNat then
      { s with sync := { s.sync with pulseEnd := none }, hearth := { s.hearth with syncOut := if s.hearth.syncOut = .high then .low else s.hearth.syncOut } }
    else s
  | none => s

/-- A window of 10 ms ends on port `p`: each of its lanes counts its symbol errors, and a warning where the error ratio was above 10⁻⁵ of its
1,062,500,000 symbols (R361, R388, R391). The errors are a free value, at most the ratio that LINK_FAILURE_DETECTED stands for (entry 21). -/
def State.laneWindow (s : State) (p : Nat) : State :=
  overList (fun s i =>
    if !(s.port p).lanes.getLsbD i then s
    else
      let d := s.draw
      let n := Config.laneErrors d.1 % 212501
      d.2.countPort p (fun k => { k with
        symbolErrors := listSet 0 k.symbolErrors i (BitVec.ofNat 32 (min 0xFFFFFFFF ((k.symbolErrors.getD i 0).toNat + n))),
        laneWarnings := if 10625 < n then satInc k.laneWarnings else k.laneWarnings })) (List.range 4) s

/-- `k` windows of 10 ms end on every port that carries frames (R388). -/
def State.laneWindows (s : State) (k : Nat) : State :=
  let ps := (List.range 36).filter s.portUp
  if k = 0 || ps.isEmpty then s else overList (fun s _ => overList State.laneWindow ps s) (List.range k) s

/-- `n` counts of the hall counter pass. -/
def State.elapse (s : State) (n : Nat) : State :=
  if !s.counting then s
  else
    let ends (w : Nat) : Nat := (s.hall.toNat + n) / w - s.hall.toNat / w
    let s := ((({ s with hall := s.hall + BitVec.ofNat 64 n, sync := s.sync.slew n } : State).refill (ends 1000)).laneWindows (ends 10000000)).endPulse
    if !s.cclkOn then s
    else
      let t := s.thermal.cclkPhase + n * s.thermal.cclkMHz
      let k := t / 1000
      let th := if s.thermal.throttling then s.thermal.throttledCycles + BitVec.ofNat 64 k else s.thermal.throttledCycles
      let s := { s with thermal := { s.thermal with cclkPhase := t % 1000, throttledCycles := th } }
      if k = 0 then s else overList (fun s c => s.countCycles k c) (s.ctxs.map (fun x => x.1)) s

/-- The hall count has reached `t`: the time up to it passes, if it has not yet. -/
def State.reach (s : State) (t : Word64) : State := if s.hall.toNat < t.toNat then s.elapse (t.toNat - s.hall.toNat) else s

end Sys2Proof.Machine
end

