-- ==== Sys2Proof/Machine/Reduce.lean ====
section
/-! DEFINITION. What a collective computes and where it lands: the chunks of each body (R219, R238), stage-1 and stage-2
folds (R222, R267-R269), the root's conversion (R264-R275), and the chunk slots, pieces and flag words of each
member (R230, R234, R243, R246-R250). -/

namespace Sys2Proof.Machine

/-! ## Bodies and chunks -/

/-- Element bytes of a collective. -/
def Coll.elem (k : Coll) : Nat := elemBytes k.dtype
/-- Its chunk size. -/
def Coll.csize (k : Coll) : Nat := geChunk k.entry
/-- Total members. -/
def Coll.total (k : Coll) : Nat := geTotal k.entry
/-- The buffer rules' view of it. -/
def Coll.args (k : Coll) : BlockArgs :=
  ⟨k.opcode, k.size, k.root, k.capacity, k.elem, k.stream, k.padnan, k.entry⟩
/-- The elements that local member `m` keeps for member `j` (R242). -/
def keptFor (k : Coll) (m : LMember) (j : Nat) : Nat := min (m.counts.getD j 0) k.capacity
/-- The length of a body whose source is a local member, or of any body whose length every engine knows (R238, R242). -/
def Coll.bodyLen (k : Coll) (src dst : Nat) : Option Nat :=
  if k.opcode = 0x26 then (k.members.find? (fun m => m.id == src)).map (fun m => keptFor k m dst * k.elem)
  else some k.size
/-- Where a body starts in its source member's send buffer (R230, R242). -/
def Coll.bodyOff (k : Coll) (m : LMember) (dst : Nat) : Nat :=
  match k.opcode with
  | 0x25 => dst * k.size
  | 0x26 => k.elem * (m.counts.take dst).sum
  | _ => 0
/-- The bodies that local member `m` is the source of (R238). -/
def Coll.bodiesOf (k : Coll) (m : LMember) : List (Nat × Nat) :=
  match k.opcode with
  | 0x22 => [(m.id, 0)]
  | 0x23 => if m.id = k.root then [(0, 0)] else []
  | 0x25 => (List.range k.total).map (fun j => (m.id, j))
  | 0x26 => (List.range k.total).map (fun j => (m.id, j))
  | _ => []
/-- The chunks of a body of known length. -/
def Coll.chunksOf (k : Coll) (len : Nat) : Nat := ceilDiv len k.csize
/-- The length of chunk `i` of a body of `len` bytes (R219). -/
def Coll.chunkLen (k : Coll) (len i : Nat) : Nat := min k.csize (len - i * k.csize)
/-- Chunk `i` rides Tree B (R219). -/
def onTreeB (i : Nat) : Bool := i % 2 == 1

/-! ## What has been read -/

/-- The piece that holds byte `off` of member `m`: its place in arrival order and the bytes from there. -/
def pieceAt : List InPiece → Nat → Nat → Nat → Option (Nat × List Byte)
  | [], _, _, _ => none
  | p :: l, n, m, off =>
    if p.mem = m ∧ p.off ≤ off ∧ off < p.off + p.bytes.length then some (n, p.bytes.drop (off - p.off))
    else pieceAt l (n + 1) m off

/-- Every byte of a range of member `m` has been read. -/
def haveRange (ps : List InPiece) (m lo len : Nat) : Bool :=
  len ≤ (((List.range len).filter (fun i => (pieceAt ps 0 m (lo + i)).isSome)).length)

/-- The bytes of a range of member `m`. -/
def rangeBytes (ps : List InPiece) (m lo len : Nat) : List Byte :=
  (List.range len).map (fun i => match pieceAt ps 0 m (lo + i) with | some (_, b :: _) => b | _ => 0)

/-! ## Stage 1 and stage 2 -/

/-- One element folded from its operands in the order given: value, overflow and saturation (R262, R266). -/
def foldVals (dt op : Nat) : List Nat → Nat × Bool × Bool
  | [] => (0, false, false)
  | v :: l => l.foldl (fun (a, o, s) x => let r := accOp dt op a x; (r.1, o || r.2.1, s || r.2.2)) (v, false, false)

/-- An insertion sort by a key, stable. -/
def insertBy {α : Type} (key : α → Nat) (x : α) : List α → List α
  | [] => [x]
  | y :: l => if key x < key y then x :: y :: l else y :: insertBy key x l
/-- A list in ascending order of a key. -/
def sortBy {α : Type} (key : α → Nat) (l : List α) : List α := l.foldl (fun a x => insertBy key x a) []

/-- The operands of element `i` of chunk `n` at stage 1: arrival place, member index and accumulator value. -/
def elemInputs (k : Coll) (n i : Nat) : List (Nat × Nat × Nat) :=
  let off := n * k.csize + i * k.elem
  (List.range k.members.length).map (fun m =>
    match pieceAt k.pieces 0 m off with
    | some (a, b) => (a, m, toAcc k.dtype (le b 0 k.elem))
    | none => (0, m, 0))

/-- The stage-1 partial of chunk `n` (R267, R268) and whether a sum was folded out of member order (R269). -/
def stage1 (k : Coll) (self n : Nat) (hall : Word64) : Part × Bool :=
  let cnt := k.chunkLen k.size n / k.elem
  let rows := (List.range cnt).map (fun i =>
    let ins := elemInputs k n i
    let seqd := if k.ordered then ins else sortBy (fun x => x.1) ins
    (foldVals k.dtype k.redop (seqd.map (fun x => x.2.2)), isFloat k.dtype && ins.any (fun x => isInf32 x.2.2),
     seqd.map (fun x => x.2.1) != ins.map (fun x => x.2.1)))
  let idx (p : (Nat × Bool × Bool) × Bool × Bool → Bool) : List Nat :=
    ((List.range cnt).zip rows).filterMap (fun (i, r) => if p r then some i else none)
  ({ chunk := n, own := true, engine := self, rank := k.rankNext,
     lowest := match k.members with | m :: _ => m.id | [] => 0,
     acc := rows.map (fun r => BitVec.ofNat 32 r.1.1), infIn := idx (fun r => r.2.1), ovf := idx (fun r => r.1.2.1),
     sat := idx (fun r => r.1.2.2), lateEngine := self, lateHall := hall, earlyHall := hall },
   k.redop == 0 && rows.any (fun r => r.2.2))

/-- The parts of a chunk combined at a node in the order given: accumulators and what their elements met. -/
def foldParts (dt op : Nat) : List Part → Option Part
  | [] => none
  | p :: l => some (l.foldl (fun a x =>
      let r := List.zipWith (fun u v => accOp dt op u.toNat v.toNat) a.acc x.acc
      let hit (q : Nat × Bool × Bool → Bool) : List Nat :=
        ((List.range r.length).zip r).filterMap (fun (i, y) => if q y then some i else none)
      { a with acc := r.map (fun y => BitVec.ofNat 32 y.1), infIn := (a.infIn ++ x.infIn).eraseDups,
               ovf := (a.ovf ++ x.ovf ++ hit (fun y => y.2.1)).eraseDups,
               sat := (a.sat ++ x.sat ++ hit (fun y => y.2.2)).eraseDups,
               lowest := min a.lowest x.lowest,
               lateEngine := if a.lateHall.toNat < x.lateHall.toNat then x.lateEngine else a.lateEngine,
               lateHall := if a.lateHall.toNat < x.lateHall.toNat then x.lateHall else a.lateHall,
               earlyHall := if x.earlyHall.toNat < a.earlyHall.toNat then x.earlyHall else a.earlyHall }) p)

/-- The operands of a chunk at this node in combining order (R268, R291), and whether a sum leaves member order (R269). -/
def nodeOrder (k : Coll) (n : Nat) : List Part × Bool :=
  let ps := k.parts.filter (fun p => p.chunk == n)
  let byMem := sortBy (fun p => p.lowest) ps
  let byRank := sortBy (fun p => p.rank) ps
  let used := if k.ordered then byMem else byRank
  (used, k.redop == 0 && used.map (fun p => p.engine) != byMem.map (fun p => p.engine))

/-- Every operand of chunk `n` is here: this engine's own and one per child. -/
def nodeFull (k : Coll) (n : Nat) : Bool :=
  (k.parts.filter (fun p => p.chunk == n)).length == 1 + geChildren k.entry (onTreeB n)

/-- The final elements of a chunk at its root (R264, R270-R272). -/
def rootElems (k : Coll) (n : Nat) (p : Part) : List OutElem :=
  ((List.range p.acc.length).zip p.acc).map (fun (i, v) =>
    fromAcc k.dtype (if k.sr then some (srDraw k.seed i n k.group k.epoch) else none) v.toNat)

/-- Their bytes. -/
def elemsBytes (k : Coll) (l : List OutElem) : List Byte := l.flatMap (fun x => toLe k.elem x.bits)

/-- The accumulators' bytes on an upward hop (R260). -/
def accBytes (l : List Word32) : List Byte := l.flatMap (fun x => toLe 4 x.toNat)
/-- Accumulators from the bytes of an upward hop. -/
def bytesAcc (b : List Byte) : List Word32 := (List.range (b.length / 4)).map (fun i => BitVec.ofNat 32 (le b (4 * i) 4))

/-- A root context's counts (R266): NaN, overflow and saturation elements of one chunk. -/
def rootCounts (p : Part) (l : List OutElem) : Nat × Nat × Nat :=
  let z := (List.range l.length).zip l
  ((l.filter (fun x => x.nan)).length,
   (z.filter (fun (i, x) => !p.infIn.contains i && (p.ovf.contains i || x.ovf))).length,
   (z.filter (fun (i, x) => p.sat.contains i || x.sat)).length)

/-! ## Where a chunk lands (R230, R234, R243, R246) -/

/-- A chunk's place in a member's receive buffer: slot, receive offset, first byte of the chunk used, bytes used, slot
length. -/
structure Place where
  slot : Nat
  off : Nat
  from_ : Nat
  len : Nat
  slotLen : Nat

/-- Where chunk `n` of body (src, dst), `len` bytes long, lands at local member `m`; none where it has no part in it. -/
def Coll.place (k : Coll) (m : LMember) (src dst n len : Nat) : Option Place :=
  let c := k.csize
  match k.opcode with
  | 0x21 =>
    let b := k.size / k.total
    let lo := max (m.id * b) (n * c)
    let hi := min ((m.id + 1) * b) (n * c + len)
    if lo < hi then some ⟨n - m.id * b / c, lo - m.id * b, lo - n * c, hi - lo, hi - lo⟩ else none
  | 0x22 => some ⟨src * ceilDiv k.size c + n, src * k.size + n * c, 0, len, len⟩
  | 0x24 => if m.id = k.root then some ⟨n, n * c, 0, len, len⟩ else none
  | 0x25 => if m.id = dst then some ⟨src * ceilDiv k.size c + n, src * k.size + n * c, 0, len, len⟩ else none
  | 0x26 =>
    let slot := k.capacity * k.elem
    if m.id = dst then some ⟨src * ceilDiv slot c + n, src * slot + n * c, 0, len, min c (slot - n * c)⟩ else none
  | _ => some ⟨n, n * c, 0, len, len⟩

/-- The engine leaves this member's bytes of the body as they are (R234). -/
def Coll.keeps (k : Coll) (m : LMember) (src : Nat) : Bool :=
  inPlace k.args m && m.sendSel.toNat == m.recvSel.toNat &&
  ((k.opcode == 0x22 && m.id == src) || ((k.opcode == 0x23 || k.opcode == 0x24) && m.id == k.root))

/-- Padding for `n` bytes of a slot (R243). -/
def Coll.padBytes (k : Coll) (n : Nat) : List Byte :=
  if k.padnan then (List.range n).map (fun i => byteAt (toLe 4 k.padPattern.toNat) (i % k.elem)) else List.replicate n 0

/-- The cuts of a chunk slot into pieces from `off` on (R221, R247): lengths from the cell mapping, held to R247. -/
def pieceCuts (digest : Word64) (slot : Nat) : Nat → Nat → List (Nat × Nat)
  | 0, _ => []
  | n + 1, off =>
    if slot ≤ off then []
    else
      let left := slot - off
      let raw := max 64 (min 0x10000 (Config.pieceLength digest slot off / 64 * 64))
      let p := if left ≤ raw then left else if left - raw < 64 then (if left ≤ 0x10000 then left else raw - 64) else raw
      (off, p) :: pieceCuts digest slot n (off + p)

/-- The flag word (R250). -/
def flagWord (epoch delivered : Nat) : List Byte := toLe 8 (epoch % 2 ^ 32 + delivered % 2 ^ 21 * 2 ^ 32 + 2 ^ 63)

/-- The engine writes one chunk slot of a member: pieces in ascending offset, each behind its data its flag (R247, R249,
R404). -/
def State.writeSlot (s : State) (c fid : Nat) (k : Coll) (m : LMember) (pl : Place) (b : List Byte) (keep : Bool) : State :=
  let h := s.posHost m.recvSel.toNat
  let flag (s : State) (d : Nat) : State :=
    if k.stream then s.post h (.data (m.flagAddr + BitVec.ofNat 64 (8 * pl.slot)) (flagWord k.epoch d) c fid) else s
  if keep then flag s pl.slotLen
  else overList (fun s (o, n) => flag (s.postBytes h (m.recvAddr.toNat + pl.off + o) (slice b o n) c fid) (o + n))
    (pieceCuts s.hearth.mapDigest pl.slotLen (pl.slotLen / 64 + 1) 0) s

/-- A confirmed or final chunk goes to every local member it has a part for (R230, R294). -/
def State.deliver (s : State) (c fid : Nat) (k : Coll) (src dst n : Nat) (b : List Byte) : State :=
  overList (fun s m =>
    match k.place m src dst n b.length with
    | none => s
    | some pl =>
      let data := slice b pl.from_ pl.len
      s.writeSlot c fid k m pl (data ++ k.padBytes (pl.slotLen - pl.len)) (k.keeps m src)) k.members s

/-- A chunk final at this engine, recorded once (R248). -/
def Coll.addFinal (k : Coll) (src dst n : Nat) (b : List Byte) : Coll :=
  { k with finals := k.finals ++ [⟨src, dst, n, b, digH b⟩] }

/-- The chunk is already here in its final form. -/
def Coll.hasFinal (k : Coll) (src dst n : Nat) : Bool :=
  k.finals.any (fun f => f.src == src && f.dst == dst && f.chunk == n)

end Sys2Proof.Machine
end

