-- ==== Sys2Proof/Machine/Chunks.lean ====
section
/-! DEFINITION. Chunks on a hop (chapter 10) and the packets that carry them (R367): forming, sending, sealing, confirming,
retracting and resending, and what a confirmed chunk does at this engine. The commands CHUNK_SEND, PACKET_RECEIVED,
SEAL_RECEIVED, RETRACT_MARKER, CHUNK_ACK, RESEND_REQUEST and ACK_TIMEOUT. -/

namespace Sys2Proof.Machine

/-! ## Records beside a chunk -/

/-- Nothing rides beside the chunk. -/
def noAux : ChunkAux := ⟨0, 0, 0, 0, 0, 0, [], [], []⟩

/-- What an upward partial carries beside its bytes (R257, R266, R268). -/
def Part.aux (p : Part) : ChunkAux :=
  ⟨0, 0, BitVec.ofNat 8 p.lateEngine, p.lateHall, p.earlyHall, p.lowest, p.infIn, p.ovf, p.sat⟩

/-- The flight of a context changed. -/
def State.modFlight (s : State) (c fid : Nat) (f : Flight → Flight) : State := s.modCtx c (fun x => x.modFlight fid f)

/-- A collective in flight and not finished. -/
def State.collAt (s : State) (c fid : Nat) : Option Coll :=
  match (s.ctx c).flight fid with
  | some f => if f.done.isSome then none else f.kind.coll?
  | none => none

/-- The collective of a flight changed. -/
def State.modColl (s : State) (c fid : Nat) (g : Coll → Coll) : State := s.modFlight c fid (fun f => f.modColl g)

/-- A fold out of member order, or an unmarked chunk in Ordered mode: the reorder count and the Figure's choice change
(R269, R307, R311, R314). -/
def State.countReorder (s : State) (c fid : Nat) : State :=
  (s.modCtx c (fun x => { x with reorders := x.reorders + 1 })).modFlight c fid
    (fun f => { f.modColl (fun k => { k with reorders := k.reorders + 1 }) with choice := satInc f.choice })

/-- A timing disturbance of a context (R324). -/
def State.disturb (s : State) (owner : Option (Nat × Nat)) : State :=
  match owner with
  | some (c, _) => s.modCtx c (fun x => { x with timingDist := satInc x.timingDist })
  | none => s

/-- The owner's context settles: a BELL_RING behind the chunk may leave (R225, R371). -/
def State.settleOwner (s : State) (owner : Option (Nat × Nat)) : State :=
  match owner with
  | some (c, _) => s.settle c
  | none => s

/-! ## Forming outgoing chunks -/

/-- The next send sequence of a flow toward an engine, and the state that has used it (R225). -/
def State.takeSeq (s : State) (isMove : Bool) (flow dest : Nat) : Nat × State :=
  if isMove then
    let n := FMap.get 0 (s.ctx flow).moveSeq dest
    (n, s.modCtx flow (fun x => { x with moveSeq := FMap.put x.moveSeq dest ((n + 1) % 2 ^ 64) }))
  else
    let n := FMap.get 0 (s.grp flow).sendSeq dest
    (n, s.modGrp flow (fun x => { x with sendSeq := FMap.put x.sendSeq dest ((n + 1) % 2 ^ 64) }))

/-- An outgoing chunk of a collective on edge `edge` of a tree (R286). -/
def collOut (k : Coll) (owner : Nat × Nat) (b : Bool) (edge dest chunk formedBy seq : Nat) (down : Bool)
    (src dst : Nat) (aux : ChunkAux) (bytes : Option (List Byte)) : OutChunk :=
  { owner := some owner, flow := k.group, isMove := false, suite := k.group / 256, gen := k.gen,
    mask := gePorts k.entry b edge, ordered := k.ordered, dest := dest, edge := some (b, edge), chunk := chunk,
    formedBy := formedBy, seq := seq, treeB := b, down := down, epoch := k.epoch, opcode := k.opcode,
    dtype := BitVec.ofNat 8 (k.dtype + 16 * k.redop), root := k.root, size := k.size, capacity := k.capacity,
    srpad := (if k.sr then 1 else 0) + (if k.padnan then 2 else 0), src := src, dst := dst,
    aux := { aux with src := src, dst := dst }, full := edgeBytes k.opcode k.dtype k.csize (!down), bytes := bytes }

/-- The edges on which a chunk of body (src, dst) goes on from this engine (R222, R238); `from_` is the edge it came in on. -/
def Coll.onward (k : Coll) (self n dst : Nat) (from_ : Option Nat) : List (Nat × Nat) :=
  let b := onTreeB n
  let es := geEdges k.entry b self
  match k.opcode with
  | 0x20 => es.filter (fun e => e.2 != 0)
  | 0x21 => es.filter (fun e => e.2 != 0 && Config.subtreeNeeds k.group b (e.2 - 1) n)
  | 0x24 => if k.members.any (fun m => m.id == k.root) then []
            else es.filter (fun e => e.2 != 0 && Config.treeNext k.group b k.root == e.2)
  | 0x22 => es.filter (fun e => from_ != some e.2)
  | 0x23 => es.filter (fun e => from_ != some e.2)
  | _ => if k.members.any (fun m => m.id == dst) then []
         else es.filter (fun e => from_ != some e.2 && Config.treeNext k.group b dst == e.2)

/-- The stage-2 laggard of a chunk joins the collective's record: the chunk with the largest spread wins (R257). -/
def Coll.addLag (k : Coll) (late : Nat) (lateHall earlyHall : Word64) : Coll :=
  let d := lateHall.toNat - earlyHall.toNat
  match k.lag2 with
  | some (_, m) => if m < d then { k with lag2 := some (late, d) } else k
  | none => { k with lag2 := some (late, d) }

/-! ## Sending (R281, R283, R367, R384) -/

/-- The flag bits of seal byte 21. -/
def OutChunk.flags (o : OutChunk) : Nat :=
  (if o.ordered then 1 else 0) + (if o.poisoned then 2 else 0) + (if o.treeB then 4 else 0) + (if o.isMove then 8 else 0) +
  (if o.down then 16 else 0)

/-- The header of the packet that starts at byte `off` with `n` body flits (R367). -/
def OutChunk.header (o : OutChunk) (off n : Nat) : List Byte :=
  fields 64 [(0, 1, o.dest), (1, 1, o.formedBy), (2, 2, o.flow), (4, 2, o.gen), (6, 4, o.chunk), (10, 4, off), (14, 1, n - 1),
    (15, 1, o.attempt), (16, 1, o.flags), (17, 4, o.epoch), (24, 8, o.seq), (32, 8, o.moveAddr.toNat), (40, 2, o.moveSel.toNat)]

/-- The seal (R286). -/
def OutChunk.sealFlit (o : OutChunk) (self : Nat) (b : List Byte) : List Byte :=
  fields 64 [(0, 2, o.flow), (2, 2, o.gen), (4, 4, o.chunk), (8, 4, o.epoch), (12, 4, b.length), (16, 4, (crc32c b).toNat),
    (20, 1, o.attempt), (21, 1, o.flags), (22, 1, self), (23, 1, o.formedBy), (24, 1, o.opcode), (25, 1, o.dtype.toNat),
    (26, 2, o.root), (28, 5, o.size), (33, 4, o.capacity), (37, 1, o.srpad.toNat), (40, 8, o.seq)]

/-- Bytes of a chunk from offset `off` on join VC0 of its port, in packets of at most 128 flits (R283, R367). -/
def State.sendData (s : State) (p : Nat) (o : OutChunk) (off : Nat) (b : List Byte) : State :=
  let flits := chunksOf 64 (b.length / 64 + 1) b
  let pks := chunksOf 128 (flits.length / 128 + 1) flits
  overList (fun s (i, pk) =>
    overList (fun s x => s.queue p 0 0 (slice x 0 64)) pk (s.queue p 0 1 (o.header (off + 8192 * i) pk.length)))
    ((List.range pks.length).zip pks) s

/-- Outgoing chunk `n` changed. -/
def State.modOut (s : State) (n : Nat) (f : OutChunk → OutChunk) : State :=
  { s with outs := ((List.range s.outs.length).zip s.outs).map (fun (i, o) => if i = n then f o else o) }

/-- The bytes of a chunk that have been formed so far, and those of them that have left on its port. -/
def OutChunk.formedLen (o : OutChunk) : Nat := (o.pieces.map (fun x => x.2.length)).sum
/-- The bytes that have left. -/
def OutChunk.sentLen (o : OutChunk) : Nat := ((o.pieces.take o.left).map (fun x => x.2.length)).sum

/-- The chunk may be sent without passing its edge's window (R281) or a MOVE flow's (R282): a chunk that goes again holds its slot already
(R288). -/
def State.windowOpen (s : State) (o : OutChunk) : Bool :=
  o.inWindow ||
  (if o.isMove then
    o.owner.isNone || (s.outs.filter (fun x => x.isMove && x.flow == o.flow && x.inWindow && x.owner.isSome)).length < 8
  else o.edge.isNone || (s.outs.filter (fun x => !x.isMove && x.flow == o.flow && x.edge == o.edge && x.inWindow)).length < edgeWindow o.full)

/-- The far-end VC0 credits of a port. -/
def State.vc0Credits (s : State) (p : Nat) : Nat := (s.port p).credits.getD 0 0

/-- A port that may take a chunk's first flit (R384). -/
def State.eligible (s : State) (p : Nat) : Bool :=
  (s.port p).state == .up && !(s.port p).recalibrating && 0 < s.vc0Credits p

/-- The port R384 chooses: the pinned one under the ordered mark, else the most free VC0 credits, lowest number first. -/
def State.choosePort (s : State) (ordered : Bool) (mask : List Nat) : Option Nat :=
  if ordered then (match mask with | p :: _ => if s.eligible p then some p else none | [] => none)
  else (mask.filter s.eligible).foldl (fun best p =>
    match best with
    | none => some p
    | some q => if s.vc0Credits q < s.vc0Credits p then some p else some q) none

/-- A forwarded chunk has left whole on port `p`: the rings that this engine holds behind it, and behind nothing else, follow it there
(R22, R188). -/
def State.ringsOnward (s : State) (p : Nat) (o : OutChunk) : State :=
  let rs := s.rings.map (fun r => if r.onward.isSome then { r with behind := r.behind.filter (fun n => n != o.name) } else r)
  let go := rs.filter (fun r => r.onward.isSome && r.behind.isEmpty)
  let s := { s with rings := rs.filter (fun r => !(r.onward.isSome && r.behind.isEmpty)) }
  overList (fun s r => s.queueFlow p (flowKey o.isMove o.flow o.formedBy) 3 (r.onward.getD [])) go s

/-- The speculative data of outgoing chunk `n` that has not left yet leaves on the port that the chunk has taken (R283, R289). -/
def State.pushPieces (s : State) (n : Nat) : State :=
  match s.outs[n]? with
  | none => s
  | some o => match o.port with
    | none => s
    | some p =>
      if o.bytes.isSome then s
      else (overList (fun s x => s.sendData p o x.1 x.2) (o.pieces.drop o.left) s).modOut n (fun x => { x with left := x.pieces.length })

/-- Outgoing chunk `n` has its port and its final bytes: what has not left yet leaves, and its seal behind it (R286, R292). -/
def State.finishOut (s : State) (n : Nat) : State :=
  match s.outs[n]? with
  | none => s
  | some o => match o.port, o.bytes with
    | some p, some b =>
      if o.sealed then s
      else
        let s := ((s.sendData p o o.sentLen (b.drop o.sentLen)).queue p 0 2 (o.sealFlit s.engineId b)).modOut n (fun x => { x with sealed := true })
        if o.owner.isNone then s.ringsOnward p o else s
    | _, _ => s

/-- CHUNK_SEND: the chunk at place `n` of the outgoing chunks takes its port for the hop, and its data goes (R211, R281, R283, R312, R313,
R384). Of a chunk whose operands are not all confirmed the data formed so far goes; the rest and the seal follow (R289, R292). -/
def execChunkSend (n : Nat) (s : State) : Out :=
  match s.outs[n]? with
  | none => .next s
  | some o =>
    if o.port.isSome || !s.windowOpen o || (o.bytes.isNone && o.pieces.isEmpty) then .next s
    else match s.choosePort o.ordered o.mask with
      | none => .next s
      | some p =>
        let pick := !o.ordered && 1 < (o.mask.filter (fun q => 0 < s.vc0Credits q)).length
        let s := if pick then s.countPort p (fun k => { k with routePicks := satInc k.routePicks }) else s
        let s := match pick, o.owner with
          | true, some (c, fid) => (s.modCtx c (fun x => { x with routePicks := x.routePicks + 1 })).modFlight c fid
              (fun f => { f with choice := satInc f.choice })
          | _, _ => s
        let s := s.modOut n (fun x => { x with port := some p, inWindow := true })
        .next (((s.pushPieces n).finishOut n).settleOwner o.owner)

/-- The chunk that this engine passes on along edge `edge` of a tree, of the bytes that `formedBy` formed, while it is speculative. -/
def State.passOut (s : State) (c fid : Nat) (tree : Bool) (edge chunk formedBy seq : Nat) : Option Nat :=
  s.outs.findIdx? (fun o => o.owner == some (c, fid) && o.edge == some (tree, edge) && o.chunk == chunk && o.formedBy == formedBy &&
    o.seq == seq && o.bytes.isNone)

/-- Outgoing chunk `n` takes its final bytes. -/
def State.fillOut (s : State) (n : Nat) (aux : ChunkAux) (b : List Byte) : State :=
  (s.modOut n (fun x => { x with bytes := some b, aux := { aux with src := x.src, dst := x.dst } })).finishOut n

/-- A chunk's final bytes leave toward the tree neighbours that need them; an engine that formed the bytes draws a sequence for each
neighbour, and one that passes them on keeps theirs (R225, R285), and ends what it has passed on at cut-through speed (R293). -/
def State.sendOn (s : State) (c fid : Nat) (k : Coll) (n src dst formedBy : Nat) (seq : Option Nat) (aux : ChunkAux)
    (bytes : List Byte) (from_ : Option Nat) : State :=
  overList (fun s (e, i) =>
    let open_ := match seq with | some q => s.passOut c fid (onTreeB n) i n formedBy q | none => none
    match open_ with
    | some j => s.fillOut j aux bytes
    | none =>
      let r := match seq with | some q => (q, s) | none => s.takeSeq false k.group e
      { r.2 with outs := r.2.outs ++ [collOut k (c, fid) (onTreeB n) i e n formedBy r.1 (i != 0) src dst aux (some bytes)] })
    (k.onward s.engineId n dst from_) s

/-! ## Progress of a reducing collective -/

/-- The speculative or waiting upward chunk `n` of a flight. -/
def State.upOut (s : State) (c fid n : Nat) : Option Nat :=
  s.outs.findIdx? (fun o => o.owner == some (c, fid) && o.chunk == n && !o.down && !o.isMove)

/-- The upward chunk of chunk `n` is opened toward the parent, with nothing in it yet (R225). -/
def State.openUp (s : State) (c fid : Nat) (k : Coll) (n : Nat) : State :=
  let par := geParent k.entry (onTreeB n)
  let r := s.takeSeq false k.group par
  { r.2 with outs := r.2.outs ++ [collOut k (c, fid) (onTreeB n) 0 par n s.engineId r.1 false 0 0 noAux none] }

/-- The upward chunk's bytes are final: it goes out, or its rest and its seal follow the speculative data (R261, R292). -/
def State.fillUp (s : State) (c fid : Nat) (k : Coll) (n : Nat) (p : Part) : State :=
  let s := if (s.upOut c fid n).isSome then s else s.openUp c fid k n
  match s.upOut c fid n with
  | some i => s.fillOut i p.aux (accBytes p.acc)
  | none => s

/-- The lane's bytes in ascending offset. -/
def Lane.bytes (l : Lane) : List Byte := (sortBy (fun p => p.1) l.pieces).flatMap (fun p => p.2)
/-- The bytes received so far, without a gap. -/
def Lane.whole (l : Lane) (n : Nat) : Bool :=
  ((sortBy (fun p => p.1) l.pieces).foldl (fun (ok, at_) p => (ok && p.1 == at_, at_ + p.2.length)) (true, 0)) == (true, n)
/-- The bytes from the chunk's start up to the first that has not come. -/
def Lane.gapless (l : Lane) : List Byte :=
  (sortBy (fun p => p.1) l.pieces).foldl (fun b p => if p.1 = b.length then b ++ p.2 else b) []

/-- What a child's chunk gives the speculative sum: its whole flits so far (R290, R291). -/
def Lane.tentative (l : Lane) : Part :=
  ⟨l.chunk, false, l.formedBy, l.rank, 0, bytesAcc (l.gapless.take (l.gapless.length / 64 * 64)), [], [], [], 0, 0, 0⟩

/-- The tentative lanes of the operands of chunk `n` of a collective. -/
def State.operandLanes (s : State) (c fid n : Nat) : List Lane :=
  s.lanes.filter (fun l => l.owner == some (c, fid) && l.chunk == n && !l.down)

/-- Every operand of chunk `n` has begun to arrive: the own partial is formed, and each child's is here or in a lane. -/
def State.operandsBegun (s : State) (c fid : Nat) (k : Coll) (n : Nat) : Bool :=
  k.parts.any (fun p => p.chunk == n && p.own) &&
  (List.range (geChildren k.entry (onTreeB n))).all (fun i =>
    k.parts.any (fun p => p.chunk == n && !p.own && p.engine == geChild k.entry (onTreeB n) i) ||
    (s.operandLanes c fid n).any (fun l => l.formedBy == geChild k.entry (onTreeB n) i))

/-- The speculative upward sum of chunk `n`, over the operands in rank order, as far as all of them have come (R289, R291): what is new of it
joins the upward chunk. In Ordered mode nothing is summed before every operand is confirmed (R268). -/
def State.speculate (s : State) (c fid n : Nat) : State :=
  match s.collAt c fid with
  | none => s
  | some k =>
    if k.ordered || geRoot k.entry (onTreeB n) == s.engineId || !s.operandsBegun c fid k n then s
    else
      let ps := k.parts.filter (fun p => p.chunk == n) ++ (s.operandLanes c fid n).map Lane.tentative
      let b := match foldParts k.dtype k.redop (sortBy (fun p => p.rank) ps) with | some p => accBytes p.acc | none => []
      let s := if (s.upOut c fid n).isSome then s else s.openUp c fid k n
      match s.upOut c fid n with
      | none => s
      | some i => match s.outs[i]? with
        | some o =>
          if o.bytes.isSome || b.length ≤ o.formedLen then s
          else (s.modOut i (fun x => { x with pieces := x.pieces ++ [(x.formedLen, b.drop x.formedLen)] })).pushPieces i
        | none => s

/-- The root's result of a chunk: converted, counted, digested, delivered and sent down (R223, R266, R275, R293). -/
def State.rootChunk (s : State) (c fid : Nat) (k : Coll) (n : Nat) (p : Part) : State :=
  let el := rootElems k n p
  let b := elemsBytes k el
  let q := rootCounts p el
  let s := s.modCtx c (fun x => { x with nan := satAdd x.nan q.1, overflow := satAdd x.overflow q.2.1,
                                         saturation := satAdd x.saturation q.2.2 })
  let s := s.modColl c fid (fun k => (k.addFinal 0 0 n b).addLag p.lateEngine p.lateHall p.earlyHall)
  (s.deliver c fid k 0 0 n b).sendOn c fid k n 0 0 s.engineId none p.aux b none

/-- Stage 2 of chunk `n` at this node, once every operand is here; before that, in Arrival mode, the speculative upward sum of what has come
(R222, R268, R289, R291). -/
def State.nodeTry (s : State) (c fid n : Nat) : State :=
  match s.collAt c fid with
  | none => s
  | some k =>
    let b := onTreeB n
    let atRoot := geRoot k.entry b == s.engineId
    if nodeFull k n then
      let ord := nodeOrder k n
      let s := s.modColl c fid (fun k => { k with parts := k.parts.filter (fun p => p.chunk != n), done1 := (1, 0, n) :: k.done1 })
      let s := if ord.2 then s.countReorder c fid else s
      match foldParts k.dtype k.redop ord.1 with
      | some p => if atRoot then s.rootChunk c fid k n p else s.fillUp c fid k n p
      | none => s
    else s.speculate c fid n

/-- Stage 1 of chunk `n`, once every local member's bytes of it are here (R222, R236, R267-R269). -/
def State.stage1Try (s : State) (c fid n : Nat) : State :=
  match s.collAt c fid with
  | none => s
  | some k =>
    let lo := n * k.csize
    if k.done1.contains (0, 0, n) || !(List.range k.members.length).all (fun m => haveRange k.pieces m lo (k.chunkLen k.size n)) then s
    else
      let r := stage1 k s.engineId n s.hall
      let s := s.modColl c fid (fun k => { k with parts := k.parts ++ [r.1], done1 := (0, 0, n) :: k.done1, rankNext := k.rankNext + 1 })
      let s := if r.2 then s.countReorder c fid else s
      s.nodeTry c fid n

/-- A source member's chunk of a collective that copies: delivered here and sent on, once its bytes are here (R238). -/
def State.copyTry (s : State) (c fid mi : Nat) (m : LMember) (src dst n : Nat) : State :=
  match s.collAt c fid with
  | none => s
  | some k =>
    let len := k.chunkLen ((k.bodyLen src dst).getD 0) n
    let off := k.bodyOff m dst + n * k.csize
    if k.done1.contains (src, dst, n) || !haveRange k.pieces mi off len then s
    else
      let b := rangeBytes k.pieces mi off len
      let s := s.modColl c fid (fun k => (k.addFinal src dst n b))
      let s := s.modColl c fid (fun k => { k with done1 := (src, dst, n) :: k.done1 })
      (s.deliver c fid k src dst n b).sendOn c fid k n src dst s.engineId none noAux b none

/-- Everything that a collective can do with what has been read (R222, R238). -/
def State.progress (s : State) (c fid : Nat) : State :=
  match s.collAt c fid with
  | none => s
  | some k =>
    if !k.reserved then s
    else if isReducing k.opcode then overList (fun s n => s.stage1Try c fid n) (List.range (k.chunksOf k.size)) s
    else
      overList (fun s (i, m) =>
        overList (fun s (bd : Nat × Nat) =>
          overList (fun s n => s.copyTry c fid i m bd.1 bd.2 n) (List.range (k.chunksOf ((k.bodyLen bd.1 bd.2).getD 0))) s)
          (k.bodiesOf m) s) ((List.range k.members.length).zip k.members) s

/-! ## Chunk messages on VC3 and retract markers (R288, R295, R296, R369) -/

/-- The fields by which a chunk message names its chunk. -/
def chunkNames (isMove : Bool) (flow gen chunk who : Nat) (flags seq cause formedBy dest : Nat) : List (Nat × Nat × Nat) :=
  [(2, 2, flow), (4, 2, if isMove then 0 else gen), (6, 4, chunk), (10, 1, who), (11, 1, flags &&& 0x1C), (12, 8, seq),
   (20, 1, cause), (21, 1, formedBy), (22, 1, dest)]

/-- Flag bits 2 through 4 of a lane's chunk. -/
def Lane.flags (l : Lane) : Nat := (if l.treeB then 4 else 0) + (if l.isMove then 8 else 0) + (if l.down then 16 else 0)

/-- A chunk acknowledgement leaves on the port its chunk came in on (R288, R386). -/
def State.ackLane (s : State) (l : Lane) : State :=
  s.sendCtl l.port 0x08 (chunkNames l.isMove l.flow l.gen l.chunk l.attempt l.flags l.seq 0 l.formedBy l.dest)

/-- A resend request leaves on that port (R295). -/
def State.askResend (s : State) (l : Lane) (cause : Nat) : State :=
  s.sendCtl l.port 0x09 (chunkNames l.isMove l.flow l.gen l.chunk l.attempt l.flags l.seq cause l.formedBy l.dest)

/-- A retract marker takes the place of a placed chunk's seal (R295). -/
def State.sendMarker (s : State) (p : Nat) (o : OutChunk) : State :=
  (s.sendCtl p 0x01 (chunkNames o.isMove o.flow o.gen o.chunk o.formedBy o.flags o.seq 0 o.formedBy o.dest)).countPort p
    (fun k => { k with retractSent := satInc k.retractSent })

/-- Outgoing chunk `n`, which was formed from a chunk that is not confirmed, is retracted: a marker takes its seal's place where some of it has
left. One that this engine only forwards is gone; another is formed again later, as attempt 1 (R295-R297). -/
def State.retractOut (s : State) (n : Nat) : State :=
  match s.outs[n]? with
  | none => s
  | some o =>
    if o.bytes.isSome then s
    else
      let s := match o.port with | some p => s.sendMarker p o | none => s
      if o.owner.isNone then { s with outs := s.outs.eraseIdx n }
      else s.modOut n (fun x => { x with pieces := [], left := 0, port := none, attempt := 1, inWindow := false })

/-- The chunk goes on unchanged what arrives in the lane: down or across a tree, or through a transit or spine engine (R285). -/
def OutChunk.passes (o : OutChunk) (l : Lane) : Bool :=
  o.owner == l.owner && o.isMove == l.isMove && o.flow == l.flow && o.chunk == l.chunk && o.formedBy == l.formedBy && o.seq == l.seq &&
  (l.owner.isSome || o.dest == l.dest)

/-- The chunk is the partial that the lane's operand goes into (R291). -/
def OutChunk.sums (o : OutChunk) (l : Lane) : Bool :=
  l.owner.isSome && !l.down && o.owner == l.owner && o.chunk == l.chunk && !o.down && !o.isMove && isReducing o.opcode

/-- The places of the outgoing chunks that satisfy a test. -/
def State.outsWhere (s : State) (p : OutChunk → Bool) : List Nat :=
  (List.range s.outs.length).filter (fun i => match s.outs[i]? with | some o => p o | none => false)

/-- A lane is discarded, and everything formed from it is retracted (R290, R295, R296, R300, R301). -/
def State.dropLane (s : State) (l : Lane) : State :=
  let s := { s with lanes := s.lanes.filter (fun x => x != l) }
  overList State.retractOut (s.outsWhere (fun o => o.passes l || o.sums l)).reverse s

/-- The flow that a mark of a ring names: whether it is a MOVE flow, and its group or context (R369). -/
def markFlow (r : HeldRing) (m : Nat × Nat) : Bool × Nat := if m.1 = 0xFFF then (true, r.ctx) else (false, m.1)

/-- A unit is lost: a ring held here behind it is discarded, at its home when REMOTE_RING_MARKS_MET comes to it, at a relay now (R189). -/
def State.loseRings (s : State) (n : ChunkName) : State :=
  let hit (r : HeldRing) : Bool := r.behind.contains n ||
    (r.onward.isNone && r.engine == n.formedBy && r.marks.any (fun m => markFlow r m == (n.isMove, n.flow) && n.seq ≤ m.2))
  { s with rings := (s.rings.filter (fun r => !(r.onward.isSome && hit r))).map (fun r => if hit r then { r with lost := true } else r) }

/-- BELL_RINGs of a context that wait behind a lost chunk of its flight `fid` complete with 0x31: those that have not left, and those that have
(R189). -/
def State.loseOwnRings (s : State) (c fid dest chunk : Nat) : State :=
  (overList (fun s f => match f.kind with
    | .ring b _ _ => if b.home s.engineId = dest ∧ fid < f.fid then s.endFlight c f.fid { status := 0x31, detail := BitVec.ofNat 32 chunk } else s
    | _ => s) (s.ctx c).flights s).loseSentRings c fid dest chunk

/-! ## Commits and delivery at this engine -/

/-- Later units that follow `upto` without a gap move below it; `n` bounds the loop. -/
def CommitRec.close : Nat → CommitRec → CommitRec
  | 0, r => r
  | m + 1, r => if r.later.contains r.upto then CommitRec.close m { r with upto := r.upto + 1, later := r.later.erase r.upto } else r

/-- A committed unit of a flow joins the record that ring marks are tested against (R225). -/
def CommitRec.add (r : CommitRec) (seq : Nat) : CommitRec :=
  let later := insertNat seq r.later
  CommitRec.close later.length { r with later := later }

/-- Every unit of the flow from that engine with sequence at most `seq` has been committed here (R225). -/
def State.committed (s : State) (isMove : Bool) (flow formedBy seq : Nat) : Bool :=
  s.commits.any (fun r => r.flow == flow && r.move == isMove && r.formedBy == formedBy && seq < r.upto)

/-- The commit of a lane's chunk. -/
def State.commit (s : State) (l : Lane) : State :=
  let same (r : CommitRec) : Bool := r.flow == l.flow && r.move == l.isMove && r.formedBy == l.formedBy
  if s.commits.any same then { s with commits := s.commits.map (fun r => if same r then r.add l.seq else r) }
  else { s with commits := s.commits ++ [({ flow := l.flow, move := l.isMove, formedBy := l.formedBy } : CommitRec).add l.seq] }

/-- The units of 64 bytes that a Cellar range touches. -/
def unitsOf (off len : Nat) : List Nat := (List.range (ceilDiv (off % 64 + len) 64)).map (fun i => off / 64 + i)

/-- An access reaches the cell groups of a Cellar range: a group in Retention begins to wake (R329, R330). -/
def State.touch (s : State) (off len : Nat) : State :=
  overList (fun s e => if (s.ext e).power = .retention then s.modExt e (fun x => { x with waking := true }) else s)
    ((List.range (extentOf (off + len - 1) + 1 - extentOf off)).map (fun i => extentOf off + i)) s

/-- The bytes of a write that fall in unit `u`: the unit's first byte written, and the bytes. -/
def unitPart (off : Nat) (b : List Byte) (u : Nat) : Nat × List Byte :=
  let lo := max off (64 * u)
  (lo, (b.drop (lo - off)).take (64 * u + 64 - lo))

/-- A write to one unit of the Cellar: the unit is written (R337), a whole unit replaces poison, and a part of a poisoned
unit is dropped (R338, R359). -/
def Cellar.putUnit (k : Cellar) (off : Nat) (b : List Byte) (u : Nat) : Cellar :=
  let p := unitPart off b u
  if p.2.length < 64 && k.poisoned.contains u then k
  else { k with mem := memPut 0 k.mem p.1 p.2, written := insertNat u k.written, poisoned := k.poisoned.filter (fun v => v != u) }

/-- Bytes written to the Cellar, unit by unit (R337, R338, R359). -/
def State.cellarPut (s : State) (off : Nat) (b : List Byte) : State :=
  let s := s.touch off b.length
  { s with cellar := (unitsOf off b.length).foldl (fun k u => k.putUnit off b u) s.cellar }

/-- Every extent of a Cellar range may be written by a MOVE that arrives: granted or fenced, and not in the map
(R105, R352). -/
def State.cellarOpen (s : State) (off len : Nat) : Bool :=
  off + len ≤ cellarEnd && 0 < len &&
  (List.range (extentOf (off + len - 1) + 1 - extentOf off)).all (fun i =>
    let e := extentOf off + i
    !s.hearth.disabledMap.contains e && ((s.ext e).state == .granted || (s.ext e).state == .fenced))

/-- A unit of the range is poisoned. -/
def State.poisonIn (s : State) (off len : Nat) : Bool := (unitsOf off len).any (fun u => s.cellar.poisoned.contains u)

/-- The cell of a 64-byte unit, as a unit index (R326, R419). -/
def cellOf (u : Nat) : Nat := extentOf (64 * u) * 32 + u % 32

/-- The host of an extent whose port is a CXL port: its media event records mirror the fault records of uncorrectable errors there (R396). -/
def State.mediaHost (s : State) (e : Nat) : Option Nat :=
  match (s.ext e).owner with
  | .host h => if s.cxlOn h then some h else none
  | _ => none

/-- An uncorrectable error's fault record is written, and mirrored at the extent's CXL host (R359, R396). -/
def State.mediaRecord (s : State) (e : Nat) (a : RecArgs) : State :=
  match (s.logOccurrence a).2, s.mediaHost e with
  | some r, some h => (s.record a).modHost h (fun x => { x with mediaEvents := x.mediaEvents ++ [r] })
  | _, _ => s.record a

/-- The fault record of an uncorrectable error in unit `u`: its cell, and the word in which it was found (R359). -/
def State.wordRecord (s : State) (u : Nat) (op : Option RecOp) : State :=
  s.mediaRecord (extentOf (64 * u))
    { event := 0x0102, severity := 2, unitClass := 1, unitIndex := cellOf u, op := op, addr := 64 * u + 8 * FMap.get 0 s.cellar.badWords u }

/-- A read of a range that meets an uncorrectable error found before writes the fault record of its first poisoned unit (R359). -/
def State.poisonRecord (s : State) (off len : Nat) (op : Option RecOp) : State :=
  match (unitsOf off len).find? (fun u => s.cellar.poisoned.contains u) with
  | some u => s.wordRecord u op
  | none => s

/-- An uncorrectable error found in a unit outside staging: the unit is poisoned, its extent marked, and the cell and word
recorded (R359). -/
def State.cellError (s : State) (u word : Nat) (op : Option RecOp := none) : State :=
  let s := s.modExt (extentOf (64 * u)) (fun x => { x with quarantine := true })
  ({ s with cellar := { s.cellar with poisoned := insertNat u s.cellar.poisoned, badWords := FMap.put s.cellar.badWords u word } } : State).wordRecord u op

/-- A Figure reads Cellar bytes: whether it meets an uncorrectable error, found before or by this read, and what is recorded of it (R359). -/
def State.figureRead (s : State) (off len : Nat) (op : Option RecOp) : Bool × State :=
  if s.poisonIn off len then (true, s.poisonRecord off len op)
  else
    let d := s.draw
    match Config.figureReadError d.1 with
    | none => (false, d.2)
    | some k => if (unitsOf off len).contains (off / 64 + k / 8) then (true, d.2.cellError (off / 64 + k / 8) (k % 8) op) else (false, d.2)

/-- The first extent of a Cellar range whose cell group is in Retention: an access to the range waits there for its wake (R330). -/
def State.coldExt (s : State) (off len : Nat) : Option Nat :=
  ((List.range (extentOf (off + len - 1) + 1 - extentOf off)).map (fun i => extentOf off + i)).find? (fun e => (s.ext e).power == .retention)

/-- A Figure's access waits at the Cellar ports of extent `e`, behind what waits there (R330). -/
def State.waitCells (s : State) (e : Nat) (w : FigWait) : State :=
  { s with cellar := { s.cellar with waiting := s.cellar.waiting ++ [.figure e w] } }

/-- A Figure's write of Cellar bytes: a part of a poisoned unit is dropped, and counted at the port of the extent's host if it has one
(R359). DEDUCED (entry 44). -/
def State.figurePut (s : State) (off : Nat) (b : List Byte) : State :=
  let bad := (unitsOf off b.length).filter (fun u => (unitPart off b u).2.length < 64 && s.cellar.poisoned.contains u)
  (overList (fun s u => match (s.ext (extentOf (64 * u))).owner with
    | .host h => s.modHost h (fun x => { x with poisonPartialDrops := satInc x.poisonPartialDrops })
    | _ => s) bad s).cellarPut off b

/-- A MOVE's bytes reach Cellar offset `off` on this engine, at once or behind the wake of a cell group (R105, R294, R330). -/
def State.moveToCells (s : State) (c fid off : Nat) (b : List Byte) : State :=
  if !s.cellarOpen off b.length then s
  else match s.coldExt off b.length with
    | some e => (s.touch off b.length).waitCells e (.write c fid off b)
    | none => s.figurePut off b

/-- A MOVE chunk's bytes reach their destination on this engine (R105, R294); a port in service drops them (R467). -/
def State.placeMove (s : State) (sel : Nat) (addr : Nat) (b : List Byte) (c fid : Nat) : State :=
  if selSpace sel = 1 then s.moveToCells c fid addr b
  else if (s.host (s.posHost sel)).blocked then s.countTarget (0x05000000 + s.posHost sel)
  else s.postBytes (s.posHost sel) addr b c fid

/-- The tenant that a MOVE chunk from another engine moves bytes for: no byte of a packet carries it (R105, R367). -/
def Lane.tenant (l : Lane) : Nat := (Config.moveTenant l.formedBy l.flow l.seq).toNat

/-- The Suite of this engine that a tenant holds a context in (R142). -/
def State.suiteOfTenant (s : State) (t : Nat) : Nat := ((List.range 16).find? (fun i => s.tenantIn i t)).getD 16

/-- A MOVE of this engine that fetches the bytes of a chunk from another engine: its context and flight (R119). -/
def State.fetches (s : State) (l : Lane) (n : Nat) : Option (Nat × Nat) :=
  s.ctxs.findSome? (fun (c, x) => (x.flights.find? (fun f => f.done.isNone && (match f.kind with
    | .move m => selEngine m.srcSel.toNat == l.formedBy && m.dstSel == l.moveSel && m.dstAddr.toNat ≤ l.moveAddr.toNat &&
        l.moveAddr.toNat + n ≤ m.dstAddr.toNat + m.size
    | _ => false))).map (fun f => (c, f.fid)))

/-- A flight's MOVE has got `n` more bytes from another engine. -/
def Flight.got (f : Flight) (n : Nat) : Flight :=
  match f.kind with
  | .move m => { f with kind := .move { m with got := m.got + n } }
  | _ => f

/-- What a confirmed MOVE chunk does at its destination engine, which checks the access (R105, R119, R342): its bytes land, and count as arrived
for a MOVE of this engine that fetches them. -/
def State.acceptMove (s : State) (l : Lane) (b : List Byte) : State :=
  let sel := l.moveSel.toNat
  match s.locCheck (s.suiteOfTenant l.tenant) l.tenant true sel l.moveAddr.toNat b.length with
  | some (st, d) => s.countService st d
  | none => match s.fetches l b.length with
    | some (c, fid) => ((s.modFlight c fid (fun f => f.got b.length)).placeMove sel l.moveAddr.toNat b c fid).settle c
    | none => s.placeMove sel l.moveAddr.toNat b 256 noFlight

/-- The edge of a group's tree on which a neighbour lies. -/
def edgeOf (e : List Byte) (b : Bool) (self n : Nat) : Option Nat := ((geEdges e b self).find? (fun x => x.1 == n)).map (fun x => x.2)

/-- The tree edge on which a chunk came in (R238): that of the neighbour at the far end of its port; where a transit or spine engine lies
between, that of the engine that formed its bytes, or else the one that leads toward the body's source. -/
def State.cameOn (s : State) (k : Coll) (l : Lane) : Option Nat :=
  let b := onTreeB l.chunk
  (edgeOf k.entry b s.engineId (s.port l.port).farEngine.toNat).or ((edgeOf k.entry b s.engineId l.formedBy).or
    (if k.opcode = 0x22 then some (Config.treeNext k.group b l.src) else if k.opcode = 0x23 then some (Config.treeNext k.group b k.root) else none))

/-- The body that a lane's chunk belongs to: the one body of a reducing collective, or that of its source and destination (R238). -/
def Coll.bodyOf (k : Coll) (l : Lane) : Nat × Nat := if isReducing k.opcode then (0, 0) else (l.src, l.dst)

/-- A confirmed chunk of a collective acts at its Figure (R222, R238, R291, R293, R307). -/
def State.acceptColl (s : State) (c fid : Nat) (k : Coll) (l : Lane) (b : List Byte) (aux : ChunkAux) : State :=
  let s := if k.ordered && !l.ordered then s.countReorder c fid else s
  if isReducing k.opcode && !l.down then
    let p : Part := ⟨l.chunk, false, l.formedBy, l.rank, aux.lowest, bytesAcc b, aux.infIn, aux.ovf, aux.sat,
      aux.lateEngine.toNat, aux.lateHall, aux.earlyHall⟩
    (s.modColl c fid (fun k => { k with parts := k.parts ++ [p] })).nodeTry c fid l.chunk
  else
    let bd := k.bodyOf l
    let s := s.modColl c fid (fun k =>
      let k := k.addFinal bd.1 bd.2 l.chunk b
      if isReducing k.opcode then k.addLag aux.lateEngine.toNat aux.lateHall aux.earlyHall else k)
    (s.deliver c fid k bd.1 bd.2 l.chunk b).sendOn c fid k l.chunk bd.1 bd.2 l.formedBy (some l.seq) aux b (s.cameOn k l)

/-- The values of seal bytes 8 through 11 and 24 through 37 that differ from those of the Figure: the offset of the
Figure's field (R228, R287). -/
def sealMismatch (k : Coll) (f : List Byte) : Option Nat :=
  (firstFail [
    (le f 24 1 != k.opcode, 0, 31), (le f 28 5 != k.size, 0, 8), (le f 25 1 != k.dtype + 16 * k.redop, 0, 15),
    (le f 26 2 != k.root, 0, 16), (le f 33 4 != k.capacity, 0, 22), (le f 8 4 != k.epoch, 0, 26),
    (le f 37 1 != (if k.sr then 1 else 0) + (if k.padnan then 2 else 0), 0, 30)]).map (fun x => x.2)

/-- A chunk that failed a check or was retracted here is owed: it comes again, and what is behind it waits (R188, R295, R296). -/
def State.owe (s : State) (n : ChunkName) : State := { s with owed := s.owed.filter (fun m => m != n) ++ [n] }

/-- A chunk is owed no more. -/
def State.paid (s : State) (n : ChunkName) : State := { s with owed := s.owed.filter (fun m => m != n) }

/-- A chunk is dropped at port `p`: its packets and its seal are of no effect there (R217, R302, R552). -/
def State.dropUnit (s : State) (l : Lane) : State :=
  { s with droppedChunks := s.droppedChunks.filter (fun d => d != l.asDropped) ++ [l.asDropped] }

/-- A Figure of the lane's chunk fails: what was formed from the chunk is retracted first, and the Figure's peers are told (R161, R300,
R301). -/
def State.failOwner (s : State) (l : Lane) (d : Done) : State :=
  let s := s.dropLane l
  match l.owner with
  | some (c, fid) => (s.failFlight c fid d).settle c
  | none => s

/-- The chunk is lost here: what was formed from it is retracted, its Figure fails with 0x31 and its peers are told, and the rings behind it
are discarded (R189, R300). -/
def State.loseLane (s : State) (l : Lane) : State :=
  let s := (((s.countPort l.port (fun k => { k with lost := satInc k.lost })).loseRings l.name).paid l.name).dropLane l
  match l.owner with
  | some (c, fid) => ((s.failFlight c fid { status := 0x31, detail := BitVec.ofNat 32 l.chunk }).loseOwnRings c fid l.dest l.chunk).settle c
  | none => s

/-- A check on a hop fails (R295, R300). -/
def State.failLane (s : State) (l : Lane) (cause : Nat) : State :=
  let s := s.countPort l.port (fun k => { k with checkFailures := satInc k.checkFailures })
  if 3 ≤ l.attempt then s.loseLane l else ((s.askResend l cause).owe l.name).dropLane l

/-- The chunk that this engine forwards has been confirmed here: it is held until the next hop acknowledges it, and its rest and its seal
follow what has gone on at cut-through speed (R281, R285). -/
def State.passOn (s : State) (l : Lane) (f b : List Byte) (aux : ChunkAux) : State :=
  match s.outs.findIdx? (fun o => o.owner.isNone && o.passes l && o.bytes.isNone) with
  | some i => (s.modOut i (fun o =>
      { o with opcode := le f 24 1, dtype := BitVec.ofNat 8 (le f 25 1), root := le f 26 2, size := le f 28 5,
               capacity := le f 33 4, srpad := BitVec.ofNat 8 (le f 37 1), src := aux.src, dst := aux.dst })).fillOut i aux b
  | none => s

/-- The home has committed a unit: rings held behind it are behind one less (R188). -/
def State.ringsBehind (s : State) (n : ChunkName) : State :=
  { s with rings := s.rings.map (fun r => if r.onward.isNone then { r with behind := r.behind.filter (fun m => m != n) } else r) }

/-- A chunk is confirmed: acknowledged, recorded, and it acts here or goes on (R287, R288, R294). -/
def State.confirmLane (s : State) (l : Lane) (f : List Byte) (aux : ChunkAux) : State :=
  let b := l.bytes
  let s := (s.ackLane l).countPort l.port (fun k => { k with confirmed := satInc k.confirmed })
  let s := ({ s with lanes := s.lanes.filter (fun x => x != l), confirmed := s.confirmed ++ [l.name] } : State).paid l.name
  if l.dest ≠ s.engineId then s.passOn l f b aux
  else
    let s := (s.commit l).ringsBehind l.name
    if l.isMove then s.acceptMove l b
    else match l.owner with
      | some (c, fid) => (match s.collAt c fid with
          | some k => (s.acceptColl c fid k l b aux).settle c
          | none => s)
      | none => s

/-- A poisoned chunk is retracted and never comes again: it is acknowledged, so that its sender does not send it again, and its Figure
completes with 0x22 (R301). What is behind it has lost its data (R189). DEDUCED (entry 45). -/
def State.poisonLane (s : State) (l : Lane) : State :=
  let s := (((s.ackLane l).loseRings l.name).paid l.name).dropLane l
  let s := { s with confirmed := s.confirmed ++ [l.name] }
  match l.owner with
  | some (c, fid) => ((s.failFlight c fid { status := 0x22, detail := BitVec.ofNat 32 l.formedBy }).loseOwnRings c fid l.dest l.chunk).settle c
  | none => s

/-- A seal has come for a lane whose Figure, if it has one, is known (R287, R299-R301). -/
def State.judgeLane (s : State) (l : Lane) (f : List Byte) (aux : ChunkAux) : State :=
  let n := le f 12 4
  let len := (l.pieces.map (fun p => p.2.length)).sum
  -- The last flit of a chunk may carry fewer bytes than 64 (R286): the seal gives the length.
  let l' : Lane := { l with pieces := [(0, l.bytes.take n)] }
  let keep : State := { s with lanes := s.lanes.map (fun x => if x = l then l' else x) }
  if l.poisoned || bit (le f 21 1) 1 then s.poisonLane l
  else if len < n then s.failLane l 3
  else if n + 63 < len || !l.whole len then s.failLane l 2
  else if (crc32c (l.bytes.take n)).toNat ≠ le f 16 4 || (!l.isMove && le f 8 4 ≠ l.epoch) then s.failLane l 1
  else match l.owner with
    | some (c, fid) =>
      (match s.collAt c fid with
       | some k =>
         (match sealMismatch k f with
          | some o => s.failOwner l { status := 0x12, detail := BitVec.ofNat 32 o }
          | none => keep.confirmLane l' f aux)
       | none => s.dropLane l)
    | none => keep.confirmLane l' f aux

/-! ## PACKET_RECEIVED (R85, R210, R217, R367, R385, R552) -/

/-- VC0 credits return to the sender of `n` flits (R279). -/
def State.returnCredits (s : State) (p vc n : Nat) : State :=
  s.modPort p (fun x => { x with creditReturn := listSet 0 x.creditReturn vc (x.creditReturn.getD vc 0 + n) })

/-- Before Ready, `n` flits of VC0 or VC2 are dropped, their credits returned, and the unit is counted (R85). -/
def State.preReady (s : State) (p vc n : Nat) : State :=
  (s.returnCredits p vc n).countPort p (fun k => { k with preReadyDrops := satInc k.preReadyDrops })

/-- The routes on which this engine forwards a packet for another engine, as they are listed: the transit uplink mask of its group entry, a
spine's downlink pair, or for a MOVE the wiring's own (R22, R24, R210, R211). Empty: it cannot forward it, since it has no such mask, or no Up
port toward the destination's Room (R552). -/
def State.forwardPorts (s : State) (isMove : Bool) (flow dest : Nat) : List Nat :=
  if s.spine then (let ps := s.routes dest; if ps.any (fun p => (s.port p).state == .up) then ps else [])
  else if isMove then (if dest / 8 = s.hearth.roomId.toNat then [] else [32, 33, 34, 35])
  else match (s.grp flow).entry with
    | some e => geTransit e
    | none => []

/-- A collective still expects a chunk from that sender, whatever its epoch (R367). -/
def awaits (k : Coll) (self : Nat) (down : Bool) (chunk formedBy src dst : Nat) : Bool :=
  k.reserved &&
  (if isReducing k.opcode && !down then
     (List.range (geChildren k.entry (onTreeB chunk))).any (fun i => geChild k.entry (onTreeB chunk) i == formedBy) &&
     !k.done1.contains (1, 0, chunk) && !k.parts.any (fun p => p.chunk == chunk && p.engine == formedBy)
   else if isReducing k.opcode then !k.hasFinal 0 0 chunk && geRoot k.entry (onTreeB chunk) != self
   else !k.hasFinal src dst chunk)

/-- The Figure that a packet of a collective is for has its epoch and still expects the chunk from that sender (R367). -/
def expects (k : Coll) (self : Nat) (down : Bool) (epoch chunk formedBy src dst : Nat) : Bool :=
  k.epoch == epoch && awaits k self down chunk formedBy src dst

/-- The first flight on a group that satisfies a test, in context and Card order. -/
def State.flightOn (s : State) (g : Nat) (p : Coll → Bool) : Option (Nat × Nat) :=
  s.ctxs.findSome? (fun (c, x) => (x.flights.find? (fun f =>
    f.done.isNone && (match f.kind with | .coll k => k.group == g && p k | _ => false))).map (fun f => (c, f.fid)))

/-- Every collective or BARRIER in flight on a group. -/
def State.groupFlights (s : State) (g : Nat) : List (Nat × Nat) :=
  s.ctxs.flatMap (fun (c, x) => (x.flights.filter (fun f => f.done.isNone && f.kind.group == some g)).map (fun f => (c, f.fid)))

/-- A mismatched generation fails this engine's Figure on the group with 0x14, and its peers are told (R217). DESIGN CHOICE (entry 34): of
several Figures in flight on the group it is the first in context and Card order; R217 names one. -/
def State.wrongGen (s : State) (g : Nat) : State :=
  match s.groupFlights g with
  | (c, fid) :: _ => (s.failFlight c fid { status := 0x14, detail := BitVec.ofNat 32 g }).settle c
  | [] => s

/-- A generation that group traffic carries differs from that of the entry in effect here (R217); an engine for which the traffic is has an
entry, or it fits none. -/
def State.genDiffers (s : State) (isMove : Bool) (g gen : Nat) (mine : Bool) : Bool :=
  !isMove && (match (s.grp g).entry with | some e => geGen e != gen | none => mine)

/-- A chunk's lane, whatever its port. -/
def State.laneOf (s : State) (isMove : Bool) (flow chunk formedBy seq : Nat) : List Lane :=
  s.lanes.filter (fun l => l.flow == flow && l.isMove == isMove && l.chunk == chunk && l.formedBy == formedBy && l.seq == seq)

/-- The chunk's lane on port `p`. -/
def State.laneAt (s : State) (p flow : Nat) (isMove : Bool) (chunk formedBy seq : Nat) : Option Lane :=
  (s.laneOf isMove flow chunk formedBy seq).find? (fun l => l.port == p)

/-- The flow field of a packet, a seal or a message: a context number or a group (R286, R367, R369). -/
def flowField (isMove : Bool) (w : Nat) : Nat := if isMove then bits w 7 0 else bits w 11 0

/-- The lane that a packet's header opens, with no data in it yet (R289, R367). -/
def headLane (p : Nat) (h : List Byte) (src dst : Nat) : Lane :=
  { port := p, flow := flowField (bit (le h 16 1) 3) (le h 2 2), isMove := bit (le h 16 1) 3, gen := le h 4 2, chunk := le h 6 4,
    formedBy := le h 1 1, dest := le h 0 1, seq := le h 24 8, treeB := bit (le h 16 1) 2, down := bit (le h 16 1) 4,
    ordered := bit (le h 16 1) 0, epoch := le h 17 4, attempt := le h 15 1, src := src, dst := dst, rank := 0,
    moveAddr := BitVec.ofNat 64 (le h 32 8), moveSel := BitVec.ofNat 16 (le h 40 2), owner := none, pieces := [],
    poisoned := bit (le h 16 1) 1 }

/-- The outgoing chunk in which this engine forwards a lane's chunk on the routes `ports` (R22, R210, R285). -/
def forwardOut (l : Lane) (ports : List Nat) : OutChunk :=
  { owner := none, flow := l.flow, isMove := l.isMove, suite := l.flow / 256, gen := l.gen, mask := ports, ordered := l.ordered,
    dest := l.dest, edge := none, chunk := l.chunk, formedBy := l.formedBy, seq := l.seq, treeB := l.treeB, down := l.down,
    epoch := l.epoch, opcode := 0, dtype := 0, root := 0, size := 0, capacity := 0, srpad := 0, src := l.src, dst := l.dst, aux := noAux,
    moveAddr := l.moveAddr, moveSel := l.moveSel, full := 0, bytes := none, inPort := l.port }

/-- The lane's data joins what goes on at cut-through speed (R289, R293). -/
def State.feed (s : State) (l : Lane) (off : Nat) (b : List Byte) : State :=
  overList (fun s i => match s.outs[i]? with
    | some o => if o.bytes.isSome || o.formedLen ≠ off then s else (s.modOut i (fun x => { x with pieces := x.pieces ++ [(off, b)] })).pushPieces i
    | none => s) (s.outsWhere (fun o => o.passes l)) s

/-- The chunks in which a lane's chunk goes on down or across the tree from this engine are opened (R238, R293). -/
def State.openOnward (s : State) (c fid : Nat) (k : Coll) (l : Lane) : State :=
  let bd := k.bodyOf l
  overList (fun s (e, i) =>
    if (s.passOut c fid (onTreeB l.chunk) i l.chunk l.formedBy l.seq).isSome then s
    else { s with outs := s.outs ++ [collOut k (c, fid) (onTreeB l.chunk) i e l.chunk l.formedBy l.seq (i != 0) bd.1 bd.2 noAux none] })
    (k.onward s.engineId l.chunk bd.2 (s.cameOn k l)) s

/-- A Figure takes a chunk: the operand gets its rank, or the chunk begins to go on (R291, R293, R367). -/
def State.takeLane (s : State) (c fid : Nat) (l : Lane) : State :=
  match s.collAt c fid with
  | none => s
  | some k =>
    let l' : Lane := { l with owner := some (c, fid), rank := k.rankNext }
    let s := s.modColl c fid (fun k => { k with rankNext := k.rankNext + 1 })
    let s : State := { s with lanes := s.lanes.map (fun x => if x = l then l' else x) }
    if isReducing k.opcode && !l.down then s.nodeTry c fid l.chunk
    else overList (fun s p => s.feed l' p.1 p.2) l.pieces (s.openOnward c fid k l')

/-- The chunk's first flit opens its lane (R289-R291). -/
def State.openLane (s : State) (l : Lane) (ports : List Nat) : State :=
  let s := { s with lanes := s.lanes ++ [l] }
  if l.dest ≠ s.engineId then (if s.outs.any (fun o => o.passes l) then s else { s with outs := s.outs ++ [forwardOut l ports] })
  else if l.isMove then s
  else match s.flightOn l.flow (fun k => expects k s.engineId l.down l.epoch l.chunk l.formedBy l.src l.dst) with
    | some (c, fid) => s.takeLane c fid l
    | none => s

/-- Bytes that arrive in a lane: they join it, and what is formed from it grows (R289-R291, R293). -/
def State.intoLane (s : State) (l : Lane) (off : Nat) (b : List Byte) : State :=
  let l' : Lane := { l with pieces := l.pieces ++ [(off, b)] }
  let s : State := { s with lanes := s.lanes.map (fun x => if x = l then l' else x) }
  match l.owner with
  | none => s.feed l' off b
  | some (c, fid) => match s.collAt c fid with
    | some k => if isReducing k.opcode && !l.down then s.speculate c fid l.chunk else s.feed l' off b
    | none => s

/-- A context's MOVE flow has begun anew on the engine that forms its chunks: attempt 1 comes of a unit that was confirmed before, and
nothing of the old flow counts any more (R225). DEDUCED (entry 35). -/
def State.renewFlow (s : State) (l : Lane) : State :=
  { s with confirmed := s.confirmed.filter (fun n => !(n.isMove && n.flow == l.flow && n.formedBy == l.formedBy && n.dest == l.dest))
           commits := if l.dest = s.engineId then s.commits.filter (fun r => !(r.move && r.flow == l.flow && r.formedBy == l.formedBy)) else s.commits }

/-- A packet that this engine may take: a duplicate of a confirmed chunk is discarded, a later attempt takes the place of an earlier one, and
an earlier one is of no effect (R291, R297, R299). -/
def State.packetIn (s : State) (l : Lane) (ports : List Nat) (off : Nat) (b : List Byte) : State :=
  let s : State := { s with droppedChunks := s.droppedChunks.filter (fun d => d != l.asDropped) }
  let s := if l.isMove && l.attempt == 1 && s.confirmed.contains l.name then s.renewFlow l else s
  if s.confirmed.contains l.name then s
  else
    let old := s.laneOf l.isMove l.flow l.chunk l.formedBy l.seq |>.find? (fun x => x.dest == l.dest)
    let fresh (s : State) : State :=
      let s := s.openLane l ports
      match s.laneAt l.port l.flow l.isMove l.chunk l.formedBy l.seq with
      | some x => s.intoLane x off b
      | none => s
    match old with
    | none => fresh s
    | some x =>
      if x.port = l.port ∧ x.attempt = l.attempt then s.intoLane x off b
      else if x.attempt < l.attempt then fresh (s.dropLane x)
      else s.dropUnit l

/-- PACKET_RECEIVED: a VC0 data packet arrives on a port (R22, R85, R210, R217, R289-R291, R313, R367, R385, R552). -/
def execPacketReceived (port : Fin 36) (header : List Byte) (body : List Byte) (src dst : Nat) (s : State) : Out := s.fabricIn port.val (.packetReceived port header body src dst) fun s =>
  let p := port.val
  let n := ceilDiv body.length 64 + 1
  let l := headLane p header src dst
  if !s.portUp p then .next s
  else if !s.isReady then .next (s.preReady p 0 n)
  else if (s.port p).state != .up then .next (s.returnCredits p 0 n)
  else
    let s := s.returnCredits p 0 n
    let mine := l.dest == s.engineId
    let ports := if mine then [] else s.forwardPorts l.isMove l.flow l.dest
    if !mine && ports.isEmpty then
      .next ((s.countPort p (fun k => { k with unroutable := satInc k.unroutable })).dropUnit l)
    else if s.genDiffers l.isMove l.flow l.gen mine then .next ((s.dropUnit l).wrongGen l.flow)
    else .next (s.packetIn l ports (le header 10 4) body)

/-! ## The messages about a chunk -/

/-- The lane that a seal without one would have: what the messages about its chunk name. -/
def ghostLane (p : Nat) (f : List Byte) (dest : Nat) : Lane :=
  let isMove := bit (le f 21 1) 3
  { port := p, flow := flowField isMove (le f 0 2), isMove := isMove, gen := le f 2 2, chunk := le f 4 4, formedBy := le f 23 1,
    dest := dest, seq := le f 40 8, treeB := bit (le f 21 1) 2, down := bit (le f 21 1) 4, ordered := bit (le f 21 1) 0,
    epoch := le f 8 4, attempt := le f 20 1, src := 0, dst := 0, rank := 0, moveAddr := 0, moveSel := 0, owner := none, pieces := [] }

/-- The Figure that a whole chunk clashes with by its epoch (R228, R287): the first in flight on its group that still expects this chunk from
that sender, where none has the chunk's epoch. DESIGN CHOICE (entry 36): it is judged once every earlier unit of the flow has been committed
here, so that a sender that only runs ahead fails nobody, and not against an ALLTOALLV, whose bodies' lengths no rule gives this engine. -/
def State.epochClash (s : State) (l : Lane) : Option (Nat × Nat) :=
  if l.isMove || l.dest != s.engineId || l.owner.isSome || (l.seq != 0 && !s.committed false l.flow l.formedBy (l.seq - 1)) ||
     (s.flightOn l.flow (fun k => k.epoch == l.epoch)).isSome then none
  else s.flightOn l.flow (fun k => k.opcode != 0x26 && l.chunk < k.chunksOf ((k.bodyLen l.src l.dst).getD 0) &&
    awaits k s.engineId l.down l.chunk l.formedBy l.src l.dst)

/-- A whole chunk that no Figure of this engine has taken waits with its seal (R367), or fails the Figure whose epoch it does not have
(R228). -/
def State.keepSealed (s : State) (l : Lane) (f : List Byte) (aux : ChunkAux) : State :=
  match s.epochClash l with
  | some (c, fid) => ((s.dropLane l).failFlight c fid { status := 0x12, detail := 26 }).settle c
  | none => { s with lanes := s.lanes.map (fun x => if x = l then { l with sealed := some (f, aux) } else x) }

/-- A seal whose chunk has no lane here: that of a dropped chunk, or of an attempt that another has overtaken, is of no effect; a chunk
confirmed before is acknowledged again; of any other, every flit is missing (R217, R287, R295, R299). -/
def State.sealAlone (s : State) (g : Lane) : State :=
  if s.droppedChunks.contains g.asDropped then { s with droppedChunks := s.droppedChunks.filter (fun d => d != g.asDropped) }
  else match s.confirmed.find? (fun x => x.flow == g.flow && x.isMove == g.isMove && x.chunk == g.chunk && x.seq == g.seq && x.formedBy == g.formedBy) with
    | some x => (s.ackLane { g with dest := x.dest }).countPort g.port (fun k => { k with duplicates := satInc k.duplicates })
    | none =>
      if !(s.laneOf g.isMove g.flow g.chunk g.formedBy g.seq).isEmpty then s
      else if s.genDiffers g.isMove g.flow g.gen false then s.wrongGen g.flow
      else s.failLane g 3

/-- SEAL_RECEIVED: a seal follows its chunk's last flit (R286-R301). A collective's chunk for this engine that no Figure has
taken yet waits with its seal (R367). -/
def execSealReceived (port : Fin 36) (sealFlit : List Byte) (aux : ChunkAux) (s : State) : Out := s.fabricIn port.val (.sealReceived port sealFlit aux) fun s =>
  let p := port.val
  let g := ghostLane p sealFlit s.engineId
  if !s.portUp p then .next s
  else if !s.isReady then .next (s.preReady p 0 1)
  else if (s.port p).state != .up then .next (s.returnCredits p 0 1)
  else
    let s := s.returnCredits p 0 1
    match s.laneAt p g.flow g.isMove g.chunk g.formedBy g.seq with
    | none => .next (s.sealAlone g)
    | some l =>
      if s.genDiffers l.isMove l.flow g.gen (l.dest == s.engineId) then .next ((s.dropLane l).wrongGen l.flow)
      else if !l.isMove && l.dest == s.engineId && l.owner.isNone then .next (s.keepSealed l sealFlit aux)
      else .next (s.judgeLane l sealFlit aux)

/-- The outgoing chunk that a message on VC3 names (R225, R369). -/
def State.outNamed (s : State) (f : List Byte) : Option Nat :=
  let isMove := bit (le f 11 1) 3
  s.outs.findIdx? (fun o => o.isMove == isMove && o.flow == flowField isMove (le f 2 2) && o.chunk == le f 6 4 && o.seq == le f 12 8 && o.formedBy == le f 21 1 &&
    o.dest == le f 22 1 && o.sealed)

/-- A malformed control flit is dropped and counted (R368, R369). -/
def State.badControl (s : State) (p : Nat) : State := s.countPort p (fun k => { k with badControl := satInc k.badControl })

/-- RETRACT_MARKER: the chunk's lane is discarded, and what was formed from it is retracted in turn (R296). -/
def execRetractMarker (port : Fin 36) (flit : List Byte) (s : State) : Out := s.fabricIn port.val (.retractMarker port flit) fun s =>
  let p := port.val
  if !s.portUp p then .next s
  else if !s.isReady then .next (s.preReady p 0 1)
  else
    let s := s.returnCredits p 0 1
    if !ctlOk 0x01 flit then .next (s.badControl p)
    else
      let s := s.countPort p (fun k => { k with retractReceived := satInc k.retractReceived })
      let isMove := bit (le flit 11 1) 3
      let d : DroppedChunk := ⟨p, isMove, flowField isMove (le flit 2 2), le flit 6 4, le flit 21 1, le flit 12 8⟩
      match s.laneAt p d.flow d.isMove d.chunk d.formedBy d.seq with
      | some l => .next ((s.owe l.name).dropLane l)
      | none => .next { s with droppedChunks := s.droppedChunks.filter (fun x => x != d) }

/-- The chunk that a message on VC3 names (R225, R369). -/
def messageName (f : List Byte) : ChunkName :=
  ⟨bit (le f 11 1) 3, flowField (bit (le f 11 1) 3) (le f 2 2), le f 6 4, le f 21 1, le f 22 1, le f 12 8⟩

/-- A reply about a chunk that its sender has given up is dropped, and counted for the part that gave it up (R302, R468). -/
def State.lateReply (s : State) (n : ChunkName) : State :=
  match s.givenUp.find? (fun g => g.name == n) with
  | some g => { s with givenUp := s.givenUp.filter (fun x => x.name != n)
                       svc := { s.svc with droppedReplies := FMap.put s.svc.droppedReplies g.part (satInc (FMap.get 0 s.svc.droppedReplies g.part)) } }
  | none => s

/-- CHUNK_ACK: the held copy and the window slot are freed (R281, R288). -/
def execChunkAck (port : Fin 36) (flit : List Byte) (s : State) : Out := s.fabricIn port.val (.chunkAck port flit) fun s =>
  let p := port.val
  if !s.portUp p then .next s
  else
    let s := s.returnCredits p 3 1
    if !ctlOk 0x08 flit then .next (s.badControl p)
    else match s.outNamed flit with
      | some i => .next (({ s with outs := s.outs.eraseIdx i } : State).settleOwner ((s.outs[i]?).bind (fun o => o.owner)))
      | none => .next (s.lateReply (messageName flit))

/-- A chunk goes again with the next attempt number, choosing its port afresh; its window slot stays its own (R288, R297, R298). -/
def State.resend (s : State) (i : Nat) (o : OutChunk) : State :=
  ((match o.port with | some p => s.countPort p (fun k => { k with resends := satInc k.resends }) | none => s).disturb o.owner).modOut i
    (fun x => { x with attempt := x.attempt + 1, port := none, sealed := false, pieces := [], left := 0 })

/-- RESEND_REQUEST: the sender sends the chunk again from its held copy (R297). -/
def execResendRequest (port : Fin 36) (flit : List Byte) (s : State) : Out := s.fabricIn port.val (.resendRequest port flit) fun s =>
  let p := port.val
  if !s.portUp p then .next s
  else
    let s := s.returnCredits p 3 1
    if !ctlOk 0x09 flit then .next (s.badControl p)
    else match s.outNamed flit with
      | some i => (match s.outs[i]? with
          | some o => if o.attempt = le flit 10 1 ∧ o.attempt < 3 then .next (s.resend i o) else .next s
          | none => .next s)
      | none => .next (s.lateReply (messageName flit))

/-- ACK_TIMEOUT: neither an acknowledgement nor a resend request has come for the chunk at place `n` (R298); at attempt 3
it is lost (R300). -/
def execAckTimeout (n : Nat) (s : State) : Out :=
  match s.outs[n]? with
  | none => .next s
  | some o =>
    if !o.sealed then .next s
    else
      let s := match o.port with | some p => s.countPort p (fun k => { k with ackTimeouts := satInc k.ackTimeouts }) | none => s
      if o.attempt < 3 then .next (s.resend n o)
      else
        let s := match o.port with | some p => s.countPort p (fun k => { k with lost := satInc k.lost }) | none => s
        match o.owner with
        | some (c, fid) =>
          let s := (s.disturb o.owner).failFlight c fid { status := 0x31, detail := BitVec.ofNat 32 o.chunk }
          .next ((s.loseOwnRings c fid o.dest o.chunk).settle c)
        | none => .next { s with outs := s.outs.eraseIdx n }

end Sys2Proof.Machine
end

