-- ==== Sys2Proof/Machine/Figures.lean ====
section
/-! DEFINITION. Fetching and the control Figures (chapter 04): FIGURE_FETCH, NOP, END, LOOP, MARK, FENCE, and the Figures that
fail before they are anything: an unknown opcode, the end of the Card, a failed fetch. -/

namespace Sys2Proof.Machine

/-! ## Loops (R124-R126) -/

/-- The loop stack and the next index after a LOOP at `idx` that passes its checks (R124). -/
def loopReached (loops : List LoopEntry) (idx : Nat) (f : List Byte) : List LoopEntry × Nat :=
  let n := le f 0 4
  let start := le f 4 3
  let fresh : List LoopEntry × Nat :=
    if n < 2 then (loops, idx + 1) else ({ idx := idx, start := start, left := n - 2, pass := 1 } :: loops, start)
  match loops with
  | e :: rest =>
    if e.idx = idx then
      (if 0 < e.left then ({ e with left := e.left - 1, pass := e.pass + 1 } :: rest, start) else (rest, idx + 1))
    else fresh
  | [] => fresh

/-- The index that follows the prefetched Figures, loop branches taken as the stack predicts (R127). -/
def predict : List LoopEntry → Nat → List (Nat × Option (List Byte)) → Nat
  | _, pc, [] => pc
  | st, _, (i, some f) :: l =>
    if figOp f = 0x02 then
      let r := loopReached st i f
      predict r.1 r.2 l
    else predict st (i + 1) l
  | st, _, (i, none) :: l => predict st (i + 1) l

/-! ## FIGURE_FETCH (R92, R127, R128) -/

/-- The Card lies in the Cellar (R92). -/
def Context.cardInCellar (x : Context) : Bool := selSpace x.run.loc.toNat == 1

/-- `len` bytes of the Cellar that a Card or block of context `c` reads: none without the right or with poison in the range
(R92, R105, R359). -/
def State.cellarRead (s : State) (c off len : Nat) : Option (List Byte) :=
  match s.cellarCheck ((s.suiteOfCtx c).getD 16) (s.ctx c).asg.tenant.toNat false off len with
  | some _ => none
  | none => if s.poisonIn off len then none else some (memBytes 0 s.cellar.mem off len)

/-- The bytes of Figure `i` as its Card's memory answers; for a Card in the Cellar the engine reads them itself. -/
def State.fetched (s : State) (c i : Nat) (res : ReadResult) : Option (List Byte) :=
  let x := s.ctx c
  if x.cardInCellar then s.cellarRead c (x.run.base.toNat + 32 * i) 32
  else match s.hostAnswer (s.posHost x.run.loc.toNat) res with | .ok b => if b.length = 32 then some b else none | _ => none

/-- FIGURE_FETCH: the next Figure ahead of the issue point comes in, or its fetch fails, with no other effect (R127, R128). An answer
that is not one Figure's 32 bytes is a failed fetch. -/
def execFigureFetch (ctx : Fin 256) (res : ReadResult) (s : State) : Out :=
  let c := ctx.val
  let x := s.ctx c
  let i := predict x.loops x.pc x.prefetch
  if !x.live || !s.isReady || 64 ≤ x.prefetch.length || x.run.len ≤ i then .next s
  else
    let b := s.fetched c i res
    let s := if x.cardInCellar then s.touch (x.run.base.toNat + 32 * i) 32 else s.directRead c (s.posHost x.run.loc.toNat) res
    .next ((s.modCtx c (fun x => { x with prefetch := x.prefetch ++ [(i, b)] })).refresh c)

/-! ## Control Figures -/

/-- A Figure with a success status. -/
def doneOk : Done := { status := 0 }

/-- NOP completes as soon as it issues (R99). -/
def execNop (ctx : Fin 256) (s : State) : Out :=
  let c := ctx.val
  match s.nextOp c 0x00 with
  | none => .next s
  | some (i, f) => match s.issueCheck c i f with
    | some r => .next (s.issueFail c i f r)
    | none => .next ((s.issue c i f .plain (some doneOk)).settle c)

/-- END issues; it completes behind every earlier Figure, ends the Card and discards the loops (R100). -/
def execEndCard (ctx : Fin 256) (s : State) : Out :=
  let c := ctx.val
  match s.nextOp c 0x01 with
  | none => .next s
  | some (i, f) => match s.issueCheck c i f with
    | some r => .next (s.issueFail c i f r)
    | none => .next ((s.issueAt c i f i .endCard none).settle c)

/-- LOOP branches, pushes or pops (R124), and completes as soon as it issues. -/
def execLoop (ctx : Fin 256) (s : State) : Out :=
  let c := ctx.val
  match s.nextOp c 0x02 with
  | none => .next s
  | some (i, f) => match s.issueCheck c i f with
    | some r => .next (s.issueFail c i f r)
    | none =>
      let r := loopReached (s.ctx c).loops i f
      .next (((s.issueAt c i f r.2 .plain (some doneOk)).modCtx c (fun x => { x with loops := r.1 })).settle c)

/-- MARK opens a layer record with its tag (R102, R277), and completes as soon as it issues. -/
def execMark (ctx : Fin 256) (s : State) : Out :=
  let c := ctx.val
  match s.nextOp c 0x03 with
  | none => .next s
  | some (i, f) => match s.issueCheck c i f with
    | some r => .next (s.issueFail c i f r)
    | none => .next (((s.issue c i f .plain (some doneOk)).modCtx c (fun x => x.openLayer (BitVec.ofNat 32 (le f 0 4)) true)).settle c)

/-- FENCE issues; it completes behind every earlier Figure of the context (R113). -/
def execFence (ctx : Fin 256) (s : State) : Out :=
  let c := ctx.val
  match s.nextOp c 0x34 with
  | none => .next s
  | some (i, f) => match s.issueCheck c i f with
    | some r => .next (s.issueFail c i f r)
    | none => .next ((s.issue c i f .fence none).settle c)

/-! ## Figures that fail before they are anything -/

/-- A Figure of an opcode outside the table completes with 0x10 (R98). -/
def execBadOpcode (ctx : Fin 256) (s : State) : Out :=
  let c := ctx.val
  match s.nextFig c with
  | none => .next s
  | some (i, f) => if opKnown (figOp f) then .next s else .next (s.issueFail c i f (0x10, figOp f))

/-- A Figure that no memory delivered: neither its opcode nor its flags are known. The entry's opcode byte is free. -/
def unreadFigure (i : Nat) : List Byte := fields 32 [(31, 1, (Config.unreadOpcode i).toNat)]

/-- NO_END: issue reaches the Card length without END and fails with 0x18 (R101). DESIGN CHOICE (entry 7): a Card started at or past its
length fails so at its start index, since no rule refuses that START. -/
def execNoEnd (ctx : Fin 256) (s : State) : Out :=
  let c := ctx.val
  let x := s.ctx c
  if s.canIssue c && s.turn c && x.run.len ≤ x.pc then .next (s.issueFail c x.pc (unreadFigure x.pc) (0x18, x.run.len)) else .next s

/-- CARD_FETCH_ERROR: issue reaches an index whose fetch failed; the Figure completes with 0x24 and a 0x0306 record
(R128). -/
def execCardFetchError (ctx : Fin 256) (s : State) : Out :=
  let c := ctx.val
  let x := s.ctx c
  match x.prefetch with
  | (i, none) :: _ =>
    if s.canIssue c && s.turn c && i == x.pc then
      let s := if x.cardInCellar then s.poisonRecord (x.run.base.toNat + 32 * i) 32 none else s
      .next (s.issueFail c i (unreadFigure i) (0x24, 0))
    else .next s
  | _ => .next s

end Sys2Proof.Machine
end

