-- ==== Sys2Proof/Machine/Bells.lean ====
section
/-! DEFINITION. The Bell Figures (chapter 06): BELL_WAIT, BELL_RING with SET, ADD and TAKE, their timeouts, and remote rings at
their home. -/

namespace Sys2Proof.Machine

/-! ## Selectors and translation (R111, R171, R174) -/

/-- The translation entry of a virtual Bell of context `c`, if valid (R171). -/
def State.translationOf (s : State) (c id : Nat) : Option Nat :=
  match FMap.find (s.ctx c).trans id with
  | some e => if bit e.toNat 12 then some e.toNat else none
  | none => none

/-- The record offset of a translation entry. -/
def trOffset (e : Nat) : Nat := bits e 49 24 * 32
/-- Its home engine. -/
def trHome (e : Nat) : Nat := bits e 23 16

/-- The Bell that a selector names for a Figure that waits, or that rings; or the status and detail of the check that fails
(R111, R173, R174). -/
def State.bellTarget (s : State) (c sel : Nat) (wait : Bool) : Except (Nat × Nat) BellRef :=
  if !bit sel 15 then .ok (.loc (bits sel 5 0))
  else match s.translationOf c (bits sel 11 0) with
    | none => .error (0x17, bits sel 11 0)
    | some e =>
      if !bit e (if wait then 13 else 14) then .error (0x21, trHome e)
      else if trHome e ≠ s.engineId then .ok (.away (trHome e) (trOffset e))
      else match s.recordCheck (s.ctx c).asg.tenant.toNat (trOffset e) with
        | some st => .error (st, s.recordDetail (trOffset e) st)
        | none => .ok (.virt (trOffset e))

/-- A Bell Figure that fails its check; a record of another tenant writes the home's fault record (R173). -/
def State.bellFail (s : State) (c i : Nat) (f : List Byte) (r : Nat × Nat) : State :=
  let s := if r.1 = 0x20 then
      s.ringBlocked s.engineId c (s.ctx c).asg.tenant.toNat i (((s.translationOf c (bits (le f 8 2) 11 0)).map trOffset).getD 0)
    else s
  s.issueFail c i f r

/-- The context's bit in a Bell's waiter line is set (R185). -/
def State.addWaiter (s : State) (c : Nat) : BellRef → State
  | .virt o => s.modBell o (fun r => { r with waiters := insertNat c r.waiters })
  | _ => s

/-- A Bell Figure issues with its Bell, or fails. A wait joins the waiter line, and completes at once if the Bell allows it
(R179, R182, R185). -/
def State.issueBell (s : State) (c i : Nat) (f : List Byte) (wait : Bool) (kind : BellRef → FlightKind) : State :=
  match s.issueCheck c i f with
  | some r => s.issueFail c i f r
  | none => match s.bellTarget c (le f 8 2) wait with
    | .error r => s.bellFail c i f r
    | .ok b =>
      if wait then (((s.issue c i f (kind b) none).addWaiter c b).wakeBell c b).settle c
      else (s.issue c i f (kind b) none).settle c

/-- BELL_WAIT (R179): it completes if the Bell is full and meets CMP, or waits. -/
def execBellWait (ctx : Fin 256) (s : State) : Out :=
  let c := ctx.val
  match s.nextOp c 0x30 with
  | none => .next s
  | some (i, f) => .next (s.issueBell c i f true (fun b => .bellWait b (bit (figFlags f) 2) (BitVec.ofNat 64 (le f 0 8)) (le f 10 4)))

/-- The BELL_RING of sub-operation `sub` that context `c` reaches. -/
def State.nextRing (s : State) (c sub : Nat) : Option (Nat × List Byte) :=
  match s.nextOp c 0x31 with
  | some (i, f) => if bits (figFlags f) 3 2 = sub then some (i, f) else none
  | none => none

/-- BELL_RING with SET (R179): it writes the value and marks the Bell full. Sub-operation 11 is invalid and fails here
with 0x12. -/
def execBellRingSet (ctx : Fin 256) (s : State) : Out :=
  let c := ctx.val
  match (s.nextRing c 0).or (s.nextRing c 3) with
  | none => .next s
  | some (i, f) => .next (s.issueBell c i f false (fun b => .ring b false (BitVec.ofNat 64 (le f 0 8))))

/-- BELL_RING with ADD (R179, R180): it adds with wrap, and marks the Bell full. -/
def execBellRingAdd (ctx : Fin 256) (s : State) : Out :=
  let c := ctx.val
  match s.nextRing c 1 with
  | none => .next s
  | some (i, f) => .next (s.issueBell c i f false (fun b => .ring b true (BitVec.ofNat 64 (le f 0 8))))

/-- BELL_RING with TAKE (R110, R179, R181): it takes a full Bell's value into its result local Bell, or waits. -/
def execBellRingTake (ctx : Fin 256) (s : State) : Out :=
  let c := ctx.val
  match s.nextRing c 2 with
  | none => .next s
  | some (i, f) => .next (s.issueBell c i f true (fun b => .take b (bits (le f 10 1) 5 0) (le f 12 4)))

/-- The timeout of a waiting Bell Figure, µs; 0 waits forever. -/
def FlightKind.bellTimeout : FlightKind → Nat
  | .bellWait _ _ _ t => t
  | .take _ _ t => t
  | _ => 0

/-- BELL_TIMEOUT: the hall count reaches the timeout of the context's BELL_WAIT or TAKE, and it completes with 0x41
(R184). -/
def execBellTimeout (ctx : Fin 256) (s : State) : Out :=
  let c := ctx.val
  match (s.ctx c).flights.find? (fun f => f.done.isNone && f.kind.bellTimeout != 0) with
  | none => .next s
  | some f =>
    let s := (s.reach (f.issuedAt + BitVec.ofNat 64 (1000 * f.kind.bellTimeout))).wake
    .next ((s.endFlight c f.fid { status := 0x41 }).settle c)

/-! ## Remote rings at their home (R147, R173, R174, R188, R189, R225) -/

/-- The valid marks of a ring flit: flow and sequence (R369). -/
def ringMarks (f : List Byte) : List (Nat × Nat) :=
  ((List.range 4).map (fun i => le f (24 + 8 * i) 8)).filterMap (fun m => if bit m 15 then some (bits m 11 0, m / 2 ^ 16) else none)

/-- Every unit that a held ring is behind has been committed here (R188, R225). -/
def State.marksMet (s : State) (r : HeldRing) : Bool :=
  r.behind.isEmpty && r.marks.all (fun m => let q := markFlow r m; s.committed q.1 q.2 r.engine m.2)

/-- The context in Clearing whose former tenant owns the record: it holds the ring (R147). -/
def State.clearingFor (s : State) (off : Nat) : Option Nat :=
  (s.ctxs.find? (fun (_, x) => x.state == .clearing && x.before == some (s.bell off).tenant && (s.bell off).tenantValid)).map (fun x => x.1)

/-- A remote ring is checked against its record and applied, or dropped (R173, R174, R177, R467). -/
def State.applyRemote (s : State) (r : HeldRing) : State :=
  match s.recordCheck r.tenant.toNat r.offset with
  | some st =>
    if st = 0x20 then s.ringBlocked r.engine r.ctx r.tenant.toNat r.figIdx r.offset
    else s.countService st (s.recordDetail r.offset st)
  | none => (s.ringRecord r.offset r.add r.value r.engine r.ctx r.figIdx).2.wakeBell 0 (.virt r.offset)

/-- A remote ring whose data is all committed is applied, or waits for a Clearing (R147). -/
def State.ringArrived (s : State) (r : HeldRing) : State :=
  match s.clearingFor r.offset with
  | some c => { s with rings := s.rings ++ [{ r with clearing := some c }] }
  | none => s.applyRemote r

/-- A chunk that a ring of engine `eng` and context `ctx` for engine `home` may be behind: that engine formed it for the same one, and it is no
chunk of another context's MOVE flow. DEDUCED (entry 15): no field of the ring names the group flow in which it travels. -/
def ChunkName.ahead (n : ChunkName) (eng ctx home : Nat) : Bool :=
  n.formedBy == eng && n.dest == home && (!n.isMove || n.flow == ctx)

/-- The chunks that a ring arriving on port `p` is behind: those that are coming on its port, those that this engine forwards and has not sent
whole, and those that are to come again (R188). -/
def State.chunksAhead (s : State) (p eng ctx home : Nat) : List ChunkName :=
  ((((s.lanes.filter (fun l => l.port == p)).map Lane.name) ++ ((s.outs.filter (fun o => o.owner.isNone && !o.sealed)).map OutChunk.name) ++
    s.owed).filter (fun n => n.ahead eng ctx home)).eraseDups

/-- The ring that a flit carries: it is behind its marks (R225), and behind the chunks that came before it (R188). -/
def State.ringOf (s : State) (p : Nat) (f : List Byte) (onward : Bool) : HeldRing :=
  { port := p, engine := le f 1 1, ctx := le f 2 1, add := le f 3 1 == 1, figIdx := le f 4 3, tenant := BitVec.ofNat 8 (le f 7 1),
    value := BitVec.ofNat 64 (le f 8 8), offset := le f 16 4 * 32, marks := ringMarks f,
    behind := s.chunksAhead p (le f 1 1) (le f 2 1) (le f 20 1), onward := if onward then some f else none }

/-- The last chunk that this engine forwards ahead of a ring and has sent: the ring follows it on its port and in its flow (R188). -/
def State.chunkBefore (s : State) (r : HeldRing) (home : Nat) : Option (Nat × Nat) :=
  ((s.outs.filter (fun o => o.owner.isNone && o.sealed && o.name.ahead r.engine r.ctx home)).getLast?).bind
    (fun o => o.port.map (fun q => (q, flowKey o.isMove o.flow o.formedBy)))

/-- A transit or spine engine passes a ring on behind what came before it, or holds it until that has left (R22, R188). -/
def State.relayRing (s : State) (p : Nat) (f : List Byte) : State :=
  let home := le f 20 1
  let r := s.ringOf p f true
  if !r.behind.isEmpty then { s with rings := s.rings ++ [r] }
  else match s.chunkBefore r home with
    | some (q, flow) => s.queueFlow q flow 3 f
    | none => match s.lowestUp (s.forwardPorts true 0 home) with
      | some q => s.queue q 0 3 f
      | none => s.countPort p (fun k => { k with unroutable := satInc k.unroutable })

/-- REMOTE_BELL_RING: at its home a ring is held behind its marked data, or applied; elsewhere it is passed on (R22,
R188). -/
def execRemoteBellRing (port : Fin 36) (flit : List Byte) (s : State) : Out := s.fabricIn port.val (.remoteBellRing port flit) fun s =>
  let p := port.val
  if !s.portUp p then .next s
  else
    let s := s.returnCredits p 0 1
    if !ctlOk 0x02 flit then .next (s.badControl p)
    else if !s.isReady then .next (s.countPort p (fun k => { k with preReadyDrops := satInc k.preReadyDrops }))
    else if (s.port p).state != .up then .next s
    else if le flit 20 1 ≠ s.engineId then .next (s.relayRing p flit)
    else
      let r := s.ringOf p flit false
      if s.marksMet r then .next (s.ringArrived r) else .next { s with rings := s.rings ++ [r] }

/-- REMOTE_RING_MARKS_MET: the held ring at place `n` is applied once every marked unit has committed, or discarded if data
ahead of it was lost (R189, R225). -/
def execRemoteRingMarksMet (n : Nat) (s : State) : Out :=
  match s.rings[n]? with
  | none => .next s
  | some r =>
    if r.lost then .next { s with rings := s.rings.eraseIdx n }
    else if r.clearing.isSome || r.onward.isSome || !s.marksMet r then .next s
    else .next (({ s with rings := s.rings.eraseIdx n } : State).ringArrived r)

end Sys2Proof.Machine
end

