-- ==== Sys2Proof/Machine/Barriers.lean ====
section
/-! DEFINITION. BARRIER, WAIT_COUNT and peer aborts (R161, R191-R199, R321, R322, R370). -/

namespace Sys2Proof.Machine

/-! ## What a collective or BARRIER meets at issue -/

/-- The first port of an entry's listed routes that is not Up, as the detail of 0x30 names it (R387). -/
def State.routeDown (s : State) (e : List Byte) : Option (Nat × Nat) :=
  ((gePortsAll e).find? (fun p => (s.port p).state != .up)).map (fun p => (0x30, s.engineId * 256 + p))

/-- The abort kept for a collective or BARRIER that issues: R370 names its group, and its epoch or sequence number; its generation does not
count (R217: engines at different generations end each other's Figures so). -/
def State.keptFor (s : State) (g key : Nat) (barrier : Bool) : Option KeptAbort :=
  (s.grp g).kept.find? (fun k => k.key == key && k.barrier == barrier)

/-- Its status and detail, once it has issued: the kept abort is used up. -/
def State.takeKept (s : State) (g : Nat) (k : KeptAbort) : State := s.modGrp g (fun x => { x with kept := x.kept.filter (fun y => y != k) })

/-- A Figure of this group and key issues afresh: an abort of an earlier one with the same key is no repeat of this one's. -/
def State.forgetSeen (s : State) (g key : Nat) (barrier : Bool) : State :=
  s.modGrp g (fun x => { x with seen := x.seen.filter (fun k => !(k.key == key && k.barrier == barrier)) })

/-- The context has used the group since START (R35). -/
def State.useGroup (s : State) (c g : Nat) : State := s.modCtx c (fun x => { x with groups := insertNat g x.groups })

/-! ## Flights that wait in a barrier -/

/-- The BARRIER in flight on a group, of any context: context and flight. -/
def State.barrierOn (s : State) (g : Nat) : Option (Nat × Flight) :=
  s.ctxs.findSome? (fun (c, x) => (x.flights.find? (fun f => f.done.isNone &&
    (match f.kind with | .barrier h _ _ _ _ _ => h == g | _ => false))).map (fun f => (c, f)))

/-- The release target of a BARRIER's flight is set (R192, R197). -/
def Flight.setTarget (f : Flight) (t : Word64) : Flight :=
  match f.kind with
  | .barrier g n q o none w => { f with kind := .barrier g n q o (some t) w }
  | _ => f

/-- The BARRIER of a context that waits: its flight and target. -/
def Context.barrierWait (x : Context) : Option (Flight × Nat × Option Word64 × Bool) :=
  x.flights.findSome? (fun f => if f.done.isSome then none else match f.kind with
    | .barrier _ _ _ o t w => some (f, o, t, w)
    | _ => none)

/-- A release with target `t` reaches this engine (R192, R193): the BARRIER of that sequence number takes the target, or
completes at once if the count has passed it. -/
def State.takeRelease (s : State) (g gen seq : Nat) (t : Word64) : State :=
  match s.barrierOn g with
  | some (c, f) => (match f.kind with
    | .barrier _ n q _ none false =>
      if n ≠ gen ∨ q.toNat ≠ seq then s
      else if t.toNat < s.hall.toNat then
        (({ s with hearth := { s.hearth with lateRelease := satInc s.hearth.lateRelease } } : State).endFlight c f.fid doneOk).settle c
      else s.modFlight c f.fid (fun f => f.setTarget t)
    | _ => s)
  | none => s

/-- The edge toward the Tree A parent, and those toward the Tree A children. -/
def State.toParent (s : State) (e : List Byte) (type : Nat) (l : List (Nat × Nat × Nat)) : State := s.sendEdge (gePorts e false 0) type l
/-- A flit to every Tree A child. -/
def State.toChildren (s : State) (e : List Byte) (type : Nat) (l : List (Nat × Nat × Nat)) : State :=
  overList (fun s i => s.sendEdge (gePorts e false (i + 1)) type l) (List.range (geChildren e false)) s

/-- The release of a group goes down Tree A, and this engine takes it (R192). -/
def State.release (s : State) (g seq root : Nat) (e : List Byte) (t : Word64) : State :=
  (s.toChildren e 0x11 [(2, 2, g), (4, 2, geGen e), (6, 4, seq), (10, 8, t.toNat), (18, 1, root)]).takeRelease g (geGen e) seq t

/-- The root fails a barrier because of the arrival of engine `eng` with sequence `seq` (R194). -/
def State.failBarrier (s : State) (g seq eng : Nat) (e : List Byte) : State :=
  let x := s.grp g
  let abort (s : State) (key : Nat) : State :=
    let k : KeptAbort := ⟨geGen e, key, eng, true, 0x33⟩
    (s.modGrp g (fun y => { y with seen := y.seen ++ [k] })).floodAbort g e k none
  let s := s.record { event := 0x0305, severity := 2, unitClass := 0x0D, unitIndex := eng }
  let s := (abort (abort s x.rootSeq.toNat) seq).modGrp g (fun y => { y with rootSeq := y.rootSeq + 1, arrived := [] })
  match s.barrierOn g with
  | some (c, f) => (s.endFlight c f.fid { status := 0x33, detail := BitVec.ofNat 32 eng }).settle c
  | none => s

/-- The root counts an arrival; the last one releases the group (R191, R192, R194). -/
def State.countArrival (s : State) (g seq eng : Nat) (e : List Byte) : State :=
  let x := s.grp g
  if x.rootSeq.toNat ≠ seq then s.failBarrier g seq eng e
  else
    let arrived := insertNat eng x.arrived
    if arrived.length < geEngines e then s.modGrp g (fun y => { y with arrived := arrived })
    else (s.modGrp g (fun y => { y with rootSeq := y.rootSeq + 1, arrived := [] })).release g seq s.engineId e (s.hall + BitVec.ofNat 64 (geLead e))

/-! ## BARRIER -/

/-- The BARRIER checks behind those of R114: another context's BARRIER on the group (R195), the wire's settings (R197), a
listed port that is not Up (R387). -/
def State.barrierCheck (s : State) (g : Nat) (e : List Byte) : Option (Nat × Nat) :=
  firstSome [
    if (s.barrierOn g).isSome then some (0x14, g) else none,
    if geWire e && !(s.syncUse 1 && s.syncUse 2) then some (0x14, g) else none,
    s.routeDown e]

/-- BARRIER (R191, R195, R197): it issues and sends its arrival toward the Tree A root, or raises SYNC_OUT. -/
def execBarrier (ctx : Fin 256) (s : State) : Out :=
  let c := ctx.val
  match s.nextOp c 0x32 with
  | none => .next s
  | some (i, f) => match s.issueCheck c i f with
    | some r => .next (s.issueFail c i f r)
    | none =>
      let g := figGroup f
      match s.entryFor c g with
      | none => .next (s.issueFail c i f (0x14, g))
      | some e => match s.barrierCheck g e with
        | some r => .next (s.issueFail c i f r)
        | none =>
          let q := (s.grp g).barrierSeq
          let s := s.useGroup c g
          let s := s.modGrp g (fun x => { x with barrierSeq := x.barrierSeq + 1 })
          match s.keptFor g q.toNat true with
          | some k => .next ((s.takeKept g k).issueFail c i f (0x33, k.engine))
          | none =>
            let s := (s.forgetSeen g q.toNat true).issue c i f (.barrier g (geGen e) q (le f 2 4) none (geWire e)) none
            if geWire e then .next (({ s with hearth := { s.hearth with syncOut := .high } } : State).settle c)
            else if geRoot e false = s.engineId then .next ((s.countArrival g q.toNat s.engineId e).settle c)
            else .next ((s.toParent e 0x10 [(2, 2, g), (4, 2, geGen e), (6, 4, q.toNat), (10, 8, s.hall.toNat), (18, 1, s.engineId)]).settle c)

/-- BARRIER_TARGET_REACHED: the hall count reaches the release target, and the BARRIER completes (R192). -/
def execBarrierTargetReached (ctx : Fin 256) (s : State) : Out :=
  let c := ctx.val
  match (s.ctx c).barrierWait with
  | some (f, _, some t, false) => .next (((s.reach t).endFlight c f.fid doneOk).settle c)
  | _ => .next s

/-- BARRIER_TIMEOUT: the timeout runs out before the release arrives; the BARRIER completes with 0x41 and its peers are told
(R196). -/
def execBarrierTimeout (ctx : Fin 256) (s : State) : Out :=
  let c := ctx.val
  match (s.ctx c).barrierWait with
  | some (f, o, none, _) =>
    if o = 0 then .next s
    else .next (((s.reach (f.issuedAt + BitVec.ofNat 64 (1000 * o))).failFlight c f.fid { status := 0x41 }).settle c)
  | _ => .next s

/-- A control flit of VC1 arrives: its credit returns, and a malformed one, or one that the port may not act on, ends
there. -/
def State.ctlIn (s : State) (p vc type : Nat) (f : List Byte) : State × Bool :=
  if !s.portUp p then (s, false)
  else
    let s := s.returnCredits p vc 1
    if !ctlOk type f then (s.badControl p, false) else (s, true)

/-- A control flit of a group that an engine with a transit-only entry receives over the backplane goes on up its plane (R210, R386). From another
port it is no traffic that such an engine forwards. -/
def State.relayUp (s : State) (p : Nat) (e : List Byte) (type : Nat) (f : List Byte) : State :=
  if p < 28 then s.sendEdge (geTransit e) type [(2, 62, le f 2 62)] else s

/-- BARRIER_ARRIVAL: the root counts it; another node of the tree passes it on toward the root, and a transit-only engine up its plane (R191-R194,
R210, R217). DESIGN CHOICE (entry 40): the flit names no destination engine, so at an engine that holds no entry for the group it ends without
effect, and at a node of the tree it is taken as that node's own. -/
def execBarrierArrival (port : Fin 36) (flit : List Byte) (s : State) : Out := s.fabricIn port.val (.barrierArrival port flit) fun s =>
  let r := s.ctlIn port.val 1 0x10 flit
  let s := r.1
  let g := le flit 2 2
  if !r.2 || !s.isReady then .next s
  else match (s.grp g).entry with
    | none => .next s
    | some e =>
      if geGen e ≠ le flit 4 2 then .next (s.wrongGen g)
      else if geTransitOnly e then .next (s.relayUp port.val e 0x10 flit)
      else if geRoot e false = s.engineId then .next (s.countArrival g (le flit 6 4) (le flit 18 1) e)
      else .next (s.toParent e 0x10 [(2, 2, g), (4, 2, geGen e), (6, 4, le flit 6 4), (10, 8, le flit 10 8), (18, 1, le flit 18 1)])

/-- BARRIER_RELEASE: it goes on down Tree A, and sets the target, or completes a BARRIER whose target has passed (R192, R193); a
transit-only engine passes it on up its plane (R210). DESIGN CHOICE (entry 40): without an entry it ends without effect. -/
def execBarrierRelease (port : Fin 36) (flit : List Byte) (s : State) : Out := s.fabricIn port.val (.barrierRelease port flit) fun s =>
  let r := s.ctlIn port.val 1 0x11 flit
  let s := r.1
  let g := le flit 2 2
  if !r.2 || !s.isReady then .next s
  else match (s.grp g).entry with
    | none => .next s
    | some e =>
      if geGen e ≠ le flit 4 2 then .next s
      else if geTransitOnly e then .next (s.relayUp port.val e 0x11 flit)
      else .next (s.release g (le flit 6 4) (le flit 18 1) e (BitVec.ofNat 64 (le flit 10 8)))

/-! ## Peer aborts (R161, R370) -/

/-- The flight that an abort names, by group and epoch or sequence number; engines at another generation end it too (R217, R370). -/
def State.abortNames (s : State) (g : Nat) (k : KeptAbort) : Option (Nat × Nat) :=
  s.ctxs.findSome? (fun (c, x) => (x.flights.find? (fun f => f.done.isNone && (match f.kind with
    | .barrier h _ q _ _ _ => k.barrier && h == g && q.toNat == k.key
    | .coll a => !k.barrier && a.group == g && a.epoch == k.key
    | _ => false))).map (fun f => (c, f.fid)))

/-- PEER_ABORT: the Figure it names completes with 0x33, or the abort is kept for it; it goes on once over the other edges of
both trees, and once up the plane of a transit-only engine (R161, R210, R370). DESIGN CHOICE (entry 40): without an entry it ends without effect. -/
def execPeerAbort (port : Fin 36) (flit : List Byte) (s : State) : Out := s.fabricIn port.val (.peerAbort port flit) fun s =>
  let r := s.ctlIn port.val 1 0x12 flit
  let s := r.1
  let g := le flit 2 2
  let k : KeptAbort := ⟨le flit 4 2, le flit 6 4, le flit 10 1, bit (le flit 11 1) 0, le flit 12 1⟩
  if !r.2 || !s.isReady then .next s
  else match (s.grp g).entry with
    | none => .next s
    | some e =>
      if (s.grp g).seen.contains k then .next s
      else
        let s := s.modGrp g (fun x => ({ x with seen := x.seen ++ [k] }).dropCount k.barrier k.key)
        let s := if geTransitOnly e then s.relayUp port.val e 0x12 flit else s.floodAbort g e k (some port.val)
        match s.abortNames g k with
        | some (c, fid) => .next ((s.endFlight c fid { status := 0x33, detail := BitVec.ofNat 32 k.engine }).settle c)
        | none =>
          -- A BARRIER of an earlier sequence number, or a collective of an epoch that has issued under this entry, is over here (entry 39).
          if (if k.barrier then decide (k.key < (s.grp g).barrierSeq.toNat) else (s.grp g).issued.contains k.key) then .next s
          else .next (s.modGrp g (fun x => { x with kept := x.kept ++ [k] }))

/-! ## WAIT_COUNT -/

/-- A WAIT_COUNT completes on an engine that is not Synced: it is counted (R322, R324). -/
def State.countStart (s : State) (c : Nat) : State :=
  if s.sync.status == .synced then s
  else s.modCtx c (fun x => { x with unsynced := satInc x.unsynced, timingDist := satInc x.timingDist })

/-- WAIT_COUNT (R112, R198): it waits for the hall count to reach its target, or completes at once with 0x01 if it has. -/
def execWaitCount (ctx : Fin 256) (s : State) : Out :=
  let c := ctx.val
  match s.nextOp c 0x33 with
  | none => .next s
  | some (i, f) => match s.issueCheck c i f with
    | some r => .next (s.issueFail c i f r)
    | none =>
      let t := le f 0 8
      if t ≤ s.now then
        .next (((s.issue c i f (.waitCount (BitVec.ofNat 64 t)) (some { status := 0x01, detail := BitVec.ofNat 32 (s.now - t) })).countStart c).settle c)
      else .next ((s.issue c i f (.waitCount (BitVec.ofNat 64 t)) none).settle c)

/-- The WAIT_COUNT of a context that waits: its flight and target. -/
def Context.countWait (x : Context) : Option (Nat × Word64) :=
  x.flights.findSome? (fun f => if f.done.isSome then none else match f.kind with | .waitCount t => some (f.fid, t) | _ => none)

/-- WAIT_COUNT_TARGET: the hall count reaches the target, and the WAIT_COUNT completes (R198, R321, R322). -/
def execWaitCountTarget (ctx : Fin 256) (s : State) : Out :=
  let c := ctx.val
  match (s.ctx c).countWait with
  | some (fid, t) => .next (((((s.reach t).wake).endFlight c fid doneOk).countStart c).settle c)
  | none => .next s

end Sys2Proof.Machine
end

