-- ==== Sys2Proof/Machine/Moves.lean ====
section
/-! DEFINITION. MOVE (R103-R105, R119, R160, R224, R282, R387) and the staging that a remote MOVE or a collective waits for
(R282). -/

namespace Sys2Proof.Machine

/-! ## Staging (R282) -/

/-- The staging that is free outside the Bell area. -/
def State.stagingFree (s : State) : Nat := s.stagingUsable - s.cellar.reserved

/-- Bytes in units of 64 KiB, rounded up: the detail of 0x25 (R134). -/
def units64K (n : Nat) : Nat := ceilDiv n 0x10000

/-- Staging is taken; its cell groups are accessed. -/
def State.takeStaging (s : State) (n : Nat) : State :=
  let s := overList (fun s e => s.touch (e * 0x200000) 1) s.cellar.staging s
  { s with cellar := { s.cellar with reserved := s.cellar.reserved + n } }

/-- A flight joins the queue for staging, and its context counts the wait (R282). -/
def State.waitStaging (s : State) (c fid : Nat) : State :=
  ({ s with cellar := { s.cellar with waitingStaging := s.cellar.waitingStaging ++ [(c, fid)] } } : State).modCtx c
    (fun x => { x with stagingWaits := satInc x.stagingWaits })

/-- The earliest waiting flight is the only one that may take staging; a new one waits behind it (R282). -/
def State.stagingFits (s : State) (n : Nat) : Bool := s.cellar.waitingStaging.isEmpty && n ≤ s.stagingFree

/-! ## A MOVE in flight -/

/-- A MOVE in flight and not finished. -/
def State.moveAt (s : State) (c fid : Nat) : Option MoveFlight :=
  match (s.ctx c).flight fid with
  | some f => if f.done.isSome then none else match f.kind with | .move m => some m | _ => none
  | none => none

/-- The operation fields of a record about a flight of context `c` that meets a status (R421). -/
def State.flightOp (s : State) (c fid status : Nat) : Option RecOp := ((s.ctx c).flight fid).map (fun f => s.recOp c f status)

/-- A MOVE changed. -/
def State.modMove (s : State) (c fid : Nat) (g : MoveFlight → MoveFlight) : State :=
  s.modFlight c fid (fun f => match f.kind with | .move m => { f with kind := .move (g m) } | _ => f)

/-- The engines that own a MOVE's ends. -/
def MoveFlight.srcEngine (m : MoveFlight) : Nat := selEngine m.srcSel.toNat
/-- The engine of its destination. -/
def MoveFlight.dstEngine (m : MoveFlight) : Nat := selEngine m.dstSel.toNat

/-- The staging a MOVE toward another engine reserves: W held copies of 64 KiB (R282). -/
def moveReserve : Nat := 8 * 0x10000

/-- The bytes of a range of the source, once every one of them has been read. -/
def MoveFlight.range (m : MoveFlight) (lo len : Nat) : Option (List Byte) :=
  let ps := m.pieces.map (fun p => (⟨0, p.1, p.2⟩ : InPiece))
  if haveRange ps 0 lo len then some (rangeBytes ps 0 lo len) else none

/-- The chunk of 64 KiB at place `n` of a MOVE leaves for its destination engine, once its bytes are here (R225, R282). -/
def State.moveChunk (s : State) (c fid n : Nat) : State :=
  match s.moveAt c fid with
  | none => s
  | some m =>
    match m.range (0x10000 * n) (min 0x10000 (m.size - 0x10000 * n)) with
    | none => s
    | some b =>
      if m.formed.contains n then s
      else
        let r := s.takeSeq true c m.dstEngine
        let o : OutChunk :=
          { owner := some (c, fid), flow := c, isMove := true, suite := (s.suiteOfCtx c).getD 16, gen := 0, mask := s.routes m.dstEngine,
            ordered := (s.ctx c).asg.ordered, dest := m.dstEngine, edge := none, chunk := n, formedBy := s.engineId, seq := r.1,
            treeB := false, down := false, epoch := 0, opcode := 0x10, dtype := 0, root := 0, size := m.size, capacity := 0, srpad := 0,
            src := 0, dst := 0, aux := noAux, moveAddr := m.dstAddr + BitVec.ofNat 64 (0x10000 * n), moveSel := m.dstSel, full := 0x10000,
            bytes := some b }
        ({ r.2 with outs := r.2.outs ++ [o] } : State).modMove c fid (fun m => { m with formed := m.formed ++ [n] })

/-- Bytes of a MOVE's source have been read: they are written here, or wait to fill a chunk for another engine. -/
def State.movePiece (s : State) (c fid off : Nat) (b : List Byte) : State :=
  match s.moveAt c fid with
  | none => s
  | some m =>
    let s := s.modMove c fid (fun m => { m with toRead := m.toRead - b.length })
    if m.dstEngine = s.engineId then s.placeMove m.dstSel.toNat (m.dstAddr.toNat + off) b c fid
    else
      let s := s.modMove c fid (fun m => { m with pieces := m.pieces ++ [(off, b)] })
      overList (fun s n => s.moveChunk c fid n) (List.range (ceilDiv m.size 0x10000)) s

/-- The data of a MOVE starts to move: its source on this engine is read. A source on another engine sends by itself. -/
def State.moveStart (s : State) (c fid : Nat) : State :=
  match s.moveAt c fid with
  | none => s
  | some m =>
    if m.srcEngine ≠ s.engineId then s
    else if selSpace m.srcSel.toNat = 1 then
      let a := m.srcAddr.toNat
      match s.coldExt a m.size with
      | some e => (s.touch a m.size).waitCells e (.readMove c fid)
      | none =>
        let r := s.figureRead a m.size (s.flightOp c fid 0x22)
        if r.1 || !s.cellarOpen a m.size then r.2.failFlight c fid { status := 0x22, detail := BitVec.ofNat 32 s.engineId }
        else r.2.movePiece c fid 0 (memBytes 0 s.cellar.mem a m.size)
    else s.readHost (s.posHost m.srcSel.toNat) m.srcAddr.toNat (m.dstAddr.toNat % 64) m.size (fun o => .move c fid o)

/-- The checks of a MOVE behind those of R114: access to its locations on this engine (R105), a route of it that is not Up
(R387), and staging it could never have (R282). -/
def State.moveCheck (s : State) (c : Nat) (m : MoveFlight) : Option (Nat × Nat) :=
  let tenant := (s.ctx c).asg.tenant.toNat
  let suite := (s.suiteOfCtx c).getD 16
  let down (e : Nat) : Option (Nat × Nat) :=
    if e = s.engineId then none
    else ((s.routes e).find? (fun p => (s.port p).state != .up)).map (fun p => (0x30, s.engineId * 256 + p))
  firstSome [
    s.locCheck suite tenant false m.srcSel.toNat m.srcAddr.toNat m.size,
    s.locCheck suite tenant true m.dstSel.toNat m.dstAddr.toNat m.size,
    down m.srcEngine, down m.dstEngine,
    if m.dstEngine ≠ s.engineId ∧ s.stagingBytes < moveReserve then some (0x25, units64K moveReserve) else none]

/-- MOVE issues: it is checked, and reads its source (R103-R105). A MOVE to another engine first takes its staging (R282). -/
def execMove (ctx : Fin 256) (s : State) : Out :=
  let c := ctx.val
  match s.nextOp c 0x10 with
  | none => .next s
  | some (i, f) => match s.issueCheck c i f with
    | some r => .next (s.issueFail c i f r)
    | none =>
      let size := le f 16 5
      let m : MoveFlight :=
        { srcSel := BitVec.ofNat 16 (le f 22 2), srcAddr := BitVec.ofNat 64 (le f 0 8), dstSel := BitVec.ofNat 16 (le f 24 2),
          dstAddr := BitVec.ofNat 64 (le f 8 8), size := size, toRead := if selEngine (le f 22 2) = s.engineId then size else 0 }
      match s.moveCheck c m with
      | some r => .next (s.issueFail c i f r)
      | none =>
        let fid := s.nextFid c
        if m.dstEngine = s.engineId then .next (((s.issue c i f (.move m) none).moveStart c fid).settle c)
        else if s.stagingFits moveReserve then
          .next ((((s.issue c i f (.move { m with reserve := moveReserve }) none).takeStaging moveReserve).moveStart c fid).settle c)
        else .next (((s.issue c i f (.move m) none).waitStaging c fid).settle c)

/-- Every write of a flight has entered its host's path (R119, R399). -/
def State.writesIn (s : State) (c fid : Nat) : Bool :=
  s.hosts.all (fun (_, x) => x.heldWrites.all (fun w => match w with | .data _ _ d g => !(d == c && g == fid) | _ => true))

/-- The statuses with which a MOVE that another engine has a part in can complete (R105, R134, R467). -/
def remoteMoveResults : List Nat := [0x00, 0x12, 0x20, 0x21, 0x22, 0x23, 0x32]

/-- The end on another engine that a failed status is about, its selector and that field's offset: where both ends are away, a free value says
which. -/
def MoveFlight.awayEnd (m : MoveFlight) (self n : Nat) : Nat × Nat :=
  if m.srcEngine ≠ self ∧ (m.dstEngine = self ∨ Config.remoteMoveSource n = true) then (m.srcSel.toNat, 22) else (m.dstSel.toNat, 24)

/-- The detail of that status (R134): the selector's offset, the target engine, the source engine, the accelerator position, or a part of the other
engine, which is a free value. -/
def MoveFlight.awayDetail (m : MoveFlight) (self n st : Nat) : Nat :=
  let e := m.awayEnd self n
  match st with
  | 0x12 => e.2
  | 0x20 => selEngine e.1
  | 0x21 => selEngine e.1
  | 0x22 => m.srcEngine
  | 0x23 => bits e.1 9 0
  | 0x32 => (Config.remoteMoveDetail n).toNat
  | _ => 0

/-- Whether every byte of a MOVE has been read, written or acknowledged (R119). -/
def State.moveOver (s : State) (c fid : Nat) (m : MoveFlight) : Bool :=
  let self := s.engineId
  m.toRead == 0 && s.writesIn c fid && !s.cellar.waiting.any (fun a => a.flight == some (c, fid)) &&
  (if m.dstEngine == self then m.srcEngine == self || m.size ≤ m.got
   else 0 < m.reserve && (m.srcEngine != self || m.formed.length == ceilDiv m.size 0x10000)) &&
  !s.outs.any (fun o => o.owner == some (c, fid))

/-- MOVE_COMPLETE: the flight at place `idx` of the context is a MOVE whose writes have been accepted, and it completes (R119).
No flit carries the check of another engine back, so a MOVE with an end there completes with a free status. -/
def execMoveComplete (ctx : Fin 256) (idx : Nat) (s : State) : Out :=
  let c := ctx.val
  match (s.ctx c).flights[idx]? with
  | none => .next s
  | some f => match s.moveAt c f.fid with
    | none => .next s
    | some m =>
      if !s.moveOver c f.fid m then .next s
      else if m.srcEngine = s.engineId ∧ m.dstEngine = s.engineId then .next ((s.endFlight c f.fid doneOk).settle c)
      else
        let d := s.draw
        let st := remoteMoveResults.getD (Config.remoteMoveStatus d.1 % remoteMoveResults.length) 0
        .next ((d.2.endFlight c f.fid { status := st, detail := BitVec.ofNat 32 (m.awayDetail s.engineId d.1 st) }).settle c)

end Sys2Proof.Machine
end

