-- ==== Sys2Proof/Machine/Collectives.lean ====
section
/-! DEFINITION. The collective Figures (chapter 08): the operand block and the count arrays at issue (R107, R108, R240, R241), the
staging reservation (R282), the reads of the send buffers, and completion with digest, drop counts, padding and laggards
(R239, R243-R245, R255-R258). -/

namespace Sys2Proof.Machine

/-! ## The operand block and the counts (R107, R108, R240, R241) -/

/-- The block of a collective that context `c` issues, or the status and detail with which it cannot be read (R108). -/
def State.readBlock (s : State) (c addr len : Nat) (res : ReadResult) : Except (Nat × Nat) (List Byte) :=
  let x := s.ctx c
  if x.cardInCellar then
    match s.cellarCheck ((s.suiteOfCtx c).getD 16) x.asg.tenant.toNat false addr len with
    | some _ => .error (0x21, s.engineId)
    | none =>
      if s.poisonIn addr len then .error (0x22, s.engineId)
      else .ok (memBytes 0 s.cellar.mem addr len)
  else match s.hostAnswer (s.posHost x.run.loc.toNat) res with
    | .ok b => if b.length = len then .ok b else .error (0x23, bits x.run.loc.toNat 9 0)
    | _ => .error (0x23, bits x.run.loc.toNat 9 0)

/-- The buffer rules' view of a collective Figure. -/
def figArgs (f : List Byte) (e : List Byte) : BlockArgs :=
  { op := figOp f, size := le f 8 5, root := bits (le f 16 2) 9 0, cap := le f 22 4, elem := elemBytes (bits (le f 15 1) 3 0),
    stream := bit (figFlags f) 2, padnan := bit (figFlags f) 4, entry := e }

/-- The local members with their counts (R240, R241): the first count array that could not be read gives 0x23 and its
accelerator. -/
def withCounts (a : BlockArgs) (self : Nat) : List LMember → List ReadResult → Except (Nat × Nat) (List LMember)
  | [], _ => .ok []
  | m :: ms, rs =>
    if a.op ≠ 0x26 then
      match withCounts a self ms rs with | .ok l => .ok (m :: l) | .error e => .error e
    else match rs with
      | .ok b :: rs =>
        if b.length = 4 * geTotal a.entry then
          match withCounts a self ms rs with
          | .ok l => .ok ({ m with counts := (List.range (geTotal a.entry)).map (fun j => le b (4 * j) 4) } :: l)
          | .error e => .error e
        else .error (0x23, self * 8 + m.pair)
      | _ => .error (0x23, self * 8 + m.pair)

/-- The count arrays as the members' accelerators answer (R240, R401). -/
def State.countAnswers (s : State) (ms : List LMember) (rs : List ReadResult) : List ReadResult :=
  (ms.zip rs).map (fun (m, r) => s.hostAnswer (s.hostIndex (2 * m.pair)) r)

/-- A member with the bytes it has to send. -/
def withLength (a : BlockArgs) (m : LMember) : LMember :=
  { m with toRead := if sends a m then (bufLens a.op a.size (geTotal a.entry) a.elem a.cap m.counts.sum).1 else 0 }

/-- The operand block and local members of a collective, every check of the operand block passed (R108, R114, R229-R235, R240, R244, R249,
R282, R387); or the first that fails. -/
def State.collMembers (s : State) (c : Nat) (f e : List Byte) (block : ReadResult) (counts : List ReadResult) :
    Except (Nat × Nat) (List Byte × List LMember) :=
  let a := figArgs f e
  let tenant := (s.ctx c).asg.tenant.toNat
  let suite := (s.suiteOfCtx c).getD 16
  match s.readBlock c (le f 0 8) (32 + 64 * geLocal e) block with
  | .error r => .error r
  | .ok b =>
    let ms0 := (List.range (geLocal e)).map (blockMember a b)
    let off := firstSome ((List.range ms0.length).zip ms0 |>.map (fun (i, m) => s.memberOff a i m))
    match firstSome [blockCheck a b s.engineId, off] with
    | some r => .error r
    | none => match withCounts a s.engineId ms0 (s.countAnswers ms0 counts) with
      | .error r => .error r
      | .ok ms =>
        match firstSome ([countCheck a ms, overlapCheck a ms] ++ ms.map (fun m => s.memberCheck a suite tenant m) ++ [s.routeDown e,
            if s.stagingBytes < stagingNeed a (bits (le f 15 1) 3 0) s.engineId then
              some (0x25, units64K (stagingNeed a (bits (le f 15 1) 3 0) s.engineId)) else none]) with
        | some r => .error r
        | none => .ok (b, ms.map (withLength a))

/-- The collective that issues. -/
def State.newColl (s : State) (c : Nat) (f e b : List Byte) (ms : List LMember) : Coll :=
  let a := figArgs f e
  let t := (byteAt f 15).toNat
  { opcode := a.op, size := a.size, group := figGroup f, gen := geGen e, entry := e, dtype := bits t 3 0, redop := bits t 5 4,
    root := a.root, seed := BitVec.ofNat 32 (le f 18 4), capacity := a.cap, epoch := (le f 26 4 + (s.ctx c).pass) % 2 ^ 32,
    stream := a.stream, sr := bit (figFlags f) 3, padnan := a.padnan, padPattern := BitVec.ofNat 32 (le b 0 4),
    ordered := (s.ctx c).asg.ordered, members := ms, reserved := false, reserve := stagingNeed a (bits t 3 0) s.engineId }

/-! ## Reading the send buffers -/

/-- Bytes of a member's send buffer have been read (R256). -/
def State.collPiece (s : State) (c fid mi off : Nat) (b : List Byte) : State :=
  (s.modColl c fid (fun k =>
    let order := (k.members.filter (fun m => m.readyAt.isSome)).length
    let ms := ((List.range k.members.length).zip k.members).map (fun (i, m) =>
      if i ≠ mi then m
      else if m.toRead ≤ b.length then { m with toRead := 0, readyAt := some s.hall, readyNo := order }
      else { m with toRead := m.toRead - b.length })
    { k with pieces := k.pieces ++ [⟨mi, off, b⟩], members := ms })).progress c fid

/-- A member's send buffer is read: from this engine's Cellar, behind the wake of its cell groups, or from its accelerator (R232, R330). -/
def State.readMember (s : State) (c fid mi : Nat) (m : LMember) : State :=
  match s.collAt c fid with
  | none => s
  | some k =>
    if !sends k.args m then s
    else if m.toRead = 0 then s.collPiece c fid mi 0 []
    else if selSpace m.sendSel.toNat = 1 then
      let a := m.sendAddr.toNat
      match s.coldExt a m.toRead with
      | some e => (s.touch a m.toRead).waitCells e (.readColl c fid mi)
      | none =>
        let r := s.figureRead a m.toRead (s.flightOp c fid 0x22)
        if r.1 || !s.cellarOpen a m.toRead then r.2.failFlight c fid { status := 0x22, detail := BitVec.ofNat 32 s.engineId }
        else r.2.collPiece c fid mi 0 (memBytes 0 s.cellar.mem a m.toRead)
    else s.readHost (s.posHost m.sendSel.toNat) m.sendAddr.toNat 0 m.toRead (fun o => .coll c fid mi o)

/-- A chunk that came before the Figure: it is the Figure's own from now on, and judged if its seal came (R367); one that has another epoch
and waits with its seal may clash with the Figure (R228). -/
def State.adopt (s : State) (c fid : Nat) (l : Lane) : State :=
  match s.collAt c fid with
  | none => s
  | some k =>
    if l.gen == k.gen && expects k s.engineId l.down l.epoch l.chunk l.formedBy l.src l.dst then
      let s := s.takeLane c fid l
      match l.sealed, s.laneAt l.port l.flow l.isMove l.chunk l.formedBy l.seq with
      | some (f, aux), some x => s.judgeLane x f aux
      | _, _ => s
    else match l.sealed with
      | some (f, aux) => s.keepSealed l f aux
      | none => s

/-- The chunks of the group that no Figure of this engine has taken yet meet a Figure that starts (R367). -/
def State.adoptLanes (s : State) (c fid : Nat) : State :=
  match s.collAt c fid with
  | none => s
  | some k =>
    overList (fun s l => s.adopt c fid l) (s.lanes.filter (fun l => l.owner.isNone && !l.isMove && l.dest == s.engineId && l.flow == k.group)) s

/-- A collective that holds its staging starts: early chunks are taken in and its members are read (R236, R282). -/
def State.collStart (s : State) (c fid : Nat) : State :=
  match s.collAt c fid with
  | none => s
  | some k =>
    let s := (s.modColl c fid (fun k => { k with reserved := true })).takeStaging k.reserve
    overList (fun s (i, m) => s.readMember c fid i m) ((List.range k.members.length).zip k.members) (s.adoptLanes c fid)

/-- The times of the operand block's read, and of the count arrays' where these were read too (R240, R324). -/
def State.blockTimes (s : State) (c op : Nat) (ms : List LMember) (block : ReadResult) (counts : List ReadResult) : State :=
  let x := s.ctx c
  let s := if x.cardInCellar then s else s.directRead c (s.posHost x.run.loc.toNat) block
  if op ≠ 0x26 then s
  else overList (fun s (m, r) => s.directRead c (s.hostIndex (2 * m.pair)) r) (ms.zip counts) s

/-! ## Issue -/

/-- A collective of opcode `op` issues, or fails its checks (R114, R228-R236, R282, R370). -/
def State.collIssue (s : State) (c op : Nat) (block : ReadResult) (counts : List ReadResult) : State :=
  match s.nextOp c op with
  | none => s
  | some (i, f) => match s.issueCheck c i f with
    | some r => s.issueFail c i f r
    | none => match s.entryFor c (figGroup f) with
      | none => s.issueFail c i f (0x14, figGroup f)
      | some e => match s.collMembers c f e block counts with
        | .error r =>
          let s := if r.1 = 0x22 && (s.ctx c).cardInCellar then
              s.poisonRecord (le f 0 8) (32 + 64 * geLocal e) (some ⟨op, 0x22, c, (s.ctx c).asg.tenant.toNat, i⟩)
            else s
          (s.blockTimes c 0 [] block []).issueFail c i f r
        | .ok (b, ms) =>
          let k := s.newColl c f e b ms
          let s := s.blockTimes c op ms block counts
          let g := figGroup f
          let s := (s.useGroup c g).modGrp g (fun x => { x with issued := insertNat k.epoch x.issued })
          match s.keptFor g k.epoch false with
          | some a => (s.takeKept g a).issueFail c i f (0x33, a.engine)
          | none =>
            let fid := s.nextFid c
            let fits := s.stagingFits k.reserve
            let s := (s.forgetSeen g k.epoch false).issue c i f (.coll k) none
            (if fits then s.collStart c fid else s.waitStaging c fid).settle c

/-- ALLREDUCE (R222, R229, R230, R238). -/
def execAllreduce (ctx : Fin 256) (block : ReadResult) (s : State) : Out := .next (s.collIssue ctx.val 0x20 block [])
/-- REDUCE_SCATTER (R222, R229, R230, R238). -/
def execReduceScatter (ctx : Fin 256) (block : ReadResult) (s : State) : Out := .next (s.collIssue ctx.val 0x21 block [])
/-- ALLGATHER (R229, R230, R238). -/
def execAllgather (ctx : Fin 256) (block : ReadResult) (s : State) : Out := .next (s.collIssue ctx.val 0x22 block [])
/-- BROADCAST (R229, R230, R233, R238). -/
def execBroadcast (ctx : Fin 256) (block : ReadResult) (s : State) : Out := .next (s.collIssue ctx.val 0x23 block [])
/-- REDUCE (R222, R229, R230, R233, R238). -/
def execReduce (ctx : Fin 256) (block : ReadResult) (s : State) : Out := .next (s.collIssue ctx.val 0x24 block [])
/-- ALLTOALL (R229, R230, R238). -/
def execAlltoall (ctx : Fin 256) (block : ReadResult) (s : State) : Out := .next (s.collIssue ctx.val 0x25 block [])
/-- ALLTOALLV, with its count arrays read in member order (R240-R245). -/
def execAlltoallv (ctx : Fin 256) (block : ReadResult) (counts : List ReadResult) (s : State) : Out :=
  .next (s.collIssue ctx.val 0x26 block counts)

/-- The staging that the flight at the head of the queue waits for (R282). -/
def State.stagingWanted (s : State) : Option (Nat × Nat × Nat) :=
  match s.cellar.waitingStaging with
  | [] => none
  | (c, fid) :: _ => match s.collAt c fid with
    | some k => some (c, fid, k.reserve)
    | none => match s.moveAt c fid with
      | some _ => some (c, fid, moveReserve)
      | none => none

/-- STAGING_RESERVATION_GRANTED: staging has come free, and the earliest waiting collective, or MOVE, takes its reservation once
it fits (R282). -/
def execStagingReservationGranted (s : State) : Out :=
  match s.stagingWanted with
  | none => .next s
  | some (c, fid, n) =>
    if s.stagingFree < n then .next s
    else
      let s := { s with cellar := { s.cellar with waitingStaging := s.cellar.waitingStaging.drop 1 } }
      if (s.collAt c fid).isSome then .next ((s.collStart c fid).settle c)
      else .next ((((s.modMove c fid (fun m => { m with reserve := moveReserve })).takeStaging moveReserve).moveStart c fid).settle c)

/-! ## Completion (R239, R243-R245, R255-R258) -/

/-- The chunks of a body of `len` bytes. -/
def Coll.chunkNos (k : Coll) (len : Nat) : List Nat := List.range (k.chunksOf len)

/-- Chunk `n` of a REDUCE_SCATTER or REDUCE comes to this engine in its final form: it is a root's, or it overlaps a member's
block here, or lies on the way to those below (R238). -/
def Coll.wants (k : Coll) (self n : Nat) : Bool :=
  let b := onTreeB n
  geRoot k.entry b == self ||
  (if k.opcode = 0x21 then
     k.members.any (fun m => (k.place m 0 0 n (k.chunkLen k.size n)).isSome) ||
     (List.range (geChildren k.entry b)).any (fun i => Config.subtreeNeeds k.group b i n)
   else
     k.members.any (fun m => m.id == k.root) ||
     (List.range (geChildren k.entry b)).any (fun i => Config.treeNext k.group b k.root == i + 1))

/-- Every chunk that this engine forms or receives is here in its final form. Of an ALLTOALLV only the source's engine knows
how long a block is (R242): the digest that comes down Tree A says that it has all arrived. -/
def Coll.arrived (k : Coll) (self : Nat) : Bool :=
  let all (src dst len : Nat) : Bool := (k.chunkNos len).all (fun n => k.hasFinal src dst n)
  match k.opcode with
  | 0x20 => all 0 0 k.size
  | 0x21 => (k.chunkNos k.size).all (fun n => !k.wants self n || k.hasFinal 0 0 n)
  | 0x24 => (k.chunkNos k.size).all (fun n => !k.wants self n || k.hasFinal 0 0 n)
  | 0x22 => (List.range k.total).all (fun j => all j 0 k.size)
  | 0x23 => all 0 0 k.size
  | 0x25 => k.members.all (fun m => (List.range k.total).all (fun j => all j m.id k.size))
  | _ => true

/-- This engine has formed every chunk that it is to form (R222, R238). -/
def Coll.allFormed (k : Coll) : Bool :=
  if isReducing k.opcode then (k.chunkNos k.size).all (fun n => k.done1.contains (1, 0, n))
  else k.members.all (fun m => !sends k.args m || (k.bodiesOf m).all (fun b =>
    (k.chunkNos ((k.bodyLen b.1 b.2).getD 0)).all (fun n => k.done1.contains (b.1, b.2, n))))

/-- H and length of the chunks of a body in order (R275). -/
def Coll.bodyH (k : Coll) (src dst : Nat) (a : Nat × Nat) : Nat × Nat :=
  (sortBy (fun f => f.chunk) (k.finals.filter (fun f => f.src == src && f.dst == dst))).foldl
    (fun (h, n) f => (digCat h f.h f.bytes.length, n + f.bytes.length)) a

/-- Every chunk of a reduced vector is at this engine in its final form. -/
def Coll.holdsAll (k : Coll) : Bool := (k.chunkNos k.size).all (fun n => k.hasFinal 0 0 n)

/-- The digest of a collective all of whose bytes are at this engine (R255, R274, R275). -/
def Coll.ownDigest (k : Coll) : Option Nat :=
  let fin (p : Nat × Nat) : Nat := digD p.1 p.2
  match k.opcode with
  | 0x22 => some (fin ((List.range k.total).foldl (fun a j => k.bodyH j 0 a) (0, 0)))
  | 0x20 => some (fin (k.bodyH 0 0 (0, 0)))
  | 0x23 => some (fin (k.bodyH 0 0 (0, 0)))
  | _ =>
    if isReducing k.opcode then (if k.holdsAll then some (fin (k.bodyH 0 0 (0, 0))) else none)
    else if geEngines k.entry ≠ 1 then none
    else some (fin ((sortBy (fun m => m.id) k.members).foldl (fun a m =>
      (List.range k.total).foldl (fun a j =>
        let r := k.bodyH j m.id a
        if k.opcode = 0x25 then r
        else
          let pad := k.padBytes (k.capacity * k.elem - (r.2 - a.2))
          (digCat r.1 (digH pad) pad.length, r.2 + pad.length)) a) (0, 0)))

/-- The chunk slots of an ALLTOALLV that no chunk has filled are padded, and the drop counts written (R243, R244, R251). -/
def State.padSlots (s : State) (c fid : Nat) (k : Coll) : State :=
  let slot := k.capacity * k.elem
  let per := ceilDiv slot k.csize
  overList (fun s m =>
    let s := overList (fun s j =>
      overList (fun s n =>
        if k.hasFinal j m.id n then s
        else
          let len := min k.csize (slot - n * k.csize)
          s.writeSlot c fid k m ⟨j * per + n, j * slot + n * k.csize, 0, 0, len⟩ (k.padBytes len) false) (List.range per) s)
      (List.range k.total) s
    s.postBytes (s.posHost m.recvSel.toNat) m.dropAddr.toNat (m.counts.flatMap (fun n => toLe 4 (n - min n k.capacity))) c fid)
    k.members s

/-- Pairs with drops, and elements dropped, among this engine's members (R245). -/
def Coll.drops (k : Coll) : Nat × Nat :=
  let d := k.members.flatMap (fun m => m.counts.map (fun n => n - min n k.capacity))
  ((d.filter (fun n => n != 0)).length, d.sum)

/-- The member whose input arrived last at stage 1, and its lag (R256). -/
def Coll.laggard (k : Coll) : Option (LMember × Nat) :=
  let ready := k.members.filterMap (fun m => m.readyAt.map (fun t => (m, t.toNat)))
  match sortBy (fun p => p.1.readyNo) ready with
  | [] => none
  | p :: l => let q := l.getLastD p; some (q.1, q.2 - p.2)

/-- The bucket of a lag (R258). -/
def lagBucket (ns : Nat) : Nat :=
  if ns < 250 then 0 else if ns < 1000 then 1 else if ns < 4000 then 2 else if ns < 16000 then 3 else if ns < 64000 then 4
  else if ns < 256000 then 5 else if ns < 1000000 then 6 else 7

/-- The stage-2 laggard over all chunks of the collective, and its lag (R257): from the records that came with the chunks where every one came
here; else a free value for the group, no smaller than what came (entry 31). -/
def Coll.groupLag (k : Coll) : Option (Nat × Nat) :=
  if k.holdsAll then k.lag2
  else
    let g := Config.groupLaggard k.group k.gen k.epoch
    match k.lag2 with
    | some (e, ns) => if g.2 ≤ ns then some (e, ns) else some (g.1.toNat, g.2)
    | none => some (g.1.toNat, g.2)

/-- The laggard registers and histograms that a collective leaves (R256-R258). -/
def Context.addLags (x : Context) (k : Coll) : Context :=
  let ready := k.members.filterMap (fun m => m.readyAt.map (fun t => t.toNat))
  let t0 := ready.foldl min (ready.headD 0)
  let hist := ((List.range k.members.length).zip k.members).foldl (fun h (i, m) => match m.readyAt with
    | some t => let b := i * 8 + lagBucket (t.toNat - t0); FMap.put h b (satInc (FMap.get 0 h b))
    | none => h) x.hist
  let x := { x with hist := hist }
  let x := match k.laggard with
    | some (m, ns) => { x with lag1Member := m.id, lag1Valid := true, lag1Ns := sat32 ns }
    | none => { x with lag1Member := 0, lag1Valid := false, lag1Ns := 0 }
  match (if isReducing k.opcode then k.groupLag else none) with
  | some (e, ns) => { x with lag2Engine := e, lag2Valid := true, lag2Ns := sat32 ns }
  | none => { x with lag2Engine := 0, lag2Valid := false, lag2Ns := 0 }

/-- The completion of a collective with digest `d` (R130, R245). -/
def Coll.result (k : Coll) (d : Nat) : Done :=
  let q := k.drops
  { status := if k.opcode = 0x26 ∧ q.1 ≠ 0 then 0x02 else 0x00,
    detail := BitVec.ofNat 32 (if k.opcode = 0x26 then q.1 else 0),
    drops := if k.opcode = 0x26 then sat32 q.2 else 0,
    laggard := match k.laggard with | some (m, _) => BitVec.ofNat 16 (0x8000 + m.id) | none => 0,
    digest := BitVec.ofNat 64 d }

/-- COLLECTIVE_COMPLETE: the collective at place `idx` of the context's flights completes once everything has arrived here, every
chunk it sent is acknowledged and its writes have entered their paths (R119, R239). The digest that came down Tree A is the
command's, where this engine does not hold every byte of the exchange (R255, entry 10); a digest is a value mod p (R274). -/
def execCollectiveComplete (ctx : Fin 256) (idx : Nat) (treeDigest : Option Word64) (s : State) : Out :=
  let c := ctx.val
  match (s.ctx c).flights[idx]? with
  | none => .next s
  | some f => match s.collAt c f.fid with
    | none => .next s
    | some k =>
      match (k.ownDigest).or (treeDigest.map (fun w => w.toNat % digP)) with
      | none => .next s
      | some d =>
        if !(k.reserved && k.arrived s.engineId && k.allFormed) || s.outs.any (fun o => o.owner == some (c, f.fid)) ||
           s.lanes.any (fun l => l.owner == some (c, f.fid)) then .next s
        else
          let s := if k.opcode = 0x26 ∧ !k.padded then (s.modColl c f.fid (fun k => { k with padded := true })).padSlots c f.fid k else s
          if !s.writesIn c f.fid then .next s
          else .next (((s.modCtx c (fun x => x.addLags k)).endFlight c f.fid (k.result d)).settle c)

end Sys2Proof.Machine
end

