-- ==== Sys2Proof/Machine/Access.lean ====
section
/-! DEFINITION. How a host's access reaches BAR0 (R138, R139, R151, R398, R406, R467, R476): which pages its port decodes, what is
refused, and the doorbells that a context's state or a Suite's state drops (R147, R158). -/

namespace Sys2Proof.Machine

/-- Host block `h` is a Serving port whose host has placed its BARs (R398, R411). -/
def State.decodes (s : State) (h : Nat) : Bool := s.hostServing h && (s.host h).barsAssigned

/-- The Suite of a host (R138). -/
def State.hostSuite (s : State) (h : Nat) : Option Nat := s.suiteOfPort h
/-- The Suite whose owner page host block `h` decodes (R139). -/
def State.ownedSuite (s : State) (h : Nat) : Option Nat :=
  match s.suiteOfPort h with
  | some i => if s.ownerHost i = h && (s.suite i).state != .disabled then some i else none
  | none => none

/-- A BAR0 access that the port does not take: a read completes with Unsupported Request, a write is dropped; it is counted
(R398, R476). -/
def State.bar0Refused (s : State) (h : Nat) (read : Bool) : State :=
  s.modHost h (fun x => { x with bar0Unsupported := satInc x.bar0Unsupported, cpl := if read then .ur else x.cpl })

/-- A request that meets the port while it is drained or reset: a read completes with Completer Abort, a write is dropped; it is
counted (R467). -/
def State.bar0Reset (s : State) (h : Nat) (read : Bool) : State :=
  s.modHost h (fun x => { x with targetResets := satInc x.targetResets, cpl := if read then .ca else x.cpl })

/-- A host access to BAR0: `f` is what it does if the port decodes it. -/
def State.bar0 (s : State) (h : Nat) (read : Bool) (f : State → State) : State :=
  if (s.host h).blocked then s.bar0Reset h read
  else if s.decodes h then f s
  else s

/-- A write to the Suite owner page (R139, R467). -/
def State.ownerWrite (s : State) (h : Nat) (f : Nat → State → State) : State :=
  s.bar0 h false (fun s => match s.ownedSuite h with
    | some i => if (s.suite i).state = .resetting then s.modHost h (fun x => { x with targetResets := satInc x.targetResets }) else f i s
    | none => s.bar0Refused h false)

/-- A write to context page `c` (R151, R467). -/
def State.ctxWrite (s : State) (h c : Nat) (f : Nat → State → State) : State :=
  s.bar0 h false (fun s => match s.suiteOfCtx c, s.hostSuite h with
    | some i, some j =>
      if i ≠ j then s.bar0Refused h false
      else if (s.suite i).state = .resetting then s.modHost h (fun x => { x with targetResets := satInc x.targetResets })
      else f i s
    | _, _ => s.bar0Refused h false)

/-- A write that a state drops, counted in the Suite's DROPPED_DOORBELLS (R147, R496). -/
def State.drop (s : State) (i : Nat) : State := s.modSuite i (fun x => { x with dropped := satInc x.dropped })

/-- A write to a context page: it is dropped in Unassigned and Clearing (R147, R156, R158). -/
def State.ctxDoor (s : State) (h c : Nat) (f : Nat → State → State) : State :=
  s.ctxWrite h c (fun i s => match (s.ctx c).state with
    | .unassigned => s.drop i
    | .clearing => s.drop i
    | _ => f i s)

end Sys2Proof.Machine
end

