-- ==== Sys2Proof/Machine/Contexts.lean ====
section
/-! DEFINITION. The doorbells of a context page (R152-R166, R170, R258, R495), translation writes (R172), ASSIGN (R143-R149) and
the end of Clearing (R145, R147). -/

namespace Sys2Proof.Machine

/-! ## START (R153, R164) -/

/-- The checks of START on the Card and ring registers: the status that the breach gives (R91-R93, R103, R153, R494). -/
def State.startCheck (s : State) (i c : Nat) (r : CardRegs) : Option Nat :=
  let sel := r.loc.toNat
  let base := r.base.toNat
  let card : Option Nat :=
    if selSpace sel = 1 then
      (if selEngine sel ≠ s.engineId then some 0x12
       else s.cellarCheck i (s.ctx c).asg.tenant.toNat false base (32 * r.len))
    else if selEngine sel ≠ s.engineId || !s.posOn sel then some 0x12
    else if s.suiteOfPort (s.posHost sel) ≠ some i then some 0x20
    else if 2 ^ 64 < base + 32 * r.len then some 0x12 else none
  if selReserved sel then some 0x11
  else if 2 ≤ selSpace sel || !selExists sel then some 0x12
  else if r.len = 0 || 16777216 < r.len then some 0x12
  else if base % 32 ≠ 0 then some 0x13
  else firstSome [card, if r.ringBase.toNat % 32 ≠ 0 then some 0x13 else none,
    if r.ringSize < 4 ∨ 16 < r.ringSize then some 0x12 else none]

/-- START is refused: the context stays where it was (R153). -/
def State.refuseStart (s : State) (c st : Nat) : State :=
  s.modCtx c (fun x => { x with stopReason := .startRefused, lastStatus := st })

/-- START in Idle or Stopped: the Card runs, or waits for the end of a scan of its Caller (R153, R435). -/
def State.startNow (s : State) (i c : Nat) : State :=
  let r := (s.ctx c).regs
  if (s.suite i).state != .serving || s.svc.jobs.any (fun j => j.unitClass == 3 && j.unitIndex == c / 8) || s.svc.out.contains (3, c / 8) then s.drop i
  else match s.startCheck i c r with
    | some st => s.refuseStart c st
    | none =>
      if s.callerOut c then s.modCtx c (fun x => { x with heldStart := some r })
      else (s.putCtx c ((s.ctx c).begin r)).refresh c

/-- START (R153, R158, R164, R165). DESIGN CHOICE (entry 7): a START in Draining that breaks the checks of R153 is refused at once. -/
def execStart (host : Fin 16) (ctx : Fin 256) (s : State) : Out := s.hostIn host.val (.start host ctx) fun s =>
  let c := ctx.val
  .next (s.ctxDoor host.val c (fun i s =>
    let x := s.ctx c
    match x.state with
    | .idle => s.startNow i c
    | .stopped => s.startNow i c
    | .draining => (match s.startCheck i c x.regs with
        | some st => s.refuseStart c st
        | none => s.putCtx c { x with state := .drainRestart, queued := some x.regs })
    | _ => s.drop i))

/-! ## STOP and ABORT (R158-R166) -/

/-- A Figure in flight that waits, which STOP cancels: a BARRIER only until its release (R159). -/
def FlightKind.waits : FlightKind → Bool
  | .bellWait _ _ _ _ => true
  | .take _ _ _ => true
  | .barrier _ _ _ _ target _ => target.isNone
  | .waitCount _ => true
  | .fence => true
  | _ => false

/-- STOP's effect on a running context (R159, R161). -/
def State.stopCtx (s : State) (c : Nat) : State :=
  let s := s.putCtx c ((s.ctx c).stopIssue .stop)
  (overList (fun s f => if f.kind.waits then s.failFlight c f.fid { status := 0x40 } else s) (s.ctx c).flights s).settle c

/-- STOP (R158, R159). -/
def execStop (host : Fin 16) (ctx : Fin 256) (s : State) : Out := s.hostIn host.val (.stop host ctx) fun s =>
  let c := ctx.val
  .next (s.ctxDoor host.val c (fun i s =>
    let x := s.ctx c
    match x.state with
    | .running => s.stopCtx c
    | .waiting => s.stopCtx c
    | .drainRestart => (s.putCtx c { x with state := .draining, queued := none }).settle c
    | _ => s.drop i))

/-- ABORT (R158, R160, R161, R166). -/
def execAbort (host : Fin 16) (ctx : Fin 256) (s : State) : Out := s.hostIn host.val (.abort host ctx) fun s =>
  let c := ctx.val
  .next (s.ctxDoor host.val c (fun i s =>
    match (s.ctx c).state with
    | .idle => s.drop i
    | .stopped => s.drop i
    | _ => s.abortCtx c .abort))

/-! ## BELL, RING_HEAD, HIST_CLEAR -/

/-- BELL: an ADD to a local Bell (R170, R179); Bells 48 through 63 do not exist. -/
def execBell (host : Fin 16) (ctx : Fin 256) (value : Word32) (s : State) : Out := s.hostIn host.val (.bell host ctx value) fun s =>
  let c := ctx.val
  .next (s.ctxDoor host.val c (fun i s =>
    let id := bits value.toNat 5 0
    if 48 ≤ id then s.drop i
    else ((s.ringLocal c id true (BitVec.ofNat 64 (bits value.toNat 31 8))).2.wakeBell c (.loc id)).settle c))

/-- RING_HEAD: entries consumed are free again (R133, R495). -/
def execRingHead (host : Fin 16) (ctx : Fin 256) (value : Word32) (s : State) : Out := s.hostIn host.val (.ringHead host ctx value) fun s =>
  let c := ctx.val
  .next (s.ctxDoor host.val c (fun i s =>
    let x := s.ctx c
    let n := bits value.toNat 16 0
    if n = 0 ∨ x.ringUsed < n then s.drop i
    else (s.putCtx c { x with ringHead := BitVec.ofNat 16 ((x.ringHead.toNat + n) % 2 ^ x.run.ringSize), ringUsed := x.ringUsed - n }).settle c))

/-- HIST_CLEAR zeroes the lag histograms (R258). -/
def execHistClear (host : Fin 16) (ctx : Fin 256) (s : State) : Out := s.hostIn host.val (.histClear host ctx) fun s =>
  let c := ctx.val
  .next (s.ctxDoor host.val c (fun _ s => s.modCtx c (fun x => { x with hist := [] })))

/-! ## Translation (R171, R172) -/

/-- The fields of a translation entry; its reserved bits 15 and 63:50 are ignored and read as 0 (R8, R171). -/
def translationFields (v : Nat) : Nat := v % 2 ^ 15 + v / 2 ^ 16 % 2 ^ 34 * 2 ^ 16

/-- TRANSLATION: an entry is written in Idle or Stopped, from the owner port; in every other state the write is refused, counted and
reported in the result bit (R171, R172, R494). -/
def execTranslation (host : Fin 16) (ctx : Fin 256) (value : Word64) (s : State) : Out := s.hostIn host.val (.translation host ctx value) fun s =>
  let c := ctx.val
  .next (s.ctxWrite host.val c (fun i s =>
    let x := s.ctx c
    let v := translationFields value.toNat
    let value := BitVec.ofNat 64 v
    if s.ownerHost i ≠ host.val then s.drop i
    else if !(x.state == .idle || x.state == .stopped) || (bit v 13 && trHome v != s.engineId) then
      (s.drop i).modCtx c (fun x => { x with transRefused := true, transReg := value })
    else s.putCtx c { x with transRefused := false, transReg := value,
                             trans := if bit v 12 then FMap.put x.trans (bits v 11 0) value else FMap.del x.trans (bits v 11 0) }))

/-! ## ASSIGN (R142-R149, R486) -/

/-- The assignment that a value of ASSIGN describes. -/
def assignmentOf (v : Nat) : Assignment :=
  { tenant := BitVec.ofNat 8 (bits v 15 8), valid := bit v 16, ordered := bit v 17, host := bits v 35 32, vector := bits v 42 36 }

/-- The vector lies on a port of the Suite and is free for assignment (R407, R486). -/
def State.vectorOk (s : State) (i : Nat) (a : Assignment) : Bool :=
  a.host < 16 && s.suiteHasPort i a.host && s.hostIndex a.host == a.host && 3 ≤ a.vector &&
  (if s.bonded (a.host / 2) then a.vector < 128 && !(64 ≤ a.vector && a.vector ≤ 66) else a.vector < 64)

/-- A tenant holds a context, as it stands, or is to hold it by a latched assignment (R142, R144). -/
def Context.holds (x : Context) (t : BitVec 8) : Bool :=
  (x.asg.valid && x.asg.tenant == t && x.state != .unassigned) ||
  (match x.latched with | some a => a.valid && a.tenant == t | none => false)

/-- The contexts of Suite `i` that a tenant holds, without context `c`. -/
def State.tenantCtxs (s : State) (i : Nat) (t : BitVec 8) (c : Nat) : Nat :=
  ((s.suiteCtxs i).filter (fun d => d != c && (s.ctx d).holds t)).length

/-- The tenant's context limit that governs this assignment: the written one takes effect with it (R149). -/
def State.ctxLimit (s : State) (i t : Nat) : Nat := FMap.get 256 (s.suite i).quotaCtx t

/-- The result code of an assignment that is refused (R142, R148). -/
def State.assignCheck (s : State) (i c : Nat) (a : Assignment) : Option Nat :=
  if (s.suite i).state != .serving then some 0x6
  else if !s.suiteHasCtx i c then some 0x2
  else if (s.ctx c).live then some 0x7
  else if !s.vectorOk i a then some 0x5
  else if a.valid && (List.range 16).any (fun j => j != i && s.suiteOn j && s.tenantCtxs j a.tenant 256 != 0) then some 0x3
  else if a.valid && s.ctxLimit i a.tenant.toNat < s.tenantCtxs i a.tenant c + 1 then some 0x4
  else none

/-- ASSIGN's result (R148). -/
def State.assignResult (s : State) (i r : Nat) : State := s.modSuite i (fun x => { x with assignResult := r })

/-- The tenant's context limit takes effect at the next assignment that it governs, accepted or refused (R11, R149, R487). -/
def State.applyCtxQuota (s : State) (i t : Nat) : State :=
  s.modSuite i (fun x => { x with quotaCtxEff := FMap.put x.quotaCtxEff t (FMap.get 256 x.quotaCtx t) })

/-- An assignment that passes its checks is carried out into Clearing, or latched behind a drain, a Clearing or a Caller out of
service (R144, R436, R473). -/
def State.assignTo (s : State) (i c : Nat) (a : Assignment) : State :=
  let x := s.ctx c
  let s := (s.assignResult i 0x1).modSuite i (fun y => { y with assignCtx := c })
  match x.state with
  | .clearing => s.putCtx c { x with latched := some a }
  | .draining => (s.putCtx c { x with latched := some a }).settle c
  | .drainRestart => (s.putCtx c { x with state := .draining, queued := none, latched := some a }).settle c
  | _ =>
    if s.callerOut c then s.putCtx c { x with latched := some a }
    else s.carryOut c a

/-- ASSIGN, its high half written: checked, then carried out, latched or refused with a result code (R143-R149). -/
def execAssign (host : Fin 16) (value : Word64) (s : State) : Out := s.hostIn host.val (.assign host value) fun s =>
  .next (s.ownerWrite host.val (fun i s =>
    let v := value.toNat
    let a := assignmentOf v
    let c := bits v 7 0
    let s := s.modSuite i (fun x => { x with assignLo := BitVec.ofNat 32 v, assignHi := BitVec.ofNat 32 (bits v 42 32) })
    let s := if a.valid then s.applyCtxQuota i a.tenant.toNat else s
    match s.assignCheck i c a with
    | some r => s.assignResult i r
    | none => s.assignTo i c a))

/-- The end of a context's Clearing. -/
def State.clearingDone (s : State) (c : Nat) : State :=
  let y := (s.ctx c).cleared
  let held := s.rings.filter (fun r => r.clearing == some c)
  let s := s.putCtx c y
  let s := { s with rings := s.rings.filter (fun r => r.clearing != some c) }
  let s := overList (fun s r =>
    if y.asg.valid && y.asg.tenant == r.tenant then s.applyRemote { r with clearing := none }
    else s.ringBlocked r.engine r.ctx r.tenant.toNat r.figIdx r.offset) held s
  match y.latched with
  | some a => s.carryOut c a
  | none =>
    -- The result of the assignment that names this context is DONE (R148).
    { s with suites := s.suites.map (fun (i, u) => (i, if u.assignResult = 1 ∧ u.assignCtx = c then { u with assignResult := 0 } else u)) }

/-- CLEARING_COMPLETE: every item of R145 is at its reset value; the context is Idle or Unassigned, or clears again under a
latched assignment (R144, R145). Rings held for it are checked against the new tenant (R147). -/
def execClearingComplete (ctx : Fin 256) (s : State) : Out :=
  .next (if (s.ctx ctx.val).state == .clearing then s.clearingDone ctx.val else s)

end Sys2Proof.Machine
end

