-- ==== Sys2Proof/Machine/Groups.lean ====
section
/-! DEFINITION. Group entries (R206-R218, R488, R552): the checks of a commit, staging behind a busy group, invalidation and the
read-back window. -/

namespace Sys2Proof.Machine

/-! ## The checks of an entry (R207, R208, R210) -/

/-- A field whose bytes must be 0: its offset, where one is not (R213: the offset of the bad field). -/
def badZero (e : List Byte) (off len : Nat) : Option Nat := (firstNonzero e off len).map (fun _ => off)

/-- The first offset, lowest first, at which a listed check of the entry fails. -/
def firstBad : List (Bool × Nat) → Option Nat
  | [] => none
  | (c, o) :: l => if c then some o else firstBad l

/-- The offset at which a tree descriptor breaks its table, at an engine `self`. -/
def badTree (e : List Byte) (b : Bool) (self : Nat) : Option Nat :=
  let t := geTree b
  let root := geRoot e b == self
  let n := geChildren e b
  let mask (i : Nat) : Nat := le e (t + 8 + 5 * i) 5
  let maskBad (i : Nat) (unused : Bool) : Option Nat :=
    if unused then badZero e (t + 8 + 5 * i) 5 else if mask i / 2 ^ 36 ≠ 0 then some (t + 8 + 5 * i) else none
  firstSome [
    firstBad [(root != (geParent e b == self), t + 1), (2 < n, t + 2), (n == 0 && geChild e b 0 != 0, t + 3), (n < 2 && geChild e b 1 != 0, t + 4)],
    badZero e (t + 5) 3, maskBad 0 root, maskBad 1 (n < 1), maskBad 2 (n < 2), badZero e (t + 23) 1]

/-- The offset of the first local member entry that breaks R208; `prev` is the ID before it, plus 1. -/
def badMembers (e : List Byte) (local' total : Nat) : Nat → Nat → Nat → Option Nat
  | 0, _, _ => none
  | n + 1, i, prev =>
    let v := le e (0x100 + 4 * i) 4
    let id := bits v 9 0
    if i < local' then
      (if v / 2 ^ 13 ≠ 0 ∨ total ≤ id ∨ id < prev then some (0x100 + 4 * i) else badMembers e local' total n (i + 1) (id + 1))
    else if v ≠ 0 then some (0x100 + 4 * i) else badMembers e local' total n (i + 1) prev

/-- The offset of the first field of the window that breaks R207, R208, R210 or the tree descriptor table (R213). -/
def State.badEntry (s : State) (i g : Nat) (e : List Byte) : Option Nat :=
  let transit := geTransitOnly e
  let lead := le e 12 4
  firstSome [
    firstBad [
      (le e 0 2 != g, 0),
      (!s.tenantIn i (geTenant e), 2),
      (bits (byteAt e 3).toNat 7 2 != 0, 3),
      (geTotal e == 0 || 1024 < geTotal e, 6),
      (if transit then geLocal e != 0 else geLocal e == 0 || 64 < geLocal e, 8),
      ((byteAt e 9).toNat < 12 || 20 < (byteAt e 9).toNat, 9),
      (geEngines e == 0 || 128 < geEngines e, 10),
      (bits (byteAt e 11).toNat 7 4 != 0, 11),
      (lead != 0 && (lead < 2000 || 1000000 < lead), 12)],
    if transit then firstSome [badZero e 0x10 24, badZero e 0x28 24] else firstSome [badTree e false s.engineId, badTree e true s.engineId],
    badZero e 0x40 192,
    badMembers e (geLocal e) (geTotal e) 64 0 0]

/-- One tree edge whose routes cannot reach the engine it names (R209, R213). -/
def State.badEdge (s : State) (e : List Byte) (b : Bool) (x : Nat × Nat) : Bool :=
  let ports := gePorts e b x.2
  128 ≤ x.1 || x.1 == s.engineId || ports.isEmpty || ports.any (fun p => !s.mayTrain p || !(s.routes x.1).contains p)

/-- A route of the window cannot lead where it must (R210, R213). -/
def State.badRoute (s : State) (e : List Byte) : Bool :=
  (geTransit e).any (fun p => !s.mayTrain p) ||
  (if geTransitOnly e then (geTransit e).isEmpty
   else [false, true].any (fun b => 128 ≤ geRoot e b || (geEdges e b s.engineId).any (s.badEdge e b)))

/-! ## Busy groups, and entries taking effect (R214-R216) -/

/-- The group is busy here: a collective or BARRIER on it in flight, or a chunk of it held or tentative (R214). -/
def State.groupBusy (s : State) (g : Nat) : Bool :=
  s.ctxs.any (fun x => x.2.flights.any (fun f => f.kind.group == some g)) ||
  s.outs.any (fun o => !o.isMove && o.flow == g) || s.lanes.any (fun l => !l.isMove && l.flow == g)

/-- The group's entry is replaced or removed: its barrier sequence, flow and kept aborts start afresh (R191, R216, R225, R370). -/
def State.setEntry (s : State) (g : Nat) (e : Option (List Byte)) : State :=
  { s.putGrp g { entry := e } with
    commits := s.commits.filter (fun r => r.move || r.flow != g),
    confirmed := s.confirmed.filter (fun r => r.isMove || r.flow != g) }

/-- What a staged commit or invalidation makes of the group. -/
def State.applyStaged (s : State) (g : Nat) : Staged → State
  | .commit e => s.setEntry g (some e)
  | .invalidate => s.setEntry g none

/-- An entry that counts against a tenant's limit: in effect or staged (R216). -/
def Group.countsFor (x : Group) (t : Nat) : Bool :=
  (match x.entry with | some e => geTenant e == t | none => false) ||
  (match x.staged with | some (.commit e) => geTenant e == t | _ => false)

/-- The entries of tenant `t` in Suite `i`, without group `g` (R149, R150, R216). -/
def State.tenantGroups (s : State) (i t g : Nat) : Nat :=
  (s.groups.filter (fun x => x.1 / 256 == i && x.1 != g && x.2.countsFor t)).length

/-- The result of a command of GROUP_CMD (R213, R488). -/
def State.groupResult (s : State) (i g r off : Nat) : State :=
  s.modSuite i (fun x => { x with groupResult := r, groupResGroup := g, groupResOffset := off })

/-- An accepted command takes effect, or is staged behind a busy group (R213, R214). -/
def State.groupTake (s : State) (i g : Nat) (st : Staged) : State :=
  if s.groupBusy g then (s.modGrp g (fun x => { x with staged := some st })).groupResult i g 0x1 0
  else (s.applyStaged g st).groupResult i g 0x0 0

/-- The result code, and the offset, with which a commit is refused (R213). -/
def State.commitCheck (s : State) (i g : Nat) (e : List Byte) : Option (Nat × Nat) :=
  let t := geTenant e
  if (s.suite i).state != .serving then some (0x6, 0)
  else if g / 256 ≠ i then some (0x2, 0)
  else match s.badEntry i g e with
    | some o => some (0x4, o)
    | none =>
      if s.badRoute e then some (0x5, 0)
      else if FMap.get 256 (s.suite i).quotaGrp t < s.tenantGroups i t g + 1 then some (0x3, 0) else none

/-- The entry window as GROUP_CMD finds it; bytes never written read 0. -/
def Suite.window (x : Suite) : List Byte := slice x.groupWindow 0 512

/-- The tenant's group-entry limit takes effect at the next group-entry write that it governs, accepted or refused (R11, R149, R487). -/
def State.applyGrpQuota (s : State) (i t : Nat) : State :=
  s.modSuite i (fun x => { x with quotaGrpEff := FMap.put x.quotaGrpEff t (FMap.get 256 x.quotaGrp t) })

/-- GROUP_COMMIT (R213, R214, R488, R552). -/
def execGroupCommit (host : Fin 16) (group : BitVec 12) (s : State) : Out := s.hostIn host.val (.groupCommit host group) fun s =>
  .next (s.ownerWrite host.val (fun i s =>
    let e := (s.suite i).window
    let s := s.applyGrpQuota i (geTenant e)
    match s.commitCheck i group.toNat e with
    | some (r, o) => s.groupResult i group.toNat r o
    | none => s.groupTake i group.toNat (.commit e)))

/-- GROUP_INVALIDATE (R214, R488): the window is not looked at. -/
def execGroupInvalidate (host : Fin 16) (group : BitVec 12) (s : State) : Out := s.hostIn host.val (.groupInvalidate host group) fun s =>
  .next (s.ownerWrite host.val (fun i s =>
    let g := group.toNat
    if (s.suite i).state != .serving then s.groupResult i g 0x6 0
    else if g / 256 ≠ i then s.groupResult i g 0x2 0
    else s.groupTake i g .invalidate))

/-- STAGED_COMMIT_APPLIED: the group is idle, and what is staged for it takes effect (R214, R216). -/
def execStagedCommitApplied (group : BitVec 12) (s : State) : Out :=
  let g := group.toNat
  match (s.grp g).staged with
  | none => .next s
  | some st =>
    if s.groupBusy g then .next s
    else .next ((s.applyStaged g st).modSuite (g / 256) (fun x =>
      if x.groupResult = 1 ∧ x.groupResGroup = g then { x with groupResult := 0 } else x))

/-- The entry that the read-back window shows: in effect, or staged; 0 where there is none (R488). -/
def State.readBack (s : State) (i g : Nat) (staged : Bool) : List Byte :=
  if g / 256 ≠ i then []
  else if staged then (match (s.grp g).staged with | some (.commit e) => e | _ => [])
  else ((s.grp g).entry).getD []

/-- GROUP_READ loads the read-back window (R485, R488). -/
def execGroupRead (host : Fin 16) (value : Word32) (s : State) : Out := s.hostIn host.val (.groupRead host value) fun s =>
  .next (s.ownerWrite host.val (fun i s =>
    let v := value.toNat
    s.modSuite i (fun x => { x with groupRead := BitVec.ofNat 32 (bits v 12 0),
                                    groupReadback := s.readBack i (bits v 11 0) (bit v 12) })))

end Sys2Proof.Machine
end

