-- ==== Sys2Proof/Machine/Suites.lean ====
section
/-! DEFINITION. The Suite owner page's other work: Bell blocks (R175, R176, R488), Bell debug reads (R203, R204, R489), the
deadlock detector (R200-R202, R490), quotas (R487) and the search for a Suite's records (R425, R492). -/

namespace Sys2Proof.Machine

/-! ## Bell blocks (R174-R176, R488) -/

/-- The blocks that Suite `i` holds. -/
def State.suiteBlocks (s : State) (i : Nat) : List (Nat × BellBlock) := s.cellar.blocks.filter (fun b => b.2.suite == i)

/-- The record offsets at which the Bell area's blocks start: 128 in the first MiB of each of its extents. -/
def State.blockOffsets (s : State) : List Nat :=
  (s.cellar.bellArea.filter (fun e => !s.cellar.replacing.any (fun r => r.1 == e))).flatMap (fun x => (List.range 128).map (fun b => x * 0x200000 + b * 0x2000))

/-- The 256 record offsets of a block. -/
def blockRecords (off : Nat) : List Nat := (List.range 256).map (fun k => off + 32 * k)

/-- A block's records and waiter lines zeroed and emptied; its tenant is written into each record (R175, R176). -/
def Cellar.zeroBlock (x : Cellar) (off : Nat) : Cellar :=
  { x with bells := x.bells.filter (fun r => bellBlockOf r.1 != off) }

/-- The block is allocated to a tenant of a Suite (R175). -/
def Cellar.allocBlock (x : Cellar) (off suite : Nat) (t : BitVec 8) : Cellar :=
  let y := x.zeroBlock off
  { y with bells := (blockRecords off).foldl (fun m o => FMap.put m o { tenant := t, tenantValid := true }) y.bells,
           blocks := FMap.put y.blocks off ⟨suite, t⟩ }

/-- The block goes back to the Bell area (R176). -/
def Cellar.freeBlock (x : Cellar) (off : Nat) : Cellar :=
  let y := x.zeroBlock off
  { y with blocks := FMap.del y.blocks off }

/-- The result of a command of BELL_BLOCK_CMD (R488). -/
def State.bellResult (s : State) (i r : Nat) : State := s.modSuite i (fun x => { x with bellResult := r })

/-- The code with which an allocation is refused (R175, R488). -/
def State.allocCheck (s : State) (i : Nat) (t : BitVec 8) : Option Nat :=
  if (s.suite i).state != .serving then some 0x6
  else if !s.tenantIn i t.toNat then some 0x3
  else if 256 ≤ (s.suiteBlocks i).length then some 0x2 else none

/-- BELL_BLOCK_CMD 01: a free block is zeroed for the tenant, and its record offset is returned (R175, R485, R488). -/
def execBellBlockAllocate (host : Fin 16) (tenant : BitVec 8) (s : State) : Out := s.hostIn host.val (.bellBlockAllocate host tenant) fun s =>
  .next (s.ownerWrite host.val (fun i s => match s.allocCheck i tenant with
    | some r => s.bellResult i r
    | none => match s.blockOffsets.find? (fun o => (FMap.find s.cellar.blocks o).isNone) with
      | none => s.bellResult i 0x1
      | some o => (({ s with cellar := s.cellar.allocBlock o i tenant } : State).progressIn (some i)).modSuite i (fun x =>
          { x with bellResult := 0x0, bellOffset := BitVec.ofNat 32 o })))

/-- BELL_BLOCK_CMD 10: a block without waiters is zeroed and freed (R176, R488). -/
def execBellBlockFree (host : Fin 16) (offset : Word32) (s : State) : Out := s.hostIn host.val (.bellBlockFree host offset) fun s =>
  .next (s.ownerWrite host.val (fun i s =>
    let o := offset.toNat
    if (s.suite i).state != .serving then s.bellResult i 0x6
    else match FMap.find s.cellar.blocks o with
      | none => s.bellResult i 0x5
      | some b =>
        if b.suite ≠ i then s.bellResult i 0x5
        else if (blockRecords o).any (fun r => !(s.bell r).waiters.isEmpty) then s.bellResult i 0x4
        else (({ s with cellar := s.cellar.freeBlock o } : State).progressIn (some i)).bellResult i 0x0))

/-! ## Bell debug (R203, R204, R489) -/

/-- What a debug read of a Bell of context `c` returns. -/
def State.debugRead (s : State) (i : Nat) (sel : Word64) : BellDebug :=
  let c := bits sel.toNat 7 0
  let v := bits sel.toNat 23 8
  let err : BellDebug := { sel := sel, done := true, error := true }
  if !s.suiteHasCtx i c then err
  else if !bit v 15 then
    let id := bits v 5 0
    if 48 ≤ id then err
    else
      let b := (s.ctx c).bell id
      { sel := sel, done := true, full := b.full, overflow := b.overflow, value := b.value, doubleFill := (s.ctx c).doubleFill }
  else match s.translationOf c (bits v 11 0) with
    | none => { err with virt := true }
    | some e =>
      let entry := BitVec.ofNat 64 e
      if trHome e ≠ s.engineId then { sel := sel, done := true, virt := true, remote := true, entry := entry }
      else if !s.inBlock (trOffset e) then { err with virt := true, entry := entry }
      else
        let r := s.bell (trOffset e)
        { sel := sel, done := true, virt := true, full := r.full, overflow := r.overflow, owner := r.tenant,
          doubleFill := r.doubleFill.setWidth 32, value := r.value, lastHall := r.lastHall, lastFig := r.lastFig, lastCtx := r.lastCtx,
          lastEngine := r.lastEngine, entry := entry, waiters := r.waiters }

/-- BELL_DEBUG_SEL: one debug read; it changes no Bell and wakes no waiter (R203, R489). -/
def execBellDebugSel (host : Fin 16) (value : Word64) (s : State) : Out := s.hostIn host.val (.bellDebugSel host value) fun s =>
  .next (s.ownerWrite host.val (fun i s => s.modSuite i (fun x => { x with dbg := s.debugRead i (BitVec.ofNat 64 (bits value.toNat 23 0)) })))

/-- The record of the virtual Bell that BELL_DEBUG_SEL names, if this engine holds it. -/
def State.debugTarget (s : State) (i : Nat) : Option Nat :=
  let v := (s.suite i).dbg.sel.toNat
  let c := bits v 7 0
  if s.suiteHasCtx i c && bit v 23 then
    match s.translationOf c (bits v 19 8) with
    | some e => if trHome e = s.engineId && s.inBlock (trOffset e) then some (trOffset e) else none
    | none => none
  else none

/-- BELL_DEBUG_CLEAR (R180, R489). -/
def execBellDebugClear (host : Fin 16) (s : State) : Out := s.hostIn host.val (.bellDebugClear host) fun s =>
  .next (s.ownerWrite host.val (fun i s => match s.debugTarget i with
    | some o => (s.modBell o (fun r => { r with overflow := false })).progressIn (s.suiteAt o)
    | none => s.drop i))

/-! ## The deadlock detector (R200-R202) -/

/-- The flight on which a context is blocked: BELL_WAIT, TAKE or BARRIER (R200). -/
def Context.blockedOn (x : Context) : Option Flight :=
  x.flights.find? (fun f => f.done.isNone && (match f.kind with
    | .bellWait .. => true | .take .. => true | .barrier .. => true | _ => false))

/-- A context that the detector counts as active (R200). -/
def Context.active (x : Context) : Bool := x.live || x.drains

/-- A Figure that moves data is in flight: one whose completion waits for a ring entry is so too (R133, R200). -/
def Context.moves (x : Context) : Bool := x.flights.any (fun f => match f.kind with | .move _ => true | .coll _ => true | _ => false)

/-- The wait-graph entry of an active context (R202). -/
def State.waitEntry (s : State) (c : Nat) (f : Flight) : StallEntry :=
  let base : StallEntry := ⟨c, (s.ctx c).state.code, f.opcode, f.idx, f.selector, s.engineId, 0, 0, 0, 0, 0⟩
  let onBell (b : BellRef) (awaited : Word64) : StallEntry := match b with
    | .virt o =>
      let r := s.bell o
      { base with tenant := r.tenant.toNat, awaited := awaited, current := r.value, ringerEngine := r.lastEngine, ringerCtx := r.lastCtx }
    | .loc id => { base with awaited := awaited, current := ((s.ctx c).bell id).value }
    | .away h _ => { base with home := h, awaited := awaited }
  match f.kind with
  | .bellWait b cmp v _ => onBell b (if cmp then v else 0)
  | .take b _ _ => onBell b 0
  | .barrier g _ _ _ _ _ =>
    let root := match (s.grp g).entry with | some e => geRoot e false | none => s.engineId
    -- No flit brings another engine's count here: it is a free value.
    { base with home := root, current := if root = s.engineId then BitVec.ofNat 64 (s.grp g).arrived.length else Config.remoteArrivals s.freeCtr }
  | _ => base

/-- The wait graph of a Suite, contexts ascending (R202). -/
def State.waitGraph (s : State) (i : Nat) : List StallEntry :=
  (s.suiteCtxs i).filterMap (fun c => if (s.ctx c).active then ((s.ctx c).blockedOn).map (s.waitEntry c) else none)

/-- The detector finds Suite `i` stalled: some context is active, every active one is blocked, and no data moves (R200). -/
def State.stalled (s : State) (i : Nat) : Bool :=
  let cs := (s.suiteCtxs i).filter (fun c => (s.ctx c).active)
  !cs.isEmpty && cs.all (fun c => ((s.ctx c).blockedOn).isSome) && !(s.suiteCtxs i).any (fun c => (s.ctx c).moves)

/-- The deadlock window, in ns (R73, R200). -/
def State.deadlockNs (s : State) : Nat := 1000 * s.cfg 0x024 4

/-- STALL_DETECTED: the Suite has stood still for the deadlock window since its last progress; the wait graph is reported, recorded and
signalled, once until the Suite has made progress (R200-R202, R490). -/
def execStallDetected (suite : Fin 16) (s : State) : Out :=
  let i := suite.val
  if !(s.isReady && s.suiteOn i && s.stalled i) || (s.suite i).stallTold then .next s
  else
    let s := s.reach ((s.suite i).progressAt + BitVec.ofNat 64 s.deadlockNs)
    let s := s.modSuite i (fun x => { x with stallValid := true, stallHall := s.hall, stallReport := s.waitGraph i, stallTold := true })
    .next (({ s with freeCtr := s.freeCtr + 1 }.record { event := 0x0304, severity := 2, unitClass := 8, unitIndex := i }).suiteEvent i)

/-- STALL_CLEAR (R490). -/
def execStallClear (host : Fin 16) (s : State) : Out := s.hostIn host.val (.stallClear host) fun s =>
  .next (s.ownerWrite host.val (fun i s =>
    s.modSuite i (fun x => { x with stallValid := false, stallHall := 0, stallReport := [] })))

/-! ## Quotas (R149, R487) -/

/-- A limit written: 256 is not listed, and one above it keeps the value that was there. -/
def putLimit (m : FMap Nat) (t v : Nat) : FMap Nat :=
  if 256 < v then m else if v = 256 then FMap.del m t else FMap.put m t v

/-- QUOTA_WRITE (R149, R487). -/
def execQuotaWrite (host : Fin 16) (tenant : BitVec 8) (value : Word32) (s : State) : Out := s.hostIn host.val (.quotaWrite host tenant value) fun s =>
  .next (s.ownerWrite host.val (fun i s =>
    let v := value.toNat
    s.modSuite i (fun x => { x with quotaCtx := putLimit x.quotaCtx tenant.toNat (bits v 8 0),
                                    quotaGrp := putLimit x.quotaGrp tenant.toNat (bits v 24 16) })))

/-! ## Records (R425, R492) -/

/-- How far record `r` lies below the newest record. -/
def ErrLog.age (l : ErrLog) (seq : Word32) : Nat := (l.nextSeq - 1 - seq).toNat

/-- Record `r` lies at or above sequence number `n`, which is not past the newest record (R425). -/
def ErrLog.atOrAbove (l : ErrLog) (n r : Word32) : Bool :=
  let past := (n - (l.nextSeq - 1)).toNat
  !(1 ≤ past && past < 2 ^ 31) && l.age r ≤ l.age n

/-- Every record held: the on-die copy of one that both hold (R423). -/
def ErrLog.all (l : ErrLog) : List ErrRec :=
  l.attic.filter (fun r => !l.ring.any (fun q => q.seq == r.seq)) ++ l.ring

/-- The oldest of the records at or above `n` that `p` accepts. -/
def ErrLog.oldest (l : ErrLog) (n : Word32) (p : ErrRec → Bool) : Option ErrRec :=
  (l.all.filter (fun r => l.atOrAbove n r.seq && p r)).foldl
    (fun b r => match b with | some q => if l.age q.seq < l.age r.seq then some r else some q | none => some r) none

/-- The record names a unit, context or tenant of Suite `i` (R425, R492). -/
def State.namesSuite (s : State) (i : Nat) (r : ErrRec) : Bool :=
  let ofExtent (e : Nat) : Bool := match (s.ext e).owner with | .host h => s.suiteOfPort h == some i | _ => false
  (match r.unitClass with
   | 1 => ofExtent (r.unitIndex / 32)
   | 2 => ofExtent r.unitIndex
   | 4 => s.suiteHasCtx i r.unitIndex
   | 5 => s.suiteHasPort i r.unitIndex
   | 8 => r.unitIndex == i
   | _ => false) ||
  (match r.op with | some o => s.suiteHasCtx i o.ctx || s.tenantIn i o.tenant | none => false)

/-- RECORD_SEQ: the next record of the Suite goes to the window; done is set in either case (R492). -/
def execRecordSeq (host : Fin 16) (value : Word32) (s : State) : Out := s.hostIn host.val (.recordSeq host value) fun s =>
  .next (s.ownerWrite host.val (fun i s =>
    let r := s.log.oldest value (s.namesSuite i)
    s.modSuite i (fun x => { x with recordSeq := value, recordDone := true, recordValid := r.isSome,
                                    recordWindow := match r with | some q => some q | none => x.recordWindow })))

end Sys2Proof.Machine
end

