-- ==== Sys2Proof/Machine/CellarAccess.lean ====
section
/-! DEFINITION. How a host reaches the Cellar through its window (R334-R343, R352-R359, R467, R499): CXL.mem and BAR2 accesses, the
token bucket and load index (R354-R356), and the dynamic-capacity commands of the CXL mailbox (R396, R397). -/

namespace Sys2Proof.Machine

/-! ## Where a window access lands (R334-R336, R343, R352, R353, R467) -/

/-- What an access to a window slot meets. -/
inductive WindowHit where
  | unmapped
  | fenced
  | reclaiming
  | denied
  | open_ (off : Nat)
deriving DecidableEq, Repr

/-- A region's right for a host: read, or read-write when `wr` (R342). -/
def Region.hostMay (r : Region) (h : Nat) (wr : Bool) : Bool := r.hosts.any (fun x => x.1 == h && (x.2 || !wr))

/-- The host has extents, and every one of them is Fenced: no identity has matched since its link dropped (R352, R411). -/
def State.hostFenced (s : State) (h : Nat) : Bool :=
  let mine := s.cellar.extents.filter (fun x => decide (x.2.owner = .host h))
  mine.any (fun x => x.2.state == .fenced) && !mine.any (fun x => x.2.state == .granted)

/-- The access of host block `h` to window address `a`: while the host is fenced every one is as to a port in reset (R326, R334, R336, R343, R352). -/
def State.windowHit (s : State) (h a : Nat) (wr : Bool) : WindowHit :=
  if s.hostFenced h then .fenced else
  match FMap.find (s.host h).window (a / 0x200000) with
  | none => .unmapped
  | some e =>
    let x := s.ext e
    let off := e * 0x200000 + a % 0x200000
    if s.hearth.disabledMap.contains e then .unmapped
    else match x.state with
      | .fenced => .fenced
      | .reclaiming => .reclaiming
      | .granted => (match x.owner with
        | .host _ => .open_ off
        | .region r => if (FMap.get noRegion s.cellar.regions r).hostMay h wr then .open_ off else .denied
        | _ => .unmapped)
      | _ => .unmapped

/-- What host block `h` is answered. -/
def State.answer (s : State) (h : Nat) (c : HostCpl) : State := s.modHost h (fun x => { x with cpl := c, cplLoad := none })

/-- The DevLoad encoding of a load index (R356). -/
def devLoad (l : Nat) : Nat := if l < 64 then 0 else if l < 160 then 1 else if l < 224 then 2 else 3

/-- A Cellar response to host block `h`: under CXL.mem it carries DevLoad (R356). One that finds its port reset meanwhile is dropped and
counted (R468). -/
def State.hostReply (s : State) (h : Nat) (c : HostCpl) : State :=
  if s.hostServing h then s.modHost h (fun x => { x with cpl := c, cplLoad := if s.cxlOn h then some (devLoad x.loadIndex.toNat) else none })
  else s.modHost h (fun x => { x with droppedReplies := satInc x.droppedReplies })

/-- A window access that does not reach a cell is counted, and recorded where a right is missing (R336, R343, R467). -/
def State.countMiss (s : State) (h a : Nat) : WindowHit → State
  | .unmapped => s.modHost h (fun x => { x with unmapped := satInc x.unmapped })
  | .fenced => s.modHost h (fun x => { x with targetResets := satInc x.targetResets })
  | .denied =>
    (s.modHost h (fun x => { x with rightsViolations := satInc x.rightsViolations })).record
      { event := 0x0105, severity := 0, unitClass := 5, unitIndex := h,
        addr := ((FMap.find (s.host h).window (a / 0x200000)).getD 0) * 0x200000 + a % 0x200000 }
  | _ => s

/-- How a read that does not reach a cell completes: poison under CXL.mem, and by its cause under BAR2 (R336, R343, R353,
R467). -/
def missRead (cxl : Bool) : WindowHit → HostCpl
  | .fenced => if cxl then .poison else .ca
  | .reclaiming => .poison
  | _ => if cxl then .poison else .ur

/-! ## Uncorrectable errors at a cell (R359) -/

/-- The error that an access meets at its `k`th word, if the access reads that word's unit. -/
def State.meetError (s : State) (off len : Nat) (ecc : Option Nat) (reads : Nat → Bool) : State :=
  match ecc with
  | none => s
  | some k =>
    let u := off / 64 + k / 8
    if (unitsOf off len).contains u && reads u then s.cellError u (k % 8) else s

/-! ## Reads and writes at the cells (R337, R338, R359) -/

/-- A read of Cellar bytes: zeros where nothing was written, poison where a unit is poisoned (R337, R359). -/
def State.serveRead (s : State) (h off len : Nat) (ecc : Option Nat) : State :=
  let s := s.touch off len
  let again := s.poisonIn off len
  let s := s.meetError off len ecc (fun u => !s.cellar.poisoned.contains u)
  if s.poisonIn off len then (if again then s.poisonRecord off len none else s).hostReply h .poison
  else s.hostReply h (.data (memBytes 0 s.cellar.mem off len))

/-- One unit of a write with byte enables, as one read-modify-write (R338): a part of a poisoned unit is dropped (R359). -/
def Cellar.maskUnit (k : Cellar) (u off : Nat) (b : List Byte) (en : List Bool) : Option Cellar :=
  let at_ (i : Nat) : Option Byte :=
    let a := 64 * u + i
    if off ≤ a && a < off + b.length && en.getD (a - off) false then some (byteAt b (a - off)) else none
  let whole := (List.range 64).all (fun i => (at_ i).isSome)
  if !whole && k.poisoned.contains u then none
  else
    let new := (List.range 64).map (fun i => (at_ i).getD (memRead 0 k.mem (64 * u + i)))
    some { k with mem := memPut 0 k.mem (64 * u) new, written := insertNat u k.written,
                  poisoned := if whole then k.poisoned.filter (fun v => v != u) else k.poisoned }

/-- A unit of a write that the cell reads first: a part of it is written. -/
def partUnit (off : Nat) (b : List Byte) (en : List Bool) (u : Nat) : Bool :=
  !(List.range 64).all (fun i => let a := 64 * u + i; off ≤ a && a < off + b.length && en.getD (a - off) false)

/-- A host write reaches its cells, unit by unit (R338, R359). -/
def State.serveWrite (s : State) (h off : Nat) (b : List Byte) (en : List Bool) (ecc : Option Nat) : State :=
  let s := (s.touch off b.length).meetError off b.length ecc (partUnit off b en)
  overList (fun s u => match s.cellar.maskUnit u off b en with
    | some k => { s with cellar := k }
    | none => s.modHost h (fun x => { x with poisonPartialDrops := satInc x.poisonPartialDrops })) (unitsOf off b.length) s

/-- The window address of a request. -/
def CellarReq.addr : CellarReq → Nat
  | .read a _ _ => a
  | .write a _ _ _ => a

/-- A request writes. -/
def CellarReq.writes : CellarReq → Bool
  | .read .. => false
  | .write .. => true

/-- The bytes that a request covers. -/
def CellarReq.len : CellarReq → Nat
  | .read _ n _ => n
  | .write _ b _ _ => b.length

/-- A request that meets what its window slot, or its extent by the time it reaches a cell, makes of it (R336-R343, R353). A CXL.mem write
completes; a BAR2 write is posted (R339). -/
def State.serveAs (s : State) (h : Nat) (q : CellarReq) (m : WindowHit) : State :=
  let cxl := s.cxlOn h
  match q with
  | .read a len ecc => (match m with
    | .open_ off => s.serveRead h off len ecc
    | m => (s.countMiss h a m).hostReply h (missRead cxl m))
  | .write a b en ecc =>
    let s := (match m with
      | .open_ off => s.serveWrite h off b en ecc
      | m => s.countMiss h a m)
    if cxl then s.hostReply h .done else s

/-! ## The Cellar ports and the Hallway (R39, R54-R57, R330, R469) -/

/-- The Cellar port that serves a unit: each of the 64 serves 400 cells (R39), in the order of their numbers: DESIGN CHOICE (entry 43). -/
def cellarPort (u : Nat) : Nat := cellOf u / 400

/-- The requests of at most 64 bytes that an access of `len` bytes at `off` is, by Cellar port. -/
def portLoad (off len p : Nat) : Nat := ((unitsOf off len).filter (fun u => cellarPort u == p)).length

/-- The requests that wait at Cellar port `p`, of host `h`, or of all. -/
def Cellar.queued (k : Cellar) (h : Option Nat) (p : Nat) : Nat :=
  (k.waiting.map (fun a => match a with
    | .host w => if h = none ∨ h = some w.host then portLoad w.off w.req.len p else 0
    | .figure _ _ => 0)).sum

/-- The credits of a Cellar port's request queue (R56). -/
def cellarPortCredits : Nat := 128

/-- Every Cellar port that an access reaches has room for it (R54, R56). -/
def Cellar.room (k : Cellar) (off len : Nat) : Bool :=
  ((unitsOf off len).map cellarPort).all (fun p => k.queued none p + portLoad off len p ≤ cellarPortCredits)

/-- The credits that a Hallway input offers in its request pool, and in its response pool; each other pool offers 32 (R55, R56). -/
def hallCredits : Nat := 256

/-- The units a request takes tokens for, which are the flits it takes in the Hallway. -/
def CellarReq.units (q : CellarReq) : Nat := (unitsOf q.addr q.len).length

/-- The flits queued in the request pool of a Hallway input. -/
def HallPort.used (x : HallPort) : Nat := (x.requests.map CellarReq.units).sum

/-- The Hallway input of host block `h`. -/
def State.hall_ (s : State) (h : Nat) : HallPort := FMap.get {} s.hallway h

/-- The request pool of the host's Hallway input has room for a request (R54, R56). -/
def State.hallRoom (s : State) (h : Nat) (q : CellarReq) : Bool := (s.hall_ h).used + q.units ≤ hallCredits

/-- A request of host `h` that the Hallway carries: at its Cellar port it is served, or waits behind the wake of its cell group (R330); without
credits there it stays (R54). -/
def State.cross (s : State) (h : Nat) (q : CellarReq) : Option State :=
  match s.windowHit h q.addr q.writes with
  | .open_ off =>
    if (s.ext (extentOf off)).power = .retention then
      if s.cellar.room off q.len then
        let s := s.touch off q.len
        some { s with cellar := { s.cellar with waiting := s.cellar.waiting ++ [.host ⟨h, q, off⟩] } }
      else none
    else some (s.serveAs h q (.open_ off))
  | m => some (s.serveAs h q m)

/-- The Hallway carries the requests queued at a host's input, in order, while they find credits; `n` bounds the loop. -/
def State.hallGo (h : Nat) : Nat → State → State
  | 0, s => s
  | n + 1, s => match (s.hall_ h).requests with
    | [] => s
    | q :: l => match s.cross h q with
      | some t => State.hallGo h n { t with hallway := FMap.put t.hallway h { requests := l } }
      | none => s

/-- A request that has its tokens crosses the Hallway to the Cellar, or waits at its input for credits (R54, R336-R343). -/
def State.serve (s : State) (h : Nat) (q : CellarReq) : State :=
  let s := { s with hallway := FMap.put s.hallway h { requests := (s.hall_ h).requests ++ [q] } }
  State.hallGo h (s.hall_ h).requests.length s

/-- What an extent makes of a host's request that has waited at its cells: the access is served, or completes as the extent's state now gives
(R353). -/
def State.afterWait (s : State) (w : CellWait) : WindowHit :=
  match (s.ext (extentOf w.off)).state with
  | .granted => .open_ w.off
  | .reclaiming => .reclaiming
  | .fenced => .fenced
  | _ => .unmapped

/-! ## The token bucket (R354-R356) -/

/-- The bucket lets a request of `n` units go. -/
def HostPort.hasTokens (h : HostPort) (n : Nat) : Bool := h.rate64 == 0 || n ≤ h.tokens
/-- The bucket without the tokens that it takes. -/
def HostPort.spend (h : HostPort) (n : Nat) : HostPort := if h.rate64 = 0 then h else { h with tokens := h.tokens - n }

/-- The request at the head of the Porch's queue goes on once it has its tokens and the Hallway has room; `n` bounds the loop (R54, R355). -/
def State.porchGo (h : Nat) : Nat → State → State
  | 0, s => s
  | n + 1, s =>
    let x := s.host h
    match x.waitingReqs with
    | [] => s
    | q :: l =>
      if x.hasTokens q.units && s.hallRoom h q then State.porchGo h n ((s.putHost h { x.spend q.units with waitingReqs := l }).serve h q) else s

/-- The requests of host `h` that wait go on as far as tokens and credits allow. -/
def State.requestsGo (s : State) (h : Nat) : State :=
  let s := State.hallGo h (s.hall_ h).requests.length s
  State.porchGo h (s.host h).waitingReqs.length s

/-- A request arrives at the Porch: it goes on with its tokens, or waits for them behind earlier ones (R354, R355). -/
def State.cellarReq (s : State) (h : Nat) (q : CellarReq) : State :=
  (s.modHost h (fun x => { x with waitingReqs := x.waitingReqs ++ [q] })).requestsGo h

/-- A Figure's access whose cell group has woken goes on (R330): a flight that is over has none left here. -/
def State.figAccess (s : State) : FigWait → State
  | .readColl c fid mi => (match s.collAt c fid with
    | some k => (match k.members[mi]? with
      | some m => (s.readMember c fid mi m).settle c
      | none => s)
    | none => s)
  | .readMove c fid => (s.moveStart c fid).settle c
  | .write c fid off b => let s := s.moveToCells c fid off b; if c < 256 then s.settle c else s

/-- The queues at extent `e`'s cells move: its group is awake, or holds no data any more. Accesses are taken in the order in which they came,
and the credits they give back let further requests in (R54, R330). -/
def State.cellsGo (s : State) (e : Nat) : State :=
  let here (a : CellAccess) : Bool := match a with | .host w => extentOf w.off == e | .figure x _ => x == e
  let l := s.cellar.waiting.filter here
  let s := { s with cellar := { s.cellar with waiting := s.cellar.waiting.filter (fun a => !here a) } }
  let s := overList (fun s a => match a with
    | .host w => s.serveAs w.host w.req (s.afterWait w)
    | .figure _ w => s.figAccess w) l s
  overList State.requestsGo (s.hosts.map (fun x => x.1)) s

/-- TOKEN_AVAILABLE: the bucket has filled far enough for the request at its head, which goes on (R355). -/
def execTokenAvailable (host : Fin 16) (s : State) : Out :=
  let h := host.val
  match (s.host h).waitingReqs with
  | [] => .next s
  | q :: _ =>
    let x := s.host h
    let s := if x.hasTokens q.units then s
      else s.reach (BitVec.ofNat 64 ((s.hall.toNat / 1000 + ceilDiv (q.units - x.tokens) x.rate64) * 1000))
    .next (s.requestsGo h)

/-- The host's requests queued at its busiest Cellar port (R356). -/
def Cellar.busiest (k : Cellar) (h : Nat) : Nat := ((List.range 64).map (k.queued (some h))).foldl max 0

/-- The load index of a host with `n` requests queued at its busiest Cellar port (R356). -/
def HostPort.load (h : HostPort) (n : Nat) : Nat :=
  let bucket := if h.rate64 = 0 then 0 else 255 * (h.depth64 - h.tokens) / h.depth64
  min 255 (max bucket (255 * n / 128))

/-- LOAD_INDEX_UPDATE: every 1 µs each host's load index follows its bucket and its queue (R356). -/
def execLoadIndexUpdate (s : State) : Out :=
  .next { s with hosts := s.hosts.map (fun (h, x) => (h, { x with loadIndex := BitVec.ofNat 8 (x.load (s.cellar.busiest h)) })) }

/-! ## CXL.mem and BAR2 (R335, R339, R467, R499) -/

/-- A request to a port whose drain or reset has blocked it (R467). -/
def State.blockedReq (s : State) (h : Nat) (c : Option HostCpl) : State :=
  s.modHost h (fun x => { x with targetResets := satInc x.targetResets, cpl := c.getD x.cpl })

/-- The port takes CXL.mem requests: CXL.mem is enabled, the decoder committed and the port Serving (R83, R335). -/
def State.takesCxl (s : State) (h : Nat) : Bool := s.hostServing h && s.cxlOn h && (s.host h).hdmCommitted

/-- CXL_MEM_READ: a read of the 64-byte unit at a window address (R335-R339). -/
def execCxlMemRead (host : Fin 16) (addr : BitVec 31) (ecc : Option Nat) (s : State) : Out := s.hostIn host.val (.cxlMemRead host addr ecc) fun s =>
  let h := host.val
  if (s.host h).blocked && s.cxlOn h then .next (s.blockedReq h (some .poison))
  else if s.takesCxl h then .next (s.cellarReq h (.read (addr.toNat / 64 * 64) 64 ecc))
  else .next s

/-- CXL_MEM_WRITE: a write of the 64-byte unit at a window address, under byte enables (R338, R339). -/
def execCxlMemWrite (host : Fin 16) (addr : BitVec 31) (data : List Byte) (enables : List Bool) (ecc : Option Nat) (s : State) : Out := s.hostIn host.val (.cxlMemWrite host addr data enables ecc) fun s =>
  let h := host.val
  if (s.host h).blocked && s.cxlOn h then .next (s.blockedReq h none)
  else if s.takesCxl h then .next (s.cellarReq h (.write (addr.toNat / 64 * 64) (slice data 0 64) (enables.take 64) ecc))
  else .next s

/-- A BAR2 access that no window takes: Unsupported Request, or a dropped write (R335, R499). -/
def State.bar2Refused (s : State) (h : Nat) (read count : Bool) : State :=
  s.modHost h (fun x => { x with bar2Unsupported := if count then satInc x.bar2Unsupported else x.bar2Unsupported,
                                 cpl := if read then .ur else x.cpl })

/-- BAR2_ACCESS: a read, or a write of the bytes given, of 1 through 512 bytes within one slot (R335, R467, R499). -/
def execBar2Access (host : Fin 16) (addr : BitVec 31) (len : Nat) (write : Option (List Byte)) (atomic : Bool) (ecc : Option Nat)
    (s : State) : Out := s.hostIn host.val (.bar2Access host addr len write atomic ecc) fun s =>
  let h := host.val
  let a := addr.toNat
  let n := match write with | some b => b.length | none => len
  if (s.host h).blocked then .next (s.blockedReq h (if write.isNone then some .ca else none))
  else if !s.decodes h then .next s
  else if s.cxlOn h then .next (s.bar2Refused h (write.isNone || atomic) false)
  else if atomic || n = 0 || 512 < n || 0x200000 < a % 0x200000 + n then .next (s.bar2Refused h (write.isNone || atomic) true)
  else match write with
    | none => .next (s.cellarReq h (.read a n ecc))
    | some b => .next (s.cellarReq h (.write a b (List.replicate b.length true) ecc))

/-! ## Dynamic capacity (R396, R397) -/

/-- The CXL mailbox of a port answers: the port is Serving with CXL.mem enabled. -/
def State.mailbox (s : State) (h : Nat) : Bool := s.decodes h && s.cxlOn h

/-- GET_DYNAMIC_CAPACITY_CONFIGURATION: one region, its base, its length and its block size (R396), 8 bytes each. -/
def execGetDynamicCapacityConfiguration (host : Fin 16) (s : State) : Out := s.hostIn host.val (.getDynamicCapacityConfiguration host) fun s =>
  let h := host.val
  if s.mailbox h then .next (s.answer h (.data (toLe 8 1 ++ toLe 8 0 ++ toLe 8 0x80000000 ++ toLe 8 0x200000))) else .next s

/-- GET_DYNAMIC_CAPACITY_EXTENT_LIST: the blocks that the host has accepted, offset and length, 8 bytes each (R396). -/
def execGetDynamicCapacityExtentList (host : Fin 16) (s : State) : Out := s.hostIn host.val (.getDynamicCapacityExtentList host) fun s =>
  let h := host.val
  if s.mailbox h then
    .next (s.answer h (.data ((s.host h).dcAccepted.flatMap (fun t => toLe 8 (t * 0x200000) ++ toLe 8 0x200000))))
  else .next s

/-- ADD_DYNAMIC_CAPACITY_RESPONSE: the host accepts blocks that it has been offered; what it does not name it declines (R396,
R397). No access depends on it. -/
def execAddDynamicCapacityResponse (host : Fin 16) (slots : List Nat) (s : State) : Out := s.hostIn host.val (.addDynamicCapacityResponse host slots) fun s =>
  let h := host.val
  if s.mailbox h then
    .next (s.modHost h (fun x =>
      { x with dcAccepted := (slots.filter (fun t => x.dcOffered.contains t)).foldl (fun l t => insertNat t l) x.dcAccepted, dcOffered := [], cpl := .done }))
  else .next s

/-- RELEASE_DYNAMIC_CAPACITY: the host gives blocks back (R396, R397). No access depends on it. -/
def execReleaseDynamicCapacity (host : Fin 16) (slots : List Nat) (s : State) : Out := s.hostIn host.val (.releaseDynamicCapacity host slots) fun s =>
  let h := host.val
  if s.mailbox h then
    .next (s.modHost h (fun x =>
      { x with dcAccepted := x.dcAccepted.filter (fun t => !slots.contains t), dcReleasing := x.dcReleasing.filter (fun t => !slots.contains t), cpl := .done }))
  else .next s

end Sys2Proof.Machine
end

