-- ==== Sys2Proof/Machine/Cipher.lean ====
section
/-! DEFINITION. The cipher of the Cellar (R346): AES-256 (FIPS 197) in XTS mode (IEEE 1619), and what the array of a cell holds for a unit.
PRESUMED (entry 11): the text of both standards is theirs, not the spec's. -/

namespace Sys2Proof.Machine

/-! ## AES-256 (FIPS 197) -/

/-- Times x in the field of AES. -/
def aesDouble (a : Byte) : Byte := (a <<< 1) ^^^ (if a.msb then 0x1B else 0)

/-- The product of two field elements; `n` bits of the second are left. -/
def aesMul : Nat → Byte → Byte → Byte
  | 0, _, _ => 0
  | n + 1, a, b => (if b.getLsbD 0 then a else 0) ^^^ aesMul n (aesDouble a) (b >>> 1)

/-- The inverse of a field element, its 254th power; 0 for 0. -/
def aesInv (a : Byte) : Byte :=
  let sq (x : Byte) : Byte := aesMul 8 x x
  let r := (List.range 6).foldl (fun (p : Byte × Byte) _ => let q := sq p.1; (q, aesMul 8 p.2 q)) (sq a, sq a)
  r.2

/-- The substitution of one byte. -/
def aesSub (a : Byte) : Byte :=
  let b := aesInv a
  b ^^^ b.rotateLeft 1 ^^^ b.rotateLeft 2 ^^^ b.rotateLeft 3 ^^^ b.rotateLeft 4 ^^^ 0x63

/-- The bytewise sum of two strings. -/
def xorBytes (a b : List Byte) : List Byte := List.zipWith (fun x y => x ^^^ y) a b

/-- The round constant of key word 8 `k`. -/
def aesRcon (k : Nat) : Byte := (List.range (k - 1)).foldl (fun a _ => aesDouble a) 1

/-- The key words, newest first: `n` more, the next being word `i`. -/
def aesExpand : Nat → Nat → List (List Byte) → List (List Byte)
  | 0, _, w => w
  | n + 1, i, w =>
    let t := w.headD []
    let t := if i % 8 = 0 then xorBytes ((t.drop 1 ++ t.take 1).map aesSub) [aesRcon (i / 8), 0, 0, 0] else if i % 8 = 4 then t.map aesSub else t
    aesExpand n (i + 1) (xorBytes (w.getD 7 []) t :: w)

/-- The 15 round keys of a 256-bit key. -/
def aesRoundKeys (key : List Byte) : List (List Byte) :=
  let w := (aesExpand 52 8 ((List.range 8).map (fun i => slice key (4 * i) 4)).reverse).reverse
  (List.range 15).map (fun r => ((w.drop (4 * r)).take 4).flatten)

/-- The rows of a block, shifted. -/
def aesShift (b : List Byte) : List Byte := (List.range 16).map (fun i => byteAt b (4 * ((i / 4 + i % 4) % 4) + i % 4))

/-- The columns of a block, mixed. -/
def aesMix (b : List Byte) : List Byte :=
  (List.range 16).map (fun i =>
    let at' (k : Nat) : Byte := byteAt b (4 * (i / 4) + (i + k) % 4)
    aesDouble (at' 0) ^^^ aesDouble (at' 1) ^^^ at' 1 ^^^ at' 2 ^^^ at' 3)

/-- One block of 16 bytes, encrypted. -/
def aesBlock (key b : List Byte) : List Byte :=
  let ks := aesRoundKeys key
  let b := ((ks.drop 1).take 13).foldl (fun b k => xorBytes (aesMix (aesShift (b.map aesSub))) k) (xorBytes b (ks.headD []))
  xorBytes (aesShift (b.map aesSub)) (ks.getLastD [])

/-! ## XTS (IEEE 1619) -/

/-- The tweak of the next block: times x, in little-endian order. -/
def xtsNext (t : List Byte) : List Byte :=
  let n := le t 0 16
  toLe 16 (Nat.xor (2 * n % 2 ^ 128) (if 2 ^ 127 ≤ n then 0x87 else 0))

/-- `n` blocks of a data unit under K1, from the block whose tweak is `t`. -/
def xtsBlocks (k1 : List Byte) : Nat → List Byte → List Byte → List Byte
  | 0, _, _ => []
  | n + 1, t, b => xorBytes (aesBlock k1 (xorBytes (b.take 16) t)) t ++ xtsBlocks k1 n (xtsNext t) (b.drop 16)

/-- AES-256-XTS of a 64-byte data unit, four blocks, under the key K1 and then K2, at a 16-byte tweak (R346, R347). -/
def aes256Xts (key tweak unit : List Byte) : List Byte := xtsBlocks (slice key 0 32) 4 (aesBlock (slice key 32 32) tweak) unit

/-! ## What a cell holds (R346) -/

/-- The tweak of a unit: its Cellar offset divided by 64, as a 128-bit little-endian integer (R346). -/
def unitTweak (off : Nat) : List Byte := toLe 16 (off / 64)

/-- The key slot that encrypts an extent: its owner's, or its region's (R346, R347). -/
def Extent.keySlot (x : Extent) : Option Nat :=
  match x.owner with
  | .host h => some h
  | .region r => some (16 + r)
  | _ => none

/-- The 64 bytes that the array of a cell holds for the unit at Cellar offset `off`: of a Granted extent, the ciphertext under its owner's key;
of staging, the bytes themselves (R346). `State.cellar.mem` holds what a reader of the unit gets. -/
def State.storedUnit (s : State) (off : Nat) : List Byte :=
  let b := memBytes 0 s.cellar.mem (off / 64 * 64) 64
  match (s.ext (off / 0x200000)).keySlot.bind (FMap.find s.cellar.keys) with
  | some key => aes256Xts key (unitTweak off) b
  | none => b

end Sys2Proof.Machine
end

