-- ==== Sys2Proof/Machine/CellarOps.lean ====
section
/-! DEFINITION. Operations on extents that commands and timers share: the scrubber's queue (R331), reclaim (R345, R353),
quarantine and the retire list (R360), the replacement of staging (R360), and the completion of ACCEPTED commands (R512). -/

namespace Sys2Proof.Machine

/-! ## ACCEPTED commands (R512, R517) -/

/-- An ACCEPTED command completes: its event carries the final status (R515, R517). -/
def State.acceptDone (s : State) (a : Accepted) (status detail : Nat) : State :=
  ({ s with mgmt := { s.mgmt with accepted := s.mgmt.accepted.filter (fun b => b != a) } } : State).sendEvent 0x8004
    (toLe 2 a.code ++ toLe 2 a.tag.toNat ++ toLe 1 status ++ toLe 3 0 ++ toLe 4 detail)

/-- Every ACCEPTED command that satisfies a test completes. -/
def State.acceptAll (s : State) (p : Accepted → Bool) (status detail : Nat) : State :=
  overList (fun s a => s.acceptDone a status detail) (s.mgmt.accepted.filter p) s

/-- A command that waits for the scrubber. -/
def Accepted.ofCellar (a : Accepted) : Bool := a.code == 0x10 || a.code == 0x11 || a.code == 0x18 || a.code == 0x1A

/-- An extent that a Cellar command still waits for. -/
def ExtState.pending (x : ExtState) : Bool := x == .granting || x == .reclaiming

/-- Cellar commands all of whose extents are done complete (R333, R512). -/
def State.cellarDone (s : State) : State :=
  s.acceptAll (fun a => a.ofCellar && a.units.all (fun e => !(s.ext e).state.pending)) 0x00 0

/-! ## Capacity and quarantine (R81, R360) -/

/-- The minimum of usable extents of a grade (R1's table). -/
def gradeMin (grade : Nat) : Nat := if grade = 16 then 784 else 768

/-- The extents of the engine. -/
def allExtents : List Nat := List.range 800

/-- An extent that can be used: not in the map and not quarantined. -/
def State.extUsable (s : State) (e : Nat) : Bool := e < 800 && !s.hearth.disabledMap.contains e && (s.ext e).state != .quarantined

/-- The usable extents. -/
def State.usable (s : State) : List Nat := allExtents.filter s.extUsable

/-- The capacity-below-grade record, where capacity is (R81, R360). -/
def State.capacityCheck (s : State) : State :=
  if s.usable.length < gradeMin s.fuses.grade then
    s.record { event := 0x0104, severity := 3, unitClass := 0x0D, unitIndex := s.engineId, detail := s.usable.length }
  else s

/-- An extent enters Quarantined, and its number the Attic's retire list (R360). -/
def State.quarantineExt (s : State) (e : Nat) : State :=
  let s := (s.modExt e (fun x => { x with state := .quarantined, quarantine := true, owner := .none, leftMs := 0, identity := 0 })).cellsGo e
  let s := { s with flash := { s.flash with retireList := insertNat e s.flash.retireList } }
  (s.record { event := 0x0103, severity := 3, unitClass := 2, unitIndex := e }).capacityCheck

/-! ## The scrubber (R331) -/

/-- The batch at the head of the scrubber's queue begins: its cell groups are powered, and Awake (R329, R331). -/
def State.scrubStarts (s : State) : State :=
  match s.cellar.scrubQ with
  | [] => s
  | j :: _ => overList (fun s e => (s.modExt e (fun x => { x with power := .awake, waking := false })).cellsGo e) j.extents s

/-- Extents join the scrubber's queue in batches of 8; the first begins at once if the scrubber is idle (R331). -/
def State.queueScrub (s : State) (es : List Nat) : State :=
  let idle := s.cellar.scrubQ.isEmpty
  let s := { s with cellar := { s.cellar with scrubQ := s.cellar.scrubQ ++ (chunksOf 8 es.length es).map (fun b => ⟨b⟩) } }
  if idle then s.scrubStarts else s

/-- A cell group scrubbed: every word zero, every tag empty (R80, R331, R337). -/
def Cellar.scrub (k : Cellar) (e : Nat) : Cellar :=
  { k with mem := memClear k.mem (e * 0x200000) ((e + 1) * 0x200000), written := k.written.filter (fun u => extentOf (64 * u) != e),
           poisoned := k.poisoned.filter (fun u => extentOf (64 * u) != e) }

/-! ## Reclaim (R345, R353, R397) -/

/-- A host block without the slots that map an extent: a CXL host is told to release them (R353, R397). -/
def HostPort.unmap (x : HostPort) (cxl : Bool) (e : Nat) : HostPort :=
  let slots := (x.window.filter (fun w => w.2 == e)).map (fun w => w.1)
  { x with window := x.window.filter (fun w => w.2 != e),
           dcOffered := x.dcOffered.filter (fun t => !slots.contains t),
           dcReleasing := if cxl then slots.foldl (fun l t => insertNat t l) x.dcReleasing else x.dcReleasing }

/-- The extent leaves every window (R345, R353). -/
def State.unmapAll (s : State) (e : Nat) : State := { s with hosts := s.hosts.map (fun (h, x) => (h, x.unmap (s.cxlOn h) e)) }

/-- A range of the Cellar meets an extent. -/
def meetsExtent (e off len : Nat) : Bool := 0 < len && extentOf off ≤ e && e ≤ extentOf (off + len - 1)

/-- A Figure in flight reads or writes the extent on this engine. -/
def FlightKind.uses (k : FlightKind) (self e : Nat) : Bool :=
  let at_ (sel off len : Nat) : Bool := selSpace sel == 1 && selEngine sel == self && meetsExtent e off len
  match k with
  | .coll c => c.members.any (fun m => sends c.args m && at_ m.sendSel.toNat m.sendAddr.toNat
      (bufLens c.opcode c.size c.total c.elem c.capacity m.counts.sum).1)
  | .move m => at_ m.srcSel.toNat m.srcAddr.toNat m.size || at_ m.dstSel.toNat m.dstAddr.toNat m.size
  | _ => false

/-- Every Figure in flight that satisfies a test fails with a status (peers told). -/
def State.failWhere (s : State) (p : Nat → Flight → Bool) (status detail : Nat) : State :=
  overList (fun s c => overList (fun s f =>
    if f.done.isNone && p c f then s.failFlight c f.fid { status := status, detail := BitVec.ofNat 32 detail } else s) (s.ctx c).flights s)
    (s.ctxs.map (fun x => x.1)) s

/-- One extent enters Reclaiming: its accesses, those that wait at its cells too, complete poisoned, it leaves every window, and its host gets a lease event
(R345, R353, R407). -/
def State.reclaimOne (cause : Nat) (s : State) (e : Nat) : State :=
  let owner := (s.ext e).owner
  let s := s.modExt e (fun x => { x with state := .reclaiming, cause := cause, reclaimHall := if x.due then x.reclaimHall else s.hall, renewMs := none, due := false })
  let s := ((s.unmapAll e).failWhere (fun _ f => f.kind.uses s.engineId e) 0x22 s.engineId).cellsGo e
  match owner with
  | .host h => s.msix h 1
  | _ => s

/-- Extents are reclaimed: they enter Reclaiming at once and queue for the scrubber (R331, R353). -/
def State.reclaim (s : State) (cause : Nat) (es : List Nat) : State :=
  ((overList (State.reclaimOne cause) es s).queueScrub es).settleAll

/-- The notice of a reclaimed extent (R353, R515). -/
def reclaimNotice (e : Nat) (x : Extent) : List Byte :=
  let o := match x.owner with | .host h => (1, h) | .region r => (2, r) | _ => (0, 0)
  toLe 2 e ++ toLe 1 o.1 ++ toLe 1 o.2 ++ toLe 1 x.cause ++ toLe 1 (if x.quarantine then 1 else 0) ++ toLe 2 0 ++ toLe 8 x.reclaimHall.toNat

/-! ## Staging (R328, R360) -/

/-- An extent whose cell group is in service, out of service or under scan (R435, R464). -/
def State.extBusy (s : State) (e : Nat) : Bool :=
  s.svc.out.contains (2, e) || s.svc.jobs.any (fun j => j.unitClass == 2 && j.unitIndex == e) ||
  s.svc.scans.any (fun j => j.unitClass == 2 && j.units.contains e)

/-- The Free extents that can be taken, ascending. -/
def State.freeExts (s : State) : List Nat := s.usable.filter (fun e => (s.ext e).state == .free && !s.extBusy e)

/-- The lowest-numbered Free extent. -/
def State.lowestFree (s : State) : Option Nat := s.freeExts.head?

/-- An extent's place in the staging layout passes to another (R360). -/
def Cellar.replaceStaging (k : Cellar) (old new : Nat) : Cellar :=
  let f (e : Nat) : Nat := if e = old then new else e
  { k with staging := k.staging.map f, bellArea := k.bellArea.map f, replacing := k.replacing.filter (fun r => r.1 != old) }

/-- An extent leaves staging without a replacement (R360). -/
def Cellar.dropStaging (k : Cellar) (old : Nat) : Cellar :=
  { k with staging := k.staging.filter (fun e => e != old), bellArea := k.bellArea.filter (fun e => e != old) }

/-- A Figure waits on a Bell whose record lies in the extent. -/
def FlightKind.waitsIn (k : FlightKind) (e : Nat) : Bool :=
  match k with
  | .bellWait (.virt o) _ _ _ => extentOf o == e
  | .take (.virt o) _ _ => extentOf o == e
  | _ => false

/-- A staging extent that cannot be used any more is replaced, after the replacement's scrub, by the lowest-numbered Free
extent, or staging shrinks (R360). -/
def State.replaceStaging (s : State) (e : Nat) : State :=
  match s.lowestFree with
  | some r =>
    (({ s with cellar := { s.cellar with replacing := s.cellar.replacing ++ [(e, r)] } } : State).modExt r
      (fun x => { x with state := .staging, owner := .staging })).queueScrub [r]
  | none => { s with cellar := s.cellar.dropStaging e }

/-- A staging extent meets an uncorrectable error: it is quarantined at once, the collectives that use staging and the Figures
that wait on its Bells complete with 0x44, and its Bell blocks are freed (R360). -/
def State.stagingLost (s : State) (e : Nat) : State :=
  let unit := 0x02000000 + e
  let s := s.quarantineExt e
  let s := s.failWhere (fun _ f => f.kind.waitsIn e || (match f.kind with | .coll k => k.reserved | _ => false)) 0x44 unit
  let blocks := (s.cellar.blocks.map (fun b => b.1)).filter (fun o => extentOf o == e)
  let s := { s with cellar := blocks.foldl Cellar.freeBlock s.cellar }
  (s.replaceStaging e).settleAll

end Sys2Proof.Machine
end

