-- ==== Sys2Proof/Machine/SyncCounter.lean ====
section
/-! DEFINITION. The hall counter's sync (R315-R320) and the SYNC pins (R197, R319, R538-R541): the choice of sync source, the stamped
exchange, sync status, epoch edges and pulses, and the hard barrier wire. -/

namespace Sys2Proof.Machine

/-- The sync status code (R318). -/
def SyncStatus.code : SyncStatus → Nat
  | .unsynced => 0 | .synced => 1 | .slewing => 2 | .holdover => 3

/-- The sync status that a code names; none for a code outside the table (R318). -/
def syncStatusOf (n : Nat) : Option SyncStatus :=
  match n with
  | 0 => some .unsynced | 1 => some .synced | 2 => some .slewing | 3 => some .holdover | _ => none

/-! ## The sync source (R316) -/

/-- The depth that port `p`'s neighbour advertises, if it qualifies as a sync source (R316). -/
def State.qualifies (s : State) (p : Nat) : Option Nat :=
  match (s.port p).nbrStatus with
  | some (.synced, d, src) => if s.portUp p && d ≤ 2 && src.toNat != s.engineId then some d else none
  | _ => none

/-- The port of least depth among those that offer one, ties to the lowest: port and depth (R316). -/
def leastDepth (offers : Nat → Option Nat) : Option (Nat × Nat) :=
  (List.range 36).foldl (fun best p => match offers p, best with
    | some d, none => some (p, d)
    | some d, some (q, e) => if d < e then some (p, d) else some (q, e)
    | none, b => b) none

/-- The qualifying neighbour of least depth: port and depth (R316). -/
def State.bestSource (s : State) : Option (Nat × Nat) := leastDepth s.qualifies

/-- The depth that port `p`'s neighbour advertises, if it offers this engine a hall count in Syncing: a qualifying neighbour, or to the master one
in Holdover too (R66, R318). -/
def State.offersCount (s : State) (p : Nat) : Option Nat :=
  match s.qualifies p, (s.port p).nbrStatus with
  | some d, _ => some d
  | none, some (.holdover, d, _) => if s.master && s.portUp p then some d else none
  | none, _ => none

/-- The neighbour that gives this engine its hall count in Syncing (R66, R316). -/
def State.countSource (s : State) : Option (Nat × Nat) := leastDepth s.offersCount

/-- A follower that has been synced, and may pick a source. -/
def State.follows (s : State) : Bool := !s.master && s.sync.status != .unsynced

/-- A follower whose source no longer qualifies picks again at once; with none it enters Holdover. From Holdover it passes through
Slewing (R316, R318). -/
def State.syncPick (s : State) : State :=
  if !s.follows then s
  else match s.sync.source.bind s.qualifies with
    | some d => { s with sync := { s.sync with depth := d + 1 } }
    | none => match s.bestSource with
      | some (p, d) => { s with sync := { s.sync with
          source := some p, depth := d + 1, status := if s.sync.status = .holdover then .slewing else s.sync.status } }
      | none => { s with sync := { s.sync with source := none, status := .holdover } }

/-- Port `p` carries frames no longer: what its neighbour advertised is gone, and so is a source that lay there (R316). -/
def State.syncPortDown (s : State) (p : Nat) : State :=
  ({ s.modPort p (fun x => { x with nbrStatus := none }) with sync := { s.sync with requests := FMap.del s.sync.requests p } } : State).syncPick

/-! ## The exchange (R315, R369) -/

/-- The engine ID of this engine's sync source as it advertises it (R369). -/
def State.syncSourceId (s : State) : Nat :=
  if s.master && s.sync.status == .synced then s.engineId
  else match s.sync.source with
    | some p => (s.port p).farEngine.toNat
    | none => 0xFF

/-- A sync flit joins VC1 of port `p`; the port writes t3 as it leaves (R369). -/
def State.sendSync (s : State) (p : Nat) (reply : Bool) (q : Nat) (t1 t2 t3 : Nat) : State :=
  s.sendCtl p 0x13 [(2, 1, if reply then 1 else 0), (3, 1, s.sync.depth), (4, 1, s.sync.status.code), (5, 1, s.syncSourceId), (6, 2, q),
    (8, 8, t1), (16, 8, t2), (24, 8, t3)]

/-- A stamped request leaves on port `p`, unless the port recalibrates (R315, R383). -/
def State.askSync (s : State) (p : Nat) : State :=
  if (s.port p).recalibrating || !s.portUp p then s
  else ({ s with sync := { s.sync with requests := FMap.put s.sync.requests p (s.sync.exchangeSeq, s.hall) } } : State).sendSync p false
    s.sync.exchangeSeq.toNat s.now 0 0

/-- SYNC_EXCHANGE_TIMER: a follower sends a stamped request to its sync source; without one it asks every neighbour, to learn what they
advertise (R315, R316). -/
def execSyncExchangeTimer (s : State) : Out :=
  if s.master then .next s
  else
    let ps := match s.sync.source with | some p => [p] | none => List.range 36
    let s := overList State.askSync ps s
    .next { s with sync := { s.sync with exchangeSeq := s.sync.exchangeSeq + 1 } }

/-- The detail of the Unsynced record: the source's count minus its own, ns, saturating (R318). -/
def offsetDetail (offset2 : Int) : Nat :=
  let v := offset2 / 2
  (BitVec.ofInt 32 (if 0x7FFFFFFF < v then 0x7FFFFFFF else if v < -0x80000000 then -0x80000000 else v)).toNat

/-- The offset from the source on port `p` is known: the status follows, and the count slews by it (R315, R317, R318). Twice the
offset is exact in whole ns. -/
def State.judgeOffset (s : State) (p : Nat) (offset2 : Int) : State :=
  let n := offset2.natAbs
  let s := { s with sync := { s.sync with offset2 := offset2 } }
  if 2000000 < n then
    ({ s with sync := { s.sync with status := .unsynced } } : State).record
      { event := 0x0801, severity := 3, unitClass := 6, unitIndex := p, detail := offsetDetail offset2 }
  else { s with sync := { s.sync with status := if n ≤ 1 then .synced else .slewing } }

/-- SYNC_EXCHANGE: a request is answered; a reply of the sync source gives the offset (R315, R316, R318, R383). -/
def execSyncExchange (port : Fin 36) (flit : List Byte) (s : State) : Out :=
  let p := port.val
  if !s.portUp p then .next s
  else
    let s := s.modPort p (fun x => { x with creditReturn := listSet 0 x.creditReturn 1 (x.creditReturn.getD 1 0 + 1) })
    match ctlOk 0x13 flit && le flit 2 1 ≤ 1, syncStatusOf (le flit 4 1) with
    | true, some st =>
      let was := s.sync.source
      let s := s.modPort p (fun x => { x with nbrStatus := some (st, le flit 3 1, BitVec.ofNat 8 (le flit 5 1)) })
      let s := s.syncPick
      if le flit 2 1 = 0 then
        .next (if (s.port p).recalibrating then s else s.sendSync p true (le flit 6 2) (le flit 8 8) s.now 0)
      else match FMap.find s.sync.requests p with
        | some (q, t1) =>
          if q.toNat = le flit 6 2 ∧ t1.toNat = le flit 8 8 then
            let s := { s with sync := { s.sync with requests := FMap.del s.sync.requests p } }
            if was = some p ∧ s.sync.source = some p ∧ s.follows then
              .next (s.judgeOffset p (((le flit 16 8 : Nat) : Int) - t1.toNat - ((s.now : Int) - (le flit 24 8 : Nat))))
            else .next s
          else .next s
        | none => .next s
    | _, _ => .next (s.countPort p (fun k => { k with badControl := satInc k.badControl }))

/-! ## Epoch edges and pulses (R319, R539) -/

/-- The signed distance from a hall count to the nearest multiple of 2²⁰ (R319). -/
def epochError (t : Nat) : Int :=
  let r := t % 0x100000
  if r ≤ 0x80000 then r else (r : Int) - 0x100000

/-- EPOCH_PULSE: SYNC_OUT pulses at a multiple of 2²⁰, for 1,024 ns, once Ready, and until a halt makes the outputs inert (R60, R319, R459,
R539). -/
def execEpochPulse (s : State) : Out :=
  let t := BitVec.ofNat 64 ((s.now / 0x100000 + 1) * 0x100000)
  let s := if s.now % 0x100000 = 0 then s else s.reach t
  if s.syncUse 2 && !s.syncUse 1 && s.isReady && (s.halt.state == .running || s.halt.state == .halting) then
    .next { s with hearth := { s.hearth with syncOut := .high }, sync := { s.sync with pulseEnd := some (s.hall + 1024) } }
  else .next s

/-- SYNC_IN_EPOCH_EDGE: a rising edge in epoch use is latched once Ready, an error above 10 ns is counted, and in Holdover the count
slews toward the edge (R319). -/
def execSyncInEpochEdge (s : State) : Out :=
  if s.syncUse 0 && s.hearth.startup == .ready && s.counting then
    let e := epochError s.now
    .next { s with
      hearth := { s.hearth with epochErrors := if 10 < e.natAbs then satInc s.hearth.epochErrors else s.hearth.epochErrors },
      sync := { s.sync with epochLatch := s.hall,
                            offset2 := if s.sync.status = .holdover then -2 * e else s.sync.offset2 } }
  else .next s

/-! ## The hard barrier wire (R197, R538-R541) -/

/-- The first multiple of 1,024 at least 2,000 ns after a hall count (R197). -/
def wireTarget (t : Nat) : Word64 := BitVec.ofNat 64 (ceilDiv (t + 2000) 1024 * 1024)

/-- A wire BARRIER in flight without a completion count takes one. -/
def Flight.takeEdge (t : Word64) (f : Flight) : Flight :=
  if f.done.isSome then f
  else match f.kind with
    | .barrier g n q o none true => { f with kind := .barrier g n q o (some t) true }
    | _ => f

/-- SYNC_IN_WIRE_EDGE: an edge that arrives after this engine's SYNC_OUT has risen sets the completion count (R197, R540). -/
def execSyncInWireEdge (s : State) : Out :=
  if s.syncUse 1 && s.hearth.syncOut == .high && s.counting then
    let t := wireTarget s.now
    .next { s with ctxs := s.ctxs.map (fun (c, x) => (c, { x with flights := x.flights.map (Flight.takeEdge t) })) }
  else .next s

/-- The wire BARRIERs whose completion count is set: context, flight and count. -/
def State.wireWaits (s : State) : List (Nat × Nat × Word64) :=
  s.ctxs.flatMap (fun (c, x) => x.flights.filterMap (fun f =>
    match f.done, f.kind with
    | none, .barrier _ _ _ _ (some t) true => some (c, f.fid, t)
    | _, _ => none))

/-- WIRE_BARRIER_COMPLETE: the hall count reaches the wire barrier's completion count; the BARRIER completes and SYNC_OUT falls (R197,
R540). -/
def execWireBarrierComplete (s : State) : Out :=
  match s.wireWaits with
  | [] => .next s
  | (c, fid, t) :: _ => .next (((s.reach t).endFlight c fid doneOk).settle c)

end Sys2Proof.Machine
end

