-- ==== Sys2Proof/Machine/Census.lean ====
section
/-! DEFINITION. The census (R518-R525): queries, subtree replies, the result at the origin, and the commit that lets newly trained
links carry job traffic. -/

namespace Sys2Proof.Machine

/-- The start-up state code (R61). -/
def Startup.code : Startup → Nat
  | .reset => 0 | .loading => 1 | .locking => 2 | .scrubbing => 3 | .training => 4 | .syncing => 5 | .ready => 6
  | .bootFailed => 8 | .held => 9 | .haltedAtStart => 0xA

/-- The fabric-port state code (R390). -/
def PortState.code : PortState → Nat
  | .disabled => 0 | .idleUnused => 1 | .training => 2 | .upNoCensus => 3 | .up => 4 | .miswired => 5 | .down => 6 | .heldDown => 7

/-! ## Records (R523) -/

/-- A port's entry in a record of census `e`. -/
def FabPort.entry (x : FabPort) (e : Word64) : List Byte :=
  let up := (x.state == .up || x.state == .upNoCensus) && x.upTime.toNat < e.toNat
  toLe 1 (x.state.code + 16 * x.width + (if up then 128 else 0)) ++ toLe 1 x.farEngine.toNat ++ toLe 1 x.farPort.toNat ++ toLe 1 0

/-- This engine's record (R523). -/
def State.censusRecord (s : State) : CensusRec :=
  let k := s.census
  let flags := (if k.changed then 1 else 0) + (if k.missing then 2 else 0) + (if k.concurrent then 4 else 0)
  ⟨toLe 1 s.engineId ++ toLe 1 (if s.spine then 1 else 0) ++ toLe 2 s.hallId.toNat ++ toLe 1 s.hearth.startup.code ++
   toLe 1 s.sync.status.code ++ toLe 1 flags ++ toLe 1 (if k.isOrigin then 0xFF else k.parent) ++ toLe 8 s.hearth.mapDigest.toNat ++
   toLe 8 s.hearth.configDigest.toNat ++ toLe 4 s.hearth.fwVersion.toNat ++ toLe 4 0 ++
   (List.range 36).flatMap (fun p => (s.port p).entry k.epoch)⟩

/-- A record carries the changed, child-missing or concurrent flag (R521, R522). -/
def CensusRec.flagged (r : CensusRec) : Bool := le r.bytes 6 1 % 8 != 0

/-! ## Replies (R519-R522) -/

/-- The flits of a subtree reply (R369). -/
def replyFlits (self : Nat) (e : Word64) (rs : List CensusRec) : List (List Byte) :=
  ctlFlit 0x24 self [(2, 2, rs.length), (4, 8, e.toNat)] ::
  ((List.range rs.length).zip rs).flatMap (fun (i, r) => (List.range 3).map (fun j =>
    (ctlFlit 0x25 self [(2, 1, i), (3, 1, j)]).take 4 ++ slice r.bytes (60 * j) 60))

/-- The census of this engine is over: its subtree reply leaves on the parent port, or the origin has its result and sends census
done (R517, R520, R521). -/
def State.censusReply (s : State) : State :=
  let k := s.census
  let rs := s.censusRecord :: k.records
  if k.isOrigin then
    let flag := rs.any CensusRec.flagged
    ({ s with census := { k with active := false, done := true, resultEpoch := k.epoch, flag := flag, doneHall := s.hall, result := rs } } : State).sendEvent
      0x8005 (toLe 8 k.epoch.toNat ++ toLe 2 rs.length ++ toLe 1 (if flag then 1 else 0) ++ toLe 1 0)
  else
    overList (fun s f => if s.portUp k.parent then s.queue k.parent 2 3 f else s) (replyFlits s.engineId k.epoch rs)
      { s with census := { k with active := false } }

/-- Once no forwarded port is awaited, the reply leaves (R520). -/
def State.censusTry (s : State) : State := if s.census.active && s.census.waiting.isEmpty then s.censusReply else s

/-- The ports on which queries of census `e` are accepted and forwarded (R519). -/
def State.censusPorts (s : State) (e : Word64) : List Nat :=
  (List.range 36).filter (fun p => s.portUp p && (s.port p).upTime.toNat < e.toNat)

/-- This engine joins census `e`, and forwards its query on every other port (R518, R519). -/
def State.joinCensus (s : State) (e : Word64) (originId : Nat) (parent : Option Nat) : State :=
  let ps := (s.censusPorts e).filter (fun p => parent != some p)
  let k := s.census
  let s := { s with census := {
    active := true, took := true, epoch := e, isOrigin := parent.isNone, originId := BitVec.ofNat 8 originId, parent := parent.getD 0xFF,
    waiting := ps, forwardedAt := s.hall, done := k.done && parent.isSome, resultEpoch := k.resultEpoch, flag := k.flag, doneHall := k.doneHall,
    result := k.result } }
  (overList (fun s p => s.sendCtl p 0x20 [(2, 1, originId), (4, 8, e.toNat)]) ps s).censusTry

/-- A census flit arrives: it is taken if the engine is Ready, runs its firmware and the flit is well formed (R85, R88, R369, R522). -/
def State.censusIn (s : State) (p type : Nat) (f : List Byte) : State × Bool :=
  if !s.portUp p then (s, false)
  else if !s.isReady then (s.preReady p 2 1, false)
  else
    let s := s.returnCredits p 2 1
    if s.hearth.live.isSome then ({ s with hearth := { s.hearth with censusDropped := satInc s.hearth.censusDropped } }, false)
    else if !ctlOk type f then (s.badControl p, false)
    else (s, true)

/-- The epoch that a census flit carries. -/
def flitEpoch (f : List Byte) : Word64 := BitVec.ofNat 64 (le f 4 8)

/-- CENSUS_QUERY: a first query is joined, a repeat is answered with seen, another census with concurrent (R519, R522). -/
def execCensusQuery (port : Fin 36) (flit : List Byte) (s : State) : Out := s.fabricIn port.val (.censusQuery port flit) fun s =>
  let p := port.val
  let r := s.censusIn p 0x20 flit
  let s := r.1
  let e := flitEpoch flit
  if !r.2 || !(s.censusPorts e).contains p then .next s
  else if s.census.took && s.census.epoch == e then
    .next (({ s with census := { s.census with seenPorts := insertNat p s.census.seenPorts } } : State).sendCtl p 0x22 [(4, 8, e.toNat)])
  else if s.census.active then .next (s.sendCtl p 0x23 [(4, 8, e.toNat), (12, 8, s.census.epoch.toNat)])
  else if s.hearth.readyHall.toNat < e.toNat then .next (s.joinCensus e (le flit 2 1) (some p))
  else .next s

/-- A forwarded port has answered (R520). -/
def State.censusAnswered (s : State) (p : Nat) : State :=
  ({ s with census := { s.census with waiting := s.census.waiting.filter (fun q => q != p) } } : State).censusTry

/-- CENSUS_SEEN settles a forwarded port (R519, R520). -/
def execCensusSeen (port : Fin 36) (flit : List Byte) (s : State) : Out := s.fabricIn port.val (.censusSeen port flit) fun s =>
  let p := port.val
  let r := s.censusIn p 0x22 flit
  let s := r.1
  if r.2 && s.census.active && s.census.epoch == flitEpoch flit && s.census.waiting.contains p then
    .next (({ s with census := { s.census with seenPorts := insertNat p s.census.seenPorts } } : State).censusAnswered p)
  else .next s

/-- CENSUS_CONCURRENT sets the flag of the census that was asked for (R522). The port is not settled by it. -/
def execCensusConcurrent (port : Fin 36) (flit : List Byte) (s : State) : Out := s.fabricIn port.val (.censusConcurrent port flit) fun s =>
  let r := s.censusIn port.val 0x23 flit
  let s := r.1
  if r.2 && s.census.active && s.census.epoch == flitEpoch flit then .next { s with census := { s.census with concurrent := true } }
  else .next s

/-- The records of a well-formed subtree reply of an epoch: its header, and three parts for each record, in order (R369). -/
def replyRecords (e : Word64) (fs : List (List Byte)) : Option (List CensusRec) :=
  match fs with
  | [] => none
  | h :: ps =>
    let n := le h 2 2
    let partOk (i : Nat) (f : List Byte) : Bool := ctlOk 0x25 f && le f 2 1 == i / 3 && le f 3 1 == i % 3
    if ctlOk 0x24 h && flitEpoch h == e && 1 ≤ n && n ≤ 144 && ps.length == 3 * n && ((List.range ps.length).zip ps).all (fun (i, f) => partOk i f) then
      some ((List.range n).map (fun i => ⟨((List.range 3).flatMap (fun j => slice (ps.getD (3 * i + j) []) 4 60)).take 176⟩))
    else none

/-- CENSUS_SUBTREE_REPLY: the records of a child's subtree join this engine's (R520). -/
def execCensusSubtreeReply (port : Fin 36) (flits : List (List Byte)) (s : State) : Out := s.fabricIn port.val (.censusSubtreeReply port flits) fun s =>
  let p := port.val
  if !s.portUp p then .next s
  else if !s.isReady then .next (s.preReady p 2 flits.length)
  else
    let s := s.returnCredits p 2 flits.length
    if s.hearth.live.isSome then
      .next { s with hearth := { s.hearth with censusDropped := satAdd s.hearth.censusDropped flits.length } }
    else match replyRecords (flitEpoch (flits.headD [])) flits with
      | none => .next (s.badControl p)
      | some rs =>
        if s.census.active && s.census.epoch == flitEpoch (flits.headD []) && s.census.waiting.contains p then
          .next (({ s with census := { s.census with children := insertNat p s.census.children, records := s.census.records ++ rs } } : State).censusAnswered p)
        else .next s

/-- CENSUS_REPLY_TIMEOUT: 10 ms after forwarding, the ports that have not answered are missing (R520). -/
def execCensusReplyTimeout (s : State) : Out :=
  if s.census.active && !s.census.waiting.isEmpty then
    let s := s.reach (s.census.forwardedAt + 10000000)
    .next ({ s with census := { s.census with waiting := [], missing := true } } : State).censusReply
  else .next s

/-! ## The commit (R524) -/

/-- A port that the commit of the census moves to Up (R524). -/
def State.commitsPort (s : State) (p : Nat) : Bool :=
  let k := s.census
  (s.port p).state == .upNoCensus && (s.port p).upTime.toNat < k.epoch.toNat && !k.dropped.contains p &&
  (k.children.contains p || k.seenPorts.contains p || k.parent == p)

/-- Every engine below has applied the commit: the total goes up, or the origin's command completes (R512, R524). -/
def State.commitTry (s : State) : State :=
  let k := s.census
  if !k.committing || !k.commitWaiting.isEmpty then s
  else
    let s := { s with census := { k with committing := false } }
    if k.isOrigin then s.acceptAll (fun a => a.code == 0x42) 0x00 0
    else s.sendCtl k.parent 0x26 [(2, 2, k.commitCount), (4, 8, k.epoch.toNat)]

/-- The commit is applied here, and goes on down the census tree (R524). -/
def State.applyCommit (s : State) : State :=
  let k := s.census
  let s := { s with ports := s.ports.map (fun (p, x) => (p, if s.commitsPort p then { x with state := .up } else x)) }
  let kids := k.children.filter s.portUp
  let s := overList (fun s p => s.sendCtl p 0x21 [(2, 1, k.originId.toNat), (4, 8, k.epoch.toNat)]) kids s
  ({ s with census := { s.census with committing := true, commitWaiting := kids, commitCount := 1 } } : State).commitTry

/-- CENSUS_COMMIT_MESSAGE: an engine that took part applies the commit that comes from its parent, once (R524). -/
def execCensusCommitMessage (port : Fin 36) (flit : List Byte) (s : State) : Out := s.fabricIn port.val (.censusCommitMessage port flit) fun s =>
  let r := s.censusIn port.val 0x21 flit
  let s := r.1
  let k := s.census
  if r.2 && k.took && !k.active && !k.committing && !k.isOrigin && k.epoch == flitEpoch flit && k.parent == port.val then .next s.applyCommit
  else .next s

/-- CENSUS_COMMIT_DONE: a child's subtree has applied the commit (R524). -/
def execCensusCommitDone (port : Fin 36) (flit : List Byte) (s : State) : Out := s.fabricIn port.val (.censusCommitDone port flit) fun s =>
  let p := port.val
  let r := s.censusIn p 0x26 flit
  let s := r.1
  let k := s.census
  if r.2 && k.committing && k.epoch == flitEpoch flit && k.commitWaiting.contains p then
    .next ({ s with census := { k with commitWaiting := k.commitWaiting.filter (fun q => q != p), commitCount := k.commitCount + le flit 2 2 } } : State).commitTry
  else .next s

/-! ## Ports that come and go (R520, R521, R524) -/

/-- A port has entered Up, not in census (R521). -/
def State.censusPortUp (s : State) : State :=
  if s.census.active then { s with census := { s.census with changed := true } } else s

/-- Port `p` has left Up, or Up, not in census: it counts as changed, as dropped, and as missing if it was awaited (R520, R521,
R524). -/
def State.censusPortDown (s : State) (p : Nat) : State :=
  let k := s.census
  let awaited := k.active && k.waiting.contains p
  let k := { k with changed := k.changed || k.active, missing := k.missing || awaited, waiting := k.waiting.filter (fun q => q != p),
                    dropped := if k.took then insertNat p k.dropped else k.dropped, commitWaiting := k.commitWaiting.filter (fun q => q != p) }
  ({ s with census := k } : State).censusTry.commitTry

end Sys2Proof.Machine
end

