-- ==== Sys2Proof/Machine/Links.lean ====
section
/-! DEFINITION. Fabric links (chapter 13): frames sent and replayed (R365-R376), deficit round robin on VC0 (R224, R226), ports that go
down (R35, R390), training (R28, R377-R379, R389), and PLL recalibration (R380-R383). -/

namespace Sys2Proof.Machine

/-! ## Deficit round robin (R224, R226) -/

/-- The DRR weight in effect for a Suite's flows at their next round (R226). -/
def State.suiteWeight (s : State) (i : Nat) : Nat := ((s.suite i).weight).getD (s.suiteCfg i 10 1)

/-- The Suite of a flow: a group number's upper bits, or the Suite that owns the context of a MOVE flow. -/
def State.flowSuite (s : State) (f : Nat) : Option Nat := if f < 0x10000 then some (f / 256) else s.suiteOfCtx (f % 256)

/-- The bytes of the unit that starts with a VC0 flit, and its flits (R367). -/
def TxFlit.unitFlits (q : TxFlit) : Nat := if q.kind = 1 then le q.bytes 14 1 + 2 else 1

/-- The port without the first VC0 flit of a flow. -/
def FabPort.takeVc0 (x : FabPort) (f left : Nat) : FabPort :=
  { x with vc0 := x.vc0.eraseP (fun q => q.flow == f), vc0Now := if left ≤ 1 then none else some (f, left - 1) }

/-- A new round: every active flow's deficit grows by its quantum, at the weights now in effect (R224, R226). -/
def FabPort.newRound (x : FabPort) (weights : List Nat) (suiteOf : Nat → Option Nat) : FabPort :=
  let flows := (x.vc0.map (fun q => q.flow)).eraseDups
  let quantum (f : Nat) : Nat := 1024 * (match suiteOf f with | some i => max 1 (weights.getD i 1) | none => 1)
  { x with drrWeights := weights, drrRound := flows,
           drrDeficit := flows.foldl (fun m f => FMap.put m f (FMap.get 0 x.drrDeficit f + quantum f)) [] }

/-- The next VC0 flit, at packet boundaries by deficit round robin; `n` bounds the search (R224, R376). -/
def FabPort.pickVc0 (weights : List Nat) (suiteOf : Nat → Option Nat) : Nat → FabPort → Option (TxFlit × FabPort)
  | 0, _ => none
  | n + 1, x =>
    match x.vc0Now with
    | some (f, left) => (x.vc0.find? (fun q => q.flow == f)).map (fun q => (q, x.takeVc0 f left))
    | none => match x.drrRound with
      | [] => if x.vc0.isEmpty then none else FabPort.pickVc0 weights suiteOf n (x.newRound weights suiteOf)
      | f :: rest => match x.vc0.find? (fun q => q.flow == f) with
        | none => FabPort.pickVc0 weights suiteOf n { x with drrRound := rest, drrDeficit := FMap.del x.drrDeficit f }
        | some q =>
          let need := 64 * q.unitFlits
          if need ≤ FMap.get 0 x.drrDeficit f then
            some (q, { x with drrDeficit := FMap.put x.drrDeficit f (FMap.get 0 x.drrDeficit f - need) }.takeVc0 f q.unitFlits)
          else FabPort.pickVc0 weights suiteOf n { x with drrRound := rest }

/-! ## Frames (R365, R366, R372, R376) -/

/-- The far-end credits that the port holds on a virtual channel (R279). -/
def FabPort.credit (x : FabPort) (vc : Nat) : Nat := x.credits.getD vc 0
/-- The port with one credit spent. -/
def FabPort.spendCredit (x : FabPort) (vc : Nat) : FabPort := { x with credits := listSet 0 x.credits vc (x.credit vc - 1) }

/-- The flit that takes the next slot: VC1, VC3, VC2, VC0 in this order, VC2 at most once while VC0 has a packet (R376). VC0 carries
nothing before the census (R390). -/
def FabPort.pick (x : FabPort) (weights : List Nat) (suiteOf : Nat → Option Nat) (vc2Used : Bool) : Option (Nat × TxFlit × FabPort) :=
  match x.vc1 with
  | q :: l => if 0 < x.credit 1 then some (1, q, { x with vc1 := l }.spendCredit 1) else other x
  | [] => other x
where
  other (x : FabPort) : Option (Nat × TxFlit × FabPort) :=
    match x.vc3 with
    | q :: l => if 0 < x.credit 3 then some (3, q, { x with vc3 := l }.spendCredit 3) else low x
    | [] => low x
  low (x : FabPort) : Option (Nat × TxFlit × FabPort) :=
    match x.vc2 with
    | q :: l => if 0 < x.credit 2 && !(vc2Used && !x.vc0.isEmpty) then some (2, q, { x with vc2 := l }.spendCredit 2) else bulk x
    | [] => bulk x
  bulk (x : FabPort) : Option (Nat × TxFlit × FabPort) :=
    if (x.state == .up || x.draining) && 0 < x.credit 0 then
      (x.pickVc0 weights suiteOf (10 * (x.vc0.length + 1))).map (fun r => (0, r.1, r.2.spendCredit 0))
    else none

/-- Up to `n` slots of a frame: descriptors, flits, and the port after them. -/
def FabPort.fill (weights : List Nat) (suiteOf : Nat → Option Nat) : Nat → Bool → FabPort → List (Nat × TxFlit) × FabPort
  | 0, _, x => ([], x)
  | n + 1, used, x =>
    match x.pick weights suiteOf used with
    | none => ([], x)
    | some (vc, q, y) =>
      let r := FabPort.fill weights suiteOf n (used || vc == 2) y
      ((vc, q) :: r.1, r.2)

/-- The descriptor of a slot (R366); an empty slot's is a control flit's. -/
def slotDescriptor (l : List (Nat × TxFlit)) (i : Nat) : Nat :=
  match l[i]? with
  | some (vc, q) => vc + 4 * q.kind
  | none => 12

/-- A frame's bytes with its check (R366). -/
def sealFrame (head body : List Byte) : List Byte :=
  let h := head.take 60
  h ++ toLe 4 (crc32c (h ++ body)).toNat ++ body

/-- A frame: sequence, ack, flags, slots and credit return (R365, R366). -/
def frameOf (seq ack flags : Nat) (l : List (Nat × TxFlit)) (ret : List Nat) : List Byte :=
  let desc := ((List.range 12).map (fun i => slotDescriptor l i * 16 ^ i)).sum
  let creds := ((List.range 4).map (fun i => ret.getD i 0 * 32 ^ i)).sum
  let body := (List.range 12).flatMap (fun i => match l[i]? with | some (_, q) => slice q.bytes 0 64 | none => fields 64 [])
  sealFrame (fields 64 [(0, 2, seq), (2, 2, ack), (4, 1, flags), (6, 6, desc), (12, 4, creds)]) body

/-- A frame of the replay buffer as it goes again: its own sequence, slots and credits, with the flags and ack of now (R372). -/
def restamp (b : List Byte) (ack flags : Nat) : List Byte :=
  sealFrame (b.take 2 ++ toLe 2 ack ++ toLe 1 flags ++ (b.drop 5).take 55) (b.drop 64)

/-- The flags of the next frame: NAK, PAUSE, RESYNC (R366, R372, R383). -/
def FabPort.flags (x : FabPort) : Nat := (if x.nak then 1 else 0) + (if x.recalibrating then 2 else 0) + (if x.resync then 4 else 0)

/-- Once a frame has left: its flags are spent, and it counts as sent (R391). -/
def FabPort.left (x : FabPort) (b : List Byte) : FabPort :=
  { x with nak := false, resync := false, pauseSent := x.recalibrating, sent := b,
           cnt := { x.cnt with framesSent := if x.draining then x.cnt.framesSent else x.cnt.framesSent + 1 } }

/-- The virtual channels with a unit ready and no credit, counted once a frame (R391). -/
def FabPort.countStarved (x : FabPort) : FabPort :=
  let st (q : List TxFlit) (vc : Nat) (w : Word32) : Word32 := if !q.isEmpty && x.credit vc = 0 then satInc w else w
  { x with cnt := { x.cnt with starved0 := st x.vc0 0 x.cnt.starved0, starved1 := st x.vc1 1 x.cnt.starved1,
                               starved2 := st x.vc2 2 x.cnt.starved2, starved3 := st x.vc3 3 x.cnt.starved3 } }

/-- A flit as it leaves at hall count `now`: the port writes the send stamp t3 of a sync reply (R369). -/
def TxFlit.stamped (q : TxFlit) (now : Word64) : TxFlit :=
  if le q.bytes 0 1 = 0x13 ∧ le q.bytes 2 1 = 1 then { q with bytes := q.bytes.take 24 ++ toLe 8 now.toNat ++ q.bytes.drop 32 } else q

/-- The next frame leaves: one to be sent again, an idle frame where there is nothing to carry or no room to keep one, or a new one
(R365, R366, R372). An idle frame carries the last sequence, is not kept, and returns no credit. -/
def FabPort.emit (x : FabPort) (weights : List Nat) (suiteOf : Nat → Option Nat) (now : Word64) : FabPort :=
  let x := x.countStarved
  let ack := x.rxSeq.toNat
  let idle (x : FabPort) : FabPort := x.left (frameOf (x.txSeq - 1).toNat ack (x.flags + 8) [] [])
  match x.resend with
  | q :: rest => match x.replayBuf.find? (fun f => f.seq == q) with
    | some f => { x with resend := rest }.left (restamp f.bytes ack x.flags)
    | none => idle { x with resend := rest }
  | [] =>
    if 128 ≤ x.replayBuf.length then idle x
    else
      let r := x.fill weights suiteOf 12 false
      let ret := (List.range 4).map (fun i => min 16 (x.creditReturn.getD i 0))
      if r.1.isEmpty && ret.all (fun n => n == 0) then idle x
      else
        let b := frameOf x.txSeq.toNat ack x.flags (r.1.map (fun (vc, q) => (vc, if q.kind = 3 then q.stamped now else q))) ret
        let y : FabPort := { r.2 with
                   creditReturn := (List.range 4).map (fun i => x.creditReturn.getD i 0 - ret.getD i 0),
                   replayBuf := x.replayBuf ++ [{ seq := x.txSeq, bytes := b }], txSeq := x.txSeq + 1,
                   lastUnit := if r.1.isEmpty then x.lastUnit else some now }
        y.left b

/-! ## Ports that go down (R35, R390) -/

/-- A flight's listed routes include port `p` (R34, R35). -/
def State.lists (s : State) (p : Nat) (f : Flight) : Bool :=
  match f.kind with
  | .move m => (m.srcEngine != s.engineId && (s.routes m.srcEngine).contains p) || (m.dstEngine != s.engineId && (s.routes m.dstEngine).contains p)
  | k => match s.flightEntry k with | some e => (gePortsAll e).contains p | none => false

/-- The groups that a context has used since START list port `p` (R34, R35). -/
def State.ctxLists (s : State) (p c : Nat) : Bool :=
  (s.ctx c).groups.any (fun g => match (s.grp g).entry with | some e => (gePortsAll e).contains p | none => false)

/-- The link's own state is gone: queues, frames, credits and what was being received (R280, R302). -/
def FabPort.linkGone (x : FabPort) (tgt : PortState) : FabPort :=
  { state := tgt, farEngine := x.farEngine, farPort := x.farPort, farHall := x.farHall, upTime := x.upTime, heldByHalt := x.heldByHalt,
    failedBefore := x.failedBefore, cnt := x.cnt }

/-- Figures whose routes list port `p` complete with link lost, and the Cards of the contexts that used such groups stop (R35). -/
def State.routesLost (s : State) (p : Nat) : State :=
  let d := s.engineId * 256 + p
  let s := s.failWhere (fun _ f => s.lists p f) 0x30 d
  let s := overList (fun s c => if s.ctxLists p c && (s.ctx c).live then s.modCtx c (fun x => x.failStop 0x30) else s) (s.ctxs.map (fun x => x.1)) s
  s.settleAll

/-- Port `p` leaves Up or Up, not in census: jobs that list it stop, packets queued for it are dropped, what was formed from chunks
that were arriving on it is retracted, the sync source is picked
afresh, and a census in progress takes note (R35, R316, R390, R520). -/
def State.leaveUpAs (s : State) (p : Nat) (f : FabPort → FabPort) : State :=
  let s := s.modPort p f
  let s := { s with outs := s.outs.filter (fun o => o.port != some p || o.owner.isSome), droppedChunks := s.droppedChunks.filter (fun d => d.port != p) }
  let s := overList (fun s l => (s.loseRings l.name).dropLane l) (s.lanes.filter (fun l => l.port == p)) s
  let s := (s.routesLost p).syncPortDown p
  { s with outs := s.outs.filter (fun o => o.port != some p) }.censusPortDown p

/-- Port `p` leaves Up or Up, not in census, and its link is gone. -/
def State.leaveUp (s : State) (p : Nat) (tgt : PortState) : State := s.leaveUpAs p (fun x => x.linkGone tgt)

/-- Port `p` sends and acknowledges frames: it is Up, or drains (R390, R466). -/
def State.linkOn (s : State) (p : Nat) : Bool := s.portUp p || (s.port p).draining

/-- The record of a port that is Down: the first failure writes it, later ones of the same outage do not (R379). -/
def State.downRecord (s : State) (p : Nat) : State :=
  if (s.port p).failedBefore then s
  else (s.modPort p (fun x => { x with failedBefore := true })).record { event := 0x0401, severity := 3, unitClass := 6, unitIndex := p }

/-- Port `p` goes Down (R375, R381, R383, R388, R390). -/
def State.portDown (s : State) (p : Nat) : State := if s.portUp p then (s.leaveUp p .down).downRecord p else s

/-- Port `p` leaves whatever it was in for Held down or electrical idle (R390). -/
def State.portTo (s : State) (p : Nat) (tgt : PortState) : State :=
  if s.portUp p then s.leaveUp p tgt else s.modPort p (fun x => x.linkGone tgt)

/-! ## Replay (R372-R375) -/

/-- The group of a barrier flit that waits on VC1 (R369). -/
def TxFlit.barrierGroup (q : TxFlit) : Option Nat :=
  if le q.bytes 0 1 = 0x10 ∨ le q.bytes 0 1 = 0x11 then some (le q.bytes 2 2) else none

/-- The context of this engine whose ring waits in a flit on VC0 (R369). -/
def State.ringOwner (s : State) (q : TxFlit) : Option Nat :=
  if q.kind = 3 && le q.bytes 0 1 == 2 && le q.bytes 1 1 == s.engineId then some (le q.bytes 2 1) else none

/-- The contexts whose barrier flits or rings wait to be sent on port `p`. -/
def State.controlsOn (s : State) (p : Nat) : List Nat :=
  let x := s.port p
  let gs := x.vc1.filterMap TxFlit.barrierGroup
  (s.ctxs.filter (fun (_, y) => y.flights.any (fun f => f.done.isNone &&
    (match f.kind with | .barrier g _ _ _ _ _ => gs.contains g | _ => false)))).map (fun y => y.1) ++ x.vc0.filterMap s.ringOwner

/-- The contexts whose Figures a replay on port `p` delays: those with chunks, barrier flits or rings on it (R324). -/
def State.delayedBy (s : State) (p : Nat) : List Nat :=
  (s.outs.filterMap (fun o => if o.port = some p then o.owner.map (fun w => w.1) else none)) ++ s.controlsOn p

/-- Flits of a chunk wait on port `p`, or it carries the ordered mark and waits for that port (R380, R384). -/
def State.waitsOn (s : State) (p : Nat) (o : OutChunk) : Bool :=
  (o.port == some p && (s.port p).vc0.any (fun q => q.flow == flowKey o.isMove o.flow o.formedBy)) ||
  (o.port.isNone && o.ordered && o.mask.head? == some p && (o.bytes.isSome || !o.pieces.isEmpty))

/-- The contexts whose Figures a recalibration of port `p` has delayed (R324, R380). -/
def State.heldUpBy (s : State) (p : Nat) : List Nat :=
  (s.outs.filterMap (fun o => if s.waitsOn p o then o.owner.map (fun w => w.1) else none)) ++ s.controlsOn p

/-- Contexts count a timing disturbance, each once (R324). -/
def State.disturbAll (s : State) (cs : List Nat) : State := overList (fun s c => s.disturb (some (c, 0))) cs.eraseDups s

/-- Every unacknowledged frame goes again; a frame replayed 4 times, or more than 1,000 replays in 1 s, takes the port Down (R372,
R375). -/
def State.replay (s : State) (p : Nat) : State :=
  let x := s.port p
  if x.replayBuf.isEmpty then s
  else
    let buf := x.replayBuf.map (fun f => { f with replays := f.replays + 1 })
    let hist := x.replayHist.filter (fun t => s.now - t.toNat < 1000000000) ++ [s.hall]
    let s := (s.putPort p { x with replayBuf := buf, resend := buf.map (fun f => f.seq), replayHist := hist,
                                   cnt := { x.cnt with replays := satInc x.cnt.replays } }).disturbAll (s.delayedBy p)
    if buf.any (fun f => 4 ≤ f.replays) || 1000 < hist.length then s.portDown p else s

/-- REPLAY_TIMEOUT: the ack has not advanced for 2 µs with frames unacknowledged (R373). -/
def execReplayTimeout (port : Fin 36) (s : State) : Out :=
  let p := port.val
  if s.linkOn p && !(s.port p).replayBuf.isEmpty then
    .next ((s.countPort p (fun k => { k with replayTimeouts := satInc k.replayTimeouts })).replay p)
  else .next s

/-- LINK_FAILURE_DETECTED: a lane's error ratio, a lost clock lock, or no valid frame takes the port Down (R388). -/
def execLinkFailureDetected (port : Fin 36) (s : State) : Out := .next (s.portDown port.val)

/-! ## Training (R28, R377-R379, R389, R390) -/

/-- A port trains again (R379, R390). -/
def State.retrain (s : State) (p : Nat) : State :=
  (s.modPort p (fun x => x.linkGone .training)).countPort p (fun k => { k with retrains := satInc k.retrains })

/-- Links train from the Training phase on: until then, while halted at start, and in Banked, every port stays in electrical idle (R49, R60,
R63, R84). -/
def State.linksTrain (s : State) : Bool :=
  (s.hearth.startup == .training || s.hearth.startup == .syncing || s.hearth.startup == .ready) && s.hearth.power != .banked

/-- A Down port's retry, or training patterns from its far end; during a live restart it stays Down (R88, R379). -/
def State.retryPort (s : State) (p : Nat) : State :=
  if (s.port p).state == .down && s.linksTrain && s.hearth.live.isNone then s.retrain p else s

/-- PORT_RETRY_TIMER (R379). -/
def execPortRetryTimer (port : Fin 36) (s : State) : Out := .next (s.retryPort port.val)

/-- TRAINING_PATTERN_DETECTED (R379). -/
def execTrainingPatternDetected (port : Fin 36) (s : State) : Out := .next (s.retryPort port.val)

/-- Training fails: the port is Down, and the failure is counted (R379, R390). -/
def State.trainFailed (s : State) (p : Nat) : State :=
  ((s.modPort p (fun x => x.linkGone .down)).countPort p (fun k => { k with trainingFailures := satInc k.trainingFailures })).downRecord p

/-- The lanes on which both ends train: all four, else lanes 0 and 1, else lanes 2 and 3 (R378, R389). -/
def trainLanes (mine far : BitVec 4) : Option (BitVec 4) :=
  let both := mine &&& far
  if both = 0xF then some 0xF else if both &&& 0x3 = 0x3 then some 0x3 else if both &&& 0xC = 0xC then some 0xC else none

/-- The credits that a receiver advertises on VC0 through VC3 (R56, R279). -/
def advertisement : List Nat := [1024, 32, 32, 32]

/-- TRAINING_COMPLETE: the port is Up, not in census, Miswired, or Down (R28, R279, R378, R389). -/
def execTrainingComplete (port : Fin 36) (res : TrainResult) (s : State) : Out :=
  let p := port.val
  if (s.port p).state != .training then .next s
  else match res with
    | .failed => .next (s.trainFailed p)
    | .ok hall engine fport mine far credits =>
      let s := s.modPort p (fun x => { x with farHall := hall, farEngine := engine, farPort := fport })
      if !(hall == s.hallId && s.wired p == some (engine.toNat, fport.toNat)) then
        let s := { s.modPort p (fun x => x.linkGone .miswired) with hearth := { s.hearth with miswired := satInc s.hearth.miswired } }
        .next (s.record { event := 0x0402, severity := 3, unitClass := 6, unitIndex := p,
                          detail := hall.toNat + engine.toNat * 2 ^ 16 + fport.toNat * 2 ^ 24 })
      else match trainLanes mine far with
        | none => .next (s.trainFailed p)
        | some lanes => .next (s.modPort p (fun x =>
          { x.linkGone .upNoCensus with width := if lanes = 0xF then 4 else 2, lanes := lanes, upTime := s.hall,
                                        credits := (List.range 4).map (fun i => credits.getD i 0), advertised := advertisement,
                                        failedBefore := false })).censusPortUp

/-! ## PLL recalibration (R380-R383) -/

/-- Traffic is present on a port (R382). -/
def State.traffic (s : State) (p : Nat) : Bool :=
  let x := s.port p
  !(x.vc0.isEmpty && x.vc1.isEmpty && x.vc2.isEmpty && x.vc3.isEmpty) ||
  (match x.lastUnit with | some t => s.now - t.toNat ≤ 10000 | none => false)

/-- A recalibration begins: the next frame carries PAUSE, and the transmitter stops behind it (R380, R383). -/
def State.startRecal (s : State) (p : Nat) : State :=
  s.modPort p (fun x => { x with recalibrating := true, pauseSent := false, recalDue := false,
                                 cnt := { x.cnt with recalibrations := satInc x.cnt.recalibrations } })

/-- RECALIBRATION_DUE: it runs with no traffic present, else it is deferred, counted once (R382). -/
def execRecalibrationDue (port : Fin 36) (s : State) : Out :=
  let p := port.val
  let x := s.port p
  if !s.portUp p || x.recalibrating then .next s
  else if !s.traffic p then .next (s.startRecal p)
  else if x.recalDue then .next s
  else .next ((s.modPort p (fun x => { x with recalDue := true })).countPort p (fun k => { k with deferrals := satInc k.deferrals }))

/-- RECALIBRATION_FORCED: deferred for 1 s, it runs all the same (R382). The contexts that it has delayed count it when it ends (R324). -/
def execRecalibrationForced (port : Fin 36) (s : State) : Out :=
  let p := port.val
  if s.portUp p && (s.port p).recalDue then
    .next (((s.startRecal p).countPort p (fun k => { k with forced := satInc k.forced })).modPort p (fun x => { x with recalForced := true }))
  else .next s

/-- PLL_SETTLED: a RESYNC frame follows, and the stream goes on (R383); a forced pause has delayed the Figures whose units waited for it
(R324). -/
def execPllSettled (port : Fin 36) (s : State) : Out :=
  let p := port.val
  if s.portUp p && (s.port p).recalibrating then
    let s := if (s.port p).recalForced then s.disturbAll (s.heldUpBy p) else s
    .next (s.modPort p (fun x => { x with recalibrating := false, recalForced := false, pauseSent := false, resync := true }))
  else .next s

/-- PLL_SETTLE_TIMEOUT: a PLL that has not settled in 200 µs fails the port (R381, R390). -/
def execPllSettleTimeout (port : Fin 36) (s : State) : Out :=
  let p := port.val
  if (s.port p).state == .training then .next (s.trainFailed p)
  else if (s.port p).recalibrating then .next (s.portDown p)
  else .next s

/-- RESYNC_TIMEOUT: no RESYNC within 200 µs of PAUSE (R383). -/
def execResyncTimeout (port : Fin 36) (s : State) : Out :=
  let p := port.val
  if (s.port p).pauseSeen then .next (s.portDown p) else .next s

/-! ## The transmitters' time (R365, R382) -/

/-- The time of one frame in 1/100 ns: 8.32 ns on four lanes, twice that at half width (R365, R389). -/
def FabPort.frameTime (x : FabPort) : Nat := if x.width = 2 then 1664 else 832

/-- One count passes at port `p`: a frame leaves each frame time unless a recalibration has stopped the transmitter, and a deferred
recalibration runs once traffic has paused (R365, R380, R382, R389). -/
def State.portTick (s : State) (p : Nat) : State :=
  if !s.linkOn p then s
  else
    let s := if (s.port p).recalDue && !s.traffic p then s.startRecal p else s
    let x := s.port p
    let ph := x.framePhase + 100
    if ph < x.frameTime then s.putPort p { x with framePhase := ph }
    else if x.recalibrating && x.pauseSent then s.putPort p { x with framePhase := ph - x.frameTime }
    else s.putPort p ({ x with framePhase := ph - x.frameTime }.emit ((List.range 16).map s.suiteWeight) s.flowSuite s.hall)

/-- One count of the hall counter passes: the ports send, and answers to remote rings arrive. -/
def State.tick (s : State) : State :=
  if s.counting then (overList State.portTick (List.range 36) (s.elapse 1)).ringsAnswered else s

end Sys2Proof.Machine
end

