-- ==== Sys2Proof/Machine/Frames.lean ====
section
/-! DEFINITION. A frame that arrives (R365-R376): its check and sequence, what its header says, and the dispatch of its slots to the
commands that their flits are. -/

namespace Sys2Proof.Machine

/-- The state a command leaves; a command that stops leaves none of its own. -/
def stateAfter (s : State) : Out → State
  | .next t => t
  | _ => s

/-- What rides beside a chunk whose seal came in a raw frame: no byte of the seal carries it. -/
def sealAux (f : List Byte) : ChunkAux :=
  let b := Config.chunkBody (le f 0 2) (le f 23 1) (le f 40 8) (le f 4 4)
  { src := b.1, dst := b.2, lateEngine := Config.sealEngine f, lateHall := Config.sealLate f, earlyHall := Config.sealEarly f,
    lowest := Config.sealLowest f, infIn := Config.sealInf f, ovf := Config.sealOvf f, sat := Config.sealSat f }

/-- A whole packet has come: header flit, then body flits (R367). -/
def State.packetDone (s : State) (port : Fin 36) (fs : List (List Byte)) : State :=
  let h := fs.headD []
  let b := Config.chunkBody (le h 2 2) (le h 1 1) (le h 24 8) (le h 6 4)
  stateAfter s (execPacketReceived port h (fs.drop 1).flatten b.1 b.2 s)

/-- A header or body flit of VC0 (R367): a packet cut off by another header is dropped, and so is a body flit without a header; their
credits return. -/
def State.packetFlit (s : State) (port : Fin 36) (head : Bool) (f : List Byte) : State :=
  let p := port.val
  let part := (s.port p).rxPacket
  if head then (s.returnCredits p 0 part.length).modPort p (fun x => { x with rxPacket := [f] })
  else if part.isEmpty then s.returnCredits p 0 1
  else if part.length < le (part.headD []) 14 1 + 1 then s.modPort p (fun x => { x with rxPacket := part ++ [f] })
  else (s.modPort p (fun x => { x with rxPacket := [] })).packetDone port (part ++ [f])

/-- A flit of a census subtree reply: it is put together with the others of its reply (R369). -/
def State.replyFlit (s : State) (port : Fin 36) (head : Bool) (f : List Byte) : State :=
  let p := port.val
  let part := (s.port p).rxReply
  if head then (s.returnCredits p 2 part.length).modPort p (fun x => { x with rxReply := [f] })
  else if part.isEmpty then (s.returnCredits p 2 1).badControl p
  else if part.length < 3 * le (part.headD []) 2 2 then s.modPort p (fun x => { x with rxReply := part ++ [f] })
  else
    let s := s.modPort p (fun x => { x with rxReply := [] })
    stateAfter s (execCensusSubtreeReply port (part ++ [f]) s)

/-- A control flit is what its type says, on the channel that the type travels on; type 0x00 is an empty slot (R366, R368). -/
def State.controlFlit (s : State) (port : Fin 36) (vc : Nat) (f : List Byte) : State :=
  let t := le f 0 1
  if t = 0 then s
  else if ctlVC t ≠ some vc then (s.returnCredits port.val vc 1).badControl port.val
  else match t with
    | 0x01 => stateAfter s (execRetractMarker port f s)
    | 0x02 => stateAfter s (execRemoteBellRing port f s)
    | 0x08 => stateAfter s (execChunkAck port f s)
    | 0x09 => stateAfter s (execResendRequest port f s)
    | 0x10 => stateAfter s (execBarrierArrival port f s)
    | 0x11 => stateAfter s (execBarrierRelease port f s)
    | 0x12 => stateAfter s (execPeerAbort port f s)
    | 0x13 => stateAfter s (execSyncExchange port f s)
    | 0x20 => stateAfter s (execCensusQuery port f s)
    | 0x21 => stateAfter s (execCensusCommitMessage port f s)
    | 0x22 => stateAfter s (execCensusSeen port f s)
    | 0x23 => stateAfter s (execCensusConcurrent port f s)
    | 0x24 => s.replyFlit port true f
    | 0x25 => s.replyFlit port false f
    | 0x26 => stateAfter s (execCensusCommitDone port f s)
    | _ => s

/-- One payload slot: its virtual channel and kind come from its descriptor (R366). A data flit outside VC0 is dropped. -/
def State.slotIn (port : Fin 36) (s : State) (x : Nat × List Byte) : State :=
  if !s.portUp port.val then s else
  -- Any flit but a hall-counter sync exchange or an empty slot wakes a dozing engine (R44).
  let s := if x.1 / 4 = 3 && (le x.2 0 1 == 0 || le x.2 0 1 == 0x13) then s else s.wake
  let vc := x.1 % 4
  let kind := x.1 / 4
  if kind = 3 then s.controlFlit port vc x.2
  else if vc ≠ 0 then s.returnCredits port.val vc 1
  else if kind = 2 then stateAfter s (execSealReceived port x.2 (sealAux x.2) s)
  else s.packetFlit port (kind == 1) x.2

/-- The slots of a frame: descriptor and flit. -/
def frameSlots (b : List Byte) : List (Nat × List Byte) :=
  (List.range 12).map (fun i => (le b 6 6 / 16 ^ i % 16, slice b (64 + 64 * i) 64))

/-- The frame check holds (R366). -/
def frameCheck (b : List Byte) : Bool := (crc32c (b.take 60 ++ b.drop 64)).toNat == le b 60 4

/-- Frame `q` is at or before `a`, in serial order. -/
def seqAtOrBefore (q a : BitVec 16) : Bool := (a - q).toNat < 0x8000

/-- Frames acknowledged leave the replay buffer (R372). -/
def FabPort.acked (x : FabPort) (a : BitVec 16) : FabPort :=
  { x with replayBuf := x.replayBuf.filter (fun f => !seqAtOrBefore f.seq a), resend := x.resend.filter (fun q => !seqAtOrBefore q a) }

/-- Credits that the far end returns (R279, R366). -/
def FabPort.credited (x : FabPort) (v : Nat) : FabPort :=
  { x with credits := (List.range 4).map (fun i => x.credits.getD i 0 + v / 32 ^ i % 32) }

/-- A frame that cannot be taken: it is discarded, and NAK goes out once with the last good sequence; later frames are discarded up to
the replay (R372). -/
def FabPort.refuse (x : FabPort) : FabPort := { x with nak := x.nak || !x.discarding, discarding := true }

/-- A frame that is intact and in order takes effect: ack, credits, PAUSE, RESYNC, its slots, and a NAK for this end (R366, R372,
R383). -/
def State.frameIn (s : State) (port : Fin 36) (b : List Byte) : State :=
  let p := port.val
  let fl := le b 4 1
  let idle := bit fl 3
  let s := s.modPort p (fun x =>
    { (x.acked (BitVec.ofNat 16 (le b 2 2))).credited (if idle then 0 else le b 12 4) with
      rxSeq := BitVec.ofNat 16 (le b 0 2), discarding := false, pauseSeen := (x.pauseSeen || bit fl 1) && !bit fl 2 })
  let s := if bit fl 0 then s.replay p else s
  if idle then s else overList (State.slotIn port) (frameSlots b) s

/-- FRAME_RECEIVED: an NFP frame arrives (R365, R366, R372, R391). The frame of a port that carries none is lost;
a port that drains takes no slot's content (R466). What is not 13 slots of 64 bytes is a frame that is not intact. -/
def execFrameReceived (port : Fin 36) (frame : List Byte) (fecOk : Bool) (corrected : Nat) (s : State) : Out :=
  let p := port.val
  if !s.linkOn p then .next s
  else
    let s := s.countPort p (fun k => { k with fecCorrected := k.fecCorrected + BitVec.ofNat 64 corrected })
    if !fecOk || frame.length != 832 then
      .next ((s.countPort p (fun k => { k with fecUncorrectable := satInc k.fecUncorrectable })).modPort p FabPort.refuse)
    else if !frameCheck frame then .next (s.modPort p FabPort.refuse)
    else
      let s := s.countPort p (fun k => { k with framesReceived := if s.portUp p then k.framesReceived + 1 else k.framesReceived })
      let x := s.port p
      let seq := BitVec.ofNat 16 (le frame 0 2)
      -- An idle frame carries the sequence of the last frame before it; any other frame carries the next one.
      if seq = (if bit (le frame 4 1) 3 then x.rxSeq else x.rxSeq + 1) then .next (s.frameIn port frame)
      else .next (s.modPort p FabPort.refuse)

end Sys2Proof.Machine
end

