-- ==== Sys2Proof/Machine/CellarTimers.lean ====
section
/-! DEFINITION. The Cellar's timers: lease ticks and expiry (R344, R350-R353), scrub batches (R331-R333), cell-group power (R329,
R330), patrol (R357-R359, R416, R447) and the Attic's fault log (R423). -/

namespace Sys2Proof.Machine

/-! ## LEASE and the lease tick (R344, R350, R351, R354) -/

/-- LEASE: a renewal that the next lease tick applies (R351). -/
def execLease (host : Fin 16) (value : Word32) (s : State) : Out := s.hostIn host.val (.lease host value) fun s =>
  .next (s.bar0 host.val false (fun s => s.modHost host.val (fun x => { x with renewals := x.renewals ++ [value] })))

/-- The time left that a renewal sets, in ms: the lesser of the request and the lease length; 0 asks for all of it (R351). -/
def renewedMs (secs leaseS : Nat) : Nat := 1000 * (if secs = 0 then leaseS else min secs leaseS)

/-- An extent that host `h` may renew: Granted and its own (R351). -/
def Extent.renewable (x : Extent) (h : Nat) : Bool := x.state == .granted && decide (x.owner = .host h)

/-- One renewal of a host is applied, or ignored and counted (R351). -/
def State.applyRenewal (s : State) (h : Nat) (v : Word32) : State :=
  let secs := bits v.toNat 31 16
  let slots := if bit v.toNat 15 then (s.host h).window.map (fun w => w.2) else ((FMap.find (s.host h).window (bits v.toNat 9 0)).toList)
  let es := slots.filter (fun e => (s.ext e).renewable h)
  if es.isEmpty then s.modHost h (fun x => { x with renewalsIgnored := satInc x.renewalsIgnored })
  else overList (fun s e => s.modExt e (fun x => { x with leftMs := renewedMs secs x.leaseS, fresh := true })) es s

/-- The renewals of every host, in arrival order, and those of the fabric manager (R351). -/
def State.applyRenewals (s : State) : State :=
  let s := overList (fun s h => (overList (fun s v => s.applyRenewal h v) (s.host h).renewals s).modHost h (fun x => { x with renewals := [] }))
    (s.hosts.map (fun x => x.1)) s
  { s with cellar := { s.cellar with
      extents := s.cellar.extents.map (fun (e, x) => (e, match x.renewMs with | some m => { x with leftMs := m, renewMs := none, fresh := true } | none => x)),
      regions := s.cellar.regions.map (fun (r, x) => (r, match x.renewMs with | some m => { x with leftMs := m, renewMs := none, fresh := true } | none => x)) } }

/-- A staged rights list takes effect; a host that has lost its entry loses the region's slots (R344). -/
def State.applyRights (s : State) (r : Nat) : State :=
  match FMap.find s.cellar.regions r with
  | none => s
  | some x => match x.staged with
    | none => s
    | some (hs, ts) =>
      let gone := (x.hosts.map (fun a => a.1)).filter (fun h => !hs.any (fun a => a.1 == h))
      let s := { s with cellar := { s.cellar with regions := FMap.put s.cellar.regions r { x with hosts := hs, tenants := ts, staged := none } } }
      overList (fun s h => s.modHost h (fun y => x.extents.foldl (fun y e => y.unmap (s.cxlOn h) e) y)) gone s

/-- Staged token-bucket values take effect (R354). -/
def HostPort.applyBucket (x : HostPort) : HostPort :=
  match x.stagedBucket with
  | some (r, k) => { x with rate64 := r, depth64 := k, tokens := min x.tokens k, stagedBucket := none }
  | none => x

/-- The time left of a lease after a tick: one set since the tick before it is not counted down yet (R350, R351). -/
def tickedMs (fresh : Bool) (leftMs : Nat) : Nat := if fresh then leftMs else leftMs - 1

/-- A host's extent at a lease tick: its lease counts down, and where it reaches 0 the extent enters Reclaiming (R350, R353). -/
def Extent.countDown (x : Extent) (now : Word64) : Extent :=
  match x.owner with
  | .host _ =>
    if x.state == .granted || x.state == .fenced then
      let n := tickedMs x.fresh x.leftMs
      if n = 0 then { x with leftMs := 0, fresh := false, due := true, state := .reclaiming, cause := 1, reclaimHall := now }
      else { x with leftMs := n, fresh := false }
    else x
  | _ => x

/-- The region whose extents' lease has ended at this tick. -/
def Region.countDown (x : Region) (running : Bool) : Region :=
  if running && !x.due then { x with leftMs := tickedMs x.fresh x.leftMs, fresh := false, due := tickedMs x.fresh x.leftMs == 0 } else x

/-- The extents of regions whose lease has ended enter Reclaiming at the tick (R353). -/
def State.regionsEnd (s : State) : State :=
  overList (fun s (x : Nat × Region) =>
    if x.2.due then overList (fun s e => s.modExt e (fun y =>
      if y.state == .granted then { y with due := true, state := .reclaiming, cause := 1, reclaimHall := s.hall } else y)) x.2.extents s
    else s) s.cellar.regions s

/-- LEASE_TICK: renewals and staged changes are applied, every lease counts down, a region's once all its extents are Granted, and the
extents of a lease that ends enter Reclaiming (R344, R349-R351, R353, R354). DESIGN CHOICE (entry 41): LEASE_EXPIRY is the row of the rest of
the reclaim. -/
def execLeaseTick (s : State) : Out :=
  let s := s.applyRenewals
  let s := overList State.applyRights (s.cellar.regions.map (fun x => x.1)) s
  let s : State := { s with
    hosts := s.hosts.map (fun (h, x) => (h, x.applyBucket)),
    cellar := { s.cellar with extents := s.cellar.extents.map (fun (e, x) => (e, x.countDown s.hall)),
                              regions := s.cellar.regions.map (fun (r, x) =>
                                (r, x.countDown (x.extents.all (fun e => (s.ext e).state == .granted)))) } }
  .next s.regionsEnd

/-- The lease that a LEASE_EXPIRY names has ended at a lease tick. -/
def State.leaseDue (s : State) (region : Bool) (number : Nat) : Bool :=
  if region then (match FMap.find s.cellar.regions number with | some r => r.due | none => false) else (s.ext number).due

/-- LEASE_EXPIRY: a lease that a lease tick has ended, and with it every other that has ended: their extents are reclaimed in ascending order,
in batches of 8, and a region ends with its lease (R331, R350, R353). -/
def execLeaseExpiry (region : Bool) (number : Nat) (s : State) : Out :=
  if !s.leaseDue region number then .next s
  else
    let es := (s.cellar.extents.filter (fun x => x.2.due)).map (fun x => x.1)
    .next (({ s.wake with cellar := { s.cellar with regions := s.cellar.regions.filter (fun x => !x.2.due) } } : State).reclaim 1 es)

/-! ## SCRUB_BATCH_COMPLETE (R331-R333, R353, R360) -/

/-- One extent's scrub ends; `bad` says that it met an uncorrectable error (R332). -/
def State.scrubbed (bad : List Nat) (s : State) (e : Nat) : State :=
  let x := s.ext e
  let found := bad.contains e
  let s := { s with cellar := s.cellar.scrub e }
  match x.state with
  | .granting =>
    -- An extent whose host's link has dropped meanwhile comes out Fenced (R332, R352).
    let lost := match x.owner with | .host h => !s.hostServing h || s.hostFenced h | _ => false
    s.modExt e (fun x => { x with state := if lost then .fenced else .granted, leftMs := 1000 * x.leaseS, fresh := true, power := .awake, quarantine := found })
  | .reclaiming =>
    let q := x.quarantine || found
    let notice := reclaimNotice e { x with quarantine := q }
    let s := if q then (s.quarantineExt e).modExt e (fun x => { x with power := .off })
      else s.putExt e { power := .off, corrected := x.corrected }
    s.sendEvent 0x8002 notice
  | .staging =>
    (match s.cellar.replacing.find? (fun r => r.2 == e) with
    | some r =>
      if found then
        let s := { s with cellar := { s.cellar with replacing := s.cellar.replacing.filter (fun q => q != r) } }
        (s.quarantineExt e).replaceStaging r.1
      else ({ s with cellar := s.cellar.replaceStaging r.1 e } : State).modExt e (fun x => { x with power := .awake })
    | none => s.modExt e (fun x => { x with power := .awake }))
  | _ => s

/-- SCRUB_BATCH_COMPLETE: the batch in progress ends (R331-R333); commands that waited for it complete (R512). -/
def execScrubBatchComplete (bad : List Nat) (s : State) : Out :=
  match s.cellar.scrubQ with
  | [] => .next s
  | j :: l =>
    let s := (overList (State.scrubbed bad) j.extents { s with cellar := { s.cellar with scrubQ := l } }).cellarDone
    .next (if l.isEmpty then s else s.scrubStarts)

/-! ## Cell-group power (R329, R330) -/

/-- GROUP_RETENTION_TIMEOUT: 100 µs without an access (R329). -/
def execGroupRetentionTimeout (extent : Nat) (s : State) : Out :=
  let x := s.ext extent
  let scrubs := s.cellar.replacing.any (fun r => r.2 == extent)
  if x.power == .awake && !scrubs && (x.state == .granted || x.state == .fenced || x.state == .staging) then
    .next (s.putExt extent { x with power := .retention, waking := false })
  else .next s

/-- GROUP_WAKE_COMPLETE: the wake ends, the group reports Awake, and the accesses that have waited for it go on (R330). -/
def execGroupWakeComplete (extent : Nat) (s : State) : Out :=
  let x := s.ext extent
  if x.power == .retention && x.waking then .next ((s.putExt extent { x with power := .awake, waking := false }).cellsGo extent) else .next s

/-! ## Patrol (R357-R359, R416, R447) -/

/-- The extents that a lane covers (R357). -/
def State.laneExtents (s : State) (lane : Nat) : List Nat := s.usable.filter (fun e => e % 8 == lane)

/-- The lane's extent and row within it, after `n` rows of its round (R357). -/
def State.laneAt_ (s : State) (lane n : Nat) : Option (Nat × Nat) := ((s.laneExtents lane)[n / 1024]?).map (fun e => (e, n % 1024))

/-- An extent whose words hold data that patrol reads. -/
def ExtState.patrolled (x : ExtState) : Bool := x == .granted || x == .fenced || x == .staging

/-- A word error that a row meets: corrected in place and counted, or uncorrectable (R357, R359, R360). A word counts within
its cell. -/
def State.patrolError (e row : Nat) (s : State) (w : WordError) : State :=
  if w.word / 8 ≠ row ∨ 32 ≤ w.cell ∨ !(s.ext e).state.patrolled then s
  else
    let u := e * 0x8000 + row * 32 + w.cell
    let word := w.word % 8
    if w.correctable then
      (s.modExt e (fun x => { x with corrected := satInc x.corrected })).record
        { event := 0x0101, severity := 1, unitClass := 1, unitIndex := cellOf u, addr := 64 * u + 8 * word }
    else
      let staged := (s.ext e).state == .staging
      let s := s.cellError u word
      if staged then s.stagingLost e else s

/-- Slot 6 checks in once every lane has advanced in the period (R447). -/
def State.laneAdvanced (s : State) (lane : Nat) : State :=
  let lanes := insertNat lane s.wd.lanes
  { s with wd := { s.wd with lanes := lanes, checked := if lanes.length = 8 then s.wd.checked ||| 0x40 else s.wd.checked } }

/-- PATROL_ROW: the lane takes its next row; patrol pauses in Doze (R357-R359). It runs once the configuration is locked, as the watchdog's slot 6
does (R62, R447). -/
def execPatrolRow (lane : Fin 8) (errors : List WordError) (s : State) : Out :=
  let k := lane.val
  if !s.hearth.locked || s.hearth.power != .active then .next s
  else
    let n := FMap.get 0 s.cellar.patrolRows k
    match s.laneAt_ k n with
    | none => .next (({ s with cellar := { s.cellar with patrolRows := FMap.put s.cellar.patrolRows k 0 } } : State).laneAdvanced k)
    | some (e, row) =>
      let len := (s.laneExtents k).length
      let s := if (s.ext e).state.patrolled then s.touch (e * 0x200000) 1 else s
      let s := overList (State.patrolError e row) errors s
      let next := if n + 1 = 1024 * len then 0 else n + 1
      .next (({ s with cellar := { s.cellar with patrolRows := FMap.put s.cellar.patrolRows k next } } : State).laneAdvanced k)

/-- PATROL_CATCH_UP: a lane has fallen behind in Doze, and the engine wakes (R44, R358). -/
def execPatrolCatchUp (s : State) : Out := .next s.wake

/-! ## The Attic's fault log (R423, R424) -/

/-- The fault log with one more record: 128 sectors of 1,024 records, the oldest sector erased when the ring wraps. -/
def atticAppend (l : List ErrRec) (r : ErrRec) : List ErrRec := (if 131072 ≤ l.length then l.drop 1024 else l) ++ [r]

/-- FAULT_RECORD_ATTIC_WRITE: the oldest record that waits for the Attic is written there (R423). -/
def execFaultRecordAtticWrite (s : State) : Out :=
  match s.log.ring.find? ErrRec.waitsAttic with
  | none => .next s
  | some r =>
    .next { s with log := { s.log with
      ring := s.log.ring.map (fun q => if q.seq = r.seq then { q with inAttic := true } else q),
      attic := atticAppend s.log.attic { r with inAttic := true } } }

end Sys2Proof.Machine
end

