-- ==== Sys2Proof/Machine/HostPorts.lean ====
section
/-! DEFINITION. Host ports (chapter 14): link up and down (R393, R394, R409-R412), configuration requests (R83, R395, R400), host
sessions (R349, R352), DMA reads (R324, R401, R415, R468), ATS (R399), MSI-X unmasking (R408), posted credits and stalls
(R413, R414). -/

namespace Sys2Proof.Machine

/-- The accelerator position of a host block, as a detail (R29, R134). -/
def State.hostPos (s : State) (h : Nat) : Nat := s.engineId * 8 + h / 2

/-! ## Figures that need a host (R400, R409, R466) -/

/-- A selector names host block `h` of this engine. -/
def State.selHost (s : State) (h sel : Nat) : Bool := selSpace sel == 0 && selEngine sel == s.engineId && s.posHost sel == h

/-- Reads of a flight wait for host block `h`: outstanding, or held. -/
def HostPort.reads (x : HostPort) (c fid : Nat) : Bool :=
  x.heldReads.any (fun r => r.owner.flight == (c, fid)) || x.tags.any (fun t => !t.abandoned && t.req.owner.flight == (c, fid))

/-- A Figure in flight has DMA to host block `h` outstanding or still to come (R409). -/
def State.needsHost (s : State) (h c : Nat) (f : Flight) : Bool :=
  (s.host h).reads c f.fid ||
  (s.host h).path.any (fun w => match w with | .data _ _ d g => d == c && g == f.fid | _ => false) ||
  (match f.kind with
   | .coll k => k.members.any (fun m => (receives k.args m && s.selHost h m.recvSel.toNat) ||
       (sends k.args m && m.readyAt.isNone && s.selHost h m.sendSel.toNat))
   | .move m => s.selHost h m.dstSel.toNat || (s.selHost h m.srcSel.toNat && 0 < m.toRead)
   | _ => false)

/-! ## The function's configuration (R409) -/

/-- The function at its power-on configuration; its reads, writes and translations are gone (R409, R473). -/
def HostPort.resetFunction (x : HostPort) : HostPort :=
  { x with barsAssigned := false, busMaster := false, d3hot := false, tag14 := false, timeoutUs := 20000, hdmCommitted := false,
           msix := [], pba := [], tags := [], heldReads := [], path := [], heldWrites := [], atsCache := [], atsWaiting := [],
           waitingReqs := [], dcOffered := [], dcAccepted := [], dcReleasing := [], readLatch := 0, writeLatch := [] }

/-- The host's extents are fenced, and its session ends (R352, R409, R466). -/
def State.fenceHost (s : State) (h : Nat) : State :=
  { s with
    cellar := { s.cellar with extents := s.cellar.extents.map (fun (e, x) =>
      (e, if x.state = .granted ∧ x.owner = .host h then { x with state := .fenced } else x)) },
    mgmt := { s.mgmt with sessions := s.mgmt.sessions.filter (fun y => y.host != some h) } }

/-- A host's link is down: its extents are fenced, the Figures that need it fail, its writes are dropped and counted, and its
function is reset (R409). -/
def State.linkLost (s : State) (h : Nat) (tgt : HostState) (status detail : Nat) : State :=
  let s := (s.fenceHost h).modHost h (fun x => { x with state := tgt, width := 0, rate := 0, degraded := false })
  let s := s.failWhere (fun c f => s.needsHost h c f) status detail
  let s := s.modHost h (fun x =>
    ({ x with droppedWrites := satAdd x.droppedWrites (x.path.length + x.heldWrites.length) } : HostPort).resetFunction)
  s.settleAll

/-! ## Link up, down and width (R83, R393, R394, R409-R412) -/

/-- The full width of a host block's link (R392, R393). -/
def State.fullWidth (s : State) (h : Nat) : Nat := if s.bonded (h / 2) && s.hostOn (h + 1) then 16 else 8

/-- The link serves below its full rate or width (R393, R395). -/
def State.isDegraded (s : State) (h rate width : Nat) : Bool := rate < 6 || width < (if s.bonded (h / 2) then 16 else 8)

/-- Start-up has reached Training, and the engine is not Banked or on its way there (R50, R65, R83). -/
def State.portsOpen (s : State) : Bool :=
  (s.hearth.startup == .training || s.hearth.startup == .syncing || s.hearth.startup == .ready) && s.hearth.power != .banked &&
  s.hearth.power != .banking

/-- A host port that a partner may train. -/
def HostPort.trains (x : HostPort) : Bool := !x.blocked && (x.state == .detect || x.state == .training || x.state == .linkLost)

/-- The port serves (R394): degraded operation is a port event (R407). -/
def State.serveHost (s : State) (h : Nat) : State :=
  let s := s.modHost h (fun x => { x with state := .serving, everServed := true })
  if (s.host h).degraded then s.msix h 2 else s

/-- HOST_LINK_UP: a port trains; it serves if the engine is Ready (R83, R393, R394, R411, R412). During a live restart retraining waits for
the firmware (R88). -/
def execHostLinkUp (host : Fin 16) (rate : Nat) (width : Nat) (s : State) : Out :=
  let h := host.val
  if s.hostIndices.contains h && (s.host h).trains && s.portsOpen && s.hearth.live.isNone && 1 ≤ rate && rate ≤ 6 then
    let w := min width (s.fullWidth h)
    let s := s.modHost h (fun x => { x with state := .upNotReady, rate := rate, width := w, degraded := s.isDegraded h rate w })
    .next (if s.isReady then s.serveHost h else s)
  else .next s

/-- HOST_LINK_DOWN: the Data Link Layer goes down (R409, R410). -/
def execHostLinkDown (host : Fin 16) (s : State) : Out :=
  let h := host.val
  let x := s.host h
  if x.state == .serving || x.state == .upNotReady then .next (s.linkLost h .linkLost 0x23 (s.hostPos h)) else .next s

/-- HOST_WIDTH_CHANGE: through Recovery, the function and all else stay; vector 2 is sent (R393). -/
def execHostWidthChange (host : Fin 16) (width : Nat) (s : State) : Out :=
  let h := host.val
  let x := s.host h
  if x.state == .serving then
    let w := min width (s.fullWidth h)
    .next ((s.putHost h { x with width := w, degraded := s.isDegraded h x.rate w }).msix h 2)
  else if x.state == .upNotReady then
    let w := min width (s.fullWidth h)
    .next (s.putHost h { x with width := w, degraded := s.isDegraded h x.rate w })
  else .next s

/-! ## Configuration requests (R83, R395, R400, R401, R411, R467) -/

/-- Bus Master Enable is cleared: no DMA issues, and the Figures that need the host fail; completion entries and vectors wait in their order
(R133, R400). -/
def State.busMasterOff (s : State) (h : Nat) : State :=
  let s := s.modHost h (fun x => { x with busMaster := false })
  (s.failWhere (fun c f => s.needsHost h c f) 0x23 (s.hostPos h)).settleAll

/-- The function's class code (R395). CONFIG_REQUEST reads it as one request of three bytes: DESIGN CHOICE (entry 46). -/
def State.classCode (s : State) (h : Nat) : Nat := if s.cxlOn h then 0x050210 else 0x120000

/-- What a request to a Serving function does. -/
def State.config (s : State) (h : Nat) : ConfigReq → State
  | .read => s
  | .readClassCode => s
  | .assignBars => s.modHost h (fun x => { x with barsAssigned := true })
  | .busMaster true => (s.modHost h (fun x => { x with busMaster := true })).pumpHost h
  | .busMaster false => s.busMasterOff h
  | .completionTimeout us => s.modHost h (fun x => { x with timeoutUs := if 10000 ≤ us ∧ us ≤ 4000000 then us else x.timeoutUs })
  | .tag14 on => s.modHost h (fun x => { x with tag14 := on && x.rate == 6 })
  | .d3hot on => (s.modHost h (fun x => { x with d3hot := on })).settleAll
  | .hdmCommit on => s.modHost h (fun x => { x with hdmCommitted := on && s.cxlOn h })

/-- CONFIG_REQUEST: Request Retry Status before Ready (R83); Completer Abort at a port in service (R467). -/
def execConfigRequest (host : Fin 16) (req : ConfigReq) (s : State) : Out := s.hostIn host.val (.configRequest host req) fun s =>
  let h := host.val
  let x := s.host h
  if x.blocked then .next (s.blockedReq h (some .ca))
  else if x.state == .upNotReady then .next (s.answer h .rrs)
  else if x.state == .serving then
    .next ((s.config h req).answer h (match req with | .readClassCode => .data (toLe 3 (s.classCode h)) | _ => .done))
  else .next s

/-! ## Host sessions (R349, R352) -/

/-- A digest's bytes, first byte first. -/
def idBytes (v : BitVec 384) : List Byte := (toLe 48 v.toNat).reverse

/-- The session of a host function opens under an identity: each Fenced extent whose binding matches returns, and the rest are
recorded and reported (R352, R407). -/
def State.hostSession (s : State) (h : Nat) (identity : BitVec 384) : State :=
  let mine := s.cellar.extents.filter (fun x => decide (x.2.state = .fenced ∧ x.2.owner = .host h))
  let back := mine.filter (fun x => x.2.identity == identity)
  let kept := mine.length - back.length
  let s := { s with
    mgmt := { s.mgmt with nextSession := s.mgmt.nextSession + 1,
                          sessions := s.mgmt.sessions.filter (fun y => y.host != some h) ++ [⟨s.mgmt.nextSession, some h, identity, s.hall⟩] },
    cellar := { s.cellar with extents := s.cellar.extents.map (fun (e, x) =>
      (e, if x.state = .fenced ∧ x.owner = .host h ∧ x.identity = identity then { x with state := .granted } else x)) } }
  let s := if back.isEmpty then s else s.msix h 1
  if kept = 0 then s
  else (s.record { event := 0x0106, severity := 2, unitClass := 5, unitIndex := h, detail := kept }).sendEvent 0x8003
    (toLe 1 h ++ toLe 1 0 ++ toLe 2 kept ++ idBytes identity)

/-- HOST_SESSION_ESTABLISHED over DOE on a Serving function (R349, R352, R509). -/
def execHostSessionEstablished (host : Fin 16) (identity : BitVec 384) (s : State) : Out := s.hostIn host.val (.hostSessionEstablished host identity) fun s =>
  if s.decodes host.val || s.hostServing host.val then .next (s.hostSession host.val identity) else .next s

/-! ## DMA reads (R324, R401, R415, R468) -/

/-- The tag in use. -/
def HostPort.tag? (x : HostPort) (t : Nat) : Option ReadTag := x.tags.find? (fun y => y.tag == t)
/-- The tag is free again. -/
def HostPort.freeTag (x : HostPort) (t : Nat) : HostPort := { x with tags := x.tags.filter (fun y => y.tag != t) }

/-- Invalidations none of whose reads is outstanding any more are completed (R399). -/
def HostPort.finishAts (x : HostPort) : HostPort :=
  let open_ (i : Word64 × Nat) : Bool := x.tags.any (fun t => t.req.iova.toNat < i.1.toNat + i.2 && i.1.toNat < t.req.iova.toNat + t.req.len)
  let left := x.atsWaiting.filter open_
  { x with atsWaiting := left, cpl := if left.length < x.atsWaiting.length then .done else x.cpl }

/-- A slow read is counted at its port and in its context (R324). -/
def State.slowRead (s : State) (h : Nat) (t : ReadTag) : State :=
  if t.threshold < s.hall.toNat - t.issuedAt.toNat then
    s.countSlow t.req.owner.flight.1 h
  else s

/-- Read data goes to its Figure (R256, R105). -/
def State.readData (s : State) (o : ReadOwner) (b : List Byte) : State :=
  match o with
  | .coll c f m off => (s.collPiece c f m off b).settle c
  | .move c f off => (s.movePiece c f off b).settle c

/-- A read has failed: its Figure completes with 0x23 (R401). -/
def State.readFailed (s : State) (h : Nat) (o : ReadOwner) : State :=
  (s.failFlight o.flight.1 o.flight.2 { status := 0x23, detail := BitVec.ofNat 32 (s.hostPos h) }).settle o.flight.1

/-- DMA_READ_COMPLETION (R324, R401, R468): the tag is free, and data that nobody waits for is dropped and counted. -/
def execDmaReadCompletion (host : Fin 16) (tag : Nat) (res : ReadResult) (s : State) : Out :=
  let h := host.val
  match (s.host h).tag? tag with
  | none => .next (if (s.host h).blocked then s.modHost h (fun x => { x with droppedReplies := satInc x.droppedReplies }) else s)
  | some t =>
    let s := s.modHost h (fun x => (x.freeTag tag).finishAts)
    let s := if t.abandoned || t.timedOut then s.modHost h (fun x => { x with droppedReplies := satInc x.droppedReplies })
      else match res with
        | .ok b => if b.length = t.req.len then (s.slowRead h t).readData t.req.owner b else s.readFailed h t.req.owner
        | _ => s.readFailed h t.req.owner
    .next (s.pumpHost h)

/-- DMA_COMPLETION_TIMEOUT: the read fails its Figure; an abandoned tag is freed (R160, R401). -/
def execDmaCompletionTimeout (host : Fin 16) (tag : Nat) (s : State) : Out :=
  let h := host.val
  match (s.host h).tag? tag with
  | none => .next s
  | some t =>
    if t.timedOut then .next s
    else
      let s := s.reach (t.issuedAt + BitVec.ofNat 64 (1000 * (s.host h).timeoutUs))
      if t.abandoned then .next ((s.modHost h (fun x => (x.freeTag tag).finishAts)).pumpHost h)
      else .next ((s.modHost h (fun x => { x with tags := x.tags.map (fun y => if y.tag = tag then { y with timedOut := true } else y) })).readFailed h t.req.owner)

/-- READ_TAG_LEAK: 1 ms past its timeout the tag is reclaimed, counted and recorded (R415). -/
def execReadTagLeak (host : Fin 16) (tag : Nat) (s : State) : Out :=
  let h := host.val
  match (s.host h).tag? tag with
  | none => .next s
  | some t =>
    if !t.timedOut then .next s
    else
      let s := s.reach (t.issuedAt + BitVec.ofNat 64 (1000 * (s.host h).timeoutUs + 1000000))
      let s := s.modHost h (fun x => { (x.freeTag tag).finishAts with tagLeaks := satInc x.tagLeaks })
      .next ((s.record { event := 0x0501, severity := 2, unitClass := 5, unitIndex := h, addr := t.req.iova.toNat }).pumpHost h)

/-! ## The Porch supervisor (R413, R414, R447) -/

/-- PORCH_SWEEP: a complete sweep checks in slot 7 (R413, R447). -/
def execPorchSweep (s : State) : Out := .next { s with wd := { s.wd with checked := s.wd.checked ||| 0x80 } }

/-- HOST_STALL: the path has held units for 50 ms with no credit back; the fault is recorded and the link taken down (R414). -/
def execHostStall (host : Fin 16) (s : State) : Out :=
  let h := host.val
  let x := s.host h
  if x.state == .serving && !x.path.isEmpty then
    let s := s.reach (x.pathSince + 50000000)
    let s := s.record { event := 0x0501, severity := 3, unitClass := 5, unitIndex := h }
    let s := (s.msix h 2).modHost h (fun x => { x with hostStalls := satInc x.hostStalls })
    .next (s.linkLost h .linkLost 0x23 (s.hostPos h))
  else .next s

/-! ## ATS (R399) -/

/-- The pages of a range of IOVAs. -/
def pageIn (iova : Word64) (len : Nat) (page : Word64) : Bool :=
  iova.toNat / 4096 ≤ page.toNat && page.toNat * 4096 < iova.toNat + len

/-- ATS_INVALIDATION: translations go at once; the invalidation completes once no read that used them is outstanding (R399). -/
def execAtsInvalidation (host : Fin 16) (iova : Word64) (len : Nat) (s : State) : Out := s.hostIn host.val (.atsInvalidation host iova len) fun s =>
  let h := host.val
  if s.atsOn h && s.hostServing h then
    .next (s.modHost h (fun x => ({ x with atsCache := x.atsCache.filter (fun t => !pageIn iova len t.1),
                                                atsWaiting := x.atsWaiting ++ [(iova, len)] } : HostPort).finishAts))
  else .next s

/-- The flights whose reads or writes wait for a page's translation. -/
def HostPort.waitsFor (x : HostPort) (page : Word64) : List (Nat × Nat) :=
  (x.heldReads.filterMap (fun r => if iovaPage r.iova = page then some r.owner.flight else none)) ++
  (x.heldWrites.filterMap (fun w => match w with | .data a _ c f => if iovaPage a = page then some (c, f) else none | _ => none))

/-- The port without what waits for a page that was refused: writes are dropped and counted. -/
def HostPort.dropPage (x : HostPort) (page : Word64) : HostPort :=
  let keep (w : HostWrite) : Bool := match w with | .data a _ _ _ => iovaPage a != page | _ => true
  { x with heldReads := x.heldReads.filter (fun r => iovaPage r.iova != page), heldWrites := x.heldWrites.filter keep,
           droppedWrites := satAdd x.droppedWrites (x.heldWrites.length - (x.heldWrites.filter keep).length) }

/-- ATS_TRANSLATION_COMPLETION: the cache of 512 takes the translation, or the Figures that wait for it fail (R399). -/
def execAtsTranslationCompletion (host : Fin 16) (iova : Word64) (res : Option Word64) (s : State) : Out :=
  let h := host.val
  let page := iovaPage iova
  if !(s.atsOn h && s.hostServing h) then .next s
  else match res with
    | some tgt => .next ((s.modHost h (fun x =>
        let old := x.atsCache.filter (fun t => t.1 != page)
        { x with atsCache := (if 512 ≤ old.length then old.drop 1 else old) ++ [(page, iovaPage tgt)] })).pumpHost h)
    | none =>
      let ws := (s.host h).waitsFor page
      let s := overList (fun s (c, f) => s.failFlight c f { status := 0x23, detail := BitVec.ofNat 32 (s.hostPos h) }) ws s
      .next (((s.modHost h (fun x => x.dropPage page)).pumpHost h).settleAll)

/-! ## MSI-X and posted credits (R403, R408, R414) -/

/-- A vector that a port implements (R484). -/
def State.vectorExists (s : State) (h v : Nat) : Bool := v < (if s.bonded (h / 2) && s.hostIndex h == h then 128 else 64)

/-- The mask bit of a vector is cleared: a pending message is sent (R408). -/
def State.unmask (s : State) (h v : Nat) : State :=
  let x := s.host h
  let pend := x.pba.contains v
  let s := s.putHost h { x with msix := FMap.put x.msix v { FMap.get {} x.msix v with masked := false }, pba := x.pba.filter (fun w => w != v) }
  if pend then s.msix h v else s

/-- MSIX_UNMASK (R408, R484). -/
def execMsixUnmask (host : Fin 16) (vector : Nat) (s : State) : Out := s.hostIn host.val (.msixUnmask host vector) fun s =>
  let h := host.val
  .next (s.bar0 h false (fun s => if s.vectorExists h vector then s.unmask h vector else s.bar0Refused h false))

/-- Units at the head of the path for which credit has come back. -/
def dropCredited : Nat → List HostWrite → List HostWrite
  | _, [] => []
  | n, w :: l => if w.flits ≤ n then dropCredited (n - w.flits) l else w :: l

/-- The units that the host takes with `flits` flits. -/
def HostPort.taken (x : HostPort) (flits : Nat) : List HostWrite := x.path.take (x.path.length - (dropCredited flits x.path).length)

/-- The MSI-X messages among the units that the host has taken whose address it refuses, by a draw: no row carries a refusal (R408; entry 31). -/
def refusedMsix (draw : Nat) (l : List HostWrite) : Nat :=
  (((List.range l.length).zip l).filter (fun (i, w) => match w with | .msix .. => Config.msixRefused draw i | .data .. => false)).length

/-- The port after the host has taken `flits` flits of its path: the 50 ms of R414 start again, and later writes follow (R54, R56). -/
def HostPort.credited (x : HostPort) (flits : Nat) (ats : Bool) (now : Word64) : HostPort :=
  let y : HostPort := { x with path := dropCredited flits x.path, pathSince := now }
  if y.busMaster then y.pump ats now else y

/-- POSTED_CREDIT_RETURN: the host has taken flits of the path, and later writes follow; a message whose address it refuses is lost and counted
(R54, R56, R408, R414). -/
def execPostedCreditReturn (host : Fin 16) (flits : Nat) (s : State) : Out :=
  let h := host.val
  if s.hostServing h then
    let r := s.draw
    .next (r.2.modHost h (fun x =>
      { x.credited flits (s.atsOn h) s.hall with msixLost := satAdd x.msixLost (refusedMsix r.1 (x.taken flits)) }))
  else .next s

/-- SLOW_READ_NS: a threshold in range holds for the reads issued from now on (R325, R481). -/
def execSlowReadNs (host : Fin 16) (value : Word32) (s : State) : Out := s.hostIn host.val (.slowReadNs host value) fun s =>
  let v := bits value.toNat 13 0
  .next (s.bar0 host.val false (fun s => if 200 ≤ v ∧ v ≤ 10000 then s.modHost host.val (fun x => { x with slowReadNs := v }) else s))

end Sys2Proof.Machine
end

