-- ==== Sys2Proof/Machine/Boot.lean ====
section
/-! DEFINITION. The NVM image and its checks (R67-R73, R77, R78), and the resets of the engine (R58-R60, R421-R423, R462). -/

namespace Sys2Proof.Machine

/-! ## The flash (R67, R68) -/

/-- Where an image slot starts in the flash: B when set (R67). -/
def slotBase (b : Bool) : Nat := if b then 0x400000 else 0

/-- `len` bytes of the flash from `off`. -/
def State.flashBytes (s : State) (off len : Nat) : List Byte := memBytes Config.erasedByte s.flash.mem off len

/-- The header of an image: a little-endian field (R68). -/
def State.imgField (s : State) (b : Bool) (off len : Nat) : Nat := le (s.flashBytes (slotBase b + off) len) 0 len
/-- `len` bytes of an image. -/
def State.imgBytes (s : State) (b : Bool) (off len : Nat) : List Byte := s.flashBytes (slotBase b + off) len

/-- An image's total length, and its three sections: offset and length (R68). -/
def State.imgTotal (s : State) (b : Bool) : Nat := s.imgField b 0x008 4
/-- The firmware section. -/
def State.imgFw (s : State) (b : Bool) : Nat × Nat := (s.imgField b 0x014 4, s.imgField b 0x018 4)
/-- The configuration section. -/
def State.imgCfg (s : State) (b : Bool) : Nat × Nat := (s.imgField b 0x01C 4, s.imgField b 0x020 4)
/-- The retire-list section. -/
def State.imgRet (s : State) (b : Bool) : Nat × Nat := (s.imgField b 0x024 4, s.imgField b 0x028 4)

/-- The configuration block of an image. -/
def State.imgConfig (s : State) (b : Bool) : List Byte := s.imgBytes b (s.imgCfg b).1 0x200

/-- The entries of an image's retire list (R73). -/
def State.imgRetire (s : State) (b : Bool) : List Nat :=
  let l := s.imgBytes b (s.imgRet b).1 (s.imgRet b).2
  (List.range ((l.length - 2) / 2)).map (fun i => le l (2 + 2 * i) 2)

/-! ## Image checks (R71) -/

/-- A section starts on 16 bytes behind the header and lies within the total length (R68). -/
def sectionOk (total : Nat) (x : Nat × Nat) : Bool := x.1 % 16 == 0 && 0x200 ≤ x.1 && x.1 + x.2 ≤ total
/-- Two sections share no byte (R68). -/
def sectionsApart (x y : Nat × Nat) : Bool := x.1 + x.2 ≤ y.1 || y.1 + y.2 ≤ x.1

/-- Check 4: lengths, offsets, alignment, overlap, reserved bytes (R68, R71). -/
def State.imgLayout (s : State) (b : Bool) : Bool :=
  let total := s.imgTotal b
  let fw := s.imgFw b
  let cf := s.imgCfg b
  let re := s.imgRet b
  0x200 ≤ total && total ≤ 0x400000 && fw.2 != 0 && cf.2 == 0x200 && sectionOk total fw && sectionOk total cf && sectionOk total re &&
  re.2 == 2 + 2 * s.imgField b re.1 2 && sectionsApart fw cf && sectionsApart fw re && sectionsApart cf re &&
  allZero (s.imgBytes b 0x02F 209) 0 209 && allZero (s.imgBytes b 0x161 31) 0 31 && allZero (s.imgBytes b 0x1E0 28) 0 28

/-- Check 6: the key index is not revoked, and the key's SHA-384 equals the fused hash (R70, R71). -/
def State.keyOk (s : State) (index : Nat) (key : List Byte) : Bool :=
  if index = 0 then !s.fuses.revoked0 && sha384Nat key == s.fuses.keyHash0.toNat
  else index == 1 && !s.fuses.revoked1 && sha384Nat key == s.fuses.keyHash1.toNat

/-- The Suite table entry of an enabled Suite is in range (R73). -/
def suiteEntryOk (c : List Byte) (i : Nat) : Bool :=
  let f (o n : Nat) : Nat := le c (0x100 + 16 * i + o) n
  f 2 2 ≤ 255 && f 4 2 ≤ 256 && f 2 2 + f 4 2 ≤ 256 && f 6 2 ≤ f 8 2 && f 8 2 ≤ 800 && 1 ≤ f 10 1 && allZero c (0x100 + 16 * i + 11) 5

/-- Check 10: magic, version, every field in range, reserved bytes 0 (R71, R73). -/
def configOk (c : List Byte) : Bool :=
  le c 0 4 == 0x47464E43 && le c 4 2 == 1 && le c 6 1 ≤ 1 && le c 7 1 ≤ 1 && le c 0x00B 1 < 8 && le c 0x012 2 == 0 && le c 0x014 8 < 2 ^ 36 &&
  1000 ≤ le c 0x01C 4 && le c 0x01C 4 ≤ 10000000 && 1 ≤ le c 0x021 1 && le c 0x021 1 ≤ 100 && 10 ≤ le c 0x022 2 && le c 0x022 2 ≤ 10000 &&
  1000 ≤ le c 0x024 4 && le c 0x024 4 ≤ 1000000 && 1 ≤ le c 0x028 2 && le c 0x028 2 ≤ 3600 && 8 ≤ le c 0x02A 2 && le c 0x02A 2 ≤ 128 &&
  allZero c 0x02E 210 && (List.range 16).all (fun i => !bit (le c 0x02C 2) i || suiteEntryOk c i)

/-- The groups that the map holds at boot with a retire list: fused off, in the list, or in the Attic's list (R77, R360). -/
def State.bootMap (s : State) (retire : List Nat) : List Nat :=
  allExtents.filter (fun e => s.fuses.fusedOff.contains e || retire.contains e || s.flash.retireList.contains e)

/-- Check 11: at most 32 entries, each a group, and enough usable extents (R71). -/
def State.retireOk (s : State) (l : List Nat) : Bool :=
  l.length ≤ 32 && l.all (fun e => e < 800) && gradeMin s.fuses.grade ≤ 800 - (s.bootMap l).length

/-- The first check that an image fails, by its code; none if it passes (R71). -/
def State.imageCheck (s : State) (b : Bool) (flashMiB : Option Nat) (readOk : Bool) : Option Nat :=
  let sizeOk := match flashMiB with | some n => decide (32 ≤ n ∧ n ≤ 128) | none => false
  (firstFail [
    (!sizeOk, 0x01, 0),
    (!(s.imgField b 0 4 == 0x494E5A4F && s.imgField b 4 2 == 1 && s.imgField b 6 2 == 0x200), 0x02, 0),
    ((crc32c (s.imgBytes b 0 0x1FC)).toNat != s.imgField b 0x1FC 4, 0x03, 0),
    (!s.imgLayout b, 0x04, 0),
    (!(s.imgField b 0x02C 1 == s.fuses.stepping.toNat && bit (s.imgField b 0x02D 1) (if s.fuses.grade = 16 then 0 else 1)), 0x05, 0),
    (!s.keyOk (s.imgField b 0x02E 1) (s.imgBytes b 0x100 97), 0x06, 0),
    (s.imgField b 0x00C 4 < s.fuses.minSecurity.toNat, 0x07, 0),
    (!readOk, 0x08, 0),
    (!ecdsaVerify (s.imgBytes b 0x100 97) (sha384Nat (s.imgBytes b 0 0x180 ++ s.imgBytes b 0x200 (s.imgTotal b - 0x200))) (s.imgBytes b 0x180 96), 0x09, 0),
    (!configOk (s.imgConfig b), 0x0A, 0),
    (!s.retireOk (s.imgRetire b), 0x0B, 0)]).map (fun r => r.1)

/-- The boot record of an image that fails a check: the code as detail, the image by its place in the flash; Fatal when no image is left
(R71, R418, R420). -/
def State.bootRecord (s : State) (b : Bool) (code : Nat) (fatal : Bool) : State :=
  s.record { event := 0x0601, severity := if fatal then 4 else 2, unitClass := 0x0A, unitIndex := 0, detail := code, addr := slotBase b }

/-- The firmware of an image runs (R78, R507). -/
def Hearth.runs (h : Hearth) (s : State) (b : Bool) : Hearth :=
  { h with imageB := b, fwVersion := BitVec.ofNat 32 (s.imgField b 0x010 4),
           fwMeasure := BitVec.ofNat 384 (sha384Nat (s.imgBytes b (s.imgFw b).1 (s.imgFw b).2)) }

/-- RESET_END: the pins are sampled, and the boot ROM starts Loading, with the SMBus responder and the flash (R26, R60, R61, R502). -/
def execResetEnd (slotId : BitVec 3) (roomId : BitVec 5) (s : State) : Out :=
  if s.hearth.startup == .reset && s.sled.path == .on && s.sled.refclk then
    .next { s with hearth := { s.hearth with startup := .loading, slotId := slotId, roomId := roomId, loadingB := false, smbusOn := true, spiSelect := true } }
  else .next s

/-- The boot ROM has read and hashed an image in blocks of 64 KiB, of which the last may be shorter: its header has passed checks 1 through
7 (R62, R71). -/
def State.blocksRead (s : State) (b : Bool) (flashMiB : Option Nat) : Bool :=
  match s.imageCheck b flashMiB true with | some c => decide (8 ≤ c) | none => true

/-- IMAGE_LOAD_COMPLETE: the image being loaded passes its checks, or the next one is tried, or none is left (R61, R71, R72). A flash that
fails check 1 fails both images. -/
def execImageLoadComplete (flashMiB : Option Nat) (readOk : Bool) (s : State) : Out :=
  if s.hearth.startup != .loading then .next s
  else
    let b := s.hearth.loadingB
    let s := if s.blocksRead b flashMiB then { s with wd := { s.wd with checked := s.wd.checked ||| 0x01 } } else s
    match s.imageCheck b flashMiB readOk with
    | none => .next { s with hearth := { s.hearth.runs s b with
        startup := .locking, config := s.imgConfig b, imageRetire := s.imgRetire b, alert := !s.log.unread.isEmpty } }
    | some code =>
      if code = 1 || b then
        let s := s.bootRecord b code true
        .next { s with hearth := { s.hearth with startup := .bootFailed, alert := true } }
      else
        let s := s.bootRecord b code false
        .next { s with hearth := { s.hearth with loadingB := true, alert := false } }

/-! ## Resets (R58, R59, R60, R423, R462) -/

/-- The sequence number of the first record after a power-on: one above the newest in the Attic (R423). -/
def ErrLog.afterPowerOn (l : ErrLog) : ErrLog :=
  { attic := l.attic, nextSeq := match l.attic.getLast? with | some r => r.seq + 1 | none => 0 }

/-- A power-on reset: nothing is kept but what fuses, flash and the sled hold (R58, R59). -/
def State.powerOn (s : State) : State :=
  { pending := s.pending, sled := s.sled, fuses := s.fuses, flash := s.flash, log := s.log.afterPowerOn,
    thermal := { tj := s.thermal.tj, coreMv := s.thermal.coreMv, cclkMHz := 100 * s.fuses.grade }, freeCtr := s.freeCtr }

/-- Power is gone: as after a power-on reset, with the main path off (R529, R534, R535). -/
def State.powerLost (s : State) : State := let s := s.powerOn; { s with sled := { s.sled with path := .off } }

/-- The on-die ring survives a warm reset, each record marked as held from before it (R421, R423); the counters of the log clear (R58,
R478). -/
def ErrLog.afterWarm (l : ErrLog) : ErrLog :=
  { ring := l.ring.map (fun r => { r with fromBefore := true }), attic := l.attic, nextSeq := l.nextSeq, unread := l.unread }

/-- A warm reset: the boot reason and the record ring are kept; a halt channel that is asserted leads to Halted at start (R58, R59, R423,
R462). The TAP, the die and the halt inputs are outside it. -/
def State.warmReset (s : State) (r : BootReason) : State :=
  { pending := s.pending, sled := s.sled, fuses := s.fuses, flash := s.flash, log := s.log.afterWarm,
    hearth := { bootReason := r }, tap := s.tap,
    thermal := { tj := s.thermal.tj, coreMv := s.thermal.coreMv, cclkMHz := s.thermal.cclkMHz, throttling := s.thermal.throttling },
    halt := { assertedA := s.halt.assertedA, assertedB := s.halt.assertedB, atStart := s.halt.assertedA || s.halt.assertedB }, freeCtr := s.freeCtr }

end Sys2Proof.Machine
end

