-- ==== Sys2Proof/Machine/ArrayErrors.lean ====
section
/-! DEFINITION. Errors in the engine's own paths and arrays (R416, R418, R420): what their checks find, and what becomes of it. -/

namespace Sys2Proof.Machine

/-- A record of an uncorrectable error in a path or an array outside the Cellar (R416, R420). -/
def State.arrayRecord (s : State) (dataPath : Bool) (severity cls idx : Nat) : State :=
  s.record { event := if dataPath then 0x0201 else 0x0202, severity := severity, unitClass := cls, unitIndex := idx }

/-- A unit that a Figure in flight uses has failed under it: the Figure completes with 0x44, which names the unit (R134, R416). -/
def State.figureFault (s : State) (c fid : Nat) (dataPath : Bool) (cls idx : Nat) : State :=
  match (s.ctx c).flight fid with
  | none => s
  | some f =>
    if f.done.isSome then s
    else ((s.arrayRecord dataPath 2 cls idx).failFlight c fid { status := 0x44, detail := BitVec.ofNat 32 (cls * 2 ^ 24 + idx) }).settle c

/-- The held copy of an outgoing chunk is lost: what has left of it is retracted, and it is formed and sent again as attempt 1, in its own window
slot (R288, R295-R297, R416). -/
def State.spoilOut (s : State) (n : Nat) (o : OutChunk) : State :=
  if o.bytes.isNone then s.retractOut n
  else (match o.port with | some p => s.sendMarker p o | none => s).modOut n
    (fun x => { x with attempt := 1, port := none, sealed := false, pieces := [], left := 0 })

/-- The control registers of a host port's page, or of a context's, at their reset values (R416, R479, R494). -/
def State.registersReset (s : State) (cls idx : Nat) : State :=
  match cls with
  | 4 => s.modCtx idx (fun x => { x with regs := {}, transReg := 0 })
  | 5 => s.modHost idx (fun x => { x with slowReadNs := 1500 })
  | _ => s

/-- ARRAY_PATROL: a corrected error is counted at its unit; an uncorrectable one in a key slot, a token bucket or a lease timer is a unit fault (R416,
R420). DESIGN CHOICE (entry 47): the row brings the other paths' and arrays' errors too, since the table has no row for them. -/
def execArrayPatrol (finding : ArrayFinding) (s : State) : Out :=
  match finding with
  | .clean => .next s
  | .corrected cls idx =>
    let k := cls * 2 ^ 24 + idx
    .next { s with svc := { s.svc with corrected := FMap.put s.svc.corrected k (satInc (FMap.get 0 s.svc.corrected k)) } }
  | .uncorrectable cls idx => .next (s.arrayRecord false 3 cls idx)
  | .figure c fid dataPath cls idx => .next (s.figureFault c.val fid dataPath cls idx)
  | .lane n => match s.lanes[n]? with
    | some l => .next ((s.arrayRecord false 2 6 l.port).failLane l 1)
    | none => .next s
  | .heldCopy n => match s.outs[n]? with
    | some o => .next ((s.arrayRecord false 2 6 (o.port.getD 0)).spoilOut n o)
    | none => .next s
  | .register cls idx => .next ((s.arrayRecord false 3 cls idx).registersReset cls idx)
  | .hearth => .next ((s.arrayRecord false 4 9 0).warmReset .hearthError)

end Sys2Proof.Machine
end

