-- ==== Sys2Proof/Machine/Echo.lean ====
section
/-! DEFINITION. Echo checks (R430-R434, R491): the request, and how an echo ends. -/

namespace Sys2Proof.Machine

/-- The Figure of a Card in this engine's Cellar, read again: none where its bytes cannot be read. -/
def State.refetch (s : State) (c idx : Nat) : Option (List Byte) :=
  let off := (s.ctx c).run.base.toNat + 32 * idx
  if s.cellarOpen off 32 && !s.poisonIn off 32 then some (memBytes 0 s.cellar.mem off 32) else none

/-- The request of R430 can run: the context lies in the Suite, is Idle or Stopped and holds a Card, and the Figure is a collective
that passes the checks at issue. A Card in a host's memory is read during the runs (R431). -/
def State.echoCheck (s : State) (i c idx : Nat) : Bool :=
  let x := s.ctx c
  s.suiteHasCtx i c && (s.suite i).state == .serving && (x.state == .idle || x.state == .stopped) && idx < x.run.len &&
  (selSpace x.run.loc.toNat != 1 ||
    (match s.refetch c idx with | some f => isColl (figOp f) && (s.issueCheck c idx f).isNone | none => false))

/-- An echo reports its outcome: status words, a record, and vector 0 (R434, R491). A permanent fault is a Unit fault of the cell
that `unit` names. -/
def State.echoDone (s : State) (i outcome : Nat) (unit : Nat × Nat) : State :=
  let s := s.modSuite i (fun x => { x with echo := { x.echo with busy := false, outcome := outcome } })
  (s.record { event := 0x0901, severity := if outcome = 4 then 3 else 0, unitClass := unit.1, unitIndex := unit.2, detail := outcome }).suiteEvent i

/-- An echo ends with ABORTED (R434). -/
def State.echoAbort (s : State) (i : Nat) : State := s.echoDone i 5 (4, (s.suite i).echo.goCtx)

/-- The request words as ECHO_GO finds them; the result words are cleared (R491). -/
def Echo.go (x : Echo) (now : Word64) : Echo :=
  { x with busy := true, goCtx := x.ctx, goOrdered := x.wasOrdered, goDigest := x.digestLow, goHall := now, outcome := 0, idDone := x.id,
           run1 := 0, run2 := 0, diffEngine := 0, diffStage := 0, diffChunk := 0, cell1 := 0, cell2 := 0 }

/-- ECHO_GO: the request is made, or is dropped while an echo is busy; one that cannot run reports ABORTED (R430, R434, R491). -/
def execEchoGo (host : Fin 16) (s : State) : Out := s.hostIn host.val (.echoGo host) fun s =>
  .next (s.ownerWrite host.val (fun i s =>
    if (s.suite i).echo.busy then s.drop i
    else
      let e := (s.suite i).echo
      let s := s.modSuite i (fun x => { x with echo := x.echo.go s.hall })
      if s.echoCheck i e.ctx e.fig then s else s.echoAbort i))

/-- ECHO_PEER_TIMEOUT: a peer has made no request within 100 ms (R430, R434). -/
def execEchoPeerTimeout (suite : Fin 16) (s : State) : Out :=
  let i := suite.val
  let e := (s.suite i).echo
  if e.busy then .next ((s.reach (e.goHall + 100000000)).echoAbort i) else .next s

/-- The runs differ (R433). -/
def runsDiffer (r : EchoResult) : Bool := r.diff.isSome || r.digest1 != r.digest2

/-- The outcome that two runs have (R434). -/
def echoOutcome (e : Echo) (r : EchoResult) : Nat :=
  if r.failed then 5
  else if runsDiffer r then (match r.diff with | some d => if d.pass1 && d.pass2 then 3 else 4 | none => 3)
  else if !e.goOrdered then 1
  else if r.digest1.toNat % 2 ^ 32 = e.goDigest.toNat then 0 else 2

/-- The cells of a difference that fail their scan. -/
def failingCells (d : EchoDiff) : List Nat := (if d.pass1 then [] else [d.cell1]) ++ (if d.pass2 then [] else [d.cell2])

/-- The staging extent of a cell that has failed its scan is quarantined (R360, R434). -/
def State.cellFailed (s : State) (cell : Nat) : State :=
  if (s.ext (cell / 32)).state == .staging then s.stagingLost (cell / 32) else s

/-- ECHO_COMPLETE: the runs, and any scan they need, have ended (R431, R433, R434). Cells are those of the engine at which the runs
first differ. -/
def execEchoComplete (suite : Fin 16) (res : EchoResult) (s : State) : Out :=
  let i := suite.val
  let e := (s.suite i).echo
  if !e.busy then .next s
  else
    let out := echoOutcome e res
    let here (d : EchoDiff) : Bool := d.engine.toNat == s.engineId
    let s := if res.failed then s else s.modSuite i (fun x => { x with echo := { x.echo with run1 := res.digest1, run2 := res.digest2 } })
    let unit := match res.diff with
      | some d => if out = 4 then (if here d then (1, (failingCells d).headD 0) else (0x0D, d.engine.toNat)) else (4, e.goCtx)
      | none => (4, e.goCtx)
    let s := match res.diff with
      | some d =>
        if res.failed then s
        else
          let s := s.modSuite i (fun x => { x with echo := { x.echo with
            diffEngine := d.engine, diffStage := d.stage % 4, diffChunk := d.chunk,
            cell1 := BitVec.ofNat 32 (0x01000000 + d.cell1), cell2 := BitVec.ofNat 32 (0x01000000 + d.cell2) } })
          if here d then overList State.cellFailed (failingCells d) s else s
      | none => s
    .next (s.echoDone i out unit)

end Sys2Proof.Machine
end

