-- ==== Sys2Proof/Machine/Startup.lean ====
section
/-! DEFINITION. Start-up after the image has loaded (R61-R66, R74-R82): the lock and the conflicts it refuses, the boot scrub, training,
syncing and Ready. -/

namespace Sys2Proof.Machine

/-! ## Conflicts refused at boot (R75) -/

/-- A feature left disabled, and why: its unit, the row, the kept feature's class and index (R75). -/
def State.conflict (s : State) (cls idx row keptCls keptIdx : Nat) : State :=
  s.record { event := 0x0602, severity := 0, unitClass := cls, unitIndex := idx, detail := row + keptCls * 0x100 + keptIdx * 0x10000 }

/-- A whole Suite is left disabled (R75). -/
def State.dropSuite (s : State) (i row keptCls keptIdx : Nat) : State :=
  (s.modSuite i (fun x => { x with refusedAtBoot := true })).conflict 8 i row keptCls keptIdx

/-- Row 1: both SYNC uses; the epoch input is kept. -/
def State.conflictSync (s : State) : State :=
  if bit (s.cfg 0x00B 1) 0 && bit (s.cfg 0x00B 1) 1 then
    ({ s with hearth := { s.hearth with wireDisabled := true } } : State).conflict 9 0 1 9 0
  else s

/-- Two Suites claim one host port or one context. -/
def State.suitesMeet (s : State) (i j : Nat) : Bool :=
  (List.range 16).any (fun p => s.suiteHasPort i p && s.suiteHasPort j p) || (s.suiteCtxs i).any (fun c => s.suiteHasCtx j c)

/-- Row 2: the lower-numbered Suite is kept. -/
def State.conflictSuites (s : State) : State :=
  overList (fun s i =>
    match (List.range i).find? (fun j => s.suiteOn i && s.suiteOn j && s.suitesMeet i j) with
    | some j => s.dropSuite i 2 8 j
    | none => s) (List.range 16) s

/-- Row 3: a bonded pair in two Suites; the one that owns HP2n is kept. -/
def State.conflictBonds (s : State) : State :=
  overList (fun s n =>
    match s.suiteOfPort (2 * n), s.suiteOfPort (2 * n + 1) with
    | some i, some j => if s.bonded n && i != j then s.dropSuite j 3 8 i else s
    | _, _ => s) (List.range 8) s

/-- The extents that staging and the enabled Suites' floors need (R75, R140). -/
def State.floorSum (s : State) : Nat := s.stagingCount + (((List.range 16).filter s.suiteOn).map (fun i => s.suiteCfg i 6 2)).sum

/-- Row 4: Suites fall out from the highest number until staging and the floors fit. -/
def State.conflictFloors (s : State) : State :=
  overList (fun s i => if s.suiteOn i && s.usable.length < s.floorSum then s.dropSuite i 4 9 0 else s) (List.range 16).reverse s

/-- Row 5: host ports and FP32 to FP35 of a spine. -/
def State.conflictSpine (s : State) : State :=
  if !s.spine then s
  else
    let s := overList (fun s p => if bit (s.cfg 0x00C 2) p then s.conflict 5 p 5 9 0 else s) (List.range 16) s
    overList (fun s p => if bit (s.cfg 0x014 8) p then s.conflict 6 p 5 9 0 else s) [32, 33, 34, 35] s

/-- Row 6: enabled host ports in no enabled Suite. -/
def State.conflictPorts (s : State) : State :=
  overList (fun s p => if bit (s.cfg 0x00C 2) p && !s.spine && (s.suiteOfPort p).isNone then s.conflict 5 p 6 0 0 else s) (List.range 16) s

/-! ## Locking (R27, R74-R78) -/

/-- The role fits the Room (R27). -/
def State.roleFits (s : State) : Bool := s.hearth.roomId.toNat ≤ 17 && (s.spine == decide (16 ≤ s.hearth.roomId.toNat))

/-- The lock: ports are Disabled, unused or wait for Training, hosts wait in Detect, and the identity values stand (R76-R78, R390,
R394). -/
def State.lock (s : State) : State :=
  let s := { s with
    hearth := { s.hearth with startup := .scrubbing, locked := true, configDigest := digest8 s.hearth.config },
    wd := { s.wd with lockPending := true } }
  let start (p : Nat) : PortState := if !s.fabOn p then .disabled else if (s.wired p).isNone then .idleUnused else .down
  let s := overList (fun s p => s.modPort p (fun x => { x with state := start p })) (List.range 36) s
  overList (fun s h => s.modHost h (fun x => { x with state := .detect })) s.hostIndices s

/-- LOCKING_COMPLETE: the role is checked, conflicts are refused, and the configuration is locked (R27, R74-R78). -/
def execLockingComplete (s : State) : Out :=
  if s.hearth.startup != .locking then .next s
  else
    let s := { s with hearth := { s.hearth with disabledMap := s.bootMap s.hearth.imageRetire } }
    if s.roleFits then
      .next s.conflictSync.conflictSuites.conflictBonds.conflictFloors.conflictSpine.conflictPorts.lock
    else
      let s := s.record { event := 0x0603, severity := 4, unitClass := 0x0D, unitIndex := s.engineId,
                          detail := s.hearth.slotId.toNat + s.hearth.roomId.toNat * 8 + s.cfg 6 1 * 0x100 }
      .next { s with hearth := { s.hearth with startup := .held } }

/-! ## Scrubbing (R77, R79-R82, R328) -/

/-- The 100 bytes of the disabled-unit map (R77). -/
def mapBytes (l : List Nat) : List Byte :=
  (List.range 100).map (fun i => BitVec.ofNat 8 (((List.range 8).map (fun j => if l.contains (8 * i + j) then 2 ^ j else 0)).sum))

/-- The Cellar as the boot scrub leaves it: every word zero, staging the highest-numbered usable extents, the Bell area their lowest
quarter (R80, R82, R328). -/
def State.layOut (s : State) : State :=
  let ok := s.usable
  let st := ok.drop (ok.length - min s.stagingCount ok.length)
  let ext (e : Nat) : Extent :=
    if st.contains e then { state := .staging, owner := .staging, power := .awake }
    else if (s.ext e).state == .quarantined then { state := .quarantined, quarantine := true, corrected := (s.ext e).corrected }
    else {}
  { s with cellar := { extents := (allExtents.filter (fun e => st.contains e || (s.ext e).state == .quarantined)).map (fun e => (e, ext e)),
                       staging := st, bellArea := st.take (s.stagingCount / 4) } }

/-- Training begins: enabled fabric ports train, and host ports may (R61, R65, R377). A port held down stays so. -/
def State.beginTraining (s : State) : State :=
  let s := { s with hearth := { s.hearth with startup := .training } }
  let s := overList (fun s p => if s.mayTrain p && ((s.port p).state != .heldDown || (s.port p).heldByHalt) then
    s.modPort p (fun x => { x.linkGone .training with heldByHalt := false }) else s) (List.range 36) s
  overList (fun s h => if (s.host h).heldByHalt then s.modHost h (fun x => { x with state := .detect, heldByHalt := false }) else s) s.hostIndices s

/-- SCRUB_COMPLETE: failing groups join the map, its digest is final, staging is fixed; Training follows, or Halted at start (R63, R79-R82,
R328, R458). -/
def execScrubComplete (bad : List (Nat × Nat)) (s : State) : Out :=
  if s.hearth.startup != .scrubbing then .next s
  else
    let bad := bad.filter (fun b => b.1 < 800 && b.2 < 32 && s.extUsable b.1)
    let s := overList (fun s b => s.record { event := 0x0102, severity := 2, unitClass := 1, unitIndex := b.1 * 32 + b.2 }) bad s
    let map := bad.foldl (fun m b => insertNat b.1 m) s.hearth.disabledMap
    let s := { s with hearth := { s.hearth with disabledMap := map, mapDigest := digest8 (mapBytes map) } }
    let s := s.capacityCheck.layOut
    if s.halt.atStart then
      .next { s with hearth := { s.hearth with startup := .haltedAtStart }, halt := { s.halt with state := .halted } }
    else .next s.beginTraining

/-! ## Training, Syncing and Ready (R65, R66) -/

/-- TRAINING_PHASE_END: a fabric port that has not trained is reported down, and Syncing begins (R65). -/
def execTrainingPhaseEnd (s : State) : Out :=
  if s.hearth.startup != .training then .next s
  else
    let s := overList (fun s p => if (s.port p).state == .training then s.trainFailed p else s) (List.range 36) s
    .next { s with hearth := { s.hearth with startup := .syncing } }

/-- Ready: the engine serves, and what waited for it completes (R60, R61, R83, R141, R394, R460, R512). -/
def State.becomeReady (s : State) : State :=
  let s := { s with
    hearth := { s.hearth with startup := .ready, readyHall := s.hall, syncOut := if s.syncUse 2 && s.halt.state != .halted then .low else .highZ },
    halt := { s.halt with state := if s.halt.state = .resuming then .running else s.halt.state } }
  let s := overList (fun s h => if (s.host h).state == .upNotReady then s.serveHost h else s) s.hostIndices s
  let s := overList (fun s i => if s.suiteOn i && (s.suite i).state == .disabled && !s.svc.out.contains (8, i) then s.setSuite i .serving else s) (List.range 16) s
  s.acceptAll (fun a => (a.code == 0x08 && a.units == [2]) || a.code == 0x32) 0x00 0

/-- SYNCING_COMPLETE: an exchange on `port` has given a count, which is taken in one step where that port's neighbour is the one that R316 picks,
the trained neighbour of least depth that offers one; the count is the command's, since the stamps of the exchange give it (R66, R315-R317). -/
def execSyncingComplete (port : Fin 36) (count : Word64) (s : State) : Out :=
  match s.hearth.startup, s.countSource with
  | .syncing, some (p, depth) =>
    if p != port.val then .next s else
    let y := { s.sync with status := .synced, offset2 := 0, slewPhase := 0 }
    .next ({ s with hall := count, sync := if s.master then { y with depth := 0, source := none } else { y with depth := depth + 1, source := some p } } : State).becomeReady
  | _, _ => .next s

/-- COUNTER_MASTER_TIMEOUT: no neighbour has offered a count for 20 ms; the master starts at 0 and counts as synced (R66). -/
def execCounterMasterTimeout (s : State) : Out :=
  if s.hearth.startup == .syncing && s.master && s.countSource.isNone then
    .next ({ s with hall := 0, sync := { s.sync with status := .synced, depth := 0, source := none, offset2 := 0, slewPhase := 0 } } : State).becomeReady
  else .next s

end Sys2Proof.Machine
end

