-- ==== Sys2Proof/Machine/WatchdogHalt.lean ====
section
/-! DEFINITION. The watchdog (R443-R455) and the halt inputs (R456-R462). -/

namespace Sys2Proof.Machine

/-- The watchdog state code (R452). -/
def WdState.code : WdState → Nat
  | .boot => 0 | .armed => 1 | .fenced => 2 | .fencedClean => 3

/-- The halt state code (R460). -/
def HaltState.code : HaltState → Nat
  | .running => 0 | .halting => 1 | .halted => 2 | .resuming => 3

/-! ## Check-ins (R445-R448) -/

/-- The key of a slot for a period count (R445). -/
def wdKey (slot count : Nat) : BitVec 16 := BitVec.ofNat 16 (slot * 0x2000 + count % 0x2000) ^^^ 0xC35A

/-- A key computed for the slot from the current count or the one before it (R445). -/
def wdKeyOk (count : Word32) (slot : Nat) (key : BitVec 16) : Bool :=
  key == wdKey slot count.toNat || key == wdKey slot (count - 1).toNat

/-- WATCHDOG_CHECK_IN: accepted for the current period, or counted as a bad key or as a slot that is not enabled (R445, R446). -/
def execWatchdogCheckIn (slot : Fin 8) (key : BitVec 16) (s : State) : Out :=
  let i := slot.val
  if !wdKeyOk s.wd.count i key then .next { s with wd := { s.wd with badKeys := satInc s.wd.badKeys } }
  else if bit s.wdMask i then .next { s with wd := { s.wd with checked := s.wd.checked ||| BitVec.ofNat 8 (2 ^ i) } }
  else .next { s with wd := { s.wd with disabledCheckins := satInc s.wd.disabledCheckins } }

/-- Every Caller with a context in Running has issued a Figure during the period (R447). -/
def State.callersProgress (s : State) : Bool :=
  s.ctxs.all (fun (c, x) => x.state != .running || s.wd.issued.contains (c / 8))

/-- In Doze, Banked, or in the period of the return from it, slots 5 and 6 count as checked in (R52, R448). -/
def State.wdPowerExempt (s : State) : Bool := s.hearth.power == .doze || s.hearth.power == .dozeWaking || s.hearth.power == .banked || s.hearth.exempt56

/-- The slots that the boot ROM checks in: slot 0 in Boot-failed, and while it loads, slot 0 of a boot and every firmware slot of a live
restart, where a 64 KiB block has ended in the period, a free value until the load ends (R62, R72, R88, R454). -/
def State.romChecks (s : State) : BitVec 8 :=
  if s.hearth.startup = .bootFailed then 0x01
  else if s.hearth.startup = .loading then (if Config.romBlockRead s.wd.count.toNat then 0x01 else 0)
  else if s.hearth.live.isSome then (if Config.romBlockRead s.wd.count.toNat then 0x9F else 0)
  else 0

/-- The slots that have checked in, hardware slots and exemptions with them, as a mask (R447, R448). -/
def State.wdChecked (s : State) : Nat :=
  let s5 := s.callersProgress || s.wdPowerExempt || s.issueStopped
  let s6 := s.wdPowerExempt
  (s.wd.checked ||| (if s5 then 0x20 else 0) ||| (if s6 then 0x40 else 0) ||| s.romChecks).toNat

/-- The enabled slots that have not checked in, as a mask (R449). -/
def State.wdMissed (s : State) : Nat := s.wdMask &&& (255 - s.wdChecked)

/-- A new period begins (R62, R444, R452). -/
def Watchdog.newPeriod (w : Watchdog) (locked : Bool) : Watchdog :=
  { w with count := w.count + 1, checked := 0, issued := [], lanes := [], lockPending := false,
           state := if w.state = .boot ∧ locked = true then .armed else w.state }

/-- Vector 0 on the owner port of every Serving Suite (R449). -/
def State.tellSuites (s : State) : State :=
  overList (fun s i => if (s.suite i).state == .serving then s.suiteEvent i else s) (List.range 16) s

/-- WATCHDOG_PERIOD_END: a clean period ends the streak; a miss is recorded and fences the engine; the second in a row resets it
(R449-R452). -/
def execWatchdogPeriodEnd (s : State) : Out :=
  let missed := s.wdMissed
  let w := s.wd.newPeriod s.hearth.locked
  let h := { s.hearth with exempt56 := s.hearth.exempt56 && s.hearth.power != .active }
  if missed = 0 then
    .next { s with hearth := h, wd := { w with streak := 0, state := if w.state = .fenced then .fencedClean else w.state } }
  else
    let first := ((List.range 8).find? (bit missed)).getD 0
    let again := 0 < s.wd.streak
    let s := (s.record { event := 0x0701, severity := 4, unitClass := 0x0B, unitIndex := first, detail := missed }).tellSuites
    let s := { s with hearth := { h with alert := s.hearth.alert },
                      wd := { w with streak := w.streak + 1, lastMissed := BitVec.ofNat 8 missed, state := .fenced } }
    .next (if again then s.warmReset (.watchdog (BitVec.ofNat 8 missed)) else s)

/-! ## Halts (R456-R459) -/

/-- The discrepancy window, µs (R73, R457); its default before the lock. -/
def State.haltWindowUs (s : State) : Nat := if s.hearth.locked then 1000 * s.cfg 0x021 1 else 10000

/-- A halt begins: before Training it is kept for Halted at start; afterwards issue stops (R458, R459). -/
def State.beginHalt (s : State) : State :=
  match s.hearth.startup with
  | .training | .syncing | .ready =>
    if s.halt.state = .running ∨ s.halt.state = .resuming then { s with halt := { s.halt with state := .halting } } else s
  | _ => { s with halt := { s.halt with atStart := true } }

/-- A disagreement has reached the window: the fault is recorded, and a halt begins (R457). -/
def State.discrepancyFault (s : State) (channelB : Bool) : State :=
  let s := s.record { event := 0x0702, severity := 4, unitClass := 0x0C, unitIndex := 0,
                      detail := s.haltWindowUs + (if channelB then 2 else 1) * 2 ^ 28 }
  ({ s with halt := { s.halt with faultFound := true } } : State).beginHalt

/-- The engine is Halted, Halted at start included (R457, R460). -/
def State.isHalted (s : State) : Bool := s.halt.state == .halted

/-- HALT_INPUT_CHANGE: a channel's filtered level has changed; `samples` is the length of the disagreement that this ends, in whole
samples (R456, R457, R458). -/
def execHaltInputChange (channelB asserted : Bool) (samples : Nat) (s : State) : Out :=
  let was := if channelB then s.halt.assertedB else s.halt.assertedA
  if was = asserted then .next s
  else
    let other := if channelB then s.halt.assertedA else s.halt.assertedB
    -- A disagreement that has lasted the window is a fault by then.
    let apart := s.halt.assertedA != s.halt.assertedB
    let alone := if other then !channelB else channelB
    let s := if apart && !s.halt.faultFound && s.haltWindowUs ≤ samples then s.discrepancyFault alone else s
    let glitch := apart && !asserted && !s.halt.faultFound && !s.isHalted
    let s := if glitch then s.record { event := 0x0703, severity := 0, unitClass := 0x0C, unitIndex := 0,
                                       detail := samples % 2 ^ 28 + (if channelB then 2 else 1) * 2 ^ 28 } else s
    let h := if channelB then { s.halt with assertedB := asserted } else { s.halt with assertedA := asserted }
    let s := { s with halt := { h with faultFound := false } }
    .next (if asserted && other then s.beginHalt else s)

/-- HALT_DISCREPANCY_EXPIRY: one channel alone has been asserted for the window (R457). -/
def execHaltDiscrepancyExpiry (s : State) : Out :=
  if s.halt.assertedA != s.halt.assertedB && !s.halt.faultFound then .next (s.discrepancyFault s.halt.assertedB) else .next s

/-- The outputs go inert: every enabled port reports Held down, and SYNC_OUT is high-Z (R459). -/
def State.goInert (s : State) : State :=
  let s := overList (fun s p => match (s.port p).state with
    | .disabled | .idleUnused | .heldDown => s
    | _ => (s.portTo p .heldDown).modPort p (fun x => { x with heldByHalt := true })) (List.range 36) s
  let s := overList (fun s h => if (s.host h).state == .disabled || (s.host h).state == .heldDown then s
    else (s.linkLost h .heldDown 0x23 (s.hostPos h)).modHost h (fun x => { x with heldByHalt := true })) s.hostIndices s
  { s with hearth := { s.hearth with syncOut := .highZ }, sync := { s.sync with pulseEnd := none } }

/-- HALT_GRACE_EXPIRY: 1 ms into a halt, Figures still in flight complete with 0x40, their entries are written, and the outputs go inert
(R459). -/
def execHaltGraceExpiry (s : State) : Out :=
  if s.halt.state != .halting then .next s
  else
    let s := (overList (fun s c => s.cancelAll c) (s.ctxs.map (fun x => x.1)) s).settleAll
    .next { s.goInert with halt := { s.goInert.halt with state := .halted } }

/-- The ports that a halt has held down train again (R461). -/
def State.trainAgain (s : State) : State :=
  let s := overList (fun s p => if (s.port p).heldByHalt then
    (s.retrain p).modPort p (fun x => { x with heldByHalt := false }) else s) (List.range 36) s
  overList (fun s h => if (s.host h).heldByHalt then s.modHost h (fun x => { x with state := .detect, heldByHalt := false }) else s) s.hostIndices s

/-- RESUME_COMPLETE: the links have trained and the count has resynced; the halt is over (R460, R461, R512). -/
def execResumeComplete (s : State) : Out :=
  if s.halt.state != .resuming || !s.isReady then .next s
  else
    let s := { s with halt := { s.halt with state := .running },
                      hearth := { s.hearth with syncOut := if s.syncUse 2 then .low else .highZ } }
    .next ((s.acceptAll (fun a => a.code == 0x32) 0x00 0).settleAll)

end Sys2Proof.Machine
end

