-- ==== Sys2Proof/Machine/SledPower.lean ====
section
/-! DEFINITION. The sled (chapter 20): its power path (R529-R537), thermal response (R547-R549), the TAP (R544-R546), and the power states
of the engine (R42-R53). -/

namespace Sys2Proof.Machine

/-! ## The power path (R529, R532-R534, R537) -/

/-- The 54 V input lies in the range in which the sled powers on, 48 V through 56 V (R532). -/
def Sled.inRange (x : Sled) : Bool := 48000 ≤ x.inputMv && x.inputMv ≤ 56000

/-- A sled in place with its input in range starts the debounce (R532). -/
def State.tryDebounce (s : State) : State :=
  if s.sled.prsntLow && s.sled.inRange && (s.sled.path == .off || s.sled.path == .debounce) then { s with sled := { s.sled with path := .debounce } } else s

/-- PRSNT_N_MATE: PRSNT_N reads low, and the debounce starts, or starts again (R532). -/
def execPrsntNMate (s : State) : Out := .next ({ s with sled := { s.sled with prsntLow := true } } : State).tryDebounce

/-- PRSNT_DEBOUNCE_COMPLETE: the bulk capacitance charges (R532). -/
def execPrsntDebounceComplete (s : State) : Out :=
  if s.sled.path == .debounce && s.sled.prsntLow && s.sled.inRange then .next { s with sled := { s.sled with path := .charging } } else .next s

/-- BULK_CHARGE_COMPLETE: the rails are sequenced (R533). -/
def execBulkChargeComplete (s : State) : Out :=
  if s.sled.path == .charging then .next { s with sled := { s.sled with path := .sequencing } } else .next s

/-- POWER_ON_RESET: the rails are in specification with REFCLK_25 running (R58, R533). -/
def execPowerOnReset (s : State) : Out :=
  if (s.sled.path == .sequencing || s.sled.path == .on) && s.sled.refclk then
    let s := s.powerOn
    .next { s with sled := { s.sled with path := .on } }
  else .next s

/-- PRSNT_N_BREAK: the main path is turned off (R534, R535). -/
def execPrsntNBreak (s : State) : Out := .next ({ s with sled := { s.sled with prsntLow := false } } : State).powerLost

/-- INPUT_VOLTAGE_FAULT: below 44 V for 100 µs, or above 60 V, power is removed (R529). -/
def execInputVoltageFault (mv : Nat) (s : State) : Out :=
  if mv < 44000 || 60000 < mv then .next ({ s with sled := { s.sled with inputMv := mv } } : State).powerLost else .next s

/-- INPUT_VOLTAGE_RETURN: with the input back in range the power-on path starts again (R529, R532). -/
def execInputVoltageReturn (mv : Nat) (s : State) : Out :=
  if s.sled.path == .off && 48000 ≤ mv && mv ≤ 56000 then .next ({ s with sled := { s.sled with inputMv := mv } } : State).tryDebounce else .next s

/-- REFCLK_LOSS: power-on reset is asserted, and the engine stays in reset (R537). -/
def execRefclkLoss (s : State) : Out :=
  let t := s.powerOn
  if s.sled.path == .on then .next { t with sled := { t.sled with refclk := false } } else .next { s with sled := { s.sled with refclk := false } }

/-- REFCLK_RESTORED: after 1 ms of REFCLK_25 the engine starts up as after power-on (R59, R537). -/
def execRefclkRestored (s : State) : Out :=
  if s.sled.refclk then .next s
  else if s.sled.path == .on then let s := s.powerOn; .next { s with sled := { s.sled with refclk := true } }
  else .next { s with sled := { s.sled with refclk := true } }

/-! ## Thermal (R547-R549) -/

/-- The grade's CCLK frequency, MHz (R40, R551). -/
def State.gradeMHz (s : State) : Nat := 100 * s.fuses.grade

/-- TEMPERATURE_UPDATE: Tj is the highest of the sensors, in quarter degrees; at 115 °C power is removed (R547, R548). -/
def execTemperatureUpdate (sensors : List Int) (coreMv : Nat) (s : State) : Out :=
  match sensors with
  | [] => .next s
  | t :: l =>
    let tj := l.foldl max t
    let s := { s with thermal := { s.thermal with tj := tj, coreMv := coreMv } }
    .next (if 460 ≤ tj then s.powerLost else s)

/-- CCLK at a new frequency; it is throttled while below the grade's (R548). -/
def State.setCclk (s : State) (mhz : Nat) : State :=
  { s with thermal := { s.thermal with cclkMHz := mhz, throttling := decide (mhz < s.gradeMHz) } }

/-- THROTTLE_STEP_DOWN: at 95 °C or above CCLK falls by 100 MHz, to 800 MHz at least; each context with a Figure in flight counts it
(R324, R548). -/
def execThrottleStepDown (s : State) : Out :=
  if 380 ≤ s.thermal.tj && 800 < s.thermal.cclkMHz then
    let s := s.setCclk (max 800 (s.thermal.cclkMHz - 100))
    .next (overList (fun s c => if (s.ctx c).flights.isEmpty then s else s.disturb (some (c, 0))) (s.ctxs.map (fun x => x.1)) s)
  else .next s

/-- THROTTLE_STEP_UP: at 92 °C or below CCLK rises by 100 MHz, to the grade's at most (R548). -/
def execThrottleStepUp (s : State) : Out :=
  if s.thermal.tj ≤ 368 && s.thermal.cclkMHz < s.gradeMHz then .next (s.setCclk (min s.gradeMHz (s.thermal.cclkMHz + 100))) else .next s

/-- THERMAL_HALT: Tj has stayed at 105 °C or above for 1 ms, and a halt begins (R548). -/
def execThermalHalt (s : State) : Out :=
  if 420 ≤ s.thermal.tj then .next ({ s with thermal := { s.thermal with thermalHalt := true } } : State).beginHalt else .next s

/-! ## The TAP (R544-R546) -/

/-- The instruction that an opcode selects: every opcode outside the table acts as BYPASS (R544). -/
def tapDecode (op : BitVec 8) : BitVec 8 := if op = 0x00 ∨ op = 0x01 ∨ op = 0x02 ∨ op = 0x08 ∨ op = 0x09 then op else 0xFF

/-- EXTEST, HIGHZ and CLAMP. -/
def tapDrives (op : BitVec 8) : Bool := op == 0x00 || op == 0x08 || op == 0x09

/-- The identification register (R545): the stepping in bits 31:28, the part number 0x0256, the manufacturer code 0x4D7, and bit 0 set. -/
def State.idcode (s : State) : Word32 := BitVec.ofNat 32 (s.fuses.stepping.toNat * 2 ^ 28 + 0x0256 * 2 ^ 12 + 0x4D7 * 2 + 1)

/-- What the data register that the TAP's instruction selects captures, for those that the spec gives a content: the identification register
(R545), or the bypass bit. IEEE 1149.1 has the bypass bit capture 0: PRESUMED (entry 38). -/
def State.tapCapture (s : State) : Option Word32 :=
  if s.tap.instr = 0x01 then some s.idcode else if s.tap.instr = 0xFF then some 0 else none

/-- An instruction is loaded: after Locking, one that drives the pins starts a halt (R544, R546). -/
def State.tapLoad (s : State) (op : BitVec 8) : State :=
  let i := tapDecode op
  let s := { s with tap := { s.tap with instr := i, drivesPins := tapDrives i } }
  if tapDrives i && s.hearth.locked then s.beginHalt else s

/-- TAP_INSTRUCTION (R544). -/
def execTapInstruction (op : BitVec 8) (s : State) : Out := .next (s.tapLoad op)

/-- TAP_HALT_INSTRUCTION: EXTEST, HIGHZ or CLAMP (R546). -/
def execTapHaltInstruction (op : BitVec 8) (s : State) : Out := if tapDrives op then .next (s.tapLoad op) else .next s

/-- TAP_RESET: the TAP's reset state leaves any instruction, with IDCODE selected; the engine stays as it is (R546). -/
def execTapReset (s : State) : Out := .next { s with tap := { s.tap with instr := 0x01, drivesPins := false } }

/-! ## Doze (R43-R46) -/

/-- A Figure in flight that counts as idle for Doze: one that waits on a Bell, on a count or on a credit, which is a ring entry for its
completion or staging for a collective; a BARRIER never does (R43). -/
def Flight.dozeIdle (f : Flight) : Bool :=
  match f.kind with
  | .barrier .. => false
  | .bellWait .. => true
  | .take .. => true
  | .waitCount _ => true
  | .coll k => f.done.isSome || !k.reserved
  | _ => f.done.isSome

/-- A context that is idle for Doze: every Figure in flight waits, and none is ready to issue (R43). -/
def State.dozeIdle (s : State) (c : Nat) : Bool := !(s.canIssue c && (s.ctx c).reached) && (s.ctx c).flights.all Flight.dozeIdle

/-- A queued flit of VC1 that keeps the engine from Doze: any but a hall-counter sync exchange (R43, R368). -/
def TxFlit.keepsAwake (x : TxFlit) : Bool := byteAt x.bytes 0 != 0x13

/-- Nothing moves on the fabric or toward a host (R43). -/
def State.quiet (s : State) : Bool :=
  s.lanes.isEmpty && s.outs.isEmpty && s.rings.isEmpty &&
  s.ports.all (fun (_, x) => x.vc0.isEmpty && !x.vc1.any TxFlit.keepsAwake && x.vc2.isEmpty && x.vc3.isEmpty) &&
  s.hosts.all (fun (_, x) => x.waitingReqs.isEmpty) && s.hallway.all (fun (_, x) => x.requests.isEmpty) && s.cellar.waiting.isEmpty

/-- DOZE_ENTRY: the idle conditions have held for the window, and the fast clocks are gated (R43). -/
def execDozeEntry (s : State) : Out :=
  if s.isReady && s.hearth.power == .active && !s.activeHold && s.quiet && s.ctxs.all (fun x => s.dozeIdle x.1) then
    .next { s with hearth := { s.hearth with power := .doze } }
  else .next s

/-- The earliest target of a WAIT_COUNT in flight (R45). -/
def State.earliestCount (s : State) : Option Nat :=
  (s.ctxs.flatMap (fun x => x.2.flights.filterMap (fun f => match f.done, f.kind with | none, .waitCount t => some t.toNat | _, _ => none))).foldl
    (fun b t => match b with | none => some t | some u => some (min t u)) none

/-- WAIT_COUNT_WAKE: the longest wake time, 1.5 µs, before the earliest target the engine wakes (R45, R53). -/
def execWaitCountWake (s : State) : Out :=
  match s.earliestCount with
  | some t => if s.hearth.power == .doze then .next (s.reach (BitVec.ofNat 64 (t - 1500))).wake else .next s
  | none => .next s

/-! ## Banked (R48-R52) -/

/-- What Banked leaves of a host block: held down, counters and bucket at their reset values, its session ended (R50, R51). -/
def HostPort.banked (x : HostPort) : HostPort :=
  if x.state == .disabled then { state := .disabled, everServed := x.everServed } else { state := .heldDown, heldByHalt := x.state != .heldDown || x.heldByHalt, everServed := x.everServed }

/-- What Banked leaves of a fabric port: electrical idle, counters 0 (R50, R51). -/
def FabPort.banked (x : FabPort) : FabPort :=
  match x.state with
  | .disabled => x
  | .idleUnused => x
  | .heldDown => { state := .heldDown, heldByHalt := x.heldByHalt }
  | .miswired => { state := .miswired, farEngine := x.farEngine, farPort := x.farPort, farHall := x.farHall }
  | _ => { state := .down }

/-- What Banked leaves of a Suite: what boot refused. DESIGN CHOICE (entry 25): its DRR weight written through management stays, since the
table of R51 does not list it. -/
def Suite.banked (x : Suite) : Suite := { refusedAtBoot := x.refusedAtBoot, weight := x.weight }

/-- What Banked makes of the parts in service and the scans: a power-down ends out of service, all else is over, and the commands
complete. -/
def State.bankService (s : State) : State :=
  let down := (s.svc.jobs.filter (fun j => j.powerDown && decide (j.phase ≠ .drainRestart) && j.unitClass != 5 && j.unitClass != 6)).map (fun j => (j.unitClass, j.unitIndex))
  let s := { s with svc := { s.svc with jobs := [], scans := [], out := s.svc.out ++ down } }
  ((s.acceptAll (fun a => a.code == 0x28) 0x00 0).acceptAll (fun a => a.code == 0x30) 0x21 0).cellarDone

/-- BANKED_ENTRY_COMPLETE: only the Hearth stays powered (R51). Every port goes down first, as its far end sees it. -/
def execBankedEntryComplete (s : State) : Out :=
  if s.hearth.power != .banking then .next s
  else
    let s := overList (fun s p => if s.portUp p then s.leaveUp p .down else s) (List.range 36) s
    let s := overList (fun s h => if (s.host h).state == .serving || (s.host h).state == .upNotReady then
      s.linkLost h .linkLost 0x23 (s.hostPos h) else s) s.hostIndices s
    let kept := s.cellar.extents.filter (fun x => x.2.state == .quarantined)
    let s := { s with
      hearth := { s.hearth with power := .banked, syncOut := .highZ },
      sync := { s.sync with pulseEnd := none },
      hosts := s.hosts.map (fun (h, x) => (h, HostPort.banked x)), ports := s.ports.map (fun (p, x) => (p, FabPort.banked x)),
      suites := s.suites.map (fun (i, x) => (i, Suite.banked x)),
      ctxs := [], callers := [], groups := [], lanes := [], outs := [], confirmed := [], rings := [], commits := [], owed := [], droppedChunks := [],
      givenUp := [], hallway := [], arrivals := [],
      cellar := { extents := kept } }
    .next (s.bankService.acceptAll (fun a => a.code == 0x08 && a.units == [1]) 0x00 0)

end Sys2Proof.Machine
end

