-- ==== Sys2Proof/Machine/MgmtBase.lean ====
section
/-! DEFINITION. What every management command shares (R510-R513): the response, the session and Ready checks, payload checks, and
the test for objects that are pending or in service. -/

namespace Sys2Proof.Machine

/-! ## Responses (R510, R513) -/

/-- The engine answers a command. -/
def State.respond (s : State) (code : Nat) (tag : BitVec 16) (status detail : Nat) (payload : List Byte) : State :=
  { s with mgmt := { s.mgmt with response := some ⟨code, tag, status, BitVec.ofNat 32 detail, payload⟩ } }

/-- An answer without a payload. -/
def State.reply (s : State) (code : Nat) (tag : BitVec 16) (status detail : Nat) : State := s.respond code tag status detail []

/-- The engine answers OK. -/
def State.ok (s : State) (code : Nat) (tag : BitVec 16) : State := s.reply code tag 0x00 0

/-- The engine answers ACCEPTED, and sends the completion later (R512). -/
def State.accept (s : State) (code : Nat) (tag : BitVec 16) (cls : Nat) (units : List Nat) (region : Option Nat) (payload : List Byte) : State :=
  let s := s.respond code tag 0x01 0 payload
  { s with mgmt := { s.mgmt with accepted := s.mgmt.accepted ++ [⟨code, tag, cls, units, region⟩] } }

/-- A unit as a detail (R134, R419). -/
def unitDetail (cls idx : Nat) : Nat := cls * 2 ^ 24 + idx

/-- The engine answers BUSY for a unit. -/
def State.busy (s : State) (code : Nat) (tag : BitVec 16) (cls idx : Nat) : State := s.reply code tag 0x20 (unitDetail cls idx)

/-! ## Sessions (R508, R509, R511) -/

/-- A number names an open fabric-manager session. -/
def State.fmSession (s : State) (sess : Option Nat) : Bool :=
  match sess with
  | some n => s.mgmt.sessions.any (fun x => x.id == n && x.host.isNone)
  | none => false

/-- A number names an open host session: it carries no command (R509). -/
def State.inHostSession (s : State) (sess : Option Nat) : Bool :=
  match sess with
  | some n => s.mgmt.sessions.any (fun x => x.id == n && x.host.isSome)
  | none => false

/-- Traffic of a session (R506). -/
def State.sessionUsed (s : State) (sess : Option Nat) : State :=
  match sess with
  | some n => { s with mgmt := { s.mgmt with sessions := s.mgmt.sessions.map (fun x => if x.id = n then { x with lastTraffic := s.hall } else x) } }
  | none => s

/-- The boot ROM answers recovery commands without a session (R72, R511). -/
def State.recovery (s : State) : Bool := s.hearth.startup == .bootFailed || s.hearth.startup == .held

/-- A management message reaches the engine: the responder runs from about 1 ms after reset, and no firmware is being replaced
(R60, R88, R502). -/
def State.mgmtOn (s : State) : Bool := s.hearth.smbusOn && s.hearth.live.isNone

/-- A message that finds the firmware away (R88): one that came over PCIe VDM is counted, one over SMBus meets a NACK. No operand says
which way it came. -/
def State.mgmtMissed (s : State) : State :=
  if s.hearth.live.isSome then
    { s with freeCtr := s.freeCtr + 1,
             hearth := { s.hearth with vdmDropped := if Config.cameOverVdm s.freeCtr then satInc s.hearth.vdmDropped else s.hearth.vdmDropped } }
  else s

/-! ## The checks of a command (R511, R513, R515) -/

/-- The checks that every command passes before its own: session, Ready, length, fields; `fields` holds, in ascending payload offset,
what makes a field bad. -/
def State.command (s : State) (sess : Option Nat) (tag : BitVec 16) (code : Nat) (free ready lenOk : Bool) (fields : List (Bool × Nat))
    (f : State → State) : State :=
  if !s.mgmtOn then s.mgmtMissed
  else
    let s := s.sessionUsed sess
    if !(s.fmSession sess || (free && !s.inHostSession sess)) then s.reply code tag 0x12 0
    else if ready && !s.isReady then s.reply code tag 0x13 s.hearth.startup.code
    else if !lenOk then s.reply code tag 0x10 code
    else match fields.find? (fun x => x.1) with
      | some (_, o) => s.reply code tag 0x11 (8 + o)
      | none => f s

/-- A command from GRANT onward in the table: it needs a session and Ready, and the fast clocks (R44, R511). -/
def State.readyCommand (s : State) (sess : Option Nat) (tag : BitVec 16) (code : Nat) (lenOk : Bool) (fields : List (Bool × Nat))
    (f : State → State) : State :=
  s.command sess tag code false true lenOk fields (fun s => f s.wake)

/-- A reserved field is not 0. -/
def nonzero (p : List Byte) (off len : Nat) : Bool := !allZero p off len

/-! ## Objects (R467, R512) -/

/-- An ACCEPTED command on a unit has not completed. -/
def State.pendingUnit (s : State) (cls idx : Nat) : Bool := s.mgmt.accepted.any (fun a => a.unitClass == cls && a.units.contains idx)
/-- An ACCEPTED command on a region has not completed. -/
def State.pendingRegion (s : State) (r : Nat) : Bool := s.mgmt.accepted.any (fun a => a.region == some r)

/-- The service of a part that is under way. -/
def State.svcJob (s : State) (cls idx : Nat) : Option SvcJob := s.svc.jobs.find? (fun j => j.unitClass == cls && j.unitIndex == idx)

/-- A command addressed to a unit that is pending, or a part in service: it is counted there and answers BUSY (R467, R512). -/
def State.ifFree (s : State) (code : Nat) (tag : BitVec 16) (cls idx : Nat) (f : State → State) : State :=
  if (s.svcJob cls idx).isSome then (s.countTarget (unitDetail cls idx)).busy code tag cls idx
  else if s.pendingUnit cls idx then s.busy code tag cls idx
  else f s

end Sys2Proof.Machine
end

