-- ==== Sys2Proof/Machine/Service.lean ====
section
/-! DEFINITION. Servicing parts in place (chapter 17, R390, R493): the drain, the reset and the end state of a Suite, a host port, a
fabric port, a cell group or a Caller, and the SERVICE actions that ask for them. -/

namespace Sys2Proof.Machine

/-! ## Parts (R419, R463) -/

/-- The Suite state code (R141). -/
def SuiteState.code : SuiteState → Nat
  | .disabled => 0 | .serving => 1 | .draining => 2 | .drainRestart => 3 | .resetting => 4

/-- The host-port state code (R394). -/
def HostState.code : HostState → Nat
  | .disabled => 0 | .detect => 1 | .training => 2 | .upNotReady => 3 | .serving => 4 | .linkLost => 5 | .heldDown => 6

/-- The extent state code (R332). -/
def ExtState.code : ExtState → Nat
  | .free => 0 | .granting => 1 | .granted => 2 | .fenced => 3 | .reclaiming => 4 | .staging => 5 | .quarantined => 6

/-- The extent state that management and the port page show: Retired for an extent of the map (R332). -/
def State.extCode (s : State) (e : Nat) : Nat := if s.hearth.disabledMap.contains e then 7 else (s.ext e).state.code

/-- How many units a class has that can be serviced: cell groups, Callers, host ports, fabric ports, Suites. -/
def partCount : Nat → Nat
  | 2 => 800 | 3 => 32 | 5 => 16 | 6 => 36 | 8 => 16 | _ => 0

/-- The part that an index names: either port of a bonded pair names the pair (R463). -/
def State.partIndex (s : State) (cls idx : Nat) : Nat := if cls = 5 then s.hostIndex idx else idx

/-- The contexts of a Caller (R135). -/
def callerCtxs (k : Nat) : List Nat := (List.range 8).map (fun i => 8 * k + i)

/-- The state of a part, for a refusal's detail (R513): of a Caller, that of its first context in use. -/
def State.partState (s : State) (cls idx : Nat) : Nat :=
  match cls with
  | 2 => s.extCode idx
  | 3 => (((callerCtxs idx).map (fun c => (s.ctx c).state.code)).find? (fun n => n != 0)).getD 0
  | 5 => (s.host idx).state.code
  | 6 => (s.port idx).state.code
  | _ => (s.suite idx).state.code

/-- The part is enabled in the locked configuration, and boot did not disable it (R463, R472). -/
def State.partOn (s : State) (cls idx : Nat) : Bool :=
  match cls with
  | 2 => s.extUsable idx
  | 3 => true
  | 5 => s.hostIndices.contains idx && (s.host idx).state != .disabled
  | 6 => s.fabOn idx
  | _ => s.suiteOn idx

/-- The precondition of a reset or a power-down (R463); a fabric port that is Idle, unused stays so until a warm reset (R390). -/
def State.serviceable (s : State) (cls idx : Nat) (powerDown : Bool) : Bool :=
  s.partOn cls idx && (match cls with
    | 2 => !s.extBusy idx && ((s.ext idx).state == .free ||
        ((s.ext idx).state == .staging && s.cellar.staging.contains idx && !s.cellar.replacing.any (fun r => r.1 == idx) && !s.freeExts.isEmpty))
    | 3 => !powerDown || (callerCtxs idx).all (fun c => (s.ctx c).state == .unassigned)
    | 6 => (s.port idx).state != .disabled && (s.port idx).state != .idleUnused
    | 8 => (s.suite idx).state == .serving
    | _ => true)

/-! ## The drain (R466) -/

/-- A context's drain is over, and so is its Clearing. -/
def State.ctxQuiet (s : State) (c : Nat) : Bool := !(s.ctx c).live && !(s.ctx c).drains && (s.ctx c).state != .clearing

/-- A Suite drains: every context is aborted, and an echo under way ends (R141, R434, R466). -/
def State.drainSuite (s : State) (i : Nat) : State :=
  let s := s.setSuite i .draining
  let s := if (s.suite i).echo.busy then s.echoAbort i else s
  overList (fun s c => s.abortCtx c .suiteDrain) (s.suiteCtxs i) s

/-- A host port drains: no new request, extents fenced, and the Figures that need a DMA to it fail (R466). -/
def State.drainHost (s : State) (h : Nat) : State :=
  let s := (s.modHost h (fun x => { x with blocked := true })).fenceHost h
  (s.failWhere (fun c f => s.needsHost h c f) 0x32 (unitDetail 5 h)).settleAll

/-- A fabric port drains: it leaves Up, and sends what it has queued until that is acknowledged (R35, R466). -/
def State.drainPort (s : State) (p : Nat) : State :=
  if s.portUp p then s.leaveUpAs p (fun x => { x with state := .heldDown, draining := true }) else s.modPort p (fun x => x.linkGone .heldDown)

/-- A part begins to drain (R466). -/
def State.drainPart (s : State) (cls idx : Nat) : State :=
  match cls with
  | 2 => if (s.ext idx).state == .staging then s.replaceStaging idx else s
  | 3 => overList (fun s c => s.abortCtx c .abort) (callerCtxs idx) s
  | 5 => s.drainHost idx
  | 6 => s.drainPort idx
  | _ => s.drainSuite idx

/-- Nothing is left on the port to send or to be acknowledged. -/
def FabPort.drained (x : FabPort) : Bool := x.replayBuf.isEmpty && x.vc0.isEmpty && x.vc1.isEmpty && x.vc2.isEmpty && x.vc3.isEmpty

/-- The condition that ends a drain holds; a fabric port's ends after 100 µs in any case, and a host port's queue is empty where only writes that a
clear Bus Master Enable holds are left (R400, R466). -/
def State.partDrained (s : State) (cls idx : Nat) : Bool :=
  match cls with
  | 2 => !s.cellar.replacing.any (fun r => r.1 == idx)
  | 3 => (callerCtxs idx).all s.ctxQuiet
  | 5 => let x := s.host idx; x.tags.all (fun t => t.timedOut) && x.path.isEmpty && (x.heldWrites.isEmpty || !x.busMaster)
  | 6 => true
  | _ => (s.suiteCtxs idx).all s.ctxQuiet

/-! ## The reset (R469, R473) -/

/-- A part enters Resetting: what its input queues hold is discarded, and their credits return (R469). -/
def State.resetPart (s : State) (cls idx : Nat) : State :=
  match cls with
  | 2 => ({ s with cellar := s.cellar.scrub idx } : State).modExt idx (fun (x : Extent) =>
      { state := if x.state = .quarantined then .quarantined else .free, power := .awake, quarantine := x.quarantine, corrected := x.corrected })
  | 3 => overList (fun s c => s.modCtx c (fun x => if x.asg.valid then { x.clear x.asg with latched := x.latched } else x)) (callerCtxs idx) s
  | 5 => ({ s with hallway := FMap.del s.hallway idx } : State).modHost idx (fun x =>
      { x.resetFunction with state := .heldDown, width := 0, rate := 0, degraded := false })
  | 6 => s.modPort idx (fun x => { x.linkGone .heldDown with farEngine := 0, farPort := 0, farHall := 0 })
  | _ => overList (fun s c => s.modCtx c (fun x =>
      if x.state = .unassigned then { x with latched := none } else { x.clear {} with before := none })) (s.suiteCtxs idx)
      (s.setSuite idx .resetting)

/-- What a Suite's reset leaves of its owner page; an assignment or a commit that was pending is carried out no more (R473,
R475). -/
def Suite.wasReset (x : Suite) : Suite :=
  { x with quotaCtx := [], quotaGrp := [], quotaCtxEff := [], quotaGrpEff := [], stallValid := false, stallHall := 0, stallReport := [],
           progressAt := 0, stallTold := false, assignResult := if x.assignResult = 1 then 6 else x.assignResult,
           groupResult := if x.groupResult = 1 then 6 else x.groupResult }

/-- A Suite's contexts are Unassigned, its group entries invalid and its Bell blocks free (R473). -/
def State.suiteCleared (s : State) (i : Nat) : State :=
  let s := overList (fun s c => s.modCtx c (fun x => { nextFid := x.nextFid })) (s.suiteCtxs i) s
  let s := overList (fun s g => s.setEntry g none) ((s.groups.map (fun x => x.1)).filter (fun g => g / 256 == i)) s
  ({ s with cellar := ((s.suiteBlocks i).map (fun b => b.1)).foldl Cellar.freeBlock s.cellar } : State).modSuite i Suite.wasReset

/-- A part's reset ends (R473). -/
def State.partCleared (s : State) (cls idx : Nat) : State :=
  match cls with
  | 2 => s.modExt idx (fun x => { x with power := .off })
  | 3 => overList (fun s c => if (s.ctx c).state == .clearing then s.clearingDone c else s) (callerCtxs idx) s
  | 5 => s.modHost idx (fun x => { x with blocked := false })
  | 6 => s
  | _ => s.suiteCleared idx

/-! ## In service, and out of it (R464, R470, R472) -/

/-- A port that would train while the engine is halted waits for the resume (R459, R461). -/
def State.outputsInert (s : State) : Bool := s.halt.state == .halted

/-- A Caller serves again: latched assignments are carried out, and a START latched during a scan runs (R435, R473). -/
def State.callerBack (s : State) (k : Nat) : State :=
  overList (fun s c =>
    let x := s.ctx c
    match x.latched, x.heldStart with
    | some a, _ => if s.ctxQuiet c then s.carryOut c a else s
    | none, some r =>
      if (x.state == .idle || x.state == .stopped) && s.ctxServes c then (s.putCtx c { x.begin r with heldStart := none }).refresh c
      else s.putCtx c { x with heldStart := none }
    | none, none => s) (callerCtxs k) s

/-- A fabric port returns to Training, or to Idle, unused (R390). -/
def State.portBack (s : State) (p : Nat) : State :=
  if (s.wired p).isNone then s.modPort p (fun x => x.linkGone .idleUnused)
  else if s.outputsInert then s.modPort p (fun x => { x with state := .heldDown, heldByHalt := true })
  else s.retrain p

/-- A host port waits for a partner again (R394). -/
def State.hostBack (s : State) (h : Nat) : State :=
  s.modHost h (fun x => if s.outputsInert then { x with state := .heldDown, heldByHalt := true } else { x with state := .detect })

/-- The host blocks of a Suite's ports (R138). -/
def State.suiteHosts (s : State) (i : Nat) : List Nat := s.hostIndices.filter (fun h => s.suiteHasPort i h)

/-- A part is in service; one that failed a scan is not (R436, R464). -/
def State.partBack (s : State) (cls idx : Nat) : State :=
  let s := { s with svc := { s.svc with out := s.svc.out.filter (fun u => u != (cls, idx)) } }
  if s.svc.failed.contains (cls, idx) then s
  else match cls with
    | 2 => s
    | 3 => s.callerBack idx
    | 5 => s.hostBack idx
    | 6 => s.portBack idx
    | _ => overList (fun s h => if (s.host h).state == .disabled then s.hostBack h else s) (s.suiteHosts idx) (s.setSuite idx .serving)

/-- A part goes out of service: a Suite's ports are held in Detect (R141, R464, R493). -/
def State.partOut (s : State) (cls idx : Nat) : State :=
  match cls with
  | 5 => s
  | 6 => s
  | 8 =>
    let s := s.setSuite idx .disabled
    let s := { s with svc := { s.svc with out := s.svc.out ++ [(8, idx)] } }
    overList (fun s h => if (s.host h).state == .heldDown then s else s.linkLost h .disabled 0x23 (s.hostPos h)) (s.suiteHosts idx) s
  | _ => { s with svc := { s.svc with out := s.svc.out ++ [(cls, idx)] } }

/-- The part is out of service (R465). -/
def State.partIsOut (s : State) (cls idx : Nat) : Bool :=
  match cls with
  | 5 => (s.host idx).state == .heldDown
  | 6 => (s.port idx).state == .heldDown
  | _ => s.svc.out.contains (cls, idx)

/-! ## Requests (R463-R472) -/

/-- A part's job is replaced. -/
def State.modJob (s : State) (j k : SvcJob) : State :=
  { s with svc := { s.svc with jobs := s.svc.jobs.map (fun x => if x = j then k else x) } }

/-- A reset or a power-down that meets its precondition begins to drain (R464). -/
def State.beginService (s : State) (cls idx : Nat) (powerDown : Bool) : State :=
  ({ s with svc := { s.svc with jobs := s.svc.jobs ++ [{ unitClass := cls, unitIndex := idx, powerDown := powerDown, since := s.hall }] } } : State).drainPart cls idx

/-- A queued restart is cancelled, and the part will end Out of service (R471). -/
def State.cancelRestart (s : State) (j : SvcJob) : State :=
  let s := s.modJob j { j with phase := .draining, powerDown := true }
  if j.unitClass = 8 then s.setSuite j.unitIndex .draining else s

/-- An enable is latched behind a drain (R470). -/
def State.queueRestart (s : State) (j : SvcJob) : State :=
  let s := s.modJob j { j with phase := .drainRestart }
  if j.unitClass = 8 then s.setSuite j.unitIndex .drainRestart else s

/-- SERVICE answers ACCEPTED for a part. -/
def State.serviceAccepted (s : State) (tag : BitVec 16) (cls idx : Nat) : State := s.accept 0x28 tag cls [idx] none []

/-- The part's Resetting is told of a request that it does not take (R467). -/
def State.partBusy (s : State) (tag : BitVec 16) (cls idx : Nat) : State := (s.countTarget (unitDetail cls idx)).busy 0x28 tag cls idx

/-- SERVICE with reset or power down (R463, R464, R470, R471). -/
def State.serviceStart (s : State) (tag : BitVec 16) (cls idx : Nat) (powerDown : Bool) : State :=
  match s.svcJob cls idx with
  | some j => match j.phase with
    | .resetting => s.partBusy tag cls idx
    | .draining => if powerDown && !j.powerDown then s.partBusy tag cls idx else s.serviceAccepted tag cls idx
    | .drainRestart => (if powerDown then s.cancelRestart j else s).serviceAccepted tag cls idx
  | none =>
    if s.pendingUnit cls idx then s.busy 0x28 tag cls idx
    else if s.serviceable cls idx powerDown then (s.beginService cls idx powerDown).serviceAccepted tag cls idx
    else s.reply 0x28 tag 0x21 (s.partState cls idx)

/-- SERVICE with enable or release (R464, R470-R472). -/
def State.serviceBack (s : State) (tag : BitVec 16) (cls idx : Nat) : State :=
  match s.svcJob cls idx with
  | some j => match j.phase with
    | .resetting => s.partBusy tag cls idx
    | .drainRestart => ({ s with svc := { s.svc with dropped := satInc s.svc.dropped } } : State).busy 0x28 tag cls idx
    | .draining => (s.queueRestart j).serviceAccepted tag cls idx
  | none =>
    if s.pendingUnit cls idx then s.busy 0x28 tag cls idx
    else if s.partOn cls idx && s.partIsOut cls idx && !s.svc.failed.contains (cls, idx) && !((cls == 5 || cls == 6) && s.outputsInert) then
      (s.partBack cls idx).ok 0x28 tag
    else s.reply 0x28 tag 0x21 (s.partState cls idx)

/-- A port is held down (R390, R394). -/
def State.holdPort (s : State) (cls idx : Nat) : State :=
  if cls = 5 then s.linkLost idx .heldDown 0x23 (s.hostPos idx) else s.portTo idx .heldDown

/-- A port can be held down: it is enabled and in use (R390). -/
def State.holdable (s : State) (cls idx : Nat) : Bool :=
  s.partOn cls idx && !s.partIsOut cls idx && (cls != 6 || (s.port idx).state != .idleUnused)

/-- SERVICE with hold down (R390, R394). -/
def State.serviceHold (s : State) (tag : BitVec 16) (cls idx : Nat) : State :=
  s.ifFree 0x28 tag cls idx (fun s =>
    if s.holdable cls idx then (s.holdPort cls idx).ok 0x28 tag else s.reply 0x28 tag 0x21 (s.partState cls idx))

/-- SERVICE with retrain: a Miswired port trains again (R390). -/
def State.serviceRetrain (s : State) (tag : BitVec 16) (cls idx : Nat) : State :=
  s.ifFree 0x28 tag cls idx (fun s =>
    if (s.port idx).state == .miswired then (s.retrain idx).ok 0x28 tag else s.reply 0x28 tag 0x21 (s.partState cls idx))

/-- SERVICE's payload (R515): class, action and index, and the classes that the action takes. A payload with another action is another
command's. -/
def State.service (s : State) (sess : Option Nat) (tag : BitVec 16) (p : List Byte) (action : Nat) (classes : List Nat)
    (f : Nat → Nat → State → State) : State :=
  let cls := le p 0 1
  let idx := le p 4 4
  if p.length == 8 && le p 1 1 != action && 1 ≤ le p 1 1 && le p 1 1 ≤ 6 then s else
  s.readyCommand sess tag 0x28 (p.length == 8)
    [(partCount cls == 0, 0), (le p 1 1 != action || !classes.contains cls, 1), (nonzero p 2 2, 2), (partCount cls ≤ idx, 4)]
    (fun s => f cls (s.partIndex cls idx) s)

/-- The classes of the parts of R463. -/
def allParts : List Nat := [2, 3, 5, 6, 8]

/-- SERVICE_RESET (R463, R514, R515). -/
def execServiceReset (sess : Option Nat) (tag : BitVec 16) (payload : List Byte) (s : State) : Out :=
  .next (s.service sess tag payload 1 allParts (fun cls idx s => s.serviceStart tag cls idx false))

/-- SERVICE_POWER_DOWN (R463, R514, R515). -/
def execServicePowerDown (sess : Option Nat) (tag : BitVec 16) (payload : List Byte) (s : State) : Out :=
  .next (s.service sess tag payload 2 allParts (fun cls idx s => s.serviceStart tag cls idx true))

/-- SERVICE_ENABLE (R464, R470-R472, R515). -/
def execServiceEnable (sess : Option Nat) (tag : BitVec 16) (payload : List Byte) (s : State) : Out :=
  .next (s.service sess tag payload 3 allParts (fun cls idx s => s.serviceBack tag cls idx))

/-- SERVICE_HOLD_DOWN: a host or fabric port (R390, R394, R515). -/
def execServiceHoldDown (sess : Option Nat) (tag : BitVec 16) (payload : List Byte) (s : State) : Out :=
  .next (s.service sess tag payload 4 [5, 6] (fun cls idx s => s.serviceHold tag cls idx))

/-- SERVICE_RELEASE: a host or fabric port (R390, R464, R515). -/
def execServiceRelease (sess : Option Nat) (tag : BitVec 16) (payload : List Byte) (s : State) : Out :=
  .next (s.service sess tag payload 5 [5, 6] (fun cls idx s => s.serviceBack tag cls idx))

/-- SERVICE_RETRAIN: a fabric port (R390, R515). -/
def execServiceRetrain (sess : Option Nat) (tag : BitVec 16) (payload : List Byte) (s : State) : Out :=
  .next (s.service sess tag payload 6 [6] (fun cls idx s => s.serviceRetrain tag cls idx))

/-! ## The phases end (R464, R466, R473) -/

/-- SERVICE_DRAIN_COMPLETE: the drain's condition holds, and the part is reset (R464, R466, R469). -/
def execServiceDrainComplete (unitClass unitIndex : Nat) (s : State) : Out :=
  match s.svcJob unitClass unitIndex with
  | none => .next s
  | some j =>
    if j.phase = .resetting || !s.partDrained unitClass unitIndex then .next s
    else
      -- A fabric port with frames unacknowledged gives up 100 µs after its drain began.
      let s := if unitClass = 6 && !(s.port unitIndex).drained then s.reach (j.since + 100000) else s
      .next ((s.modJob j { j with phase := .resetting, powerDown := j.powerDown && decide (j.phase ≠ .drainRestart) }).resetPart unitClass unitIndex)

/-- SERVICE_RESET_COMPLETE: the part is in service, or out of it, and the commands that asked for it complete (R464, R470, R473,
R512). -/
def execServiceResetComplete (unitClass unitIndex : Nat) (s : State) : Out :=
  match s.svcJob unitClass unitIndex with
  | none => .next s
  | some j =>
    if j.phase ≠ .resetting then .next s
    else
      let s := { s with svc := { s.svc with jobs := s.svc.jobs.filter (fun x => x != j) } }
      let s := s.partCleared unitClass unitIndex
      let s := if j.powerDown then s.partOut unitClass unitIndex else s.partBack unitClass unitIndex
      .next (s.acceptAll (fun a => a.code == 0x28 && a.unitClass == unitClass && a.units == [unitIndex]) 0x00 0)

/-! ## SUITE_CMD (R463, R485, R493) -/

/-- The owner host asks for a reset or a power-down of its Suite: a request that does not meet its precondition is dropped and
counted. -/
def State.suiteCmd (s : State) (i : Nat) (powerDown : Bool) : State :=
  match s.svcJob 8 i with
  | some j => match j.phase with
    | .resetting => s.drop i
    | .draining => if powerDown && !j.powerDown then s.drop i else s
    | .drainRestart => if powerDown then s.cancelRestart j else s
  | none => if s.serviceable 8 i powerDown then s.beginService 8 i powerDown else s.drop i

/-- SUITE_RESET: SUITE_CMD 0x1. -/
def execSuiteReset (host : Fin 16) (s : State) : Out := s.hostIn host.val (.suiteReset host) fun s => .next (s.ownerWrite host.val (fun i s => s.suiteCmd i false))

/-- SUITE_POWER_DOWN: SUITE_CMD 0x2. -/
def execSuitePowerDown (host : Fin 16) (s : State) : Out := s.hostIn host.val (.suitePowerDown host) fun s => .next (s.ownerWrite host.val (fun i s => s.suiteCmd i true))

end Sys2Proof.Machine
end

