-- ==== Sys2Proof/Machine/CellarCommands.lean ====
section
/-! DEFINITION. The fabric manager's Cellar commands (R333, R334, R341-R354, R514, R515): grants, releases, window maps, renewals, shared
regions, keys and token buckets, with the Suite weight. -/

namespace Sys2Proof.Machine

/-! ## What a grant may take (R140, R328, R333, R341) -/

/-- The extents that the hosts of Suite `i` hold. -/
def State.suiteHeld (s : State) (i : Nat) : Nat :=
  (s.cellar.extents.filter (fun x => match x.2.owner with | .host h => s.suiteOfPort h == some i | _ => false)).length

/-- What Suite `i` has not taken of its floor. -/
def State.floorLeft (s : State) (i : Nat) : Nat := if s.suiteOn i then s.suiteCfg i 6 2 - s.suiteHeld i else 0

/-- The Free extents that the floors of every Suite but `i` leave (R140); of every Suite for a region (R341). -/
def State.grantable (s : State) (i : Option Nat) : Nat :=
  s.freeExts.length - (((List.range 16).filter (fun j => i != some j)).map s.floorLeft).sum

/-- A host block whose port is enabled. -/
def State.hostExists (s : State) (h : Nat) : Bool := s.hostIndices.contains h

/-- A lease length that a command names: 0 is the configuration's default (R350). -/
def State.leaseOf (s : State) (secs : Nat) : Nat := if secs = 0 then s.defaultLease else secs

/-- The extents chosen, as the response carries them (R515). -/
def chosenBytes (es : List Nat) : List Byte := toLe 2 es.length ++ toLe 2 0 ++ es.flatMap (fun e => toLe 2 e)

/-- Free extents enter Granting, and wait for the scrubber (R331-R333). -/
def State.takeExts (s : State) (es : List Nat) (x : Extent) : State := (overList (fun s e => s.putExt e x) es s).queueScrub es

/-! ## GRANT and RELEASE (R333, R348, R349, R353) -/

/-- The session that is open on a host's function (R349, R509). -/
def State.hostSessionOf (s : State) (h : Nat) : Option Session := s.mgmt.sessions.find? (fun x => x.host == some h)

/-- A grant whose payload is in order: identity, key, ceiling, room (R140, R333, R348, R349). -/
def State.grantTo (s : State) (tag : BitVec 16) (h n lease : Nat) : State :=
  match s.hostSessionOf h, s.suiteOfPort h with
  | some ses, some i =>
    if (FMap.find s.cellar.keys h).isNone then s.reply 0x10 tag 0x25 h
    else if s.suiteCfg i 8 2 < s.suiteHeld i + n then s.reply 0x10 tag 0x23 i
    else if s.grantable (some i) < n then s.reply 0x10 tag 0x22 0
    else
      let es := s.freeExts.take n
      (s.takeExts es { state := .granting, owner := .host h, leaseS := s.leaseOf lease, identity := ses.identity,
                       corrected := 0 }).accept 0x10 tag 2 es none (chosenBytes es)
  | _, _ => s.reply 0x10 tag 0x27 h

/-- GRANT (R140, R333, R348-R350, R515). -/
def execGrant (sess : Option Nat) (tag : BitVec 16) (payload : List Byte) (s : State) : Out :=
  let p := payload
  let h := le p 0 1
  let n := le p 2 2
  .next (s.readyCommand sess tag 0x10 (p.length == 8)
    [(!s.hostExists h, 0), (nonzero p 1 1, 1), (n == 0 || 800 < n, 2), (3600 < le p 4 2, 4), (nonzero p 6 2, 6)]
    (fun s => s.grantTo tag h n (le p 4 2)))

/-- The extents of a RELEASE, in its order. -/
def releaseList (p : List Byte) : List Nat := (List.range (le p 0 2)).map (fun i => le p (4 + 2 * i) 2)

/-- Why an extent cannot be released: BUSY, or WRONG_STATE with its state (R353, R512). -/
def State.releaseCheck (s : State) (e : Nat) : Option (Nat × Nat) :=
  let x := s.ext e
  let owned := match x.owner with | .host _ => true | _ => false
  if s.pendingUnit 2 e || s.extBusy e then some (0x20, unitDetail 2 e)
  else if owned && (x.state == .granted || x.state == .fenced) then none
  else some (0x21, s.extCode e)

/-- RELEASE: every extent that it names is reclaimed, or none (R353, R512, R515). -/
def execRelease (sess : Option Nat) (tag : BitVec 16) (payload : List Byte) (s : State) : Out :=
  let p := payload
  let n := le p 0 2
  let es := releaseList p
  .next (s.readyCommand sess tag 0x11 (4 ≤ p.length && p.length == 4 + 2 * n)
    ([(n == 0 || 800 < n, 0), (nonzero p 2 2, 2)] ++ (List.range n).map (fun i => (decide (800 ≤ es.getD i 0), 4 + 2 * i)))
    (fun s => match es.findSome? s.releaseCheck with
      | some (st, d) => s.reply 0x11 tag st d
      | none => (s.reclaim 2 es.eraseDups).accept 0x11 tag 2 es.eraseDups none []))

/-! ## MAP and UNMAP (R334, R397) -/

/-- An extent may be mapped into the window of host `h`: Granted to it, or of a region that gives it a right (R334). -/
def State.mappable (s : State) (h e : Nat) : Bool :=
  let x := s.ext e
  x.state == .granted && !s.hearth.disabledMap.contains e && (match x.owner with
    | .host g => g == h
    | .region r => (match FMap.find s.cellar.regions r with | some y => y.hosts.any (fun a => a.1 == h) | none => false)
    | _ => false)

/-- The extent maps into a slot; a CXL host is offered the block (R334, R397). -/
def HostPort.map (x : HostPort) (cxl : Bool) (slot e : Nat) : HostPort :=
  { x with window := FMap.put x.window slot e,
           dcOffered := if cxl then insertNat slot x.dcOffered else x.dcOffered, dcReleasing := x.dcReleasing.filter (fun t => t != slot) }

/-- The slot maps nothing; a CXL host is told to release the block (R334, R397). -/
def HostPort.unmapSlot (x : HostPort) (cxl : Bool) (slot : Nat) : HostPort :=
  { x with window := FMap.del x.window slot, dcOffered := x.dcOffered.filter (fun t => t != slot),
           dcReleasing := if cxl then insertNat slot x.dcReleasing else x.dcReleasing }

/-- The region of an extent has a command pending on it. -/
def State.extRegionPending (s : State) (e : Nat) : Bool := match (s.ext e).owner with | .region r => s.pendingRegion r | _ => false

/-- MAP (R334, R397, R515). -/
def execMap (sess : Option Nat) (tag : BitVec 16) (payload : List Byte) (s : State) : Out :=
  let p := payload
  let w := le p 0 2
  let slot := bits w 9 0
  let h := le p 2 1
  let e := le p 4 2
  if p.length == 8 && bit w 15 then .next s
  else .next (s.readyCommand sess tag 0x12 (p.length == 8)
    [(bits w 14 10 != 0, 0), (!s.hostExists h, 2), (nonzero p 3 1, 3), (decide (800 ≤ e), 4), (nonzero p 6 2, 6)]
    (fun s =>
      if s.pendingUnit 2 e || s.extRegionPending e || s.extBusy e then s.busy 0x12 tag 2 e
      else if (FMap.find (s.host h).window slot).isSome then s.reply 0x12 tag 0x24 slot
      else if s.mappable h e then (s.modHost h (fun x => x.map (s.cxlOn h) slot e)).ok 0x12 tag
      else s.reply 0x12 tag 0x21 (s.extCode e)))

/-- UNMAP (R334, R397, R515). -/
def execUnmap (sess : Option Nat) (tag : BitVec 16) (payload : List Byte) (s : State) : Out :=
  let p := payload
  let w := le p 0 2
  let slot := bits w 9 0
  let h := le p 2 1
  if p.length == 8 && !bit w 15 then .next s
  else .next (s.readyCommand sess tag 0x12 (p.length == 8)
    [(bits w 14 10 != 0, 0), (!s.hostExists h, 2), (nonzero p 3 1, 3), (nonzero p 4 2, 4), (nonzero p 6 2, 6)]
    (fun s =>
      if (FMap.find (s.host h).window slot).isNone then s.reply 0x12 tag 0x21 0
      else (s.modHost h (fun x => x.unmapSlot (s.cxlOn h) slot)).ok 0x12 tag))

/-! ## RENEW and READ_EXTENT (R329, R332, R351) -/

/-- RENEW of an extent: a host's, Granted or Fenced (R351). -/
def State.renewExt (s : State) (tag : BitVec 16) (e secs : Nat) : State :=
  match s.releaseCheck e with
  | some (st, d) => s.reply 0x13 tag st d
  | none => (s.modExt e (fun x => { x with renewMs := some (renewedMs secs x.leaseS) })).ok 0x13 tag

/-- RENEW of a region (R351). -/
def State.renewRegion (s : State) (tag : BitVec 16) (r secs : Nat) : State :=
  if s.pendingRegion r then s.reply 0x13 tag 0x20 r
  else match FMap.find s.cellar.regions r with
    | none => s.reply 0x13 tag 0x21 0
    | some x =>
      -- A region whose lease has ended is no region any more (R350, R353).
      if x.due then s.reply 0x13 tag 0x21 0 else
      ({ s with cellar := { s.cellar with regions := FMap.put s.cellar.regions r { x with renewMs := some (renewedMs secs x.leaseS) } } } : State).ok 0x13 tag

/-- RENEW: the next lease tick applies it (R351, R515). -/
def execRenew (sess : Option Nat) (tag : BitVec 16) (payload : List Byte) (s : State) : Out :=
  let p := payload
  let kind := le p 0 1
  let n := le p 2 2
  .next (s.readyCommand sess tag 0x13 (p.length == 8)
    [(1 < kind, 0), (nonzero p 1 1, 1), (decide ((if kind = 0 then 800 else 48) ≤ n), 2), (nonzero p 6 2, 6)]
    (fun s => if kind = 0 then s.renewExt tag n (le p 4 2) else s.renewRegion tag n (le p 4 2)))

/-- The power state code of a cell group (R329). -/
def CellPower.code : CellPower → Nat
  | .off => 0 | .retention => 1 | .awake => 2

/-- The owner kind and number of an extent, the Suite of an owner host, its lease length and its time left (R515). -/
def State.ownerFields (s : State) (x : Extent) : Nat × Nat × Nat × Nat × Nat :=
  match x.owner with
  | .none => (0, 0, 0xFF, 0, 0)
  | .host h => (1, h, (s.suiteOfPort h).getD 0xFF, x.leaseS, x.leftMs)
  | .region r => (match FMap.find s.cellar.regions r with | some y => (2, r, 0xFF, y.leaseS, y.leftMs) | none => (2, r, 0xFF, 0, 0))
  | .staging => (3, 0, 0xFF, 0, 0)

/-- READ_EXTENT's response (R332, R515): a Retired extent has no owner and is Off. -/
def State.extBytes (s : State) (e : Nat) : List Byte :=
  if s.hearth.disabledMap.contains e then fields 60 [(0, 1, 7), (4, 1, 0xFF)]
  else
    let x := s.ext e
    let o := s.ownerFields x
    fields 12 [(0, 1, x.state.code), (1, 1, x.power.code), (2, 1, o.1), (3, 1, o.2.1), (4, 1, o.2.2.1), (5, 1, if x.quarantine then 1 else 0),
      (6, 2, o.2.2.2.1), (8, 4, o.2.2.2.2)] ++ idBytes x.identity

/-- READ_EXTENT (R329, R332, R515). -/
def execReadExtent (sess : Option Nat) (tag : BitVec 16) (payload : List Byte) (s : State) : Out :=
  let p := payload
  .next (s.readyCommand sess tag 0x14 (p.length == 4) [(decide (800 ≤ le p 0 2), 0), (nonzero p 2 2, 2)]
    (fun s => s.respond 0x14 tag 0x00 0 (s.extBytes (le p 0 2))))

/-! ## Regions (R341-R345) -/

/-- A region whose payload is in order: its number, its key, room in the shared pool (R341, R348). -/
def State.createRegion (s : State) (tag : BitVec 16) (r n lease : Nat) : State :=
  if s.pendingRegion r then s.reply 0x18 tag 0x20 r
  else if (FMap.find s.cellar.regions r).isSome then s.reply 0x18 tag 0x21 1
  else if (FMap.find s.cellar.keys (16 + r)).isNone then s.reply 0x18 tag 0x25 (16 + r)
  else if s.grantable none < n then s.reply 0x18 tag 0x22 0
  else
    let es := s.freeExts.take n
    let l := s.leaseOf lease
    let s := s.takeExts es { state := .granting, owner := .region r }
    ({ s with cellar := { s.cellar with regions := FMap.put s.cellar.regions r { extents := es, leaseS := l, leftMs := 1000 * l } } } : State).accept
      0x18 tag 2 es (some r) (chosenBytes es)

/-- REGION_CREATE (R341, R348, R515). -/
def execRegionCreate (sess : Option Nat) (tag : BitVec 16) (payload : List Byte) (s : State) : Out :=
  let p := payload
  let n := le p 2 2
  .next (s.readyCommand sess tag 0x18 (p.length == 8)
    [(decide (48 ≤ le p 0 1), 0), (nonzero p 1 1, 1), (n == 0 || decide (512 < n), 2), (decide (3600 < le p 4 2), 4), (nonzero p 6 2, 6)]
    (fun s => s.createRegion tag (le p 0 1) n (le p 4 2)))

/-- The checks of REGION_RIGHTS's 16 host entries and 16 tenant entries: entries in use have no reserved bit, unused ones are 0 (R515). -/
def rightsFields (p : List Byte) : List (Bool × Nat) :=
  (List.range 16).map (fun i => (if i < le p 1 1 then bits (le p (4 + i) 1) 6 4 != 0 else le p (4 + i) 1 != 0, 4 + i)) ++
  (List.range 16).map (fun i => (if i < le p 2 1 then bits (le p (20 + 2 * i) 2) 14 8 != 0 else le p (20 + 2 * i) 2 != 0, 20 + 2 * i))

/-- The host entries and tenant entries of a rights list, with their read-write bits (R342, R515). -/
def rightsOf (p : List Byte) : List (Nat × Bool) × List (Nat × Bool) :=
  ((List.range (le p 1 1)).map (fun i => (bits (le p (4 + i) 1) 3 0, bit (le p (4 + i) 1) 7)),
   (List.range (le p 2 1)).map (fun i => (bits (le p (20 + 2 * i) 2) 7 0, bit (le p (20 + 2 * i) 2) 15)))

/-- REGION_RIGHTS: the list takes effect at the next lease tick (R342, R344, R515). -/
def execRegionRights (sess : Option Nat) (tag : BitVec 16) (payload : List Byte) (s : State) : Out :=
  let p := payload
  let r := le p 0 1
  .next (s.readyCommand sess tag 0x19 (p.length == 52)
    ([(decide (48 ≤ r), 0), (decide (16 < le p 1 1), 1), (decide (16 < le p 2 1), 2), (nonzero p 3 1, 3)] ++ rightsFields p)
    (fun s =>
      if s.pendingRegion r then s.reply 0x19 tag 0x20 r
      else match FMap.find s.cellar.regions r with
        | none => s.reply 0x19 tag 0x21 0
        | some x =>
          ({ s with cellar := { s.cellar with regions := FMap.put s.cellar.regions r { x with staged := some (rightsOf p) } } } : State).ok 0x19 tag))

/-- REGION_DELETE: its extents enter Reclaiming at once (R345, R353, R515). -/
def execRegionDelete (sess : Option Nat) (tag : BitVec 16) (payload : List Byte) (s : State) : Out :=
  let p := payload
  let r := le p 0 1
  .next (s.readyCommand sess tag 0x1A (p.length == 4) [(decide (48 ≤ r), 0), (nonzero p 1 3, 1)]
    (fun s =>
      if s.pendingRegion r then s.reply 0x1A tag 0x20 r
      else match FMap.find s.cellar.regions r with
        | none => s.reply 0x1A tag 0x21 0
        | some x =>
          (({ s with cellar := { s.cellar with regions := FMap.del s.cellar.regions r } } : State).reclaim 3 x.extents).accept 0x1A tag 2 x.extents (some r) []))

/-! ## Keys (R347, R348, R516) -/

/-- The host or the region of a key slot holds an extent that is not Free (R347, R348). -/
def State.keyInUse (s : State) (slot : Nat) : Bool :=
  s.cellar.extents.any (fun x => match x.2.owner with
    | .host h => h == slot
    | .region r => 16 + r == slot
    | _ => false)

/-- KEY_LOAD (R347, R348, R515, R516). -/
def execKeyLoad (sess : Option Nat) (tag : BitVec 16) (payload : List Byte) (s : State) : Out :=
  let p := payload
  let k := le p 0 1
  .next (s.readyCommand sess tag 0x20 (p.length == 68) [(decide (64 ≤ k), 0), (nonzero p 1 3, 1)]
    (fun s =>
      if slice p 4 32 = slice p 36 32 || s.keyInUse k then s.reply 0x20 tag 0x25 k
      else ({ s with cellar := { s.cellar with keys := FMap.put s.cellar.keys k (slice p 4 64) } } : State).ok 0x20 tag))

/-- KEY_ERASE, refused as KEY_LOAD is (R348, R514, R515). -/
def execKeyErase (sess : Option Nat) (tag : BitVec 16) (payload : List Byte) (s : State) : Out :=
  let p := payload
  let k := le p 0 1
  .next (s.readyCommand sess tag 0x21 (p.length == 4) [(decide (64 ≤ k), 0), (nonzero p 1 3, 1)]
    (fun s =>
      if s.keyInUse k then s.reply 0x21 tag 0x25 k
      else ({ s with cellar := { s.cellar with keys := FMap.del s.cellar.keys k } } : State).ok 0x21 tag))

/-! ## Bandwidth (R226, R354) -/

/-- TOKEN_BUCKET: the next lease tick takes the values (R354, R515). -/
def execTokenBucket (sess : Option Nat) (tag : BitVec 16) (payload : List Byte) (s : State) : Out :=
  let p := payload
  let h := le p 0 1
  .next (s.readyCommand sess tag 0x24 (p.length == 8)
    [(!s.hostExists h, 0), (nonzero p 1 1, 1), (4095 < le p 2 2, 2), (le p 4 2 < 64, 4), (nonzero p 6 2, 6)]
    (fun s => s.ifFree 0x24 tag 5 h (fun s =>
      (s.modHost h (fun x => { x with stagedBucket := some (le p 2 2, le p 4 2) })).ok 0x24 tag)))

/-- SUITE_WEIGHT: each port takes it at its next round (R226, R474, R515). -/
def execSuiteWeight (sess : Option Nat) (tag : BitVec 16) (payload : List Byte) (s : State) : Out :=
  let p := payload
  let i := le p 0 1
  .next (s.readyCommand sess tag 0x25 (p.length == 4) [(16 ≤ i, 0), (nonzero p 1 1 == false, 1), (nonzero p 2 2, 2)]
    (fun s => s.ifFree 0x25 tag 8 i (fun s => (s.modSuite i (fun x => { x with weight := some (le p 1 1) })).ok 0x25 tag)))

end Sys2Proof.Machine
end

