-- ==== Sys2Proof/Machine/MgmtCommands.lean ====
section
/-! DEFINITION. The fabric manager's commands on the engine as a whole (R511-R517): status and records, images, resets, the live restart,
fuses, the clock reference with the CPER export, power, aborts, counters, RESUME, the census and refused commands. -/

namespace Sys2Proof.Machine

/-! ## GET_STATUS and READ_RECORDS (R61, R78, R425, R426, R515, R517) -/

/-- The power state code (R515): a move is in its old state until it ends. -/
def Power.code : Power → Nat
  | .active => 0 | .doze => 1 | .dozeWaking => 1 | .banking => 0 | .banked => 2

/-- The 48 bytes of GET_STATUS (R515). -/
def State.statusBytes (s : State) : List Byte :=
  let flags := (if s.activeHold then 1 else 0) + (if s.mgmt.lostSince then 2 else 0) + (if s.thermal.thermalHalt then 4 else 0)
  toLe 1 s.hearth.startup.code ++ toLe 1 s.hearth.power.code ++ toLe 1 s.sync.status.code ++ toLe 1 s.wd.state.code ++
  toLe 1 s.halt.state.code ++ toLe 1 flags ++ toLe 1 s.wd.streak ++ toLe 1 s.wd.lastMissed.toNat ++ toLe 1 s.fuses.stepping.toNat ++
  toLe 1 s.fuses.grade ++ toLe 1 (if s.hearth.imageB then 1 else 0) ++ toLe 1 s.engineId ++ toLe 2 s.hallId.toNat ++
  toLe 2 s.mgmt.queue.length ++ toLe 4 s.hearth.fwVersion.toNat ++ toLe 8 s.hearth.mapDigest.toNat ++ toLe 8 s.hearth.configDigest.toNat ++
  toLe 8 s.hall.toNat ++ toLe 4 s.mgmt.lost.toNat

/-- GET_STATUS: NO_RESOURCE where events were lost since the last one (R513, R515, R517). -/
def execGetStatus (sess : Option Nat) (tag : BitVec 16) (payload : List Byte) (s : State) : Out :=
  .next (s.command sess tag 0x01 true false (payload.length == 0) [] (fun s =>
    let t := s.respond 0x01 tag (if s.mgmt.lostSince then 0x22 else 0x00) 0 s.statusBytes
    { t with mgmt := { t.mgmt with lostSince := false } }))

/-- A record takes its place in a list from oldest to newest (R425). -/
def ErrLog.insert (l : ErrLog) (r : ErrRec) : List ErrRec → List ErrRec
  | [] => [r]
  | q :: rest => if l.age q.seq < l.age r.seq then r :: q :: rest else q :: l.insert r rest

/-- At most `n` of the records at or above a sequence number, from oldest to newest (R425). -/
def ErrLog.read (l : ErrLog) (first : Word32) (n : Nat) : List ErrRec :=
  ((l.all.filter (fun r => l.atOrAbove first r.seq)).foldl (fun acc r => l.insert r acc) []).take n

/-- READ_RECORDS: ALERT_N is released once every record that asserted it has been read (R425, R426, R515). -/
def execReadRecords (sess : Option Nat) (tag : BitVec 16) (payload : List Byte) (s : State) : Out :=
  let p := payload
  let n := le p 4 1
  .next (s.command sess tag 0x02 false false (p.length == 8) [(n == 0 || decide (64 < n), 4), (nonzero p 5 3, 5)] (fun s =>
    let rs := s.log.read (BitVec.ofNat 32 (le p 0 4)) n
    let unread := s.log.unread.filter (fun q => !rs.any (fun r => r.seq == q))
    let s := { s with log := { s.log with unread := unread }, hearth := { s.hearth with alert := s.hearth.alert && !unread.isEmpty } }
    s.respond 0x02 tag 0x00 rs.length (rs.flatMap ErrRec.bytes)))

/-! ## CPER export (R418, R427) -/

/-- A GUID as 16 bytes, its first three fields little-endian (R427, as UEFI gives them). -/
def guid (a b c : Nat) (d : List Nat) : List Byte := toLe 4 a ++ toLe 2 b ++ toLe 2 c ++ d.map (BitVec.ofNat 8)

/-- The CPER severity of a record (R418). -/
def cperSeverity (sev : Nat) : Nat := match sev with | 0 => 3 | 1 => 2 | 2 => 0 | 3 => 0 | _ => 1

/-- A number below 100 as binary-coded decimal. -/
def bcd (n : Nat) : Nat := n / 10 % 10 * 16 + n % 10

/-- The civil date of a day counted from 1970-01-01: year, month, day. -/
def civil (days : Nat) : Nat × Nat × Nat :=
  let z := days + 719468
  let doe := z % 146097
  let yoe := (doe - doe / 1460 + doe / 36524 - doe / 146096) / 365
  let doy := doe - (365 * yoe + yoe / 4 - yoe / 100)
  let mp := (5 * doy + 2) / 153
  let m := if mp < 10 then mp + 3 else mp - 9
  (yoe + z / 146097 * 400 + (if m ≤ 2 then 1 else 0), m, doy - (153 * mp + 2) / 5 + 1)

/-- A wall time as a CPER timestamp with the Precise flag (R427; the digits are UEFI's). -/
def cperTime (ns : Nat) : List Byte :=
  let t := ns / 1000000000
  let d := civil (t / 86400)
  [bcd (t % 60), bcd (t / 60 % 60), bcd (t / 3600 % 24), 1, bcd d.2.2, bcd d.2.1, bcd (d.1 % 100), bcd (d.1 / 100)].map (BitVec.ofNat 8)

/-- The wall time of a hall count, if a reference is loaded (R427). -/
def State.wallTime (s : State) (hall : Word64) : Option Nat :=
  s.hearth.wallclock.map (fun (w, h) => ((w.toNat : Int) + hall.toNat - h.toNat).toNat)

/-- The FRU text of R427. -/
def fruText (engine : Nat) : List Byte :=
  "OZN-256 ENG ".toList.map (fun c => BitVec.ofNat 8 c.toNat) ++
  [48 + engine / 100 % 10, 48 + engine / 10 % 10, 48 + engine % 10, 0, 0, 0, 0, 0].map (BitVec.ofNat 8)

/-- A record exported as a Common Platform Error Record, 264 bytes (R427). -/
def State.cper (s : State) (r : ErrRec) : List Byte :=
  let time := s.wallTime r.hall
  let flags := (if r.severity = 1 ∨ r.severity = 2 then 1 else 0) + (if r.fromBefore then 2 else 0)
  "CPER".toList.map (fun c => BitVec.ofNat 8 c.toNat) ++ toLe 2 0x0101 ++ toLe 4 0xFFFFFFFF ++ toLe 2 1 ++ toLe 4 (cperSeverity r.severity) ++
  toLe 4 (if time.isSome then 3 else 1) ++ toLe 4 264 ++ (match time with | some t => cperTime t | none => toLe 8 0) ++
  (toLe 2 r.hallId.toNat ++ toLe 1 r.engine ++ toLe 13 0) ++ toLe 16 0 ++
  guid 0x3C9F0B41 0x6E2A 0x4D57 [0xB1, 0xC8, 0x27, 0x4A, 0xE0, 0xD9, 0x6F, 0x13] ++
  guid 0x9D20E6B8 0x47C1 0x4A0F [0xA3, 0x5E, 0x61, 0xB2, 0xF8, 0xC0, 0x4D, 0x79] ++
  toLe 8 (r.hallId.toNat * 2 ^ 48 + r.engine * 2 ^ 40 + r.seq.toNat) ++ toLe 4 flags ++ toLe 8 0 ++ toLe 12 0 ++
  (toLe 4 200 ++ toLe 4 64 ++ toLe 2 0x0100 ++ toLe 1 2 ++ toLe 1 0 ++ toLe 4 1 ++
    guid 0x5E1A2C07 0x9B3D 0x4F1E [0x8A, 0x62, 0x0D, 0x4C, 0x71, 0xE9, 0x35, 0xB8] ++ toLe 16 0 ++ toLe 4 (cperSeverity r.severity) ++
    fruText r.engine) ++ r.bytes

/-! ## Images, resets and the live restart (R58, R72, R86-R90, R515) -/

/-- The slot that the engine runs from: none while only the boot ROM runs (R72, R90). -/
def State.runsFrom (s : State) (slotB : Bool) : Bool := !s.recovery && s.hearth.imageB == slotB

/-- The flash is being written, or a pack waits to be. -/
def State.flashBusy (s : State) : Bool := s.mgmt.flashWrite.isSome || s.mgmt.packWriting.isSome

/-- IMAGE_WRITE: never the slot that runs (R90, R511, R515). -/
def execImageWrite (sess : Option Nat) (tag : BitVec 16) (payload : List Byte) (s : State) : Out :=
  let p := payload
  let off := le p 4 4
  .next (s.command sess tag 0x03 s.recovery false (9 ≤ p.length && p.length ≤ 4096)
    [(decide (1 < le p 0 1), 0), (nonzero p 1 3, 1), (off % 8 != 0 || decide (0x400000 < off + (p.length - 8)), 4)] (fun s =>
      let b := le p 0 1 == 1
      if s.runsFrom b then s.reply 0x03 tag 0x21 s.hearth.startup.code
      else if s.flashBusy then s.busy 0x03 tag 0x0A 0
      else
        let s := { s with mgmt := { s.mgmt with flashWrite := some (slotBase b + off, p.drop 8) } }
        s.accept 0x03 tag 0x0A [0] none []))

/-- WARM_RESET: the answer goes out, and the engine resets (R58, R511). -/
def execWarmReset (sess : Option Nat) (tag : BitVec 16) (payload : List Byte) (s : State) : Out :=
  .next (s.command sess tag 0x04 s.recovery false (payload.length == 0) [] (fun s =>
    let s := s.ok 0x04 tag
    let t := s.warmReset .management
    { t with mgmt := { t.mgmt with response := s.mgmt.response } }))

/-- The running firmware stops, and every session is closed (R86, R88). -/
def State.beginLive (s : State) (tag : BitVec 16) (slotB : Bool) : State :=
  let s := s.accept 0x05 tag 0x09 [0] none []
  { s with hearth := { s.hearth with live := some ⟨slotB, tag⟩ }, mgmt := { s.mgmt with sessions := [] }, log := { s.log with bufferedNow := 0 } }

/-- An image write to a slot is under way. -/
def State.writingSlot (s : State) (slotB : Bool) : Bool :=
  match s.mgmt.flashWrite with | some (off, _) => decide (slotBase slotB ≤ off ∧ off < slotBase slotB + 0x400000) | none => false

/-- LIVE_RESTART: refused while a restart is in progress, while the slot it names is written (R90), or where the image's configuration is not
the locked one (R86, R87). -/
def execLiveRestart (sess : Option Nat) (tag : BitVec 16) (payload : List Byte) (s : State) : Out :=
  let p := payload
  if s.hearth.smbusOn && s.hearth.live.isSome then .next (s.reply 0x05 tag 0x21 s.hearth.startup.code)
  else .next (s.command sess tag 0x05 false false (p.length == 4) [(decide (1 < le p 0 1), 0), (nonzero p 1 3, 1)] (fun s =>
    let b := le p 0 1 == 1
    if s.writingSlot b then s.busy 0x05 tag 0x0A 0
    else if s.hearth.locked && digest8 (s.imgConfig b) == s.hearth.configDigest then s.beginLive tag b
    else s.reply 0x05 tag 0x21 s.hearth.startup.code))

/-- LIVE_RESTART_COMPLETE: the image passes and runs, or the image that ran before is loaded again; the firmware checks in every enabled slot
of its own, and the command completes (R71, R87, R89, R454, R512). -/
def execLiveRestartComplete (flashMiB : Option Nat) (readOk : Bool) (s : State) : Out :=
  match s.hearth.live with
  | none => .next s
  | some l =>
    let done (s : State) (status detail : Nat) : State :=
      ({ s with hearth := { s.hearth with live := none }, wd := { s.wd with checked := s.wd.checked ||| 0x9F } } : State).acceptAll (fun a => a.code == 0x05 && a.tag == l.tag) status detail
    match s.imageCheck l.slotB flashMiB readOk with
    | none => .next (done { s with hearth := s.hearth.runs s l.slotB } 0x00 0)
    | some code => .next (done (s.bootRecord l.slotB code false) 0x26 code)

/-! ## Fuses and the clock reference (R70, R427, R515) -/

/-- FUSE_UPDATE's payload: action, key index, reserved bytes, minimum. A payload with the other action is the other command's. -/
def State.fuseUpdate (s : State) (sess : Option Nat) (tag : BitVec 16) (p : List Byte) (action : Nat) (f : State → State) : State :=
  if p.length == 8 && le p 0 1 == 3 - action then s
  else s.command sess tag 0x06 false false (p.length == 8)
    [(le p 0 1 != action, 0), (decide ((if action = 1 then 0 else 1) < le p 1 1), 1), (nonzero p 2 2, 2), (action == 2 && nonzero p 4 4, 4)]
    (fun s => (f s).ok 0x06 tag)

/-- FUSE_RAISE_MIN_VERSION: the minimum never falls (R70, R514). -/
def execFuseRaiseMinVersion (sess : Option Nat) (tag : BitVec 16) (payload : List Byte) (s : State) : Out :=
  .next (s.fuseUpdate sess tag payload 1 (fun s =>
    { s with fuses := { s.fuses with minSecurity := BitVec.ofNat 32 (max s.fuses.minSecurity.toNat (le payload 4 4)) } }))

/-- FUSE_REVOKE_KEY: a revoke bit is never cleared (R70, R514). -/
def execFuseRevokeKey (sess : Option Nat) (tag : BitVec 16) (payload : List Byte) (s : State) : Out :=
  .next (s.fuseUpdate sess tag payload 2 (fun s =>
    let k := le payload 1 1
    { s with fuses := { s.fuses with revoked0 := s.fuses.revoked0 || k == 0, revoked1 := s.fuses.revoked1 || k == 1 } }))

/-- SET_WALLCLOCK (R427, R515). -/
def execSetWallclock (sess : Option Nat) (tag : BitVec 16) (payload : List Byte) (s : State) : Out :=
  let p := payload
  .next (s.command sess tag 0x07 false false (p.length == 16) [] (fun s =>
    ({ s with hearth := { s.hearth with wallclock := some (BitVec.ofNat 64 (le p 0 8), BitVec.ofNat 64 (le p 8 8)) } } : State).ok 0x07 tag))

/-! ## POWER (R47-R50, R515) -/

/-- POWER's payload: action and reserved bytes. A payload with another action is another command's. -/
def State.powerCommand (s : State) (sess : Option Nat) (tag : BitVec 16) (p : List Byte) (action : Nat) (f : State → State) : State :=
  if p.length == 4 && le p 0 1 != action && 1 ≤ le p 0 1 && le p 0 1 ≤ 4 then s
  else s.command sess tag 0x08 false false (p.length == 4) [(le p 0 1 != action, 0), (nonzero p 1 3, 1)] f

/-- What keeps the engine from Banked: an extent that is granted, a region, or a context that is assigned (R48), as a unit. -/
def State.bankBlocker (s : State) : Option Nat :=
  match s.cellar.extents.find? (fun x => x.2.state == .granting || x.2.state == .granted || x.2.state == .fenced) with
  | some (e, _) => some (unitDetail 2 e)
  | none => match s.cellar.regions with
    | (r, _) :: _ => some (unitDetail 2 r)
    | [] => (s.ctxs.find? (fun x => x.2.state != .unassigned && x.2.asg.valid)).map (fun x => unitDetail 4 x.1)

/-- POWER_BANK (R48, R512, R513): only a Ready engine that is Active or in Doze. -/
def execPowerBank (sess : Option Nat) (tag : BitVec 16) (payload : List Byte) (s : State) : Out :=
  .next (s.powerCommand sess tag payload 1 (fun s =>
    if !s.isReady then s.reply 0x08 tag 0x21 (if s.hearth.startup == .ready then s.hearth.power.code else s.hearth.startup.code)
    else match s.bankBlocker with
      | some d => s.reply 0x08 tag 0x20 d
      | none =>
        let s := { s with hearth := { s.hearth with power := .banking } }
        s.accept 0x08 tag 0x0D [1] none []))

/-- POWER_UNBANK: start-up runs again from Scrubbing with the configuration it holds (R50); a halt meanwhile leads to Halted at
start. DESIGN CHOICE (entry 25): the engine has returned to Active here, and not at Ready, so that watchdog slots 5 and 6 are required again
from the first full period after this command (R52). -/
def execPowerUnbank (sess : Option Nat) (tag : BitVec 16) (payload : List Byte) (s : State) : Out :=
  .next (s.powerCommand sess tag payload 2 (fun s =>
    if s.hearth.power != .banked then s.reply 0x08 tag 0x21 s.hearth.power.code
    else
      let s := { s with
        hearth := { s.hearth with power := .active, startup := .scrubbing, exempt56 := true },
        halt := { s.halt with atStart := s.halt.atStart || decide (s.halt.state ≠ HaltState.running) } }
      s.accept 0x08 tag 0x0D [2] none []))

/-- POWER_HOLD_ON: the hold is set, and a Doze ends (R47). -/
def execPowerHoldOn (sess : Option Nat) (tag : BitVec 16) (payload : List Byte) (s : State) : Out :=
  .next (s.powerCommand sess tag payload 3 (fun s => ({ s with hearth := { s.hearth with mgmtHold := true } } : State).wake.ok 0x08 tag))

/-- POWER_HOLD_OFF (R47). -/
def execPowerHoldOff (sess : Option Nat) (tag : BitVec 16) (payload : List Byte) (s : State) : Out :=
  .next (s.powerCommand sess tag payload 4 (fun s => ({ s with hearth := { s.hearth with mgmtHold := false } } : State).ok 0x08 tag))

/-! ## ABORT_CONTEXTS and CLEAR_COUNTERS (R37, R391, R515) -/

/-- ABORT_CONTEXTS: every context of the mask that runs, waits or drains is aborted (R37, R156). -/
def execAbortContexts (sess : Option Nat) (tag : BitVec 16) (payload : List Byte) (s : State) : Out :=
  let p := payload
  .next (s.readyCommand sess tag 0x29 (p.length == 32) [] (fun s =>
    (overList (fun s c => if bit (le p (c / 8) 1) (c % 8) then s.abortCtx c .abort else s) (List.range 256) s).ok 0x29 tag))

/-- CLEAR_COUNTERS (R391, R515). -/
def execClearCounters (sess : Option Nat) (tag : BitVec 16) (payload : List Byte) (s : State) : Out :=
  let p := payload
  let q := le p 0 1
  .next (s.readyCommand sess tag 0x2A (p.length == 4) [(decide (36 ≤ q), 0), (nonzero p 1 3, 1)] (fun s =>
    s.ifFree 0x2A tag 6 q (fun s => (s.modPort q (fun x => { x with cnt := {} })).ok 0x2A tag)))

/-! ## RESUME (R452, R461, R511, R549) -/

/-- A thermal halt is refused its resume while the die is at 95 °C or above (R549). -/
def State.tooHot (s : State) : Bool := s.thermal.thermalHalt && decide (380 ≤ s.thermal.tj)

/-- The detail of a refused RESUME (R461). -/
def State.resumeDetail (s : State) : Nat :=
  s.halt.state.code + s.wd.state.code * 2 ^ 8 + s.hearth.startup.code * 2 ^ 16 + (if s.isHalted && s.tooHot then 2 ^ 24 else 0)

/-- A halted engine may be resumed (R461, R549). -/
def State.resumable (s : State) : Bool :=
  s.isHalted && !s.halt.assertedA && !s.halt.assertedB && s.wd.state != .fenced && !s.tooHot

/-- A clean fence is over (R452, R461). -/
def Watchdog.cleared (w : Watchdog) : Watchdog := { w with state := if w.state = .fencedClean then .armed else w.state }

/-- The halt ends: links train, or Training begins (R61, R63, R461). -/
def State.resumeHalted (s : State) : State :=
  let s := { s with wd := s.wd.cleared, halt := { s.halt with state := .resuming, atStart := false },
                    thermal := { s.thermal with thermalHalt := false } }
  if s.hearth.startup = .haltedAtStart then s.beginTraining else s.trainAgain

/-- RESUME (R461, R511, R512). -/
def execResume (sess : Option Nat) (tag : BitVec 16) (payload : List Byte) (s : State) : Out :=
  .next (s.command sess tag 0x32 false false true [] (fun s =>
    let s := s.wake
    if !(s.isReady || s.hearth.startup == .haltedAtStart) then s.reply 0x32 tag 0x13 s.hearth.startup.code
    else if payload.length != 0 then s.reply 0x32 tag 0x10 0x32
    else if s.resumable then s.resumeHalted.accept 0x32 tag 0x0D [s.engineId] none []
    else if s.halt.state == .running && s.wd.state == .fencedClean then
      (({ s with wd := s.wd.cleared } : State).settleAll).ok 0x32 tag
    else s.reply 0x32 tag 0x21 s.resumeDetail))

/-! ## The census (R518, R524, R515) -/

/-- CENSUS_START: the epoch is the hall count (R518, R522). -/
def execCensusStart (sess : Option Nat) (tag : BitVec 16) (payload : List Byte) (s : State) : Out :=
  .next (s.readyCommand sess tag 0x40 (payload.length == 0) [] (fun s =>
    if s.census.active then s.busy 0x40 tag 0x0D s.engineId
    else
      let e := s.hall
      (s.joinCensus e s.engineId none).respond 0x40 tag 0x00 0 (toLe 8 e.toNat)))

/-- CENSUS_READ: of the census that this engine began last; no record while it runs (R515, R518). -/
def execCensusRead (sess : Option Nat) (tag : BitVec 16) (payload : List Byte) (s : State) : Out :=
  let p := payload
  let e := BitVec.ofNat 64 (le p 0 8)
  let running := s.census.active && s.census.isOrigin && s.census.epoch == e
  let known := s.census.done && s.census.resultEpoch == e
  .next (s.readyCommand sess tag 0x41 (p.length == 12) [(!running && !known, 0), (nonzero p 10 2, 10)] (fun s =>
    let rs := if known then s.census.result else []
    let out := (rs.drop (le p 8 2)).take 23
    let flags := (if known && s.census.flag then 1 else 0) + (if known then 2 else 0)
    s.respond 0x41 tag 0x00 out.length (toLe 2 rs.length ++ toLe 1 flags ++ toLe 1 0 ++ out.flatMap (fun r => r.bytes))))

/-- The result may be committed: clean, the last census that this engine took part in, and at most 10 s old (R524). -/
def State.commitAllowed (s : State) (e : Word64) : Bool :=
  let k := s.census
  k.done && k.resultEpoch == e && !k.flag && k.isOrigin && k.epoch == e && !k.active && (s.hall - k.doneHall).toNat ≤ 10000000000

/-- CENSUS_COMMIT (R512, R524). -/
def execCensusCommit (sess : Option Nat) (tag : BitVec 16) (payload : List Byte) (s : State) : Out :=
  let p := payload
  .next (s.readyCommand sess tag 0x42 (p.length == 8) [] (fun s =>
    if s.census.committing then s.busy 0x42 tag 0x0D s.engineId
    else if s.commitAllowed (BitVec.ofNat 64 (le p 0 8)) then (s.accept 0x42 tag 0x0D [s.engineId] none []).applyCommit
    else s.reply 0x42 tag 0x21 ((if s.census.flag then 1 else 0) + (if s.census.done then 2 else 0))))

/-! ## BAD_COMMAND (R513-R515) -/

/-- The payload lengths that fit a command; none for a code that no command has (R514, R515). -/
def lengthFits (code n : Nat) : Option Bool :=
  match code with
  | 0x01 => some (n == 0) | 0x02 => some (n == 8) | 0x03 => some (9 ≤ n && n ≤ 4096) | 0x04 => some (n == 0) | 0x05 => some (n == 4)
  | 0x06 => some (n == 8) | 0x07 => some (n == 16) | 0x08 => some (n == 4) | 0x10 => some (n == 8)
  | 0x11 => some (4 ≤ n && n % 2 == 0 && n ≤ 4096) | 0x12 => some (n == 8) | 0x13 => some (n == 8) | 0x14 => some (n == 4)
  | 0x18 => some (n == 8) | 0x19 => some (n == 52) | 0x1A => some (n == 4) | 0x20 => some (n == 68) | 0x21 => some (n == 4)
  | 0x24 => some (n == 8) | 0x25 => some (n == 4) | 0x28 => some (n == 8) | 0x29 => some (n == 32) | 0x2A => some (n == 4)
  | 0x30 => some (4 ≤ n && n % 2 == 0 && n ≤ 4096) | 0x31 => some (9 ≤ n && n ≤ 4096) | 0x32 => some (n == 0) | 0x40 => some (n == 0)
  | 0x41 => some (n == 12) | 0x42 => some (n == 8)
  | _ => none

/-- BAD_COMMAND: an unknown code, or a length that does not fit. A length that fits is that command's own row. -/
def execBadCommand (sess : Option Nat) (tag : BitVec 16) (code : BitVec 16) (len : Nat) (s : State) : Out :=
  let c := code.toNat
  match lengthFits c len with
  | none => .next (if s.mgmtOn then s.reply c tag 0x10 c else s.mgmtMissed)
  | some true => .next s
  | some false =>
    let free := c == 0x01 || (s.recovery && (c == 0x03 || c == 0x04))
    if c = 0x32 ∧ s.hearth.startup = .haltedAtStart then .next (s.command sess tag c free false false [] id)
    else .next (s.command sess tag c free (0x10 ≤ c) false [] id)

end Sys2Proof.Machine
end

