-- ==== Sys2Proof/Machine/Scans.lean ====
section
/-! DEFINITION. Pattern packs (R438-R442), on-demand scans (R435-R437), and the end of a flash write (R441, R512). -/

namespace Sys2Proof.Machine

/-! ## Packs (R438-R440) -/

/-- The pack ID that tests a class of units (R438). -/
def packOf : Nat → Nat
  | 2 => 1 | 3 => 2 | 6 => 3 | _ => 4

/-- Where a copy of a pack lies in the flash (R424, R438). -/
def packBase (id copy : Nat) : Nat := 0x01010000 + (2 * (id - 1) + copy) * 0x100000

/-- The number of the first step that a pack fails (R439, R440). -/
def State.packCheck (s : State) (id : Nat) (b : List Byte) : Option Nat :=
  let total := le b 0x00C 4
  (firstFail [
    (!(le b 0 4 == 0x4B504E5A && le b 4 2 == 1 && (crc32c (slice b 0 0x120)).toNat == le b 0x120 4), 1, 0),
    (!(0x130 ≤ total && total ≤ 0x100000 && total == b.length && 1 ≤ le b 0x010 2 && le b 0x010 2 ≤ 4096 && allZero b 0x013 45 &&
       allZero b 0x0A1 31 && allZero b 0x124 12), 2, 0),
    (!(le b 6 1 == id && bit (le b 0x012 1) s.fuses.stepping.toNat), 3, 0),
    (!s.keyOk (le b 7 1) (slice b 0x040 97), 4, 0),
    (le b 8 4 < FMap.get 0 s.flash.packMin id, 5, 0),
    (!ecdsaVerify (slice b 0x040 97) (sha384Nat (slice b 0 0xC0 ++ slice b 0x130 (total - 0x130))) (slice b 0x0C0 96), 6, 0)]).map (fun r => r.1)

/-- A pack is refused: the record names the step (R420, R440). -/
def State.packRecord (s : State) (step : Nat) : State :=
  s.record { event := 0x0A01, severity := 2, unitClass := 0x0A, unitIndex := 0, detail := step }

/-- The copy of a pack in use. -/
def State.packCopy (s : State) (id : Nat) : Nat := FMap.get 0 s.flash.packCopy id

/-- A copy of a pack as the flash holds it. -/
def State.packBytes (s : State) (id copy : Nat) : List Byte :=
  let n := le (s.flashBytes (packBase id copy + 0x00C) 4) 0 4
  s.flashBytes (packBase id copy) (max 0x130 (min n 0x100000))

/-- The copy that a scan uses: the one in use, or the other where that one fails; else the step that failed (R442). -/
def State.packForScan (s : State) (id : Nat) : Nat ⊕ Nat :=
  let c := s.packCopy id
  match s.packCheck id (s.packBytes id c) with
  | none => .inl c
  | some step => if (s.packCheck id (s.packBytes id (1 - c))).isNone then .inl (1 - c) else .inr step

/-- A scan with a pack is under way. -/
def State.packScans (s : State) (id : Nat) : Bool := s.svc.scans.any (fun j => packOf j.unitClass == id)

/-! ## PACK_PUSH (R441, R515) -/

/-- What has arrived of a pack. -/
def State.packSoFar (s : State) (id : Nat) : List Byte := FMap.get [] s.mgmt.packBuf id

/-- The pack's parts are kept, or dropped. -/
def State.putPack (s : State) (id : Nat) (b : List Byte) : State :=
  { s with mgmt := { s.mgmt with packBuf := if b.isEmpty then FMap.del s.mgmt.packBuf id else FMap.put s.mgmt.packBuf id b } }

/-- The last part has arrived: the pack is checked and written, after the scan that uses its ID, if one does (R441). -/
def State.packWhole (s : State) (tag : BitVec 16) (id : Nat) (b : List Byte) : State :=
  let start (s : State) : State :=
    ({ (s.putPack id b) with mgmt := { (s.putPack id b).mgmt with packWriting := some id } } : State).accept 0x31 tag 0x0A [id] none []
  if s.packScans id then start s
  else match s.packCheck id b with
    | none => start s
    | some step => ((s.putPack id []).packRecord step).reply 0x31 tag 0x26 step

/-- PACK_PUSH: parts come in order from 0 (R441, R512, R515). -/
def execPackPush (sess : Option Nat) (tag : BitVec 16) (payload : List Byte) (s : State) : Out :=
  let p := payload
  let id := le p 0 1
  let off := le p 4 4
  let last := bit (le p 1 1) 0
  .next (s.readyCommand sess tag 0x31 (9 ≤ p.length && p.length ≤ 4096)
    [(id == 0 || decide (4 < id), 0), (1 < le p 1 1, 1), (nonzero p 2 2, 2),
     ((off != 0 && off != (s.packSoFar id).length) || decide (0x100000 < off + (p.length - 8)), 4)] (fun s =>
      if s.pendingUnit 0x0A id || (last && s.flashBusy) then s.busy 0x31 tag 0x0A 0
      else
        let b := (if off = 0 then [] else s.packSoFar id) ++ p.drop 8
        if last then s.packWhole tag id b else (s.putPack id b).ok 0x31 tag))

/-! ## FLASH_WRITE_COMPLETE (R441, R512, R515) -/

/-- Bytes in the flash from `off`. -/
def Flash.put (f : Flash) (off : Nat) (b : List Byte) : Flash := { f with mem := memPut Config.erasedByte f.mem off b }

/-- An image write: the sector that the offset begins is erased first (R515). -/
def Flash.writeImage (f : Flash) (off : Nat) (b : List Byte) : Flash :=
  (if off % 0x10000 = 0 then { f with mem := memClear f.mem off (off + 0x10000) } else f).put off b

/-- A pack leaves the Hearth's memory. -/
def State.packOver (s : State) (id status detail : Nat) : State :=
  let s := s.putPack id []
  ({ s with mgmt := { s.mgmt with packWriting := none } } : State).acceptAll (fun a => a.code == 0x31 && a.units == [id]) status detail

/-- A pack that passes is written beside the one in use and takes its place, and the minimum rises to its version (R441). -/
def Flash.takePack (f : Flash) (id copy : Nat) (b : List Byte) : Flash :=
  { (f.put (packBase id copy) b) with packMin := FMap.put f.packMin id (le b 8 4), packCopy := FMap.put f.packCopy id copy }

/-- FLASH_WRITE_COMPLETE: the image bytes, or the pack that has arrived whole and waits for no scan, are in the flash, and the command
completes (R441, R512). -/
def execFlashWriteComplete (s : State) : Out :=
  match s.mgmt.flashWrite, s.mgmt.packWriting with
  | some (off, b), _ =>
    .next (({ s with flash := s.flash.writeImage off b, mgmt := { s.mgmt with flashWrite := none } } : State).acceptAll (fun a => a.code == 0x03) 0x00 0)
  | none, some id =>
    if s.packScans id then .next s
    else
      let b := s.packSoFar id
      match s.packCheck id b with
      | some step => .next ((s.packRecord step).packOver id 0x26 step)
      | none => .next (({ s with flash := s.flash.takePack id (1 - s.packCopy id) b } : State).packOver id 0x00 0)
  | none, none => .next s

/-! ## SCAN (R435, R437, R442) -/

/-- A unit is in the state in which it can be scanned (R435). -/
def State.scannable (s : State) (cls idx : Nat) : Bool :=
  match cls with
  | 2 => s.extUsable idx && !s.extBusy idx && ((s.ext idx).state == .free ||
      ((s.ext idx).state == .staging && s.cellar.staging.contains idx && !s.cellar.replacing.any (fun r => r.1 == idx)))
  | 3 => (callerCtxs idx).all (fun c => (s.ctx c).state == .unassigned || (s.ctx c).state == .idle || (s.ctx c).state == .stopped)
  | 5 => s.hostIndices.contains idx && (s.host idx).state == .heldDown
  | _ => s.fabOn idx && (s.port idx).state == .heldDown

/-- The Free extents outside the scan that can replace staging. -/
def State.spareExts (s : State) (units : List Nat) : Nat := (s.freeExts.filter (fun e => !units.contains e)).length

/-- The units of a cell-group scan that lie in staging. -/
def State.stagingUnits (s : State) (cls : Nat) (units : List Nat) : List Nat :=
  if cls = 2 then units.filter (fun e => (s.ext e).state == .staging) else []

/-- An extent that the scan tests is powered (R329, R435). -/
def State.scanPower (s : State) (cls : Nat) (units : List Nat) : State :=
  match units with
  | e :: _ => if cls = 2 then s.modExt e (fun x => { x with power := .awake }) else s
  | [] => s

/-- The scan begins: staging moves to its replacements first, and the first unit is powered (R360, R435). -/
def State.beginScan (s : State) (tag : BitVec 16) (cls : Nat) (units : List Nat) (copy : Nat) : State :=
  let moving := s.stagingUnits cls units
  let s := { s with svc := { s.svc with scans := s.svc.scans ++ [{ unitClass := cls, units := units, tag := tag, copy := copy }] } }
  let s := overList State.replaceStaging moving s
  ({ s with svc := { s.svc with scans := s.svc.scans.map (fun j =>
      if j.unitClass = cls ∧ j.units = units then { j with replacements := s.cellar.replacing.filter (fun r => moving.contains r.1) } else j) } } : State).scanPower cls units

/-- SCAN: every unit is in the state that it needs, and a pack passes; else no unit leaves service (R435, R442, R512, R515). -/
def execScan (sess : Option Nat) (tag : BitVec 16) (payload : List Byte) (s : State) : Out :=
  let p := payload
  let cls := le p 0 1
  let n := le p 1 1
  let raw := (List.range n).map (fun i => le p (4 + 2 * i) 2)
  .next (s.readyCommand sess tag 0x30 (4 ≤ p.length && p.length == 4 + 2 * n)
    ([(!(cls == 2 || cls == 3 || cls == 5 || cls == 6), 0), (n == 0 || decide (32 < n), 1), (nonzero p 2 2, 2)] ++
      (List.range n).map (fun i => (decide (partCount cls ≤ raw.getD i 0), 4 + 2 * i)))
    (fun s =>
      let units := (raw.map (s.partIndex cls)).eraseDups
      match units.find? (fun u => (s.svcJob cls u).isSome || s.pendingUnit cls u) with
      | some u => s.ifFree 0x30 tag cls u id
      | none =>
        match units.find? (fun u => !s.scannable cls u) with
        | some u => s.reply 0x30 tag 0x21 (s.partState cls u)
        | none =>
          if s.spareExts units < (s.stagingUnits cls units).length then s.reply 0x30 tag 0x21 ExtState.staging.code
          else match s.packForScan (packOf cls) with
            | .inr step => (s.packRecord step).reply 0x30 tag 0x26 step
            | .inl copy => (s.beginScan tag cls units copy).accept 0x30 tag cls units none []))

/-! ## SCAN_COMPLETE (R436) -/

/-- A cell group goes back: one that was staging takes its place again, and its replacement is Free (R435, R436). -/
def State.scannedExt (s : State) (e : Nat) (j : ScanJob) : State :=
  let s := { s with cellar := s.cellar.scrub e }
  let old := s.ext e
  match j.replacements.find? (fun r => r.1 == e && s.cellar.staging.contains r.2) with
  | some (_, new) =>
    let s := { s with cellar := (s.cellar.replaceStaging new e).scrub new }
    (s.putExt e { old with state := .staging, owner := .staging, power := .awake }).modExt new (fun x => { corrected := x.corrected })
  | none => s.putExt e { corrected := old.corrected }

/-- The unit passed (R436). -/
def State.scanPassed (s : State) (idx : Nat) (j : ScanJob) : State :=
  let s := s.record { event := 0x0902, severity := 0, unitClass := j.unitClass, unitIndex := idx, detail := j.copy }
  match j.unitClass with
  | 2 => s.scannedExt idx j
  | 3 => s.callerBack idx
  | _ => s

/-- The unit failed: it stays out of service until the next reset (R436). -/
def State.scanFailed (s : State) (idx : Nat) (j : ScanJob) : State :=
  let s := s.record { event := 0x0902, severity := 3, unitClass := j.unitClass, unitIndex := idx, detail := j.copy }
  let s := { s with svc := { s.svc with failed := s.svc.failed ++ [(j.unitClass, idx)] } }
  match j.unitClass with
  | 2 => (s.quarantineExt idx).modExt idx (fun x => { x with power := .off })
  | 5 => s.modHost idx (fun x => { x with heldByHalt := false })
  | 6 => s.modPort idx (fun x => { x with heldByHalt := false })
  | _ => s

/-- The scan goes on to its next unit, or is over (R435). -/
def Service.scanNext (v : Service) (j : ScanJob) : Service :=
  { v with scans := v.scans.filterMap (fun k => if k = j then (if j.units.tail.isEmpty then none else some { j with units := j.units.tail }) else some k) }

/-- SCAN_COMPLETE: the unit under scan returns, or stays out (R436); with the last unit the command completes (R512). A staging extent
is scanned once its replacement is in use. -/
def execScanComplete (unitClass unitIndex : Nat) (pass : Bool) (s : State) : Out :=
  match s.svc.scans.find? (fun j => j.unitClass == unitClass && j.units.head? == some unitIndex) with
  | none => .next s
  | some j =>
    if unitClass == 2 && s.cellar.replacing.any (fun r => r.1 == unitIndex) then .next s
    else
      let s := { s with svc := s.svc.scanNext j }
      let s := (if pass then s.scanPassed unitIndex j else s.scanFailed unitIndex j).scanPower unitClass j.units.tail
      .next (if j.units.tail.isEmpty then s.acceptAll (fun a => a.code == 0x30 && a.tag == j.tag && a.unitClass == unitClass && a.units.contains unitIndex) 0x00 0 else s)

end Sys2Proof.Machine
end

