-- ==== Sys2Proof/Machine/Transport.lean ====
section
/-! DEFINITION. The transports and SPDM (R501-R509): the SMBus that the engine masters for its events, MCTP control messages,
measurements, certificates, and sessions. -/

namespace Sys2Proof.Machine

/-! ## SMBus (R503-R505, R517) -/

/-- The event that could not be sent stays queued for the next session (R504, R517). -/
def Mgmt.abandon (m : Mgmt) : Mgmt :=
  match m.smbusEvent with
  | none => m
  | some ev =>
    let m := { m with smbusEvent := none, smbusRetries := 0, smbusWaiting := false, smbusAbandoned := satInc m.smbusAbandoned,
                      sent := (m.sent.reverse.erase ev).reverse }
    if m.queue.length < 256 then { m with queue := m.queue ++ [ev] } else { m with lost := satInc m.lost, lostSince := true }

/-- The 35 ms within which the retries fall are over (R504). -/
def State.smbusLate (s : State) : Bool := 35000000 < (s.hall - s.mgmt.smbusFirst).toNat

/-- SMBUS_ARBITRATION_LOST: the engine stops driving and waits to retry; the fourth loss, or one past 35 ms, abandons the message
(R504). -/
def execSmbusArbitrationLost (s : State) : Out :=
  if s.mgmt.smbusEvent.isNone || s.mgmt.smbusWaiting then .next s
  else if 3 ≤ s.mgmt.smbusRetries || s.smbusLate then .next { s with mgmt := s.mgmt.abandon }
  else .next { s with mgmt := { s.mgmt with smbusWaiting := true } }

/-- SMBUS_RETRY: after a Stop or 50 µs of idle the engine sends again, within 35 ms of its first attempt (R504). -/
def execSmbusRetry (s : State) : Out :=
  if !s.mgmt.smbusWaiting then .next s
  else if s.smbusLate then .next { s with mgmt := s.mgmt.abandon }
  else .next { s with mgmt := { s.mgmt with smbusWaiting := false, smbusRetries := s.mgmt.smbusRetries + 1 } }

/-- SMBUS_SCL_TIMEOUT: the interface is reset, and the reset counted (R505). -/
def execSmbusSclTimeout (s : State) : Out :=
  if s.hearth.smbusOn then .next { s with mgmt := { s.mgmt with smbusResets := satInc s.mgmt.smbusResets } } else .next s

/-! ## MCTP control messages (R501, R502) -/

/-- What the engine answers to a control message or an SPDM request. -/
def State.transport (s : State) (r : TransportReply) : State := { s with mgmt := { s.mgmt with reply := r } }

/-- A control message is answered while the responder runs (R60, R88). -/
def State.control (s : State) (f : State → State) : State := if s.mgmtOn then f s else s.mgmtMissed

/-- SET_ENDPOINT_ID (R501, R502). -/
def execSetEndpointId (eid : BitVec 8) (s : State) : Out :=
  .next (s.control (fun s => ({ s with mgmt := { s.mgmt with eid := eid } } : State).transport .ok))

/-- GET_ENDPOINT_ID (R501, R502). -/
def execGetEndpointId (s : State) : Out := .next (s.control (fun s => s.transport (.eid s.mgmt.eid)))

/-- GET_MCTP_VERSION_SUPPORT (R501). -/
def execGetMctpVersionSupport (s : State) : Out := .next (s.control (fun s => s.transport (.bytes Config.mctpVersions)))

/-- GET_MESSAGE_TYPE_SUPPORT: control, SPDM and secured messages (R501). -/
def execGetMessageTypeSupport (s : State) : Out := .next (s.control (fun s => s.transport (.bytes [0x00, 0x05, 0x06])))

/-! ## Measurements, certificates, challenge (R506, R507) -/

/-- The firmware answers SPDM: the boot ROM alone does not (R72, R506). -/
def State.spdmOn (s : State) : Bool :=
  s.mgmtOn && !(s.hearth.startup == .reset || s.hearth.startup == .loading || s.recovery)

/-- An SPDM request. -/
def State.spdm (s : State) (f : State → State) : State :=
  s.control (fun s => if s.spdmOn then f s else s.transport .error)

/-- The version of the copy in use of a pack (R507). -/
def State.packVersion (s : State) (id : Nat) : Nat := le (s.flashBytes (packBase id (s.packCopy id) + 8) 4) 0 4

/-- The measurement of an index (R507). -/
def State.measurement (s : State) (index : Nat) : Option (List Byte) :=
  match index with
  | 1 => some Config.bootRomMeasurement
  | 2 => some (idBytes s.hearth.fwMeasure)
  | 3 => some (idBytes (BitVec.ofNat 384 (sha384Nat s.hearth.config)))
  | 4 => some (idBytes (BitVec.ofNat 384 (sha384Nat (mapBytes s.hearth.disabledMap))))
  | 5 => some (toLe 1 s.fuses.stepping.toNat ++ toLe 1 s.fuses.grade ++ toLe 4 s.fuses.minSecurity.toNat ++
      toLe 1 ((if s.fuses.revoked0 then 1 else 0) + (if s.fuses.revoked1 then 2 else 0)))
  | 6 => some ([1, 2, 3, 4].flatMap (fun id => toLe 4 (s.packVersion id)))
  | _ => none

/-- GET_MEASUREMENTS: the measurement with the engine's signature over it (R506, R507). -/
def execGetMeasurements (sess : Option Nat) (index : Nat) (s : State) : Out :=
  .next (s.spdm (fun s => match (s.sessionUsed sess).measurement index with
    | some b => (s.sessionUsed sess).transport (.bytes (b ++ Config.deviceSignature b))
    | none => (s.sessionUsed sess).transport .error))

/-- The certificate chain of a slot (R506). -/
def State.chain (s : State) (slot : Nat) : Option (List Byte) :=
  match slot with
  | 0 => some Config.deviceChain
  | 1 => some (Config.aliasChain s.hearth.fwMeasure)
  | _ => none

/-- GET_CERTIFICATE (R506). -/
def execGetCertificate (slot : Nat) (s : State) : Out :=
  .next (s.spdm (fun s => match s.chain slot with
    | some b => s.transport (.bytes b)
    | none => s.transport .error))

/-- CHALLENGE: a signature over the nonce and the slot's chain (R506). -/
def execChallenge (slot : Nat) (nonce : BitVec 256) (s : State) : Out :=
  .next (s.spdm (fun s => match s.chain slot with
    | some b => s.transport (.bytes (Config.deviceSignature ((toLe 32 nonce.toNat).reverse ++ b)))
    | none => s.transport .error))

/-! ## Sessions (R506, R508, R509, R517) -/

/-- Open fabric-manager sessions. -/
def Mgmt.fmCount (m : Mgmt) : Nat := (m.sessions.filter (fun x => x.host.isNone)).length

/-- A fabric-manager session opens, and the queued events are sent (R508, R517). -/
def Mgmt.openFm (m : Mgmt) (identity : BitVec 384) (now : Word64) : Mgmt :=
  { m with sessions := m.sessions ++ [⟨m.nextSession, none, identity, now⟩], nextSession := m.nextSession + 1,
           sent := m.sent ++ m.queue, queue := [], reply := .session m.nextSession,
           smbusEvent := if m.queue.isEmpty then m.smbusEvent else m.queue.getLast?,
           smbusRetries := if m.queue.isEmpty then m.smbusRetries else 0, smbusWaiting := m.smbusWaiting && m.queue.isEmpty,
           smbusFirst := if m.queue.isEmpty then m.smbusFirst else now }

/-- A fabric manager's KEY_EXCHANGE: a third is Busy; one that does not authenticate opens nothing (R508). -/
def State.fmKeyExchange (s : State) (r : KeyEx) : State :=
  if 2 ≤ s.mgmt.fmCount then s.transport .busy
  else if r.mutualAuth && r.rootMatches then { s with mgmt := s.mgmt.openFm r.identity s.hall }
  else s.transport .error

/-- A host's KEY_EXCHANGE over DOE: at most one session per function, with mutual authentication (R349, R352, R509). -/
def State.hostKeyExchange (s : State) (h : Nat) (r : KeyEx) : State :=
  if s.mgmt.sessions.any (fun x => x.host == some h) then s.transport .busy
  else if r.mutualAuth then (s.wake.hostSession h r.identity).transport (.session s.mgmt.nextSession)
  else s.transport .error

/-- KEY_EXCHANGE (R508, R509, R517). -/
def execKeyExchange (req : KeyEx) (s : State) : Out :=
  match req.host with
  | none => .next (s.spdm (fun s => s.fmKeyExchange req))
  | some h =>
    if s.hostServing h.val && !(s.host h.val).blocked && s.hearth.live.isNone then .next (s.hostKeyExchange h.val req) else .next s

/-- HEARTBEAT keeps a session alive (R506). -/
def execHeartbeat (sess : Nat) (s : State) : Out :=
  .next (s.spdm (fun s =>
    if s.mgmt.sessions.any (fun x => x.id == sess) then (s.sessionUsed (some sess)).transport .ok else s.transport .error))

/-- SPDM_SESSION_TIMEOUT: three heartbeat periods of 10 s without traffic end a session (R506). -/
def execSpdmSessionTimeout (sess : Nat) (s : State) : Out :=
  match s.mgmt.sessions.find? (fun x => x.id == sess) with
  | none => .next s
  | some x =>
    let s := s.reach (x.lastTraffic + 30000000000)
    .next { s with mgmt := { s.mgmt with sessions := s.mgmt.sessions.filter (fun y => y.id != sess) } }

end Sys2Proof.Machine
end

