-- ==== Sys2Proof/Machine/Registers.lean ====
section
/-! DEFINITION. The register map that a host reads and writes through BAR0 (R7-R11, R398, R476-R498): the value of every register, reads
with their low-half latch, plain writes, RL fields and refused accesses. -/

namespace Sys2Proof.Machine

/-! ## A register's value -/

/-- A register: its offset, whether it is 64 bits wide, and its value. -/
structure Reg where
  off : Nat
  wide : Bool
  val : Nat

/-- A 32-bit register. -/
def r32 (off v : Nat) : Reg := ⟨off, false, v % 2 ^ 32⟩
/-- A 64-bit register. -/
def r64 (off v : Nat) : Reg := ⟨off, true, v % 2 ^ 64⟩

/-- A register from its fields: lowest bit and value. -/
def fieldsOf (l : List (Nat × Nat)) : Nat := (l.map (fun f => f.2 * 2 ^ f.1)).sum

/-- 1 for true. -/
def one (b : Bool) : Nat := if b then 1 else 0

/-- The register that covers a 4-byte offset. -/
def Reg.covers (off : Nat) (r : Reg) : Bool := r.off == off || (r.wide && r.off + 4 == off)

/-- The register of a list that covers an offset. -/
def regAt (l : List Reg) (off : Nat) : Option Reg := l.find? (Reg.covers off)

/-- A word of a byte array. -/
def wordReg (b : List Byte) (off i : Nat) : Option Reg := some (r32 off (le b i 4))

/-! ## The port page (R479-R483) -/

/-- BOOT_REASON (R479). -/
def BootReason.bits : BootReason → Nat
  | .powerOn => 0
  | .watchdog m => 1 + m.toNat * 2 ^ 8
  | .management => 2
  | .hearthError => Config.hearthFaultReason % 16

/-- The fixed registers of the port page (R479). -/
def State.portRegs (s : State) : List Reg := [
  r32 0x000 (fieldsOf [(0, s.engineId), (8, s.hearth.slotId.toNat), (11, s.hearth.roomId.toNat), (16, s.hallId.toNat)]),
  r32 0x004 (fieldsOf [(0, s.fuses.stepping.toNat), (8, s.fuses.grade), (16, one s.hearth.imageB)]),
  r32 0x008 s.hearth.fwVersion.toNat, r64 0x010 s.hearth.mapDigest.toNat, r64 0x018 s.hearth.configDigest.toNat, r64 0x020 s.hall.toNat,
  r32 0x028 (fieldsOf [(0, s.hearth.startup.code), (4, s.hearth.power.code), (6, one s.activeHold), (8, s.sync.status.code),
    (12, s.wd.state.code), (14, min s.wd.streak 3)]),
  r32 0x02C s.wd.lastMissed.toNat, r32 0x030 s.wd.count.toNat, r32 0x034 s.wd.badKeys.toNat, r32 0x038 s.hearth.bootReason.bits,
  r32 0x040 (fieldsOf [(0, s.hearth.rlOffset.toNat), (31, one s.hearth.rlSeen)]),
  r32 0x044 (fieldsOf [(0, tempBits s.thermal.tj), (16, one s.thermal.throttling)]), r32 0x048 (s.thermal.coreMv % 2 ^ 16),
  r64 0x050 s.thermal.throttledCycles.toNat, r32 0x058 s.hearth.miswired.toNat, r32 0x05C s.hearth.lateRelease.toNat,
  r32 0x060 s.hearth.epochErrors.toNat, r32 0x064 s.wd.disabledCheckins.toNat]

/-- The host block of a port (R480); LEASE reads 0 (R7). -/
def State.hostRegs (s : State) (h : Nat) : List Reg :=
  let x := s.host h
  [r32 0x400 (fieldsOf [(0, x.state.code), (4, x.rate), (8, x.width), (13, one x.degraded), (14, one (s.bonded (h / 2))), (15, one (s.cxlOn h)), (16, h)]),
   r32 0x404 (fieldsOf [(0, x.loadIndex.toNat), (8, devLoad x.loadIndex.toNat)]), r32 0x408 0, r32 0x40C x.slowReadNs, r32 0x410 x.tags.length,
   r32 0x414 x.unmapped.toNat, r32 0x418 x.rightsViolations.toNat, r32 0x41C x.renewalsIgnored.toNat, r32 0x420 x.slowReads.toNat,
   r32 0x424 x.targetResets.toNat, r32 0x428 x.droppedReplies.toNat, r32 0x42C x.droppedWrites.toNat, r32 0x430 x.hostStalls.toNat,
   r32 0x434 x.tagLeaks.toNat, r32 0x438 x.bar0Unsupported.toNat, r32 0x43C x.msixLost.toNat, r32 0x440 x.poisonPartialDrops.toNat,
   r32 0x444 x.bar2Unsupported.toNat]

/-- Window-slot entry `slot` (R482). -/
def State.slotEntry (s : State) (h slot : Nat) : Nat :=
  match FMap.find (s.host h).window slot with
  | none => 0
  | some e =>
    let x := s.ext e
    let base := fieldsOf [(0, e), (10, 1), (12, s.extCode e)]
    match x.owner with
    | .region r => base + fieldsOf [(11, 1), (16, r), (32, (match FMap.find s.cellar.regions r with | some y => y.leftMs | none => 0))]
    | _ => base + x.leftMs * 2 ^ 32

/-- A fabric port's block (R483). -/
def FabPort.regs (x : FabPort) : List Reg :=
  let c := x.cnt
  [r32 0x00 (fieldsOf [(0, x.state.code), (4, x.width), (7, one x.recalibrating), (8, x.farEngine.toNat), (16, x.farPort.toNat)]),
   r32 0x04 x.farHall.toNat, r64 0x08 c.framesSent.toNat, r64 0x10 c.framesReceived.toNat, r64 0x18 c.fecCorrected.toNat,
   r32 0x20 c.fecUncorrectable.toNat, r32 0x24 (c.symbolErrors.getD 0 0).toNat, r32 0x28 (c.symbolErrors.getD 1 0).toNat,
   r32 0x2C (c.symbolErrors.getD 2 0).toNat, r32 0x30 (c.symbolErrors.getD 3 0).toNat, r32 0x34 c.laneWarnings.toNat, r32 0x38 c.replays.toNat,
   r32 0x3C c.replayTimeouts.toNat, r32 0x40 c.recalibrations.toNat, r32 0x44 c.deferrals.toNat, r32 0x48 c.forced.toNat,
   r32 0x4C c.retrains.toNat, r32 0x50 c.trainingFailures.toNat, r32 0x54 c.routePicks.toNat, r32 0x58 c.badControl.toNat,
   r32 0x5C c.preReadyDrops.toNat, r32 0x60 c.starved0.toNat, r32 0x64 c.starved1.toNat, r32 0x68 c.starved2.toNat, r32 0x6C c.starved3.toNat,
   r32 0x70 c.confirmed.toNat, r32 0x74 c.checkFailures.toNat, r32 0x78 c.retractSent.toNat, r32 0x7C c.retractReceived.toNat,
   r32 0x80 c.resends.toNat, r32 0x84 c.ackTimeouts.toNat, r32 0x88 c.duplicates.toNat, r32 0x8C c.lost.toNat, r32 0x90 c.unroutable.toNat]

/-- A register moved up by a base. -/
def Reg.at (base : Nat) (r : Reg) : Reg := { r with off := base + r.off }

/-- The configuration block as its mirror shows it: bit 0 of the watchdog slot mask reads as 1 (R73, R76). -/
def State.configMirror (s : State) : List Byte :=
  s.hearth.config.take 0x020 ++ ((s.hearth.config.drop 0x020).take 1).map (fun b => b ||| 1) ++ s.hearth.config.drop 0x021

/-- The register at an offset of the port page (R479-R483). -/
def State.portReg (s : State) (h off : Nat) : Option Reg :=
  if 0x200 ≤ off ∧ off < 0x400 then wordReg s.configMirror off (off - 0x200)
  else if 0x1000 ≤ off ∧ off < 0x3000 then some (r64 (off / 8 * 8) (s.slotEntry h ((off - 0x1000) / 8)))
  else if 0x3000 ≤ off ∧ off < 0x5400 then
    (regAt (s.port ((off - 0x3000) / 0x100)).regs (off % 0x100)).map (Reg.at (off / 0x100 * 0x100))
  else regAt (s.portRegs ++ s.hostRegs h) off

/-- The register at an offset of the MSI-X table or of the pending-bit array (R484). -/
def State.msixReg (s : State) (h off : Nat) : Option Reg :=
  let x := s.host h
  if off < 0xE000 then
    let v := (off - 0xC000) / 16
    let e := FMap.get {} x.msix v
    if s.vectorExists h v then
      some (r32 off (match off / 4 % 4 with
        | 0 => e.addr.toNat % 2 ^ 32 | 1 => e.addr.toNat / 2 ^ 32 | 2 => e.data.toNat | _ => one e.masked))
    else none
  else
    let first := (off - 0xE000) * 8
    if s.vectorExists h first then some (r32 off (((x.pba.filter (fun v => first ≤ v && v < first + 32)).map (fun v => 2 ^ (v - first))).sum)) else none

/-! ## The Suite owner page (R485-R492) -/

/-- The 32 bytes of a wait-graph entry (R202). -/
def StallEntry.bytes (w : StallEntry) : List Byte :=
  toLe 1 w.ctx ++ toLe 1 w.state ++ toLe 1 w.opcode ++ toLe 1 0 ++ toLe 3 w.figIdx ++ toLe 1 0 ++ toLe 2 w.selector ++ toLe 1 w.home ++
  toLe 1 w.tenant ++ toLe 8 w.awaited.toNat ++ toLe 8 w.current.toNat ++ toLe 1 w.ringerEngine ++ toLe 1 w.ringerCtx ++ toLe 2 0

/-- A limit that a quota entry holds (R487). -/
def limitOf (m : FMap Nat) (t : Nat) : Nat := FMap.get 256 m t

/-- The Bell debug registers (R489). -/
def BellDebug.regs (d : BellDebug) : List Reg := [
  r64 0x40 d.sel.toNat, r32 0x48 0,
  r32 0x50 (fieldsOf [(0, one d.done), (1, one d.error), (2, one d.full), (3, one d.overflow), (4, one d.remote), (5, one d.virt), (8, d.owner.toNat)]),
  r32 0x54 d.doubleFill.toNat, r64 0x58 d.value.toNat, r64 0x60 d.lastHall.toNat, r32 0x68 (fieldsOf [(0, d.lastFig), (24, d.lastCtx)]),
  r32 0x6C d.lastEngine, r64 0x70 d.entry.toNat]

/-- The echo registers (R491). -/
def Echo.regs (e : Echo) : List Reg := [
  r32 0xC0 (fieldsOf [(0, e.ctx), (8, e.fig)]), r32 0xC4 e.pass.toNat, r32 0xC8 (fieldsOf [(0, e.id.toNat), (16, one e.wasOrdered)]),
  r32 0xCC e.digestLow.toNat, r32 0xD0 0, r32 0xE0 (fieldsOf [(0, one e.busy), (4, e.outcome), (16, e.idDone.toNat)]), r64 0xE8 e.run1.toNat,
  r64 0xF0 e.run2.toNat, r32 0xF8 (fieldsOf [(0, e.diffEngine.toNat), (8, e.diffStage)]), r32 0xFC e.diffChunk, r32 0x100 e.cell1.toNat,
  r32 0x104 e.cell2.toNat]

/-- The fixed registers of the owner page of Suite `i` (R485, R486, R488, R490, R492); WO registers read 0 (R7). -/
def State.ownerRegs (s : State) (i : Nat) : List Reg :=
  let x := s.suite i
  [r32 0x0000 (fieldsOf [(0, x.state.code), (4, i), (8, s.suiteCfg i 2 2), (16, s.suiteCfg i 4 2)]), r32 0x0004 0, r32 0x0008 x.dropped.toNat,
   r64 0x0010 (fieldsOf [(0, bits x.assignLo.toNat 17 0), (32, bits x.assignHi.toNat 10 0), (48, x.assignResult)]), r32 0x0020 0,
   r32 0x0024 (fieldsOf [(0, x.groupResult), (4, x.groupResGroup), (16, x.groupResOffset), (31, one (s.grp x.groupResGroup).staged.isSome)]),
   r32 0x0028 x.groupRead.toNat, r64 0x0030 0, r32 0x0038 (fieldsOf [(0, x.bellResult), (16, (s.suiteBlocks i).length)]), r32 0x003C x.bellOffset.toNat,
   r32 0x00A0 (fieldsOf [(0, one x.stallValid), (16, x.stallReport.length)]), r32 0x00A4 0, r64 0x00A8 x.stallHall.toNat,
   r32 0x0110 x.recordSeq.toNat, r32 0x0114 (fieldsOf [(0, one x.recordValid), (1, one x.recordDone)])] ++ x.dbg.regs ++ x.echo.regs

/-- The register at an offset of the owner page. -/
def State.ownerReg (s : State) (i off : Nat) : Option Reg :=
  let x := s.suite i
  if 0x80 ≤ off ∧ off < 0xA0 then
    some (r32 off ((x.dbg.waiters.filter (fun c => (off - 0x80) * 8 ≤ c && c < (off - 0x80) * 8 + 32)).map (fun c => 2 ^ (c - (off - 0x80) * 8))).sum)
  else if 0x140 ≤ off ∧ off < 0x180 then wordReg (match x.recordWindow with | some r => r.bytes | none => []) off (off - 0x140)
  else if 0x200 ≤ off ∧ off < 0x400 then wordReg x.groupWindow off (off - 0x200)
  else if 0x400 ≤ off ∧ off < 0x600 then wordReg x.groupReadback off (off - 0x400)
  else if 0x800 ≤ off ∧ off < 0x1000 then
    let t := (off - 0x800) / 8
    some (r32 off (if off % 8 = 0 then fieldsOf [(0, limitOf x.quotaCtx t), (16, limitOf x.quotaGrp t)]
      else fieldsOf [(0, limitOf x.quotaCtxEff t), (16, limitOf x.quotaGrpEff t)]))
  else if 0x2000 ≤ off ∧ off < 0x4000 then
    wordReg (match x.stallReport[(off - 0x2000) / 32]? with | some w => w.bytes | none => []) off (off % 32)
  else regAt (s.ownerRegs i) off

/-! ## Context pages (R494-R498) -/

/-- The 16 bytes of layer record `k` (R497). -/
def Context.layerBytes (x : Context) (k : Nat) : List Byte :=
  match x.layers.find? (fun l => l.age % 64 == k) with
  | none => []
  | some l => toLe 4 l.tag.toNat ++ toLe 4 l.count.toNat ++
      toLe 8 (l.digest % 2 ^ 61 + fieldsOf [(62, one l.incomplete), (63, one (!l.closed || decide (0 < l.inFlight)))])

/-- The fixed registers of a context page (R494, R496); WO registers read 0 (R7). -/
def Context.pageRegs (x : Context) : List Reg := [
  r32 0x000 0, r32 0x004 0, r32 0x008 0, r32 0x00C 0, r32 0x010 0, r32 0x014 0,
  r64 0x020 x.regs.base.toNat, r32 0x028 x.regs.loc.toNat, r32 0x02C x.regs.len, r32 0x030 x.regs.startIdx, r64 0x038 x.regs.ringBase.toNat,
  r32 0x040 x.regs.ringSize, r32 0x044 (fieldsOf [(0, x.ringHead.toNat), (16, x.ringTail.toNat)]), r32 0x048 (one x.ringPhase),
  r64 0x050 x.transReg.toNat, r32 0x058 (one x.transRefused), r32 0x100 (fieldsOf [(0, x.state.code), (4, x.stopReason.code)]),
  r32 0x104 (fieldsOf [(0, x.asg.tenant.toNat), (8, one x.asg.valid), (9, one x.asg.ordered), (10, x.asg.host), (14, x.asg.vector)]),
  r32 0x108 x.stopIndex, r32 0x10C x.lastStatus, r32 0x110 (fieldsOf [(0, x.flights.length), (16, x.prefetch.length)]),
  r64 0x118 x.run.base.toNat, r32 0x120 x.run.len, r32 0x124 x.run.startIdx, r32 0x128 x.run.loc.toNat,
  r32 0x140 (x.routePicks + x.reorders).toNat, r32 0x144 x.routePicks.toNat, r32 0x148 x.reorders.toNat, r64 0x150 x.ringFull.toNat,
  r64 0x158 x.issuedFigs.toNat, r64 0x160 x.waitingCycles.toNat, r32 0x168 x.stagingWaits.toNat, r32 0x16C x.timingDist.toNat,
  r32 0x170 x.unsynced.toNat, r32 0x174 x.nan.toNat, r32 0x178 x.overflow.toNat, r32 0x17C x.saturation.toNat,
  r32 0x180 (fieldsOf [(0, x.lag1Member), (15, one x.lag1Valid)]), r32 0x184 x.lag1Ns.toNat,
  r32 0x188 (fieldsOf [(0, x.lag2Engine), (15, one x.lag2Valid)]), r32 0x18C x.lag2Ns.toNat, r64 0x190 x.digest.toNat, r32 0x198 x.digestFig,
  r32 0x1C0 ((x.layerAge + 63) % 64 * one (x.layerAge != 0)), r32 0x1C4 x.layerOverwrites.toNat]

/-- The register at an offset of a context page. -/
def Context.reg (x : Context) (off : Nat) : Option Reg :=
  if 0x400 ≤ off ∧ off < 0x800 then wordReg (x.layerBytes ((off - 0x400) / 16)) off (off % 16)
  else if 0x800 ≤ off ∧ off < 0x1000 then some (r32 off (FMap.get 0 x.hist ((off - 0x800) / 4)).toNat)
  else regAt x.pageRegs off

/-! ## BAR0 (R398, R476) -/

/-- The page that an offset of BAR0 lies in, as a port decodes it (R398). -/
inductive Page where
  | none
  | port
  | msix
  | owner (i : Nat)
  | ctx (i c : Nat)
deriving DecidableEq

/-- The page of an offset (R138, R139, R151, R398). -/
def State.pageOf (s : State) (h off : Nat) : Page :=
  if off < 0xC000 then .port
  else if off < 0xC800 ∨ (0xE000 ≤ off ∧ off < 0xE010) then .msix
  else if 0x10000 ≤ off ∧ off < 0x20000 then (match s.ownedSuite h with | some i => .owner i | none => .none)
  else if 0x100000 ≤ off ∧ off < 0x200000 then
    let c := (off - 0x100000) / 0x1000
    match s.suiteOfCtx c, s.hostSuite h with
    | some i, some j => if i = j then .ctx i c else .none
    | _, _ => .none
  else .none

/-- A word of a decoded page that no table lists: reserved, it reads as 0 (R8, R398). -/
def Reg.orReserved (off : Nat) (r : Option Reg) : Option Reg := some (r.getD (r32 off 0))

/-- The register that a port finds at an offset: the whole of a page that it decodes answers (R398), but for the MSI-X table and the
pending bits, of which it decodes the vectors that exist (R484). -/
def State.reg (s : State) (h off : Nat) : Option Reg :=
  match s.pageOf h off with
  | .none => none
  | .port => Reg.orReserved off (s.portReg h off)
  | .msix => s.msixReg h off
  | .owner i => Reg.orReserved off ((s.ownerReg i (off - 0x10000)).map (Reg.at 0x10000))
  | .ctx _ c => Reg.orReserved off (((s.ctx c).reg (off % 0x1000)).map (Reg.at (off / 0x1000 * 0x1000)))

/-- The Suite that the page belongs to is Resetting: its requests complete under R467. -/
def State.pageResets (s : State) (h off : Nat) : Bool :=
  match s.pageOf h off with
  | .owner i => (s.suite i).state == .resetting
  | .ctx i _ => (s.suite i).state == .resetting
  | _ => false

/-- An access of 4 or 8 bytes that BAR0 takes: aligned, and every word of it decoded (R476). -/
def State.accepted (s : State) (h off size : Nat) : Bool :=
  (size == 4 || size == 8) && off % size == 0 && (s.reg h off).isSome && (size == 4 || (s.reg h (off + 4)).isSome)

/-- BAR0_UNSUPPORTED_ACCESS; `size` counts bytes (R476). -/
def execBar0UnsupportedAccess (host : Fin 16) (write : Bool) (offset size : Nat) (atomic : Bool) (s : State) : Out := s.hostIn host.val (.bar0UnsupportedAccess host write offset size atomic) fun s =>
  let h := host.val
  .next (s.bar0 h (!write) (fun s => if atomic || !s.accepted h offset size then s.bar0Refused h (!write) else s))

/-! ## Reads (R7, R9, R477) -/

/-- What a 32-bit read returns, and the latch it leaves: a low half latches the high half, and a high half returns what its port's own
last low-half read latched, of whichever register (R9, R477). -/
def HostPort.readHalf (x : HostPort) (r : Reg) (off : Nat) : Nat × Word32 :=
  if !r.wide then (r.val, x.readLatch)
  else if r.off = off then (r.val % 2 ^ 32, BitVec.ofNat 32 (r.val / 2 ^ 32))
  else (x.readLatch.toNat, x.readLatch)

/-- A 32-bit read of a register. -/
def State.readWord (s : State) (h off : Nat) : State :=
  match s.reg h off with
  | none => s.bar0Refused h true
  | some r =>
    if s.pageResets h off then s.bar0Reset h true
    else s.modHost h (fun x => { x with cpl := .data (toLe 4 (x.readHalf r off).1), readLatch := (x.readHalf r off).2 })

/-- LOW_HALF_READ (R9, R476, R477). -/
def execLowHalfRead (host : Fin 16) (offset : Nat) (s : State) : Out := s.hostIn host.val (.lowHalfRead host offset) fun s =>
  let h := host.val
  .next (s.bar0 h true (fun s => if s.accepted h offset 4 then s.readWord h offset else s.bar0Refused h true))

/-! ## RL fields (R7, R478) -/

/-- A refused write to an RL field is shown in ACCESS_STATUS and recorded (R478). -/
def State.rlWrite (s : State) (h off : Nat) : State :=
  ({ s with hearth := { s.hearth with rlOffset := BitVec.ofNat 21 off, rlSeen := true } } : State).record
    { event := 0x0105, severity := 0, unitClass := 5, unitIndex := h, detail := off }

/-- The offset lies in the configuration mirror, the one run of RL fields (R479). -/
def isRl (off : Nat) : Bool := 0x200 ≤ off && off < 0x400 && off % 4 == 0

/-- RL_FIELD_WRITE (R7, R478). -/
def execRlFieldWrite (host : Fin 16) (offset : Nat) (s : State) : Out := s.hostIn host.val (.rlFieldWrite host offset) fun s =>
  let h := host.val
  .next (s.bar0 h false (fun s => if isRl offset then s.rlWrite h offset else s))

/-! ## Writes (R7, R8, R10, R477) -/

/-- The state that an outcome answers. -/
def nextOr (s : State) : Out → State
  | .next t => t
  | _ => s

/-- One word of a vector's MSI-X entry (R484): the mask bit is bit 0 of the last word. -/
def State.writeMsix (s : State) (h off v : Nat) : State :=
  let n := (off - 0xC000) / 16
  let e := FMap.get {} (s.host h).msix n
  let put (e : MsixEntry) : State := s.modHost h (fun x => { x with msix := FMap.put x.msix n e })
  if 0xE000 ≤ off then s
  else match off / 4 % 4 with
  | 0 => put { e with addr := BitVec.ofNat 64 (e.addr.toNat / 2 ^ 32 * 2 ^ 32 + v) }
  | 1 => put { e with addr := BitVec.ofNat 64 (e.addr.toNat % 2 ^ 32 + v * 2 ^ 32) }
  | 2 => put { e with data := BitVec.ofNat 32 v }
  | _ => if bit v 0 then put { e with masked := true } else s.unmask h n

/-- A word of the port page (R479-R481). -/
def State.writePort (s : State) (host : Fin 16) (off v : Nat) : State :=
  if isRl off then s.rlWrite host.val off
  else match off with
  | 0x040 => if bit v 31 then { s with hearth := { s.hearth with rlSeen := false } } else s
  | 0x408 => nextOr s (execLease host (BitVec.ofNat 32 v) s)
  | 0x40C => nextOr s (execSlowReadNs host (BitVec.ofNat 32 v) s)
  | _ => s

/-- A word of the group window (R488). -/
def Suite.writeWindow (x : Suite) (i v : Nat) : Suite :=
  { x with groupWindow := x.window.take i ++ toLe 4 v ++ x.window.drop (i + 4) }

/-- GROUP_CMD (R485, R488). -/
def State.groupCmd (s : State) (host : Fin 16) (i v : Nat) : State :=
  match bits v 13 12 with
  | 1 => nextOr s (execGroupCommit host (BitVec.ofNat 12 v) s)
  | 2 => nextOr s (execGroupInvalidate host (BitVec.ofNat 12 v) s)
  | _ => s.drop i

/-- SUITE_CMD: values other than reset and power down are dropped and counted (R485). -/
def State.suiteCmdWord (s : State) (host : Fin 16) (i v : Nat) : State :=
  match v with
  | 1 => nextOr s (execSuiteReset host s)
  | 2 => nextOr s (execSuitePowerDown host s)
  | _ => s.drop i

/-- A word of the owner page (R485-R492). -/
def State.writeOwner (s : State) (host : Fin 16) (i off v : Nat) : State :=
  let w := BitVec.ofNat 32 v
  let echo (f : Echo → Echo) : State := s.modSuite i (fun x => { x with echo := f x.echo })
  if 0x200 ≤ off ∧ off < 0x400 then s.modSuite i (fun x => x.writeWindow (off - 0x200) v)
  else if 0x800 ≤ off ∧ off < 0x1000 then
    if off % 8 = 0 then nextOr s (execQuotaWrite host (BitVec.ofNat 8 ((off - 0x800) / 8)) w s) else s
  else match off with
  | 0x0004 => s.suiteCmdWord host i v
  | 0x0020 => s.groupCmd host i v
  | 0x0028 => nextOr s (execGroupRead host w s)
  | 0x0048 => nextOr s (execBellDebugClear host s)
  | 0x00A4 => nextOr s (execStallClear host s)
  | 0x00C0 => echo (fun e => { e with ctx := bits v 7 0, fig := bits v 31 8 })
  | 0x00C4 => echo (fun e => { e with pass := w })
  | 0x00C8 => echo (fun e => { e with id := BitVec.ofNat 16 v, wasOrdered := bit v 16 })
  | 0x00CC => echo (fun e => { e with digestLow := w })
  | 0x00D0 => nextOr s (execEchoGo host s)
  | 0x0110 => nextOr s (execRecordSeq host w s)
  | _ => s

/-- A register of the next START is written; during Clearing the write is dropped and counted (R147, R154, R494). -/
def State.writeCard (s : State) (i c : Nat) (f : CardRegs → CardRegs) : State :=
  if (s.ctx c).state == .clearing then s.drop i else s.modCtx c (fun x => { x with regs := f x.regs })

/-- A word of a context page (R494). -/
def State.writeCtx (s : State) (host : Fin 16) (i : Nat) (c : Fin 256) (off v : Nat) : State :=
  match off with
  | 0x000 => nextOr s (execStart host c s)
  | 0x004 => nextOr s (execStop host c s)
  | 0x008 => nextOr s (execAbort host c s)
  | 0x00C => nextOr s (execBell host c (BitVec.ofNat 32 v) s)
  | 0x010 => nextOr s (execRingHead host c (BitVec.ofNat 32 v) s)
  | 0x014 => nextOr s (execHistClear host c s)
  | 0x028 => s.writeCard i c (fun r => { r with loc := BitVec.ofNat 16 v })
  | 0x02C => s.writeCard i c (fun r => { r with len := bits v 24 0 })
  | 0x030 => s.writeCard i c (fun r => { r with startIdx := bits v 23 0 })
  | 0x040 => s.writeCard i c (fun r => { r with ringSize := bits v 4 0 })
  | _ => s

/-- A 32-bit register is written. -/
def State.writeWord (s : State) (host : Fin 16) (off v : Nat) : State :=
  match s.pageOf host.val off with
  | .none => s
  | .port => s.writePort host off v
  | .msix => s.writeMsix host.val off v
  | .owner i => s.writeOwner host i (off - 0x10000) v
  | .ctx i c => s.writeCtx host i (Fin.ofNat 256 c) (off % 0x1000) v

/-- A 64-bit register is written whole (R10, R477). -/
def State.writeWide (s : State) (host : Fin 16) (off : Nat) (v : Word64) : State :=
  match s.pageOf host.val off with
  | .owner _ => (match off - 0x10000 with
    | 0x0010 => nextOr s (execAssign host v s)
    | 0x0030 => (match bits v.toNat 1 0 with
      | 1 => nextOr s (execBellBlockAllocate host (BitVec.ofNat 8 (bits v.toNat 15 8)) s)
      | 2 => nextOr s (execBellBlockFree host (BitVec.ofNat 32 (bits v.toNat 63 32)) s)
      | _ => s)
    | 0x0040 => nextOr s (execBellDebugSel host v s)
    | _ => s)
  | .ctx i c => (match off % 0x1000 with
    | 0x020 => s.writeCard i c (fun r => { r with base := v })
    | 0x038 => s.writeCard i c (fun r => { r with ringBase := v })
    | 0x050 => nextOr s (execTranslation host (Fin.ofNat 256 c) v s)
    | _ => s)
  | _ => s

/-- The low half that the port last wrote to the register; with none written since reset, the register's own (R10, R477). DESIGN CHOICE
(entry 5): the latch is not cleared when a pair has acted, nor by a 64-bit write, so that a lone high half takes the older low half. -/
def HostPort.lowHalf (x : HostPort) (r : Reg) : Nat :=
  match FMap.find x.writeLatch r.off with
  | some w => w.toNat
  | none => r.val % 2 ^ 32

/-- The context page at an offset is that of a context in Clearing, which drops writes (R147). -/
def State.clearingPage (s : State) (h off : Nat) : Option Nat :=
  match s.pageOf h off with
  | .ctx i c => if (s.ctx c).state = .clearing then some i else none
  | _ => none

/-- A 32-bit write: a low half is kept for the port, and a high half acts (R10, R477); a low half written during Clearing is dropped and
counted (R147). -/
def State.writeHalf (s : State) (host : Fin 16) (off v : Nat) : State :=
  match s.reg host.val off with
  | none => s.bar0Refused host.val false
  | some r =>
    if !r.wide then s.writeWord host off v
    else if r.off = off then match s.clearingPage host.val off with
      | some i => s.drop i
      | none => s.modHost host.val (fun x => { x with writeLatch := FMap.put x.writeLatch off (BitVec.ofNat 32 v) })
    else s.writeWide host r.off (BitVec.ofNat 64 (v * 2 ^ 32 + (s.host host.val).lowHalf r))

/-- A 64-bit write: one register, or two (R476). -/
def State.writeBoth (s : State) (host : Fin 16) (off : Nat) (v : Word64) : State :=
  match s.reg host.val off with
  | some ⟨_, true, _⟩ => s.writeWide host off v
  | _ => (s.writeHalf host off (v.toNat % 2 ^ 32)).writeHalf host (off + 4) (v.toNat / 2 ^ 32)

/-- REGISTER_WRITE of 4 bytes, or of 8 where `wide` (R7, R8, R10, R11, R476, R477). -/
def execRegisterWrite (host : Fin 16) (offset : Nat) (value : Word64) (wide : Bool) (s : State) : Out := s.hostIn host.val (.registerWrite host offset value wide) fun s =>
  let h := host.val
  .next (s.bar0 h false (fun s =>
    if !s.accepted h offset (if wide then 8 else 4) then s.bar0Refused h false
    else if s.pageResets h offset then s.bar0Reset h false
    else if wide then s.writeBoth host offset value else s.writeHalf host offset (value.toNat % 2 ^ 32)))

end Sys2Proof.Machine
end

