-- ==== Sys2Proof/Machine/Wake.lean ====
section
/-! DEFINITION. The end of a Doze wake (R44, R46): the traffic that has waited in its receiving queues is taken in the order in which it came. -/

namespace Sys2Proof.Machine

/-- What a unit of traffic that has waited does, once the engine is Active (R46). -/
def State.arrived (s : State) (i : Instr) : State :=
  stateAfter s (match i with
    | .bar0UnsupportedAccess host write offset size atomic => execBar0UnsupportedAccess host write offset size atomic s
    | .registerWrite host offset value wide => execRegisterWrite host offset value wide s
    | .rlFieldWrite host offset => execRlFieldWrite host offset s
    | .lease host value => execLease host value s
    | .slowReadNs host value => execSlowReadNs host value s
    | .start host ctx => execStart host ctx s
    | .stop host ctx => execStop host ctx s
    | .abort host ctx => execAbort host ctx s
    | .bell host ctx value => execBell host ctx value s
    | .ringHead host ctx value => execRingHead host ctx value s
    | .histClear host ctx => execHistClear host ctx s
    | .translation host ctx value => execTranslation host ctx value s
    | .assign host value => execAssign host value s
    | .suiteReset host => execSuiteReset host s
    | .suitePowerDown host => execSuitePowerDown host s
    | .groupCommit host group => execGroupCommit host group s
    | .groupInvalidate host group => execGroupInvalidate host group s
    | .groupRead host value => execGroupRead host value s
    | .bellBlockAllocate host tenant => execBellBlockAllocate host tenant s
    | .bellBlockFree host offset => execBellBlockFree host offset s
    | .bellDebugSel host value => execBellDebugSel host value s
    | .bellDebugClear host => execBellDebugClear host s
    | .stallClear host => execStallClear host s
    | .quotaWrite host tenant value => execQuotaWrite host tenant value s
    | .recordSeq host value => execRecordSeq host value s
    | .echoGo host => execEchoGo host s
    | .lowHalfRead host offset => execLowHalfRead host offset s
    | .configRequest host req => execConfigRequest host req s
    | .msixUnmask host vector => execMsixUnmask host vector s
    | .cxlMemRead host addr ecc => execCxlMemRead host addr ecc s
    | .cxlMemWrite host addr data enables ecc => execCxlMemWrite host addr data enables ecc s
    | .bar2Access host addr len write atomic ecc => execBar2Access host addr len write atomic ecc s
    | .getDynamicCapacityConfiguration host => execGetDynamicCapacityConfiguration host s
    | .getDynamicCapacityExtentList host => execGetDynamicCapacityExtentList host s
    | .addDynamicCapacityResponse host slots => execAddDynamicCapacityResponse host slots s
    | .releaseDynamicCapacity host slots => execReleaseDynamicCapacity host slots s
    | .atsInvalidation host iova len => execAtsInvalidation host iova len s
    | .hostSessionEstablished host identity => execHostSessionEstablished host identity s
    | .packetReceived port header body src dst => execPacketReceived port header body src dst s
    | .sealReceived port sealFlit aux => execSealReceived port sealFlit aux s
    | .retractMarker port flit => execRetractMarker port flit s
    | .chunkAck port flit => execChunkAck port flit s
    | .resendRequest port flit => execResendRequest port flit s
    | .remoteBellRing port flit => execRemoteBellRing port flit s
    | .barrierArrival port flit => execBarrierArrival port flit s
    | .barrierRelease port flit => execBarrierRelease port flit s
    | .peerAbort port flit => execPeerAbort port flit s
    | .censusQuery port flit => execCensusQuery port flit s
    | .censusSeen port flit => execCensusSeen port flit s
    | .censusConcurrent port flit => execCensusConcurrent port flit s
    | .censusSubtreeReply port flits => execCensusSubtreeReply port flits s
    | .censusCommitMessage port flit => execCensusCommitMessage port flit s
    | .censusCommitDone port flit => execCensusCommitDone port flit s
    | _ => .next s)

/-- DOZE_WAKE_COMPLETE: the wake ends, slots 5 and 6 are required again from the next full period, and what has waited is taken (R44, R46,
R52). -/
def execDozeWakeComplete (s : State) : Out :=
  if s.hearth.power == .dozeWaking then
    .next (overList State.arrived s.arrivals { s with hearth := { s.hearth with power := .active, exempt56 := true }, arrivals := [] })
  else .next s

end Sys2Proof.Machine
end

