-- ==== Sys2Proof/Machine/Dispatch.lean ====
section
/-! DEFINITION. The dispatch: one arm for each constructor of `Instr`, each a direct call of its meaning. -/

namespace Sys2Proof.Machine

def exec (i : Instr) (s : State) : Host.Outcome State Fault Refusal :=
  match i with
  | .prsntNMate => Sys2Proof.Machine.execPrsntNMate s
  | .prsntDebounceComplete => Sys2Proof.Machine.execPrsntDebounceComplete s
  | .bulkChargeComplete => Sys2Proof.Machine.execBulkChargeComplete s
  | .powerOnReset => Sys2Proof.Machine.execPowerOnReset s
  | .prsntNBreak => Sys2Proof.Machine.execPrsntNBreak s
  | .inputVoltageFault mv => Sys2Proof.Machine.execInputVoltageFault mv s
  | .refclkLoss => Sys2Proof.Machine.execRefclkLoss s
  | .refclkRestored => Sys2Proof.Machine.execRefclkRestored s
  | .resetEnd slotId roomId => Sys2Proof.Machine.execResetEnd slotId roomId s
  | .imageLoadComplete flashMiB readOk => Sys2Proof.Machine.execImageLoadComplete flashMiB readOk s
  | .lockingComplete => Sys2Proof.Machine.execLockingComplete s
  | .scrubComplete bad => Sys2Proof.Machine.execScrubComplete bad s
  | .trainingPhaseEnd => Sys2Proof.Machine.execTrainingPhaseEnd s
  | .syncingComplete port count => Sys2Proof.Machine.execSyncingComplete port count s
  | .counterMasterTimeout => Sys2Proof.Machine.execCounterMasterTimeout s
  | .watchdogCheckIn slot key => Sys2Proof.Machine.execWatchdogCheckIn slot key s
  | .watchdogPeriodEnd => Sys2Proof.Machine.execWatchdogPeriodEnd s
  | .haltInputChange channelB asserted samples => Sys2Proof.Machine.execHaltInputChange channelB asserted samples s
  | .haltDiscrepancyExpiry => Sys2Proof.Machine.execHaltDiscrepancyExpiry s
  | .haltGraceExpiry => Sys2Proof.Machine.execHaltGraceExpiry s
  | .resumeComplete => Sys2Proof.Machine.execResumeComplete s
  | .temperatureUpdate sensors coreMv => Sys2Proof.Machine.execTemperatureUpdate sensors coreMv s
  | .throttleStepDown => Sys2Proof.Machine.execThrottleStepDown s
  | .throttleStepUp => Sys2Proof.Machine.execThrottleStepUp s
  | .thermalHalt => Sys2Proof.Machine.execThermalHalt s
  | .tapInstruction op => Sys2Proof.Machine.execTapInstruction op s
  | .tapHaltInstruction op => Sys2Proof.Machine.execTapHaltInstruction op s
  | .dozeEntry => Sys2Proof.Machine.execDozeEntry s
  | .dozeWakeComplete => Sys2Proof.Machine.execDozeWakeComplete s
  | .waitCountWake => Sys2Proof.Machine.execWaitCountWake s
  | .bankedEntryComplete => Sys2Proof.Machine.execBankedEntryComplete s
  | .syncExchangeTimer => Sys2Proof.Machine.execSyncExchangeTimer s
  | .syncExchange port flit => Sys2Proof.Machine.execSyncExchange port flit s
  | .epochPulse => Sys2Proof.Machine.execEpochPulse s
  | .syncInEpochEdge => Sys2Proof.Machine.execSyncInEpochEdge s
  | .syncInWireEdge => Sys2Proof.Machine.execSyncInWireEdge s
  | .wireBarrierComplete => Sys2Proof.Machine.execWireBarrierComplete s
  | .figureFetch ctx res => Sys2Proof.Machine.execFigureFetch ctx res s
  | .nop ctx => Sys2Proof.Machine.execNop ctx s
  | .endCard ctx => Sys2Proof.Machine.execEndCard ctx s
  | .loop ctx => Sys2Proof.Machine.execLoop ctx s
  | .mark ctx => Sys2Proof.Machine.execMark ctx s
  | .move ctx => Sys2Proof.Machine.execMove ctx s
  | .moveComplete ctx idx => Sys2Proof.Machine.execMoveComplete ctx idx s
  | .allreduce ctx block => Sys2Proof.Machine.execAllreduce ctx block s
  | .reduceScatter ctx block => Sys2Proof.Machine.execReduceScatter ctx block s
  | .allgather ctx block => Sys2Proof.Machine.execAllgather ctx block s
  | .broadcast ctx block => Sys2Proof.Machine.execBroadcast ctx block s
  | .reduce ctx block => Sys2Proof.Machine.execReduce ctx block s
  | .alltoall ctx block => Sys2Proof.Machine.execAlltoall ctx block s
  | .alltoallv ctx block counts => Sys2Proof.Machine.execAlltoallv ctx block counts s
  | .badOpcode ctx => Sys2Proof.Machine.execBadOpcode ctx s
  | .stagingReservationGranted => Sys2Proof.Machine.execStagingReservationGranted s
  | .collectiveComplete ctx idx treeDigest => Sys2Proof.Machine.execCollectiveComplete ctx idx treeDigest s
  | .bellWait ctx => Sys2Proof.Machine.execBellWait ctx s
  | .bellRingSet ctx => Sys2Proof.Machine.execBellRingSet ctx s
  | .bellRingAdd ctx => Sys2Proof.Machine.execBellRingAdd ctx s
  | .bellRingTake ctx => Sys2Proof.Machine.execBellRingTake ctx s
  | .bellTimeout ctx => Sys2Proof.Machine.execBellTimeout ctx s
  | .barrier ctx => Sys2Proof.Machine.execBarrier ctx s
  | .barrierTargetReached ctx => Sys2Proof.Machine.execBarrierTargetReached ctx s
  | .barrierTimeout ctx => Sys2Proof.Machine.execBarrierTimeout ctx s
  | .waitCount ctx => Sys2Proof.Machine.execWaitCount ctx s
  | .waitCountTarget ctx => Sys2Proof.Machine.execWaitCountTarget ctx s
  | .fence ctx => Sys2Proof.Machine.execFence ctx s
  | .chunkSend n => Sys2Proof.Machine.execChunkSend n s
  | .packetReceived port header body src dst => Sys2Proof.Machine.execPacketReceived port header body src dst s
  | .sealReceived port sealFlit aux => Sys2Proof.Machine.execSealReceived port sealFlit aux s
  | .retractMarker port flit => Sys2Proof.Machine.execRetractMarker port flit s
  | .chunkAck port flit => Sys2Proof.Machine.execChunkAck port flit s
  | .resendRequest port flit => Sys2Proof.Machine.execResendRequest port flit s
  | .ackTimeout n => Sys2Proof.Machine.execAckTimeout n s
  | .remoteBellRing port flit => Sys2Proof.Machine.execRemoteBellRing port flit s
  | .remoteRingMarksMet n => Sys2Proof.Machine.execRemoteRingMarksMet n s
  | .barrierArrival port flit => Sys2Proof.Machine.execBarrierArrival port flit s
  | .barrierRelease port flit => Sys2Proof.Machine.execBarrierRelease port flit s
  | .peerAbort port flit => Sys2Proof.Machine.execPeerAbort port flit s
  | .frameReceived port frame fecOk corrected => Sys2Proof.Machine.execFrameReceived port frame fecOk corrected s
  | .replayTimeout port => Sys2Proof.Machine.execReplayTimeout port s
  | .linkFailureDetected port => Sys2Proof.Machine.execLinkFailureDetected port s
  | .portRetryTimer port => Sys2Proof.Machine.execPortRetryTimer port s
  | .trainingPatternDetected port => Sys2Proof.Machine.execTrainingPatternDetected port s
  | .trainingComplete port res => Sys2Proof.Machine.execTrainingComplete port res s
  | .recalibrationDue port => Sys2Proof.Machine.execRecalibrationDue port s
  | .recalibrationForced port => Sys2Proof.Machine.execRecalibrationForced port s
  | .pllSettled port => Sys2Proof.Machine.execPllSettled port s
  | .pllSettleTimeout port => Sys2Proof.Machine.execPllSettleTimeout port s
  | .resyncTimeout port => Sys2Proof.Machine.execResyncTimeout port s
  | .censusQuery port flit => Sys2Proof.Machine.execCensusQuery port flit s
  | .censusSeen port flit => Sys2Proof.Machine.execCensusSeen port flit s
  | .censusConcurrent port flit => Sys2Proof.Machine.execCensusConcurrent port flit s
  | .censusSubtreeReply port flits => Sys2Proof.Machine.execCensusSubtreeReply port flits s
  | .censusReplyTimeout => Sys2Proof.Machine.execCensusReplyTimeout s
  | .censusCommitMessage port flit => Sys2Proof.Machine.execCensusCommitMessage port flit s
  | .censusCommitDone port flit => Sys2Proof.Machine.execCensusCommitDone port flit s
  | .hostLinkUp host rate width => Sys2Proof.Machine.execHostLinkUp host rate width s
  | .hostLinkDown host => Sys2Proof.Machine.execHostLinkDown host s
  | .hostWidthChange host width => Sys2Proof.Machine.execHostWidthChange host width s
  | .configRequest host req => Sys2Proof.Machine.execConfigRequest host req s
  | .hostSessionEstablished host identity => Sys2Proof.Machine.execHostSessionEstablished host identity s
  | .dmaReadCompletion host tag res => Sys2Proof.Machine.execDmaReadCompletion host tag res s
  | .dmaCompletionTimeout host tag => Sys2Proof.Machine.execDmaCompletionTimeout host tag s
  | .readTagLeak host tag => Sys2Proof.Machine.execReadTagLeak host tag s
  | .porchSweep => Sys2Proof.Machine.execPorchSweep s
  | .hostStall host => Sys2Proof.Machine.execHostStall host s
  | .atsInvalidation host iova len => Sys2Proof.Machine.execAtsInvalidation host iova len s
  | .msixUnmask host vector => Sys2Proof.Machine.execMsixUnmask host vector s
  | .cxlMemRead host addr ecc => Sys2Proof.Machine.execCxlMemRead host addr ecc s
  | .cxlMemWrite host addr data enables ecc => Sys2Proof.Machine.execCxlMemWrite host addr data enables ecc s
  | .bar2Access host addr len write atomic ecc => Sys2Proof.Machine.execBar2Access host addr len write atomic ecc s
  | .tokenAvailable host => Sys2Proof.Machine.execTokenAvailable host s
  | .getDynamicCapacityConfiguration host => Sys2Proof.Machine.execGetDynamicCapacityConfiguration host s
  | .getDynamicCapacityExtentList host => Sys2Proof.Machine.execGetDynamicCapacityExtentList host s
  | .addDynamicCapacityResponse host slots => Sys2Proof.Machine.execAddDynamicCapacityResponse host slots s
  | .releaseDynamicCapacity host slots => Sys2Proof.Machine.execReleaseDynamicCapacity host slots s
  | .bar0UnsupportedAccess host write offset size atomic => Sys2Proof.Machine.execBar0UnsupportedAccess host write offset size atomic s
  | .registerWrite host offset value wide => Sys2Proof.Machine.execRegisterWrite host offset value wide s
  | .rlFieldWrite host offset => Sys2Proof.Machine.execRlFieldWrite host offset s
  | .lease host value => Sys2Proof.Machine.execLease host value s
  | .slowReadNs host value => Sys2Proof.Machine.execSlowReadNs host value s
  | .start host ctx => Sys2Proof.Machine.execStart host ctx s
  | .stop host ctx => Sys2Proof.Machine.execStop host ctx s
  | .abort host ctx => Sys2Proof.Machine.execAbort host ctx s
  | .bell host ctx value => Sys2Proof.Machine.execBell host ctx value s
  | .ringHead host ctx value => Sys2Proof.Machine.execRingHead host ctx value s
  | .histClear host ctx => Sys2Proof.Machine.execHistClear host ctx s
  | .translation host ctx value => Sys2Proof.Machine.execTranslation host ctx value s
  | .assign host value => Sys2Proof.Machine.execAssign host value s
  | .clearingComplete ctx => Sys2Proof.Machine.execClearingComplete ctx s
  | .stallDetected suite => Sys2Proof.Machine.execStallDetected suite s
  | .suiteReset host => Sys2Proof.Machine.execSuiteReset host s
  | .suitePowerDown host => Sys2Proof.Machine.execSuitePowerDown host s
  | .groupCommit host group => Sys2Proof.Machine.execGroupCommit host group s
  | .groupInvalidate host group => Sys2Proof.Machine.execGroupInvalidate host group s
  | .stagedCommitApplied group => Sys2Proof.Machine.execStagedCommitApplied group s
  | .groupRead host value => Sys2Proof.Machine.execGroupRead host value s
  | .bellBlockAllocate host tenant => Sys2Proof.Machine.execBellBlockAllocate host tenant s
  | .bellBlockFree host offset => Sys2Proof.Machine.execBellBlockFree host offset s
  | .bellDebugSel host value => Sys2Proof.Machine.execBellDebugSel host value s
  | .bellDebugClear host => Sys2Proof.Machine.execBellDebugClear host s
  | .stallClear host => Sys2Proof.Machine.execStallClear host s
  | .quotaWrite host tenant value => Sys2Proof.Machine.execQuotaWrite host tenant value s
  | .recordSeq host value => Sys2Proof.Machine.execRecordSeq host value s
  | .echoGo host => Sys2Proof.Machine.execEchoGo host s
  | .echoPeerTimeout suite => Sys2Proof.Machine.execEchoPeerTimeout suite s
  | .echoComplete suite res => Sys2Proof.Machine.execEchoComplete suite res s
  | .leaseTick => Sys2Proof.Machine.execLeaseTick s
  | .leaseExpiry region number => Sys2Proof.Machine.execLeaseExpiry region number s
  | .scrubBatchComplete bad => Sys2Proof.Machine.execScrubBatchComplete bad s
  | .groupRetentionTimeout extent => Sys2Proof.Machine.execGroupRetentionTimeout extent s
  | .groupWakeComplete extent => Sys2Proof.Machine.execGroupWakeComplete extent s
  | .patrolRow lane errors => Sys2Proof.Machine.execPatrolRow lane errors s
  | .patrolCatchUp => Sys2Proof.Machine.execPatrolCatchUp s
  | .arrayPatrol finding => Sys2Proof.Machine.execArrayPatrol finding s
  | .faultRecordAtticWrite => Sys2Proof.Machine.execFaultRecordAtticWrite s
  | .smbusArbitrationLost => Sys2Proof.Machine.execSmbusArbitrationLost s
  | .smbusSclTimeout => Sys2Proof.Machine.execSmbusSclTimeout s
  | .setEndpointId eid => Sys2Proof.Machine.execSetEndpointId eid s
  | .getEndpointId => Sys2Proof.Machine.execGetEndpointId s
  | .getMctpVersionSupport => Sys2Proof.Machine.execGetMctpVersionSupport s
  | .getMessageTypeSupport => Sys2Proof.Machine.execGetMessageTypeSupport s
  | .getMeasurements sess index => Sys2Proof.Machine.execGetMeasurements sess index s
  | .getCertificate slot => Sys2Proof.Machine.execGetCertificate slot s
  | .challenge slot nonce => Sys2Proof.Machine.execChallenge slot nonce s
  | .keyExchange req => Sys2Proof.Machine.execKeyExchange req s
  | .heartbeat sess => Sys2Proof.Machine.execHeartbeat sess s
  | .spdmSessionTimeout sess => Sys2Proof.Machine.execSpdmSessionTimeout sess s
  | .getStatus sess tag payload => Sys2Proof.Machine.execGetStatus sess tag payload s
  | .readRecords sess tag payload => Sys2Proof.Machine.execReadRecords sess tag payload s
  | .imageWrite sess tag payload => Sys2Proof.Machine.execImageWrite sess tag payload s
  | .warmReset sess tag payload => Sys2Proof.Machine.execWarmReset sess tag payload s
  | .liveRestart sess tag payload => Sys2Proof.Machine.execLiveRestart sess tag payload s
  | .liveRestartComplete flashMiB readOk => Sys2Proof.Machine.execLiveRestartComplete flashMiB readOk s
  | .fuseRaiseMinVersion sess tag payload => Sys2Proof.Machine.execFuseRaiseMinVersion sess tag payload s
  | .fuseRevokeKey sess tag payload => Sys2Proof.Machine.execFuseRevokeKey sess tag payload s
  | .setWallclock sess tag payload => Sys2Proof.Machine.execSetWallclock sess tag payload s
  | .powerBank sess tag payload => Sys2Proof.Machine.execPowerBank sess tag payload s
  | .powerUnbank sess tag payload => Sys2Proof.Machine.execPowerUnbank sess tag payload s
  | .powerHoldOn sess tag payload => Sys2Proof.Machine.execPowerHoldOn sess tag payload s
  | .powerHoldOff sess tag payload => Sys2Proof.Machine.execPowerHoldOff sess tag payload s
  | .grant sess tag payload => Sys2Proof.Machine.execGrant sess tag payload s
  | .release sess tag payload => Sys2Proof.Machine.execRelease sess tag payload s
  | .map sess tag payload => Sys2Proof.Machine.execMap sess tag payload s
  | .unmap sess tag payload => Sys2Proof.Machine.execUnmap sess tag payload s
  | .renew sess tag payload => Sys2Proof.Machine.execRenew sess tag payload s
  | .readExtent sess tag payload => Sys2Proof.Machine.execReadExtent sess tag payload s
  | .regionCreate sess tag payload => Sys2Proof.Machine.execRegionCreate sess tag payload s
  | .regionRights sess tag payload => Sys2Proof.Machine.execRegionRights sess tag payload s
  | .regionDelete sess tag payload => Sys2Proof.Machine.execRegionDelete sess tag payload s
  | .keyLoad sess tag payload => Sys2Proof.Machine.execKeyLoad sess tag payload s
  | .keyErase sess tag payload => Sys2Proof.Machine.execKeyErase sess tag payload s
  | .tokenBucket sess tag payload => Sys2Proof.Machine.execTokenBucket sess tag payload s
  | .suiteWeight sess tag payload => Sys2Proof.Machine.execSuiteWeight sess tag payload s
  | .serviceReset sess tag payload => Sys2Proof.Machine.execServiceReset sess tag payload s
  | .servicePowerDown sess tag payload => Sys2Proof.Machine.execServicePowerDown sess tag payload s
  | .serviceEnable sess tag payload => Sys2Proof.Machine.execServiceEnable sess tag payload s
  | .serviceHoldDown sess tag payload => Sys2Proof.Machine.execServiceHoldDown sess tag payload s
  | .serviceRelease sess tag payload => Sys2Proof.Machine.execServiceRelease sess tag payload s
  | .serviceRetrain sess tag payload => Sys2Proof.Machine.execServiceRetrain sess tag payload s
  | .serviceDrainComplete unitClass unitIndex => Sys2Proof.Machine.execServiceDrainComplete unitClass unitIndex s
  | .serviceResetComplete unitClass unitIndex => Sys2Proof.Machine.execServiceResetComplete unitClass unitIndex s
  | .abortContexts sess tag payload => Sys2Proof.Machine.execAbortContexts sess tag payload s
  | .clearCounters sess tag payload => Sys2Proof.Machine.execClearCounters sess tag payload s
  | .scan sess tag payload => Sys2Proof.Machine.execScan sess tag payload s
  | .scanComplete unitClass unitIndex pass => Sys2Proof.Machine.execScanComplete unitClass unitIndex pass s
  | .packPush sess tag payload => Sys2Proof.Machine.execPackPush sess tag payload s
  | .resume sess tag payload => Sys2Proof.Machine.execResume sess tag payload s
  | .censusStart sess tag payload => Sys2Proof.Machine.execCensusStart sess tag payload s
  | .censusRead sess tag payload => Sys2Proof.Machine.execCensusRead sess tag payload s
  | .censusCommit sess tag payload => Sys2Proof.Machine.execCensusCommit sess tag payload s
  | .postedCreditReturn host flits => Sys2Proof.Machine.execPostedCreditReturn host flits s
  | .loadIndexUpdate => Sys2Proof.Machine.execLoadIndexUpdate s
  | .smbusRetry => Sys2Proof.Machine.execSmbusRetry s
  | .flashWriteComplete => Sys2Proof.Machine.execFlashWriteComplete s
  | .inputVoltageReturn mv => Sys2Proof.Machine.execInputVoltageReturn mv s
  | .tapReset => Sys2Proof.Machine.execTapReset s
  | .lowHalfRead host offset => Sys2Proof.Machine.execLowHalfRead host offset s
  | .noEnd ctx => Sys2Proof.Machine.execNoEnd ctx s
  | .cardFetchError ctx => Sys2Proof.Machine.execCardFetchError ctx s
  | .atsTranslationCompletion host iova res => Sys2Proof.Machine.execAtsTranslationCompletion host iova res s
  | .badCommand sess tag code len => Sys2Proof.Machine.execBadCommand sess tag code len s

end Sys2Proof.Machine
end

