-- ==== Sys2Proof/Safety.lean ====
section
/-! DEFINITION. The terms in which the claims speak: when a command reaches its target, what a command of management has answered, how a
Figure issues, waits and stops. -/

namespace Sys2Proof.Machine

/-- The host port on which a command is traffic: requests of the host, its register accesses, its sessions and invalidations (R44, R46). -/
def trafficHost (i : Instr) : Option (Fin 16) :=
  match i with
  | .bar0UnsupportedAccess h _ _ _ _ => some h
  | .registerWrite h _ _ _ => some h
  | .rlFieldWrite h _ => some h
  | .lease h _ => some h
  | .slowReadNs h _ => some h
  | .start h _ => some h
  | .stop h _ => some h
  | .abort h _ => some h
  | .bell h _ _ => some h
  | .ringHead h _ _ => some h
  | .histClear h _ => some h
  | .translation h _ _ => some h
  | .assign h _ => some h
  | .suiteReset h => some h
  | .suitePowerDown h => some h
  | .groupCommit h _ => some h
  | .groupInvalidate h _ => some h
  | .groupRead h _ => some h
  | .bellBlockAllocate h _ => some h
  | .bellBlockFree h _ => some h
  | .bellDebugSel h _ => some h
  | .bellDebugClear h => some h
  | .stallClear h => some h
  | .quotaWrite h _ _ => some h
  | .recordSeq h _ => some h
  | .echoGo h => some h
  | .lowHalfRead h _ => some h
  | .configRequest h _ => some h
  | .msixUnmask h _ => some h
  | .cxlMemRead h _ _ => some h
  | .cxlMemWrite h _ _ _ _ => some h
  | .bar2Access h _ _ _ _ _ => some h
  | .getDynamicCapacityConfiguration h => some h
  | .getDynamicCapacityExtentList h => some h
  | .addDynamicCapacityResponse h _ => some h
  | .releaseDynamicCapacity h _ => some h
  | .atsInvalidation h _ _ => some h
  | .hostSessionEstablished h _ => some h
  | _ => none

/-- The fabric port on which a command is traffic: every flit but a hall-counter sync exchange (R43, R44, R46). -/
def trafficPort (i : Instr) : Option (Fin 36) :=
  match i with
  | .packetReceived p _ _ _ _ => some p
  | .sealReceived p _ _ => some p
  | .retractMarker p _ => some p
  | .chunkAck p _ => some p
  | .resendRequest p _ => some p
  | .remoteBellRing p _ => some p
  | .barrierArrival p _ => some p
  | .barrierRelease p _ => some p
  | .peerAbort p _ => some p
  | .censusQuery p _ => some p
  | .censusSeen p _ => some p
  | .censusConcurrent p _ => some p
  | .censusSubtreeReply p _ => some p
  | .censusCommitMessage p _ => some p
  | .censusCommitDone p _ => some p
  | _ => none

/-- A host's write to context page `c` reaches it (R138, R151, R467): the port decodes it and is not being serviced, the port and the
context lie in one enabled Suite `i`, that Suite is not Resetting, and the engine is not in Doze, where the write waits (R46). -/
def CtxPageOpen (s : State) (h c i : Nat) : Prop :=
  s.asleep = false ∧ (s.host h).blocked = false ∧ s.decodes h = true ∧ s.suiteOfCtx c = some i ∧ s.hostSuite h = some i ∧ (s.suite i).state ≠ .resetting

/-- A host's write to the owner page of Suite `i` reaches it (R46, R139, R467). -/
def OwnerPageOpen (s : State) (h i : Nat) : Prop :=
  s.asleep = false ∧ (s.host h).blocked = false ∧ s.decodes h = true ∧ s.ownedSuite h = some i ∧ (s.suite i).state ≠ .resetting

/-- No access waits at a cell group, at a Hallway input or at a Porch. -/
def CellsQuiet (s : State) : Prop := s.cellar.waiting = [] ∧ ∀ h, (s.host h).waitingReqs = [] ∧ (s.hall_ h).requests = []

/-- Window address `a` of host block `h` lies in a slot that maps the usable extent `e`, Granted to a host and Awake, of a host that is not
fenced (R334, R335, R352). -/
def WindowOpen (s : State) (h a e : Nat) : Prop :=
  FMap.find (s.host h).window (a / 0x200000) = some e ∧ e ∉ s.hearth.disabledMap ∧ (s.ext e).state = .granted ∧
  (∃ k, (s.ext e).owner = .host k) ∧ s.hostFenced h = false ∧ (s.hall_ h).requests = [] ∧ (s.host h).waitingReqs = []

/-- A management command of session `sess` that needs a Ready engine reaches its own checks (R511, R513). -/
def MgmtReady (s : State) (sess : Option Nat) : Prop := s.mgmtOn = true ∧ s.fmSession sess = true ∧ s.isReady = true

/-- The engine has answered the command of this code and tag with a status, a detail and a payload (R510). -/
def Answered (t : State) (code : Nat) (tag : BitVec 16) (status detail : Nat) (payload : List Byte) : Prop :=
  t.mgmt.response = some ⟨code, tag, status, BitVec.ofNat 32 detail, payload⟩

/-- The Figure that context `c` reaches, at index `i` with bytes `f` and opcode `op`, passes the checks of R114 that every Figure meets. -/
def Reaches (s : State) (c op i : Nat) (f : List Byte) : Prop := s.nextOp c op = some (i, f) ∧ s.issueCheck c i f = none

/-- The Figure that context `c` reached has issued, and issue goes on at `pc`. -/
def IssuedTo (s t : State) (c pc : Nat) : Prop :=
  (t.ctx c).issuedFigs = (s.ctx c).issuedFigs + 1 ∧ (t.ctx c).pc = pc

/-- It has issued and completed, with no entry and no vector, and touched no other context, no write toward a host, no port, no extent, no
record of a Bell and no byte. -/
def IssuedAndDone (s t : State) (c pc : Nat) : Prop :=
  IssuedTo s t c pc ∧ (t.ctx c).flights = [] ∧ (t.ctx c).live = true ∧ (t.ctx c).lastStatus = (s.ctx c).lastStatus ∧
  (t.ctx c).prefetch = (s.ctx c).prefetch.drop 1 ∧ c / 8 ∈ t.wd.issued ∧ (∀ d, d ≠ c → t.ctx d = s.ctx d) ∧
  (∀ h, (t.host h).path = (s.host h).path ∧ (t.host h).heldWrites = (s.host h).heldWrites ∧ (t.host h).state = (s.host h).state) ∧
  t.ports = s.ports ∧ t.cellar.mem = s.cellar.mem ∧ t.cellar.bells = s.cellar.bells ∧ t.cellar.extents = s.cellar.extents ∧ t.hall = s.hall

/-- It has issued and waits, alone in flight: nothing behind it issues (R115, R137). -/
def IssuedAndWaits (s t : State) (c i : Nat) : Prop :=
  IssuedTo s t c (i + 1) ∧ (∃ w, (t.ctx c).flights = [w] ∧ w.idx = i ∧ w.done = none ∧ w.kind.blocks = true) ∧
  (t.ctx c).state = .waiting ∧ t.canIssue c = false ∧ (∀ d, d ≠ c → t.ctx d = s.ctx d) ∧ t.hosts = s.hosts

/-- A failing status has stopped context `c`, which had nothing else in flight (R120). -/
def StoppedBy (s t : State) (c st : Nat) : Prop :=
  (t.ctx c).flights = [] ∧ (t.ctx c).lastStatus = st ∧ (t.ctx c).state = .stopped ∧ (t.ctx c).stopReason = .failed ∧
  (t.ctx c).stopIndex = (s.ctx c).pc ∧ (t.ctx c).pc = (s.ctx c).pc ∧ t.cellar.mem = s.cellar.mem

/-- Flight `f` is all that context `c` has in flight, it has not finished, and its completion would not wait for the ring. -/
def Alone (s : State) (c : Nat) (f : Flight) : Prop :=
  (s.ctx c).flights = [f] ∧ f.done = none ∧ (s.ctx c).live = true ∧ (s.ctx c).latched = none ∧ s.ringRoom c = true

/-- A chunk that no Figure here waits for, or that belongs to the one Figure its context has in flight, a collective or a MOVE. -/
def PlainOwner (s : State) (o : OutChunk) : Prop :=
  o.owner = none ∨ ∃ c w, o.owner = some (c, w.fid) ∧ (s.ctx c).flights = [w] ∧ w.done = none ∧
    ((∃ k, w.kind = .coll k) ∨ ∃ m, w.kind = .move m)

/-- An engine whose configuration is locked is past Locking (R61, R76). -/
def LockedPastLocking (s : State) : Prop :=
  s.hearth.locked = true → s.hearth.startup = .scrubbing ∨ s.hearth.startup = .training ∨ s.hearth.startup = .syncing ∨
    s.hearth.startup = .ready ∨ s.hearth.startup = .haltedAtStart

end Sys2Proof.Machine
end

