-- ==== Sys2Proof/Certificates/Slice0/Obligations.lean ====
section
/-! DEFINITION. The statements for the provers, by the chapters of the specification they come from. -/

open Sys2Proof Sys2Proof.Machine

/-- R532, R533, R529: a sled that mates with its input in range debounces, then charges, then sequences its rails; input that returns to the range
starts the path again. Each of these commands changes nothing but the sled. -/
def Obligations.PowerPathAdvances : Prop :=
  ∀ (s : State) (mv : Nat),
    (s.sled.path = .off ∨ s.sled.path = .debounce → 48000 ≤ s.sled.inputMv → s.sled.inputMv ≤ 56000 →
      exec .prsntNMate s = .next { s with sled := { s.sled with prsntLow := true, path := .debounce } }) ∧
    (s.sled.path = .debounce → s.sled.prsntLow = true → 48000 ≤ s.sled.inputMv → s.sled.inputMv ≤ 56000 →
      exec .prsntDebounceComplete s = .next { s with sled := { s.sled with path := .charging } }) ∧
    (s.sled.path = .charging → exec .bulkChargeComplete s = .next { s with sled := { s.sled with path := .sequencing } }) ∧
    (s.sled.path = .off → 48000 ≤ mv → mv ≤ 56000 → s.sled.prsntLow = true →
      exec (.inputVoltageReturn mv) s = .next { s with sled := { s.sled with inputMv := mv, path := .debounce } }) ∧
    (s.sled.path = .off → 48000 ≤ mv → mv ≤ 56000 → s.sled.prsntLow = false →
      exec (.inputVoltageReturn mv) s = .next { s with sled := { s.sled with inputMv := mv } })

/-- R58, R59, R537, R423: a power-on reset, and the loss or the return of REFCLK_25 on a powered engine, leave the engine as reset leaves it, but for
the fuses, the flash, the Attic's records, the sled and the die's temperature and voltage (and the model's own queue and free-value counter); CCLK
starts at the grade's frequency and the record sequence one above the Attic's newest. R529, R534, R535, R547, R548: unmating, an input below 44 V or
above 60 V, and a die at 115 °C turn the main path off, and nothing stays but what fuses, flash and the sled hold; an input within the limits changes
nothing, and below 115 °C the highest sensor is the die's temperature and nothing else changes. -/
def Obligations.ResetsAndPowerLoss : Prop :=
  (∀ s : State,
    let cold (x : Sled) : State := { State.reset with
      pending := s.pending, freeCtr := s.freeCtr, sled := x, fuses := s.fuses, flash := s.flash,
      log := { attic := s.log.attic, nextSeq := ((s.log.attic.getLast?).map (fun r => r.seq + 1)).getD 0 },
      thermal := { tj := s.thermal.tj, coreMv := s.thermal.coreMv, cclkMHz := 100 * s.fuses.grade } }
    ((s.sled.path = .sequencing ∨ s.sled.path = .on) → s.sled.refclk = true →
      exec .powerOnReset s = .next (cold { s.sled with path := .on })) ∧
    (s.sled.path = .on → exec .refclkLoss s = .next (cold { s.sled with refclk := false })) ∧
    (s.sled.path = .on → s.sled.refclk = false → exec .refclkRestored s = .next (cold { s.sled with refclk := true })) ∧
    (s.sled.path ≠ .on → exec .refclkLoss s = .next { s with sled := { s.sled with refclk := false } }) ∧
    (s.sled.path ≠ .on → exec .refclkRestored s = .next { s with sled := { s.sled with refclk := true } })) ∧
  (∀ s : State,
    let off (x : Sled) (tj : Int) (cv : Nat) : State := { State.reset with
      pending := s.pending, freeCtr := s.freeCtr, sled := { x with path := .off }, fuses := s.fuses, flash := s.flash,
      log := { attic := s.log.attic, nextSeq := ((s.log.attic.getLast?).map (fun r => r.seq + 1)).getD 0 },
      thermal := { tj := tj, coreMv := cv, cclkMHz := 100 * s.fuses.grade } }
    exec .prsntNBreak s = .next (off { s.sled with prsntLow := false } s.thermal.tj s.thermal.coreMv) ∧
    (∀ mv, (mv < 44000 ∨ 60000 < mv) →
      exec (.inputVoltageFault mv) s = .next (off { s.sled with inputMv := mv } s.thermal.tj s.thermal.coreMv)) ∧
    (∀ mv, 44000 ≤ mv → mv ≤ 60000 → exec (.inputVoltageFault mv) s = .next s) ∧
    (∀ (l : List Int) (cv : Nat) (tj : Int), tj ∈ l → (∀ x ∈ l, x ≤ tj) →
      exec (.temperatureUpdate l cv) s =
        .next (if 460 ≤ tj then off s.sled tj cv else { s with thermal := { s.thermal with tj := tj, coreMv := cv } })))

/-- R59: a power-on reset, and a warm reset, by management, by the watchdog or after an error in the Hearth (R416), leave no extent granted, no region, no key in any slot and no context
assigned, and the hall counter Unsynced. -/
def Obligations.ResetsLeaveNothingGranted : Prop :=
  ∀ s : State,
    let clean (t : State) : Prop := (∀ e, (t.ext e).state = .free ∧ (t.ext e).owner = .none) ∧ t.cellar.regions = [] ∧
      (∀ k, FMap.find t.cellar.keys k = none) ∧ (∀ c, (t.ctx c).state = .unassigned ∧ (t.ctx c).asg.valid = false) ∧
      t.sync.status = .unsynced ∧ t.hearth.startup = .reset
    ((s.sled.path = .sequencing ∨ s.sled.path = .on) → s.sled.refclk = true → ∃ t, exec .powerOnReset s = .next t ∧ clean t) ∧
    (∀ sess tag, s.mgmtOn = true → s.fmSession sess = true → ∃ t, exec (.warmReset sess tag []) s = .next t ∧ clean t) ∧
    (s.wdMissed ≠ 0 → 0 < s.wd.streak → ∃ t, exec .watchdogPeriodEnd s = .next t ∧ clean t) ∧
    (∃ t, exec (.arrayPatrol .hearth) s = .next t ∧ clean t)

/-- R548, R324: a die at 95 °C or above loses 100 MHz of CCLK, never below 800 MHz, and at 92 °C or below regains 100 MHz, never above its grade; CCLK
below the grade is throttled. A context with no Figure in flight is not touched by a step down. At 105 °C or above a running engine that has reached
Training starts to halt. R544, R546: the TAP takes the instruction of an opcode, every opcode outside its table as BYPASS; EXTEST, HIGHZ and CLAMP
drive the pins, and on a locked engine that runs they begin a halt; the TAP's reset leaves the engine as it is. R545: with IDCODE
selected the TAP captures the identification of the engine's stepping. That the reset selects IDCODE is the model's choice (log 25). -/
def Obligations.ThermalAndTap : Prop :=
  (∀ s : State,
    (380 ≤ s.thermal.tj → 800 < s.thermal.cclkMHz → ∃ t, exec .throttleStepDown s = .next t ∧
      t.thermal = { s.thermal with cclkMHz := max 800 (s.thermal.cclkMHz - 100),
                                   throttling := decide (max 800 (s.thermal.cclkMHz - 100) < 100 * s.fuses.grade) } ∧
      (∀ c, (s.ctx c).flights = [] → t.ctx c = s.ctx c) ∧ t.cellar = s.cellar ∧ t.hosts = s.hosts ∧ t.hearth = s.hearth) ∧
    (s.thermal.tj < 380 ∨ s.thermal.cclkMHz ≤ 800 → exec .throttleStepDown s = .next s) ∧
    (s.thermal.tj ≤ 368 → s.thermal.cclkMHz < 100 * s.fuses.grade →
      exec .throttleStepUp s = .next { s with thermal := { s.thermal with
        cclkMHz := min (100 * s.fuses.grade) (s.thermal.cclkMHz + 100),
        throttling := decide (min (100 * s.fuses.grade) (s.thermal.cclkMHz + 100) < 100 * s.fuses.grade) } }) ∧
    (368 < s.thermal.tj ∨ 100 * s.fuses.grade ≤ s.thermal.cclkMHz → exec .throttleStepUp s = .next s) ∧
    (420 ≤ s.thermal.tj → s.hearth.startup = .ready → s.halt.state = .running →
      exec .thermalHalt s = .next { s with thermal := { s.thermal with thermalHalt := true }, halt := { s.halt with state := .halting } }) ∧
    (420 ≤ s.thermal.tj → s.hearth.startup = .ready → (s.halt.state = .halting ∨ s.halt.state = .halted) →
      exec .thermalHalt s = .next { s with thermal := { s.thermal with thermalHalt := true } })) ∧
  (∀ s : State,
    (∀ op : BitVec 8, op ≠ 0x00 → op ≠ 0x08 → op ≠ 0x09 → exec (.tapInstruction op) s =
      .next { s with tap := { s.tap with instr := if op = 0x01 ∨ op = 0x02 then op else 0xFF, drivesPins := false } }) ∧
    (∀ op : BitVec 8, (op = 0x00 ∨ op = 0x08 ∨ op = 0x09) → s.hearth.locked = false →
      exec (.tapInstruction op) s = .next { s with tap := { s.tap with instr := op, drivesPins := true } } ∧
      exec (.tapHaltInstruction op) s = .next { s with tap := { s.tap with instr := op, drivesPins := true } }) ∧
    (∀ op : BitVec 8, (op = 0x00 ∨ op = 0x08 ∨ op = 0x09) → s.hearth.locked = true → s.hearth.startup = .ready →
      s.halt.state = .running →
      exec (.tapInstruction op) s =
        .next { s with tap := { s.tap with instr := op, drivesPins := true }, halt := { s.halt with state := .halting } } ∧
      exec (.tapHaltInstruction op) s =
        .next { s with tap := { s.tap with instr := op, drivesPins := true }, halt := { s.halt with state := .halting } }) ∧
    (∀ op : BitVec 8, (op = 0x00 ∨ op = 0x08 ∨ op = 0x09) → s.hearth.locked = true → (s.halt.state = .halting ∨ s.halt.state = .halted) →
      s.hearth.startup = .ready →
      exec (.tapHaltInstruction op) s = .next { s with tap := { s.tap with instr := op, drivesPins := true } }) ∧
    (∀ op : BitVec 8, op ≠ 0x00 → op ≠ 0x08 → op ≠ 0x09 → exec (.tapHaltInstruction op) s = .next s) ∧
    exec .tapReset s = .next { s with tap := { s.tap with instr := 0x01, drivesPins := false } } ∧
    (∃ t, exec .tapReset s = .next t ∧ (s.fuses.stepping = 0x0 → t.tapCapture = some 0x002569AF) ∧
      (s.fuses.stepping = 0x1 → t.tapCapture = some 0x102569AF)))

/-- R26: the end of reset samples SLOT_ID and ROOM_ID, which give the engine ID; past it no command but one that resets the engine changes what was
sampled, and the end of reset itself has no effect on an engine that is not in reset. -/
def Obligations.PinsSampledOnce : Prop :=
  (∀ (s : State) (slot : BitVec 3) (room : BitVec 5), s.hearth.startup = .reset → s.sled.path = .on → s.sled.refclk = true →
    ∃ t, exec (.resetEnd slot room) s = .next t ∧ t.hearth.slotId = slot ∧ t.hearth.roomId = room ∧
      t.engineId = room.toNat * 8 + slot.toNat) ∧
  (∀ (s : State) (slot : BitVec 3) (room : BitVec 5), s.hearth.startup ≠ .reset → exec (.resetEnd slot room) s = .next s) ∧
  (∀ (c : Instr) (s t : State), s.hearth.startup ≠ .reset → exec c s = .next t →
    (t.hearth.slotId = s.hearth.slotId ∧ t.hearth.roomId = s.hearth.roomId) ∨ t.hearth.startup = .reset)

/-- R26, R60, R61, R71, R72, R78: the end of reset samples the pins and starts Loading with image A; an image that passes every check gives its
configuration block and starts Locking; a flash that fails check 1, or image B, leaves Boot failed with ALERT_N asserted; any other failure of image A
turns to image B. R62: where the image was read at all, the boot ROM has checked slot 0 in. -/
def Obligations.ImageLoading : Prop :=
  ∀ (s : State),
    (∀ slot room, s.hearth.startup = .reset → s.sled.path = .on → s.sled.refclk = true →
      exec (.resetEnd slot room) s = .next { s with hearth := { s.hearth with
        startup := .loading, slotId := slot, roomId := room, loadingB := false, smbusOn := true, spiSelect := true } }) ∧
    (∀ mib ok, s.hearth.startup = .loading → s.imageCheck s.hearth.loadingB mib ok = none →
      ∃ t, exec (.imageLoadComplete mib ok) s = .next t ∧ t.hearth.startup = .locking ∧ t.hearth.imageB = s.hearth.loadingB ∧
        t.hearth.config = s.imgConfig s.hearth.loadingB ∧ t.hearth.imageRetire = s.imgRetire s.hearth.loadingB ∧
        t = { s with hearth := t.hearth, wd := { s.wd with checked := s.wd.checked ||| 0x01 } }) ∧
    (∀ mib ok code, s.hearth.startup = .loading → s.imageCheck s.hearth.loadingB mib ok = some code →
      (code = 1 ∨ s.hearth.loadingB = true) →
      ∃ t, exec (.imageLoadComplete mib ok) s = .next t ∧ t.hearth.startup = .bootFailed ∧ t.hearth.alert = true ∧
        t.hearth.config = s.hearth.config ∧ t.flash = s.flash ∧ t.fuses = s.fuses) ∧
    (∀ mib ok code, s.hearth.startup = .loading → s.imageCheck s.hearth.loadingB mib ok = some code → code ≠ 1 →
      s.hearth.loadingB = false →
      ∃ t, exec (.imageLoadComplete mib ok) s = .next t ∧ t.hearth.startup = .loading ∧ t.hearth.loadingB = true ∧
        t.wd.checked = (if 8 ≤ code then s.wd.checked ||| 0x01 else s.wd.checked) ∧ t.flash = s.flash ∧ t.fuses = s.fuses)

/-- R27, R74, R76, R78, R79, R80, R82, R63: an engine whose role fits its Room locks its configuration and scrubs, any other is held; the scrub leaves
every Cellar word zero, no unit written or poisoned, and starts Training, or Halted at start where a halt began. R61, R65, R66, R317: Training ends in
Syncing; the count that a neighbour offers on a port that has trained, the one of least depth and of lowest number, is taken in one step and the
engine is Ready and Synced (R316: a Synced neighbour of depth 2 or less whose source is not this engine offers one); a counter master that was offered
none starts at 0. -/
def Obligations.LockingToReady : Prop :=
  (∀ (s : State),
    (s.hearth.startup = .locking → s.hearth.roomId.toNat ≤ 17 → (s.cfg 6 1 = 1 ↔ 16 ≤ s.hearth.roomId.toNat) →
      ∃ t, exec .lockingComplete s = .next t ∧ t.hearth.startup = .scrubbing ∧ t.hearth.locked = true ∧
        t.hearth.config = s.hearth.config ∧ t.hearth.configDigest = digest8 s.hearth.config ∧ t.cellar = s.cellar ∧ t.ctxs = s.ctxs) ∧
    (s.hearth.startup = .locking → ¬ (s.hearth.roomId.toNat ≤ 17 ∧ (s.cfg 6 1 = 1 ↔ 16 ≤ s.hearth.roomId.toNat)) →
      ∃ t, exec .lockingComplete s = .next t ∧ t.hearth.startup = .held ∧ t.hearth.locked = s.hearth.locked ∧
        t.ports = s.ports ∧ t.hosts = s.hosts ∧ t.cellar = s.cellar) ∧
    (∀ bad, s.hearth.startup = .scrubbing →
      ∃ t, exec (.scrubComplete bad) s = .next t ∧
        t.hearth.startup = (if s.halt.atStart then .haltedAtStart else .training) ∧
        t.cellar.mem = [] ∧ t.cellar.written = [] ∧ t.cellar.poisoned = [] ∧ t.cellar.regions = [] ∧ t.cellar.keys = [] ∧
        t.hearth.mapDigest = digest8 (mapBytes t.hearth.disabledMap) ∧
        (∀ e ∈ s.hearth.disabledMap, e ∈ t.hearth.disabledMap) ∧
        (∀ e i, (e, i) ∈ bad → e < 800 → i < 32 → s.extUsable e = true → e ∈ t.hearth.disabledMap))) ∧
  (∀ (s : State),
    (s.hearth.startup = .training →
      ∃ t, exec .trainingPhaseEnd s = .next t ∧ t.hearth.startup = .syncing ∧ t.hall = s.hall ∧ t.cellar = s.cellar) ∧
    (∀ (p : Fin 36) (d : Nat) (n : Word64), s.hearth.startup = .syncing → s.offersCount p.val = some d →
      (∀ (q : Fin 36) (e : Nat), s.offersCount q.val = some e → d < e ∨ d = e ∧ p.val ≤ q.val) →
      ∃ t, exec (.syncingComplete p n) s = .next t ∧ t.hearth.startup = .ready ∧ t.hall = n ∧ t.hearth.readyHall = n ∧
        t.sync.status = .synced ∧ t.sync.source = (if s.master then none else some p.val) ∧
        t.sync.depth = (if s.master then 0 else d + 1)) ∧
    (∀ (p q : Fin 36) (e : Nat) (n : Word64), s.offersCount q.val = some e → (∀ d, s.offersCount p.val = some d → e < d ∨ e = d ∧ q.val < p.val) →
      exec (.syncingComplete p n) s = .next s) ∧
    (∀ p d src, (s.port p).nbrStatus = some (.synced, d, src) → s.portUp p = true → d ≤ 2 → src.toNat ≠ s.engineId →
      s.offersCount p = some d) ∧
    (s.hearth.startup = .syncing → s.master = true → (∀ p, p < 36 → s.offersCount p = none) →
      ∃ t, exec .counterMasterTimeout s = .next t ∧ t.hearth.startup = .ready ∧ t.hall = 0 ∧ t.hearth.readyHall = 0 ∧
        t.sync.status = .synced ∧ t.sync.depth = 0 ∧ t.sync.source = none))

/-- R445, R446: a check-in whose key is that of its slot for the current count or the one before it is accepted for the period, if its slot is
enabled; another key is counted, and so is a slot that is not enabled. R444, R449, R450, R452, R479: a period in which every enabled slot checked in
ends the streak, and a Fenced watchdog counts it as clean; a first miss fences the engine and keeps the missed slots; a second miss in a row resets
the engine, with the missed slots as the boot reason. -/
def Obligations.WatchdogPeriods : Prop :=
  (∀ (s : State) (slot : Fin 8) (key : BitVec 16),
    let k (n : Word32) : BitVec 16 := BitVec.ofNat 16 (slot.val * 0x2000 + n.toNat % 0x2000) ^^^ 0xC35A
    (key ≠ k s.wd.count → key ≠ k (s.wd.count - 1) →
      exec (.watchdogCheckIn slot key) s = .next { s with wd := { s.wd with badKeys := satInc s.wd.badKeys } }) ∧
    ((key = k s.wd.count ∨ key = k (s.wd.count - 1)) → bit s.wdMask slot.val = true →
      exec (.watchdogCheckIn slot key) s =
        .next { s with wd := { s.wd with checked := s.wd.checked ||| BitVec.ofNat 8 (2 ^ slot.val) } }) ∧
    ((key = k s.wd.count ∨ key = k (s.wd.count - 1)) → bit s.wdMask slot.val = false →
      exec (.watchdogCheckIn slot key) s =
        .next { s with wd := { s.wd with disabledCheckins := satInc s.wd.disabledCheckins } })) ∧
  (∀ (s : State),
    (s.wdMissed = 0 → ∃ t, exec .watchdogPeriodEnd s = .next t ∧ t.wd.count = s.wd.count + 1 ∧ t.wd.checked = 0 ∧ t.wd.streak = 0 ∧
      t.wd.state = (match s.wd.state with
        | .boot => if s.hearth.locked then .armed else .boot | .fenced => .fencedClean | w => w) ∧
      t.ctxs = s.ctxs ∧ t.cellar = s.cellar ∧ t.hosts = s.hosts ∧ t.log = s.log) ∧
    (s.wdMissed ≠ 0 → s.wd.streak = 0 → ∃ t, exec .watchdogPeriodEnd s = .next t ∧ t.wd.state = .fenced ∧
      t.wd.count = s.wd.count + 1 ∧ t.wd.checked = 0 ∧ t.wd.streak = 1 ∧ t.wd.lastMissed = BitVec.ofNat 8 s.wdMissed ∧
      t.issueStopped = true ∧ t.ctxs = s.ctxs ∧ t.cellar = s.cellar) ∧
    (s.wdMissed ≠ 0 → 0 < s.wd.streak → ∃ t, exec .watchdogPeriodEnd s = .next t ∧ t.hearth.startup = .reset ∧
      t.hearth.bootReason = .watchdog (BitVec.ofNat 8 s.wdMissed) ∧ t.ctxs = [] ∧ t.hosts = [] ∧ t.ports = [] ∧
      t.fuses = s.fuses ∧ t.flash = s.flash ∧ (∀ r ∈ t.log.ring, r.fromBefore = true)))

/-- R456, R457, R458: with both channels asserted a running engine begins to halt, whatever their order; a channel that is asserted alone starts
nothing by itself; and a disagreement that lasts the discrepancy window is a fault, recorded once, that begins a halt too. R459, R460, R461: the grace
of a halt ends in Halted, with SYNC_OUT high-Z and no Figure able to issue; a resumed engine that is Ready is running again when its links are back.
-/
def Obligations.Halts : Prop :=
  (∀ (s : State),
    (∀ n, s.hearth.startup = .ready → s.halt.state = .running → s.halt.assertedA = false → s.halt.assertedB = false →
      exec (.haltInputChange false true n) s = .next { s with halt := { s.halt with assertedA := true, faultFound := false } } ∧
      exec (.haltInputChange true true n) s = .next { s with halt := { s.halt with assertedB := true, faultFound := false } }) ∧
    (∀ (b : Bool) n, s.hearth.startup = .ready → s.halt.state = .running → n < s.haltWindowUs →
      s.halt.assertedA = b → s.halt.assertedB = !b →
      exec (.haltInputChange b true n) s =
        .next { s with halt := { s.halt with assertedA := true, assertedB := true, faultFound := false, state := .halting } }) ∧
    (s.halt.assertedA ≠ s.halt.assertedB → s.halt.faultFound = false → s.hearth.startup = .ready → s.halt.state = .running →
      ∃ t, exec .haltDiscrepancyExpiry s = .next t ∧ t.halt = { s.halt with faultFound := true, state := .halting } ∧
        t.log = (s.logOccurrence ⟨0x0702, 4, 0x0C, 0, none, s.haltWindowUs + (if s.halt.assertedB then 2 else 1) * 2 ^ 28, 0⟩).1 ∧ t.ctxs = s.ctxs ∧ t.cellar = s.cellar) ∧
    (s.halt.assertedA = s.halt.assertedB ∨ s.halt.faultFound = true → exec .haltDiscrepancyExpiry s = .next s)) ∧
  (∀ (s : State),
    (s.halt.state = .halting → ∃ t, exec .haltGraceExpiry s = .next t ∧ t.halt.state = .halted ∧ t.hearth.syncOut = .highZ ∧
      t.sync.pulseEnd = none ∧ t.issueStopped = true ∧ (∀ c, t.canIssue c = false) ∧ t.hearth.startup = s.hearth.startup) ∧
    (s.halt.state ≠ .halting → exec .haltGraceExpiry s = .next s) ∧
    (s.halt.state = .resuming → s.isReady = true → ∃ t, exec .resumeComplete s = .next t ∧ t.halt.state = .running ∧
      t.hearth.startup = .ready) ∧
    (s.halt.state ≠ .resuming → exec .resumeComplete s = .next s))

/-- R43, R44, R45, R52: an idle engine enters Doze and changes nothing else; a wake that completes makes it Active, with slots 5 and 6 exempt until a
full period has run, and what reached a host port or a fabric port since Doze began, which woke it and waited, has its effect then, in the order in
which it came (R46); before the earliest count that a WAIT_COUNT waits for, a dozing engine begins to wake. R50, R51: Banked takes every context,
group, chunk, key, region and grant with it: Cellar contents are gone, ports are down or held down, SYNC_OUT is high-Z; the start-up state, the locked
configuration, fuses and flash stay. -/
def Obligations.PowerStates : Prop :=
  (∀ (s : State),
    (s.isReady = true → s.hearth.power = .active → s.activeHold = false → s.quiet = true → (∀ x ∈ s.ctxs, s.dozeIdle x.1 = true) →
      exec .dozeEntry s = .next { s with hearth := { s.hearth with power := .doze } }) ∧
    (s.activeHold = true → exec .dozeEntry s = .next s) ∧
    (s.hearth.power = .dozeWaking → s.arrivals = [] →
      exec .dozeWakeComplete s = .next { s with hearth := { s.hearth with power := .active, exempt56 := true } }) ∧
    (s.hearth.power = .dozeWaking → (∀ i ∈ s.arrivals, trafficHost i ≠ none ∨ trafficPort i ≠ none) →
      exec .dozeWakeComplete s = .next (s.arrivals.foldl (fun u i => stateAfter u (exec i u))
        { s with hearth := { s.hearth with power := .active, exempt56 := true }, arrivals := [] })) ∧
    (∀ i (h : Fin 16), trafficHost i = some h → s.hostServing h.val = true → s.asleep = true →
      exec i s = .next { s.wake with arrivals := s.arrivals ++ [i] }) ∧
    (∀ i (p : Fin 36), trafficPort i = some p → s.portUp p.val = true → s.asleep = true →
      exec i s = .next { s.wake with arrivals := s.arrivals ++ [i] }) ∧
    (∀ n, s.hearth.power = .doze → s.earliestCount = some n → ∃ t, exec .waitCountWake s = .next t ∧
      t.hearth.power = .dozeWaking ∧ t.cellar = s.cellar ∧ t.wd = s.wd ∧ t.hearth.startup = s.hearth.startup ∧
      (s.counting = true → t.now = max s.now (n - 1500)))) ∧
  (∀ (s : State), s.hearth.power = .banking → ∃ t, exec .bankedEntryComplete s = .next t ∧
    t.hearth.power = .banked ∧ t.hearth.syncOut = .highZ ∧ t.ctxs = [] ∧ t.groups = [] ∧ t.lanes = [] ∧ t.outs = [] ∧ t.rings = [] ∧
    t.cellar.mem = [] ∧ t.cellar.written = [] ∧ t.cellar.keys = [] ∧ t.cellar.regions = [] ∧ t.cellar.bells = [] ∧ t.cellar.blocks = [] ∧
    (∀ x ∈ t.cellar.extents, x.2.state = .quarantined) ∧ (∀ p, t.portUp p = false) ∧ (∀ h, t.hostServing h = false) ∧
    t.hearth.startup = s.hearth.startup ∧ t.hearth.config = s.hearth.config ∧ t.hearth.locked = s.hearth.locked ∧
    t.fuses = s.fuses ∧ t.flash = s.flash ∧ t.isReady = false)

/-- R319, R539: SYNC_OUT pulses as the hall count passes a multiple of 2²⁰, for 1,024 ns; a rising edge in epoch use latches the count and counts an
error of more than 10 ns. An edge on the hard wire, while SYNC_OUT is high, gives each waiting wire BARRIER the first multiple of 1,024 that is at
least 2,000 ns later (R197). R197, R540: at its completion count a wire BARRIER that is its context's only Figure in flight completes and leaves,
SYNC_OUT falls with the last of them, and the hall count stands at that count or later. R315, R316, R318, R369: a follower asks its sync source, and a
neighbour's well-formed request is answered with the count at which it came; what the neighbour advertises is kept; the
reply of its source to a follower's request gives the offset, and with it the status. A flit with a reserved field that
is not 0, or another type, is counted and changes nothing else but the credit that it returns. -/
def Obligations.SyncAndEpochs : Prop :=
  (∀ (s : State),
    (s.now % 0x100000 = 0 → s.syncUse 2 = true → s.syncUse 1 = false → s.isReady = true →
      s.halt.state = .running ∨ s.halt.state = .halting →
      exec .epochPulse s = .next { s with hearth := { s.hearth with syncOut := .high },
                                          sync := { s.sync with pulseEnd := some (s.hall + 1024) } }) ∧
    (s.syncUse 0 = true → s.hearth.startup = .ready → s.counting = true → s.sync.status ≠ .holdover →
      let e := min (s.now % 0x100000) (0x100000 - s.now % 0x100000)
      exec .syncInEpochEdge s = .next { s with
        hearth := { s.hearth with epochErrors := if 10 < e then satInc s.hearth.epochErrors else s.hearth.epochErrors }
        sync := { s.sync with epochLatch := s.hall } }) ∧
    (s.syncUse 1 = true → s.hearth.syncOut = .high → s.counting = true → ∃ t, exec .syncInWireEdge s = .next t ∧
      t = { s with ctxs := t.ctxs } ∧
      (∀ c f g n q o, f ∈ (s.ctx c).flights → f.done = none → f.kind = .barrier g n q o none true →
        { f with kind := .barrier g n q o (some (BitVec.ofNat 64 (ceilDiv (s.now + 2000) 1024 * 1024))) true } ∈ (t.ctx c).flights)) ∧
    (s.syncUse 1 = false ∨ s.hearth.syncOut ≠ .high → exec .syncInWireEdge s = .next s)) ∧
  (∀ (s : State) (c : Nat) (f : Flight) (g gen : Nat) (q : Word32) (o : Nat) (n : Word64), s.wireWaits = [(c, f.fid, n)] →
    (s.ctx c).flights = [f] → f.done = none → f.kind = .barrier g gen q o (some n) true → (s.ctx c).live = true →
    ((f.cpl = false ∧ f.irq = false) ∨ s.ringRoom c = true) → s.counting = true →
    (∀ d x y, (d, x) ∈ s.ctxs → y ∈ x.flights → y.kind.onWire = true → y.done = none → d = c ∧ y.fid = f.fid) →
    ∃ t, exec .wireBarrierComplete s = .next t ∧ (t.ctx c).flights = [] ∧ (t.ctx c).pc = (s.ctx c).pc ∧ t.hearth.syncOut = .low ∧
      t.now = max s.now n.toNat ∧ t.hearth.startup = s.hearth.startup) ∧
  (∀ (s : State),
    (∀ p, s.master = false → s.sync.source = some p → s.portUp p = true → (s.port p).recalibrating = false →
      ∃ t, exec .syncExchangeTimer s = .next t ∧ t.sync.exchangeSeq = s.sync.exchangeSeq + 1 ∧
        FMap.find t.sync.requests p = some (s.sync.exchangeSeq, s.hall) ∧ (t.port p).vc1.length = (s.port p).vc1.length + 1 ∧
        t.hall = s.hall ∧ t.ctxs = s.ctxs ∧ t.cellar = s.cellar) ∧
    (s.master = true → exec .syncExchangeTimer s = .next s) ∧
    (∀ (p : Fin 36) (f : List Byte) st, s.portUp p.val = true → ctlOk 0x13 f = true → le f 2 1 = 0 → syncStatusOf (le f 4 1) = some st →
      (s.port p.val).recalibrating = false →
      ∃ t, exec (.syncExchange p f) s = .next t ∧
        (t.port p.val).nbrStatus = some (st, le f 3 1, BitVec.ofNat 8 (le f 5 1)) ∧
        (t.port p.val).vc1.length = (s.port p.val).vc1.length + 1 ∧ t.hall = s.hall ∧ t.ctxs = s.ctxs ∧ t.cellar = s.cellar) ∧
    (∀ (p : Fin 36) (f : List Byte) (q : BitVec 16) (t1 : Word64), s.portUp p.val = true → ctlOk 0x13 f = true → le f 2 1 = 1 → le f 4 1 = 1 →
      le f 3 1 ≤ 2 → le f 5 1 ≠ s.engineId → s.master = false → s.sync.status ≠ .unsynced → s.sync.source = some p.val →
      FMap.find s.sync.requests p.val = some (q, t1) → q.toNat = le f 6 2 → t1.toNat = le f 8 8 →
      let o : Int := ((le f 16 8 : Nat) : Int) - t1.toNat - ((s.now : Int) - (le f 24 8 : Nat))
      ∃ t, exec (.syncExchange p f) s = .next t ∧ t.sync.offset2 = o ∧
        t.sync.status = (if 2000000 < o.natAbs then .unsynced else if o.natAbs ≤ 1 then .synced else .slewing) ∧
        t.sync.depth = le f 3 1 + 1 ∧ t.sync.source = some p.val ∧ t.hall = s.hall ∧ t.ctxs = s.ctxs ∧ t.cellar = s.cellar) ∧
    (∀ (p : Fin 36) (f : List Byte), s.portUp p.val = true → ctlOk 0x13 f = false →
      ∃ t, exec (.syncExchange p f) s = .next t ∧ t = { s with ports := t.ports } ∧
        (t.port p.val).cnt.badControl = satInc (s.port p.val).cnt.badControl ∧ (t.port p.val).nbrStatus = (s.port p.val).nbrStatus ∧
        (∀ q, q ≠ p.val → t.port q = s.port q)))

/-- R83, R393, R394, R411, R412: an enabled host port that trains serves a Ready engine's host, and before Ready is up and answers with Request Retry
Status. R409, R410: a link that goes down fences its host's extents, ends its session and puts the function at its power-on configuration. -/
def Obligations.HostLinkUpAndDown : Prop :=
  ∀ (s : State) (h : Fin 16),
    (∀ rate width, h.val ∈ s.hostIndices → (s.host h.val).trains = true → s.portsOpen = true → s.hearth.live = none → 1 ≤ rate → rate ≤ 6 →
      ∃ t, exec (.hostLinkUp h rate width) s = .next t ∧
        (t.host h.val).state = (if s.isReady then .serving else .upNotReady) ∧ (t.host h.val).rate = rate ∧
        (t.host h.val).width = min width (s.fullWidth h.val) ∧
        (∀ k, k ≠ h.val → t.host k = s.host k) ∧ t = { s with hosts := t.hosts }) ∧
    ((s.host h.val).state = .serving ∨ (s.host h.val).state = .upNotReady → ∃ t, exec (.hostLinkDown h) s = .next t ∧
        (t.host h.val).state = .linkLost ∧ (t.host h.val).barsAssigned = false ∧ (t.host h.val).busMaster = false ∧
        (t.host h.val).msix = [] ∧
        (∀ e, (t.ext e).owner = .host h.val → (t.ext e).state ≠ .granted) ∧
        (∀ y ∈ t.mgmt.sessions, y.host ≠ some h.val)) ∧
    (∀ width, (s.host h.val).state = .serving → ∃ t, exec (.hostWidthChange h width) s = .next t ∧
        (t.host h.val).width = min width (s.fullWidth h.val) ∧ (t.host h.val).state = .serving ∧
        (t.host h.val).barsAssigned = (s.host h.val).barsAssigned ∧ (∀ k, k ≠ h.val → t.host k = s.host k) ∧ t = { s with hosts := t.hosts }) ∧
    (∀ width, (s.host h.val).state = .upNotReady →
      exec (.hostWidthChange h width) s = .next (s.putHost h.val { s.host h.val with
        width := min width (s.fullWidth h.val), degraded := s.isDegraded h.val (s.host h.val).rate (min width (s.fullWidth h.val)) }))

/-- R83, R335, R395, R400, R401, R467: a configuration request to a Serving function takes effect: its BARs, its Bus Master Enable, its completion
timeout (in the range that log 9 names), 14-bit tags at the full rate, D3hot, the commit of its HDM decoder on a CXL port; a read of the class code
gives the function's, a CXL memory device's with CXL.mem enabled; at a port not Ready it gets Request Retry Status, at one being serviced Completer
Abort. R349, R352, R509: a host session that opens on a Serving function returns every Fenced extent of the host that is bound to its identity, and no
other; the session is the host's one session. -/
def Obligations.HostConfigurationAndSession : Prop :=
  (∀ (s : State) (h : Fin 16),
    ((s.host h.val).blocked = false → (s.host h.val).state = .serving → s.asleep = false →
      exec (.configRequest h .read) s = .next (s.putHost h.val { s.host h.val with cpl := .done, cplLoad := none }) ∧
      exec (.configRequest h .readClassCode) s = .next (s.putHost h.val
        { s.host h.val with cpl := .data (toLe 3 (if s.cxlOn h.val then 0x050210 else 0x120000)), cplLoad := none }) ∧
      (∃ t, exec (.configRequest h .assignBars) s = .next t ∧
        t.host h.val = { s.host h.val with barsAssigned := true, cpl := .done, cplLoad := none } ∧
        t.cellar = s.cellar ∧ t.ctxs = s.ctxs ∧ (∀ k, k ≠ h.val → t.host k = s.host k)) ∧
      (∃ t, exec (.configRequest h (.busMaster true)) s = .next t ∧ (t.host h.val).busMaster = true ∧ (t.host h.val).cpl = .done ∧
        ((s.host h.val).heldReads = [] → (s.host h.val).heldWrites = [] →
          t.host h.val = { s.host h.val with busMaster := true, cpl := .done, cplLoad := none }) ∧
        t.cellar = s.cellar ∧ t.ctxs = s.ctxs ∧ (∀ k, k ≠ h.val → t.host k = s.host k)) ∧
      (∃ t, exec (.configRequest h (.busMaster false)) s = .next t ∧ (t.host h.val).busMaster = false ∧ (t.host h.val).cpl = .done) ∧
      (∀ us, ∃ t, exec (.configRequest h (.completionTimeout us)) s = .next t ∧
        (t.host h.val).timeoutUs = if 10000 ≤ us ∧ us ≤ 4000000 then us else (s.host h.val).timeoutUs) ∧
      (∀ on, ∃ t, exec (.configRequest h (.tag14 on)) s = .next t ∧ (t.host h.val).tag14 = (on && (s.host h.val).rate == 6)) ∧
      (∀ on, ∃ t, exec (.configRequest h (.d3hot on)) s = .next t ∧ (t.host h.val).d3hot = on ∧ (t.host h.val).cpl = .done) ∧
      (∀ on, ∃ t, exec (.configRequest h (.hdmCommit on)) s = .next t ∧ (t.host h.val).hdmCommitted = (on && s.cxlOn h.val) ∧
        t.ctxs = s.ctxs ∧ t.cellar = s.cellar)) ∧
    (∀ req, (s.host h.val).blocked = false → (s.host h.val).state = .upNotReady →
      exec (.configRequest h req) s = .next (s.putHost h.val { s.host h.val with cpl := .rrs, cplLoad := none })) ∧
    (∀ req, (s.host h.val).blocked = true → s.asleep = false → ∃ t, exec (.configRequest h req) s = .next t ∧ (t.host h.val).cpl = .ca ∧
      (t.host h.val).targetResets = satInc (s.host h.val).targetResets)) ∧
  (∀ (s : State) (h : Fin 16) (ident : BitVec 384), s.hostServing h.val = true → s.asleep = false →
    ∃ t, exec (.hostSessionEstablished h ident) s = .next t ∧
      (∀ e x, FMap.find s.cellar.extents e = some x → x.state = .fenced → x.owner = .host h.val → x.identity = ident →
        FMap.find t.cellar.extents e = some { x with state := .granted }) ∧
      (∀ e x, FMap.find s.cellar.extents e = some x → ¬ (x.state = .fenced ∧ x.owner = .host h.val ∧ x.identity = ident) →
        FMap.find t.cellar.extents e = some x) ∧
      t.mgmt.sessions.filter (fun y => y.host == some h.val) = [⟨s.mgmt.nextSession, some h.val, ident, s.hall⟩] ∧
      (∀ y ∈ s.mgmt.sessions, y.host ≠ some h.val → y ∈ t.mgmt.sessions) ∧ t.cellar.mem = s.cellar.mem ∧ t.ctxs = s.ctxs)

/-- R160, R401, R415, R468: a completion frees its tag; one that nobody waits for any more is dropped and counted; a timeout keeps the tag of a live
read until it is reclaimed, counted and recorded as a leak. R413, R447: a sweep checks in slot 7. R414: a path that has stalled is counted and its
link taken down. R401: a read that times out or comes back without
its data fails its Figure with 0x23, and the bytes of a MOVE's source go to its MOVE. R403: credit that comes back releases the units at the head of
the path, and writes that have waited follow them, in order and within the path's 256 flits (R56). R408: MSI-X messages that the host refuses, by
a free value (log 31), are counted as lost, and nothing else is. -/
def Obligations.PorchReadsAndWrites : Prop :=
  (∀ (s : State) (h : Fin 16) (tag : Nat) (x : ReadTag), (s.host h.val).tag? tag = some x →
    (∀ res, x.abandoned = true ∨ x.timedOut = true → ∃ t, exec (.dmaReadCompletion h tag res) s = .next t ∧
      ((s.host h.val).busMaster = false ∨ (s.host h.val).heldReads = [] → (t.host h.val).tag? tag = none) ∧
      (t.host h.val).droppedReplies = satInc (s.host h.val).droppedReplies ∧ t.ctxs = s.ctxs ∧
      t.cellar = s.cellar) ∧
    (∀ res, ∃ t, exec (.dmaReadCompletion h tag res) s = .next t ∧ ((s.host h.val).busMaster = false → (t.host h.val).tag? tag = none)) ∧
    (∀ w res, x.abandoned = false → x.timedOut = false → Alone s x.req.owner.flight.1 w → w.fid = x.req.owner.flight.2 →
      ((∀ b, res ≠ .ok b) ∨ ∃ b, res = .ok b ∧ b.length ≠ x.req.len) →
      ∃ t, exec (.dmaReadCompletion h tag res) s = .next t ∧ StoppedBy s t x.req.owner.flight.1 0x23 ∧
        ((s.host h.val).heldReads = [] → (t.host h.val).tag? tag = none)) ∧
    (∀ c f off b w m, x.abandoned = false → x.timedOut = false → x.req.owner = .move c f off → b.length = x.req.len → Alone s c w →
      w.fid = f → w.kind = .move m → m.dstEngine ≠ s.engineId → (s.host h.val).heldReads = [] →
      s.hall.toNat - x.issuedAt.toNat ≤ x.threshold →
      ∃ t v n, exec (.dmaReadCompletion h tag (.ok b)) s = .next t ∧ (t.ctx c).flights = [v] ∧ v.done = none ∧ v.kind = .move n ∧
        n.toRead = m.toRead - b.length ∧ n.pieces = m.pieces ++ [(off, b)] ∧ (t.host h.val).tag? tag = none ∧ (t.host h.val).slowReads = (s.host h.val).slowReads) ∧
    (x.timedOut = false → x.abandoned = true → ∃ t, exec (.dmaCompletionTimeout h tag) s = .next t ∧
      ((s.host h.val).busMaster = false ∨ (s.host h.val).heldReads = [] → (t.host h.val).tag? tag = none) ∧
      (t.host h.val).droppedReplies = (s.host h.val).droppedReplies) ∧
    (∀ w, x.timedOut = false → x.abandoned = false → Alone s x.req.owner.flight.1 w → w.fid = x.req.owner.flight.2 →
      ∃ t, exec (.dmaCompletionTimeout h tag) s = .next t ∧ StoppedBy s t x.req.owner.flight.1 0x23 ∧
        ∃ y, (t.host h.val).tag? tag = some y ∧ y.timedOut = true) ∧
    (x.timedOut = true → ∃ t, exec (.readTagLeak h tag) s = .next t ∧
      ((s.host h.val).busMaster = false ∨ (s.host h.val).heldReads = [] → (t.host h.val).tag? tag = none) ∧
      (t.host h.val).tagLeaks = satInc (s.host h.val).tagLeaks ∧ t.cellar = s.cellar)) ∧
  (∀ (s : State),
    exec .porchSweep s = .next { s with wd := { s.wd with checked := s.wd.checked ||| 0x80 } } ∧
    (∀ h : Fin 16, (s.host h.val).state = .serving → (s.host h.val).path ≠ [] → ∃ t, exec (.hostStall h) s = .next t ∧
      (t.host h.val).state = .linkLost ∧ (t.host h.val).hostStalls = satInc (s.host h.val).hostStalls ∧ (t.host h.val).path = []) ∧
    (∀ (h : Fin 16) n, (s.host h.val).state = .serving → (s.host h.val).heldWrites = [] →
      exec (.postedCreditReturn h n) s =
        .next (s.draw.2.putHost h.val { s.host h.val with
          path := dropCredited n (s.host h.val).path, pathSince := s.hall
          msixLost := satAdd (s.host h.val).msixLost (refusedMsix s.freeCtr ((s.host h.val).taken n)) })) ∧
    (∀ (h : Fin 16) w l, (s.host h.val).state = .serving → (s.host h.val).heldWrites = [] → (s.host h.val).path = w :: l →
      ∃ t, exec (.postedCreditReturn h w.flits) s = .next t ∧ (t.host h.val).path = dropCredited 0 l ∧ (t.host h.val).pathSince = s.hall ∧
        (t.host h.val).heldWrites = [] ∧ ((∀ a d v, w ≠ .msix a d v) → (t.host h.val).msixLost = (s.host h.val).msixLost)) ∧
    (∀ (h : Fin 16) n, (s.host h.val).state = .serving → ∃ t, exec (.postedCreditReturn h n) s = .next t ∧
      (t.host h.val).path ++ (t.host h.val).heldWrites = dropCredited n (s.host h.val).path ++ (s.host h.val).heldWrites ∧
      (pathFlits (dropCredited n (s.host h.val).path) ≤ 256 → pathFlits (t.host h.val).path ≤ 256) ∧
      (t.host h.val).msixLost = satAdd (s.host h.val).msixLost (refusedMsix s.freeCtr ((s.host h.val).taken n)) ∧
      (∀ k, k ≠ h.val → t.host k = s.host k) ∧ t = { s with hosts := t.hosts, freeCtr := s.freeCtr + 1 }) ∧
    (∀ (h : Fin 16) n, (s.host h.val).state ≠ .serving → exec (.postedCreditReturn h n) s = .next s))

/-- R399: an invalidation drops the translations of its pages at once, and no page outside its range; a translation that completes is held for its
page, and one that is refused fails the Figure that waits for it with 0x23. R408: a vector whose mask bit is cleared sends the message that was pending. R325, R481: a threshold in range holds. -/
def Obligations.TranslationsAndVectors : Prop :=
  ∀ (s : State) (h : Fin 16),
    (∀ iova len, s.atsOn h.val = true → s.hostServing h.val = true → s.asleep = false → ∃ t, exec (.atsInvalidation h iova len) s = .next t ∧
      (t.host h.val).atsCache = (s.host h.val).atsCache.filter (fun x => !pageIn iova len x.1) ∧ t.cellar = s.cellar ∧ t.ctxs = s.ctxs) ∧
    (∀ iova tgt, s.atsOn h.val = true → s.hostServing h.val = true →
      ∃ t, exec (.atsTranslationCompletion h iova (some tgt)) s = .next t ∧
        (iovaPage iova, iovaPage tgt) ∈ (t.host h.val).atsCache ∧ t.ctxs = s.ctxs) ∧
    (∀ iova c w, s.atsOn h.val = true → s.hostServing h.val = true → (s.host h.val).waitsFor (iovaPage iova) = [(c, w.fid)] → Alone s c w →
      ∃ t, exec (.atsTranslationCompletion h iova none) s = .next t ∧ StoppedBy s t c 0x23) ∧
    (∀ v, s.asleep = false → (s.host h.val).blocked = false → s.decodes h.val = true → s.vectorExists h.val v = true →
      ∃ t, exec (.msixUnmask h v) s = .next t ∧ (FMap.get {} (t.host h.val).msix v).masked = false ∧
        (t.host h.val).pba = (s.host h.val).pba.filter (fun w => w != v) ∧ t.cellar = s.cellar ∧ t.ctxs = s.ctxs) ∧
    (∀ value : Word32, s.asleep = false → (s.host h.val).blocked = false → s.decodes h.val = true → 200 ≤ bits value.toNat 13 0 →
      bits value.toNat 13 0 ≤ 10000 →
      exec (.slowReadNs h value) s = .next (s.putHost h.val { s.host h.val with slowReadNs := bits value.toNat 13 0 })) ∧
    (∀ value : Word32, s.asleep = false → (s.host h.val).blocked = false →
      (bits value.toNat 13 0 < 200 ∨ 10000 < bits value.toNat 13 0) → exec (.slowReadNs h value) s = .next s)

/-- R326, R334, R335, R337, R359, R467: a CXL.mem read of a Granted extent of the host returns the unit's 64 bytes, zeros where nothing was written,
and changes no byte; where the unit is poisoned it returns poison, and so does a read that meets an uncorrectable error, which poisons its unit; an
unmapped slot returns poison and is counted. R330: where the cell group is in Retention the access waits for its wake, and then returns the bytes.
R335, R337, R338, R339: a CXL.mem write of a unit that is not poisoned stores the bytes whose enables are set, leaves every other byte of the Cellar,
marks the unit written and completes; one that writes a part of a unit that is poisoned, or that meets such an error, changes no byte and is counted
(R359); an unmapped slot's write changes no byte, completes and is counted. -/
def Obligations.CxlMem : Prop :=
  (∀ (s : State) (h : Fin 16) (a : BitVec 31), s.asleep = false → (s.host h.val).blocked = false → s.takesCxl h.val = true →
    (s.host h.val).hasTokens 1 = true →
    (∀ e, WindowOpen s h.val a.toNat e → (s.ext e).power ≠ .retention →
      let off := e * 0x200000 + a.toNat / 64 * 64 % 0x200000
      (∃ t, exec (.cxlMemRead h a none) s = .next t ∧
        (t.host h.val).cpl = (if s.poisonIn off 64 then .poison else .data (memBytes 0 s.cellar.mem off 64)) ∧
        (∀ b, memRead 0 t.cellar.mem b = memRead 0 s.cellar.mem b) ∧ t.cellar.written = s.cellar.written ∧
        t.cellar.poisoned = s.cellar.poisoned ∧ t.ctxs = s.ctxs ∧ (∀ k, k ≠ h.val → t.host k = s.host k)) ∧
      (∀ w, w < 8 → s.poisonIn off 64 = false → ∃ t, exec (.cxlMemRead h a (some w)) s = .next t ∧ (t.host h.val).cpl = .poison ∧
        off / 64 ∈ t.cellar.poisoned ∧ t.cellar.mem = s.cellar.mem ∧ t.ctxs = s.ctxs)) ∧
    (∀ e, WindowOpen s h.val a.toNat e → (s.ext e).power = .retention → s.cellar.waiting = [] →
      let off := e * 0x200000 + a.toNat / 64 * 64 % 0x200000
      ∃ t, exec (.cxlMemRead h a none) s = .next t ∧ (t.ext e).waking = true ∧
        t.cellar.waiting = [.host ⟨h.val, .read (a.toNat / 64 * 64) 64 none, off⟩] ∧ t.cellar.mem = s.cellar.mem ∧
        (t.host h.val).cpl = (s.host h.val).cpl ∧
        (s.poisonIn off 64 = false → (∀ k, k ≠ h.val → (s.host k).waitingReqs = [] ∧ (s.hall_ k).requests = []) →
          ∃ u, exec (.groupWakeComplete e) t = .next u ∧ (u.ext e).power = .awake ∧
            (u.host h.val).cpl = .data (memBytes 0 s.cellar.mem off 64) ∧ u.cellar.waiting = [])) ∧
    (FMap.find (s.host h.val).window (a.toNat / 0x200000) = none → s.hostFenced h.val = false → (s.hall_ h.val).requests = [] →
      (s.host h.val).waitingReqs = [] → ∃ t, exec (.cxlMemRead h a none) s = .next t ∧ (t.host h.val).cpl = .poison ∧
        (t.host h.val).unmapped = satInc (s.host h.val).unmapped ∧ t.cellar = s.cellar ∧ t.ctxs = s.ctxs)) ∧
  (∀ (s : State) (h : Fin 16) (a : BitVec 31) (data : List Byte) (en : List Bool), Memory.wf 0 s.cellar.mem = true → s.asleep = false →
    (s.host h.val).blocked = false → s.takesCxl h.val = true → (s.host h.val).hasTokens 1 = true →
    (∀ e, WindowOpen s h.val a.toNat e → (s.ext e).power ≠ .retention →
      let off := e * 0x200000 + a.toNat / 64 * 64 % 0x200000
      (s.poisonIn off 64 = false →
        ∃ t, exec (.cxlMemWrite h a data en none) s = .next t ∧ (t.host h.val).cpl = .done ∧
          (∀ b, memRead 0 t.cellar.mem b =
            if off ≤ b ∧ b < off + 64 ∧ (en.take 64).getD (b - off) false = true then byteAt data (b - off) else memRead 0 s.cellar.mem b) ∧
          off / 64 ∈ t.cellar.written ∧ t.ctxs = s.ctxs ∧ (∀ k, k ≠ h.val → t.host k = s.host k)) ∧
      (∀ ecc : Option Nat, (∃ i, i < 64 ∧ (en.take 64).getD i false = false) → (s.poisonIn off 64 = true ∨ ∃ w, w < 8 ∧ ecc = some w) →
        ∃ t, exec (.cxlMemWrite h a data en ecc) s = .next t ∧ (t.host h.val).cpl = .done ∧ t.cellar.mem = s.cellar.mem ∧
          (t.host h.val).poisonPartialDrops = satInc (s.host h.val).poisonPartialDrops ∧ off / 64 ∈ t.cellar.poisoned ∧ t.ctxs = s.ctxs)) ∧
    (FMap.find (s.host h.val).window (a.toNat / 0x200000) = none → s.hostFenced h.val = false → (s.hall_ h.val).requests = [] →
      (s.host h.val).waitingReqs = [] → ∃ t, exec (.cxlMemWrite h a data en none) s = .next t ∧ (t.host h.val).cpl = .done ∧
        (t.host h.val).unmapped = satInc (s.host h.val).unmapped ∧ t.cellar = s.cellar ∧ t.ctxs = s.ctxs))

/-- R334, R335, R337, R338, R499: through BAR2 a host reads and writes 1 to 512 bytes of one slot; a write stores exactly its bytes and no other; a
read of poison returns poison (R359); an atomic or an access that leaves its slot or is longer is refused and counted, and changes no byte. -/
def Obligations.Bar2ReadsAndWrites : Prop :=
  ∀ (s : State) (h : Fin 16) (a : BitVec 31), Memory.wf 0 s.cellar.mem = true → s.asleep = false → (s.host h.val).blocked = false →
    s.decodes h.val = true → s.cxlOn h.val = false →
    (∀ e n, WindowOpen s h.val a.toNat e → (s.ext e).power ≠ .retention → (s.host h.val).hasTokens 9 = true → 0 < n → n ≤ 512 →
      a.toNat % 0x200000 + n ≤ 0x200000 →
      let off := e * 0x200000 + a.toNat % 0x200000
      (∃ t, exec (.bar2Access h a n none false none) s = .next t ∧
        (t.host h.val).cpl = (if s.poisonIn off n then .poison else .data (memBytes 0 s.cellar.mem off n)) ∧
        (∀ b, memRead 0 t.cellar.mem b = memRead 0 s.cellar.mem b) ∧ t.ctxs = s.ctxs) ∧
      (s.poisonIn off n = false →
        ∀ data : List Byte, data.length = n → ∃ t, exec (.bar2Access h a n (some data) false none) s = .next t ∧
          (∀ b, memRead 0 t.cellar.mem b =
            if off ≤ b ∧ b < off + n then byteAt data (b - off) else memRead 0 s.cellar.mem b) ∧ t.ctxs = s.ctxs)) ∧
    (∀ n w, ∃ t, exec (.bar2Access h a n w true none) s = .next t ∧
      (t.host h.val).bar2Unsupported = satInc (s.host h.val).bar2Unsupported ∧ t.cellar = s.cellar ∧ t.ctxs = s.ctxs) ∧
    (∀ n ecc, (n = 0 ∨ 512 < n ∨ 0x200000 < a.toNat % 0x200000 + n) → ∃ t, exec (.bar2Access h a n none false ecc) s = .next t ∧
      (t.host h.val).bar2Unsupported = satInc (s.host h.val).bar2Unsupported ∧ (t.host h.val).cpl = .ur ∧ t.cellar = s.cellar ∧ t.ctxs = s.ctxs)

/-- R354, R355, R356: the request at the head goes on with its tokens, and one behind it waits for its own; without tokens it waits for the µs at
which the bucket has filled far enough; the load index of a host is the greater of its bucket's use and its queue at the busiest Cellar port, and what
it is derived from stays. R396, R397: a CXL host that asks gets one region and its accepted blocks; it accepts only
blocks it was offered, and gives back only those it names; no Cellar byte depends on any of it. The layout of the replies is the model's (log 20). -/
def Obligations.TokensAndDynamicCapacity : Prop :=
  (∀ (s : State),
    (∀ (h : Fin 16) q, (s.host h.val).waitingReqs = [q] → (s.host h.val).hasTokens q.units = true → q.units ≤ 256 →
      (s.hall_ h.val).requests = [] →
      ∃ t, exec (.tokenAvailable h) s = .next t ∧ (t.host h.val).waitingReqs = [] ∧
        (t.host h.val).tokens = (if (s.host h.val).rate64 = 0 then (s.host h.val).tokens else (s.host h.val).tokens - q.units) ∧
        t.hall = s.hall ∧ t.ctxs = s.ctxs) ∧
    (∀ (h : Fin 16) q r l, (s.host h.val).waitingReqs = q :: r :: l → (s.host h.val).rate64 ≠ 0 → q.units ≤ (s.host h.val).tokens →
      (s.host h.val).tokens < q.units + r.units → q.units ≤ 256 → (s.hall_ h.val).requests = [] →
      ∃ t, exec (.tokenAvailable h) s = .next t ∧ (t.host h.val).waitingReqs = r :: l ∧
        (t.host h.val).tokens = (s.host h.val).tokens - q.units ∧ t.hall = s.hall ∧ t.ctxs = s.ctxs) ∧
    (∀ (h : Fin 16) q, (s.host h.val).waitingReqs = [q] → (s.host h.val).rate64 ≠ 0 → (s.host h.val).tokens < q.units →
      q.units ≤ (s.host h.val).depth64 → q.units ≤ 256 → (s.hall_ h.val).requests = [] → s.counting = true → s.now < 2 ^ 63 →
      (s.host h.val).rate64 < 2 ^ 16 → (s.host h.val).depth64 < 2 ^ 16 →
      ∃ t, exec (.tokenAvailable h) s = .next t ∧ (t.host h.val).waitingReqs = [] ∧ s.now ≤ t.now ∧
        t.now = (s.now / 1000 + ceilDiv (q.units - (s.host h.val).tokens) (s.host h.val).rate64) * 1000) ∧
    (∃ t, exec .loadIndexUpdate s = .next t ∧ t = { s with hosts := t.hosts } ∧
      (∀ h x, FMap.find s.hosts h = some x → t.host h = { x with loadIndex := BitVec.ofNat 8 (min 255 (max
        (if x.rate64 = 0 then 0 else 255 * (x.depth64 - x.tokens) / x.depth64) (255 * s.cellar.busiest h / 128))) }))) ∧
  (∀ (s : State) (h : Fin 16), s.asleep = false → (s.host h.val).barsAssigned = true → (s.host h.val).state = .serving →
    s.cxlOn h.val = true →
    (∃ t, exec (.getDynamicCapacityConfiguration h) s = .next t ∧
      (∃ b, (t.host h.val).cpl = .data b ∧ b.length = 32 ∧ le b 0 8 = 1 ∧ le b 16 8 = 0x80000000 ∧ le b 24 8 = 0x200000) ∧
      t.cellar = s.cellar ∧ t.ctxs = s.ctxs) ∧
    (∃ t, exec (.getDynamicCapacityExtentList h) s = .next t ∧
      (∃ b, (t.host h.val).cpl = .data b ∧ b.length = 16 * (s.host h.val).dcAccepted.length) ∧ t.cellar = s.cellar ∧ t.ctxs = s.ctxs) ∧
    (∀ l, ∃ t, exec (.addDynamicCapacityResponse h l) s = .next t ∧ (t.host h.val).dcOffered = [] ∧
      (∀ x, x ∈ (t.host h.val).dcAccepted ↔ x ∈ (s.host h.val).dcAccepted ∨ (x ∈ l ∧ x ∈ (s.host h.val).dcOffered)) ∧
      t.cellar = s.cellar ∧ t.ctxs = s.ctxs) ∧
    (∀ l, ∃ t, exec (.releaseDynamicCapacity h l) s = .next t ∧
      (∀ x, x ∈ (t.host h.val).dcAccepted ↔ x ∈ (s.host h.val).dcAccepted ∧ x ∉ l) ∧ t.cellar = s.cellar ∧ t.ctxs = s.ctxs))

/-- R344, R350, R351: at a lease tick a running lease of a host loses 1 ms, or none where it was set since the tick before; a renewal that the host
has asked for since the last tick counts first, for the extent of the slot it names, up to the lease's length, and the lease starts with all of it. A
renewal written to LEASE waits for that tick. R350, R353: an extent whose lease reaches 0 at the tick is Reclaiming from then on, and a region's lease
runs while all its extents are Granted and takes them with it. The rest of the reclaim is carried out for every lease that has ended: its extents are
in no host's window and queue for the scrubber, and a region that ends is gone (log 41). Where none has ended nothing changes. -/
def Obligations.Leases : Prop :=
  (∀ (s : State),
    (∀ (h : Fin 16) v, s.asleep = false → (s.host h.val).blocked = false → s.decodes h.val = true →
      exec (.lease h v) s = .next (s.putHost h.val { s.host h.val with renewals := (s.host h.val).renewals ++ [v] })) ∧
    ((∀ h, (s.host h).renewals = []) → (∀ e, (s.ext e).renewMs = none) → (∀ x ∈ s.cellar.regions, x.2.renewMs = none ∧ x.2.staged = none) →
      ∃ t, exec .leaseTick s = .next t ∧
      (∀ e h, (s.ext e).owner = .host h → ((s.ext e).state = .granted ∨ (s.ext e).state = .fenced) → (∀ x ∈ s.cellar.regions, e ∉ x.2.extents) →
        let left := if (s.ext e).fresh then (s.ext e).leftMs else (s.ext e).leftMs - 1
        t.ext e = (if left = 0 then
          { s.ext e with leftMs := 0, fresh := false, due := true, state := .reclaiming, cause := 1, reclaimHall := s.hall }
          else { s.ext e with leftMs := left, fresh := false })) ∧
      (∀ e, (s.ext e).state ≠ .granted → (s.ext e).state ≠ .fenced → t.ext e = s.ext e) ∧
      (∀ n r, FMap.find s.cellar.regions n = some r → r.due = false → (∀ e ∈ r.extents, (s.ext e).state = .granted ∧ (s.ext e).owner = .region n) →
        let left := if r.fresh then r.leftMs else r.leftMs - 1
        FMap.find t.cellar.regions n = some { r with leftMs := left, fresh := false, due := decide (left = 0) } ∧
        (left = 0 → ∀ e ∈ r.extents, (t.ext e).state = .reclaiming ∧ (t.ext e).due = true)) ∧
      t.cellar.mem = s.cellar.mem ∧ t.ctxs = s.ctxs) ∧
    (∀ (h e : Nat) (v : Word32), (s.host h).renewals = [v] → (∀ k, k ≠ h → (s.host k).renewals = []) → bit v.toNat 15 = false →
      FMap.find (s.host h).window (bits v.toNat 9 0) = some e → (s.ext e).state = .granted → (s.ext e).owner = .host h →
      (s.ext e).renewMs = none → (∀ x ∈ s.cellar.regions, e ∉ x.2.extents ∧ x.2.staged = none) → 0 < (s.ext e).leaseS →
      ∃ t, exec .leaseTick s = .next t ∧ (t.host h).renewals = [] ∧
        t.ext e = { s.ext e with fresh := false, leftMs := 1000 * (if bits v.toNat 31 16 = 0 then (s.ext e).leaseS
          else min (bits v.toNat 31 16) (s.ext e).leaseS) })) ∧
  (∀ (s : State) (region : Bool) (n : Nat),
    let ended := (s.cellar.extents.filter (fun x => x.2.due)).map (fun x => x.1)
    (s.leaseDue region n = true → CellsQuiet s →
      ∃ t, exec (.leaseExpiry region n) s = .next t ∧
        (∀ e ∈ ended, (t.ext e).state = .reclaiming ∧ (t.ext e).cause = 1 ∧ (t.ext e).due = false ∧
          (∀ k slot, FMap.find (t.host k).window slot ≠ some e)) ∧
        t.cellar.scrubQ = s.cellar.scrubQ ++ (chunksOf 8 ended.length ended).map (fun b => ⟨b⟩) ∧
        t.cellar.regions = s.cellar.regions.filter (fun x => !x.2.due)) ∧
    (s.leaseDue region n = false → exec (.leaseExpiry region n) s = .next s) ∧
    ((s.ext n).due = true → s.leaseDue false n = true) ∧
    (∀ r, FMap.find s.cellar.regions n = some r → r.due = true → s.leaseDue true n = true))

/-- R331, R332, R333, R337, R80: when a batch's scrub completes every byte of its extents reads 0 and none of their units is written or poisoned; a
Granting extent whose host serves and has no Fenced extents is Granted with its whole lease, marked where the scrub met an error, and a Reclaiming one
is Free. R329, R330: a cell group that is Awake and holds data enters Retention, and one that wakes is Awake when its wake completes; its extent's
state and every byte stay. R357, R358, R359, R447: a lane's row counts for slot 6's check-in and moves the lane on; a correctable error is counted in
its extent, an uncorrectable one poisons its unit and marks the extent; no byte of the Cellar changes. R360: an uncorrectable error in a staging extent
quarantines it at once. A lane that has fallen behind wakes a dozing engine. R416, R420, R423, R424: a corrected error in the small arrays is counted
for its unit, and an uncorrectable one is logged as a unit fault; an error in a unit that a Figure uses completes the Figure with 0x44; one in a
tentative lane drops the chunk, and one in a held copy has the chunk sent again from its first attempt; a register with a parity error reads its reset
value; an error in the Hearth resets the engine (that this row brings these errors is the model's choice: log 47); the oldest record that waits for the Attic is appended to the fault log there, whose
oldest sector of 1,024 records goes when it is full, and is marked, and nothing else changes. -/
def Obligations.CellarMaintenance : Prop :=
  (∀ (s : State) (bad : List Nat) (j : ScrubJob) (l : List ScrubJob), s.cellar.scrubQ = j :: l → CellsQuiet s →
    ∃ t, exec (.scrubBatchComplete bad) s = .next t ∧
      (∀ e ∈ j.extents, ∀ a, e * 0x200000 ≤ a → a < (e + 1) * 0x200000 → memRead 0 t.cellar.mem a = 0) ∧
      (∀ e ∈ j.extents, ∀ u, extentOf (64 * u) = e → u ∉ t.cellar.written ∧ u ∉ t.cellar.poisoned) ∧
      (∀ a, extentOf a ∉ j.extents → memRead 0 t.cellar.mem a = memRead 0 s.cellar.mem a) ∧
      (∀ e h, j.extents = [e] → (s.ext e).state = .granting → (s.ext e).owner = .host h → s.hostServing h = true →
        s.hostFenced h = false → (∀ k ∈ l, e ∉ k.extents) → t.cellar.scrubQ = l ∧
        t.ext e = { s.ext e with state := .granted, leftMs := 1000 * (s.ext e).leaseS, fresh := true, power := .awake,
                                 quarantine := bad.contains e }) ∧
      (∀ e, j.extents = [e] → (s.ext e).state = .reclaiming → (s.ext e).quarantine = false → e ∉ bad → (∀ k ∈ l, e ∉ k.extents) →
        t.cellar.scrubQ = l ∧ (t.ext e).state = .free ∧ (t.ext e).owner = .none ∧ (t.ext e).power = .off ∧ (t.ext e).leftMs = 0)) ∧
  (∀ (s : State) (e : Nat),
    ((s.ext e).power = .awake → ((s.ext e).state = .granted ∨ (s.ext e).state = .fenced ∨ (s.ext e).state = .staging) →
      (∀ r ∈ s.cellar.replacing, r.2 ≠ e) →
      exec (.groupRetentionTimeout e) s = .next (s.putExt e { s.ext e with power := .retention, waking := false })) ∧
    ((s.ext e).power = .retention → (s.ext e).waking = true → CellsQuiet s →
      exec (.groupWakeComplete e) s = .next (s.putExt e { s.ext e with power := .awake, waking := false }))) ∧
  (∀ (s : State) (lane : Fin 8),
    (∀ errors e row, s.hearth.locked = true → s.hearth.power = .active →
      s.laneAt_ lane.val (FMap.get 0 s.cellar.patrolRows lane.val) = some (e, row) →
      ((s.ext e).state ≠ .staging ∨ ∀ w ∈ errors, w.correctable = true) →
      ∃ t, exec (.patrolRow lane errors) s = .next t ∧ lane.val ∈ t.wd.lanes ∧ t.cellar.mem = s.cellar.mem ∧ t.ctxs = s.ctxs ∧
        FMap.get 0 t.cellar.patrolRows lane.val =
          (if FMap.get 0 s.cellar.patrolRows lane.val + 1 = 1024 * (s.laneExtents lane.val).length then 0
           else FMap.get 0 s.cellar.patrolRows lane.val + 1) ∧
        (∀ w, errors = [w] → ((s.ext e).state = .granted ∨ (s.ext e).state = .fenced) → w.word / 8 = row → w.cell < 32 →
          if w.correctable then (t.ext e).corrected = satInc (s.ext e).corrected ∧ t.cellar.poisoned = s.cellar.poisoned
          else e * 0x8000 + row * 32 + w.cell ∈ t.cellar.poisoned ∧
            (extentOf (64 * (e * 0x8000 + row * 32 + w.cell)) = e → (t.ext e).quarantine = true))) ∧
    (∀ w e row, s.hearth.locked = true → s.hearth.power = .active → CellsQuiet s →
      s.laneAt_ lane.val (FMap.get 0 s.cellar.patrolRows lane.val) = some (e, row) → (s.ext e).state = .staging →
      w.word / 8 = row → w.cell < 32 → w.correctable = false →
      ∃ t, exec (.patrolRow lane [w]) s = .next t ∧ lane.val ∈ t.wd.lanes ∧ (t.ext e).state = .quarantined ∧ e ∈ t.flash.retireList) ∧
    (∀ errors, s.hearth.locked = true → s.hearth.power = .active → s.laneAt_ lane.val (FMap.get 0 s.cellar.patrolRows lane.val) = none →
      ∃ t, exec (.patrolRow lane errors) s = .next t ∧ lane.val ∈ t.wd.lanes ∧ FMap.get 0 t.cellar.patrolRows lane.val = 0 ∧
        t.cellar.mem = s.cellar.mem ∧ t.ctxs = s.ctxs) ∧
    (∀ errors, s.hearth.power ≠ .active → exec (.patrolRow lane errors) s = .next s) ∧
    (s.hearth.power = .doze → exec .patrolCatchUp s = .next { s with hearth := { s.hearth with power := .dozeWaking } }) ∧
    (s.hearth.power ≠ .doze → exec .patrolCatchUp s = .next s)) ∧
  (∀ (s : State),
    (∀ cls idx, ∃ t, exec (.arrayPatrol (.uncorrectable cls idx)) s = .next t ∧
      t.log = (s.logOccurrence ⟨0x0202, 3, cls, idx, none, 0, 0⟩).1 ∧ t.cellar = s.cellar ∧ t.ctxs = s.ctxs ∧ t.hosts = s.hosts) ∧
    (∀ cls idx, let k := cls * 2 ^ 24 + idx
      exec (.arrayPatrol (.corrected cls idx)) s =
        .next { s with svc := { s.svc with corrected := FMap.put s.svc.corrected k (satInc (FMap.get 0 s.svc.corrected k)) } }) ∧
    exec (.arrayPatrol .clean) s = .next s ∧
    (∀ (c : Fin 256) w dataPath cls idx, Alone s c.val w →
      ∃ t, exec (.arrayPatrol (.figure c w.fid dataPath cls idx)) s = .next t ∧ StoppedBy s t c.val 0x44) ∧
    (∀ (c : Fin 256) fid dataPath cls idx, (s.ctx c.val).flight fid = none → exec (.arrayPatrol (.figure c fid dataPath cls idx)) s = .next s) ∧
    (∀ n l, s.lanes[n]? = some l → l.attempt < 3 → ∃ t, exec (.arrayPatrol (.lane n)) s = .next t ∧
      t.lanes = s.lanes.filter (fun x => x != l) ∧ t.ctxs = s.ctxs ∧ t.cellar = s.cellar) ∧
    (∀ n o, s.outs[n]? = some o → o.bytes.isSome = true → ∃ t, exec (.arrayPatrol (.heldCopy n)) s = .next t ∧
      t.outs[n]? = some { o with attempt := 1, port := none, sealed := false, pieces := [], left := 0 } ∧ t.lanes = s.lanes ∧
      t.ctxs = s.ctxs ∧ t.cellar = s.cellar) ∧
    (∀ h, ∃ t, exec (.arrayPatrol (.register 5 h)) s = .next t ∧ t.host h = { s.host h with slowReadNs := 1500 } ∧ t.ctxs = s.ctxs) ∧
    (∀ c, ∃ t, exec (.arrayPatrol (.register 4 c)) s = .next t ∧ t.ctx c = { s.ctx c with regs := {}, transReg := 0 } ∧ t.hosts = s.hosts) ∧
    (∃ t, exec (.arrayPatrol .hearth) s = .next t ∧ t.hearth.startup = .reset ∧ t.hearth.bootReason = .hearthError ∧ t.ctxs = [] ∧
      t.fuses = s.fuses ∧ t.flash = s.flash) ∧
    (∀ r, s.log.ring.find? ErrRec.waitsAttic = some r →
      ∃ t, exec .faultRecordAtticWrite s = .next t ∧
        t.log.attic = (if 131072 ≤ s.log.attic.length then s.log.attic.drop 1024 else s.log.attic) ++ [{ r with inAttic := true }] ∧
        t.log.ring.length = s.log.ring.length ∧ t.log.nextSeq = s.log.nextSeq ∧ t = { s with log := t.log }) ∧
    ((∀ r ∈ s.log.ring, r.waitsAttic = false) → exec .faultRecordAtticWrite s = .next s))

/-- R153, R164, R165: START in Idle or Stopped, with registers that pass its checks, begins the Card at its start index with no loop active; with
registers that fail them the context stays and reports the status. While its Caller is under scan the START is held (R435), in Draining it is latched
for the drain's end, and in a Suite that does not serve, or while the Card runs, it is dropped and counted. Nothing outside the context changes. That
registers which fail the checks refuse a START in Draining at once is the model's choice (log 7). -/
def Obligations.StartBeginsCard : Prop :=
  ∀ (s : State) (h : Fin 16) (c : Fin 256) (i : Nat), CtxPageOpen s h.val c.val i →
    let x := s.ctx c.val
    let dropped : State := s.putSuite i { s.suite i with dropped := satInc (s.suite i).dropped }
    ((x.state = .idle ∨ x.state = .stopped) → (s.suite i).state = .serving → s.svcJob 3 (c.val / 8) = none → (3, c.val / 8) ∉ s.svc.out →
      (s.callerOut c.val = false → s.startCheck i c.val x.regs = none →
        ∃ t, exec (.start h c) s = .next t ∧ (t.ctx c.val).live = true ∧ (x.regs.startIdx < x.regs.len → (t.ctx c.val).state = .waiting) ∧
          (t.ctx c.val).run = x.regs ∧ (t.ctx c.val).pc = x.regs.startIdx ∧ (t.ctx c.val).loops = [] ∧ (t.ctx c.val).prefetch = [] ∧
          (t.ctx c.val).asg = x.asg ∧ (t.ctx c.val).bells = x.bells ∧
          (∀ d, d ≠ c.val → t.ctx d = s.ctx d) ∧ t = { s with ctxs := t.ctxs }) ∧
      (s.callerOut c.val = true → s.startCheck i c.val x.regs = none →
        exec (.start h c) s = .next (s.putCtx c.val { x with heldStart := some x.regs })) ∧
      (∀ st, s.startCheck i c.val x.regs = some st →
        exec (.start h c) s = .next (s.putCtx c.val { x with stopReason := .startRefused, lastStatus := st }))) ∧
    (x.state = .draining → s.startCheck i c.val x.regs = none →
      exec (.start h c) s = .next (s.putCtx c.val { x with state := .drainRestart, queued := some x.regs })) ∧
    (∀ st, x.state = .draining → s.startCheck i c.val x.regs = some st →
      exec (.start h c) s = .next (s.putCtx c.val { x with stopReason := .startRefused, lastStatus := st })) ∧
    ((x.state = .idle ∨ x.state = .stopped) → (s.suite i).state ≠ .serving → exec (.start h c) s = .next dropped) ∧
    (x.live = true ∨ x.state = .drainRestart → exec (.start h c) s = .next dropped)

/-- R159, R160, R157: with nothing in flight STOP and ABORT leave a running context Stopped, with the reason and the index at which issue ended; ABORT
cancels the Figure in flight with 0x40, though it held a result already, and so does STOP one that waits, while a Figure that moves data runs on and
the context drains. R158, R164: STOP in a drain with a START queued takes the START back, ABORT in a drain ends the Figure that is left, and where
nothing runs both are dropped and counted. -/
def Obligations.StopAndAbort : Prop :=
  ∀ (s : State) (h : Fin 16) (c : Fin 256) (i : Nat), CtxPageOpen s h.val c.val i → (s.ctx c.val).latched = none →
    let x := s.ctx c.val
    let dropped : State := s.putSuite i { s.suite i with dropped := satInc (s.suite i).dropped }
    (x.live = true → x.flights = [] →
      (∃ t, exec (.stop h c) s = .next t ∧ (t.ctx c.val).state = .stopped ∧ (t.ctx c.val).stopReason = .stop ∧
        (t.ctx c.val).stopIndex = x.pc ∧ (∀ d, d ≠ c.val → t.ctx d = s.ctx d) ∧ t.cellar = s.cellar) ∧
      (∃ t, exec (.abort h c) s = .next t ∧ (t.ctx c.val).state = .stopped ∧ (t.ctx c.val).stopReason = .abort ∧
        (t.ctx c.val).stopIndex = x.pc ∧ (∀ d, d ≠ c.val → t.ctx d = s.ctx d) ∧ t.cellar = s.cellar)) ∧
    (∀ f, x.live = true → x.flights = [f] → s.ringRoom c.val = true →
      (∃ t, exec (.abort h c) s = .next t ∧ (t.ctx c.val).flights = [] ∧ (t.ctx c.val).lastStatus = 0x40 ∧
        (t.ctx c.val).state = .stopped ∧ (t.ctx c.val).stopReason = .abort) ∧
      (f.done = none → f.kind.waits = true → ∃ t, exec (.stop h c) s = .next t ∧ (t.ctx c.val).flights = [] ∧ (t.ctx c.val).lastStatus = 0x40 ∧
        (t.ctx c.val).state = .stopped ∧ (t.ctx c.val).stopReason = .stop)) ∧
    (∀ f, x.live = true → x.flights = [f] → f.done = none → f.kind.waits = false → f.kind ≠ .endCard →
      ∃ t, exec (.stop h c) s = .next t ∧ (t.ctx c.val).flights = [f] ∧ (t.ctx c.val).state = .draining ∧ (t.ctx c.val).stopReason = .stop ∧
        (t.ctx c.val).stopIndex = x.pc) ∧
    (∀ f, (x.state = .draining ∨ x.state = .drainRestart) → x.flights = [f] → s.ringRoom c.val = true →
      ∃ t, exec (.abort h c) s = .next t ∧ (t.ctx c.val).flights = [] ∧ (t.ctx c.val).lastStatus = 0x40 ∧ (t.ctx c.val).state = .stopped) ∧
    (∀ f, x.state = .drainRestart → x.flights = [f] → f.done = none → f.kind ≠ .endCard → f.kind ≠ .fence →
      ∃ t, exec (.stop h c) s = .next t ∧ (t.ctx c.val).flights = [f] ∧ (t.ctx c.val).state = .draining ∧ (t.ctx c.val).queued = none) ∧
    ((x.state = .idle ∨ x.state = .stopped) → exec (.stop h c) s = .next dropped ∧ exec (.abort h c) s = .next dropped) ∧
    (x.state = .draining → exec (.stop h c) s = .next dropped)

/-- R170, R179, R180: BELL adds 24 bits to a local Bell that no Figure in flight takes and fills it; Bells 48 through 63 do not exist. R133, R495:
RING_HEAD frees the entries that were consumed, and drops a count of 0 or of more than are in use. R258: HIST_CLEAR zeroes the histograms. R147, R158:
in Unassigned or Clearing every one of them is dropped and counted. -/
def Obligations.BellRingHeadAndHistogram : Prop :=
  ∀ (s : State) (h : Fin 16) (c : Fin 256) (i : Nat) (v : Word32), CtxPageOpen s h.val c.val i →
    ((s.ctx c.val).state ≠ .unassigned → (s.ctx c.val).state ≠ .clearing →
      (bits v.toNat 5 0 < 48 → (s.ctx c.val).flights = [] → ∃ t, exec (.bell h c v) s = .next t ∧
        (let b := (s.ctx c.val).bell (bits v.toNat 5 0)
         let n := bits v.toNat 31 8
         (t.ctx c.val).bell (bits v.toNat 5 0) =
           { value := b.value + BitVec.ofNat 64 n, full := true, overflow := b.overflow || decide (2 ^ 64 ≤ b.value.toNat + n) }) ∧
        (∀ k, k ≠ bits v.toNat 5 0 → (t.ctx c.val).bell k = (s.ctx c.val).bell k) ∧ t.cellar = s.cellar) ∧
      (48 ≤ bits v.toNat 5 0 → ∃ t, exec (.bell h c v) s = .next t ∧ (t.suite i).dropped = satInc (s.suite i).dropped ∧ t.ctxs = s.ctxs) ∧
      (bits v.toNat 16 0 ≠ 0 → bits v.toNat 16 0 ≤ (s.ctx c.val).ringUsed → (s.ctx c.val).flights = [] → (s.ctx c.val).drains = false →
        ∃ t, exec (.ringHead h c v) s = .next t ∧ (t.ctx c.val).ringUsed = (s.ctx c.val).ringUsed - bits v.toNat 16 0 ∧
          (t.ctx c.val).ringHead.toNat = ((s.ctx c.val).ringHead.toNat + bits v.toNat 16 0) % 2 ^ (s.ctx c.val).run.ringSize % 2 ^ 16) ∧
      (bits v.toNat 16 0 = 0 ∨ (s.ctx c.val).ringUsed < bits v.toNat 16 0 → ∃ t, exec (.ringHead h c v) s = .next t ∧
        (t.suite i).dropped = satInc (s.suite i).dropped ∧ t.ctxs = s.ctxs) ∧
      exec (.histClear h c) s = .next (s.putCtx c.val { s.ctx c.val with hist := [] })) ∧
    ((s.ctx c.val).state = .unassigned ∨ (s.ctx c.val).state = .clearing →
      let u : State := s.putSuite i { s.suite i with dropped := satInc (s.suite i).dropped }
      exec (.bell h c v) s = .next u ∧ exec (.ringHead h c v) s = .next u ∧ exec (.histClear h c) s = .next u ∧
      exec (.start h c) s = .next u ∧ exec (.stop h c) s = .next u ∧ exec (.abort h c) s = .next u)

/-- R8, R171, R172, R494: in Idle or Stopped, from the owner port, TRANSLATION writes or removes the entry of its virtual Bell, without its reserved
bits; in every other state it is refused, counted, and the refusal can be read, and from another port it is dropped and counted. No other entry
changes. R142, R143, R144, R148: an assignment of an idle, stopped or unassigned context that passes its checks puts it into Clearing under the new
assignment, and its result reads IN PROGRESS; in Clearing, or with the context's Caller out of service, it is latched; one that fails them changes no
context and reports its code. R11, R149: the tenant's written limit has taken effect with it. R145, R146, R147: when Clearing completes, with no ring
held for it and no assignment latched, every register, Bell, layer and translation of the context is at its reset value; it is Idle under its
assignment, or Unassigned with none. With one latched it clears again under that one. -/
def Obligations.AssignmentAndClearing : Prop :=
  (∀ (s : State) (h : Fin 16) (c : Fin 256) (i : Nat) (v : Word64), CtxPageOpen s h.val c.val i →
    let n := translationFields v.toNat
    (s.ownerHost i = h.val → ((s.ctx c.val).state = .idle ∨ (s.ctx c.val).state = .stopped) → (bit n 13 = true → trHome n = s.engineId) →
      ∃ t, exec (.translation h c v) s = .next t ∧ (t.ctx c.val).transRefused = false ∧
        FMap.find (t.ctx c.val).trans (bits n 11 0) =
          (if bit n 12 then some (BitVec.ofNat 64 n) else FMap.find (FMap.del (s.ctx c.val).trans (bits n 11 0)) (bits n 11 0)) ∧
        (∀ k, k ≠ bits n 11 0 → FMap.find (t.ctx c.val).trans k = FMap.find (s.ctx c.val).trans k) ∧
        (∀ d, d ≠ c.val → t.ctx d = s.ctx d) ∧ t = { s with ctxs := t.ctxs }) ∧
    (s.ownerHost i = h.val → (((s.ctx c.val).state ≠ .idle ∧ (s.ctx c.val).state ≠ .stopped) ∨ (bit n 13 = true ∧ trHome n ≠ s.engineId)) →
      ∃ t, exec (.translation h c v) s = .next t ∧ (t.ctx c.val).transRefused = true ∧
        (t.ctx c.val).trans = (s.ctx c.val).trans ∧ (t.suite i).dropped = satInc (s.suite i).dropped) ∧
    (s.ownerHost i ≠ h.val → exec (.translation h c v) s =
      .next (s.putSuite i { s.suite i with dropped := satInc (s.suite i).dropped }))) ∧
  (∀ (s : State) (h : Fin 16) (i : Nat) (v : Word64), OwnerPageOpen s h.val i →
    let a := assignmentOf v.toNat
    let c := bits v.toNat 7 0
    (∀ r, s.assignCheck i c a = some r → ∃ t, exec (.assign h v) s = .next t ∧ (t.suite i).assignResult = r ∧ t.ctxs = s.ctxs ∧
      (a.valid = true → FMap.get 256 (t.suite i).quotaCtxEff a.tenant.toNat = FMap.get 256 (s.suite i).quotaCtx a.tenant.toNat) ∧
      t.cellar = s.cellar) ∧
    (s.assignCheck i c a = none → s.callerOut c = false →
      ((s.ctx c).state = .unassigned ∨ (s.ctx c).state = .idle ∨ (s.ctx c).state = .stopped) →
      ∃ t, exec (.assign h v) s = .next t ∧ (t.suite i).assignResult = 1 ∧ (t.suite i).assignCtx = c ∧
        (t.ctx c).state = .clearing ∧ (t.ctx c).asg = a ∧
        (a.valid = true → FMap.get 256 (t.suite i).quotaCtxEff a.tenant.toNat = FMap.get 256 (s.suite i).quotaCtx a.tenant.toNat) ∧
        (t.ctx c).before = (if (s.ctx c).asg.valid then some (s.ctx c).asg.tenant else none) ∧ (∀ d, d ≠ c → t.ctx d = s.ctx d)) ∧
    (s.assignCheck i c a = none → ((s.ctx c).state = .clearing ∨ s.callerOut c = true) → (s.ctx c).drains = false →
      ∃ t, exec (.assign h v) s = .next t ∧ (t.suite i).assignResult = 1 ∧ t.ctx c = { s.ctx c with latched := some a } ∧
        (∀ d, d ≠ c → t.ctx d = s.ctx d))) ∧
  (∀ (s : State) (c : Fin 256), (s.ctx c.val).state = .clearing → (∀ r ∈ s.rings, r.clearing ≠ some c.val) →
    ((s.ctx c.val).latched = none → ∃ t, exec (.clearingComplete c) s = .next t ∧
      t.ctx c.val = { state := if (s.ctx c.val).asg.valid then .idle else .unassigned,
                      asg := if (s.ctx c.val).asg.valid then (s.ctx c.val).asg else {}, nextFid := (s.ctx c.val).nextFid } ∧
      (∀ d, d ≠ c.val → t.ctx d = s.ctx d) ∧ t.cellar = s.cellar ∧ t.hosts = s.hosts) ∧
    (∀ a, (s.ctx c.val).latched = some a → ∃ t, exec (.clearingComplete c) s = .next t ∧ (t.ctx c.val).state = .clearing ∧
      (t.ctx c.val).asg = a ∧ (t.ctx c.val).latched = none ∧ (t.ctx c.val).bells = [] ∧ (t.ctx c.val).trans = []))

/-- R213, R214, R216, R488, R552: a commit that passes its checks takes effect at once on an idle group, whose barrier sequence and flows start
afresh, and is staged behind a busy one; a commit that fails reports its code and the offset and changes no group. R214, R216, R488: an invalidation
removes an idle group's entry, and waits behind a busy group; what was staged takes effect once the group is idle; the read-back window shows the
entry in effect, or the one staged. -/
def Obligations.GroupEntries : Prop :=
  (∀ (s : State) (h : Fin 16) (i : Nat) (g : BitVec 12), OwnerPageOpen s h.val i →
    let e := (s.suite i).window
    (∀ r o, s.commitCheck i g.toNat e = some (r, o) → ∃ t, exec (.groupCommit h g) s = .next t ∧ (t.suite i).groupResult = r ∧
      (t.suite i).groupResOffset = o ∧ t.groups = s.groups ∧ t.ctxs = s.ctxs ∧
      FMap.get 256 (t.suite i).quotaGrpEff (geTenant e) = FMap.get 256 (s.suite i).quotaGrp (geTenant e)) ∧
    (s.commitCheck i g.toNat e = none → s.groupBusy g.toNat = false → ∃ t, exec (.groupCommit h g) s = .next t ∧
      (t.suite i).groupResult = 0 ∧ t.grp g.toNat = { entry := some e } ∧ (∀ k, k ≠ g.toNat → t.grp k = s.grp k) ∧ t.ctxs = s.ctxs ∧
      t.cellar = s.cellar) ∧
    (s.commitCheck i g.toNat e = none → s.groupBusy g.toNat = true → ∃ t, exec (.groupCommit h g) s = .next t ∧
      (t.suite i).groupResult = 1 ∧ t.grp g.toNat = { s.grp g.toNat with staged := some (.commit e) } ∧
      (∀ k, k ≠ g.toNat → t.grp k = s.grp k) ∧ t.ctxs = s.ctxs)) ∧
  (∀ (s : State) (h : Fin 16) (i : Nat) (g : BitVec 12),
    (OwnerPageOpen s h.val i → (s.suite i).state = .serving → g.toNat / 256 = i →
      (s.groupBusy g.toNat = false → ∃ t, exec (.groupInvalidate h g) s = .next t ∧ t.grp g.toNat = {} ∧ (t.suite i).groupResult = 0 ∧
        (∀ k, k ≠ g.toNat → t.grp k = s.grp k) ∧ t.ctxs = s.ctxs) ∧
      (s.groupBusy g.toNat = true → ∃ t, exec (.groupInvalidate h g) s = .next t ∧ (t.suite i).groupResult = 1 ∧
        t.grp g.toNat = { s.grp g.toNat with staged := some .invalidate } ∧ t.ctxs = s.ctxs)) ∧
    (OwnerPageOpen s h.val i → ((s.suite i).state ≠ .serving ∨ g.toNat / 256 ≠ i) → ∃ t, exec (.groupInvalidate h g) s = .next t ∧
      (t.suite i).groupResult = (if (s.suite i).state = .serving then 2 else 6) ∧ t.groups = s.groups ∧ t.ctxs = s.ctxs) ∧
    ((s.grp g.toNat).staged = none ∨ s.groupBusy g.toNat = true → exec (.stagedCommitApplied g) s = .next s) ∧
    (∀ e, (s.grp g.toNat).staged = some (.commit e) → s.groupBusy g.toNat = false → ∃ t, exec (.stagedCommitApplied g) s = .next t ∧
      t.grp g.toNat = { entry := some e } ∧ (∀ k, k ≠ g.toNat → t.grp k = s.grp k) ∧ t.ctxs = s.ctxs) ∧
    ((s.grp g.toNat).staged = some .invalidate → s.groupBusy g.toNat = false → ∃ t, exec (.stagedCommitApplied g) s = .next t ∧
      t.grp g.toNat = {} ∧ (∀ k, k ≠ g.toNat → t.grp k = s.grp k) ∧ t.ctxs = s.ctxs) ∧
    (∀ v : Word32, OwnerPageOpen s h.val i → bits v.toNat 11 0 / 256 = i → ∃ t, exec (.groupRead h v) s = .next t ∧
      (t.suite i).groupReadback = (if bit v.toNat 12 then
        (match (s.grp (bits v.toNat 11 0)).staged with | some (.commit e) => e | _ => [])
        else ((s.grp (bits v.toNat 11 0)).entry).getD []) ∧ t.groups = s.groups ∧ t.ctxs = s.ctxs) ∧
    (∀ v : Word32, OwnerPageOpen s h.val i → bits v.toNat 11 0 / 256 ≠ i → ∃ t, exec (.groupRead h v) s = .next t ∧
      (t.suite i).groupReadback = [] ∧ t.groups = s.groups ∧ t.ctxs = s.ctxs))

/-- R175, R176, R488: an allocation that passes its checks zeroes the first free block of the Bell area for its tenant; a block that the Suite holds
and on which nobody waits goes back, and its records with it. A Bell of another block keeps its value. R180, R203, R204, R489: a debug read reports
the Bell it names and changes no Bell, no context and no waiter; a debug clear clears the overflow bit of that record alone. -/
def Obligations.BellBlocksAndDebug : Prop :=
  (∀ (s : State) (h : Fin 16) (i : Nat), OwnerPageOpen s h.val i →
    (∀ (tn : BitVec 8) o, s.allocCheck i tn = none → s.blockOffsets.find? (fun o => (FMap.find s.cellar.blocks o).isNone) = some o →
      ∃ t, exec (.bellBlockAllocate h tn) s = .next t ∧ (t.suite i).bellResult = 0 ∧ (t.suite i).bellOffset = BitVec.ofNat 32 o ∧
        FMap.find t.cellar.blocks o = some ⟨i, tn⟩ ∧
        (∀ k, k < 256 → t.bell (o + 32 * k) = { tenant := tn, tenantValid := true }) ∧ t.cellar.mem = s.cellar.mem ∧ t.ctxs = s.ctxs) ∧
    (∀ (tn : BitVec 8) r, s.allocCheck i tn = some r → ∃ t, exec (.bellBlockAllocate h tn) s = .next t ∧ (t.suite i).bellResult = r ∧
      t.cellar = s.cellar) ∧
    (∀ (o : Word32) b, (s.suite i).state = .serving → FMap.find s.cellar.blocks o.toNat = some b → b.suite = i →
      (∀ k, k < 256 → (s.bell (o.toNat + 32 * k)).waiters = []) → ∃ t, exec (.bellBlockFree h o) s = .next t ∧
        (t.suite i).bellResult = 0 ∧ t.cellar.blocks = FMap.del s.cellar.blocks o.toNat ∧
        (∀ k, bellBlockOf k = o.toNat → t.bell k = {}) ∧ (∀ k, bellBlockOf k ≠ o.toNat → t.bell k = s.bell k) ∧ t.ctxs = s.ctxs) ∧
    (∀ (o : Word32), (s.suite i).state = .serving → FMap.find s.cellar.blocks o.toNat = none →
      ∃ t, exec (.bellBlockFree h o) s = .next t ∧ (t.suite i).bellResult = 5 ∧ t.cellar = s.cellar) ∧
    (∀ (o : Word32) b k, (s.suite i).state = .serving → FMap.find s.cellar.blocks o.toNat = some b → b.suite = i → k < 256 →
      (s.bell (o.toNat + 32 * k)).waiters ≠ [] →
      ∃ t, exec (.bellBlockFree h o) s = .next t ∧ (t.suite i).bellResult = 4 ∧ t.cellar = s.cellar) ∧
    (∀ (tn : BitVec 8), s.allocCheck i tn = none → s.blockOffsets.find? (fun o => (FMap.find s.cellar.blocks o).isNone) = none →
      ∃ t, exec (.bellBlockAllocate h tn) s = .next t ∧ (t.suite i).bellResult = 1 ∧ t.cellar = s.cellar)) ∧
  (∀ (s : State) (h : Fin 16) (i : Nat), OwnerPageOpen s h.val i →
    (∀ (v : Word64), s.suiteHasCtx i (bits v.toNat 7 0) = true → bit (bits v.toNat 23 8) 15 = false →
      bits (bits v.toNat 23 8) 5 0 < 48 → ∃ t, exec (.bellDebugSel h v) s = .next t ∧
        (let b := (s.ctx (bits v.toNat 7 0)).bell (bits (bits v.toNat 23 8) 5 0)
         (t.suite i).dbg.full = b.full ∧ (t.suite i).dbg.value = b.value ∧ (t.suite i).dbg.overflow = b.overflow) ∧
        (t.suite i).dbg.done = true ∧ (t.suite i).dbg.error = false ∧ t.ctxs = s.ctxs ∧ t.cellar = s.cellar) ∧
    (∀ (v : Word64), ∃ t, exec (.bellDebugSel h v) s = .next t ∧ (t.suite i).dbg.done = true ∧ t.ctxs = s.ctxs ∧ t.cellar = s.cellar) ∧
    (∀ o, s.debugTarget i = some o → ∃ t, exec (.bellDebugClear h) s = .next t ∧ t.bell o = { s.bell o with overflow := false } ∧
      (∀ k, k ≠ o → t.bell k = s.bell k) ∧ t.ctxs = s.ctxs ∧ t.cellar.mem = s.cellar.mem) ∧
    (s.debugTarget i = none → ∃ t, exec (.bellDebugClear h) s = .next t ∧ t.cellar = s.cellar ∧
      (t.suite i).dropped = satInc (s.suite i).dropped))

/-- R200, R201, R202, R490: a Suite that the detector finds stalled, and that has made no progress for the deadlock window, gets the wait graph of its
active contexts and the hall count, once until it makes progress; the report stays until it is cleared. A Suite that has not stood still for the
window is reported when the window is over. R149, R487: a quota of at most 256 contexts or groups is written for its tenant alone, and a larger value
keeps the one there is; it changes no limit in effect. R425, R492: a search for a record is done, and valid if the Suite has one at or above the
sequence asked for. -/
def Obligations.SuiteReportsAndQuotas : Prop :=
  (∀ (s : State),
    (∀ (i : Fin 16), s.isReady = true → s.suiteOn i.val = true → s.stalled i.val = true → (s.suite i.val).stallTold = false →
      (∃ t, exec (.stallDetected i) s = .next t ∧ (t.suite i.val).stallValid = true ∧ (t.suite i.val).stallHall = t.hall ∧
        (t.suite i.val).stallTold = true ∧ t.cellar = s.cellar) ∧
      ((s.suite i.val).progressAt.toNat + s.deadlockNs ≤ s.now →
        ∃ t, exec (.stallDetected i) s = .next t ∧ (t.suite i.val).stallHall = s.hall ∧
          (t.suite i.val).stallReport = s.waitGraph i.val ∧ t.ctxs = s.ctxs)) ∧
    (∀ (i : Fin 16), s.stalled i.val = false ∨ (s.suite i.val).stallTold = true → exec (.stallDetected i) s = .next s) ∧
    (∀ (h : Fin 16) i, OwnerPageOpen s h.val i → exec (.stallClear h) s =
      .next (s.putSuite i { s.suite i with stallValid := false, stallHall := 0, stallReport := [] }))) ∧
  (∀ (s : State) (h : Fin 16) (i : Nat), OwnerPageOpen s h.val i →
    (∀ (tn : BitVec 8) (v : Word32), ∃ t, exec (.quotaWrite h tn v) s = .next t ∧
      FMap.get 256 (t.suite i).quotaCtx tn.toNat =
        (if bits v.toNat 8 0 < 256 then bits v.toNat 8 0 else if bits v.toNat 8 0 = 256 then FMap.get 256 (FMap.del (s.suite i).quotaCtx tn.toNat) tn.toNat
         else FMap.get 256 (s.suite i).quotaCtx tn.toNat) ∧
      FMap.get 256 (t.suite i).quotaGrp tn.toNat =
        (if bits v.toNat 24 16 < 256 then bits v.toNat 24 16 else if bits v.toNat 24 16 = 256 then FMap.get 256 (FMap.del (s.suite i).quotaGrp tn.toNat) tn.toNat
         else FMap.get 256 (s.suite i).quotaGrp tn.toNat) ∧
      (∀ k, k ≠ tn.toNat → FMap.get 256 (t.suite i).quotaCtx k = FMap.get 256 (s.suite i).quotaCtx k) ∧
      (t.suite i).quotaCtxEff = (s.suite i).quotaCtxEff ∧ t.ctxs = s.ctxs ∧ t.cellar = s.cellar) ∧
    (∀ (v : Word32), ∃ t, exec (.recordSeq h v) s = .next t ∧ (t.suite i).recordDone = true ∧ (t.suite i).recordSeq = v ∧
      ((t.suite i).recordValid = true ↔ ∃ r ∈ s.log.all, s.log.atOrAbove v r.seq = true ∧ s.namesSuite i r = true) ∧
      t.log = s.log ∧ t.ctxs = s.ctxs ∧ t.cellar = s.cellar))

/-- R7, R10, R151, R494: a 32-bit write to a doorbell of a context page does what that doorbell does, and a write to a Card register sets the next
START's value and nothing else; a 64-bit write to the Card's base sets all of it, a low half is kept for the port and acts with the high half, and a
reserved word takes no write (R8). R9, R477: a 32-bit read of the hall counter's low half returns it and keeps the high half for the port, and a read
of a high half returns what that port kept last, though the counter has moved on. R7, R478: a write to an RL field changes no register but
ACCESS_STATUS, and is recorded. R398, R476: an access that no register takes is refused and counted. -/
def Obligations.Bar0Access : Prop :=
  (∀ (s : State) (h : Fin 16) (c : Fin 256) (i : Nat) (v : Word64), CtxPageOpen s h.val c.val i →
    let page := 0x100000 + 0x1000 * c.val
    let w : Word32 := BitVec.ofNat 32 (v.toNat % 2 ^ 32)
    exec (.registerWrite h page v false) s = exec (.start h c) s ∧
    exec (.registerWrite h (page + 0x004) v false) s = exec (.stop h c) s ∧
    exec (.registerWrite h (page + 0x008) v false) s = exec (.abort h c) s ∧
    exec (.registerWrite h (page + 0x00C) v false) s = exec (.bell h c w) s ∧
    exec (.registerWrite h (page + 0x010) v false) s = exec (.ringHead h c w) s ∧
    exec (.registerWrite h (page + 0x014) v false) s = exec (.histClear h c) s ∧
    exec (.registerWrite h (page + 0x050) v true) s = exec (.translation h c v) s ∧
    exec (.registerWrite h (page + 0xFFC) v false) s = .next s ∧
    ((s.ctx c.val).state ≠ .clearing →
      exec (.registerWrite h (page + 0x02C) v false) s = .next (s.putCtx c.val
        { s.ctx c.val with regs := { (s.ctx c.val).regs with len := bits (v.toNat % 2 ^ 32) 24 0 } }) ∧
      exec (.registerWrite h (page + 0x020) v true) s = .next (s.putCtx c.val
        { s.ctx c.val with regs := { (s.ctx c.val).regs with base := v } }) ∧
      exec (.registerWrite h (page + 0x020) v false) s = .next (s.putHost h.val
        { s.host h.val with writeLatch := FMap.put (s.host h.val).writeLatch (page + 0x020) w }) ∧
      (∀ lo, FMap.find (s.host h.val).writeLatch (page + 0x020) = some lo →
        exec (.registerWrite h (page + 0x024) v false) s = .next (s.putCtx c.val
          { s.ctx c.val with regs := { (s.ctx c.val).regs with base := w ++ lo } })))) ∧
  (∀ (s : State) (h : Fin 16), s.asleep = false → (s.host h.val).blocked = false → s.decodes h.val = true →
    (∃ t, exec (.lowHalfRead h 0x020) s = .next t ∧ (t.host h.val).cpl = .data (toLe 4 (s.hall.toNat % 2 ^ 32)) ∧
      (t.host h.val).readLatch = BitVec.ofNat 32 (s.hall.toNat / 2 ^ 32) ∧ t.ctxs = s.ctxs ∧ t.cellar = s.cellar) ∧
    (∃ t, exec (.lowHalfRead h 0x024) s = .next t ∧
      (t.host h.val).cpl = .data (toLe 4 (s.host h.val).readLatch.toNat) ∧ t.ctxs = s.ctxs ∧ t.cellar = s.cellar) ∧
    (∀ off r, s.accepted h.val off 4 = true → s.pageResets h.val off = false → s.reg h.val off = some r → r.wide = false →
      ∃ t, exec (.lowHalfRead h off) s = .next t ∧ (t.host h.val).cpl = .data (toLe 4 r.val) ∧
        (t.host h.val).readLatch = (s.host h.val).readLatch ∧ t.ctxs = s.ctxs ∧ t.cellar = s.cellar) ∧
    (∀ off, 0x200 ≤ off → off < 0x400 → off % 4 = 0 → ∃ t, exec (.rlFieldWrite h off) s = .next t ∧ t.hearth.rlSeen = true ∧
      t.hearth.rlOffset = BitVec.ofNat 21 off ∧ t.hearth.config = s.hearth.config ∧
      t.log = (s.logOccurrence ⟨0x0105, 0, 5, h.val, none, off, 0⟩).1 ∧ t.hosts = s.hosts ∧ t.ctxs = s.ctxs ∧ t.cellar = s.cellar) ∧
    (∀ off, isRl off = false → exec (.rlFieldWrite h off) s = .next s) ∧
    (∀ (wr at_ : Bool) off size, (at_ = true ∨ s.accepted h.val off size = false) →
      exec (.bar0UnsupportedAccess h wr off size at_) s = .next (s.putHost h.val { s.host h.val with
        bar0Unsupported := satInc (s.host h.val).bar0Unsupported, cpl := if wr then (s.host h.val).cpl else .ur })))

/-- R430, R434, R491: an echo request that can run is busy; one that cannot reports ABORTED, outcome 5; a busy echo drops a second request. When its
runs end it reports their outcome: PASS where the runs agree and an Ordered original had their digest, ABORTED where a chunk was lost, and where the
runs differ whether a cell failed its scan, with the place of the first difference (R433). -/
def Obligations.EchoChecks : Prop :=
  ∀ (s : State),
    (∀ (h : Fin 16) i, OwnerPageOpen s h.val i → (s.suite i).echo.busy = true → ∃ t, exec (.echoGo h) s = .next t ∧
      (t.suite i).echo = (s.suite i).echo ∧ (t.suite i).dropped = satInc (s.suite i).dropped) ∧
    (∀ (h : Fin 16) i, OwnerPageOpen s h.val i → (s.suite i).echo.busy = false →
      ∃ t, exec (.echoGo h) s = .next t ∧ (t.suite i).echo.idDone = (s.suite i).echo.id ∧
        ((t.suite i).echo.busy = s.echoCheck i (s.suite i).echo.ctx (s.suite i).echo.fig) ∧
        (s.echoCheck i (s.suite i).echo.ctx (s.suite i).echo.fig = false → (t.suite i).echo.outcome = 5) ∧ t.ctxs = s.ctxs) ∧
    (∀ (i : Fin 16), (s.suite i.val).echo.busy = true → ∃ t, exec (.echoPeerTimeout i) s = .next t ∧
      (t.suite i.val).echo.busy = false ∧ (t.suite i.val).echo.outcome = 5) ∧
    (∀ (i : Fin 16) d, (s.suite i.val).echo.busy = true → ∃ t, exec (.echoComplete i ⟨d, d, none, false⟩) s = .next t ∧
      (t.suite i.val).echo.busy = false ∧ (t.suite i.val).echo.run1 = d ∧ (t.suite i.val).echo.run2 = d ∧
      (t.suite i.val).echo.outcome = (if (s.suite i.val).echo.goOrdered = false then 1
        else if d.toNat % 2 ^ 32 = (s.suite i.val).echo.goDigest.toNat then 0 else 2) ∧ t.ctxs = s.ctxs) ∧
    (∀ (i : Fin 16) (r : EchoResult), (s.suite i.val).echo.busy = true → ∃ t, exec (.echoComplete i r) s = .next t ∧
      (t.suite i.val).echo.busy = false ∧
      (r.failed = true → (t.suite i.val).echo.outcome = 5) ∧
      (r.failed = false → r.diff = none → r.digest1 ≠ r.digest2 → (t.suite i.val).echo.outcome = 3) ∧
      (∀ d, r.failed = false → r.diff = some d → (t.suite i.val).echo.outcome = (if d.pass1 = true ∧ d.pass2 = true then 3 else 4) ∧
        (t.suite i.val).echo.diffEngine = d.engine ∧ (t.suite i.val).echo.diffChunk = d.chunk)) ∧
    (∀ (i : Fin 16) r, (s.suite i.val).echo.busy = false → exec (.echoComplete i r) s = .next s)

/-- R141, R463, R466, R493: SUITE_CMD's reset or power-down of a Serving Suite makes it Draining, with the service recorded as under way, and aborts
its contexts; it changes none that is idle, stopped or unassigned. One that does not meet the precondition is dropped and counted. R464, R466, R469,
R473, R512: a part whose drain's condition holds is reset: every byte of a cell group reads 0 and its extent is Free, a Suite is Resetting and its
contexts are Unassigned or in Clearing, a Caller's assigned contexts are in Clearing, a port is held down. When the reset completes a power-down
leaves the part out of service, and without one it is back: a Suite serves with every context Unassigned, a host port waits for its partner, a fabric
port trains. -/
def Obligations.SuiteAndCellService : Prop :=
  (∀ (s : State) (h : Fin 16) (i : Nat), OwnerPageOpen s h.val i → s.svcJob 8 i = none →
    ((s.suite i).state = .serving → s.suiteOn i = true →
      let quietSuite : Prop := (s.suite i).echo.busy = false ∧
        ∀ c ∈ s.suiteCtxs i, (s.ctx c).state = .idle ∨ (s.ctx c).state = .stopped ∨ (s.ctx c).state = .unassigned
      (∃ t, exec (.suiteReset h) s = .next t ∧ (t.suite i).state = .draining ∧ (quietSuite → t.ctxs = s.ctxs) ∧
        (∀ c ∈ s.suiteCtxs i, (t.ctx c).live = false) ∧
        t.svc.jobs = s.svc.jobs ++ [{ unitClass := 8, unitIndex := i, powerDown := false, since := s.hall }]) ∧
      (∃ t, exec (.suitePowerDown h) s = .next t ∧ (t.suite i).state = .draining ∧ (quietSuite → t.ctxs = s.ctxs) ∧
        (∀ c ∈ s.suiteCtxs i, (t.ctx c).live = false) ∧
        t.svc.jobs = s.svc.jobs ++ [{ unitClass := 8, unitIndex := i, powerDown := true, since := s.hall }])) ∧
    ((s.suite i).state ≠ .serving →
      (∃ t, exec (.suiteReset h) s = .next t ∧ (t.suite i).dropped = satInc (s.suite i).dropped ∧ t.svc = s.svc ∧ t.ctxs = s.ctxs) ∧
      (∃ t, exec (.suitePowerDown h) s = .next t ∧ (t.suite i).dropped = satInc (s.suite i).dropped ∧ t.svc = s.svc ∧ t.ctxs = s.ctxs))) ∧
  (∀ (s : State) (cls e : Nat) (j : SvcJob), cls ∈ allParts → s.svcJob cls e = some j →
    (j.phase ≠ .resetting → s.partDrained cls e = true →
      ∃ t, exec (.serviceDrainComplete cls e) s = .next t ∧
        t.svc.jobs = s.svc.jobs.map (fun x => if x = j then
          { j with phase := .resetting, powerDown := j.powerDown && decide (j.phase ≠ .drainRestart) } else x) ∧
        (cls = 2 → (s.ext e).state ≠ .quarantined → (t.ext e).state = .free ∧
          (∀ a, e * 0x200000 ≤ a → a < (e + 1) * 0x200000 → memRead 0 t.cellar.mem a = 0) ∧
          (∀ a, extentOf a ≠ e → memRead 0 t.cellar.mem a = memRead 0 s.cellar.mem a) ∧ t.ctxs = s.ctxs) ∧
        (cls = 3 → ∀ c ∈ callerCtxs e, (s.ctx c).asg.valid = true → (t.ctx c).state = .clearing) ∧
        (cls = 5 → (t.host e).state = .heldDown ∧ (t.host e).busMaster = false) ∧
        (cls = 6 → (t.port e).state = .heldDown ∧ (t.port e).replayBuf = []) ∧
        (cls = 8 → (t.suite e).state = .resetting ∧
          ∀ c ∈ s.suiteCtxs e, (t.ctx c).state = .clearing ∨ (t.ctx c).state = .unassigned)) ∧
    (j.phase ≠ .resetting → s.partDrained cls e = false → exec (.serviceDrainComplete cls e) s = .next s) ∧
    (j.phase = .resetting → ∃ t, exec (.serviceResetComplete cls e) s = .next t ∧
        t.svc.jobs = s.svc.jobs.filter (fun x => x != j) ∧
        (cls = 2 → (t.ext e).power = .off ∧ t.ctxs = s.ctxs) ∧
        (cls = 5 → j.powerDown = false → (5, e) ∉ s.svc.failed → s.outputsInert = false → (t.host e).state = .detect ∧ (t.host e).blocked = false) ∧
        (cls = 6 → j.powerDown = false → (6, e) ∉ s.svc.failed → s.outputsInert = false → (s.wired e).isSome = true →
          (t.port e).state = .training) ∧
        (cls = 8 → (∀ c ∈ s.suiteCtxs e, (t.ctx c).state = .unassigned ∧ (t.ctx c).asg.valid = false) ∧
          (j.powerDown = true → (t.suite e).state = .disabled) ∧
          (j.powerDown = false → (8, e) ∉ s.svc.failed → (t.suite e).state = .serving)) ∧
        (j.powerDown = true → (cls = 2 ∨ cls = 3 ∨ cls = 8) → (cls, e) ∈ t.svc.out) ∧
        (j.powerDown = false → (cls, e) ∉ t.svc.out)) ∧
    (j.phase ≠ .resetting → exec (.serviceResetComplete cls e) s = .next s))

/-- R390, R463, R464, R470, R515: SERVICE's six actions on a part that nothing else services and that meets the action's precondition: reset and
power-down of a cell group, Caller, host port, fabric port or Suite are ACCEPTED and begin its drain: a port is held down or takes no request, a
Suite is Draining, no context of a Caller runs. Enable returns a part that is out of service, behind a drain once it is over, and release a port that
is held down, a fabric port to Training and a host port to Detect; hold down holds a port that is in use down; retrain returns a Miswired one to
Training. A reset whose precondition does not hold is refused with the part's state (R513). -/
def Obligations.ServiceActionsOnPorts : Prop :=
  ∀ (s : State) (sess : Option Nat) (tag : BitVec 16) (cls idx : Nat),
    let pay (action : Nat) : List Byte := toLe 1 cls ++ toLe 1 action ++ toLe 2 0 ++ toLe 4 idx
    let n := s.partIndex cls idx
    MgmtReady s sess → cls ∈ allParts → idx < partCount cls → s.pendingUnit cls n = false →
    let begun (t : State) (down : Bool) : Prop := Answered t 0x28 tag 0x01 0 [] ∧
      (∃ j, t.svcJob cls n = some j ∧ j.phase = .draining ∧ j.powerDown = down) ∧
      (cls = 3 → ∀ c ∈ callerCtxs n, (t.ctx c).live = false) ∧ (cls = 5 → (t.host n).blocked = true) ∧
      (cls = 6 → (t.port n).state = .heldDown) ∧ (cls = 8 → (t.suite n).state = .draining)
    let back (t : State) : Prop := Answered t 0x28 tag 0x00 0 [] ∧ (cls, n) ∉ t.svc.out ∧ (cls = 5 → (t.host n).state = .detect) ∧
      (cls = 6 → (s.wired n).isSome = true → (t.port n).state = .training) ∧ (cls = 8 → (t.suite n).state = .serving)
    (s.svcJob cls n = none →
      (s.serviceable cls n false = true → ∃ t, exec (.serviceReset sess tag (pay 1)) s = .next t ∧ begun t false) ∧
      (s.serviceable cls n true = true → ∃ t, exec (.servicePowerDown sess tag (pay 2)) s = .next t ∧ begun t true) ∧
      (s.serviceable cls n false = false → ∃ t, exec (.serviceReset sess tag (pay 1)) s = .next t ∧
        Answered t 0x28 tag 0x21 (s.partState cls n) [] ∧ t.svc = s.svc ∧ t.ctxs = s.ctxs) ∧
      (s.partOn cls n = true → s.partIsOut cls n = true → (cls, n) ∉ s.svc.failed → s.outputsInert = false →
        (∃ t, exec (.serviceEnable sess tag (pay 3)) s = .next t ∧ back t) ∧
        ((cls = 5 ∨ cls = 6) → ∃ t, exec (.serviceRelease sess tag (pay 5)) s = .next t ∧ back t)) ∧
      ((cls = 5 ∨ cls = 6) → s.holdable cls n = true → ∃ t, exec (.serviceHoldDown sess tag (pay 4)) s = .next t ∧
        Answered t 0x28 tag 0x00 0 [] ∧ (cls = 5 → (t.host n).state = .heldDown) ∧ (cls = 6 → (t.port n).state = .heldDown)) ∧
      (cls = 6 → (s.port n).state = .miswired →
        ∃ t, exec (.serviceRetrain sess tag (pay 6)) s = .next t ∧
          (t.port n).state = .training ∧ Answered t 0x28 tag 0x00 0 [])) ∧
    (∀ j, s.svcJob cls n = some j → j.phase = .draining →
      ∃ t, exec (.serviceEnable sess tag (pay 3)) s = .next t ∧ Answered t 0x28 tag 0x01 0 [] ∧
        ∃ k, t.svcJob cls n = some k ∧ k.phase = .drainRestart)

/-- R366, R372, R391: a frame that the FEC could not correct is counted and discarded, with one NAK for the run of frames it begins; a frame out of
sequence is discarded the same way; an idle frame in order frees the frames it acknowledges and carries nothing else; another frame in order does so too, returns
credits (R279), has this end replay where it carries NAK, and has the effect of its twelve slots, in their order. R366, R368, R376: a control flit
in a frame does what the command of its type does, on the channel its type travels on; on another channel it is counted as bad and does nothing more
than return its credit. -/
def Obligations.FramesAndSlots : Prop :=
  (∀ (s : State) (p : Fin 36) (b : List Byte) (n : Nat), s.portUp p.val = true →
    (∃ t, exec (.frameReceived p b false n) s = .next t ∧ t = { s with ports := t.ports } ∧
      (t.port p.val).cnt.fecUncorrectable = satInc (s.port p.val).cnt.fecUncorrectable ∧ (t.port p.val).discarding = true ∧
      (t.port p.val).nak = ((s.port p.val).nak || !(s.port p.val).discarding) ∧ (t.port p.val).rxSeq = (s.port p.val).rxSeq ∧
      (∀ q, q ≠ p.val → t.port q = s.port q)) ∧
    (b.length = 832 → frameCheck b = true → bit (le b 4 1) 3 = false → BitVec.ofNat 16 (le b 0 2) ≠ (s.port p.val).rxSeq + 1 →
      ∃ t, exec (.frameReceived p b true n) s = .next t ∧ t = { s with ports := t.ports } ∧ (t.port p.val).discarding = true ∧
        (t.port p.val).rxSeq = (s.port p.val).rxSeq ∧ (t.port p.val).vc0 = (s.port p.val).vc0) ∧
    (b.length = 832 → frameCheck b = true → le b 4 1 = 8 → BitVec.ofNat 16 (le b 0 2) = (s.port p.val).rxSeq →
      ∃ t, exec (.frameReceived p b true n) s = .next t ∧ t = { s with ports := t.ports } ∧ (t.port p.val).discarding = false ∧
        (t.port p.val).replayBuf = (s.port p.val).replayBuf.filter (fun f => !seqAtOrBefore f.seq (BitVec.ofNat 16 (le b 2 2))) ∧
        (t.port p.val).cnt.framesReceived = (s.port p.val).cnt.framesReceived + 1 ∧ (∀ q, q ≠ p.val → t.port q = s.port q)) ∧
    (b.length = 832 → frameCheck b = true → bit (le b 4 1) 3 = false → BitVec.ofNat 16 (le b 0 2) = (s.port p.val).rxSeq + 1 →
      ∃ u : State, u = { s with ports := u.ports } ∧ (∀ q, q ≠ p.val → u.port q = s.port q) ∧ (u.port p.val).discarding = false ∧
        (u.port p.val).rxSeq = (s.port p.val).rxSeq + 1 ∧ (u.port p.val).cnt.framesReceived = (s.port p.val).cnt.framesReceived + 1 ∧
        (u.port p.val).replayBuf = (s.port p.val).replayBuf.filter (fun f => !seqAtOrBefore f.seq (BitVec.ofNat 16 (le b 2 2))) ∧
        (∀ v, v < 4 → (u.port p.val).credits.getD v 0 = (s.port p.val).credits.getD v 0 + le b 12 4 / 32 ^ v % 32) ∧
        exec (.frameReceived p b true n) s =
          .next ((frameSlots b).foldl (State.slotIn p) (if bit (le b 4 1) 0 then u.replay p.val else u)))) ∧
  (∀ (s : State) (p : Fin 36) (b : List Byte) (ok : Bool) (n : Nat), s.linkOn p.val = false → exec (.frameReceived p b ok n) s = .next s) ∧
  (∀ (s t : State) (p : Fin 36) (f : List Byte), s.portUp p.val = true →
    (le f 0 1 = 0x01 → exec (.retractMarker p f) s = .next t → State.slotIn p s (12, f) = t) ∧
    (le f 0 1 = 0x02 → exec (.remoteBellRing p f) s = .next t → State.slotIn p s (12, f) = t) ∧
    (le f 0 1 = 0x08 → exec (.chunkAck p f) s = .next t → State.slotIn p s (15, f) = t) ∧
    (le f 0 1 = 0x09 → exec (.resendRequest p f) s = .next t → State.slotIn p s (15, f) = t) ∧
    (le f 0 1 = 0x10 → exec (.barrierArrival p f) s = .next t → State.slotIn p s (13, f) = t) ∧
    (le f 0 1 = 0x11 → exec (.barrierRelease p f) s = .next t → State.slotIn p s (13, f) = t) ∧
    (le f 0 1 = 0x12 → exec (.peerAbort p f) s = .next t → State.slotIn p s (13, f) = t) ∧
    (le f 0 1 = 0x13 → exec (.syncExchange p f) s = .next t → State.slotIn p s (13, f) = t) ∧
    (le f 0 1 = 0x20 → exec (.censusQuery p f) s = .next t → State.slotIn p s (14, f) = t) ∧
    (le f 0 1 = 0x21 → exec (.censusCommitMessage p f) s = .next t → State.slotIn p s (14, f) = t) ∧
    (le f 0 1 = 0x22 → exec (.censusSeen p f) s = .next t → State.slotIn p s (14, f) = t) ∧
    (le f 0 1 = 0x23 → exec (.censusConcurrent p f) s = .next t → State.slotIn p s (14, f) = t) ∧
    (le f 0 1 = 0x26 → exec (.censusCommitDone p f) s = .next t → State.slotIn p s (14, f) = t) ∧
    (le f 0 1 = 0x10 → s.hearth.power ≠ .doze → ((State.slotIn p s (12, f)).port p.val).cnt.badControl = satInc (s.port p.val).cnt.badControl ∧
      State.slotIn p s (12, f) = { s with ports := (State.slotIn p s (12, f)).ports }) ∧
    (le f 0 1 = 0 → State.slotIn p s (12, f) = s))

/-- R372, R373, R375: when the acknowledgement has not advanced every unacknowledged frame goes again, in order; a frame replayed 4 times takes the
port Down. R380, R382, R383: a recalibration that is due runs with no traffic present, and is deferred and counted with traffic; after a second it
runs all the same; when the PLL has settled a RESYNC frame follows and the transmitter goes on, and a
context whose units a forced recalibration has held up counts it once (R324). -/
def Obligations.ReplayAndRecalibration : Prop :=
  (∀ (s : State) (p : Fin 36), s.portUp p.val = true → (s.port p.val).replayBuf ≠ [] →
    ((∀ f ∈ (s.port p.val).replayBuf, f.replays < 3) → (s.port p.val).replayHist.length < 1000 →
      ∃ t, exec (.replayTimeout p) s = .next t ∧ (t.port p.val).resend = (s.port p.val).replayBuf.map (fun f => f.seq) ∧
        (t.port p.val).cnt.replayTimeouts = satInc (s.port p.val).cnt.replayTimeouts ∧
        (t.port p.val).cnt.replays = satInc (s.port p.val).cnt.replays ∧ t.portUp p.val = true ∧
        (t.port p.val).replayBuf.map (fun f => f.bytes) = (s.port p.val).replayBuf.map (fun f => f.bytes) ∧ t.cellar = s.cellar) ∧
    ((∃ f ∈ (s.port p.val).replayBuf, 3 ≤ f.replays) → ∃ t, exec (.replayTimeout p) s = .next t ∧ (t.port p.val).state = .down ∧
      (t.port p.val).failedBefore = true)) ∧
  (∀ (s : State) (p : Fin 36), s.portUp p.val = true →
    ((s.port p.val).recalibrating = false → s.traffic p.val = false →
      exec (.recalibrationDue p) s = .next (s.putPort p.val { s.port p.val with
        recalibrating := true, pauseSent := false, recalDue := false
        cnt := { (s.port p.val).cnt with recalibrations := satInc (s.port p.val).cnt.recalibrations } })) ∧
    ((s.port p.val).recalibrating = false → s.traffic p.val = true → (s.port p.val).recalDue = false →
      exec (.recalibrationDue p) s = .next (s.putPort p.val { s.port p.val with
        recalDue := true
        cnt := { (s.port p.val).cnt with deferrals := satInc (s.port p.val).cnt.deferrals } })) ∧
    (((s.port p.val).recalibrating = true ∨ (s.traffic p.val = true ∧ (s.port p.val).recalDue = true)) →
      exec (.recalibrationDue p) s = .next s) ∧
    ((s.port p.val).recalDue = false → exec (.recalibrationForced p) s = .next s) ∧
    ((s.port p.val).recalDue = true → ∃ t, exec (.recalibrationForced p) s = .next t ∧ (t.port p.val).recalibrating = true ∧
      (t.port p.val).recalDue = false ∧ (t.port p.val).cnt.forced = satInc (s.port p.val).cnt.forced ∧ t.cellar = s.cellar) ∧
    ((s.port p.val).recalibrating = true → (s.port p.val).recalForced = false → exec (.pllSettled p) s = .next (s.putPort p.val
      { s.port p.val with recalibrating := false, recalForced := false, pauseSent := false, resync := true })) ∧
    ((s.port p.val).recalibrating = true → ∃ t, exec (.pllSettled p) s = .next t ∧
      t.port p.val = { s.port p.val with recalibrating := false, recalForced := false, pauseSent := false, resync := true } ∧
      (∀ c ∈ s.heldUpBy p.val, (s.port p.val).recalForced = true → (t.ctx c).timingDist = satInc (s.ctx c).timingDist) ∧ t.cellar = s.cellar) ∧
    ((s.port p.val).recalibrating = false → exec (.pllSettled p) s = .next s))

/-- R35, R388, R390: a failure that a carrying port meets takes it Down, with none of its frames, credits or queued flits left, and drops the chunks
that were arriving on it; a PLL or a RESYNC that comes too late does the same. A port that carries nothing is not touched. R28, R279, R377, R378,
R379, R389: a Down port trains again at its retry or at patterns from its far end, once links train and not during a live restart; a port that has trained with the
engine the wiring prescribes is Up, not in census, with the far end's credits; with another it is Miswired, and carries nothing; a failure, or
lanes that make up no width, leaves it Down, counted. The lanes are four, else 0 and 1, else 2 and 3. -/
def Obligations.LinkFailureAndTraining : Prop :=
  (∀ (s : State) (p : Fin 36),
    (s.portUp p.val = true → ∃ t, exec (.linkFailureDetected p) s = .next t ∧ (t.port p.val).state = .down ∧
      (t.port p.val).replayBuf = [] ∧ (∀ l ∈ t.lanes, l.port ≠ p.val) ∧
      (∀ o ∈ t.outs, o.port ≠ some p.val) ∧ t.hall = s.hall) ∧
    (s.portUp p.val = false → exec (.linkFailureDetected p) s = .next s) ∧
    (s.portUp p.val = true → (s.port p.val).recalibrating = true → exec (.pllSettleTimeout p) s = exec (.linkFailureDetected p) s) ∧
    ((s.port p.val).state = .training → ∃ t, exec (.pllSettleTimeout p) s = .next t ∧ (t.port p.val).state = .down ∧
      (t.port p.val).cnt.trainingFailures = satInc (s.port p.val).cnt.trainingFailures ∧ t.ctxs = s.ctxs) ∧
    ((s.port p.val).pauseSeen = true → exec (.resyncTimeout p) s = exec (.linkFailureDetected p) s) ∧
    ((s.port p.val).pauseSeen = false → exec (.resyncTimeout p) s = .next s)) ∧
  (∀ (s : State) (p : Fin 36),
    ((s.port p.val).state = .down → s.hearth.live = none → s.linksTrain = true →
      exec (.portRetryTimer p) s = exec (.trainingPatternDetected p) s ∧
      ∃ t, exec (.portRetryTimer p) s = .next t ∧ (t.port p.val).state = .training ∧
        (t.port p.val).cnt.retrains = satInc (s.port p.val).cnt.retrains ∧ (∀ q, q ≠ p.val → t.port q = s.port q) ∧
        t = { s with ports := t.ports }) ∧
    ((s.port p.val).state ≠ .down ∨ s.hearth.live.isSome = true ∨ s.linksTrain = false →
      exec (.portRetryTimer p) s = .next s ∧ exec (.trainingPatternDetected p) s = .next s) ∧
    (∀ hall eng fp mine far cr, (s.port p.val).state = .training →
      (∀ lanes, hall = s.hallId → s.wired p.val = some (BitVec.toNat eng, BitVec.toNat fp) → trainLanes mine far = some lanes →
        ∃ t, exec (.trainingComplete p (.ok hall eng fp mine far cr)) s = .next t ∧ (t.port p.val).state = .upNoCensus ∧
          (t.port p.val).lanes = lanes ∧ (t.port p.val).width = (if lanes = 0xF then 4 else 2) ∧ (t.port p.val).farEngine = eng ∧
          (t.port p.val).farPort = fp ∧ (t.port p.val).advertised = [1024, 32, 32, 32] ∧
          (t.port p.val).upTime = s.hall ∧ (∀ v, v < 4 → (t.port p.val).credits.getD v 0 = cr.getD v 0) ∧ t.ctxs = s.ctxs) ∧
      (hall = s.hallId → s.wired p.val = some (BitVec.toNat eng, BitVec.toNat fp) → trainLanes mine far = none →
        ∃ t, exec (.trainingComplete p (.ok hall eng fp mine far cr)) s = .next t ∧ (t.port p.val).state = .down ∧
          (t.port p.val).cnt.trainingFailures = satInc (s.port p.val).cnt.trainingFailures) ∧
      ((hall ≠ s.hallId ∨ s.wired p.val ≠ some (BitVec.toNat eng, BitVec.toNat fp)) →
        ∃ t, exec (.trainingComplete p (.ok hall eng fp mine far cr)) s = .next t ∧ (t.port p.val).state = .miswired ∧
          t.hearth.miswired = satInc s.hearth.miswired ∧ t.portUp p.val = false ∧ t.ctxs = s.ctxs)) ∧
    ((s.port p.val).state = .training → ∃ t, exec (.trainingComplete p .failed) s = .next t ∧ (t.port p.val).state = .down ∧
      (t.port p.val).cnt.trainingFailures = satInc (s.port p.val).cnt.trainingFailures))

/-- R85, R518, R519, R520, R522: a first query makes the engine join the census, with the query's port as its parent, and is forwarded on every other
port that was Up before the census; a repeat is answered with seen, another census's query during one with concurrent. R520, R521, R522: an answer
settles the port that was awaited, and the reply leaves when none is; a subtree reply adds its records; concurrent sets the flag; after 10 ms those
that have not answered are missing. R524: a commit from its parent moves the links of the census tree to Up at an engine that took part; the engine
answers upward, or waits for its children first. A total that comes up from a child joins its own. R85, R88, R369: before Ready a
census flit has no effect but on its port, in a live restart it is dropped and counted, and one that is not well formed is counted at its port. -/
def Obligations.CensusAndCommit : Prop :=
  (∀ (s : State) (p : Fin 36) (f : List Byte), s.portUp p.val = true → s.asleep = false → s.isReady = true → s.hearth.live = none →
    ctlOk 0x20 f = true → (s.port p.val).upTime.toNat < (flitEpoch f).toNat →
    ((s.census.took = false ∨ s.census.epoch ≠ flitEpoch f) → s.census.active = false → s.hearth.readyHall.toNat < (flitEpoch f).toNat →
      ∃ t, exec (.censusQuery p f) s = .next t ∧ t.census.took = true ∧ t.census.epoch = flitEpoch f ∧ t.census.parent = p.val ∧
        t.census.isOrigin = false ∧ t.census.waiting = (s.censusPorts (flitEpoch f)).filter (fun q => q != p.val) ∧
        t.census.active = !t.census.waiting.isEmpty ∧ t.ctxs = s.ctxs ∧ t.cellar = s.cellar ∧ t.hall = s.hall) ∧
    (s.census.took = true → s.census.epoch = flitEpoch f → ∃ t, exec (.censusQuery p f) s = .next t ∧
      p.val ∈ t.census.seenPorts ∧ t.census.waiting = s.census.waiting ∧
      (∃ x ∈ (t.port p.val).vc2, x.bytes = ctlFlit 0x22 s.engineId [(4, 8, (flitEpoch f).toNat)]) ∧ t.ctxs = s.ctxs) ∧
    (s.census.epoch ≠ flitEpoch f → s.census.active = true → ∃ t, exec (.censusQuery p f) s = .next t ∧ t.census = s.census ∧
      (∃ x ∈ (t.port p.val).vc2, x.bytes = ctlFlit 0x23 s.engineId [(4, 8, (flitEpoch f).toNat), (12, 8, s.census.epoch.toNat)]) ∧
      t.ctxs = s.ctxs)) ∧
  (∀ (s : State) (p : Fin 36), s.portUp p.val = true → s.asleep = false → s.isReady = true → s.hearth.live = none → s.census.active = true →
    (∀ f, ctlOk 0x22 f = true → flitEpoch f = s.census.epoch → p.val ∈ s.census.waiting → ∃ t, exec (.censusSeen p f) s = .next t ∧
      t.census.waiting = s.census.waiting.filter (fun q => q != p.val) ∧ t.census.active = !t.census.waiting.isEmpty ∧
      p.val ∈ t.census.seenPorts ∧ t.ctxs = s.ctxs ∧ t.cellar = s.cellar) ∧
    (∀ f, ctlOk 0x23 f = true → flitEpoch f = s.census.epoch → ∃ t, exec (.censusConcurrent p f) s = .next t ∧
      t.census = { s.census with concurrent := true } ∧ t.ctxs = s.ctxs ∧ t.cellar = s.cellar) ∧
    (∀ fs rs, replyRecords (flitEpoch (fs.headD [])) fs = some rs → flitEpoch (fs.headD []) = s.census.epoch → p.val ∈ s.census.waiting →
      ∃ t, exec (.censusSubtreeReply p fs) s = .next t ∧ t.census.records = s.census.records ++ rs ∧ p.val ∈ t.census.children ∧
        t.census.waiting = s.census.waiting.filter (fun q => q != p.val) ∧ t.census.active = !t.census.waiting.isEmpty ∧ t.ctxs = s.ctxs) ∧
    (s.census.waiting ≠ [] → ∃ t, exec .censusReplyTimeout s = .next t ∧ t.census.waiting = [] ∧ t.census.missing = true ∧
      t.census.active = false ∧ t.cellar = s.cellar)) ∧
  (∀ (s : State) (p : Fin 36) (f : List Byte), s.portUp p.val = true → s.asleep = false → s.isReady = true → s.hearth.live = none →
    (ctlOk 0x21 f = true → s.census.took = true → s.census.active = false → s.census.committing = false → s.census.isOrigin = false →
      flitEpoch f = s.census.epoch → s.census.parent = p.val → ∃ t, exec (.censusCommitMessage p f) s = .next t ∧
        (∀ q, (t.port q).state = (if s.commitsPort q then .up else (s.port q).state)) ∧
        t.census.commitWaiting = s.census.children.filter s.portUp ∧ t.census.commitCount = 1 ∧
        t.census.committing = !t.census.commitWaiting.isEmpty ∧ t.ctxs = s.ctxs ∧ t.cellar = s.cellar) ∧
    (ctlOk 0x26 f = true → s.census.committing = true → flitEpoch f = s.census.epoch → p.val ∈ s.census.commitWaiting →
      ∃ t, exec (.censusCommitDone p f) s = .next t ∧ t.census.commitCount = s.census.commitCount + le f 2 2 ∧
        t.census.commitWaiting = s.census.commitWaiting.filter (fun q => q != p.val) ∧
        t.census.committing = !t.census.commitWaiting.isEmpty ∧ t.ctxs = s.ctxs ∧ t.cellar = s.cellar)) ∧
  (∀ (s : State) (p : Fin 36) (f : List Byte), s.portUp p.val = true → s.asleep = false →
    let one (i : Instr) (type : Nat) : Prop :=
      (s.isReady = false → ∃ t, exec i s = .next t ∧ t = { s with ports := t.ports }) ∧
      (s.isReady = true → s.hearth.live.isSome = true → ∃ t, exec i s = .next t ∧
        t.hearth.censusDropped = satInc s.hearth.censusDropped ∧ t.census = s.census ∧ t.ctxs = s.ctxs) ∧
      (s.isReady = true → s.hearth.live = none → ctlOk type f = false → ∃ t, exec i s = .next t ∧ t = { s with ports := t.ports } ∧
        (t.port p.val).cnt.badControl = satInc (s.port p.val).cnt.badControl)
    one (.censusQuery p f) 0x20 ∧ one (.censusCommitMessage p f) 0x21 ∧ one (.censusSeen p f) 0x22 ∧ one (.censusConcurrent p f) 0x23 ∧
    one (.censusCommitDone p f) 0x26)

/-- R78, R425, R426, R510, R511, R513, R517: GET_STATUS answers its 48 bytes in any state, without a session too, with NO_RESOURCE once if events have
been lost; READ_RECORDS returns up to 64 records from the one asked for, and releases ALERT_N once every record that asserted it has been read; an
unknown code, or a length that does not fit, is BAD_COMMAND; a command from GRANT on is NOT_AUTHORISED without a session and NOT_READY before Ready.
-/
def Obligations.StatusRecordsAndRefusals : Prop :=
  ∀ (s : State) (sess : Option Nat) (tag : BitVec 16), s.mgmtOn = true →
    (s.inHostSession sess = false → ∃ t b, exec (.getStatus sess tag []) s = .next t ∧
      Answered t 0x01 tag (if s.mgmt.lostSince then 0x22 else 0x00) 0 b ∧ b.length = 48 ∧ le b 0 1 = s.hearth.startup.code ∧
      le b 3 1 = s.wd.state.code ∧ le b 4 1 = s.halt.state.code ∧ le b 12 2 = s.hallId.toNat ∧ le b 20 8 = s.hearth.mapDigest.toNat ∧
      le b 28 8 = s.hearth.configDigest.toNat ∧ le b 36 8 = s.hall.toNat ∧ le b 44 4 = s.mgmt.lost.toNat ∧ t.mgmt.lostSince = false ∧
      t.mgmt.queue = s.mgmt.queue ∧ t.hearth = s.hearth ∧ t.ctxs = s.ctxs ∧ t.cellar = s.cellar) ∧
    (∀ p : List Byte, s.fmSession sess = true → p.length = 8 → 1 ≤ le p 4 1 → le p 4 1 ≤ 64 → allZero p 5 3 = true →
      let rs := s.log.read (BitVec.ofNat 32 (le p 0 4)) (le p 4 1)
      ∃ t, exec (.readRecords sess tag p) s = .next t ∧ Answered t 0x02 tag 0 rs.length (rs.flatMap ErrRec.bytes) ∧ rs.length ≤ 64 ∧
        (∀ q, q ∈ t.log.unread ↔ q ∈ s.log.unread ∧ ∀ r ∈ rs, r.seq ≠ q) ∧
        (t.hearth.alert = true ↔ s.hearth.alert = true ∧ t.log.unread ≠ []) ∧ t.log.ring = s.log.ring ∧ t.log.attic = s.log.attic ∧
        t.ctxs = s.ctxs ∧ t.cellar = s.cellar) ∧
    (∀ (code : BitVec 16) n, lengthFits code.toNat n = none → exec (.badCommand sess tag code n) s =
      .next { s with mgmt := { s.mgmt with response := some ⟨code.toNat, tag, 0x10, BitVec.ofNat 32 code.toNat, []⟩ } }) ∧
    (∀ (code : BitVec 16) n, lengthFits code.toNat n = some false → s.fmSession sess = true → s.isReady = true →
      ∃ t, exec (.badCommand sess tag code n) s = .next t ∧ Answered t code.toNat tag 0x10 code.toNat [] ∧ t.ctxs = s.ctxs ∧
        t.cellar = s.cellar) ∧
    (∀ p, s.fmSession sess = false →
      (∃ t, exec (.grant sess tag p) s = .next t ∧ Answered t 0x10 tag 0x12 0 [] ∧ t.cellar = s.cellar) ∧
      (∃ t, exec (.keyLoad sess tag p) s = .next t ∧ Answered t 0x20 tag 0x12 0 [] ∧ t.cellar = s.cellar) ∧
      (∃ t, exec (.scan sess tag p) s = .next t ∧ Answered t 0x30 tag 0x12 0 [] ∧ t.svc = s.svc) ∧
      (∃ t, exec (.censusStart sess tag p) s = .next t ∧ Answered t 0x40 tag 0x12 0 [] ∧ t.census = s.census)) ∧
    (∀ p, s.fmSession sess = true → s.isReady = false →
      (∃ t, exec (.grant sess tag p) s = .next t ∧ Answered t 0x10 tag 0x13 s.hearth.startup.code [] ∧ t.cellar = s.cellar) ∧
      (∃ t, exec (.censusStart sess tag p) s = .next t ∧ Answered t 0x40 tag 0x13 s.hearth.startup.code [] ∧ t.census = s.census))

/-- R58, R70, R72, R86, R87, R89, R90, R427, R515: an image write that is in order is accepted into the slot that does not run, refused for the one that
does, and told BUSY while the flash is written; WARM_RESET resets the engine; without firmware the boot ROM takes both without a session. A live restart
of a locked engine stops the firmware and closes its sessions, and ends in the new image or the one before; a second one is refused, and one onto a slot
that is being written is told BUSY. A minimum security version only rises and a revoke bit is only set; a clock reference replaces the one before. -/
def Obligations.ImagesFusesAndClock : Prop :=
  (∀ (s : State) (sess : Option Nat) (tag : BitVec 16) (p : List Byte), s.mgmtOn = true →
    (s.fmSession sess = true ∨ (s.recovery = true ∧ s.inHostSession sess = false)) →
    (9 ≤ p.length → p.length ≤ 4096 → le p 0 1 ≤ 1 → allZero p 1 3 = true → le p 4 4 % 8 = 0 →
      le p 4 4 + (p.length - 8) ≤ 0x400000 →
      (s.runsFrom (le p 0 1 == 1) = false → s.flashBusy = false → ∃ t, exec (.imageWrite sess tag p) s = .next t ∧
        Answered t 0x03 tag 0x01 0 [] ∧ t.mgmt.flashWrite = some (le p 0 1 * 0x400000 + le p 4 4, p.drop 8) ∧ t.flash = s.flash) ∧
      (s.runsFrom (le p 0 1 == 1) = false → s.flashBusy = true → ∃ t, exec (.imageWrite sess tag p) s = .next t ∧
        Answered t 0x03 tag 0x20 0x0A000000 [] ∧ t.mgmt.flashWrite = s.mgmt.flashWrite ∧ t.flash = s.flash) ∧
      (s.runsFrom (le p 0 1 == 1) = true → ∃ t, exec (.imageWrite sess tag p) s = .next t ∧
        Answered t 0x03 tag 0x21 s.hearth.startup.code [] ∧ t.mgmt.flashWrite = s.mgmt.flashWrite ∧ t.flash = s.flash)) ∧
    (p.length = 0 → ∃ t, exec (.warmReset sess tag p) s = .next t ∧ Answered t 0x04 tag 0 0 [] ∧ t.hearth.startup = .reset ∧
      t.hearth.bootReason = .management ∧ t.flash = s.flash ∧ t.fuses = s.fuses ∧ t.ctxs = [] ∧ t.cellar = {} ∧
      t.log.ring.length = s.log.ring.length ∧ t.log.attic = s.log.attic)) ∧
  (∀ (s : State) (sess : Option Nat) (tag : BitVec 16) (p : List Byte), s.mgmtOn = true → s.fmSession sess = true →
    (p.length = 4 → le p 0 1 ≤ 1 → allZero p 1 3 = true →
      (s.writingSlot (le p 0 1 == 1) = false → s.hearth.locked = true →
        digest8 (s.imgConfig (le p 0 1 == 1)) = s.hearth.configDigest → ∃ t, exec (.liveRestart sess tag p) s = .next t ∧
        Answered t 0x05 tag 0x01 0 [] ∧ t.hearth = { s.hearth with live := some ⟨le p 0 1 == 1, tag⟩ } ∧ t.mgmt.sessions = [] ∧
        t.ctxs = s.ctxs ∧ t.cellar = s.cellar ∧ t.hosts = s.hosts ∧ t.ports = s.ports) ∧
      (s.writingSlot (le p 0 1 == 1) = true → ∃ t, exec (.liveRestart sess tag p) s = .next t ∧
        Answered t 0x05 tag 0x20 0x0A000000 [] ∧ t.hearth = s.hearth) ∧
      (s.writingSlot (le p 0 1 == 1) = false → (s.hearth.locked = false ∨ digest8 (s.imgConfig (le p 0 1 == 1)) ≠ s.hearth.configDigest) →
        ∃ t, exec (.liveRestart sess tag p) s = .next t ∧ Answered t 0x05 tag 0x21 s.hearth.startup.code [] ∧ t.hearth = s.hearth)) ∧
    (p.length = 8 → le p 0 1 = 1 → le p 1 1 = 0 → allZero p 2 2 = true → ∃ t, exec (.fuseRaiseMinVersion sess tag p) s = .next t ∧
      Answered t 0x06 tag 0 0 [] ∧ t.fuses = { s.fuses with minSecurity := t.fuses.minSecurity } ∧
      t.fuses.minSecurity.toNat = max s.fuses.minSecurity.toNat (le p 4 4) ∧ t.flash = s.flash ∧ t.hearth = s.hearth) ∧
    (p.length = 8 → le p 0 1 = 2 → le p 1 1 ≤ 1 → allZero p 2 2 = true → allZero p 4 4 = true →
      ∃ t, exec (.fuseRevokeKey sess tag p) s = .next t ∧ Answered t 0x06 tag 0 0 [] ∧
        t.fuses = { s.fuses with revoked0 := s.fuses.revoked0 || le p 1 1 == 0, revoked1 := s.fuses.revoked1 || le p 1 1 == 1 } ∧
        t.flash = s.flash ∧ t.hearth = s.hearth) ∧
    (p.length = 16 → ∃ t, exec (.setWallclock sess tag p) s = .next t ∧ Answered t 0x07 tag 0 0 [] ∧
      t.hearth = { s.hearth with wallclock := some (BitVec.ofNat 64 (le p 0 8), BitVec.ofNat 64 (le p 8 8)) } ∧ t.ctxs = s.ctxs ∧
      t.cellar = s.cellar)) ∧
  (∀ (s : State) (mib : Option Nat) (ok : Bool),
    (∀ l, s.hearth.live = some l →
      (s.imageCheck l.slotB mib ok = none → ∃ t, exec (.liveRestartComplete mib ok) s = .next t ∧ t.hearth.live = none ∧
        t.hearth.imageB = l.slotB ∧ t.hearth.config = s.hearth.config ∧ t.wd.checked = s.wd.checked ||| 0x9F ∧ t.ctxs = s.ctxs ∧
        t.cellar = s.cellar ∧ t.hosts = s.hosts) ∧
      (∀ code, s.imageCheck l.slotB mib ok = some code → ∃ t, exec (.liveRestartComplete mib ok) s = .next t ∧ t.hearth.live = none ∧
        t.hearth.imageB = s.hearth.imageB ∧ t.hearth.fwVersion = s.hearth.fwVersion ∧ t.ctxs = s.ctxs ∧ t.cellar = s.cellar) ∧
      (s.hearth.smbusOn = true → ∀ sess tag p, ∃ t, exec (.liveRestart sess tag p) s = .next t ∧
        Answered t 0x05 tag 0x21 s.hearth.startup.code [] ∧ t.hearth = s.hearth)) ∧
    (s.hearth.live = none → exec (.liveRestartComplete mib ok) s = .next s))

/-- R439, R440, R441, R515: a part of a pack that continues what has arrived is kept; the last one is checked, and accepted or refused with the step
it failed; one that comes while a scan runs the pack of its ID is accepted and waits for it, and one that finds the flash busy is told so. A write that
completes puts an image's bytes where they belong, into a sector erased before if they begin it, and changes no other byte; a pack that passes is
written beside the copy in use and takes its place, one that fails changes nothing. -/
def Obligations.FlashWrites : Prop :=
  ∀ (s : State),
    (∀ (sess : Option Nat) (tag : BitVec 16) (p : List Byte), MgmtReady s sess → 9 ≤ p.length → p.length ≤ 4096 →
      1 ≤ le p 0 1 → le p 0 1 ≤ 4 → le p 1 1 ≤ 1 → allZero p 2 2 = true → (le p 4 4 = 0 ∨ le p 4 4 = (s.packSoFar (le p 0 1)).length) →
      le p 4 4 + (p.length - 8) ≤ 0x100000 →
      let b := (if le p 4 4 = 0 then [] else s.packSoFar (le p 0 1)) ++ p.drop 8
      (s.pendingUnit 0x0A (le p 0 1) = true ∨ (le p 1 1 = 1 ∧ s.flashBusy = true) → ∃ t, exec (.packPush sess tag p) s = .next t ∧
        Answered t 0x31 tag 0x20 0x0A000000 [] ∧ t.flash = s.flash ∧ t.mgmt.packWriting = s.mgmt.packWriting) ∧
      (le p 1 1 = 0 → s.pendingUnit 0x0A (le p 0 1) = false → ∃ t, exec (.packPush sess tag p) s = .next t ∧
        Answered t 0x31 tag 0 0 [] ∧ t.packSoFar (le p 0 1) = b ∧ t.flash = s.flash ∧ t.mgmt.packWriting = s.mgmt.packWriting) ∧
      (le p 1 1 = 1 → s.pendingUnit 0x0A (le p 0 1) = false → s.flashBusy = false →
        (s.packScans (le p 0 1) = true ∨ s.packCheck (le p 0 1) b = none → ∃ t, exec (.packPush sess tag p) s = .next t ∧
          Answered t 0x31 tag 0x01 0 [] ∧ t.mgmt.packWriting = some (le p 0 1) ∧ t.packSoFar (le p 0 1) = b ∧ t.flash = s.flash) ∧
        (∀ step, s.packScans (le p 0 1) = false → s.packCheck (le p 0 1) b = some step → ∃ t, exec (.packPush sess tag p) s = .next t ∧
          Answered t 0x31 tag 0x26 step [] ∧ t.flash = s.flash ∧ t.mgmt.packWriting = s.mgmt.packWriting))) ∧
    (Memory.wf Config.erasedByte s.flash.mem = true → ∀ off b, s.mgmt.flashWrite = some (off, b) →
      ∃ t, exec .flashWriteComplete s = .next t ∧ t.mgmt.flashWrite = none ∧ t.ctxs = s.ctxs ∧ t.cellar = s.cellar ∧
        (∀ a, memRead Config.erasedByte t.flash.mem a = if off ≤ a ∧ a < off + b.length then byteAt b (a - off)
          else if off % 0x10000 = 0 ∧ off ≤ a ∧ a < off + 0x10000 then Config.erasedByte else memRead Config.erasedByte s.flash.mem a)) ∧
    (∀ id, s.mgmt.flashWrite = none → s.mgmt.packWriting = some id → s.packScans id = false →
      let b := s.packSoFar id
      (s.packCheck id b = none → ∃ t, exec .flashWriteComplete s = .next t ∧ t.mgmt.packWriting = none ∧
        FMap.find t.flash.packMin id = some (le b 8 4) ∧ FMap.find t.flash.packCopy id = some (1 - s.packCopy id) ∧
        t.flash.mem = memPut Config.erasedByte s.flash.mem (0x01010000 + (2 * (id - 1) + (1 - s.packCopy id)) * 0x100000) b) ∧
      (∀ step, s.packCheck id b = some step → ∃ t, exec .flashWriteComplete s = .next t ∧ t.mgmt.packWriting = none ∧
        t.flash = s.flash)) ∧
    (∀ id, s.mgmt.flashWrite = none → s.mgmt.packWriting = some id → s.packScans id = true → exec .flashWriteComplete s = .next s) ∧
    (s.mgmt.flashWrite = none → s.mgmt.packWriting = none → exec .flashWriteComplete s = .next s)

/-- R47, R48, R50, R452, R461, R549, R515: POWER moves a Ready engine with nothing granted, no region and no assigned context toward Banked, names
what keeps it from that, starts it up again from Scrubbing, and sets and clears the hold; RESUME resumes a halt whose inputs, watchdog and die allow
it, clears a clean fence, and else tells why not; from Halted at start it goes on to Training. -/
def Obligations.PowerAndResume : Prop :=
  ∀ (s : State) (sess : Option Nat) (tag : BitVec 16), s.mgmtOn = true → s.fmSession sess = true →
    (∀ p : List Byte, p.length = 4 → allZero p 1 3 = true →
      (le p 0 1 = 1 → s.isReady = true → s.bankBlocker = none → ∃ t, exec (.powerBank sess tag p) s = .next t ∧
        Answered t 0x08 tag 0x01 0 [] ∧ t.hearth = { s.hearth with power := .banking } ∧ t.cellar = s.cellar ∧ t.ctxs = s.ctxs) ∧
      (∀ d, le p 0 1 = 1 → s.isReady = true → s.bankBlocker = some d → ∃ t, exec (.powerBank sess tag p) s = .next t ∧
        Answered t 0x08 tag 0x20 d [] ∧ t.hearth = s.hearth) ∧
      (le p 0 1 = 1 → s.isReady = false → ∃ t, exec (.powerBank sess tag p) s = .next t ∧
        Answered t 0x08 tag 0x21 (if s.hearth.startup = .ready then s.hearth.power.code else s.hearth.startup.code) [] ∧
        t.hearth = s.hearth) ∧
      (le p 0 1 = 2 → s.hearth.power = .banked → ∃ t, exec (.powerUnbank sess tag p) s = .next t ∧ Answered t 0x08 tag 0x01 0 [] ∧
        t.hearth = { s.hearth with power := .active, startup := .scrubbing, exempt56 := true } ∧
        (t.halt.atStart = true ↔ s.halt.atStart = true ∨ s.halt.state ≠ .running) ∧ t.halt.state = s.halt.state) ∧
      (le p 0 1 = 2 → s.hearth.power ≠ .banked → ∃ t, exec (.powerUnbank sess tag p) s = .next t ∧
        Answered t 0x08 tag 0x21 s.hearth.power.code [] ∧ t.hearth = s.hearth) ∧
      (le p 0 1 = 3 → ∃ t, exec (.powerHoldOn sess tag p) s = .next t ∧ Answered t 0x08 tag 0 0 [] ∧
        t.hearth = { s.hearth with mgmtHold := true, power := if s.hearth.power = .doze then .dozeWaking else s.hearth.power }) ∧
      (le p 0 1 = 4 → ∃ t, exec (.powerHoldOff sess tag p) s = .next t ∧ Answered t 0x08 tag 0 0 [] ∧
        t.hearth = { s.hearth with mgmtHold := false })) ∧
    (s.isReady = true →
      (s.halt.state = .halted → s.halt.assertedA = false → s.halt.assertedB = false → s.wd.state ≠ .fenced →
        (s.thermal.thermalHalt = false ∨ s.thermal.tj < 380) → ∃ t, exec (.resume sess tag []) s = .next t ∧
        Answered t 0x32 tag 0x01 0 [] ∧ t.halt.state = .resuming ∧ t.wd.state = (if s.wd.state = .fencedClean then .armed else s.wd.state) ∧
        t.thermal.thermalHalt = false ∧ t.hearth.startup = s.hearth.startup) ∧
      (s.halt.state = .running → s.wd.state = .fencedClean → ∃ t, exec (.resume sess tag []) s = .next t ∧
        Answered t 0x32 tag 0 0 [] ∧ t.wd.state = .armed) ∧
      (s.resumable = false → ¬ (s.halt.state = .running ∧ s.wd.state = .fencedClean) → ∃ t, exec (.resume sess tag []) s = .next t ∧
        Answered t 0x32 tag 0x21 (s.halt.state.code + s.wd.state.code * 2 ^ 8 + s.hearth.startup.code * 2 ^ 16 +
          (if s.halt.state = .halted ∧ s.thermal.thermalHalt = true ∧ 380 ≤ s.thermal.tj then 2 ^ 24 else 0)) [] ∧
        t.halt = s.halt ∧ t.wd = s.wd)) ∧
    (s.hearth.startup = .haltedAtStart → s.resumable = true → ∃ t, exec (.resume sess tag []) s = .next t ∧ Answered t 0x32 tag 0x01 0 [] ∧
      t.hearth.startup = .training ∧ t.halt.state = .resuming ∧ t.halt.atStart = false) ∧
    (s.isReady = false → s.hearth.startup ≠ .haltedAtStart → ∃ t, exec (.resume sess tag []) s = .next t ∧
      Answered t 0x32 tag 0x13 s.hearth.startup.code [] ∧ t.halt = s.halt ∧ t.wd = s.wd)

/-- R37, R156, R391, R515: ABORT_CONTEXTS stops, with the reason abort, every running context of its mask that has nothing in flight, and no other
context changes; a Figure in flight there completes with 0x40. CLEAR_COUNTERS zeroes the counters of one port. R518, R522, R524: CENSUS_START begins a
census whose epoch is the hall count, unless one runs here; CENSUS_READ returns the records of the one that this engine began last, none while it runs;
a commit that R524 does not allow is refused, and while one is under way a second is told so. -/
def Obligations.AbortsCountersAndCensus : Prop :=
  ∀ (s : State) (sess : Option Nat) (tag : BitVec 16) (p : List Byte), MgmtReady s sess →
    (p.length = 32 → ∃ t, exec (.abortContexts sess tag p) s = .next t ∧ Answered t 0x29 tag 0 0 [] ∧
      (∀ c, (c < 256 → bit (le p (c / 8) 1) (c % 8) = false) → t.ctx c = s.ctx c)) ∧
    (p.length = 32 → (∀ c, c < 256 → bit (le p (c / 8) 1) (c % 8) = true → (s.ctx c).flights = []) →
      ∃ t, exec (.abortContexts sess tag p) s = .next t ∧ Answered t 0x29 tag 0 0 [] ∧ t.cellar = s.cellar ∧
        (∀ c, c < 256 → bit (le p (c / 8) 1) (c % 8) = true → (s.ctx c).latched = none →
          ((s.ctx c).state = .running ∨ (s.ctx c).state = .waiting) → (t.ctx c).state = .stopped ∧ (t.ctx c).stopReason = .abort) ∧
        (∀ c, (c < 256 → bit (le p (c / 8) 1) (c % 8) = false) → t.ctx c = s.ctx c)) ∧
    (∀ c f, p.length = 32 → c < 256 → (∀ d, d < 256 → (bit (le p (d / 8) 1) (d % 8) = true ↔ d = c)) → (s.ctx c).flights = [f] →
      (s.ctx c).live = true → (s.ctx c).latched = none → s.ringRoom c = true →
      ∃ t, exec (.abortContexts sess tag p) s = .next t ∧ Answered t 0x29 tag 0 0 [] ∧ (t.ctx c).flights = [] ∧
        (t.ctx c).lastStatus = 0x40 ∧ (t.ctx c).state = .stopped ∧ (t.ctx c).stopReason = .abort) ∧
    (p.length = 4 → le p 0 1 < 36 → allZero p 1 3 = true → s.svcJob 6 (le p 0 1) = none → s.pendingUnit 6 (le p 0 1) = false →
      ∃ t, exec (.clearCounters sess tag p) s = .next t ∧ Answered t 0x2A tag 0 0 [] ∧
        t.port (le p 0 1) = { s.port (le p 0 1) with cnt := {} } ∧ (∀ q, q ≠ le p 0 1 → t.port q = s.port q) ∧ t.ctxs = s.ctxs) ∧
    (p.length = 4 → le p 0 1 < 36 → allZero p 1 3 = true → (s.svcJob 6 (le p 0 1) ≠ none ∨ s.pendingUnit 6 (le p 0 1) = true) →
      ∃ t, exec (.clearCounters sess tag p) s = .next t ∧ Answered t 0x2A tag 0x20 (0x06000000 + le p 0 1) [] ∧ t.ports = s.ports) ∧
    (p.length = 0 → s.census.active = false → ∃ t, exec (.censusStart sess tag p) s = .next t ∧
      Answered t 0x40 tag 0 0 (toLe 8 s.hall.toNat) ∧ t.census.epoch = s.hall ∧ t.census.isOrigin = true ∧ t.census.took = true ∧
      (t.census.active = false ↔ s.censusPorts s.hall = [])) ∧
    (p.length = 0 → s.census.active = true → ∃ t, exec (.censusStart sess tag p) s = .next t ∧
      Answered t 0x40 tag 0x20 (0x0D000000 + s.engineId) [] ∧ t.census = s.census) ∧
    (p.length = 12 → allZero p 10 2 = true → s.census.done = true → s.census.resultEpoch = BitVec.ofNat 64 (le p 0 8) →
      let out := (s.census.result.drop (le p 8 2)).take 23
      ∃ t, exec (.censusRead sess tag p) s = .next t ∧ Answered t 0x41 tag 0 out.length (toLe 2 s.census.result.length ++
        toLe 1 ((if s.census.flag then 1 else 0) + 2) ++ toLe 1 0 ++ out.flatMap (fun r => r.bytes)) ∧ t.census = s.census) ∧
    (p.length = 12 → allZero p 10 2 = true → ¬ (s.census.done = true ∧ s.census.resultEpoch = BitVec.ofNat 64 (le p 0 8)) →
      (s.census.active = true ∧ s.census.isOrigin = true ∧ s.census.epoch = BitVec.ofNat 64 (le p 0 8) →
        ∃ t, exec (.censusRead sess tag p) s = .next t ∧ Answered t 0x41 tag 0 0 (toLe 2 0 ++ toLe 1 0 ++ toLe 1 0) ∧ t.census = s.census) ∧
      (¬ (s.census.active = true ∧ s.census.isOrigin = true ∧ s.census.epoch = BitVec.ofNat 64 (le p 0 8)) →
        ∃ t, exec (.censusRead sess tag p) s = .next t ∧ Answered t 0x41 tag 0x11 8 [] ∧ t.census = s.census)) ∧
    (p.length = 8 → s.census.committing = true → ∃ t, exec (.censusCommit sess tag p) s = .next t ∧
      Answered t 0x42 tag 0x20 (0x0D000000 + s.engineId) [] ∧ t.census = s.census ∧ t.ports = s.ports) ∧
    (p.length = 8 → s.census.committing = false → s.commitAllowed (BitVec.ofNat 64 (le p 0 8)) = true →
      ∃ t, exec (.censusCommit sess tag p) s = .next t ∧ Answered t 0x42 tag 0x01 0 [] ∧
        (∀ q, (s.port q).state = .upNoCensus → (s.port q).upTime.toNat < s.census.epoch.toNat → q ∉ s.census.dropped →
          (q ∈ s.census.children ∨ q ∈ s.census.seenPorts) → (t.port q).state = .up)) ∧
    (p.length = 8 → s.census.committing = false → s.commitAllowed (BitVec.ofNat 64 (le p 0 8)) = false →
      ∃ t, exec (.censusCommit sess tag p) s = .next t ∧
        Answered t 0x42 tag 0x21 ((if s.census.flag then 1 else 0) + (if s.census.done then 2 else 0)) [] ∧ t.census = s.census ∧
        t.ports = s.ports)

/-- R140, R333, R348, R349, R353, R512: a grant to a host with a session and a key, within its Suite's ceiling and the free extents that floors leave,
takes the lowest-numbered Free extents, which are Granting for that host, and changes no other; one that fails a check takes none. A release reclaims
the extents that it names, or none. Where accesses wait at the Cellar's cells, those go on with a scrub that begins (R330, R353), so that what else
stays is stated where none waits. -/
def Obligations.GrantsAndReleases : Prop :=
  ∀ (s : State) (sess : Option Nat) (tag : BitVec 16) (p : List Byte), MgmtReady s sess →
    (p.length = 8 → s.hostExists (le p 0 1) = true → allZero p 1 1 = true → 1 ≤ le p 2 2 → le p 2 2 ≤ 800 → le p 4 2 ≤ 3600 →
      allZero p 6 2 = true →
      let h := le p 0 1
      let es := s.freeExts.take (le p 2 2)
      (∀ ses i key, s.hostSessionOf h = some ses → s.suiteOfPort h = some i → FMap.find s.cellar.keys h = some key →
        s.suiteHeld i + le p 2 2 ≤ s.suiteCfg i 8 2 → le p 2 2 ≤ s.grantable (some i) →
        ∃ t, exec (.grant sess tag p) s = .next t ∧ Answered t 0x10 tag 0x01 0 (toLe 2 es.length ++ toLe 2 0 ++ es.flatMap (fun e => toLe 2 e)) ∧
          (CellsQuiet s → (∀ e ∈ es, (t.ext e).state = .granting ∧ (t.ext e).owner = .host h ∧ (t.ext e).identity = ses.identity ∧
            (t.ext e).leaseS = (if le p 4 2 = 0 then s.defaultLease else le p 4 2)) ∧
          (∀ e, e ∉ es → t.ext e = s.ext e) ∧ t.cellar.mem = s.cellar.mem ∧ t.ctxs = s.ctxs)) ∧
      (∀ i, s.hostSessionOf h = none → s.suiteOfPort h = some i → ∃ t, exec (.grant sess tag p) s = .next t ∧ Answered t 0x10 tag 0x27 h [] ∧
        t.cellar = s.cellar) ∧
      (∀ ses i, s.hostSessionOf h = some ses → s.suiteOfPort h = some i → FMap.find s.cellar.keys h = none →
        ∃ t, exec (.grant sess tag p) s = .next t ∧ Answered t 0x10 tag 0x25 h [] ∧ t.cellar = s.cellar) ∧
      (∀ ses i key, s.hostSessionOf h = some ses → s.suiteOfPort h = some i → FMap.find s.cellar.keys h = some key →
        (s.suiteCfg i 8 2 < s.suiteHeld i + le p 2 2 → ∃ t, exec (.grant sess tag p) s = .next t ∧ Answered t 0x10 tag 0x23 i [] ∧
          t.cellar = s.cellar) ∧
        (s.suiteHeld i + le p 2 2 ≤ s.suiteCfg i 8 2 → s.grantable (some i) < le p 2 2 → ∃ t, exec (.grant sess tag p) s = .next t ∧
          Answered t 0x10 tag 0x22 0 [] ∧ t.cellar = s.cellar))) ∧
    (p.length = 4 + 2 * le p 0 2 → 1 ≤ le p 0 2 → le p 0 2 ≤ 800 → allZero p 2 2 = true → (∀ e ∈ releaseList p, e < 800) →
      ((∀ e ∈ releaseList p, s.releaseCheck e = none) → ∃ t, exec (.release sess tag p) s = .next t ∧ Answered t 0x11 tag 0x01 0 [] ∧
        (CellsQuiet s → (∀ e ∈ releaseList p, (t.ext e).state = .reclaiming ∧ (t.ext e).cause = 2 ∧
          ∀ k slot, FMap.find (t.host k).window slot ≠ some e) ∧ (∀ e, e ∉ releaseList p → t.ext e = s.ext e))) ∧
      (∀ st d, (releaseList p).findSome? s.releaseCheck = some (st, d) → ∃ t, exec (.release sess tag p) s = .next t ∧
        Answered t 0x11 tag st d [] ∧ t.cellar = s.cellar))

/-- R332, R334, R351, R397, R515: MAP puts an extent that is Granted to the host, or to a region that gives it a right, into an empty slot, and UNMAP
empties one that maps; neither changes another slot, another host or an extent. An extent with a command pending or in service is told BUSY. RENEW
sets the time that the next lease tick applies, to an extent that a host holds or a region whose lease has not ended; READ_EXTENT returns its 60
bytes. -/
def Obligations.WindowMapsAndRenewals : Prop :=
  ∀ (s : State) (sess : Option Nat) (tag : BitVec 16) (p : List Byte), MgmtReady s sess →
    (p.length = 8 → bits (le p 0 2) 14 10 = 0 → s.hostExists (le p 2 1) = true → allZero p 3 1 = true → allZero p 6 2 = true →
      let h := le p 2 1
      let slot := bits (le p 0 2) 9 0
      let e := le p 4 2
      (bit (le p 0 2) 15 = false → e < 800 → (s.pendingUnit 2 e = true ∨ s.extRegionPending e = true ∨ s.extBusy e = true) →
        ∃ t, exec (.map sess tag p) s = .next t ∧ Answered t 0x12 tag 0x20 (0x02000000 + e) [] ∧ t.hosts = s.hosts ∧ t.cellar = s.cellar) ∧
      (bit (le p 0 2) 15 = false → e < 800 → s.pendingUnit 2 e = false → s.extRegionPending e = false → s.extBusy e = false →
        (FMap.find (s.host h).window slot = none → s.mappable h e = true → ∃ t, exec (.map sess tag p) s = .next t ∧
          Answered t 0x12 tag 0 0 [] ∧ FMap.find (t.host h).window slot = some e ∧
          (∀ k, k ≠ slot → FMap.find (t.host h).window k = FMap.find (s.host h).window k) ∧ (∀ k, k ≠ h → t.host k = s.host k) ∧
          t.cellar = s.cellar ∧ t.ctxs = s.ctxs) ∧
        (∀ x, FMap.find (s.host h).window slot = some x → ∃ t, exec (.map sess tag p) s = .next t ∧ Answered t 0x12 tag 0x24 slot [] ∧
          t.hosts = s.hosts ∧ t.cellar = s.cellar) ∧
        (FMap.find (s.host h).window slot = none → s.mappable h e = false → ∃ t, exec (.map sess tag p) s = .next t ∧
          Answered t 0x12 tag 0x21 (s.extCode e) [] ∧ t.hosts = s.hosts ∧ t.cellar = s.cellar)) ∧
      (bit (le p 0 2) 15 = true → e = 0 →
        (∀ x, FMap.find (s.host h).window slot = some x → ∃ t, exec (.unmap sess tag p) s = .next t ∧ Answered t 0x12 tag 0 0 [] ∧
          (t.host h).window = FMap.del (s.host h).window slot ∧ (∀ k, k ≠ h → t.host k = s.host k) ∧ t.cellar = s.cellar ∧ t.ctxs = s.ctxs) ∧
        (FMap.find (s.host h).window slot = none → ∃ t, exec (.unmap sess tag p) s = .next t ∧ Answered t 0x12 tag 0x21 0 [] ∧
          t.hosts = s.hosts ∧ t.cellar = s.cellar))) ∧
    (p.length = 8 → allZero p 1 1 = true → allZero p 6 2 = true →
      (le p 0 1 = 0 → le p 2 2 < 800 → s.releaseCheck (le p 2 2) = none → ∃ t, exec (.renew sess tag p) s = .next t ∧
        Answered t 0x13 tag 0 0 [] ∧ (∀ k, k ≠ le p 2 2 → t.ext k = s.ext k) ∧ t.ext (le p 2 2) = { s.ext (le p 2 2) with
          renewMs := some (1000 * (if le p 4 2 = 0 then (s.ext (le p 2 2)).leaseS else min (le p 4 2) (s.ext (le p 2 2)).leaseS)) }) ∧
      (∀ st d, le p 0 1 = 0 → le p 2 2 < 800 → s.releaseCheck (le p 2 2) = some (st, d) → ∃ t, exec (.renew sess tag p) s = .next t ∧
        Answered t 0x13 tag st d [] ∧ t.cellar = s.cellar) ∧
      (le p 0 1 = 1 → le p 2 2 < 48 → s.pendingRegion (le p 2 2) = false →
        (∀ x, FMap.find s.cellar.regions (le p 2 2) = some x → x.due = true) → ∃ t, exec (.renew sess tag p) s = .next t ∧
        Answered t 0x13 tag 0x21 0 [] ∧ t.cellar = s.cellar) ∧
      (∀ x, le p 0 1 = 1 → le p 2 2 < 48 → s.pendingRegion (le p 2 2) = false → FMap.find s.cellar.regions (le p 2 2) = some x →
        x.due = false → ∃ t, exec (.renew sess tag p) s = .next t ∧ Answered t 0x13 tag 0 0 [] ∧ t.cellar.extents = s.cellar.extents ∧
          FMap.find t.cellar.regions (le p 2 2) =
            some { x with renewMs := some (1000 * (if le p 4 2 = 0 then x.leaseS else min (le p 4 2) x.leaseS)) })) ∧
    (p.length = 4 → le p 0 2 < 800 → allZero p 2 2 = true → ∃ t b, exec (.readExtent sess tag p) s = .next t ∧ Answered t 0x14 tag 0 0 b ∧
      b.length = 60 ∧ t.cellar = s.cellar ∧ t.ctxs = s.ctxs ∧ (le p 0 2 ∈ s.hearth.disabledMap → le b 0 1 = 7) ∧
      (le p 0 2 ∉ s.hearth.disabledMap → le b 0 1 = (s.ext (le p 0 2)).state.code ∧ le b 5 1 = (if (s.ext (le p 0 2)).quarantine then 1 else 0)))

/-- R226, R341, R342, R344, R345, R347, R348, R354, R515: a region with a key takes Free extents from the shared pool; its rights wait for the next
lease tick; deleting it reclaims its extents at once. A key is loaded or erased only while its host or region holds no extent, and a key whose halves
are equal is refused. A token bucket waits for the next tick, a Suite's weight for each port's next round. -/
def Obligations.RegionsKeysAndBandwidth : Prop :=
  ∀ (s : State) (sess : Option Nat) (tag : BitVec 16) (p : List Byte), MgmtReady s sess →
    (∀ key, p.length = 8 → le p 0 1 < 48 → allZero p 1 1 = true → 1 ≤ le p 2 2 → le p 2 2 ≤ 512 → le p 4 2 ≤ 3600 → allZero p 6 2 = true →
      s.pendingRegion (le p 0 1) = false → FMap.find s.cellar.regions (le p 0 1) = none →
      FMap.find s.cellar.keys (16 + le p 0 1) = some key → le p 2 2 ≤ s.grantable none →
      let es := s.freeExts.take (le p 2 2)
      ∃ t, exec (.regionCreate sess tag p) s = .next t ∧
        Answered t 0x18 tag 0x01 0 (toLe 2 es.length ++ toLe 2 0 ++ es.flatMap (fun e => toLe 2 e)) ∧
        (CellsQuiet s → (∀ e ∈ es, (t.ext e).state = .granting ∧ (t.ext e).owner = .region (le p 0 1)) ∧
          (∀ e, e ∉ es → t.ext e = s.ext e)) ∧
        (∃ r, FMap.find t.cellar.regions (le p 0 1) = some r ∧ r.extents = es ∧ r.hosts = [] ∧ r.tenants = [])) ∧
    (p.length = 8 → le p 0 1 < 48 → allZero p 1 1 = true → 1 ≤ le p 2 2 → le p 2 2 ≤ 512 → le p 4 2 ≤ 3600 → allZero p 6 2 = true →
      s.pendingRegion (le p 0 1) = false → FMap.find s.cellar.regions (le p 0 1) = none →
      FMap.find s.cellar.keys (16 + le p 0 1) = none →
      ∃ t, exec (.regionCreate sess tag p) s = .next t ∧ Answered t 0x18 tag 0x25 (16 + le p 0 1) [] ∧ t.cellar = s.cellar) ∧
    (∀ x, p.length = 52 → le p 0 1 < 48 → le p 1 1 ≤ 16 → le p 2 1 ≤ 16 → allZero p 3 1 = true → (∀ f ∈ rightsFields p, f.1 = false) →
      s.pendingRegion (le p 0 1) = false → FMap.find s.cellar.regions (le p 0 1) = some x →
      ∃ t, exec (.regionRights sess tag p) s = .next t ∧ Answered t 0x19 tag 0 0 [] ∧
        FMap.find t.cellar.regions (le p 0 1) = some { x with staged := some (rightsOf p) } ∧
        (∀ k, k ≠ le p 0 1 → FMap.find t.cellar.regions k = FMap.find s.cellar.regions k) ∧ t.cellar.extents = s.cellar.extents) ∧
    (∀ x, p.length = 4 → le p 0 1 < 48 → allZero p 1 3 = true → s.pendingRegion (le p 0 1) = false →
      FMap.find s.cellar.regions (le p 0 1) = some x → ∃ t, exec (.regionDelete sess tag p) s = .next t ∧ Answered t 0x1A tag 0x01 0 [] ∧
        (CellsQuiet s → t.cellar.regions = FMap.del s.cellar.regions (le p 0 1) ∧
          (∀ e ∈ x.extents, (t.ext e).state = .reclaiming ∧ (t.ext e).cause = 3) ∧ (∀ e, e ∉ x.extents → t.ext e = s.ext e))) ∧
    (p.length = 4 → le p 0 1 < 48 → allZero p 1 3 = true → s.pendingRegion (le p 0 1) = false → FMap.find s.cellar.regions (le p 0 1) = none →
      ∃ t, exec (.regionDelete sess tag p) s = .next t ∧ Answered t 0x1A tag 0x21 0 [] ∧ t.cellar = s.cellar) ∧
    (p.length = 68 → le p 0 1 < 64 → allZero p 1 3 = true →
      (slice p 4 32 ≠ slice p 36 32 → s.keyInUse (le p 0 1) = false → ∃ t, exec (.keyLoad sess tag p) s = .next t ∧ Answered t 0x20 tag 0 0 [] ∧
        FMap.find t.cellar.keys (le p 0 1) = some (slice p 4 64) ∧
        (∀ k, k ≠ le p 0 1 → FMap.find t.cellar.keys k = FMap.find s.cellar.keys k) ∧ t.cellar.extents = s.cellar.extents) ∧
      (slice p 4 32 = slice p 36 32 ∨ s.keyInUse (le p 0 1) = true → ∃ t, exec (.keyLoad sess tag p) s = .next t ∧
        Answered t 0x20 tag 0x25 (le p 0 1) [] ∧ t.cellar = s.cellar)) ∧
    (p.length = 4 → le p 0 1 < 64 → allZero p 1 3 = true → s.keyInUse (le p 0 1) = true →
      ∃ t, exec (.keyErase sess tag p) s = .next t ∧ Answered t 0x21 tag 0x25 (le p 0 1) [] ∧ t.cellar = s.cellar) ∧
    (p.length = 4 → le p 0 1 < 64 → allZero p 1 3 = true → s.keyInUse (le p 0 1) = false →
      ∃ t, exec (.keyErase sess tag p) s = .next t ∧ Answered t 0x21 tag 0 0 [] ∧ t.cellar.keys = FMap.del s.cellar.keys (le p 0 1) ∧
        t.cellar.extents = s.cellar.extents) ∧
    (p.length = 8 → s.hostExists (le p 0 1) = true → allZero p 1 1 = true → le p 2 2 ≤ 4095 → 64 ≤ le p 4 2 → allZero p 6 2 = true →
      s.svcJob 5 (le p 0 1) = none → s.pendingUnit 5 (le p 0 1) = false → ∃ t, exec (.tokenBucket sess tag p) s = .next t ∧
        Answered t 0x24 tag 0 0 [] ∧ t.host (le p 0 1) = { s.host (le p 0 1) with stagedBucket := some (le p 2 2, le p 4 2) } ∧
        (∀ k, k ≠ le p 0 1 → t.host k = s.host k) ∧ t.cellar = s.cellar) ∧
    (p.length = 4 → le p 0 1 < 16 → 1 ≤ le p 1 1 → allZero p 2 2 = true → s.svcJob 8 (le p 0 1) = none →
      s.pendingUnit 8 (le p 0 1) = false → ∃ t, exec (.suiteWeight sess tag p) s = .next t ∧ Answered t 0x25 tag 0 0 [] ∧
        t.suite (le p 0 1) = { s.suite (le p 0 1) with weight := some (le p 1 1) } ∧ (∀ k, k ≠ le p 0 1 → t.suite k = s.suite k) ∧
        t.ports = s.ports)

/-- R435, R436, R442, R515: a scan of cell groups, Callers, host ports or fabric ports that are in the states it needs, and for whose staging enough Free
extents stand by, is accepted while its pack passes; a unit in another state refuses the whole scan, and one in service or with a command pending is told
BUSY. A unit that passes returns and the scan goes on to its next; one that fails stays out of service. The scan's end completes its command. -/
def Obligations.Scans : Prop :=
  ∀ (s : State),
    (∀ (sess : Option Nat) (tag : BitVec 16) (p : List Byte), MgmtReady s sess → 1 ≤ le p 1 1 → le p 1 1 ≤ 32 → p.length = 4 + 2 * le p 1 1 →
      allZero p 2 2 = true → (le p 0 1 = 2 ∨ le p 0 1 = 3 ∨ le p 0 1 = 5 ∨ le p 0 1 = 6) →
      (∀ i, i < le p 1 1 → le p (4 + 2 * i) 2 < partCount (le p 0 1)) →
      let cls := le p 0 1
      let units := ((List.range (le p 1 1)).map (fun i => s.partIndex cls (le p (4 + 2 * i) 2))).eraseDups
      (∀ u, units.find? (fun u => (s.svcJob cls u).isSome || s.pendingUnit cls u) = some u → ∃ t, exec (.scan sess tag p) s = .next t ∧
        Answered t 0x30 tag 0x20 (unitDetail cls u) [] ∧ t.svc.scans = s.svc.scans ∧ t.ctxs = s.ctxs) ∧
      ((∀ u ∈ units, s.svcJob cls u = none ∧ s.pendingUnit cls u = false) →
        (∀ u, units.find? (fun u => !s.scannable cls u) = some u → ∃ t, exec (.scan sess tag p) s = .next t ∧
          Answered t 0x30 tag 0x21 (s.partState cls u) [] ∧ t.svc = s.svc ∧ t.ctxs = s.ctxs) ∧
        ((∀ u ∈ units, s.scannable cls u = true) → s.spareExts units < (s.stagingUnits cls units).length → ∃ t,
          exec (.scan sess tag p) s = .next t ∧ Answered t 0x30 tag 0x21 5 [] ∧ t.svc = s.svc ∧ t.ctxs = s.ctxs) ∧
        ((∀ u ∈ units, s.scannable cls u = true) → (s.stagingUnits cls units).length ≤ s.spareExts units →
          (∀ step, s.packForScan (packOf cls) = .inr step → ∃ t, exec (.scan sess tag p) s = .next t ∧ Answered t 0x30 tag 0x26 step [] ∧
            t.svc = s.svc ∧ t.ctxs = s.ctxs) ∧
          (∀ copy, s.packForScan (packOf cls) = .inl copy → ∃ t, exec (.scan sess tag p) s = .next t ∧ Answered t 0x30 tag 0x01 0 [] ∧
            (s.stagingUnits cls units = [] → t.ctxs = s.ctxs ∧ t.cellar = s.cellar ∧ ∃ j, t.svc.scans.getLast? = some j ∧
              j.unitClass = cls ∧ j.units = units ∧ j.tag = tag ∧ j.copy = copy))))) ∧
    (∀ j idx rest, s.svc.scans = [j] → j.units = idx :: rest → (j.unitClass = 2 → CellsQuiet s ∧ ∀ x ∈ s.cellar.replacing, x.1 ≠ idx) →
      let left : List ScanJob := if rest = [] then [] else [{ j with units := rest }]
      (∃ t, exec (.scanComplete j.unitClass idx false) s = .next t ∧ t.svc.scans = left ∧ t.svc.failed = s.svc.failed ++ [(j.unitClass, idx)] ∧
        (j.unitClass ≠ 2 → t.log = (s.logOccurrence ⟨0x0902, 3, j.unitClass, idx, none, j.copy, 0⟩).1) ∧
        (j.unitClass = 2 → (t.ext idx).state = .quarantined ∧ idx ∈ t.flash.retireList) ∧
        (j.unitClass = 5 ∨ j.unitClass = 6 → (t.host idx).state = (s.host idx).state ∧ (t.port idx).state = (s.port idx).state)) ∧
      (∃ t, exec (.scanComplete j.unitClass idx true) s = .next t ∧ t.svc.scans = left ∧ t.svc.failed = s.svc.failed ∧
        t.log = (s.logOccurrence ⟨0x0902, 0, j.unitClass, idx, none, j.copy, 0⟩).1 ∧
        (j.unitClass = 5 ∨ j.unitClass = 6 → t.hosts = s.hosts ∧ t.ports = s.ports ∧ t.ctxs = s.ctxs) ∧
        (j.unitClass = 3 → (∀ c ∈ callerCtxs idx, (s.ctx c).latched = none ∧ (s.ctx c).heldStart = none) → t.ctxs = s.ctxs) ∧
        (j.unitClass = 2 → (s.ext idx).state = .free → j.replacements = [] → t.ext idx = { corrected := (s.ext idx).corrected }))) ∧
    (∀ cls idx pass, (∀ j ∈ s.svc.scans, j.unitClass = cls → j.units.head? ≠ some idx) →
      exec (.scanComplete cls idx pass) s = .next s) ∧
    (∀ idx pass, (∃ x ∈ s.cellar.replacing, x.1 = idx) → exec (.scanComplete 2 idx pass) s = .next s)

/-- R501, R502, R504, R505: the MCTP control messages set and return the endpoint ID and the message types of an engine whose responder runs; a lost
arbitration waits to retry, at most three times within 35 ms, and is then abandoned and counted, its event queued again; a clock held low resets the
interface, counted. R506, R507, R508, R509, R517: an engine whose firmware runs returns its measurements, 3 and 4 of them the SHA-384 of the locked
configuration and of the disabled-unit map, its certificate chains and its answer to a challenge; a fabric manager that authenticates gets a session,
with the events that were queued, and a third is told Busy; a host that authenticates on a Serving function gets one session; a heartbeat counts as
traffic; a session without any for 30 s ends. None of it changes what runs. -/
def Obligations.TransportAndSessions : Prop :=
  (∀ (s : State),
    (s.mgmtOn = true →
      (∀ eid, exec (.setEndpointId eid) s = .next { s with mgmt := { s.mgmt with eid := eid, reply := .ok } }) ∧
      exec .getEndpointId s = .next { s with mgmt := { s.mgmt with reply := .eid s.mgmt.eid } } ∧
      exec .getMessageTypeSupport s = .next { s with mgmt := { s.mgmt with reply := .bytes [0x00, 0x05, 0x06] } } ∧
      ∃ b, exec .getMctpVersionSupport s = .next { s with mgmt := { s.mgmt with reply := .bytes b } }) ∧
    (∀ ev, s.mgmt.smbusEvent = some ev → s.mgmt.smbusWaiting = false →
      (s.mgmt.smbusRetries < 3 → (s.hall - s.mgmt.smbusFirst).toNat ≤ 35000000 →
        exec .smbusArbitrationLost s = .next { s with mgmt := { s.mgmt with smbusWaiting := true } }) ∧
      (3 ≤ s.mgmt.smbusRetries ∨ 35000000 < (s.hall - s.mgmt.smbusFirst).toNat → ∃ t, exec .smbusArbitrationLost s = .next t ∧
        t.mgmt.smbusEvent = none ∧ t.mgmt.smbusAbandoned = satInc s.mgmt.smbusAbandoned ∧
        (s.mgmt.queue.length < 256 → t.mgmt.queue = s.mgmt.queue ++ [ev]) ∧
        (256 ≤ s.mgmt.queue.length → t.mgmt.queue = s.mgmt.queue ∧ t.mgmt.lost = satInc s.mgmt.lost) ∧ t = { s with mgmt := t.mgmt })) ∧
    (s.mgmt.smbusEvent = none ∨ s.mgmt.smbusWaiting = true → exec .smbusArbitrationLost s = .next s) ∧
    (s.mgmt.smbusWaiting = true → (s.hall - s.mgmt.smbusFirst).toNat ≤ 35000000 → exec .smbusRetry s =
      .next { s with mgmt := { s.mgmt with smbusWaiting := false, smbusRetries := s.mgmt.smbusRetries + 1 } }) ∧
    (∀ ev, s.mgmt.smbusWaiting = true → s.mgmt.smbusEvent = some ev → 35000000 < (s.hall - s.mgmt.smbusFirst).toNat →
      ∃ t, exec .smbusRetry s = .next t ∧ t.mgmt.smbusEvent = none ∧ t.mgmt.smbusAbandoned = satInc s.mgmt.smbusAbandoned ∧
        t = { s with mgmt := t.mgmt }) ∧
    (s.mgmt.smbusWaiting = false → exec .smbusRetry s = .next s) ∧
    (s.hearth.smbusOn = true → exec .smbusSclTimeout s =
      .next { s with mgmt := { s.mgmt with smbusResets := satInc s.mgmt.smbusResets } }) ∧
    (s.hearth.smbusOn = false → exec .smbusSclTimeout s = .next s)) ∧
  (∀ (s : State), s.spdmOn = true →
    (∀ sess n b, s.measurement n = some b → ∃ t, exec (.getMeasurements sess n) s = .next t ∧
      (n = 3 → b = idBytes (BitVec.ofNat 384 (sha384Nat s.hearth.config))) ∧
      (n = 4 → b = idBytes (BitVec.ofNat 384 (sha384Nat (mapBytes s.hearth.disabledMap)))) ∧
      (∃ sig, t.mgmt.reply = .bytes (b ++ sig)) ∧ t = { s with mgmt := t.mgmt }) ∧
    (∀ n, (1 ≤ n ∧ n ≤ 6 ↔ ∃ b, s.measurement n = some b)) ∧
    (∀ sess n, s.measurement n = none → ∃ t, exec (.getMeasurements sess n) s = .next t ∧ t.mgmt.reply = .error ∧ t = { s with mgmt := t.mgmt }) ∧
    (∀ slot, slot < 2 → (∃ t b, exec (.getCertificate slot) s = .next t ∧ t.mgmt.reply = .bytes b ∧ s.chain slot = some b ∧
        t = { s with mgmt := t.mgmt }) ∧
      (∀ nonce, ∃ t b, exec (.challenge slot nonce) s = .next t ∧ t.mgmt.reply = .bytes b ∧ t = { s with mgmt := t.mgmt })) ∧
    (∀ slot, 2 ≤ slot → (∃ t, exec (.getCertificate slot) s = .next t ∧ t.mgmt.reply = .error ∧ t = { s with mgmt := t.mgmt }) ∧
      (∀ nonce, ∃ t, exec (.challenge slot nonce) s = .next t ∧ t.mgmt.reply = .error ∧ t = { s with mgmt := t.mgmt })) ∧
    (∀ ident, s.mgmt.fmCount < 2 → ∃ t, exec (.keyExchange ⟨none, true, true, ident⟩) s = .next t ∧
      t.mgmt.sessions = s.mgmt.sessions ++ [⟨s.mgmt.nextSession, none, ident, s.hall⟩] ∧ t.mgmt.queue = [] ∧
      t.mgmt.sent = s.mgmt.sent ++ s.mgmt.queue ∧ t.fmSession (some s.mgmt.nextSession) = true ∧ t = { s with mgmt := t.mgmt }) ∧
    (∀ root auth ident, 2 ≤ s.mgmt.fmCount → ∃ t, exec (.keyExchange ⟨none, auth, root, ident⟩) s = .next t ∧ t.mgmt.reply = .busy ∧
      t.mgmt.sessions = s.mgmt.sessions) ∧
    (∀ root auth ident, (root && auth) = false → s.mgmt.fmCount < 2 → ∃ t, exec (.keyExchange ⟨none, auth, root, ident⟩) s = .next t ∧
      t.mgmt.reply = .error ∧ t.mgmt.sessions = s.mgmt.sessions) ∧
    (∀ x ∈ s.mgmt.sessions, ∃ t, exec (.heartbeat x.id) s = .next t ∧ t.mgmt.reply = .ok ∧ { x with lastTraffic := s.hall } ∈ t.mgmt.sessions ∧
      t = { s with mgmt := t.mgmt }) ∧
    (∀ n, (∀ x ∈ s.mgmt.sessions, x.id ≠ n) → ∃ t, exec (.heartbeat n) s = .next t ∧ t.mgmt.reply = .error ∧ t = { s with mgmt := t.mgmt })) ∧
  (∀ (s : State) (h : Fin 16) (ident : BitVec 384) (root : Bool), s.hostServing h.val = true → (s.host h.val).blocked = false → s.hearth.live = none →
    ((∀ x ∈ s.mgmt.sessions, x.host ≠ some h.val) → ∃ t, exec (.keyExchange ⟨some h, true, root, ident⟩) s = .next t ∧
      t.mgmt.reply = .session s.mgmt.nextSession ∧ t.mgmt.sessions = s.mgmt.sessions ++ [⟨s.mgmt.nextSession, some h.val, ident, s.hall⟩]) ∧
    ((∀ x ∈ s.mgmt.sessions, x.host ≠ some h.val) → ∃ t, exec (.keyExchange ⟨some h, false, root, ident⟩) s = .next t ∧
      t.mgmt.reply = .error ∧ t.mgmt.sessions = s.mgmt.sessions) ∧
    (∀ auth, (∃ x ∈ s.mgmt.sessions, x.host = some h.val) → ∃ t, exec (.keyExchange ⟨some h, auth, root, ident⟩) s = .next t ∧
      t.mgmt.reply = .busy ∧ t.mgmt.sessions = s.mgmt.sessions)) ∧
  (∀ (s : State) (n : Nat),
    (∀ x ∈ s.mgmt.sessions, x.id = n → ∃ t, exec (.spdmSessionTimeout n) s = .next t ∧ (∀ y ∈ t.mgmt.sessions, y.id ≠ n) ∧
      (∀ y ∈ s.mgmt.sessions, y.id ≠ n → y ∈ t.mgmt.sessions) ∧ t.cellar = s.cellar) ∧
    ((∀ x ∈ s.mgmt.sessions, x.id ≠ n) → exec (.spdmSessionTimeout n) s = .next s))

/-- R99, R100, R102, R113, R124, R125, R126, R277: with nothing else in flight NOP, LOOP, MARK and FENCE issue and complete, in Card order; LOOP
branches, pushes or pops its loop; MARK opens a layer record with its tag; END ends the Card, Idle and with no loops. A FENCE behind a MOVE in flight
waits, and nothing issues behind it. R129, R130, R131: a NOP that asks for it has its completion entry take the ring's next place, behind what its host
has been sent. -/
def Obligations.ControlFigures : Prop :=
  (∀ (s : State) (c : Fin 256) (i : Nat) (f : List Byte), figCpl f = false → figIrq f = false →
    let x := s.ctx c.val
    (x.flights = [] →
      (Reaches s c.val 0x00 i f → ∃ t, exec (.nop c) s = .next t ∧ IssuedAndDone s t c.val (i + 1) ∧ (t.ctx c.val).loops = x.loops) ∧
      (Reaches s c.val 0x34 i f → ∃ t, exec (.fence c) s = .next t ∧ IssuedAndDone s t c.val (i + 1) ∧ (t.ctx c.val).loops = x.loops) ∧
      (Reaches s c.val 0x03 i f → ∃ t, exec (.mark c) s = .next t ∧ IssuedAndDone s t c.val (i + 1) ∧
        (t.ctx c.val).layerNow = some x.layerAge ∧
        { age := x.layerAge, tag := BitVec.ofNat 32 (le f 0 4) : Layer } ∈ (t.ctx c.val).layers) ∧
      (Reaches s c.val 0x02 i f →
        ((∀ e ∈ x.loops.head?, e.idx ≠ i) → le f 0 4 < 2 → ∃ t, exec (.loop c) s = .next t ∧ IssuedAndDone s t c.val (i + 1) ∧
          (t.ctx c.val).loops = x.loops) ∧
        ((∀ e ∈ x.loops.head?, e.idx ≠ i) → 2 ≤ le f 0 4 → ∃ t, exec (.loop c) s = .next t ∧ IssuedAndDone s t c.val (le f 4 3) ∧
          (t.ctx c.val).loops = { idx := i, start := le f 4 3, left := le f 0 4 - 2, pass := 1 } :: x.loops) ∧
        (∀ e l, x.loops = e :: l → e.idx = i → 0 < e.left → ∃ t, exec (.loop c) s = .next t ∧ IssuedAndDone s t c.val (le f 4 3) ∧
          (t.ctx c.val).loops = { e with left := e.left - 1, pass := e.pass + 1 } :: l) ∧
        (∀ e l, x.loops = e :: l → e.idx = i → e.left = 0 → ∃ t, exec (.loop c) s = .next t ∧ IssuedAndDone s t c.val (i + 1) ∧
          (t.ctx c.val).loops = l)) ∧
      (Reaches s c.val 0x01 i f → s.ringRoom c.val = true → ∃ t, exec (.endCard c) s = .next t ∧ IssuedTo s t c.val i ∧
        (t.ctx c.val).flights = [] ∧ (t.ctx c.val).state = .idle ∧ (t.ctx c.val).stopReason = .endReached ∧ (t.ctx c.val).stopIndex = i ∧
        (t.ctx c.val).loops = [] ∧ (t.ctx c.val).lastStatus = x.lastStatus ∧ (∀ d, d ≠ c.val → t.ctx d = s.ctx d) ∧ t.cellar = s.cellar)) ∧
    (∀ g m, x.flights = [g] → g.done = none → g.kind = .move m → g.fid < x.nextFid → Reaches s c.val 0x34 i f →
      ∃ t, exec (.fence c) s = .next t ∧ IssuedTo s t c.val (i + 1) ∧ (t.ctx c.val).flights.length = 2 ∧ t.canIssue c.val = false ∧
        (∀ d, d ≠ c.val → t.ctx d = s.ctx d) ∧ t.cellar = s.cellar)) ∧
  (∀ (s : State) (c : Fin 256) (i : Nat) (f : List Byte), figCpl f = true → figIrq f = false →
    let x := s.ctx c.val
    let h := s.ownerHost ((s.suiteOfCtx c.val).getD 16)
    x.flights = [] → Reaches s c.val 0x00 i f → s.ringRoom c.val = true → s.hostServing h = true →
    ∃ t b, exec (.nop c) s = .next t ∧ IssuedTo s t c.val (i + 1) ∧ (t.ctx c.val).flights = [] ∧ (t.ctx c.val).live = true ∧
      (t.ctx c.val).ringUsed = x.ringUsed + 1 ∧
      (t.ctx c.val).ringTail = (if x.ringTail.toNat + 1 = 2 ^ x.run.ringSize then 0 else x.ringTail + 1) ∧
      (t.ctx c.val).ringPhase = (if x.ringTail.toNat + 1 = 2 ^ x.run.ringSize then !x.ringPhase else x.ringPhase) ∧
      (t.host h).path ++ (t.host h).heldWrites = (s.host h).path ++ (s.host h).heldWrites ++
        [.data (x.run.ringBase + BitVec.ofNat 64 (32 * x.ringTail.toNat)) b c.val noFlight] ∧
      b.length = 32 ∧ le b 0 1 = 0 ∧ le b 1 1 = (if x.ringPhase then 1 else 0) ∧ (i < 16777216 → le b 4 3 = i) ∧ le b 7 1 = 0 ∧
      le b 28 4 = s.hall.toNat % 2 ^ 32)

/-- R92, R98, R101, R114, R120, R127, R128: a fetch brings the next Figure ahead of the issue point into the prefetch queue and does nothing else to
any other context, beside the count of a slow read (R324); an opcode outside the table, the end of the Card, a failed fetch and a failed check each
complete the Figure, in its context's turn, with its status, stop the context where it stands with the reason failed, and leave every Cellar byte. -/
def Obligations.FetchesAndFailures : Prop :=
  ∀ (s : State) (c : Fin 256),
    let x := s.ctx c.val
    (∀ res, x.live = true → s.isReady = true → x.prefetch.length < 64 → predict x.loops x.pc x.prefetch < x.run.len →
      ∃ t, exec (.figureFetch c res) s = .next t ∧
        (t.ctx c.val).prefetch = x.prefetch ++ [(predict x.loops x.pc x.prefetch, s.fetched c.val (predict x.loops x.pc x.prefetch) res)] ∧
        (t.ctx c.val).pc = x.pc ∧ (t.ctx c.val).flights = x.flights ∧ (∀ d, d ≠ c.val → t.ctx d = s.ctx d) ∧
        t.cellar.mem = s.cellar.mem ∧ (∀ h, t.host h = { s.host h with slowReads := (t.host h).slowReads })) ∧
    (∀ res, x.live = false ∨ s.isReady = false ∨ 64 ≤ x.prefetch.length ∨ x.run.len ≤ predict x.loops x.pc x.prefetch →
      exec (.figureFetch c res) s = .next s) ∧
    (x.flights = [] → x.latched = none → s.ringRoom c.val = true →
      (∀ i f, s.nextFig c.val = some (i, f) → opKnown (figOp f) = false → ∃ t, exec (.badOpcode c) s = .next t ∧ StoppedBy s t c.val 0x10 ∧
        (∀ d, d ≠ c.val → t.ctx d = s.ctx d)) ∧
      (s.canIssue c.val = true → s.turn c.val = true → x.run.len ≤ x.pc → ∃ t, exec (.noEnd c) s = .next t ∧ StoppedBy s t c.val 0x18 ∧
        (∀ d, d ≠ c.val → t.ctx d = s.ctx d)) ∧
      (∀ l, x.prefetch = (x.pc, none) :: l → s.canIssue c.val = true → s.turn c.val = true → ∃ t, exec (.cardFetchError c) s = .next t ∧
        StoppedBy s t c.val 0x24 ∧ (∀ d, d ≠ c.val → t.ctx d = s.ctx d)) ∧
      (∀ cmd op i f st d, (cmd, op) ∈ [(Instr.nop c, 0x00), (Instr.endCard c, 0x01), (Instr.loop c, 0x02), (Instr.mark c, 0x03),
          (Instr.move c, 0x10), (Instr.bellWait c, 0x30), (Instr.barrier c, 0x32), (Instr.waitCount c, 0x33), (Instr.fence c, 0x34)] →
        s.nextOp c.val op = some (i, f) → s.issueCheck c.val i f = some (st, d) → 0x10 ≤ st → ∃ t, exec cmd s = .next t ∧
        StoppedBy s t c.val st ∧ (∀ d, d ≠ c.val → t.ctx d = s.ctx d)))

/-- R168, R179, R180, R181, R182, R184, R185: on a local Bell of a context with nothing else in flight SET writes and fills, ADD adds and fills, both
noting a wrap; a BELL_WAIT that the Bell meets completes, one on an empty Bell waits; TAKE moves a full Bell's value into its result Bell and leaves
it empty. No other Bell changes. R171, R177, R187, R188: on a record of this engine on which nobody waits they do the same, and note the ringer; a ring
for another engine leaves on the first Up port toward it, or waits for one. A timeout completes what waits with 0x41. -/
def Obligations.BellFigures : Prop :=
  ∀ (s : State) (c : Fin 256) (i : Nat) (f : List Byte) (id : Nat),
    let x := s.ctx c.val
    let v : Word64 := BitVec.ofNat 64 (le f 0 8)
    (figCpl f = false → figIrq f = false → x.flights = [] →
      (Reaches s c.val 0x31 i f → s.bellTarget c.val (le f 8 2) false = .ok (.loc id) →
        (bits (figFlags f) 3 2 = 0 → ∃ t, exec (.bellRingSet c) s = .next t ∧ IssuedAndDone s t c.val (i + 1) ∧
          (t.ctx c.val).bell id = { value := v, full := true, overflow := (x.bell id).overflow } ∧
          (∀ k, k ≠ id → (t.ctx c.val).bell k = x.bell k)) ∧
        (bits (figFlags f) 3 2 = 1 → ∃ t, exec (.bellRingAdd c) s = .next t ∧ IssuedAndDone s t c.val (i + 1) ∧
          (t.ctx c.val).bell id = { value := (x.bell id).value + v, full := true,
                                    overflow := (x.bell id).overflow || decide (2 ^ 64 ≤ (x.bell id).value.toNat + v.toNat) } ∧
          (∀ k, k ≠ id → (t.ctx c.val).bell k = x.bell k))) ∧
      (Reaches s c.val 0x30 i f → s.bellTarget c.val (le f 8 2) true = .ok (.loc id) →
        ((x.bell id).full = true → (bit (figFlags f) 2 = false ∨ v.toNat ≤ (x.bell id).value.toNat) → ∃ t, exec (.bellWait c) s = .next t ∧
          IssuedAndDone s t c.val (i + 1) ∧ (t.ctx c.val).bells = x.bells) ∧
        ((x.bell id).full = false → ∃ t, exec (.bellWait c) s = .next t ∧ IssuedAndWaits s t c.val i ∧ (t.ctx c.val).bells = x.bells)) ∧
      (Reaches s c.val 0x31 i f → bits (figFlags f) 3 2 = 2 → s.bellTarget c.val (le f 8 2) true = .ok (.loc id) →
        ((x.bell id).full = true → bits (le f 10 1) 5 0 ≠ id → ∃ t, exec (.bellRingTake c) s = .next t ∧ IssuedAndDone s t c.val (i + 1) ∧
          (t.ctx c.val).bell id = { x.bell id with full := false } ∧
          (t.ctx c.val).bell (bits (le f 10 1) 5 0) = { x.bell (bits (le f 10 1) 5 0) with value := (x.bell id).value, full := true } ∧
          (∀ k, k ≠ id → k ≠ bits (le f 10 1) 5 0 → (t.ctx c.val).bell k = x.bell k)) ∧
        ((x.bell id).full = false → ∃ t, exec (.bellRingTake c) s = .next t ∧ IssuedAndWaits s t c.val i ∧
          (t.ctx c.val).bells = x.bells)) ∧
      (∀ o sub, Reaches s c.val 0x31 i f → bits (figFlags f) 3 2 = sub → sub < 2 → s.bellTarget c.val (le f 8 2) false = .ok (.virt o) →
        (s.bell o).waiters = [] → ∃ t, exec (if sub = 0 then .bellRingSet c else .bellRingAdd c) s = .next t ∧ IssuedTo s t c.val (i + 1) ∧
        (t.ctx c.val).flights = [] ∧ (t.ctx c.val).live = true ∧ t.bell o = { s.bell o with
          value := if sub = 0 then v else (s.bell o).value + v
          full := true
          overflow := (s.bell o).overflow || (sub == 1 && decide (2 ^ 64 ≤ (s.bell o).value.toNat + v.toNat))
          lastHall := s.hall, lastFig := i, lastCtx := c.val, lastEngine := s.engineId
          doubleFill := if (s.bell o).full ∧ (s.bell o).doubleFill ≠ 0xFFFF then (s.bell o).doubleFill + 1 else (s.bell o).doubleFill } ∧
        (∀ k, k ≠ o → t.bell k = s.bell k) ∧ (∀ d, d ≠ c.val → t.ctx d = s.ctx d) ∧ t.cellar.mem = s.cellar.mem) ∧
      (∀ o, Reaches s c.val 0x30 i f → s.bellTarget c.val (le f 8 2) true = .ok (.virt o) → (s.bell o).waiters = [] →
        ((s.bell o).full = true → (bit (figFlags f) 2 = false ∨ v.toNat ≤ (s.bell o).value.toNat) → ∃ t, exec (.bellWait c) s = .next t ∧
          IssuedTo s t c.val (i + 1) ∧ (t.ctx c.val).flights = [] ∧ (t.ctx c.val).live = true ∧ (∀ k, t.bell k = s.bell k)) ∧
        ((s.bell o).full = false → ∃ t, exec (.bellWait c) s = .next t ∧ IssuedAndWaits s t c.val i ∧
          t.bell o = { s.bell o with waiters := [c.val] } ∧ (∀ k, k ≠ o → t.bell k = s.bell k))) ∧
      (∀ o, Reaches s c.val 0x31 i f → bits (figFlags f) 3 2 = 2 → s.bellTarget c.val (le f 8 2) true = .ok (.virt o) → (s.bell o).waiters = [] →
        ((s.bell o).full = true → ∃ t, exec (.bellRingTake c) s = .next t ∧ IssuedTo s t c.val (i + 1) ∧ (t.ctx c.val).flights = [] ∧
          (t.ctx c.val).live = true ∧ t.bell o = { s.bell o with full := false, lastTaker := c.val } ∧ (∀ k, k ≠ o → t.bell k = s.bell k) ∧
          (t.ctx c.val).bell (bits (le f 10 1) 5 0) = { x.bell (bits (le f 10 1) 5 0) with value := (s.bell o).value, full := true }) ∧
        ((s.bell o).full = false → ∃ t, exec (.bellRingTake c) s = .next t ∧ IssuedAndWaits s t c.val i ∧
          t.bell o = { s.bell o with waiters := [c.val] } ∧ (∀ k, k ≠ o → t.bell k = s.bell k))) ∧
      (∀ home o sub, Reaches s c.val 0x31 i f → bits (figFlags f) 3 2 = sub → sub < 2 →
        s.bellTarget c.val (le f 8 2) false = .ok (.away home o) → (∀ x ∈ s.outs, x.owed c.val s.engineId home = false) →
        ∃ t w, exec (if sub = 0 then .bellRingSet c else .bellRingAdd c) s = .next t ∧ IssuedTo s t c.val (i + 1) ∧
          (t.ctx c.val).flights = [w] ∧ w.idx = i ∧ w.done = none ∧ w.kind = .ring (.away home o) (sub == 1) v ∧ t.cellar = s.cellar ∧
          (∀ p, s.lowestUp (s.routes home) = some p → w.sent = true ∧ (∃ y, (t.port p).vc0 = (s.port p).vc0 ++ [y] ∧ y.kind = 3 ∧
            y.bytes = ringFlit s.engineId c.val x.asg.tenant.toNat i (sub == 1) v home o []) ∧ ∀ q, q ≠ p → t.port q = s.port q) ∧
          (s.lowestUp (s.routes home) = none → w.sent = false ∧ t.ports = s.ports))) ∧
    (∀ w, Alone s c.val w → w.kind.bellTimeout ≠ 0 → s.counting = true → ∃ t, exec (.bellTimeout c) s = .next t ∧ StoppedBy s t c.val 0x41 ∧
      t.now = max s.now (w.issuedAt + BitVec.ofNat 64 (1000 * w.kind.bellTimeout)).toNat ∧ (t.ctx c.val).bells = x.bells)

/-- R112, R191, R192, R196, R197, R198: a BARRIER that passes its checks advances its group's sequence and waits: on the wire with SYNC_OUT high, of a
group of one engine with its release target set to the group's lead from now, at the root of a larger one counted among the arrivals. It completes at its target, or at its timeout with 0x41. A WAIT_COUNT
whose target has passed completes at once, another waits until the hall count is there. -/
def Obligations.BarriersAndCounts : Prop :=
  ∀ (s : State) (c : Fin 256) (i : Nat) (f : List Byte),
    let x := s.ctx c.val
    let g := figGroup f
    (figCpl f = false → figIrq f = false → x.flights = [] →
      (∀ e, Reaches s c.val 0x32 i f → s.entryFor c.val g = some e → s.barrierCheck g e = none →
        s.keptFor g (s.grp g).barrierSeq.toNat true = none →
        (geWire e = true → ∃ t, exec (.barrier c) s = .next t ∧ IssuedAndWaits s t c.val i ∧ t.hearth.syncOut = .high ∧
          (t.grp g).barrierSeq = (s.grp g).barrierSeq + 1 ∧ t.ports = s.ports) ∧
        (geWire e = false → geRoot e false ≠ s.engineId → ∃ t, exec (.barrier c) s = .next t ∧ IssuedAndWaits s t c.val i ∧
          (t.grp g).barrierSeq = (s.grp g).barrierSeq + 1 ∧ t.hearth.syncOut = s.hearth.syncOut) ∧
        (geWire e = false → geRoot e false = s.engineId → (s.grp g).rootSeq = (s.grp g).barrierSeq →
          (insertNat s.engineId (s.grp g).arrived).length < geEngines e → ∃ t, exec (.barrier c) s = .next t ∧ IssuedAndWaits s t c.val i ∧
          (t.grp g).barrierSeq = (s.grp g).barrierSeq + 1 ∧ (t.grp g).arrived = insertNat s.engineId (s.grp g).arrived ∧ t.ports = s.ports) ∧
        (geWire e = false → geRoot e false = s.engineId → geEngines e = 1 → geChildren e false = 0 → (s.grp g).entry = some e →
          (s.grp g).rootSeq = (s.grp g).barrierSeq → (s.grp g).arrived = [] → s.now + geLead e < 2 ^ 64 →
          ∃ t, exec (.barrier c) s = .next t ∧ IssuedAndWaits s t c.val i ∧ (t.grp g).rootSeq = (s.grp g).rootSeq + 1 ∧
            (∃ w n q o, (t.ctx c.val).flights = [w] ∧ w.kind = .barrier g n q o (some (s.hall + BitVec.ofNat 64 (geLead e))) false) ∧
            t.ports = s.ports)) ∧
      (Reaches s c.val 0x33 i f → le f 0 8 ≤ s.now → ∃ t, exec (.waitCount c) s = .next t ∧ IssuedAndDone s t c.val (i + 1)) ∧
      (Reaches s c.val 0x33 i f → s.now < le f 0 8 → ∃ t, exec (.waitCount c) s = .next t ∧ IssuedAndWaits s t c.val i)) ∧
    (∀ w, Alone s c.val w → s.counting = true →
      (∀ tgt, w.kind = .waitCount tgt → ∃ t, exec (.waitCountTarget c) s = .next t ∧ (t.ctx c.val).flights = [] ∧ (t.ctx c.val).pc = x.pc ∧
        (t.ctx c.val).live = true ∧ t.now = max s.now tgt.toNat) ∧
      (∀ g n q o tgt, w.kind = .barrier g n q o (some tgt) false → ∃ t, exec (.barrierTargetReached c) s = .next t ∧
        (t.ctx c.val).flights = [] ∧ (t.ctx c.val).pc = x.pc ∧ (t.ctx c.val).live = true ∧ t.now = max s.now tgt.toNat) ∧
      (∀ g n q o b, w.kind = .barrier g n q o none b → o ≠ 0 → ∃ t, exec (.barrierTimeout c) s = .next t ∧ StoppedBy s t c.val 0x41 ∧
        t.now = max s.now (w.issuedAt + BitVec.ofNat 64 (1000 * o)).toNat))

/-- R103, R104, R105, R119, R236, R239, R255, R276, R282: a MOVE or a collective that passes its checks issues, and the Card goes on behind it. A MOVE
within this engine's Cellar whose cells are awake copies its bytes, as they were, and no other byte changes, or meets an uncorrectable error that its
read finds and copies none (R359; whether one is found is a free value, log 31); it completes once it has moved everything, with a status of another
engine's check where an end lies there. A collective that
finds no staging waits for it in order, and the earliest waiting one leaves the queue once its reservation fits. A collective of which everything has
arrived completes with its digest. -/
def Obligations.MovesAndCollectives : Prop :=
  ∀ (s : State) (c : Fin 256),
    let x := s.ctx c.val
    (∀ i f, Reaches s c.val 0x10 i f →
      let m : MoveFlight := { srcSel := BitVec.ofNat 16 (le f 22 2), srcAddr := BitVec.ofNat 64 (le f 0 8), dstSel := BitVec.ofNat 16 (le f 24 2),
                              dstAddr := BitVec.ofNat 64 (le f 8 8), size := le f 16 5,
                              toRead := if selEngine (le f 22 2) = s.engineId then le f 16 5 else 0 }
      s.moveCheck c.val m = none →
      (∃ t, exec (.move c) s = .next t ∧ IssuedTo s t c.val (i + 1)) ∧
      (Memory.wf 0 s.cellar.mem = true → x.flights = [] → selSpace (le f 22 2) = 1 → selSpace (le f 24 2) = 1 →
        selEngine (le f 22 2) = s.engineId → selEngine (le f 24 2) = s.engineId → s.cellarOpen (le f 0 8) (le f 16 5) = true →
        s.cellarOpen (le f 8 8) (le f 16 5) = true → s.poisonIn (le f 0 8) (le f 16 5) = false →
        s.poisonIn (le f 8 8) (le f 16 5) = false → s.coldExt (le f 0 8) (le f 16 5) = none → s.coldExt (le f 8 8) (le f 16 5) = none →
        ∃ t, exec (.move c) s = .next t ∧ (t.ctx c.val).issuedFigs = x.issuedFigs + 1 ∧ (∀ d, d ≠ c.val → t.ctx d = s.ctx d) ∧
          ((IssuedTo s t c.val (i + 1) ∧ (∃ w, (t.ctx c.val).flights = [w] ∧ w.kind = .move { m with toRead := 0 }) ∧
            (∀ a, memRead 0 t.cellar.mem a = if le f 8 8 ≤ a ∧ a < le f 8 8 + le f 16 5 then memRead 0 s.cellar.mem (le f 0 8 + (a - le f 8 8))
              else memRead 0 s.cellar.mem a) ∧ t.hosts = s.hosts) ∨
           (t.cellar.mem = s.cellar.mem ∧ ∃ u, Config.figureReadError s.freeCtr = some u ∧
              (le f 0 8 / 64 + u / 8) ∈ t.cellar.poisoned)))) ∧
    (∀ w m, Alone s c.val w → w.kind = .move m → selEngine m.srcSel.toNat = s.engineId → selEngine m.dstSel.toNat = s.engineId →
      m.toRead = 0 → s.writesIn c.val w.fid = true → (∀ o ∈ s.outs, o.owner ≠ some (c.val, w.fid)) →
      (∀ a ∈ s.cellar.waiting, a.flight ≠ some (c.val, w.fid)) → w.choice = 0 →
      ∃ t, exec (.moveComplete c 0) s = .next t ∧ (t.ctx c.val).flights = [] ∧ (t.ctx c.val).pc = x.pc ∧ (t.ctx c.val).live = true ∧
        t.cellar.mem = s.cellar.mem) ∧
    (∀ w m, Alone s c.val w → w.kind = .move m → ¬ (selEngine m.srcSel.toNat = s.engineId ∧ selEngine m.dstSel.toNat = s.engineId) →
      s.moveOver c.val w.fid m = true → w.choice = 0 →
      ∃ t st, exec (.moveComplete c 0) s = .next t ∧ st ∈ remoteMoveResults ∧ (t.ctx c.val).flights = [] ∧ (t.ctx c.val).pc = x.pc ∧
        (st = 0 → (t.ctx c.val).live = true ∧ (t.ctx c.val).lastStatus = x.lastStatus) ∧ (st ≠ 0 → StoppedBy s t c.val st) ∧
        t.cellar.mem = s.cellar.mem) ∧
    (∀ w m, Alone s c.val w → w.kind = .move m → s.moveOver c.val w.fid m = false → exec (.moveComplete c 0) s = .next s) ∧
    (∀ block counts op, (op, counts) ∈ [(0x20, []), (0x21, []), (0x22, []), (0x23, []), (0x24, []), (0x25, []), (0x26, counts)] →
      let cmd : Instr := if op = 0x20 then .allreduce c block else if op = 0x21 then .reduceScatter c block
        else if op = 0x22 then .allgather c block else if op = 0x23 then .broadcast c block else if op = 0x24 then .reduce c block
        else if op = 0x25 then .alltoall c block else .alltoallv c block counts
      ∀ i f e b ms, Reaches s c.val op i f → s.entryFor c.val (figGroup f) = some e → s.collMembers c.val f e block counts = .ok (b, ms) →
        let k := s.newColl c.val f e b ms
        s.keptFor (figGroup f) k.epoch false = none →
        (∃ t, exec cmd s = .next t ∧ IssuedTo s t c.val (i + 1)) ∧
        (x.flights = [] → s.stagingFits k.reserve = false → ∃ t, exec cmd s = .next t ∧ IssuedTo s t c.val (i + 1) ∧
          (∃ w, (t.ctx c.val).flights = [w] ∧ w.kind = .coll k ∧ w.done = none) ∧
          t.cellar = { s.cellar with waitingStaging := s.cellar.waitingStaging ++ [(c.val, x.nextFid)] } ∧
          (∀ d, d ≠ c.val → t.ctx d = s.ctx d) ∧ (∀ h, t.host h = { s.host h with slowReads := (t.host h).slowReads }) ∧
          t.ports = s.ports)) ∧
    (∀ d fid n, s.stagingWanted = some (d, fid, n) →
      (n ≤ s.stagingFree → ∃ t, exec .stagingReservationGranted s = .next t ∧
        ∀ w ∈ t.cellar.waitingStaging, w ∈ s.cellar.waitingStaging.drop 1) ∧
      (s.stagingFree < n → exec .stagingReservationGranted s = .next s)) ∧
    (∀ w k d tree, Alone s c.val w → w.kind = .coll k → isColl w.opcode = true →
      (k.opcode ≠ 0x26 ∨ k.padded = true) → w.choice = 0 →
      (k.ownDigest).or (tree.map (fun v : Word64 => v.toNat % digP)) = some d → k.reserved = true → k.arrived s.engineId = true → k.allFormed = true →
      (∀ o ∈ s.outs, o.owner ≠ some (c.val, w.fid)) → (∀ l ∈ s.lanes, l.owner ≠ some (c.val, w.fid)) → s.writesIn c.val w.fid = true →
      ∃ t, exec (.collectiveComplete c 0 tree) s = .next t ∧ (t.ctx c.val).flights = [] ∧ (t.ctx c.val).pc = x.pc ∧
        (t.ctx c.val).live = true ∧ (t.ctx c.val).digest = BitVec.ofNat 64 d ∧ (t.ctx c.val).digestFig = w.idx ∧ t.cellar.mem = s.cellar.mem)

/-- R281, R283, R288, R289, R292, R297, R298, R300, R384: a chunk with its bytes takes its port and a window slot, and its packets and seal join that
port's VC0 behind what waits there; of one whose operands are not all confirmed the data formed so far goes, and no seal. Its acknowledgement frees the
held copy; a resend request for its attempt, or a timeout, has it go again with the next attempt number, up to 3, and after that the chunk is lost and
its Figure fails with 0x31. R302, R468: a reply about a chunk that has been given up is dropped and counted; one about no chunk changes nothing. -/
def Obligations.ChunksSent : Prop :=
  ∀ (s : State),
    (∀ (n : Nat) (o : OutChunk), s.outs[n]? = some o → PlainOwner s o →
      (∀ p b, o.port = none → o.sealed = false → s.windowOpen o = true → o.bytes = some b → s.choosePort o.ordered o.mask = some p →
        ∃ t l, exec (.chunkSend n) s = .next t ∧ t.outs[n]? = some { o with port := some p, inWindow := true, sealed := true } ∧
          t.outs.length = s.outs.length ∧ (t.port p).vc0 = (s.port p).vc0 ++ l ∧ (∃ x ∈ l, x.kind = 2 ∧ x.bytes = o.sealFlit s.engineId b) ∧
          (∀ q, q ≠ p → t.port q = s.port q) ∧ t.cellar = s.cellar ∧ t.hosts = s.hosts) ∧
      (∀ p, o.port = none → s.windowOpen o = true → o.bytes = none → o.pieces ≠ [] → s.choosePort o.ordered o.mask = some p →
        ∃ t l, exec (.chunkSend n) s = .next t ∧ t.outs[n]? = some { o with port := some p, inWindow := true, left := o.pieces.length } ∧
          t.outs.length = s.outs.length ∧ (t.port p).vc0 = (s.port p).vc0 ++ l ∧ (∀ x ∈ l, x.kind ≠ 2) ∧
          (∀ q, q ≠ p → t.port q = s.port q) ∧ t.cellar = s.cellar ∧ t.hosts = s.hosts) ∧
      (o.port ≠ none ∨ s.windowOpen o = false ∨ (o.bytes = none ∧ o.pieces = []) ∨ s.choosePort o.ordered o.mask = none →
        exec (.chunkSend n) s = .next s) ∧
      (∀ (q : Fin 36) f, s.portUp q.val = true → s.asleep = false → ctlOk 0x08 f = true → s.outNamed f = some n →
        ∃ t, exec (.chunkAck q f) s = .next t ∧ t.outs = s.outs.eraseIdx n ∧ t.cellar = s.cellar ∧ t.hosts = s.hosts) ∧
      (∀ (q : Fin 36) f, s.portUp q.val = true → s.asleep = false → ctlOk 0x09 f = true → s.outNamed f = some n →
        (o.attempt = le f 10 1 → o.attempt < 3 → ∃ t, exec (.resendRequest q f) s = .next t ∧
          t.outs[n]? = some { o with attempt := o.attempt + 1, port := none, sealed := false, pieces := [], left := 0 } ∧
          t.outs.length = s.outs.length ∧ t.cellar = s.cellar ∧ t.hosts = s.hosts) ∧
        (o.attempt ≠ le f 10 1 ∨ 3 ≤ o.attempt → ∃ t, exec (.resendRequest q f) s = .next t ∧ t.outs = s.outs ∧ t.ctxs = s.ctxs)) ∧
      (∀ p, o.sealed = true → o.port = some p → o.attempt < 3 → ∃ t, exec (.ackTimeout n) s = .next t ∧
        t.outs[n]? = some { o with attempt := o.attempt + 1, port := none, sealed := false, pieces := [], left := 0 } ∧
        (t.port p).cnt.ackTimeouts = satInc (s.port p).cnt.ackTimeouts ∧ (t.port p).cnt.resends = satInc (s.port p).cnt.resends) ∧
      (o.sealed = true → 3 ≤ o.attempt → (o.owner = none → ∃ t, exec (.ackTimeout n) s = .next t ∧ t.outs = s.outs.eraseIdx n) ∧
        (∀ c w, o.owner = some (c, w.fid) → Alone s c w → ((∃ k, w.kind = .coll k) ∨ ∃ m, w.kind = .move m) →
          ∃ t, exec (.ackTimeout n) s = .next t ∧ StoppedBy s t c 0x31)) ∧
      (o.sealed = false → exec (.ackTimeout n) s = .next s)) ∧
    (∀ (q : Fin 36) f, s.portUp q.val = true → s.asleep = false → s.outNamed f = none →
      (∀ g, s.givenUp.find? (fun g => g.name == messageName f) = some g →
        (ctlOk 0x08 f = true → ∃ t, exec (.chunkAck q f) s = .next t ∧ t.outs = s.outs ∧
          FMap.find t.svc.droppedReplies g.part = some (satInc (FMap.get 0 s.svc.droppedReplies g.part)) ∧ t.ctxs = s.ctxs) ∧
        (ctlOk 0x09 f = true → ∃ t, exec (.resendRequest q f) s = .next t ∧ t.outs = s.outs ∧
          FMap.find t.svc.droppedReplies g.part = some (satInc (FMap.get 0 s.svc.droppedReplies g.part)) ∧ t.ctxs = s.ctxs)) ∧
      ((∀ g ∈ s.givenUp, g.name ≠ messageName f) →
        (ctlOk 0x08 f = true → ∃ t, exec (.chunkAck q f) s = .next t ∧ t.outs = s.outs ∧ t.svc = s.svc ∧ t.ctxs = s.ctxs) ∧
        (ctlOk 0x09 f = true → ∃ t, exec (.resendRequest q f) s = .next t ∧ t.outs = s.outs ∧ t.svc = s.svc ∧ t.ctxs = s.ctxs)))

/-- R85, R210, R217, R225, R228, R285, R287, R288, R290, R291, R294-R297, R299–R301, R367, R552: a packet opens its chunk's lane, of a collective's Figure
that expects it, of one that has not issued yet, of a MOVE, or of a chunk that this engine passes on; the next one joins it; a duplicate, one of a
generation of its own, and one that no port can carry on open none. A seal that agrees with its whole chunk confirms it: it is acknowledged, and the
chunk acts, goes on, or waits for its Figure; one that does not agree has it dropped and asked for again, and at the third attempt it is lost. Poison and
a seal of another collective fail the Figure. A retract marker drops the lane. -/
def Obligations.ChunksReceived : Prop :=
  ∀ (s : State) (p : Fin 36), (s.port p.val).state = .up → s.asleep = false →
    (s.isReady = true →
      (∀ h body src dst,
        let l := headLane p.val h src dst
        let cmd : Instr := .packetReceived p h body src dst
        (l.dest = s.engineId → s.genDiffers l.isMove l.flow l.gen true = false → s.laneOf l.isMove l.flow l.chunk l.formedBy l.seq = [] →
          (l.name ∉ s.confirmed ∨ (l.isMove = true ∧ l.attempt = 1)) →
          ∃ t x, exec cmd s = .next t ∧ t.lanes = s.lanes ++ [x] ∧ x = { l with owner := x.owner, rank := x.rank, pieces := [(le h 10 4, body)] } ∧
            l.name ∉ t.confirmed ∧
            (l.isMove = true → x.owner = none ∧ t.cellar = s.cellar ∧ t.ctxs = s.ctxs) ∧
            (let o := s.flightOn l.flow (fun k => expects k s.engineId l.down l.epoch l.chunk l.formedBy l.src l.dst)
             l.isMove = false → (∀ c fid, o = some (c, fid) → (s.collAt c fid).isSome = true) → x.owner = o) ∧
            (x.owner = none → t.cellar = s.cellar ∧ t.ctxs = s.ctxs)) ∧
        (∀ x, l.dest = s.engineId → s.genDiffers l.isMove l.flow l.gen true = false → s.laneOf l.isMove l.flow l.chunk l.formedBy l.seq = [x] →
          x.dest = l.dest → x.port = l.port → x.attempt = l.attempt → l.name ∉ s.confirmed → ∃ t, exec cmd s = .next t ∧
          t.lanes = s.lanes.map (fun y => if y = x then { x with pieces := x.pieces ++ [(le h 10 4, body)] } else y) ∧
          t.cellar = s.cellar ∧ t.confirmed = s.confirmed) ∧
        (l.dest = s.engineId → s.genDiffers l.isMove l.flow l.gen true = false → l.name ∈ s.confirmed → ¬ (l.isMove = true ∧ l.attempt = 1) →
          ∃ t, exec cmd s = .next t ∧ t.lanes = s.lanes ∧ t.cellar = s.cellar ∧ t.ctxs = s.ctxs) ∧
        (l.dest = s.engineId → s.genDiffers l.isMove l.flow l.gen true = true →
          (s.groupFlights l.flow = [] → ∃ t, exec cmd s = .next t ∧ t.lanes = s.lanes ∧ l.asDropped ∈ t.droppedChunks ∧ t.ctxs = s.ctxs ∧
            t.cellar = s.cellar) ∧
          (∀ c w, s.groupFlights l.flow = [(c, w.fid)] → Alone s c w → ∃ t, exec cmd s = .next t ∧ StoppedBy s t c 0x14)) ∧
        (l.dest ≠ s.engineId →
          (s.forwardPorts l.isMove l.flow l.dest = [] → ∃ t, exec cmd s = .next t ∧ t.lanes = s.lanes ∧ t.outs = s.outs ∧
            l.asDropped ∈ t.droppedChunks ∧ (t.port p.val).cnt.unroutable = satInc (s.port p.val).cnt.unroutable ∧ t.cellar = s.cellar ∧
            t.ctxs = s.ctxs) ∧
          (s.forwardPorts l.isMove l.flow l.dest ≠ [] → s.genDiffers l.isMove l.flow l.gen false = false →
            s.laneOf l.isMove l.flow l.chunk l.formedBy l.seq = [] → l.name ∉ s.confirmed → (∀ o ∈ s.outs, o.passes l = false) →
            ∃ t o, exec cmd s = .next t ∧ t.lanes = s.lanes ++ [{ l with pieces := [(le h 10 4, body)] }] ∧ t.outs = s.outs ++ [o] ∧
              o.owner = none ∧ o.name = l.name ∧ o.mask = s.forwardPorts l.isMove l.flow l.dest ∧ o.port = none ∧ o.bytes = none ∧
              (le h 10 4 = 0 → o.pieces = [(0, body)]) ∧ t.cellar = s.cellar ∧ t.ctxs = s.ctxs))) ∧
      (∀ (f : List Byte) (aux : ChunkAux),
        let g := ghostLane p.val f s.engineId
        let n := le f 12 4
        let cmd : Instr := .sealReceived p f aux
        (∀ l, s.laneAt p.val g.flow g.isMove g.chunk g.formedBy g.seq = some l →
          s.genDiffers l.isMove l.flow g.gen (l.dest == s.engineId) = false →
          let len := (l.pieces.map (fun x => x.2.length)).sum
          let clean : Prop := l.poisoned = false ∧ bit (le f 21 1) 1 = false
          let whole : Prop := n ≤ len ∧ len ≤ n + 63 ∧ l.whole len = true ∧ (crc32c (l.bytes.take n)).toNat = le f 16 4 ∧
            (l.isMove = true ∨ le f 8 4 = l.epoch)
          let gone (t : State) : Prop := (∀ x ∈ t.lanes, x ∈ s.lanes ∧ x ≠ l) ∧ ∀ x ∈ s.lanes, x.name ≠ l.name → x ∈ t.lanes
          -- a MOVE's chunk for this engine
          (clean → whole → l.owner = none → l.isMove = true → l.dest = s.engineId → s.fetches l (l.bytes.take n).length = none →
            ∃ t, exec cmd s = .next t ∧ gone t ∧ l.name ∈ t.confirmed ∧ (t.port p.val).cnt.confirmed = satInc (s.port p.val).cnt.confirmed ∧
              (t.port p.val).vc3.length = (s.port p.val).vc3.length + 1 ∧ t.ctxs = s.ctxs ∧
              (∀ r, s.locCheck (s.suiteOfTenant l.tenant) l.tenant true l.moveSel.toNat l.moveAddr.toNat (l.bytes.take n).length = some r →
                t.cellar = s.cellar) ∧
              (s.locCheck (s.suiteOfTenant l.tenant) l.tenant true l.moveSel.toNat l.moveAddr.toNat (l.bytes.take n).length = none →
                selSpace l.moveSel.toNat = 1 → s.cellarOpen l.moveAddr.toNat (l.bytes.take n).length = true →
                s.coldExt l.moveAddr.toNat (l.bytes.take n).length = none → s.poisonIn l.moveAddr.toNat (l.bytes.take n).length = false →
                Memory.wf 0 s.cellar.mem = true →
                ∀ a, memRead 0 t.cellar.mem a = if l.moveAddr.toNat ≤ a ∧ a < l.moveAddr.toNat + (l.bytes.take n).length
                  then byteAt (l.bytes.take n) (a - l.moveAddr.toNat) else memRead 0 s.cellar.mem a)) ∧
          -- a chunk of this engine's own collective
          (∀ c w k, clean → whole → l.dest = s.engineId → l.isMove = false → l.owner = some (c, w.fid) → (s.ctx c).flights = [w] → w.done = none →
            w.kind = .coll k →
            (sealMismatch k f = none → ∃ t w' k', exec cmd s = .next t ∧ l.name ∈ t.confirmed ∧
              (t.port p.val).cnt.confirmed = satInc (s.port p.val).cnt.confirmed ∧ (∀ x ∈ t.lanes, x ≠ l) ∧
              (t.ctx c).flights = [w'] ∧ w'.done = none ∧ w'.kind = .coll k' ∧
              (isReducing k.opcode = true → l.down = false →
                (∃ x ∈ k'.parts, x.chunk = l.chunk ∧ x.engine = l.formedBy) ∨ (1, 0, l.chunk) ∈ k'.done1) ∧
              (isReducing k.opcode = false ∨ l.down = true → k'.hasFinal (k.bodyOf l).1 (k.bodyOf l).2 l.chunk = true)) ∧
            (∀ o, sealMismatch k f = some o → Alone s c w → ∃ t, exec cmd s = .next t ∧ StoppedBy s t c 0x12 ∧ t.confirmed = s.confirmed)) ∧
          -- a chunk whose Figure has not come
          (l.owner = none → l.isMove = false → l.dest = s.engineId →
            (s.epochClash l = none → ∃ t, exec cmd s = .next t ∧
              t.lanes = s.lanes.map (fun x => if x = l then { l with sealed := some (f, aux) } else x) ∧ t.ctxs = s.ctxs ∧ t.cellar = s.cellar) ∧
            (∀ c w, s.epochClash l = some (c, w.fid) → Alone s c w → ∃ t, exec cmd s = .next t ∧ StoppedBy s t c 0x12)) ∧
          -- a chunk that this engine passes on
          (∀ i o, clean → whole → l.owner = none → l.dest ≠ s.engineId →
            s.outs.findIdx? (fun o => o.owner.isNone && o.passes l && o.bytes.isNone) = some i → s.outs[i]? = some o →
            ∃ t o', exec cmd s = .next t ∧ gone t ∧ l.name ∈ t.confirmed ∧ (t.port p.val).cnt.confirmed = satInc (s.port p.val).cnt.confirmed ∧
              t.outs[i]? = some o' ∧ o'.bytes = some (l.bytes.take n) ∧ o'.name = o.name ∧ o'.mask = o.mask ∧ o'.port = o.port ∧
              (o.port ≠ none → o'.sealed = true) ∧ t.cellar = s.cellar ∧ t.ctxs = s.ctxs) ∧
          -- a check that fails
          (clean → ¬ whole → (l.owner ≠ none ∨ l.isMove = true ∨ l.dest ≠ s.engineId) →
            (l.attempt < 3 → ∃ t, exec cmd s = .next t ∧ t.lanes = s.lanes.filter (fun x => x != l) ∧ l.name ∈ t.owed ∧
              (t.port p.val).cnt.checkFailures = satInc (s.port p.val).cnt.checkFailures ∧
              (t.port p.val).vc3.length = (s.port p.val).vc3.length + 1 ∧ t.confirmed = s.confirmed ∧ t.cellar = s.cellar ∧ t.ctxs = s.ctxs) ∧
            (3 ≤ l.attempt → l.owner = none → ∃ t, exec cmd s = .next t ∧ t.lanes = s.lanes.filter (fun x => x != l) ∧
              (t.port p.val).cnt.lost = satInc (s.port p.val).cnt.lost ∧ t.confirmed = s.confirmed ∧ t.cellar = s.cellar) ∧
            (∀ c w, 3 ≤ l.attempt → l.owner = some (c, w.fid) → Alone s c w → ∃ t, exec cmd s = .next t ∧ StoppedBy s t c 0x31)) ∧
          -- poison
          (¬ clean → (l.owner ≠ none ∨ l.isMove = true ∨ l.dest ≠ s.engineId) →
            (l.owner = none → ∃ t, exec cmd s = .next t ∧ t.lanes = s.lanes.filter (fun x => x != l) ∧ l.name ∈ t.confirmed ∧
              t.cellar = s.cellar ∧ t.ctxs = s.ctxs) ∧
            (∀ c w, l.owner = some (c, w.fid) → Alone s c w → ∃ t, exec cmd s = .next t ∧ StoppedBy s t c 0x22))) ∧
        (s.laneAt p.val g.flow g.isMove g.chunk g.formedBy g.seq = none →
          (g.asDropped ∈ s.droppedChunks → ∃ t, exec cmd s = .next t ∧ g.asDropped ∉ t.droppedChunks ∧ t.lanes = s.lanes ∧ t.ctxs = s.ctxs ∧
            t.cellar = s.cellar) ∧
          (g.asDropped ∉ s.droppedChunks →
            (∀ dest, ⟨g.isMove, g.flow, g.chunk, g.formedBy, dest, g.seq⟩ ∈ s.confirmed → ∃ t, exec cmd s = .next t ∧
              (t.port p.val).cnt.duplicates = satInc (s.port p.val).cnt.duplicates ∧
              (t.port p.val).vc3.length = (s.port p.val).vc3.length + 1 ∧ t.lanes = s.lanes ∧ t.cellar = s.cellar ∧ t.ctxs = s.ctxs) ∧
            ((∀ dest, ⟨g.isMove, g.flow, g.chunk, g.formedBy, dest, g.seq⟩ ∉ s.confirmed) →
              (s.laneOf g.isMove g.flow g.chunk g.formedBy g.seq ≠ [] → ∃ t, exec cmd s = .next t ∧ t.lanes = s.lanes ∧ t.ctxs = s.ctxs) ∧
              (s.laneOf g.isMove g.flow g.chunk g.formedBy g.seq = [] → s.genDiffers g.isMove g.flow g.gen false = false → g.attempt < 3 →
                ∃ t, exec cmd s = .next t ∧ (t.port p.val).cnt.checkFailures = satInc (s.port p.val).cnt.checkFailures ∧
                  (t.port p.val).vc3.length = (s.port p.val).vc3.length + 1 ∧ g.name ∈ t.owed ∧ t.cellar = s.cellar ∧ t.ctxs = s.ctxs))))) ∧
      (∀ f, ctlOk 0x01 f = true →
        let isMove := bit (le f 11 1) 3
        let flow := flowField isMove (le f 2 2)
        (∀ l, s.laneAt p.val flow isMove (le f 6 4) (le f 21 1) (le f 12 8) = some l → ∃ t, exec (.retractMarker p f) s = .next t ∧
          t.lanes = s.lanes.filter (fun x => x != l) ∧ l.name ∈ t.owed ∧
          (t.port p.val).cnt.retractReceived = satInc (s.port p.val).cnt.retractReceived ∧ t.cellar = s.cellar ∧ t.ctxs = s.ctxs) ∧
        (s.laneAt p.val flow isMove (le f 6 4) (le f 21 1) (le f 12 8) = none → ∃ t, exec (.retractMarker p f) s = .next t ∧
          t.lanes = s.lanes ∧ t.outs = s.outs ∧ (t.port p.val).cnt.retractReceived = satInc (s.port p.val).cnt.retractReceived ∧
          t.cellar = s.cellar ∧ t.ctxs = s.ctxs))) ∧
    (s.isReady = false → ∀ h body src dst f aux,
      (∃ t, exec (.packetReceived p h body src dst) s = .next t ∧ t.lanes = s.lanes ∧ t.ctxs = s.ctxs ∧
        (t.port p.val).cnt.preReadyDrops = satInc (s.port p.val).cnt.preReadyDrops) ∧
      (∃ t, exec (.sealReceived p f aux) s = .next t ∧ t.lanes = s.lanes ∧ t.ctxs = s.ctxs ∧
        (t.port p.val).cnt.preReadyDrops = satInc (s.port p.val).cnt.preReadyDrops) ∧
      (∃ t, exec (.retractMarker p f) s = .next t ∧ t.lanes = s.lanes ∧ t.ctxs = s.ctxs ∧
        (t.port p.val).cnt.preReadyDrops = satInc (s.port p.val).cnt.preReadyDrops))

/-- R22, R147, R173, R177, R179, R187, R188, R189, R225: at its home a ring that waits for no data rings a record on which nobody waits: it writes or
adds, fills it, and notes its ringer; no other record changes. One whose data has not all come is held, one whose record's tenant is in Clearing waits
for that, one whose data is lost is discarded, one that may not ring its record changes none. Another engine passes a ring on behind what came before
it: it holds the ring until that has left, and drops and counts one that no Up port leads on. -/
def Obligations.RemoteRings : Prop :=
  ∀ (s : State),
    (∀ (p : Fin 36) f, (s.port p.val).state = .up → s.isReady = true → s.asleep = false → ctlOk 0x02 f = true →
      (le f 20 1 = s.engineId →
        let r := s.ringOf p.val f false
        let x := s.bell r.offset
        (s.marksMet r = true → s.clearingFor r.offset = none → s.recordCheck r.tenant.toNat r.offset = none → x.waiters = [] →
          ∃ t, exec (.remoteBellRing p f) s = .next t ∧
            t.bell r.offset = { x with
              value := if r.add then x.value + r.value else r.value
              full := true
              overflow := x.overflow || (r.add && decide (2 ^ 64 ≤ x.value.toNat + r.value.toNat))
              lastHall := s.hall
              lastFig := le f 4 3
              lastCtx := le f 2 1
              lastEngine := le f 1 1
              doubleFill := if x.full ∧ x.doubleFill ≠ 0xFFFF then x.doubleFill + 1 else x.doubleFill } ∧
            (∀ o, o ≠ r.offset → t.bell o = s.bell o) ∧ t.ctxs = s.ctxs ∧ t.rings = s.rings ∧ t.cellar.mem = s.cellar.mem) ∧
        (s.marksMet r = true → s.clearingFor r.offset = none → s.recordCheck r.tenant.toNat r.offset ≠ none →
          ∃ t, exec (.remoteBellRing p f) s = .next t ∧ t.cellar = s.cellar ∧ t.ctxs = s.ctxs ∧ t.rings = s.rings) ∧
        (∀ c, s.marksMet r = true → s.clearingFor r.offset = some c → ∃ t, exec (.remoteBellRing p f) s = .next t ∧
          t.rings = s.rings ++ [{ r with clearing := some c }] ∧ t.cellar = s.cellar ∧ t.ctxs = s.ctxs) ∧
        (s.marksMet r = false → ∃ t, exec (.remoteBellRing p f) s = .next t ∧ t.rings = s.rings ++ [r] ∧ t.cellar = s.cellar ∧ t.ctxs = s.ctxs)) ∧
      (le f 20 1 ≠ s.engineId →
        let r := s.ringOf p.val f true
        (r.behind ≠ [] → ∃ t, exec (.remoteBellRing p f) s = .next t ∧ t.rings = s.rings ++ [r] ∧ t.cellar = s.cellar ∧ t.ctxs = s.ctxs) ∧
        (∀ q flow, r.behind = [] → s.chunkBefore r (le f 20 1) = some (q, flow) → ∃ t, exec (.remoteBellRing p f) s = .next t ∧
          (t.port q).vc0 = (s.port q).vc0 ++ [⟨3, f, flow⟩] ∧ t.rings = s.rings ∧ t.cellar = s.cellar ∧ t.ctxs = s.ctxs) ∧
        (∀ q, r.behind = [] → s.chunkBefore r (le f 20 1) = none → s.lowestUp (s.forwardPorts true 0 (le f 20 1)) = some q →
          ∃ t x, exec (.remoteBellRing p f) s = .next t ∧ (t.port q).vc0 = (s.port q).vc0 ++ [x] ∧ x.bytes = f ∧ t.rings = s.rings ∧
            t.cellar = s.cellar ∧ t.ctxs = s.ctxs) ∧
        (r.behind = [] → s.chunkBefore r (le f 20 1) = none → s.lowestUp (s.forwardPorts true 0 (le f 20 1)) = none →
          ∃ t, exec (.remoteBellRing p f) s = .next t ∧ (t.port p.val).cnt.unroutable = satInc (s.port p.val).cnt.unroutable ∧
            t.rings = s.rings ∧ t.cellar = s.cellar ∧ t.ctxs = s.ctxs))) ∧
    (∀ n r, s.rings[n]? = some r →
      (r.lost = true → exec (.remoteRingMarksMet n) s = .next { s with rings := s.rings.eraseIdx n }) ∧
      (r.lost = false → (r.clearing ≠ none ∨ r.onward ≠ none ∨ s.marksMet r = false) → exec (.remoteRingMarksMet n) s = .next s) ∧
      (r.lost = false → r.clearing = none → r.onward = none → s.marksMet r = true → s.clearingFor r.offset = none →
        s.recordCheck r.tenant.toNat r.offset = none → (s.bell r.offset).waiters = [] →
        ∃ t, exec (.remoteRingMarksMet n) s = .next t ∧ t.rings = s.rings.eraseIdx n ∧ (t.bell r.offset).full = true ∧
          (t.bell r.offset).value = (if r.add then (s.bell r.offset).value + r.value else r.value) ∧
          (∀ o, o ≠ r.offset → t.bell o = s.bell o) ∧ t.ctxs = s.ctxs) ∧
      (r.lost = false → r.clearing = none → r.onward = none → s.marksMet r = true → s.clearingFor r.offset = none →
        s.recordCheck r.tenant.toNat r.offset ≠ none → ∃ t, exec (.remoteRingMarksMet n) s = .next t ∧ t.rings = s.rings.eraseIdx n ∧
          t.cellar = s.cellar ∧ t.ctxs = s.ctxs))

/-- R161, R191, R192, R193, R194, R217, R370: the root counts an arrival of its sequence and releases the group with the last, and an arrival of another
sequence fails the barrier; an engine on the way passes it on toward the root; a release goes on to the children, and sets the target of the BARRIER it
names, or completes it, counted, when the target has passed. A message of another generation fails the Figure in flight on the group. A peer abort is
acted on once: the Figure that it names completes with 0x33, and one that no Figure here meets yet is kept for it. An engine with a transit-only entry
(R210) passes an arrival or a release that comes over the backplane on up its plane. At an engine without an entry the three have no effect: the
model's choice (log 40). -/
def Obligations.BarrierMessagesAndAborts : Prop :=
  ∀ (s : State) (p : Fin 36) (f : List Byte), s.portUp p.val = true → s.asleep = false →
    let g := le f 2 2
    let x := s.grp g
    let quiet (t : State) : Prop := t.groups = s.groups ∧ t.ctxs = s.ctxs ∧ t.cellar = s.cellar
    (∀ cmd ty, (cmd, ty) ∈ [(Instr.barrierArrival p f, 0x10), (Instr.barrierRelease p f, 0x11), (Instr.peerAbort p f, 0x12)] →
      (ctlOk ty f = false → ∃ t, exec cmd s = .next t ∧ (t.port p.val).cnt.badControl = satInc (s.port p.val).cnt.badControl ∧ quiet t) ∧
      (ctlOk ty f = true → s.isReady = false ∨ x.entry = none → ∃ t, exec cmd s = .next t ∧ quiet t)) ∧
    (∀ e, s.isReady = true → x.entry = some e →
      (ctlOk 0x10 f = true → geGen e = le f 4 2 →
        (geTransitOnly e = true → ∃ t, exec (.barrierArrival p f) s = .next t ∧ quiet t ∧
          ∀ q, p.val < 28 → s.lowestUp (geTransit e) = some q → (t.port q).vc1.length = (s.port q).vc1.length + 1) ∧
        (geTransitOnly e = false → geRoot e false = s.engineId → x.rootSeq.toNat = le f 6 4 →
          ((insertNat (le f 18 1) x.arrived).length < geEngines e →
            ∃ t, exec (.barrierArrival p f) s = .next t ∧ t.grp g = { x with arrived := insertNat (le f 18 1) x.arrived } ∧
              (∀ k, k ≠ g → t.grp k = s.grp k) ∧ t.ctxs = s.ctxs ∧ t.cellar = s.cellar) ∧
          (geEngines e ≤ (insertNat (le f 18 1) x.arrived).length → s.barrierOn g = none →
            ∃ t, exec (.barrierArrival p f) s = .next t ∧ t.grp g = { x with rootSeq := x.rootSeq + 1, arrived := [] } ∧
              t.ctxs = s.ctxs ∧ t.cellar = s.cellar) ∧
          (∀ c w q o, geEngines e ≤ (insertNat (le f 18 1) x.arrived).length → s.barrierOn g = some (c, w) → Alone s c w →
            w.kind = .barrier g (geGen e) q o none false → q.toNat = le f 6 4 → s.now + geLead e < 2 ^ 64 →
            ∃ t, exec (.barrierArrival p f) s = .next t ∧ t.grp g = { x with rootSeq := x.rootSeq + 1, arrived := [] } ∧
              (t.ctx c).flights = [{ w with kind := .barrier g (geGen e) q o (some (s.hall + BitVec.ofNat 64 (geLead e))) false }] ∧
              t.cellar = s.cellar)) ∧
        (geTransitOnly e = false → geRoot e false = s.engineId → x.rootSeq.toNat ≠ le f 6 4 →
          (s.barrierOn g = none → ∃ t, exec (.barrierArrival p f) s = .next t ∧ (t.grp g).rootSeq = x.rootSeq + 1 ∧ (t.grp g).arrived = [] ∧
            t.log = (s.logOccurrence ⟨0x0305, 2, 0x0D, le f 18 1, none, 0, 0⟩).1 ∧ t.ctxs = s.ctxs ∧ t.cellar = s.cellar) ∧
          (∀ c w, s.barrierOn g = some (c, w) → Alone s c w → ∃ t, exec (.barrierArrival p f) s = .next t ∧ StoppedBy s t c 0x33 ∧
            (t.grp g).rootSeq = x.rootSeq + 1)) ∧
        (∀ q, geTransitOnly e = false → geRoot e false ≠ s.engineId → s.lowestUp (gePorts e false 0) = some q →
          ∃ t, exec (.barrierArrival p f) s = .next t ∧ (t.port q).vc1.length = (s.port q).vc1.length + 1 ∧ quiet t) ∧
        (geTransitOnly e = false → geRoot e false ≠ s.engineId → s.lowestUp (gePorts e false 0) = none →
          ∃ t, exec (.barrierArrival p f) s = .next t ∧ quiet t)) ∧
      (ctlOk 0x11 f = true → (geGen e ≠ le f 4 2 ∨ geTransitOnly e = true) → ∃ t, exec (.barrierRelease p f) s = .next t ∧ quiet t ∧
        ∀ q, geGen e = le f 4 2 → p.val < 28 → s.lowestUp (geTransit e) = some q → (t.port q).vc1.length = (s.port q).vc1.length + 1) ∧
      (ctlOk 0x11 f = true → geGen e = le f 4 2 → geTransitOnly e = false →
        (s.barrierOn g = none → ∃ t, exec (.barrierRelease p f) s = .next t ∧ quiet t ∧
          ∀ q, (t.port q).vc1.length = (s.port q).vc1.length +
            ((List.range (geChildren e false)).filter (fun i => s.lowestUp (gePorts e false (i + 1)) == some q)).length) ∧
        (∀ c w q o, s.barrierOn g = some (c, w) → w.kind = .barrier g (le f 4 2) q o none false → q.toNat = le f 6 4 → Alone s c w →
          (s.now ≤ le f 10 8 → ∃ t, exec (.barrierRelease p f) s = .next t ∧
            (t.ctx c).flights = [{ w with kind := .barrier g (le f 4 2) q o (some (BitVec.ofNat 64 (le f 10 8))) false }] ∧
            t.hearth.lateRelease = s.hearth.lateRelease ∧ t.cellar = s.cellar) ∧
          (le f 10 8 < s.now → ∃ t, exec (.barrierRelease p f) s = .next t ∧ (t.ctx c).flights = [] ∧ (t.ctx c).pc = (s.ctx c).pc ∧
            t.hearth.lateRelease = satInc s.hearth.lateRelease ∧ t.cellar.mem = s.cellar.mem)) ∧
        (∀ c w n q o tgt b, s.barrierOn g = some (c, w) → w.kind = .barrier g n q o tgt b →
          (n ≠ le f 4 2 ∨ q.toNat ≠ le f 6 4 ∨ tgt ≠ none ∨ b = true) → ∃ t, exec (.barrierRelease p f) s = .next t ∧ quiet t)) ∧
      (ctlOk 0x10 f = true → geGen e ≠ le f 4 2 →
        (s.groupFlights g = [] → ∃ t, exec (.barrierArrival p f) s = .next t ∧ quiet t) ∧
        (∀ c w, s.groupFlights g = [(c, w.fid)] → Alone s c w → ∃ t, exec (.barrierArrival p f) s = .next t ∧ StoppedBy s t c 0x14)) ∧
      (ctlOk 0x12 f = true →
        let k : KeptAbort := ⟨le f 4 2, le f 6 4, le f 10 1, bit (le f 11 1) 0, le f 12 1⟩
        (k ∈ x.seen → ∃ t, exec (.peerAbort p f) s = .next t ∧ quiet t) ∧
        (k ∉ x.seen → s.abortNames g k = none →
          let past : Prop := (k.barrier = true ∧ k.key < x.barrierSeq.toNat) ∨ (k.barrier = false ∧ k.key ∈ x.issued)
          ∃ t, exec (.peerAbort p f) s = .next t ∧ (t.grp g).seen = x.seen ++ [k] ∧ t.ctxs = s.ctxs ∧ t.cellar = s.cellar ∧
            (past → (t.grp g).kept = x.kept) ∧ (¬ past → (t.grp g).kept = x.kept ++ [k])) ∧
        (∀ c w, k ∉ x.seen → s.abortNames g k = some (c, w.fid) → Alone s c w → ∃ t, exec (.peerAbort p f) s = .next t ∧
          StoppedBy s t c 0x33 ∧ k ∈ (t.grp g).seen)))

/-- A step with a command at the front of the queue runs exactly that command, with the rest of the queue behind it. -/
def Obligations.FrontCommandRuns : Prop :=
  ∀ (c : Instr) (s : State) (rest : List Instr), step { s with pending := c :: rest } = exec c { s with pending := rest }

/-- The machine answers every command with a next state, in every state: none faults, none is refused; and a command never touches the queue behind
it. With nothing queued one hall count passes, where the counter counts: the model's own tick (log 2). Start-up, configuration, fuses, flash and every
byte of the Cellar stay. -/
def Obligations.CommandsAnswerAndTicks : Prop :=
  (∀ (c : Instr) (s : State), ∃ t, exec c s = .next t ∧ t.pending = s.pending) ∧
  (∀ s : State, s.pending = [] → ∃ t, step s = .next t ∧ t.hall = (if s.counting then s.hall + 1 else s.hall) ∧ t.pending = [] ∧
    t.hearth.startup = s.hearth.startup ∧ t.hearth.config = s.hearth.config ∧ t.fuses = s.fuses ∧ t.flash = s.flash ∧
    t.cellar.mem = s.cellar.mem)

/-- The Cellar's and the flash's memories keep their canonical form through every step of every machine that has it. -/
def Obligations.MemoryCanonicalKept : Prop :=
  ∀ s t : State, Memory.wf 0 s.cellar.mem = true → Memory.wf Config.erasedByte s.flash.mem = true → step s = .next t →
    Memory.wf 0 t.cellar.mem = true ∧ Memory.wf Config.erasedByte t.flash.mem = true

/-- R61, R141, R156, R318, R394, R452, R460, R487: right after reset the engine is in Reset, its configuration not locked, its memories in canonical
form; every context is Unassigned, every Suite disabled, the count Unsynced and 0, the watchdog in Boot, no halt, no host served, no quota written, no
census taken and no session open. That the count is 0, and not only Unsynced, is the model's choice (log 3). -/
def Obligations.ResetState : Prop :=
  let s := State.reset
  s.hearth.startup = .reset ∧ s.hearth.locked = false ∧ s.hall = 0 ∧ s.wd.state = .boot ∧ s.halt.state = .running ∧
  s.sync.status = .unsynced ∧ (∀ c, (s.ctx c).state = .unassigned) ∧ (∀ i, (s.suite i).state = .disabled) ∧
  (∀ h, s.hostServing h = false) ∧ (∀ p, s.portUp p = false) ∧ (∀ i t, FMap.get 256 (s.suite i).quotaCtx t = 256) ∧
  s.census.took = false ∧ s.mgmt.sessions = [] ∧ s.pending = [] ∧ s.cellar.mem = [] ∧ Memory.wf 0 s.cellar.mem = true ∧
  Memory.wf Config.erasedByte s.flash.mem = true ∧ LockedPastLocking s

/-- R58, R73, R76: an engine whose configuration is locked is past Locking, in every state that a step reaches from one of which that holds; and the
configuration, the digest over it and the two pin IDs of a locked engine stand until a reset starts it up anew. -/
def Obligations.LockedConfigurationStands : Prop :=
  ∀ s t : State, LockedPastLocking s → step s = .next t → LockedPastLocking t ∧
    (s.hearth.locked = true → (t.hearth.locked = true ∧ t.hearth.config = s.hearth.config ∧ t.hearth.configDigest = s.hearth.configDigest ∧
      t.hearth.slotId = s.hearth.slotId ∧ t.hearth.roomId = s.hearth.roomId) ∨ (t.hearth.startup = .reset ∧ t.hearth.locked = false))

/-- R70: no command but FUSE_UPDATE's two changes a fuse, and those two only raise the minimum security version and set a revoke bit: the two key
hashes, the stepping, the grade and the groups fused off at test never change, a revoke bit is never cleared, the minimum never falls. -/
def Obligations.FusesOneWay : Prop :=
  ∀ (c : Instr) (s t : State), exec c s = .next t →
    ((∀ sess tag p, c ≠ .fuseRaiseMinVersion sess tag p) → (∀ sess tag p, c ≠ .fuseRevokeKey sess tag p) → t.fuses = s.fuses) ∧
    t.fuses.keyHash0 = s.fuses.keyHash0 ∧ t.fuses.keyHash1 = s.fuses.keyHash1 ∧ t.fuses.stepping = s.fuses.stepping ∧
    t.fuses.grade = s.fuses.grade ∧ t.fuses.fusedOff = s.fuses.fusedOff ∧
    (s.fuses.revoked0 = true → t.fuses.revoked0 = true) ∧ (s.fuses.revoked1 = true → t.fuses.revoked1 = true) ∧
    s.fuses.minSecurity.toNat ≤ t.fuses.minSecurity.toNat
end

