-- ==== Sys2Proof/Laws/Memory.lean ====
section
/-! SUPPORT. The laws of byte memory: a read after a write, and that every operation over memory keeps its canonical form. -/

namespace Sys2Proof.Machine

/-- Canonical: a first address below every later one, and so on down the list. -/
theorem Memory.wf_cons {d : Byte} {a : Nat} {v : Byte} {m : List Host.Cell} :
    Memory.wf d ((a, v) :: m) = true ↔ v ≠ d ∧ (∀ b w l, m = (b, w) :: l → a < b) ∧ Memory.wf d m = true := by
  cases m with
  | nil => simp [wf]
  | cons x l =>
    obtain ⟨b, w⟩ := x
    simp [wf, and_assoc]

/-- In canonical memory every later address is above the first. -/
theorem Memory.wf_lt {d : Byte} {a : Nat} {v : Byte} {m : List Host.Cell} (h : Memory.wf d ((a, v) :: m) = true) :
    ∀ c ∈ m, a < c.1 := by
  induction m generalizing a v with
  | nil => simp
  | cons x l ih =>
    obtain ⟨b, w⟩ := x
    have h' := wf_cons.1 h
    intro c hc
    have hb : a < b := h'.2.1 b w l rfl
    cases hc with
    | head => exact hb
    | tail _ hc => exact Nat.lt_trans hb (ih h'.2.2 c hc)

/-- Canonical memory over a first entry: it is below all the rest. -/
theorem Memory.wf_of_lt {d : Byte} {a : Nat} {v : Byte} {m : List Host.Cell} (hv : v ≠ d) (hlt : ∀ c ∈ m, a < c.1)
    (h : Memory.wf d m = true) : Memory.wf d ((a, v) :: m) = true :=
  wf_cons.2 ⟨hv, fun b w l e => hlt (b, w) (by simp [e]), h⟩

/-- Filtering keeps the form. -/
theorem Memory.wf_filter {d : Byte} (p : Host.Cell → Bool) {m : List Host.Cell} (h : Memory.wf d m = true) :
    Memory.wf d (m.filter p) = true := by
  induction m with
  | nil => exact h
  | cons x l ih =>
    obtain ⟨a, v⟩ := x
    have h' := wf_cons.1 h
    rw [List.filter_cons]
    split
    · exact wf_of_lt h'.1 (fun c hc => wf_lt h c ((List.mem_filter.1 hc).1)) (ih h'.2.2)
    · exact ih h'.2.2

/-- A written byte's addresses are the old ones and the written one. -/
theorem mem_memWrite {d : Byte} {m : List Host.Cell} {a : Nat} {v : Byte} {c : Host.Cell} (h : c ∈ memWrite d m a v) : c.1 = a ∨ c ∈ m := by
  induction m with
  | nil =>
    simp only [memWrite] at h
    split at h <;> simp_all
  | cons x l ih =>
    obtain ⟨b, w⟩ := x
    simp only [memWrite] at h
    split at h
    · split at h
      · exact .inr h
      · cases h with
        | head => exact .inl rfl
        | tail _ h => exact .inr h
    · split at h
      · split at h
        · exact .inr (List.mem_cons_of_mem _ h)
        · cases h with
          | head => exact .inl rfl
          | tail _ h => exact .inr (List.mem_cons_of_mem _ h)
      · cases h with
        | head => exact .inr (List.mem_cons_self ..)
        | tail _ h => exact (ih h).imp id (List.mem_cons_of_mem _)

/-- A byte write keeps the form. -/
theorem memWrite_wf {d : Byte} {m : List Host.Cell} {a : Nat} {v : Byte} (h : Memory.wf d m = true) :
    Memory.wf d (memWrite d m a v) = true := by
  induction m with
  | nil =>
    simp only [memWrite]
    split
    · rfl
    · simpa [Memory.wf] using ‹¬v = d›
  | cons x l ih =>
    obtain ⟨b, w⟩ := x
    have h' := Memory.wf_cons.1 h
    have hlt := Memory.wf_lt h
    simp only [memWrite]
    split
    · rename_i hab
      split
      · exact h
      · refine Memory.wf_of_lt ‹¬v = d› ?_ h
        intro c hc
        cases hc with
        | head => exact hab
        | tail _ hc => exact Nat.lt_trans hab (hlt c hc)
    · rename_i hab
      split
      · rename_i e
        subst e
        split
        · exact h'.2.2
        · exact Memory.wf_of_lt ‹¬v = d› hlt h'.2.2
      · rename_i hne
        refine Memory.wf_of_lt h'.1 (fun c hc => ?_) (ih h'.2.2)
        cases mem_memWrite hc with
        | inl e => omega
        | inr hc => exact hlt c hc

/-- Writing a byte string keeps the form. -/
theorem memPut_wf {d : Byte} {m : List Host.Cell} {a : Nat} {l : List Byte} (h : Memory.wf d m = true) :
    Memory.wf d (memPut d m a l) = true := by
  induction l generalizing m a with
  | nil => exact h
  | cons v l ih => exact ih (memWrite_wf h)

/-- Clearing a range keeps the form. -/
theorem memClear_wf {d : Byte} {m : List Host.Cell} {lo hi : Nat} (h : Memory.wf d m = true) : Memory.wf d (memClear m lo hi) = true :=
  Memory.wf_filter _ h

/-- A byte that no entry lists reads the default. -/
theorem memRead_absent {d : Byte} {m : List Host.Cell} {a : Nat} (h : ∀ c ∈ m, c.1 ≠ a) : memRead d m a = d := by
  induction m with
  | nil => rfl
  | cons x l ih =>
    obtain ⟨b, w⟩ := x
    have hb := h (b, w) (List.mem_cons_self ..)
    simp only at hb
    simp [memRead, hb, ih (fun c hc => h c (List.mem_cons_of_mem _ hc))]

/-- In canonical memory a written byte reads back. -/
theorem memRead_memWrite {d : Byte} {m : List Host.Cell} {a : Nat} {v : Byte} (h : Memory.wf d m = true) :
    memRead d (memWrite d m a v) a = v := by
  induction m with
  | nil =>
    simp only [memWrite]
    split
    · simp [memRead, *]
    · simp [memRead]
  | cons x l ih =>
    obtain ⟨b, w⟩ := x
    have h' := Memory.wf_cons.1 h
    have hlt := Memory.wf_lt h
    simp only [memWrite]
    split
    · rename_i hab
      split
      · rename_i e
        subst e
        refine memRead_absent (fun c hc => ?_)
        cases hc with
        | head => simp only; omega
        | tail _ hc => have := hlt c hc; omega
      · simp [memRead]
    · split
      · rename_i e
        subst e
        split
        · rename_i e
          subst e
          exact memRead_absent (fun c hc => by have := hlt c hc; omega)
        · simp [memRead]
      · simp [memRead, *]

/-- A byte write leaves every other byte. -/
theorem memRead_memWrite_ne {d : Byte} {m : List Host.Cell} {a b : Nat} {v : Byte} (hne : b ≠ a) :
    memRead d (memWrite d m a v) b = memRead d m b := by
  induction m with
  | nil =>
    simp only [memWrite]
    split
    · rfl
    · simp [memRead, hne.symm]
  | cons x l ih =>
    obtain ⟨i, w⟩ := x
    simp only [memWrite]
    split
    · split
      · rfl
      · simp [memRead, hne.symm]
    · split
      · rename_i e
        subst e
        split <;> simp [memRead, hne.symm]
      · simp [memRead, ih]

/-- A byte outside a written string reads as before. -/
theorem memRead_memPut_out {d : Byte} {m : List Host.Cell} {a b : Nat} {l : List Byte} (h : b < a ∨ a + l.length ≤ b) :
    memRead d (memPut d m a l) b = memRead d m b := by
  induction l generalizing m a with
  | nil => rfl
  | cons v l ih =>
    simp only [List.length_cons] at h
    simp only [memPut]
    rw [ih (by omega), memRead_memWrite_ne (by omega)]

/-- A byte of a written string reads what was written. -/
theorem memRead_memPut_in {d : Byte} {m : List Host.Cell} {a i : Nat} {l : List Byte} (h : Memory.wf d m = true) (hi : i < l.length) :
    memRead d (memPut d m a l) (a + i) = l[i] := by
  induction l generalizing m a i with
  | nil => simp at hi
  | cons v l ih =>
    cases i with
    | zero =>
      simp only [memPut]
      rw [memRead_memPut_out (.inl (by omega)), Nat.add_zero, memRead_memWrite h]
      rfl
    | succ i =>
      simp only [memPut]
      rw [show a + (i + 1) = a + 1 + i by omega]
      exact ih (memWrite_wf h) (by simpa using hi)

/-- A cleared range reads the default, and the rest as before. -/
theorem memRead_memClear {d : Byte} {m : List Host.Cell} {lo hi a : Nat} :
    memRead d (memClear m lo hi) a = if lo ≤ a ∧ a < hi then d else memRead d m a := by
  induction m with
  | nil => simp [memClear, memRead]
  | cons x l ih =>
    obtain ⟨b, w⟩ := x
    simp only [memClear, List.filter_cons] at ih ⊢
    by_cases hb : b < lo ∨ hi ≤ b
    · rw [if_pos (by simpa using hb)]
      by_cases e : b = a
      · subst e
        rw [if_neg (by omega)]
        simp [memRead]
      · simp only [memRead, if_neg e, ih]
    · rw [if_neg (by simpa using hb), ih]
      split
      · rfl
      · rw [memRead, if_neg (by omega)]

/-! ## The Cellar's and the flash's own operations -/

/-- A host's or a MOVE's write of one unit keeps the form (R337, R338). -/
theorem Cellar.putUnit_wf {k : Cellar} {off u : Nat} {b : List Byte} (h : Memory.wf 0 k.mem = true) :
    Memory.wf 0 (k.putUnit off b u).mem = true := by
  simp only [putUnit]
  split
  · exact h
  · exact memPut_wf h

/-- A write unit by unit keeps the form. -/
theorem Cellar.putUnits_wf {k : Cellar} {off : Nat} {b : List Byte} {l : List Nat} (h : Memory.wf 0 k.mem = true) :
    Memory.wf 0 (l.foldl (fun k u => k.putUnit off b u) k).mem = true := by
  induction l generalizing k with
  | nil => exact h
  | cons u l ih => exact ih (putUnit_wf h)

/-- A write with byte enables keeps the form (R338). -/
theorem Cellar.maskUnit_wf {k k' : Cellar} {u off : Nat} {b : List Byte} {en : List Bool} (e : k.maskUnit u off b en = some k')
    (h : Memory.wf 0 k.mem = true) : Memory.wf 0 k'.mem = true := by
  simp only [maskUnit] at e
  split at e
  · cases e
  · generalize (List.range 64).map _ = new at e
    cases e
    exact memPut_wf h

/-- A scrub keeps the form (R331). -/
theorem Cellar.scrub_wf {k : Cellar} {e : Nat} (h : Memory.wf 0 k.mem = true) : Memory.wf 0 (k.scrub e).mem = true := memClear_wf h

/-- An image write keeps the flash's form (R515). -/
theorem Flash.writeImage_wf {f : Flash} {off : Nat} {b : List Byte} (h : Memory.wf Config.erasedByte f.mem = true) :
    Memory.wf Config.erasedByte (f.writeImage off b).mem = true := by
  unfold writeImage put
  split
  · exact memPut_wf (memClear_wf h)
  · exact memPut_wf h

/-- A pack that is taken keeps the flash's form (R441). -/
theorem Flash.takePack_wf {f : Flash} {id copy : Nat} {b : List Byte} (h : Memory.wf Config.erasedByte f.mem = true) :
    Memory.wf Config.erasedByte (f.takePack id copy b).mem = true := by
  unfold takePack put
  exact memPut_wf h

@[simp] theorem Cellar.allocBlock_mem (k : Cellar) (o i : Nat) (t : BitVec 8) : (k.allocBlock o i t).mem = k.mem := by
  simp only [allocBlock, zeroBlock]
@[simp] theorem Cellar.freeBlock_mem (k : Cellar) (o : Nat) : (k.freeBlock o).mem = k.mem := by
  simp only [freeBlock, zeroBlock]
@[simp] theorem Cellar.dropStaging_mem (k : Cellar) (e : Nat) : (k.dropStaging e).mem = k.mem := by
  simp only [dropStaging]
@[simp] theorem Cellar.replaceStaging_mem (k : Cellar) (o n : Nat) : (k.replaceStaging o n).mem = k.mem := by
  simp only [replaceStaging]
@[simp] theorem Cellar.freeBlocks_mem (k : Cellar) (l : List Nat) : (l.foldl Cellar.freeBlock k).mem = k.mem := by
  induction l generalizing k with
  | nil => rfl
  | cons o l ih => rw [List.foldl_cons, ih, freeBlock_mem]

end Sys2Proof.Machine
end

