-- ==== Sys2Proof/Laws/Keeps.lean ====
section
/-! SUPPORT. What nearly every operation and command keeps: the queue, the fuses, the flash, the locked configuration and the pins' samples, the
form of the Cellar's memory, and that a locked engine is past Locking. One lemma for each operation on the state, in the form that chains:
what has been kept from a state `r0` up to `s` is kept up to the operation's result. Without such a lemma: the resets and the loss of power,
RESET_END, IMAGE_LOAD_COMPLETE, LOCKING_COMPLETE, FLASH_WRITE_COMPLETE, the two FUSE_UPDATE rows, WARM_RESET, ARRAY_PATROL (an error in the Hearth resets), WATCHDOG_PERIOD_END (whose
second miss in a row resets) and TEMPERATURE_UPDATE (which may cut the power). -/

set_option linter.unusedTactic false
set_option linter.unreachableTactic false

set_option linter.unusedSimpArgs false

namespace Sys2Proof.Machine
/-- What stays from `r` to `s`. -/
structure Keeps (r s : State) : Prop where
  pending : s.pending = r.pending
  fuses : s.fuses = r.fuses
  flashMem : s.flash.mem = r.flash.mem
  slot : s.hearth.slotId = r.hearth.slotId
  room : s.hearth.roomId = r.hearth.roomId
  config : s.hearth.config = r.hearth.config
  digest : s.hearth.configDigest = r.hearth.configDigest
  locked : s.hearth.locked = r.hearth.locked
  mem : Memory.wf 0 r.cellar.mem = true → Memory.wf 0 s.cellar.mem = true
  past : LockedPastLocking r → LockedPastLocking s

/-- Nothing has happened. -/
theorem Keeps.rfl {r : State} : Keeps r r := ⟨.refl _, .refl _, .refl _, .refl _, .refl _, .refl _, .refl _, .refl _, id, id⟩

/-- What stays, said of the parts of a state. -/
def KeepsParts (r : State) (p : List Instr) (f : Fuses) (fm : List Host.Cell) (sl : BitVec 3) (ro : BitVec 5) (cf : List Byte) (dg : Word64)
    (lk : Bool) (su : Startup) (mem : List Host.Cell) : Prop :=
  p = r.pending ∧ f = r.fuses ∧ fm = r.flash.mem ∧ sl = r.hearth.slotId ∧ ro = r.hearth.roomId ∧ cf = r.hearth.config ∧ dg = r.hearth.configDigest ∧
  lk = r.hearth.locked ∧ (Memory.wf 0 r.cellar.mem = true → Memory.wf 0 mem = true) ∧
  (LockedPastLocking r → (lk = true → su = .scrubbing ∨ su = .training ∨ su = .syncing ∨ su = .ready ∨ su = .haltedAtStart))

/-- What a state written out keeps, it keeps in its parts. -/
theorem keeps_mk (r : State) (v_pending : List Instr) (v_hall : Word64) (v_sled : Sled) (v_fuses : Fuses) (v_flash : Flash) (v_hearth : Hearth) (v_thermal : Thermal) (v_tap : Tap) (v_wd : Watchdog) (v_halt : Halt) (v_sync : Sync) (v_log : ErrLog) (v_hosts : FMap HostPort) (v_ports : FMap FabPort) (v_suites : FMap Suite) (v_ctxs : FMap Context) (v_callers : FMap Nat) (v_groups : FMap Group) (v_cellar : Cellar) (v_lanes : List Lane) (v_outs : List OutChunk) (v_confirmed : List ChunkName) (v_rings : List HeldRing) (v_commits : List CommitRec) (v_owed : List ChunkName) (v_droppedChunks : List DroppedChunk) (v_givenUp : List GivenUp) (v_hallway : FMap HallPort) (v_arrivals : List Instr) (v_mgmt : Mgmt) (v_census : Census) (v_svc : Service) (v_freeCtr : Nat) :
    Keeps r (State.mk v_pending v_hall v_sled v_fuses v_flash v_hearth v_thermal v_tap v_wd v_halt v_sync v_log v_hosts v_ports v_suites v_ctxs v_callers v_groups v_cellar v_lanes v_outs v_confirmed v_rings v_commits v_owed v_droppedChunks v_givenUp v_hallway v_arrivals v_mgmt v_census v_svc v_freeCtr) = KeepsParts r v_pending v_fuses v_flash.mem v_hearth.slotId v_hearth.roomId v_hearth.config v_hearth.configDigest v_hearth.locked v_hearth.startup v_cellar.mem :=
  propext ⟨fun ⟨a, b, c, d, e, f, g, h, i, j⟩ => ⟨a, b, c, d, e, f, g, h, i, j⟩, fun ⟨a, b, c, d, e, f, g, h, i, j⟩ => ⟨a, b, c, d, e, f, g, h, i, j⟩⟩

/-- A state whose parts are those of `u`. -/
theorem Keeps.parts {r u : State} (h : Keeps r u) : KeepsParts r u.pending u.fuses u.flash.mem u.hearth.slotId u.hearth.roomId u.hearth.config u.hearth.configDigest u.hearth.locked u.hearth.startup u.cellar.mem :=
  ⟨h.1, h.2, h.3, h.4, h.5, h.6, h.7, h.8, h.9, h.10⟩

/-- The same with another memory in canonical form. -/
theorem Keeps.partsMem {r u : State} {m : List Host.Cell} (h : Keeps r u) (hm : Memory.wf 0 u.cellar.mem = true → Memory.wf 0 m = true) :
    KeepsParts r u.pending u.fuses u.flash.mem u.hearth.slotId u.hearth.roomId u.hearth.config u.hearth.configDigest u.hearth.locked u.hearth.startup m :=
  ⟨h.1, h.2, h.3, h.4, h.5, h.6, h.7, h.8, fun w => hm (h.9 w), h.10⟩

/-- The same with the Hearth of another state that keeps it too. -/
theorem Keeps.partsMix {r u v : State} (h : Keeps r u) (k : Keeps r v) :
    KeepsParts r u.pending u.fuses u.flash.mem v.hearth.slotId v.hearth.roomId v.hearth.config v.hearth.configDigest v.hearth.locked v.hearth.startup u.cellar.mem :=
  ⟨h.1, h.2, h.3, k.4, k.5, k.6, k.7, k.8, h.9, k.10⟩

/-- The same in a start-up state past Locking. -/
theorem Keeps.partsTo {r u : State} {su : Startup} {m : List Host.Cell} (h : Keeps r u) (hs : su = .scrubbing ∨ su = .training ∨ su = .syncing ∨ su = .ready ∨ su = .haltedAtStart)
    (hm : Memory.wf 0 u.cellar.mem = true → Memory.wf 0 m = true) :
    KeepsParts r u.pending u.fuses u.flash.mem u.hearth.slotId u.hearth.roomId u.hearth.config u.hearth.configDigest u.hearth.locked su m :=
  ⟨h.1, h.2, h.3, h.4, h.5, h.6, h.7, h.8, fun w => hm (h.9 w), fun _ _ => hs⟩

/-- A step on the way. -/
theorem Keeps.cut {r s : State} {p : Prop} (h : Keeps r s) (k : Keeps r s → p) : p := k h

/-- The state beside a value. -/
theorem Keeps.snd {α : Type} {r s : State} {p : α × State} {a : α} (e : p = (a, s)) (h : Keeps r p.2) : Keeps r s := by rw [e] at h; exact h
/-- The state before a value. -/
theorem Keeps.fst {α : Type} {r s : State} {p : State × α} {a : α} (e : p = (s, a)) (h : Keeps r p.1) : Keeps r s := by rw [e] at h; exact h

/-- A command answers a next state, and it keeps. -/
def KeepsOut (r : State) (o : Out) : Prop := ∃ t, o = .next t ∧ Keeps r t
/-- An answer that is a next state. -/
theorem KeepsOut.next {r s : State} (h : Keeps r s) : KeepsOut r (.next s) := ⟨s, Eq.refl _, h⟩
/-- Step by step over a list. -/
theorem Keeps.foldl {r : State} {α : Type} {f : State → α → State} {l : List α} {s : State} (hf : ∀ s x, Keeps r s → Keeps r (f s x)) (h : Keeps r s) :
    Keeps r (l.foldl f s) := by
  induction l generalizing s with
  | nil => exact h
  | cons a l ih => exact ih (hf _ _ h)
/-- Over a list of units. -/
theorem Keeps.overList {r : State} {α : Type} {f : State → α → State} {l : List α} {s : State} (hf : ∀ s x, Keeps r s → Keeps r (f s x)) (h : Keeps r s) :
    Keeps r (overList f l s) := Keeps.foldl hf h
/-- The state that an outcome leaves. -/
theorem Keeps.stateAfter {r s : State} {o : Out} (h : KeepsOut r o) : Keeps r (stateAfter s o) := by
  obtain ⟨t, rfl, h⟩ := h
  exact h

/-- The state that an outcome answers. -/
theorem Keeps.nextOr {r s : State} {o : Out} (h : KeepsOut r o) : Keeps r (nextOr s o) := by
  obtain ⟨t, rfl, h⟩ := h
  exact h


/-! ## Ops -/

theorem State.putCtx_keeps {r0 : State} (s : State) (c : Nat) (x : Context) (hk : Keeps r0 s) : Keeps r0 (State.putCtx s c x) := by
  unfold State.putCtx
  repeat' (first | with_reducible assumption | (simp only [keeps_mk, Cellar.allocBlock_mem, Cellar.freeBlock_mem, Cellar.freeBlocks_mem, Cellar.dropStaging_mem, Cellar.replaceStaging_mem, Hearth.runs]; with_reducible refine Keeps.parts ?_) | (intro x; refine Keeps.cut (r := r0) (s := x) ?_ ?_; unfold x; rotate_left; clear_value x; intro _) | intro _ | lift_lets -underBinder | split)

theorem State.modCtx_keeps {r0 : State} (s : State) (c : Nat) (f : Context → Context) (hk : Keeps r0 s) : Keeps r0 (State.modCtx s c f) := by
  unfold State.modCtx
  repeat' (first | with_reducible assumption | (intro x; refine Keeps.cut (r := r0) (s := x) ?_ ?_; unfold x; rotate_left; clear_value x; intro _) | intro _ | lift_lets -underBinder | with_reducible apply State.putCtx_keeps | split)

theorem State.putHost_keeps {r0 : State} (s : State) (h : Nat) (x : HostPort) (hk : Keeps r0 s) : Keeps r0 (State.putHost s h x) := by
  unfold State.putHost
  repeat' (first | with_reducible assumption | (simp only [keeps_mk, Cellar.allocBlock_mem, Cellar.freeBlock_mem, Cellar.freeBlocks_mem, Cellar.dropStaging_mem, Cellar.replaceStaging_mem, Hearth.runs]; with_reducible refine Keeps.parts ?_) | (intro x; refine Keeps.cut (r := r0) (s := x) ?_ ?_; unfold x; rotate_left; clear_value x; intro _) | intro _ | lift_lets -underBinder | split)

theorem State.modHost_keeps {r0 : State} (s : State) (h : Nat) (f : HostPort → HostPort) (hk : Keeps r0 s) : Keeps r0 (State.modHost s h f) := by
  unfold State.modHost
  repeat' (first | with_reducible assumption | (intro x; refine Keeps.cut (r := r0) (s := x) ?_ ?_; unfold x; rotate_left; clear_value x; intro _) | intro _ | lift_lets -underBinder | with_reducible apply State.putHost_keeps | split)

theorem State.putPort_keeps {r0 : State} (s : State) (p : Nat) (x : FabPort) (hk : Keeps r0 s) : Keeps r0 (State.putPort s p x) := by
  unfold State.putPort
  repeat' (first | with_reducible assumption | (simp only [keeps_mk, Cellar.allocBlock_mem, Cellar.freeBlock_mem, Cellar.freeBlocks_mem, Cellar.dropStaging_mem, Cellar.replaceStaging_mem, Hearth.runs]; with_reducible refine Keeps.parts ?_) | (intro x; refine Keeps.cut (r := r0) (s := x) ?_ ?_; unfold x; rotate_left; clear_value x; intro _) | intro _ | lift_lets -underBinder | split)

theorem State.modPort_keeps {r0 : State} (s : State) (p : Nat) (f : FabPort → FabPort) (hk : Keeps r0 s) : Keeps r0 (State.modPort s p f) := by
  unfold State.modPort
  repeat' (first | with_reducible assumption | (intro x; refine Keeps.cut (r := r0) (s := x) ?_ ?_; unfold x; rotate_left; clear_value x; intro _) | intro _ | lift_lets -underBinder | with_reducible apply State.putPort_keeps | split)

theorem State.countPort_keeps {r0 : State} (s : State) (p : Nat) (f : PortCounters → PortCounters) (hk : Keeps r0 s) : Keeps r0 (State.countPort s p f) := by
  unfold State.countPort
  repeat' (first | with_reducible assumption | (simp only [keeps_mk, Cellar.allocBlock_mem, Cellar.freeBlock_mem, Cellar.freeBlocks_mem, Cellar.dropStaging_mem, Cellar.replaceStaging_mem, Hearth.runs]; with_reducible refine Keeps.parts ?_) | (intro x; refine Keeps.cut (r := r0) (s := x) ?_ ?_; unfold x; rotate_left; clear_value x; intro _) | intro _ | lift_lets -underBinder | with_reducible apply State.modPort_keeps | split)

theorem State.putSuite_keeps {r0 : State} (s : State) (i : Nat) (x : Suite) (hk : Keeps r0 s) : Keeps r0 (State.putSuite s i x) := by
  unfold State.putSuite
  repeat' (first | with_reducible assumption | (simp only [keeps_mk, Cellar.allocBlock_mem, Cellar.freeBlock_mem, Cellar.freeBlocks_mem, Cellar.dropStaging_mem, Cellar.replaceStaging_mem, Hearth.runs]; with_reducible refine Keeps.parts ?_) | (intro x; refine Keeps.cut (r := r0) (s := x) ?_ ?_; unfold x; rotate_left; clear_value x; intro _) | intro _ | lift_lets -underBinder | split)

theorem State.modSuite_keeps {r0 : State} (s : State) (i : Nat) (f : Suite → Suite) (hk : Keeps r0 s) : Keeps r0 (State.modSuite s i f) := by
  unfold State.modSuite
  repeat' (first | with_reducible assumption | (intro x; refine Keeps.cut (r := r0) (s := x) ?_ ?_; unfold x; rotate_left; clear_value x; intro _) | intro _ | lift_lets -underBinder | with_reducible apply State.putSuite_keeps | split)

theorem State.putGrp_keeps {r0 : State} (s : State) (g : Nat) (x : Group) (hk : Keeps r0 s) : Keeps r0 (State.putGrp s g x) := by
  unfold State.putGrp
  repeat' (first | with_reducible assumption | (simp only [keeps_mk, Cellar.allocBlock_mem, Cellar.freeBlock_mem, Cellar.freeBlocks_mem, Cellar.dropStaging_mem, Cellar.replaceStaging_mem, Hearth.runs]; with_reducible refine Keeps.parts ?_) | (intro x; refine Keeps.cut (r := r0) (s := x) ?_ ?_; unfold x; rotate_left; clear_value x; intro _) | intro _ | lift_lets -underBinder | split)

theorem State.modGrp_keeps {r0 : State} (s : State) (g : Nat) (f : Group → Group) (hk : Keeps r0 s) : Keeps r0 (State.modGrp s g f) := by
  unfold State.modGrp
  repeat' (first | with_reducible assumption | (intro x; refine Keeps.cut (r := r0) (s := x) ?_ ?_; unfold x; rotate_left; clear_value x; intro _) | intro _ | lift_lets -underBinder | with_reducible apply State.putGrp_keeps | split)

theorem State.putExt_keeps {r0 : State} (s : State) (e : Nat) (x : Extent) (hk : Keeps r0 s) : Keeps r0 (State.putExt s e x) := by
  unfold State.putExt
  repeat' (first | with_reducible assumption | (simp only [keeps_mk, Cellar.allocBlock_mem, Cellar.freeBlock_mem, Cellar.freeBlocks_mem, Cellar.dropStaging_mem, Cellar.replaceStaging_mem, Hearth.runs]; with_reducible refine Keeps.parts ?_) | (intro x; refine Keeps.cut (r := r0) (s := x) ?_ ?_; unfold x; rotate_left; clear_value x; intro _) | intro _ | lift_lets -underBinder | split | (simp only [keeps_mk, Cellar.allocBlock_mem, Cellar.freeBlock_mem, Cellar.freeBlocks_mem, Cellar.dropStaging_mem, Cellar.replaceStaging_mem, Hearth.runs]; with_reducible refine Keeps.partsMem ?_ (fun w => by first | exact w | exact Cellar.scrub_wf w | exact Cellar.putUnits_wf w | exact Cellar.maskUnit_wf ‹_› w | (exact Cellar.scrub_wf (by simpa using w)) | simp [Memory.wf])) | (simp only [keeps_mk, Cellar.allocBlock_mem, Cellar.freeBlock_mem, Cellar.freeBlocks_mem, Cellar.dropStaging_mem, Cellar.replaceStaging_mem, Hearth.runs]; with_reducible refine Keeps.partsTo ?_ (by simp) (fun w => by first | exact w | exact Cellar.scrub_wf w | exact Cellar.putUnits_wf w | exact Cellar.maskUnit_wf ‹_› w | (exact Cellar.scrub_wf (by simpa using w)) | simp [Memory.wf])))

theorem State.modExt_keeps {r0 : State} (s : State) (e : Nat) (f : Extent → Extent) (hk : Keeps r0 s) : Keeps r0 (State.modExt s e f) := by
  unfold State.modExt
  repeat' (first | with_reducible assumption | (intro x; refine Keeps.cut (r := r0) (s := x) ?_ ?_; unfold x; rotate_left; clear_value x; intro _) | intro _ | lift_lets -underBinder | with_reducible apply State.putExt_keeps | split)

theorem overList_keeps {r0 : State} {α : Type} (f : State → α → State) (l : List α) (s : State) (hk : Keeps r0 s) (hf : ∀ y0 y1, Keeps r0 y0 → Keeps r0 (f y0 y1)) : Keeps r0 (overList f l s) := by
  unfold overList
  repeat' (first | with_reducible assumption | with_reducible apply hf | (intro x; refine Keeps.cut (r := r0) (s := x) ?_ ?_; unfold x; rotate_left; clear_value x; intro _) | intro _ | lift_lets -underBinder | with_reducible apply Keeps.foldl | split)

theorem State.sendEvent_keeps {r0 : State} (s : State) (code : Nat) (payload : List Byte) (hk : Keeps r0 s) : Keeps r0 (State.sendEvent s code payload) := by
  unfold State.sendEvent
  repeat' (first | with_reducible assumption | (simp only [keeps_mk, Cellar.allocBlock_mem, Cellar.freeBlock_mem, Cellar.freeBlocks_mem, Cellar.dropStaging_mem, Cellar.replaceStaging_mem, Hearth.runs]; with_reducible refine Keeps.parts ?_) | (intro x; refine Keeps.cut (r := r0) (s := x) ?_ ?_; unfold x; rotate_left; clear_value x; intro _) | intro _ | lift_lets -underBinder | split)

theorem State.record_keeps {r0 : State} (s : State) (a : RecArgs) (hk : Keeps r0 s) : Keeps r0 (State.record s a) := by
  unfold State.record
  repeat' (first | with_reducible assumption | (simp only [keeps_mk, Cellar.allocBlock_mem, Cellar.freeBlock_mem, Cellar.freeBlocks_mem, Cellar.dropStaging_mem, Cellar.replaceStaging_mem, Hearth.runs]; with_reducible refine Keeps.parts ?_) | (intro x; refine Keeps.cut (r := r0) (s := x) ?_ ?_; unfold x; rotate_left; clear_value x; intro _) | intro _ | lift_lets -underBinder | with_reducible apply State.sendEvent_keeps | split | (simp only [keeps_mk, Cellar.allocBlock_mem, Cellar.freeBlock_mem, Cellar.freeBlocks_mem, Cellar.dropStaging_mem, Cellar.replaceStaging_mem, Hearth.runs]; with_reducible refine Keeps.partsMem ?_ (fun w => by first | exact w | exact Cellar.scrub_wf w | exact Cellar.putUnits_wf w | exact Cellar.maskUnit_wf ‹_› w | (exact Cellar.scrub_wf (by simpa using w)) | simp [Memory.wf])) | (simp only [keeps_mk, Cellar.allocBlock_mem, Cellar.freeBlock_mem, Cellar.freeBlocks_mem, Cellar.dropStaging_mem, Cellar.replaceStaging_mem, Hearth.runs]; with_reducible refine Keeps.partsTo ?_ (by simp) (fun w => by first | exact w | exact Cellar.scrub_wf w | exact Cellar.putUnits_wf w | exact Cellar.maskUnit_wf ‹_› w | (exact Cellar.scrub_wf (by simpa using w)) | simp [Memory.wf])))

theorem State.post_keeps {r0 : State} (s : State) (h : Nat) (w : HostWrite) (hk : Keeps r0 s) : Keeps r0 (State.post s h w) := by
  unfold State.post
  repeat' (first | with_reducible assumption | (simp only [keeps_mk, Cellar.allocBlock_mem, Cellar.freeBlock_mem, Cellar.freeBlocks_mem, Cellar.dropStaging_mem, Cellar.replaceStaging_mem, Hearth.runs]; with_reducible refine Keeps.parts ?_) | (intro x; refine Keeps.cut (r := r0) (s := x) ?_ ?_; unfold x; rotate_left; clear_value x; intro _) | intro _ | lift_lets -underBinder | with_reducible apply State.putHost_keeps | split)

theorem State.postBytes_keeps {r0 : State} (s : State) (h : Nat) (iova : Nat) (b : List Byte) (c : Nat) (fid : Nat) (hk : Keeps r0 s) : Keeps r0 (State.postBytes s h iova b c fid) := by
  unfold State.postBytes
  repeat' (first | with_reducible assumption | (intro x; refine Keeps.cut (r := r0) (s := x) ?_ ?_; unfold x; rotate_left; clear_value x; intro _) | intro _ | lift_lets -underBinder | with_reducible apply State.post_keeps | with_reducible apply Keeps.foldl | split)

theorem State.msix_keeps {r0 : State} (s : State) (h : Nat) (v : Nat) (hk : Keeps r0 s) : Keeps r0 (State.msix s h v) := by
  unfold State.msix
  repeat' (first | with_reducible assumption | (simp only [keeps_mk, Cellar.allocBlock_mem, Cellar.freeBlock_mem, Cellar.freeBlocks_mem, Cellar.dropStaging_mem, Cellar.replaceStaging_mem, Hearth.runs]; with_reducible refine Keeps.parts ?_) | (intro x; refine Keeps.cut (r := r0) (s := x) ?_ ?_; unfold x; rotate_left; clear_value x; intro _) | intro _ | lift_lets -underBinder | with_reducible apply State.putHost_keeps | with_reducible apply State.post_keeps | split)

theorem State.suiteEvent_keeps {r0 : State} (s : State) (i : Nat) (hk : Keeps r0 s) : Keeps r0 (State.suiteEvent s i) := by
  unfold State.suiteEvent
  repeat' (first | with_reducible assumption | (intro x; refine Keeps.cut (r := r0) (s := x) ?_ ?_; unfold x; rotate_left; clear_value x; intro _) | intro _ | lift_lets -underBinder | with_reducible apply State.msix_keeps | split)

theorem State.setSuite_keeps {r0 : State} (s : State) (i : Nat) (st : SuiteState) (hk : Keeps r0 s) : Keeps r0 (State.setSuite s i st) := by
  unfold State.setSuite
  repeat' (first | with_reducible assumption | (simp only [keeps_mk, Cellar.allocBlock_mem, Cellar.freeBlock_mem, Cellar.freeBlocks_mem, Cellar.dropStaging_mem, Cellar.replaceStaging_mem, Hearth.runs]; with_reducible refine Keeps.parts ?_) | (intro x; refine Keeps.cut (r := r0) (s := x) ?_ ?_; unfold x; rotate_left; clear_value x; intro _) | intro _ | lift_lets -underBinder | with_reducible apply State.modSuite_keeps | with_reducible apply State.suiteEvent_keeps | split)

theorem State.draw_keeps {r0 : State} (s : State) (hk : Keeps r0 s) : Keeps r0 (State.draw s).2 := by
  unfold State.draw
  repeat' (first | with_reducible assumption | (simp only [keeps_mk, Cellar.allocBlock_mem, Cellar.freeBlock_mem, Cellar.freeBlocks_mem, Cellar.dropStaging_mem, Cellar.replaceStaging_mem, Hearth.runs]; with_reducible refine Keeps.parts ?_) | (intro x; refine Keeps.cut (r := r0) (s := x) ?_ ?_; unfold x; rotate_left; clear_value x; intro _) | intro _ | lift_lets -underBinder | split)


/-! ## Flits -/

theorem State.queueFlow_keeps {r0 : State} (s : State) (p : Nat) (flow : Nat) (kind : Nat) (b : List Byte) (hk : Keeps r0 s) : Keeps r0 (State.queueFlow s p flow kind b) := by
  unfold State.queueFlow
  repeat' (first | with_reducible assumption | (simp only [keeps_mk, Cellar.allocBlock_mem, Cellar.freeBlock_mem, Cellar.freeBlocks_mem, Cellar.dropStaging_mem, Cellar.replaceStaging_mem, Hearth.runs]; with_reducible refine Keeps.parts ?_) | (intro x; refine Keeps.cut (r := r0) (s := x) ?_ ?_; unfold x; rotate_left; clear_value x; intro _) | intro _ | lift_lets -underBinder | with_reducible apply State.modPort_keeps | split)

theorem State.queue_keeps {r0 : State} (s : State) (p : Nat) (vc : Nat) (kind : Nat) (b : List Byte) (hk : Keeps r0 s) : Keeps r0 (State.queue s p vc kind b) := by
  unfold State.queue
  repeat' (first | with_reducible assumption | (simp only [keeps_mk, Cellar.allocBlock_mem, Cellar.freeBlock_mem, Cellar.freeBlocks_mem, Cellar.dropStaging_mem, Cellar.replaceStaging_mem, Hearth.runs]; with_reducible refine Keeps.parts ?_) | (intro x; refine Keeps.cut (r := r0) (s := x) ?_ ?_; unfold x; rotate_left; clear_value x; intro _) | intro _ | lift_lets -underBinder | with_reducible apply State.modPort_keeps | with_reducible apply State.queueFlow_keeps | split)

theorem State.sendCtl_keeps {r0 : State} (s : State) (p : Nat) (type : Nat) (l : List (Nat × Nat × Nat)) (hk : Keeps r0 s) : Keeps r0 (State.sendCtl s p type l) := by
  unfold State.sendCtl
  repeat' (first | with_reducible assumption | (intro x; refine Keeps.cut (r := r0) (s := x) ?_ ?_; unfold x; rotate_left; clear_value x; intro _) | intro _ | lift_lets -underBinder | with_reducible apply State.queue_keeps | split)

theorem State.sendEdge_keeps {r0 : State} (s : State) (ports : List Nat) (type : Nat) (l : List (Nat × Nat × Nat)) (hk : Keeps r0 s) : Keeps r0 (State.sendEdge s ports type l) := by
  unfold State.sendEdge
  repeat' (first | with_reducible assumption | (simp only [keeps_mk, Cellar.allocBlock_mem, Cellar.freeBlock_mem, Cellar.freeBlocks_mem, Cellar.dropStaging_mem, Cellar.replaceStaging_mem, Hearth.runs]; with_reducible refine Keeps.parts ?_) | (intro x; refine Keeps.cut (r := r0) (s := x) ?_ ?_; unfold x; rotate_left; clear_value x; intro _) | intro _ | lift_lets -underBinder | with_reducible apply State.sendCtl_keeps | split)

theorem State.floodAbort_keeps {r0 : State} (s : State) (g : Nat) (e : List Byte) (k : KeptAbort) (skip : Option Nat) (hk : Keeps r0 s) : Keeps r0 (State.floodAbort s g e k skip) := by
  unfold State.floodAbort
  repeat' (first | with_reducible assumption | (intro x; refine Keeps.cut (r := r0) (s := x) ?_ ?_; unfold x; rotate_left; clear_value x; intro _) | intro _ | lift_lets -underBinder | with_reducible apply overList_keeps | with_reducible apply State.sendCtl_keeps | with_reducible apply Keeps.overList | split)

theorem State.peerAbort_keeps {r0 : State} (s : State) (g : Nat) (e : List Byte) (key : Nat) (barrier : Bool) (status : Nat) (hk : Keeps r0 s) : Keeps r0 (State.peerAbort s g e key barrier status) := by
  unfold State.peerAbort
  repeat' (first | with_reducible assumption | (simp only [keeps_mk, Cellar.allocBlock_mem, Cellar.freeBlock_mem, Cellar.freeBlocks_mem, Cellar.dropStaging_mem, Cellar.replaceStaging_mem, Hearth.runs]; with_reducible refine Keeps.parts ?_) | (intro x; refine Keeps.cut (r := r0) (s := x) ?_ ?_; unfold x; rotate_left; clear_value x; intro _) | intro _ | lift_lets -underBinder | with_reducible apply State.modGrp_keeps | with_reducible apply State.floodAbort_keeps | split)


/-! ## Issue -/

theorem State.refresh_keeps {r0 : State} (s : State) (c : Nat) (hk : Keeps r0 s) : Keeps r0 (State.refresh s c) := by
  unfold State.refresh
  repeat' (first | with_reducible assumption | (simp only [keeps_mk, Cellar.allocBlock_mem, Cellar.freeBlock_mem, Cellar.freeBlocks_mem, Cellar.dropStaging_mem, Cellar.replaceStaging_mem, Hearth.runs]; with_reducible refine Keeps.parts ?_) | (intro x; refine Keeps.cut (r := r0) (s := x) ?_ ?_; unfold x; rotate_left; clear_value x; intro _) | intro _ | lift_lets -underBinder | with_reducible apply State.putCtx_keeps | split)

theorem State.wake_keeps {r0 : State} (s : State) (hk : Keeps r0 s) : Keeps r0 (State.wake s) := by
  unfold State.wake
  repeat' (first | with_reducible assumption | (simp only [keeps_mk, Cellar.allocBlock_mem, Cellar.freeBlock_mem, Cellar.freeBlocks_mem, Cellar.dropStaging_mem, Cellar.replaceStaging_mem, Hearth.runs]; with_reducible refine Keeps.parts ?_) | (intro x; refine Keeps.cut (r := r0) (s := x) ?_ ?_; unfold x; rotate_left; clear_value x; intro _) | intro _ | lift_lets -underBinder | split | (simp only [keeps_mk, Cellar.allocBlock_mem, Cellar.freeBlock_mem, Cellar.freeBlocks_mem, Cellar.dropStaging_mem, Cellar.replaceStaging_mem, Hearth.runs]; with_reducible refine Keeps.partsMem ?_ (fun w => by first | exact w | exact Cellar.scrub_wf w | exact Cellar.putUnits_wf w | exact Cellar.maskUnit_wf ‹_› w | (exact Cellar.scrub_wf (by simpa using w)) | simp [Memory.wf])) | (simp only [keeps_mk, Cellar.allocBlock_mem, Cellar.freeBlock_mem, Cellar.freeBlocks_mem, Cellar.dropStaging_mem, Cellar.replaceStaging_mem, Hearth.runs]; with_reducible refine Keeps.partsTo ?_ (by simp) (fun w => by first | exact w | exact Cellar.scrub_wf w | exact Cellar.putUnits_wf w | exact Cellar.maskUnit_wf ‹_› w | (exact Cellar.scrub_wf (by simpa using w)) | simp [Memory.wf])))

theorem State.arrive_keeps {r0 : State} (s : State) (i : Instr) (f : State → Out) (hk : Keeps r0 s) (hf : ∀ y0, Keeps r0 y0 → KeepsOut r0 (f y0)) : KeepsOut r0 (State.arrive s i f) := by
  unfold State.arrive
  repeat' (first | with_reducible assumption | (simp only [keeps_mk, Cellar.allocBlock_mem, Cellar.freeBlock_mem, Cellar.freeBlocks_mem, Cellar.dropStaging_mem, Cellar.replaceStaging_mem, Hearth.runs]; with_reducible refine Keeps.parts ?_) | with_reducible apply hf | with_reducible apply KeepsOut.next | (intro x; refine Keeps.cut (r := r0) (s := x) ?_ ?_; unfold x; rotate_left; clear_value x; intro _) | intro _ | lift_lets -underBinder | with_reducible apply State.wake_keeps | split)

theorem State.fabricIn_keeps {r0 : State} (s : State) (p : Nat) (i : Instr) (f : State → Out) (hk : Keeps r0 s) (hf : ∀ y0, Keeps r0 y0 → KeepsOut r0 (f y0)) : KeepsOut r0 (State.fabricIn s p i f) := by
  unfold State.fabricIn
  repeat' (first | with_reducible assumption | with_reducible apply hf | with_reducible apply KeepsOut.next | (intro x; refine Keeps.cut (r := r0) (s := x) ?_ ?_; unfold x; rotate_left; clear_value x; intro _) | intro _ | lift_lets -underBinder | with_reducible apply State.arrive_keeps | split)

theorem State.hostIn_keeps {r0 : State} (s : State) (h : Nat) (i : Instr) (f : State → Out) (hk : Keeps r0 s) (hf : ∀ y0, Keeps r0 y0 → KeepsOut r0 (f y0)) : KeepsOut r0 (State.hostIn s h i f) := by
  unfold State.hostIn
  repeat' (first | with_reducible assumption | with_reducible apply hf | with_reducible apply KeepsOut.next | (intro x; refine Keeps.cut (r := r0) (s := x) ?_ ?_; unfold x; rotate_left; clear_value x; intro _) | intro _ | lift_lets -underBinder | with_reducible apply State.arrive_keeps | split)

theorem State.pumpHost_keeps {r0 : State} (s : State) (h : Nat) (hk : Keeps r0 s) : Keeps r0 (State.pumpHost s h) := by
  unfold State.pumpHost
  repeat' (first | with_reducible assumption | (intro x; refine Keeps.cut (r := r0) (s := x) ?_ ?_; unfold x; rotate_left; clear_value x; intro _) | intro _ | lift_lets -underBinder | with_reducible apply State.putHost_keeps | split)

theorem State.readHost_keeps {r0 : State} (s : State) (h : Nat) (iova : Nat) (skew : Nat) (len : Nat) (owner : Nat → ReadOwner) (hk : Keeps r0 s) : Keeps r0 (State.readHost s h iova skew len owner) := by
  unfold State.readHost
  repeat' (first | with_reducible assumption | (simp only [keeps_mk, Cellar.allocBlock_mem, Cellar.freeBlock_mem, Cellar.freeBlocks_mem, Cellar.dropStaging_mem, Cellar.replaceStaging_mem, Hearth.runs]; with_reducible refine Keeps.parts ?_) | (intro x; refine Keeps.cut (r := r0) (s := x) ?_ ?_; unfold x; rotate_left; clear_value x; intro _) | intro _ | lift_lets -underBinder | with_reducible apply State.modHost_keeps | with_reducible apply State.pumpHost_keeps | split)

theorem State.countSlow_keeps {r0 : State} (s : State) (c : Nat) (h : Nat) (hk : Keeps r0 s) : Keeps r0 (State.countSlow s c h) := by
  unfold State.countSlow
  repeat' (first | with_reducible assumption | (simp only [keeps_mk, Cellar.allocBlock_mem, Cellar.freeBlock_mem, Cellar.freeBlocks_mem, Cellar.dropStaging_mem, Cellar.replaceStaging_mem, Hearth.runs]; with_reducible refine Keeps.parts ?_) | (intro x; refine Keeps.cut (r := r0) (s := x) ?_ ?_; unfold x; rotate_left; clear_value x; intro _) | intro _ | lift_lets -underBinder | with_reducible apply State.modCtx_keeps | with_reducible apply State.modHost_keeps | split)

theorem State.directRead_keeps {r0 : State} (s : State) (c : Nat) (h : Nat) (res : ReadResult) (hk : Keeps r0 s) : Keeps r0 (State.directRead s c h res) := by
  unfold State.directRead
  repeat' (first | with_reducible assumption | (simp only [keeps_mk, Cellar.allocBlock_mem, Cellar.freeBlock_mem, Cellar.freeBlocks_mem, Cellar.dropStaging_mem, Cellar.replaceStaging_mem, Hearth.runs]; with_reducible refine Keeps.parts ?_) | (intro x; refine Keeps.cut (r := r0) (s := x) ?_ ?_; unfold x; rotate_left; clear_value x; intro _) | intro _ | lift_lets -underBinder | with_reducible apply State.draw_keeps | with_reducible apply State.countSlow_keeps | split)

theorem State.dropReads_keeps {r0 : State} (s : State) (c : Nat) (fid : Nat) (hk : Keeps r0 s) : Keeps r0 (State.dropReads s c fid) := by
  unfold State.dropReads
  repeat' (first | with_reducible assumption | (simp only [keeps_mk, Cellar.allocBlock_mem, Cellar.freeBlock_mem, Cellar.freeBlocks_mem, Cellar.dropStaging_mem, Cellar.replaceStaging_mem, Hearth.runs]; with_reducible refine Keeps.parts ?_) | (intro x; refine Keeps.cut (r := r0) (s := x) ?_ ?_; unfold x; rotate_left; clear_value x; intro _) | intro _ | lift_lets -underBinder | split)

theorem State.dropWrites_keeps {r0 : State} (s : State) (c : Nat) (fid : Nat) (hk : Keeps r0 s) : Keeps r0 (State.dropWrites s c fid) := by
  unfold State.dropWrites
  repeat' (first | with_reducible assumption | (simp only [keeps_mk, Cellar.allocBlock_mem, Cellar.freeBlock_mem, Cellar.freeBlocks_mem, Cellar.dropStaging_mem, Cellar.replaceStaging_mem, Hearth.runs]; with_reducible refine Keeps.parts ?_) | (intro x; refine Keeps.cut (r := r0) (s := x) ?_ ?_; unfold x; rotate_left; clear_value x; intro _) | intro _ | lift_lets -underBinder | with_reducible apply State.msix_keeps | split)

theorem State.clearWaiter_keeps {r0 : State} (s : State) (c : Nat) (z0 : FlightKind) (hk : Keeps r0 s) : Keeps r0 (State.clearWaiter s c z0) := by
  unfold State.clearWaiter
  repeat' (first | with_reducible assumption | (simp only [keeps_mk, Cellar.allocBlock_mem, Cellar.freeBlock_mem, Cellar.freeBlocks_mem, Cellar.dropStaging_mem, Cellar.replaceStaging_mem, Hearth.runs]; with_reducible refine Keeps.parts ?_) | (intro x; refine Keeps.cut (r := r0) (s := x) ?_ ?_; unfold x; rotate_left; clear_value x; intro _) | intro _ | lift_lets -underBinder | split | (simp only [keeps_mk, Cellar.allocBlock_mem, Cellar.freeBlock_mem, Cellar.freeBlocks_mem, Cellar.dropStaging_mem, Cellar.replaceStaging_mem, Hearth.runs]; with_reducible refine Keeps.partsMem ?_ (fun w => by first | exact w | exact Cellar.scrub_wf w | exact Cellar.putUnits_wf w | exact Cellar.maskUnit_wf ‹_› w | (exact Cellar.scrub_wf (by simpa using w)) | simp [Memory.wf])) | (simp only [keeps_mk, Cellar.allocBlock_mem, Cellar.freeBlock_mem, Cellar.freeBlocks_mem, Cellar.dropStaging_mem, Cellar.replaceStaging_mem, Hearth.runs]; with_reducible refine Keeps.partsTo ?_ (by simp) (fun w => by first | exact w | exact Cellar.scrub_wf w | exact Cellar.putUnits_wf w | exact Cellar.maskUnit_wf ‹_› w | (exact Cellar.scrub_wf (by simpa using w)) | simp [Memory.wf])))

theorem State.dropWire_keeps {r0 : State} (s : State) (c : Nat) (f : Flight) (hk : Keeps r0 s) : Keeps r0 (State.dropWire s c f) := by
  unfold State.dropWire
  repeat' (first | with_reducible assumption | (simp only [keeps_mk, Cellar.allocBlock_mem, Cellar.freeBlock_mem, Cellar.freeBlocks_mem, Cellar.dropStaging_mem, Cellar.replaceStaging_mem, Hearth.runs]; with_reducible refine Keeps.parts ?_) | (intro x; refine Keeps.cut (r := r0) (s := x) ?_ ?_; unfold x; rotate_left; clear_value x; intro _) | intro _ | lift_lets -underBinder | split | (simp only [keeps_mk, Cellar.allocBlock_mem, Cellar.freeBlock_mem, Cellar.freeBlocks_mem, Cellar.dropStaging_mem, Cellar.replaceStaging_mem, Hearth.runs]; with_reducible refine Keeps.partsMem ?_ (fun w => by first | exact w | exact Cellar.scrub_wf w | exact Cellar.putUnits_wf w | exact Cellar.maskUnit_wf ‹_› w | (exact Cellar.scrub_wf (by simpa using w)) | simp [Memory.wf])) | (simp only [keeps_mk, Cellar.allocBlock_mem, Cellar.freeBlock_mem, Cellar.freeBlocks_mem, Cellar.dropStaging_mem, Cellar.replaceStaging_mem, Hearth.runs]; with_reducible refine Keeps.partsTo ?_ (by simp) (fun w => by first | exact w | exact Cellar.scrub_wf w | exact Cellar.putUnits_wf w | exact Cellar.maskUnit_wf ‹_› w | (exact Cellar.scrub_wf (by simpa using w)) | simp [Memory.wf])))

theorem State.freeFlight_keeps {r0 : State} (s : State) (c : Nat) (f : Flight) (hk : Keeps r0 s) : Keeps r0 (State.freeFlight s c f) := by
  unfold State.freeFlight
  repeat' (first | with_reducible assumption | (simp only [keeps_mk, Cellar.allocBlock_mem, Cellar.freeBlock_mem, Cellar.freeBlocks_mem, Cellar.dropStaging_mem, Cellar.replaceStaging_mem, Hearth.runs]; with_reducible refine Keeps.parts ?_) | (intro x; refine Keeps.cut (r := r0) (s := x) ?_ ?_; unfold x; rotate_left; clear_value x; intro _) | intro _ | lift_lets -underBinder | with_reducible apply State.dropReads_keeps | with_reducible apply State.dropWrites_keeps | with_reducible apply State.clearWaiter_keeps | with_reducible apply State.dropWire_keeps | split | (simp only [keeps_mk, Cellar.allocBlock_mem, Cellar.freeBlock_mem, Cellar.freeBlocks_mem, Cellar.dropStaging_mem, Cellar.replaceStaging_mem, Hearth.runs]; with_reducible refine Keeps.partsMem ?_ (fun w => by first | exact w | exact Cellar.scrub_wf w | exact Cellar.putUnits_wf w | exact Cellar.maskUnit_wf ‹_› w | (exact Cellar.scrub_wf (by simpa using w)) | simp [Memory.wf])) | (simp only [keeps_mk, Cellar.allocBlock_mem, Cellar.freeBlock_mem, Cellar.freeBlocks_mem, Cellar.dropStaging_mem, Cellar.replaceStaging_mem, Hearth.runs]; with_reducible refine Keeps.partsTo ?_ (by simp) (fun w => by first | exact w | exact Cellar.scrub_wf w | exact Cellar.putUnits_wf w | exact Cellar.maskUnit_wf ‹_› w | (exact Cellar.scrub_wf (by simpa using w)) | simp [Memory.wf])))

theorem State.endFlight_keeps {r0 : State} (s : State) (c : Nat) (fid : Nat) (d : Done) (hk : Keeps r0 s) : Keeps r0 (State.endFlight s c fid d) := by
  unfold State.endFlight
  repeat' (first | with_reducible assumption | (simp only [keeps_mk, Cellar.allocBlock_mem, Cellar.freeBlock_mem, Cellar.freeBlocks_mem, Cellar.dropStaging_mem, Cellar.replaceStaging_mem, Hearth.runs]; with_reducible refine Keeps.parts ?_) | (intro x; refine Keeps.cut (r := r0) (s := x) ?_ ?_; unfold x; rotate_left; clear_value x; intro _) | intro _ | lift_lets -underBinder | with_reducible apply State.modCtx_keeps | with_reducible apply State.freeFlight_keeps | split)

theorem State.tellPeers_keeps {r0 : State} (s : State) (f : Flight) (status : Nat) (hk : Keeps r0 s) : Keeps r0 (State.tellPeers s f status) := by
  unfold State.tellPeers
  repeat' (first | with_reducible assumption | (simp only [keeps_mk, Cellar.allocBlock_mem, Cellar.freeBlock_mem, Cellar.freeBlocks_mem, Cellar.dropStaging_mem, Cellar.replaceStaging_mem, Hearth.runs]; with_reducible refine Keeps.parts ?_) | (intro x; refine Keeps.cut (r := r0) (s := x) ?_ ?_; unfold x; rotate_left; clear_value x; intro _) | intro _ | lift_lets -underBinder | with_reducible apply State.peerAbort_keeps | split)

theorem State.failFlight_keeps {r0 : State} (s : State) (c : Nat) (fid : Nat) (d : Done) (hk : Keeps r0 s) : Keeps r0 (State.failFlight s c fid d) := by
  unfold State.failFlight
  repeat' (first | with_reducible assumption | (simp only [keeps_mk, Cellar.allocBlock_mem, Cellar.freeBlock_mem, Cellar.freeBlocks_mem, Cellar.dropStaging_mem, Cellar.replaceStaging_mem, Hearth.runs]; with_reducible refine Keeps.parts ?_) | (intro x; refine Keeps.cut (r := r0) (s := x) ?_ ?_; unfold x; rotate_left; clear_value x; intro _) | intro _ | lift_lets -underBinder | with_reducible apply State.endFlight_keeps | with_reducible apply State.tellPeers_keeps | split)

theorem State.abortFlight_keeps {r0 : State} (s : State) (c : Nat) (fid : Nat) (hk : Keeps r0 s) : Keeps r0 (State.abortFlight s c fid) := by
  unfold State.abortFlight
  repeat' (first | with_reducible assumption | (simp only [keeps_mk, Cellar.allocBlock_mem, Cellar.freeBlock_mem, Cellar.freeBlocks_mem, Cellar.dropStaging_mem, Cellar.replaceStaging_mem, Hearth.runs]; with_reducible refine Keeps.parts ?_) | (intro x; refine Keeps.cut (r := r0) (s := x) ?_ ?_; unfold x; rotate_left; clear_value x; intro _) | intro _ | lift_lets -underBinder | with_reducible apply State.modCtx_keeps | with_reducible apply State.tellPeers_keeps | with_reducible apply State.failFlight_keeps | split)

theorem State.writeEntry_keeps {r0 : State} (s : State) (c : Nat) (f : Flight) (d : Done) (hk : Keeps r0 s) : Keeps r0 (State.writeEntry s c f d) := by
  unfold State.writeEntry
  repeat' (first | with_reducible assumption | (simp only [keeps_mk, Cellar.allocBlock_mem, Cellar.freeBlock_mem, Cellar.freeBlocks_mem, Cellar.dropStaging_mem, Cellar.replaceStaging_mem, Hearth.runs]; with_reducible refine Keeps.parts ?_) | (intro x; refine Keeps.cut (r := r0) (s := x) ?_ ?_; unfold x; rotate_left; clear_value x; intro _) | intro _ | lift_lets -underBinder | with_reducible apply State.modCtx_keeps | with_reducible apply State.modHost_keeps | with_reducible apply State.post_keeps | split)

theorem State.ctxVector_keeps {r0 : State} (s : State) (c : Nat) (hk : Keeps r0 s) : Keeps r0 (State.ctxVector s c) := by
  unfold State.ctxVector
  repeat' (first | with_reducible assumption | (intro x; refine Keeps.cut (r := r0) (s := x) ?_ ?_; unfold x; rotate_left; clear_value x; intro _) | intro _ | lift_lets -underBinder | with_reducible apply State.msix_keeps | split)

theorem State.statusRecord_keeps {r0 : State} (s : State) (c : Nat) (f : Flight) (d : Done) (hk : Keeps r0 s) : Keeps r0 (State.statusRecord s c f d) := by
  unfold State.statusRecord
  repeat' (first | with_reducible assumption | (intro x; refine Keeps.cut (r := r0) (s := x) ?_ ?_; unfold x; rotate_left; clear_value x; intro _) | intro _ | lift_lets -underBinder | with_reducible apply State.record_keeps | split)

theorem State.progressIn_keeps {r0 : State} (s : State) (i : Option Nat) (hk : Keeps r0 s) : Keeps r0 (State.progressIn s i) := by
  unfold State.progressIn
  repeat' (first | with_reducible assumption | (simp only [keeps_mk, Cellar.allocBlock_mem, Cellar.freeBlock_mem, Cellar.freeBlocks_mem, Cellar.dropStaging_mem, Cellar.replaceStaging_mem, Hearth.runs]; with_reducible refine Keeps.parts ?_) | (intro x; refine Keeps.cut (r := r0) (s := x) ?_ ?_; unfold x; rotate_left; clear_value x; intro _) | intro _ | lift_lets -underBinder | with_reducible apply State.modSuite_keeps | split)

theorem State.failGroup_keeps {r0 : State} (s : State) (c : Nat) (f : Flight) (hk : Keeps r0 s) : Keeps r0 (State.failGroup s c f) := by
  unfold State.failGroup
  repeat' (first | with_reducible assumption | (simp only [keeps_mk, Cellar.allocBlock_mem, Cellar.freeBlock_mem, Cellar.freeBlocks_mem, Cellar.dropStaging_mem, Cellar.replaceStaging_mem, Hearth.runs]; with_reducible refine Keeps.parts ?_) | (intro x; refine Keeps.cut (r := r0) (s := x) ?_ ?_; unfold x; rotate_left; clear_value x; intro _) | intro _ | lift_lets -underBinder | with_reducible apply State.modCtx_keeps | with_reducible apply overList_keeps | with_reducible apply State.freeFlight_keeps | with_reducible apply Keeps.overList | split)

theorem State.complete_keeps {r0 : State} (s : State) (c : Nat) (f : Flight) (d0 : Done) (hk : Keeps r0 s) : Keeps r0 (State.complete s c f d0) := by
  unfold State.complete
  repeat' (first | with_reducible assumption | (simp only [keeps_mk, Cellar.allocBlock_mem, Cellar.freeBlock_mem, Cellar.freeBlocks_mem, Cellar.dropStaging_mem, Cellar.replaceStaging_mem, Hearth.runs]; with_reducible refine Keeps.parts ?_) | (intro x; refine Keeps.cut (r := r0) (s := x) ?_ ?_; unfold x; rotate_left; clear_value x; intro _) | intro _ | lift_lets -underBinder | with_reducible apply State.modCtx_keeps | with_reducible apply State.writeEntry_keeps | with_reducible apply State.ctxVector_keeps | with_reducible apply State.statusRecord_keeps | with_reducible apply State.progressIn_keeps | with_reducible apply State.failGroup_keeps | split)

theorem retire_keeps {r0 : State} (c : Nat) (z0 : Nat) (z1 : State) (hk : Keeps r0 z1) : Keeps r0 (retire c z0 z1) := by
  induction z0 generalizing z1 with
  | zero => exact hk
  | succ n ih =>
    unfold retire
    split
    · exact ih _ (State.complete_keeps _ _ _ _ hk)
    · exact hk

theorem State.carryOut_keeps {r0 : State} (s : State) (c : Nat) (a : Assignment) (hk : Keeps r0 s) : Keeps r0 (State.carryOut s c a) := by
  unfold State.carryOut
  repeat' (first | with_reducible assumption | (intro x; refine Keeps.cut (r := r0) (s := x) ?_ ?_; unfold x; rotate_left; clear_value x; intro _) | intro _ | lift_lets -underBinder | with_reducible apply State.putCtx_keeps | with_reducible apply State.wake_keeps | split)

theorem State.drainEnd_keeps {r0 : State} (s : State) (c : Nat) (hk : Keeps r0 s) : Keeps r0 (State.drainEnd s c) := by
  unfold State.drainEnd
  repeat' (first | with_reducible assumption | (simp only [keeps_mk, Cellar.allocBlock_mem, Cellar.freeBlock_mem, Cellar.freeBlocks_mem, Cellar.dropStaging_mem, Cellar.replaceStaging_mem, Hearth.runs]; with_reducible refine Keeps.parts ?_) | (intro x; refine Keeps.cut (r := r0) (s := x) ?_ ?_; unfold x; rotate_left; clear_value x; intro _) | intro _ | lift_lets -underBinder | with_reducible apply State.putCtx_keeps | with_reducible apply State.ctxVector_keeps | with_reducible apply State.carryOut_keeps | split)

theorem State.settleFlights_keeps {r0 : State} (s : State) (c : Nat) (hk : Keeps r0 s) : Keeps r0 (State.settleFlights s c) := by
  unfold State.settleFlights
  repeat' (first | with_reducible assumption | (intro x; refine Keeps.cut (r := r0) (s := x) ?_ ?_; unfold x; rotate_left; clear_value x; intro _) | intro _ | lift_lets -underBinder | with_reducible apply State.refresh_keeps | with_reducible apply retire_keeps | with_reducible apply State.drainEnd_keeps | split)


/-! ## Rings -/

theorem State.modBell_keeps {r0 : State} (s : State) (off : Nat) (f : BellRec → BellRec) (hk : Keeps r0 s) : Keeps r0 (State.modBell s off f) := by
  unfold State.modBell
  repeat' (first | with_reducible assumption | (simp only [keeps_mk, Cellar.allocBlock_mem, Cellar.freeBlock_mem, Cellar.freeBlocks_mem, Cellar.dropStaging_mem, Cellar.replaceStaging_mem, Hearth.runs]; with_reducible refine Keeps.parts ?_) | (intro x; refine Keeps.cut (r := r0) (s := x) ?_ ?_; unfold x; rotate_left; clear_value x; intro _) | intro _ | lift_lets -underBinder | split | (simp only [keeps_mk, Cellar.allocBlock_mem, Cellar.freeBlock_mem, Cellar.freeBlocks_mem, Cellar.dropStaging_mem, Cellar.replaceStaging_mem, Hearth.runs]; with_reducible refine Keeps.partsMem ?_ (fun w => by first | exact w | exact Cellar.scrub_wf w | exact Cellar.putUnits_wf w | exact Cellar.maskUnit_wf ‹_› w | (exact Cellar.scrub_wf (by simpa using w)) | simp [Memory.wf])) | (simp only [keeps_mk, Cellar.allocBlock_mem, Cellar.freeBlock_mem, Cellar.freeBlocks_mem, Cellar.dropStaging_mem, Cellar.replaceStaging_mem, Hearth.runs]; with_reducible refine Keeps.partsTo ?_ (by simp) (fun w => by first | exact w | exact Cellar.scrub_wf w | exact Cellar.putUnits_wf w | exact Cellar.maskUnit_wf ‹_› w | (exact Cellar.scrub_wf (by simpa using w)) | simp [Memory.wf])))

theorem State.ringLocal_keeps {r0 : State} (s : State) (c : Nat) (id : Nat) (add : Bool) (v : Word64) (hk : Keeps r0 s) : Keeps r0 (State.ringLocal s c id add v).2 := by
  unfold State.ringLocal
  repeat' (first | with_reducible assumption | (simp only [keeps_mk, Cellar.allocBlock_mem, Cellar.freeBlock_mem, Cellar.freeBlocks_mem, Cellar.dropStaging_mem, Cellar.replaceStaging_mem, Hearth.runs]; with_reducible refine Keeps.parts ?_) | (intro x; refine Keeps.cut (r := r0) (s := x) ?_ ?_; unfold x; rotate_left; clear_value x; intro _) | intro _ | lift_lets -underBinder | with_reducible apply State.modCtx_keeps | with_reducible apply State.progressIn_keeps | split | (simp only [id_eq]))

theorem State.ringRecord_keeps {r0 : State} (s : State) (off : Nat) (add : Bool) (v : Word64) (eng : Nat) (ctx : Nat) (fig : Nat) (hk : Keeps r0 s) : Keeps r0 (State.ringRecord s off add v eng ctx fig).2 := by
  unfold State.ringRecord
  repeat' (first | with_reducible assumption | (simp only [keeps_mk, Cellar.allocBlock_mem, Cellar.freeBlock_mem, Cellar.freeBlocks_mem, Cellar.dropStaging_mem, Cellar.replaceStaging_mem, Hearth.runs]; with_reducible refine Keeps.parts ?_) | (intro x; refine Keeps.cut (r := r0) (s := x) ?_ ?_; unfold x; rotate_left; clear_value x; intro _) | intro _ | lift_lets -underBinder | with_reducible apply State.progressIn_keeps | with_reducible apply State.modBell_keeps | split)

theorem State.takeBell_keeps {r0 : State} (s : State) (c : Nat) (b : BellRef) (result : Nat) (hk : Keeps r0 s) : Keeps r0 (State.takeBell s c b result) := by
  unfold State.takeBell
  repeat' (first | with_reducible assumption | (simp only [keeps_mk, Cellar.allocBlock_mem, Cellar.freeBlock_mem, Cellar.freeBlocks_mem, Cellar.dropStaging_mem, Cellar.replaceStaging_mem, Hearth.runs]; with_reducible refine Keeps.parts ?_) | (intro x; refine Keeps.cut (r := r0) (s := x) ?_ ?_; unfold x; rotate_left; clear_value x; intro _) | intro _ | lift_lets -underBinder | with_reducible apply State.modCtx_keeps | with_reducible apply State.progressIn_keeps | with_reducible apply State.modBell_keeps | split | (simp only [id_eq]))

theorem State.wakeBell_keeps {r0 : State} (s : State) (c : Nat) (b : BellRef) (hk : Keeps r0 s) : Keeps r0 (State.wakeBell s c b) := by
  unfold State.wakeBell
  repeat' (first | with_reducible assumption | (simp only [keeps_mk, Cellar.allocBlock_mem, Cellar.freeBlock_mem, Cellar.freeBlocks_mem, Cellar.dropStaging_mem, Cellar.replaceStaging_mem, Hearth.runs]; with_reducible refine Keeps.parts ?_) | (intro x; refine Keeps.cut (r := r0) (s := x) ?_ ?_; unfold x; rotate_left; clear_value x; intro _) | intro _ | lift_lets -underBinder | with_reducible apply overList_keeps | with_reducible apply State.endFlight_keeps | with_reducible apply State.settleFlights_keeps | with_reducible apply State.takeBell_keeps | with_reducible apply Keeps.overList | split)

theorem State.ringBlocked_keeps {r0 : State} (s : State) (eng : Nat) (ctx : Nat) (tenant : Nat) (fig : Nat) (off : Nat) (hk : Keeps r0 s) : Keeps r0 (State.ringBlocked s eng ctx tenant fig off) := by
  unfold State.ringBlocked
  repeat' (first | with_reducible assumption | (simp only [keeps_mk, Cellar.allocBlock_mem, Cellar.freeBlock_mem, Cellar.freeBlocks_mem, Cellar.dropStaging_mem, Cellar.replaceStaging_mem, Hearth.runs]; with_reducible refine Keeps.parts ?_) | (intro x; refine Keeps.cut (r := r0) (s := x) ?_ ?_; unfold x; rotate_left; clear_value x; intro _) | intro _ | lift_lets -underBinder | with_reducible apply State.record_keeps | split)

theorem State.countTarget_keeps {r0 : State} (s : State) (part : Nat) (hk : Keeps r0 s) : Keeps r0 (State.countTarget s part) := by
  unfold State.countTarget
  repeat' (first | with_reducible assumption | (simp only [keeps_mk, Cellar.allocBlock_mem, Cellar.freeBlock_mem, Cellar.freeBlocks_mem, Cellar.dropStaging_mem, Cellar.replaceStaging_mem, Hearth.runs]; with_reducible refine Keeps.parts ?_) | (intro x; refine Keeps.cut (r := r0) (s := x) ?_ ?_; unfold x; rotate_left; clear_value x; intro _) | intro _ | lift_lets -underBinder | with_reducible apply State.modHost_keeps | split)

theorem State.countService_keeps {r0 : State} (s : State) (st : Nat) (detail : Nat) (hk : Keeps r0 s) : Keeps r0 (State.countService s st detail) := by
  unfold State.countService
  repeat' (first | with_reducible assumption | (intro x; refine Keeps.cut (r := r0) (s := x) ?_ ?_; unfold x; rotate_left; clear_value x; intro _) | intro _ | lift_lets -underBinder | with_reducible apply State.countTarget_keeps | split)

theorem State.ringGo_keeps {r0 : State} (s : State) (c : Nat) (f : Flight) (hk : Keeps r0 s) : Keeps r0 (State.ringGo s c f) := by
  unfold State.ringGo
  repeat' (first | with_reducible assumption | (simp only [keeps_mk, Cellar.allocBlock_mem, Cellar.freeBlock_mem, Cellar.freeBlocks_mem, Cellar.dropStaging_mem, Cellar.replaceStaging_mem, Hearth.runs]; with_reducible refine Keeps.parts ?_) | (intro x; refine Keeps.cut (r := r0) (s := x) ?_ ?_; unfold x; rotate_left; clear_value x; intro _) | intro _ | lift_lets -underBinder | with_reducible apply State.modCtx_keeps | with_reducible apply State.queueFlow_keeps | with_reducible apply State.endFlight_keeps | with_reducible apply State.ringLocal_keeps | with_reducible apply State.ringRecord_keeps | with_reducible apply State.wakeBell_keeps | with_reducible apply State.ringBlocked_keeps | with_reducible apply State.countService_keeps | split | (simp only [id_eq]))

theorem State.ringsGo_keeps {r0 : State} (s : State) (c : Nat) (hk : Keeps r0 s) : Keeps r0 (State.ringsGo s c) := by
  unfold State.ringsGo
  repeat' (first | with_reducible assumption | (intro x; refine Keeps.cut (r := r0) (s := x) ?_ ?_; unfold x; rotate_left; clear_value x; intro _) | intro _ | lift_lets -underBinder | with_reducible apply overList_keeps | with_reducible apply State.ringGo_keeps | with_reducible apply Keeps.overList | split)

theorem State.settle_keeps {r0 : State} (s : State) (c : Nat) (hk : Keeps r0 s) : Keeps r0 (State.settle s c) := by
  unfold State.settle
  repeat' (first | with_reducible assumption | (intro x; refine Keeps.cut (r := r0) (s := x) ?_ ?_; unfold x; rotate_left; clear_value x; intro _) | intro _ | lift_lets -underBinder | with_reducible apply State.settleFlights_keeps | with_reducible apply State.ringsGo_keeps | split)

theorem State.ringAnswered_keeps {r0 : State} (s : State) (c : Nat) (f : Flight) (hk : Keeps r0 s) : Keeps r0 (State.ringAnswered s c f) := by
  unfold State.ringAnswered
  repeat' (first | with_reducible assumption | (simp only [keeps_mk, Cellar.allocBlock_mem, Cellar.freeBlock_mem, Cellar.freeBlocks_mem, Cellar.dropStaging_mem, Cellar.replaceStaging_mem, Hearth.runs]; with_reducible refine Keeps.parts ?_) | (intro x; refine Keeps.cut (r := r0) (s := x) ?_ ?_; unfold x; rotate_left; clear_value x; intro _) | intro _ | lift_lets -underBinder | with_reducible apply State.draw_keeps | with_reducible apply State.endFlight_keeps | with_reducible apply State.settle_keeps | split)

theorem State.ringsAnswered_keeps {r0 : State} (s : State) (hk : Keeps r0 s) : Keeps r0 (State.ringsAnswered s) := by
  unfold State.ringsAnswered
  repeat' (first | with_reducible assumption | (intro x; refine Keeps.cut (r := r0) (s := x) ?_ ?_; unfold x; rotate_left; clear_value x; intro _) | intro _ | lift_lets -underBinder | with_reducible apply overList_keeps | with_reducible apply State.ringAnswered_keeps | with_reducible apply Keeps.overList | split)

theorem State.loseSentRings_keeps {r0 : State} (s : State) (c : Nat) (fid : Nat) (home : Nat) (chunk : Nat) (hk : Keeps r0 s) : Keeps r0 (State.loseSentRings s c fid home chunk) := by
  unfold State.loseSentRings
  repeat' (first | with_reducible assumption | (simp only [keeps_mk, Cellar.allocBlock_mem, Cellar.freeBlock_mem, Cellar.freeBlocks_mem, Cellar.dropStaging_mem, Cellar.replaceStaging_mem, Hearth.runs]; with_reducible refine Keeps.parts ?_) | (intro x; refine Keeps.cut (r := r0) (s := x) ?_ ?_; unfold x; rotate_left; clear_value x; intro _) | intro _ | lift_lets -underBinder | with_reducible apply overList_keeps | with_reducible apply State.endFlight_keeps | with_reducible apply Keeps.overList | split)

theorem State.settleAll_keeps {r0 : State} (s : State) (hk : Keeps r0 s) : Keeps r0 (State.settleAll s) := by
  unfold State.settleAll
  repeat' (first | with_reducible assumption | (intro x; refine Keeps.cut (r := r0) (s := x) ?_ ?_; unfold x; rotate_left; clear_value x; intro _) | intro _ | lift_lets -underBinder | with_reducible apply overList_keeps | with_reducible apply State.settle_keeps | with_reducible apply Keeps.overList | split)

theorem State.issueAt_keeps {r0 : State} (s : State) (c : Nat) (idx : Nat) (f : List Byte) (pc : Nat) (kind : FlightKind) (done : Option Done) (hk : Keeps r0 s) : Keeps r0 (State.issueAt s c idx f pc kind done) := by
  unfold State.issueAt
  repeat' (first | with_reducible assumption | (simp only [keeps_mk, Cellar.allocBlock_mem, Cellar.freeBlock_mem, Cellar.freeBlocks_mem, Cellar.dropStaging_mem, Cellar.replaceStaging_mem, Hearth.runs]; with_reducible refine Keeps.parts ?_) | (intro x; refine Keeps.cut (r := r0) (s := x) ?_ ?_; unfold x; rotate_left; clear_value x; intro _) | intro _ | lift_lets -underBinder | with_reducible apply State.modCtx_keeps | with_reducible apply State.progressIn_keeps | split)

theorem State.issue_keeps {r0 : State} (s : State) (c : Nat) (idx : Nat) (f : List Byte) (kind : FlightKind) (done : Option Done) (hk : Keeps r0 s) : Keeps r0 (State.issue s c idx f kind done) := by
  unfold State.issue
  repeat' (first | with_reducible assumption | (intro x; refine Keeps.cut (r := r0) (s := x) ?_ ?_; unfold x; rotate_left; clear_value x; intro _) | intro _ | lift_lets -underBinder | with_reducible apply State.issueAt_keeps | split)

theorem State.issueFail_keeps {r0 : State} (s : State) (c : Nat) (idx : Nat) (f : List Byte) (r : Nat × Nat) (hk : Keeps r0 s) : Keeps r0 (State.issueFail s c idx f r) := by
  unfold State.issueFail
  repeat' (first | with_reducible assumption | (intro x; refine Keeps.cut (r := r0) (s := x) ?_ ?_; unfold x; rotate_left; clear_value x; intro _) | intro _ | lift_lets -underBinder | with_reducible apply State.countService_keeps | with_reducible apply State.settle_keeps | with_reducible apply State.issueAt_keeps | split)

theorem State.cancelAll_keeps {r0 : State} (s : State) (c : Nat) (hk : Keeps r0 s) : Keeps r0 (State.cancelAll s c) := by
  unfold State.cancelAll
  repeat' (first | with_reducible assumption | (intro x; refine Keeps.cut (r := r0) (s := x) ?_ ?_; unfold x; rotate_left; clear_value x; intro _) | intro _ | lift_lets -underBinder | with_reducible apply overList_keeps | with_reducible apply State.abortFlight_keeps | with_reducible apply Keeps.overList | split)

theorem State.abortCtx_keeps {r0 : State} (s : State) (c : Nat) (r : StopReason) (hk : Keeps r0 s) : Keeps r0 (State.abortCtx s c r) := by
  unfold State.abortCtx
  repeat' (first | with_reducible assumption | (simp only [keeps_mk, Cellar.allocBlock_mem, Cellar.freeBlock_mem, Cellar.freeBlocks_mem, Cellar.dropStaging_mem, Cellar.replaceStaging_mem, Hearth.runs]; with_reducible refine Keeps.parts ?_) | (intro x; refine Keeps.cut (r := r0) (s := x) ?_ ?_; unfold x; rotate_left; clear_value x; intro _) | intro _ | lift_lets -underBinder | with_reducible apply State.putCtx_keeps | with_reducible apply State.settle_keeps | with_reducible apply State.cancelAll_keeps | split)


/-! ## Clock -/

theorem State.countCycles_keeps {r0 : State} (s : State) (k : Nat) (c : Nat) (hk : Keeps r0 s) : Keeps r0 (State.countCycles s k c) := by
  unfold State.countCycles
  repeat' (first | with_reducible assumption | (simp only [keeps_mk, Cellar.allocBlock_mem, Cellar.freeBlock_mem, Cellar.freeBlocks_mem, Cellar.dropStaging_mem, Cellar.replaceStaging_mem, Hearth.runs]; with_reducible refine Keeps.parts ?_) | (intro x; refine Keeps.cut (r := r0) (s := x) ?_ ?_; unfold x; rotate_left; clear_value x; intro _) | intro _ | lift_lets -underBinder | with_reducible apply State.modCtx_keeps | split)

theorem State.refill_keeps {r0 : State} (s : State) (k : Nat) (hk : Keeps r0 s) : Keeps r0 (State.refill s k) := by
  unfold State.refill
  repeat' (first | with_reducible assumption | (simp only [keeps_mk, Cellar.allocBlock_mem, Cellar.freeBlock_mem, Cellar.freeBlocks_mem, Cellar.dropStaging_mem, Cellar.replaceStaging_mem, Hearth.runs]; with_reducible refine Keeps.parts ?_) | (intro x; refine Keeps.cut (r := r0) (s := x) ?_ ?_; unfold x; rotate_left; clear_value x; intro _) | intro _ | lift_lets -underBinder | split)

theorem State.endPulse_keeps {r0 : State} (s : State) (hk : Keeps r0 s) : Keeps r0 (State.endPulse s) := by
  unfold State.endPulse
  repeat' (first | with_reducible assumption | (simp only [keeps_mk, Cellar.allocBlock_mem, Cellar.freeBlock_mem, Cellar.freeBlocks_mem, Cellar.dropStaging_mem, Cellar.replaceStaging_mem, Hearth.runs]; with_reducible refine Keeps.parts ?_) | (intro x; refine Keeps.cut (r := r0) (s := x) ?_ ?_; unfold x; rotate_left; clear_value x; intro _) | intro _ | lift_lets -underBinder | split | (simp only [keeps_mk, Cellar.allocBlock_mem, Cellar.freeBlock_mem, Cellar.freeBlocks_mem, Cellar.dropStaging_mem, Cellar.replaceStaging_mem, Hearth.runs]; with_reducible refine Keeps.partsMem ?_ (fun w => by first | exact w | exact Cellar.scrub_wf w | exact Cellar.putUnits_wf w | exact Cellar.maskUnit_wf ‹_› w | (exact Cellar.scrub_wf (by simpa using w)) | simp [Memory.wf])) | (simp only [keeps_mk, Cellar.allocBlock_mem, Cellar.freeBlock_mem, Cellar.freeBlocks_mem, Cellar.dropStaging_mem, Cellar.replaceStaging_mem, Hearth.runs]; with_reducible refine Keeps.partsTo ?_ (by simp) (fun w => by first | exact w | exact Cellar.scrub_wf w | exact Cellar.putUnits_wf w | exact Cellar.maskUnit_wf ‹_› w | (exact Cellar.scrub_wf (by simpa using w)) | simp [Memory.wf])))

theorem State.laneWindow_keeps {r0 : State} (s : State) (p : Nat) (hk : Keeps r0 s) : Keeps r0 (State.laneWindow s p) := by
  unfold State.laneWindow
  repeat' (first | with_reducible assumption | (simp only [keeps_mk, Cellar.allocBlock_mem, Cellar.freeBlock_mem, Cellar.freeBlocks_mem, Cellar.dropStaging_mem, Cellar.replaceStaging_mem, Hearth.runs]; with_reducible refine Keeps.parts ?_) | (intro x; refine Keeps.cut (r := r0) (s := x) ?_ ?_; unfold x; rotate_left; clear_value x; intro _) | intro _ | lift_lets -underBinder | with_reducible apply State.countPort_keeps | with_reducible apply overList_keeps | with_reducible apply State.draw_keeps | with_reducible apply Keeps.overList | split)

theorem State.laneWindows_keeps {r0 : State} (s : State) (k : Nat) (hk : Keeps r0 s) : Keeps r0 (State.laneWindows s k) := by
  unfold State.laneWindows
  repeat' (first | with_reducible assumption | (intro x; refine Keeps.cut (r := r0) (s := x) ?_ ?_; unfold x; rotate_left; clear_value x; intro _) | intro _ | lift_lets -underBinder | with_reducible apply overList_keeps | with_reducible apply State.laneWindow_keeps | with_reducible apply Keeps.overList | split)

theorem State.elapse_keeps {r0 : State} (s : State) (n : Nat) (hk : Keeps r0 s) : Keeps r0 (State.elapse s n) := by
  unfold State.elapse
  repeat' (first | with_reducible assumption | (simp only [keeps_mk, Cellar.allocBlock_mem, Cellar.freeBlock_mem, Cellar.freeBlocks_mem, Cellar.dropStaging_mem, Cellar.replaceStaging_mem, Hearth.runs]; with_reducible refine Keeps.parts ?_) | (intro x; refine Keeps.cut (r := r0) (s := x) ?_ ?_; unfold x; rotate_left; clear_value x; intro _) | intro _ | lift_lets -underBinder | with_reducible apply overList_keeps | with_reducible apply State.countCycles_keeps | with_reducible apply State.refill_keeps | with_reducible apply State.endPulse_keeps | with_reducible apply State.laneWindows_keeps | with_reducible apply Keeps.overList | split)

theorem State.reach_keeps {r0 : State} (s : State) (t : Word64) (hk : Keeps r0 s) : Keeps r0 (State.reach s t) := by
  unfold State.reach
  repeat' (first | with_reducible assumption | (intro x; refine Keeps.cut (r := r0) (s := x) ?_ ?_; unfold x; rotate_left; clear_value x; intro _) | intro _ | lift_lets -underBinder | with_reducible apply State.elapse_keeps | split)


/-! ## Reduce -/

theorem State.writeSlot_keeps {r0 : State} (s : State) (c : Nat) (fid : Nat) (k : Coll) (m : LMember) (pl : Place) (b : List Byte) (keep : Bool) (hk : Keeps r0 s) : Keeps r0 (State.writeSlot s c fid k m pl b keep) := by
  unfold State.writeSlot
  repeat' (first | with_reducible assumption | (intro x; refine Keeps.cut (r := r0) (s := x) ?_ ?_; unfold x; rotate_left; clear_value x; intro _) | intro _ | lift_lets -underBinder | with_reducible apply overList_keeps | with_reducible apply State.post_keeps | with_reducible apply State.postBytes_keeps | with_reducible apply Keeps.overList | split | (dsimp +zetaDelta only))

theorem State.deliver_keeps {r0 : State} (s : State) (c : Nat) (fid : Nat) (k : Coll) (src : Nat) (dst : Nat) (n : Nat) (b : List Byte) (hk : Keeps r0 s) : Keeps r0 (State.deliver s c fid k src dst n b) := by
  unfold State.deliver
  repeat' (first | with_reducible assumption | (simp only [keeps_mk, Cellar.allocBlock_mem, Cellar.freeBlock_mem, Cellar.freeBlocks_mem, Cellar.dropStaging_mem, Cellar.replaceStaging_mem, Hearth.runs]; with_reducible refine Keeps.parts ?_) | (intro x; refine Keeps.cut (r := r0) (s := x) ?_ ?_; unfold x; rotate_left; clear_value x; intro _) | intro _ | lift_lets -underBinder | with_reducible apply overList_keeps | with_reducible apply State.writeSlot_keeps | with_reducible apply Keeps.overList | split | (simp only [keeps_mk, Cellar.allocBlock_mem, Cellar.freeBlock_mem, Cellar.freeBlocks_mem, Cellar.dropStaging_mem, Cellar.replaceStaging_mem, Hearth.runs]; with_reducible refine Keeps.partsMem ?_ (fun w => by first | exact w | exact Cellar.scrub_wf w | exact Cellar.putUnits_wf w | exact Cellar.maskUnit_wf ‹_› w | (exact Cellar.scrub_wf (by simpa using w)) | simp [Memory.wf])) | (simp only [keeps_mk, Cellar.allocBlock_mem, Cellar.freeBlock_mem, Cellar.freeBlocks_mem, Cellar.dropStaging_mem, Cellar.replaceStaging_mem, Hearth.runs]; with_reducible refine Keeps.partsTo ?_ (by simp) (fun w => by first | exact w | exact Cellar.scrub_wf w | exact Cellar.putUnits_wf w | exact Cellar.maskUnit_wf ‹_› w | (exact Cellar.scrub_wf (by simpa using w)) | simp [Memory.wf])))


/-! ## Chunks -/

theorem State.modFlight_keeps {r0 : State} (s : State) (c : Nat) (fid : Nat) (f : Flight → Flight) (hk : Keeps r0 s) : Keeps r0 (State.modFlight s c fid f) := by
  unfold State.modFlight
  repeat' (first | with_reducible assumption | (intro x; refine Keeps.cut (r := r0) (s := x) ?_ ?_; unfold x; rotate_left; clear_value x; intro _) | intro _ | lift_lets -underBinder | with_reducible apply State.modCtx_keeps | split)

theorem State.modColl_keeps {r0 : State} (s : State) (c : Nat) (fid : Nat) (g : Coll → Coll) (hk : Keeps r0 s) : Keeps r0 (State.modColl s c fid g) := by
  unfold State.modColl
  repeat' (first | with_reducible assumption | (intro x; refine Keeps.cut (r := r0) (s := x) ?_ ?_; unfold x; rotate_left; clear_value x; intro _) | intro _ | lift_lets -underBinder | with_reducible apply State.modFlight_keeps | split)

theorem State.countReorder_keeps {r0 : State} (s : State) (c : Nat) (fid : Nat) (hk : Keeps r0 s) : Keeps r0 (State.countReorder s c fid) := by
  unfold State.countReorder
  repeat' (first | with_reducible assumption | (simp only [keeps_mk, Cellar.allocBlock_mem, Cellar.freeBlock_mem, Cellar.freeBlocks_mem, Cellar.dropStaging_mem, Cellar.replaceStaging_mem, Hearth.runs]; with_reducible refine Keeps.parts ?_) | (intro x; refine Keeps.cut (r := r0) (s := x) ?_ ?_; unfold x; rotate_left; clear_value x; intro _) | intro _ | lift_lets -underBinder | with_reducible apply State.modCtx_keeps | with_reducible apply State.modFlight_keeps | with_reducible apply State.modColl_keeps | split)

theorem State.disturb_keeps {r0 : State} (s : State) (owner : Option (Nat × Nat)) (hk : Keeps r0 s) : Keeps r0 (State.disturb s owner) := by
  unfold State.disturb
  repeat' (first | with_reducible assumption | (simp only [keeps_mk, Cellar.allocBlock_mem, Cellar.freeBlock_mem, Cellar.freeBlocks_mem, Cellar.dropStaging_mem, Cellar.replaceStaging_mem, Hearth.runs]; with_reducible refine Keeps.parts ?_) | (intro x; refine Keeps.cut (r := r0) (s := x) ?_ ?_; unfold x; rotate_left; clear_value x; intro _) | intro _ | lift_lets -underBinder | with_reducible apply State.modCtx_keeps | split)

theorem State.settleOwner_keeps {r0 : State} (s : State) (owner : Option (Nat × Nat)) (hk : Keeps r0 s) : Keeps r0 (State.settleOwner s owner) := by
  unfold State.settleOwner
  repeat' (first | with_reducible assumption | (simp only [keeps_mk, Cellar.allocBlock_mem, Cellar.freeBlock_mem, Cellar.freeBlocks_mem, Cellar.dropStaging_mem, Cellar.replaceStaging_mem, Hearth.runs]; with_reducible refine Keeps.parts ?_) | (intro x; refine Keeps.cut (r := r0) (s := x) ?_ ?_; unfold x; rotate_left; clear_value x; intro _) | intro _ | lift_lets -underBinder | with_reducible apply State.settle_keeps | split)

theorem State.takeSeq_keeps {r0 : State} (s : State) (isMove : Bool) (flow : Nat) (dest : Nat) (hk : Keeps r0 s) : Keeps r0 (State.takeSeq s isMove flow dest).2 := by
  unfold State.takeSeq
  repeat' (first | with_reducible assumption | (simp only [keeps_mk, Cellar.allocBlock_mem, Cellar.freeBlock_mem, Cellar.freeBlocks_mem, Cellar.dropStaging_mem, Cellar.replaceStaging_mem, Hearth.runs]; with_reducible refine Keeps.parts ?_) | (intro x; refine Keeps.cut (r := r0) (s := x) ?_ ?_; unfold x; rotate_left; clear_value x; intro _) | intro _ | lift_lets -underBinder | with_reducible apply State.modCtx_keeps | with_reducible apply State.modGrp_keeps | split)

theorem State.sendData_keeps {r0 : State} (s : State) (p : Nat) (o : OutChunk) (off : Nat) (b : List Byte) (hk : Keeps r0 s) : Keeps r0 (State.sendData s p o off b) := by
  unfold State.sendData
  repeat' (first | with_reducible assumption | (intro x; refine Keeps.cut (r := r0) (s := x) ?_ ?_; unfold x; rotate_left; clear_value x; intro _) | intro _ | lift_lets -underBinder | with_reducible apply overList_keeps | with_reducible apply State.queue_keeps | with_reducible apply Keeps.overList | split)

theorem State.modOut_keeps {r0 : State} (s : State) (n : Nat) (f : OutChunk → OutChunk) (hk : Keeps r0 s) : Keeps r0 (State.modOut s n f) := by
  unfold State.modOut
  repeat' (first | with_reducible assumption | (simp only [keeps_mk, Cellar.allocBlock_mem, Cellar.freeBlock_mem, Cellar.freeBlocks_mem, Cellar.dropStaging_mem, Cellar.replaceStaging_mem, Hearth.runs]; with_reducible refine Keeps.parts ?_) | (intro x; refine Keeps.cut (r := r0) (s := x) ?_ ?_; unfold x; rotate_left; clear_value x; intro _) | intro _ | lift_lets -underBinder | split)

theorem State.ringsOnward_keeps {r0 : State} (s : State) (p : Nat) (o : OutChunk) (hk : Keeps r0 s) : Keeps r0 (State.ringsOnward s p o) := by
  unfold State.ringsOnward
  repeat' (first | with_reducible assumption | (simp only [keeps_mk, Cellar.allocBlock_mem, Cellar.freeBlock_mem, Cellar.freeBlocks_mem, Cellar.dropStaging_mem, Cellar.replaceStaging_mem, Hearth.runs]; with_reducible refine Keeps.parts ?_) | (intro x; refine Keeps.cut (r := r0) (s := x) ?_ ?_; unfold x; rotate_left; clear_value x; intro _) | intro _ | lift_lets -underBinder | with_reducible apply overList_keeps | with_reducible apply State.queueFlow_keeps | with_reducible apply Keeps.overList | split)

theorem State.pushPieces_keeps {r0 : State} (s : State) (n : Nat) (hk : Keeps r0 s) : Keeps r0 (State.pushPieces s n) := by
  unfold State.pushPieces
  repeat' (first | with_reducible assumption | (simp only [keeps_mk, Cellar.allocBlock_mem, Cellar.freeBlock_mem, Cellar.freeBlocks_mem, Cellar.dropStaging_mem, Cellar.replaceStaging_mem, Hearth.runs]; with_reducible refine Keeps.parts ?_) | (intro x; refine Keeps.cut (r := r0) (s := x) ?_ ?_; unfold x; rotate_left; clear_value x; intro _) | intro _ | lift_lets -underBinder | with_reducible apply overList_keeps | with_reducible apply State.sendData_keeps | with_reducible apply State.modOut_keeps | with_reducible apply Keeps.overList | split)

theorem State.finishOut_keeps {r0 : State} (s : State) (n : Nat) (hk : Keeps r0 s) : Keeps r0 (State.finishOut s n) := by
  unfold State.finishOut
  repeat' (first | with_reducible assumption | (simp only [keeps_mk, Cellar.allocBlock_mem, Cellar.freeBlock_mem, Cellar.freeBlocks_mem, Cellar.dropStaging_mem, Cellar.replaceStaging_mem, Hearth.runs]; with_reducible refine Keeps.parts ?_) | (intro x; refine Keeps.cut (r := r0) (s := x) ?_ ?_; unfold x; rotate_left; clear_value x; intro _) | intro _ | lift_lets -underBinder | with_reducible apply State.queue_keeps | with_reducible apply State.sendData_keeps | with_reducible apply State.modOut_keeps | with_reducible apply State.ringsOnward_keeps | split)

theorem execChunkSend_keeps {r0 : State} (n : Nat) (s : State) (hk : Keeps r0 s) : KeepsOut r0 (execChunkSend n s) := by
  unfold execChunkSend
  repeat' (first | with_reducible assumption | (simp only [keeps_mk, Cellar.allocBlock_mem, Cellar.freeBlock_mem, Cellar.freeBlocks_mem, Cellar.dropStaging_mem, Cellar.replaceStaging_mem, Hearth.runs]; with_reducible refine Keeps.parts ?_) | with_reducible apply KeepsOut.next | (intro x; refine Keeps.cut (r := r0) (s := x) ?_ ?_; unfold x; rotate_left; clear_value x; intro _) | intro _ | lift_lets -underBinder | with_reducible apply State.modCtx_keeps | with_reducible apply State.countPort_keeps | with_reducible apply State.modFlight_keeps | with_reducible apply State.settleOwner_keeps | with_reducible apply State.modOut_keeps | with_reducible apply State.pushPieces_keeps | with_reducible apply State.finishOut_keeps | split)

theorem State.fillOut_keeps {r0 : State} (s : State) (n : Nat) (aux : ChunkAux) (b : List Byte) (hk : Keeps r0 s) : Keeps r0 (State.fillOut s n aux b) := by
  unfold State.fillOut
  repeat' (first | with_reducible assumption | (simp only [keeps_mk, Cellar.allocBlock_mem, Cellar.freeBlock_mem, Cellar.freeBlocks_mem, Cellar.dropStaging_mem, Cellar.replaceStaging_mem, Hearth.runs]; with_reducible refine Keeps.parts ?_) | (intro x; refine Keeps.cut (r := r0) (s := x) ?_ ?_; unfold x; rotate_left; clear_value x; intro _) | intro _ | lift_lets -underBinder | with_reducible apply State.modOut_keeps | with_reducible apply State.finishOut_keeps | split)

theorem State.sendOn_keeps {r0 : State} (s : State) (c : Nat) (fid : Nat) (k : Coll) (n : Nat) (src : Nat) (dst : Nat) (formedBy : Nat) (seq : Option Nat) (aux : ChunkAux) (bytes : List Byte) (from_ : Option Nat) (hk : Keeps r0 s) : Keeps r0 (State.sendOn s c fid k n src dst formedBy seq aux bytes from_) := by
  unfold State.sendOn
  repeat' (first | with_reducible assumption | (simp only [keeps_mk, Cellar.allocBlock_mem, Cellar.freeBlock_mem, Cellar.freeBlocks_mem, Cellar.dropStaging_mem, Cellar.replaceStaging_mem, Hearth.runs]; with_reducible refine Keeps.parts ?_) | (intro x; refine Keeps.cut (r := r0) (s := x) ?_ ?_; unfold x; rotate_left; clear_value x; intro _) | intro _ | lift_lets -underBinder | with_reducible apply overList_keeps | with_reducible apply State.takeSeq_keeps | with_reducible apply State.fillOut_keeps | with_reducible apply Keeps.overList | split | (dsimp +zetaDelta only))

theorem State.openUp_keeps {r0 : State} (s : State) (c : Nat) (fid : Nat) (k : Coll) (n : Nat) (hk : Keeps r0 s) : Keeps r0 (State.openUp s c fid k n) := by
  unfold State.openUp
  repeat' (first | with_reducible assumption | (simp only [keeps_mk, Cellar.allocBlock_mem, Cellar.freeBlock_mem, Cellar.freeBlocks_mem, Cellar.dropStaging_mem, Cellar.replaceStaging_mem, Hearth.runs]; with_reducible refine Keeps.parts ?_) | (intro x; refine Keeps.cut (r := r0) (s := x) ?_ ?_; unfold x; rotate_left; clear_value x; intro _) | intro _ | lift_lets -underBinder | with_reducible apply State.takeSeq_keeps | split)

theorem State.fillUp_keeps {r0 : State} (s : State) (c : Nat) (fid : Nat) (k : Coll) (n : Nat) (p : Part) (hk : Keeps r0 s) : Keeps r0 (State.fillUp s c fid k n p) := by
  unfold State.fillUp
  repeat' (first | with_reducible assumption | (simp only [keeps_mk, Cellar.allocBlock_mem, Cellar.freeBlock_mem, Cellar.freeBlocks_mem, Cellar.dropStaging_mem, Cellar.replaceStaging_mem, Hearth.runs]; with_reducible refine Keeps.parts ?_) | (intro x; refine Keeps.cut (r := r0) (s := x) ?_ ?_; unfold x; rotate_left; clear_value x; intro _) | intro _ | lift_lets -underBinder | with_reducible apply State.fillOut_keeps | with_reducible apply State.openUp_keeps | split)

theorem State.speculate_keeps {r0 : State} (s : State) (c : Nat) (fid : Nat) (n : Nat) (hk : Keeps r0 s) : Keeps r0 (State.speculate s c fid n) := by
  unfold State.speculate
  repeat' (first | with_reducible assumption | (simp only [keeps_mk, Cellar.allocBlock_mem, Cellar.freeBlock_mem, Cellar.freeBlocks_mem, Cellar.dropStaging_mem, Cellar.replaceStaging_mem, Hearth.runs]; with_reducible refine Keeps.parts ?_) | (intro x; refine Keeps.cut (r := r0) (s := x) ?_ ?_; unfold x; rotate_left; clear_value x; intro _) | intro _ | lift_lets -underBinder | with_reducible apply State.modOut_keeps | with_reducible apply State.pushPieces_keeps | with_reducible apply State.openUp_keeps | split)

theorem State.rootChunk_keeps {r0 : State} (s : State) (c : Nat) (fid : Nat) (k : Coll) (n : Nat) (p : Part) (hk : Keeps r0 s) : Keeps r0 (State.rootChunk s c fid k n p) := by
  unfold State.rootChunk
  repeat' (first | with_reducible assumption | (simp only [keeps_mk, Cellar.allocBlock_mem, Cellar.freeBlock_mem, Cellar.freeBlocks_mem, Cellar.dropStaging_mem, Cellar.replaceStaging_mem, Hearth.runs]; with_reducible refine Keeps.parts ?_) | (intro x; refine Keeps.cut (r := r0) (s := x) ?_ ?_; unfold x; rotate_left; clear_value x; intro _) | intro _ | lift_lets -underBinder | with_reducible apply State.modCtx_keeps | with_reducible apply State.deliver_keeps | with_reducible apply State.modColl_keeps | with_reducible apply State.sendOn_keeps | split)

theorem State.nodeTry_keeps {r0 : State} (s : State) (c : Nat) (fid : Nat) (n : Nat) (hk : Keeps r0 s) : Keeps r0 (State.nodeTry s c fid n) := by
  unfold State.nodeTry
  repeat' (first | with_reducible assumption | (simp only [keeps_mk, Cellar.allocBlock_mem, Cellar.freeBlock_mem, Cellar.freeBlocks_mem, Cellar.dropStaging_mem, Cellar.replaceStaging_mem, Hearth.runs]; with_reducible refine Keeps.parts ?_) | (intro x; refine Keeps.cut (r := r0) (s := x) ?_ ?_; unfold x; rotate_left; clear_value x; intro _) | intro _ | lift_lets -underBinder | with_reducible apply State.modColl_keeps | with_reducible apply State.countReorder_keeps | with_reducible apply State.fillUp_keeps | with_reducible apply State.speculate_keeps | with_reducible apply State.rootChunk_keeps | split)

theorem State.stage1Try_keeps {r0 : State} (s : State) (c : Nat) (fid : Nat) (n : Nat) (hk : Keeps r0 s) : Keeps r0 (State.stage1Try s c fid n) := by
  unfold State.stage1Try
  repeat' (first | with_reducible assumption | (simp only [keeps_mk, Cellar.allocBlock_mem, Cellar.freeBlock_mem, Cellar.freeBlocks_mem, Cellar.dropStaging_mem, Cellar.replaceStaging_mem, Hearth.runs]; with_reducible refine Keeps.parts ?_) | (intro x; refine Keeps.cut (r := r0) (s := x) ?_ ?_; unfold x; rotate_left; clear_value x; intro _) | intro _ | lift_lets -underBinder | with_reducible apply State.modColl_keeps | with_reducible apply State.countReorder_keeps | with_reducible apply State.nodeTry_keeps | split | (simp only [keeps_mk, Cellar.allocBlock_mem, Cellar.freeBlock_mem, Cellar.freeBlocks_mem, Cellar.dropStaging_mem, Cellar.replaceStaging_mem, Hearth.runs]; with_reducible refine Keeps.partsMem ?_ (fun w => by first | exact w | exact Cellar.scrub_wf w | exact Cellar.putUnits_wf w | exact Cellar.maskUnit_wf ‹_› w | (exact Cellar.scrub_wf (by simpa using w)) | simp [Memory.wf])) | (simp only [keeps_mk, Cellar.allocBlock_mem, Cellar.freeBlock_mem, Cellar.freeBlocks_mem, Cellar.dropStaging_mem, Cellar.replaceStaging_mem, Hearth.runs]; with_reducible refine Keeps.partsTo ?_ (by simp) (fun w => by first | exact w | exact Cellar.scrub_wf w | exact Cellar.putUnits_wf w | exact Cellar.maskUnit_wf ‹_› w | (exact Cellar.scrub_wf (by simpa using w)) | simp [Memory.wf])))

theorem State.copyTry_keeps {r0 : State} (s : State) (c : Nat) (fid : Nat) (mi : Nat) (m : LMember) (src : Nat) (dst : Nat) (n : Nat) (hk : Keeps r0 s) : Keeps r0 (State.copyTry s c fid mi m src dst n) := by
  unfold State.copyTry
  repeat' (first | with_reducible assumption | (simp only [keeps_mk, Cellar.allocBlock_mem, Cellar.freeBlock_mem, Cellar.freeBlocks_mem, Cellar.dropStaging_mem, Cellar.replaceStaging_mem, Hearth.runs]; with_reducible refine Keeps.parts ?_) | (intro x; refine Keeps.cut (r := r0) (s := x) ?_ ?_; unfold x; rotate_left; clear_value x; intro _) | intro _ | lift_lets -underBinder | with_reducible apply State.deliver_keeps | with_reducible apply State.modColl_keeps | with_reducible apply State.sendOn_keeps | split)

theorem State.progress_keeps {r0 : State} (s : State) (c : Nat) (fid : Nat) (hk : Keeps r0 s) : Keeps r0 (State.progress s c fid) := by
  unfold State.progress
  repeat' (first | with_reducible assumption | (simp only [keeps_mk, Cellar.allocBlock_mem, Cellar.freeBlock_mem, Cellar.freeBlocks_mem, Cellar.dropStaging_mem, Cellar.replaceStaging_mem, Hearth.runs]; with_reducible refine Keeps.parts ?_) | (intro x; refine Keeps.cut (r := r0) (s := x) ?_ ?_; unfold x; rotate_left; clear_value x; intro _) | intro _ | lift_lets -underBinder | with_reducible apply overList_keeps | with_reducible apply State.stage1Try_keeps | with_reducible apply State.copyTry_keeps | with_reducible apply Keeps.overList | split | (simp only [keeps_mk, Cellar.allocBlock_mem, Cellar.freeBlock_mem, Cellar.freeBlocks_mem, Cellar.dropStaging_mem, Cellar.replaceStaging_mem, Hearth.runs]; with_reducible refine Keeps.partsMem ?_ (fun w => by first | exact w | exact Cellar.scrub_wf w | exact Cellar.putUnits_wf w | exact Cellar.maskUnit_wf ‹_› w | (exact Cellar.scrub_wf (by simpa using w)) | simp [Memory.wf])) | (simp only [keeps_mk, Cellar.allocBlock_mem, Cellar.freeBlock_mem, Cellar.freeBlocks_mem, Cellar.dropStaging_mem, Cellar.replaceStaging_mem, Hearth.runs]; with_reducible refine Keeps.partsTo ?_ (by simp) (fun w => by first | exact w | exact Cellar.scrub_wf w | exact Cellar.putUnits_wf w | exact Cellar.maskUnit_wf ‹_› w | (exact Cellar.scrub_wf (by simpa using w)) | simp [Memory.wf])))

theorem State.ackLane_keeps {r0 : State} (s : State) (l : Lane) (hk : Keeps r0 s) : Keeps r0 (State.ackLane s l) := by
  unfold State.ackLane
  repeat' (first | with_reducible assumption | (intro x; refine Keeps.cut (r := r0) (s := x) ?_ ?_; unfold x; rotate_left; clear_value x; intro _) | intro _ | lift_lets -underBinder | with_reducible apply State.sendCtl_keeps | split)

theorem State.askResend_keeps {r0 : State} (s : State) (l : Lane) (cause : Nat) (hk : Keeps r0 s) : Keeps r0 (State.askResend s l cause) := by
  unfold State.askResend
  repeat' (first | with_reducible assumption | (intro x; refine Keeps.cut (r := r0) (s := x) ?_ ?_; unfold x; rotate_left; clear_value x; intro _) | intro _ | lift_lets -underBinder | with_reducible apply State.sendCtl_keeps | split)

theorem State.sendMarker_keeps {r0 : State} (s : State) (p : Nat) (o : OutChunk) (hk : Keeps r0 s) : Keeps r0 (State.sendMarker s p o) := by
  unfold State.sendMarker
  repeat' (first | with_reducible assumption | (simp only [keeps_mk, Cellar.allocBlock_mem, Cellar.freeBlock_mem, Cellar.freeBlocks_mem, Cellar.dropStaging_mem, Cellar.replaceStaging_mem, Hearth.runs]; with_reducible refine Keeps.parts ?_) | (intro x; refine Keeps.cut (r := r0) (s := x) ?_ ?_; unfold x; rotate_left; clear_value x; intro _) | intro _ | lift_lets -underBinder | with_reducible apply State.countPort_keeps | with_reducible apply State.sendCtl_keeps | split)

theorem State.retractOut_keeps {r0 : State} (s : State) (n : Nat) (hk : Keeps r0 s) : Keeps r0 (State.retractOut s n) := by
  unfold State.retractOut
  repeat' (first | with_reducible assumption | (simp only [keeps_mk, Cellar.allocBlock_mem, Cellar.freeBlock_mem, Cellar.freeBlocks_mem, Cellar.dropStaging_mem, Cellar.replaceStaging_mem, Hearth.runs]; with_reducible refine Keeps.parts ?_) | (intro x; refine Keeps.cut (r := r0) (s := x) ?_ ?_; unfold x; rotate_left; clear_value x; intro _) | intro _ | lift_lets -underBinder | with_reducible apply State.modOut_keeps | with_reducible apply State.sendMarker_keeps | split)

theorem State.dropLane_keeps {r0 : State} (s : State) (l : Lane) (hk : Keeps r0 s) : Keeps r0 (State.dropLane s l) := by
  unfold State.dropLane
  repeat' (first | with_reducible assumption | (simp only [keeps_mk, Cellar.allocBlock_mem, Cellar.freeBlock_mem, Cellar.freeBlocks_mem, Cellar.dropStaging_mem, Cellar.replaceStaging_mem, Hearth.runs]; with_reducible refine Keeps.parts ?_) | (intro x; refine Keeps.cut (r := r0) (s := x) ?_ ?_; unfold x; rotate_left; clear_value x; intro _) | intro _ | lift_lets -underBinder | with_reducible apply overList_keeps | with_reducible apply State.retractOut_keeps | with_reducible apply Keeps.overList | split)

theorem State.loseRings_keeps {r0 : State} (s : State) (n : ChunkName) (hk : Keeps r0 s) : Keeps r0 (State.loseRings s n) := by
  unfold State.loseRings
  repeat' (first | with_reducible assumption | (simp only [keeps_mk, Cellar.allocBlock_mem, Cellar.freeBlock_mem, Cellar.freeBlocks_mem, Cellar.dropStaging_mem, Cellar.replaceStaging_mem, Hearth.runs]; with_reducible refine Keeps.parts ?_) | (intro x; refine Keeps.cut (r := r0) (s := x) ?_ ?_; unfold x; rotate_left; clear_value x; intro _) | intro _ | lift_lets -underBinder | split)

theorem State.loseOwnRings_keeps {r0 : State} (s : State) (c : Nat) (fid : Nat) (dest : Nat) (chunk : Nat) (hk : Keeps r0 s) : Keeps r0 (State.loseOwnRings s c fid dest chunk) := by
  unfold State.loseOwnRings
  repeat' (first | with_reducible assumption | (simp only [keeps_mk, Cellar.allocBlock_mem, Cellar.freeBlock_mem, Cellar.freeBlocks_mem, Cellar.dropStaging_mem, Cellar.replaceStaging_mem, Hearth.runs]; with_reducible refine Keeps.parts ?_) | (intro x; refine Keeps.cut (r := r0) (s := x) ?_ ?_; unfold x; rotate_left; clear_value x; intro _) | intro _ | lift_lets -underBinder | with_reducible apply overList_keeps | with_reducible apply State.endFlight_keeps | with_reducible apply State.loseSentRings_keeps | with_reducible apply Keeps.overList | split)

theorem State.commit_keeps {r0 : State} (s : State) (l : Lane) (hk : Keeps r0 s) : Keeps r0 (State.commit s l) := by
  unfold State.commit
  repeat' (first | with_reducible assumption | (simp only [keeps_mk, Cellar.allocBlock_mem, Cellar.freeBlock_mem, Cellar.freeBlocks_mem, Cellar.dropStaging_mem, Cellar.replaceStaging_mem, Hearth.runs]; with_reducible refine Keeps.parts ?_) | (intro x; refine Keeps.cut (r := r0) (s := x) ?_ ?_; unfold x; rotate_left; clear_value x; intro _) | intro _ | lift_lets -underBinder | split)

theorem State.touch_keeps {r0 : State} (s : State) (off : Nat) (len : Nat) (hk : Keeps r0 s) : Keeps r0 (State.touch s off len) := by
  unfold State.touch
  repeat' (first | with_reducible assumption | (simp only [keeps_mk, Cellar.allocBlock_mem, Cellar.freeBlock_mem, Cellar.freeBlocks_mem, Cellar.dropStaging_mem, Cellar.replaceStaging_mem, Hearth.runs]; with_reducible refine Keeps.parts ?_) | (intro x; refine Keeps.cut (r := r0) (s := x) ?_ ?_; unfold x; rotate_left; clear_value x; intro _) | intro _ | lift_lets -underBinder | with_reducible apply State.modExt_keeps | with_reducible apply overList_keeps | with_reducible apply Keeps.overList | split)

theorem State.cellarPut_keeps {r0 : State} (s : State) (off : Nat) (b : List Byte) (hk : Keeps r0 s) : Keeps r0 (State.cellarPut s off b) := by
  unfold State.cellarPut
  repeat' (first | with_reducible assumption | (simp only [keeps_mk, Cellar.allocBlock_mem, Cellar.freeBlock_mem, Cellar.freeBlocks_mem, Cellar.dropStaging_mem, Cellar.replaceStaging_mem, Hearth.runs]; with_reducible refine Keeps.parts ?_) | (intro x; refine Keeps.cut (r := r0) (s := x) ?_ ?_; unfold x; rotate_left; clear_value x; intro _) | intro _ | lift_lets -underBinder | with_reducible apply State.touch_keeps | with_reducible apply Keeps.foldl | split | (simp only [keeps_mk, Cellar.allocBlock_mem, Cellar.freeBlock_mem, Cellar.freeBlocks_mem, Cellar.dropStaging_mem, Cellar.replaceStaging_mem, Hearth.runs]; with_reducible refine Keeps.partsMem ?_ (fun w => by first | exact w | exact Cellar.scrub_wf w | exact Cellar.putUnits_wf w | exact Cellar.maskUnit_wf ‹_› w | (exact Cellar.scrub_wf (by simpa using w)) | simp [Memory.wf])) | (simp only [keeps_mk, Cellar.allocBlock_mem, Cellar.freeBlock_mem, Cellar.freeBlocks_mem, Cellar.dropStaging_mem, Cellar.replaceStaging_mem, Hearth.runs]; with_reducible refine Keeps.partsTo ?_ (by simp) (fun w => by first | exact w | exact Cellar.scrub_wf w | exact Cellar.putUnits_wf w | exact Cellar.maskUnit_wf ‹_› w | (exact Cellar.scrub_wf (by simpa using w)) | simp [Memory.wf])))

theorem State.mediaRecord_keeps {r0 : State} (s : State) (e : Nat) (a : RecArgs) (hk : Keeps r0 s) : Keeps r0 (State.mediaRecord s e a) := by
  unfold State.mediaRecord
  repeat' (first | with_reducible assumption | (simp only [keeps_mk, Cellar.allocBlock_mem, Cellar.freeBlock_mem, Cellar.freeBlocks_mem, Cellar.dropStaging_mem, Cellar.replaceStaging_mem, Hearth.runs]; with_reducible refine Keeps.parts ?_) | (intro x; refine Keeps.cut (r := r0) (s := x) ?_ ?_; unfold x; rotate_left; clear_value x; intro _) | intro _ | lift_lets -underBinder | with_reducible apply State.modHost_keeps | with_reducible apply State.record_keeps | split)

theorem State.wordRecord_keeps {r0 : State} (s : State) (u : Nat) (op : Option RecOp) (hk : Keeps r0 s) : Keeps r0 (State.wordRecord s u op) := by
  unfold State.wordRecord
  repeat' (first | with_reducible assumption | (intro x; refine Keeps.cut (r := r0) (s := x) ?_ ?_; unfold x; rotate_left; clear_value x; intro _) | intro _ | lift_lets -underBinder | with_reducible apply State.mediaRecord_keeps | split)

theorem State.poisonRecord_keeps {r0 : State} (s : State) (off : Nat) (len : Nat) (op : Option RecOp) (hk : Keeps r0 s) : Keeps r0 (State.poisonRecord s off len op) := by
  unfold State.poisonRecord
  repeat' (first | with_reducible assumption | (simp only [keeps_mk, Cellar.allocBlock_mem, Cellar.freeBlock_mem, Cellar.freeBlocks_mem, Cellar.dropStaging_mem, Cellar.replaceStaging_mem, Hearth.runs]; with_reducible refine Keeps.parts ?_) | (intro x; refine Keeps.cut (r := r0) (s := x) ?_ ?_; unfold x; rotate_left; clear_value x; intro _) | intro _ | lift_lets -underBinder | with_reducible apply State.wordRecord_keeps | split | (simp only [keeps_mk, Cellar.allocBlock_mem, Cellar.freeBlock_mem, Cellar.freeBlocks_mem, Cellar.dropStaging_mem, Cellar.replaceStaging_mem, Hearth.runs]; with_reducible refine Keeps.partsMem ?_ (fun w => by first | exact w | exact Cellar.scrub_wf w | exact Cellar.putUnits_wf w | exact Cellar.maskUnit_wf ‹_› w | (exact Cellar.scrub_wf (by simpa using w)) | simp [Memory.wf])) | (simp only [keeps_mk, Cellar.allocBlock_mem, Cellar.freeBlock_mem, Cellar.freeBlocks_mem, Cellar.dropStaging_mem, Cellar.replaceStaging_mem, Hearth.runs]; with_reducible refine Keeps.partsTo ?_ (by simp) (fun w => by first | exact w | exact Cellar.scrub_wf w | exact Cellar.putUnits_wf w | exact Cellar.maskUnit_wf ‹_› w | (exact Cellar.scrub_wf (by simpa using w)) | simp [Memory.wf])))

theorem State.cellError_keeps {r0 : State} (s : State) (u : Nat) (word : Nat) (op : Option RecOp) (hk : Keeps r0 s) : Keeps r0 (State.cellError s u word op) := by
  unfold State.cellError
  repeat' (first | with_reducible assumption | (simp only [keeps_mk, Cellar.allocBlock_mem, Cellar.freeBlock_mem, Cellar.freeBlocks_mem, Cellar.dropStaging_mem, Cellar.replaceStaging_mem, Hearth.runs]; with_reducible refine Keeps.parts ?_) | (intro x; refine Keeps.cut (r := r0) (s := x) ?_ ?_; unfold x; rotate_left; clear_value x; intro _) | intro _ | lift_lets -underBinder | with_reducible apply State.modExt_keeps | with_reducible apply State.wordRecord_keeps | split | (simp only [keeps_mk, Cellar.allocBlock_mem, Cellar.freeBlock_mem, Cellar.freeBlocks_mem, Cellar.dropStaging_mem, Cellar.replaceStaging_mem, Hearth.runs]; with_reducible refine Keeps.partsMem ?_ (fun w => by first | exact w | exact Cellar.scrub_wf w | exact Cellar.putUnits_wf w | exact Cellar.maskUnit_wf ‹_› w | (exact Cellar.scrub_wf (by simpa using w)) | simp [Memory.wf])) | (simp only [keeps_mk, Cellar.allocBlock_mem, Cellar.freeBlock_mem, Cellar.freeBlocks_mem, Cellar.dropStaging_mem, Cellar.replaceStaging_mem, Hearth.runs]; with_reducible refine Keeps.partsTo ?_ (by simp) (fun w => by first | exact w | exact Cellar.scrub_wf w | exact Cellar.putUnits_wf w | exact Cellar.maskUnit_wf ‹_› w | (exact Cellar.scrub_wf (by simpa using w)) | simp [Memory.wf])))

theorem State.figureRead_keeps {r0 : State} (s : State) (off : Nat) (len : Nat) (op : Option RecOp) (hk : Keeps r0 s) : Keeps r0 (State.figureRead s off len op).2 := by
  unfold State.figureRead
  repeat' (first | with_reducible assumption | (simp only [keeps_mk, Cellar.allocBlock_mem, Cellar.freeBlock_mem, Cellar.freeBlocks_mem, Cellar.dropStaging_mem, Cellar.replaceStaging_mem, Hearth.runs]; with_reducible refine Keeps.parts ?_) | (intro x; refine Keeps.cut (r := r0) (s := x) ?_ ?_; unfold x; rotate_left; clear_value x; intro _) | intro _ | lift_lets -underBinder | with_reducible apply State.draw_keeps | with_reducible apply State.poisonRecord_keeps | with_reducible apply State.cellError_keeps | split)

theorem State.waitCells_keeps {r0 : State} (s : State) (e : Nat) (w : FigWait) (hk : Keeps r0 s) : Keeps r0 (State.waitCells s e w) := by
  unfold State.waitCells
  repeat' (first | with_reducible assumption | (simp only [keeps_mk, Cellar.allocBlock_mem, Cellar.freeBlock_mem, Cellar.freeBlocks_mem, Cellar.dropStaging_mem, Cellar.replaceStaging_mem, Hearth.runs]; with_reducible refine Keeps.parts ?_) | (intro x; refine Keeps.cut (r := r0) (s := x) ?_ ?_; unfold x; rotate_left; clear_value x; intro _) | intro _ | lift_lets -underBinder | split | (simp only [keeps_mk, Cellar.allocBlock_mem, Cellar.freeBlock_mem, Cellar.freeBlocks_mem, Cellar.dropStaging_mem, Cellar.replaceStaging_mem, Hearth.runs]; with_reducible refine Keeps.partsMem ?_ (fun w => by first | exact w | exact Cellar.scrub_wf w | exact Cellar.putUnits_wf w | exact Cellar.maskUnit_wf ‹_› w | (exact Cellar.scrub_wf (by simpa using w)) | simp [Memory.wf])) | (simp only [keeps_mk, Cellar.allocBlock_mem, Cellar.freeBlock_mem, Cellar.freeBlocks_mem, Cellar.dropStaging_mem, Cellar.replaceStaging_mem, Hearth.runs]; with_reducible refine Keeps.partsTo ?_ (by simp) (fun w => by first | exact w | exact Cellar.scrub_wf w | exact Cellar.putUnits_wf w | exact Cellar.maskUnit_wf ‹_› w | (exact Cellar.scrub_wf (by simpa using w)) | simp [Memory.wf])))

theorem State.figurePut_keeps {r0 : State} (s : State) (off : Nat) (b : List Byte) (hk : Keeps r0 s) : Keeps r0 (State.figurePut s off b) := by
  unfold State.figurePut
  repeat' (first | with_reducible assumption | (simp only [keeps_mk, Cellar.allocBlock_mem, Cellar.freeBlock_mem, Cellar.freeBlocks_mem, Cellar.dropStaging_mem, Cellar.replaceStaging_mem, Hearth.runs]; with_reducible refine Keeps.parts ?_) | (intro x; refine Keeps.cut (r := r0) (s := x) ?_ ?_; unfold x; rotate_left; clear_value x; intro _) | intro _ | lift_lets -underBinder | with_reducible apply State.modHost_keeps | with_reducible apply overList_keeps | with_reducible apply State.cellarPut_keeps | with_reducible apply Keeps.overList | split | (simp only [keeps_mk, Cellar.allocBlock_mem, Cellar.freeBlock_mem, Cellar.freeBlocks_mem, Cellar.dropStaging_mem, Cellar.replaceStaging_mem, Hearth.runs]; with_reducible refine Keeps.partsMem ?_ (fun w => by first | exact w | exact Cellar.scrub_wf w | exact Cellar.putUnits_wf w | exact Cellar.maskUnit_wf ‹_› w | (exact Cellar.scrub_wf (by simpa using w)) | simp [Memory.wf])) | (simp only [keeps_mk, Cellar.allocBlock_mem, Cellar.freeBlock_mem, Cellar.freeBlocks_mem, Cellar.dropStaging_mem, Cellar.replaceStaging_mem, Hearth.runs]; with_reducible refine Keeps.partsTo ?_ (by simp) (fun w => by first | exact w | exact Cellar.scrub_wf w | exact Cellar.putUnits_wf w | exact Cellar.maskUnit_wf ‹_› w | (exact Cellar.scrub_wf (by simpa using w)) | simp [Memory.wf])))

theorem State.moveToCells_keeps {r0 : State} (s : State) (c : Nat) (fid : Nat) (off : Nat) (b : List Byte) (hk : Keeps r0 s) : Keeps r0 (State.moveToCells s c fid off b) := by
  unfold State.moveToCells
  repeat' (first | with_reducible assumption | (simp only [keeps_mk, Cellar.allocBlock_mem, Cellar.freeBlock_mem, Cellar.freeBlocks_mem, Cellar.dropStaging_mem, Cellar.replaceStaging_mem, Hearth.runs]; with_reducible refine Keeps.parts ?_) | (intro x; refine Keeps.cut (r := r0) (s := x) ?_ ?_; unfold x; rotate_left; clear_value x; intro _) | intro _ | lift_lets -underBinder | with_reducible apply State.touch_keeps | with_reducible apply State.waitCells_keeps | with_reducible apply State.figurePut_keeps | split | (simp only [keeps_mk, Cellar.allocBlock_mem, Cellar.freeBlock_mem, Cellar.freeBlocks_mem, Cellar.dropStaging_mem, Cellar.replaceStaging_mem, Hearth.runs]; with_reducible refine Keeps.partsMem ?_ (fun w => by first | exact w | exact Cellar.scrub_wf w | exact Cellar.putUnits_wf w | exact Cellar.maskUnit_wf ‹_› w | (exact Cellar.scrub_wf (by simpa using w)) | simp [Memory.wf])) | (simp only [keeps_mk, Cellar.allocBlock_mem, Cellar.freeBlock_mem, Cellar.freeBlocks_mem, Cellar.dropStaging_mem, Cellar.replaceStaging_mem, Hearth.runs]; with_reducible refine Keeps.partsTo ?_ (by simp) (fun w => by first | exact w | exact Cellar.scrub_wf w | exact Cellar.putUnits_wf w | exact Cellar.maskUnit_wf ‹_› w | (exact Cellar.scrub_wf (by simpa using w)) | simp [Memory.wf])))

theorem State.placeMove_keeps {r0 : State} (s : State) (sel : Nat) (addr : Nat) (b : List Byte) (c : Nat) (fid : Nat) (hk : Keeps r0 s) : Keeps r0 (State.placeMove s sel addr b c fid) := by
  unfold State.placeMove
  repeat' (first | with_reducible assumption | (intro x; refine Keeps.cut (r := r0) (s := x) ?_ ?_; unfold x; rotate_left; clear_value x; intro _) | intro _ | lift_lets -underBinder | with_reducible apply State.postBytes_keeps | with_reducible apply State.countTarget_keeps | with_reducible apply State.moveToCells_keeps | split)

theorem State.acceptMove_keeps {r0 : State} (s : State) (l : Lane) (b : List Byte) (hk : Keeps r0 s) : Keeps r0 (State.acceptMove s l b) := by
  unfold State.acceptMove
  repeat' (first | with_reducible assumption | (simp only [keeps_mk, Cellar.allocBlock_mem, Cellar.freeBlock_mem, Cellar.freeBlocks_mem, Cellar.dropStaging_mem, Cellar.replaceStaging_mem, Hearth.runs]; with_reducible refine Keeps.parts ?_) | (intro x; refine Keeps.cut (r := r0) (s := x) ?_ ?_; unfold x; rotate_left; clear_value x; intro _) | intro _ | lift_lets -underBinder | with_reducible apply State.countService_keeps | with_reducible apply State.settle_keeps | with_reducible apply State.modFlight_keeps | with_reducible apply State.placeMove_keeps | split)

theorem State.acceptColl_keeps {r0 : State} (s : State) (c : Nat) (fid : Nat) (k : Coll) (l : Lane) (b : List Byte) (aux : ChunkAux) (hk : Keeps r0 s) : Keeps r0 (State.acceptColl s c fid k l b aux) := by
  unfold State.acceptColl
  repeat' (first | with_reducible assumption | (simp only [keeps_mk, Cellar.allocBlock_mem, Cellar.freeBlock_mem, Cellar.freeBlocks_mem, Cellar.dropStaging_mem, Cellar.replaceStaging_mem, Hearth.runs]; with_reducible refine Keeps.parts ?_) | (intro x; refine Keeps.cut (r := r0) (s := x) ?_ ?_; unfold x; rotate_left; clear_value x; intro _) | intro _ | lift_lets -underBinder | with_reducible apply State.deliver_keeps | with_reducible apply State.modColl_keeps | with_reducible apply State.countReorder_keeps | with_reducible apply State.sendOn_keeps | with_reducible apply State.nodeTry_keeps | split)

theorem State.owe_keeps {r0 : State} (s : State) (n : ChunkName) (hk : Keeps r0 s) : Keeps r0 (State.owe s n) := by
  unfold State.owe
  repeat' (first | with_reducible assumption | (simp only [keeps_mk, Cellar.allocBlock_mem, Cellar.freeBlock_mem, Cellar.freeBlocks_mem, Cellar.dropStaging_mem, Cellar.replaceStaging_mem, Hearth.runs]; with_reducible refine Keeps.parts ?_) | (intro x; refine Keeps.cut (r := r0) (s := x) ?_ ?_; unfold x; rotate_left; clear_value x; intro _) | intro _ | lift_lets -underBinder | split)

theorem State.paid_keeps {r0 : State} (s : State) (n : ChunkName) (hk : Keeps r0 s) : Keeps r0 (State.paid s n) := by
  unfold State.paid
  repeat' (first | with_reducible assumption | (simp only [keeps_mk, Cellar.allocBlock_mem, Cellar.freeBlock_mem, Cellar.freeBlocks_mem, Cellar.dropStaging_mem, Cellar.replaceStaging_mem, Hearth.runs]; with_reducible refine Keeps.parts ?_) | (intro x; refine Keeps.cut (r := r0) (s := x) ?_ ?_; unfold x; rotate_left; clear_value x; intro _) | intro _ | lift_lets -underBinder | split)

theorem State.dropUnit_keeps {r0 : State} (s : State) (l : Lane) (hk : Keeps r0 s) : Keeps r0 (State.dropUnit s l) := by
  unfold State.dropUnit
  repeat' (first | with_reducible assumption | (simp only [keeps_mk, Cellar.allocBlock_mem, Cellar.freeBlock_mem, Cellar.freeBlocks_mem, Cellar.dropStaging_mem, Cellar.replaceStaging_mem, Hearth.runs]; with_reducible refine Keeps.parts ?_) | (intro x; refine Keeps.cut (r := r0) (s := x) ?_ ?_; unfold x; rotate_left; clear_value x; intro _) | intro _ | lift_lets -underBinder | split)

theorem State.failOwner_keeps {r0 : State} (s : State) (l : Lane) (d : Done) (hk : Keeps r0 s) : Keeps r0 (State.failOwner s l d) := by
  unfold State.failOwner
  repeat' (first | with_reducible assumption | (simp only [keeps_mk, Cellar.allocBlock_mem, Cellar.freeBlock_mem, Cellar.freeBlocks_mem, Cellar.dropStaging_mem, Cellar.replaceStaging_mem, Hearth.runs]; with_reducible refine Keeps.parts ?_) | (intro x; refine Keeps.cut (r := r0) (s := x) ?_ ?_; unfold x; rotate_left; clear_value x; intro _) | intro _ | lift_lets -underBinder | with_reducible apply State.failFlight_keeps | with_reducible apply State.settle_keeps | with_reducible apply State.dropLane_keeps | split)

theorem State.loseLane_keeps {r0 : State} (s : State) (l : Lane) (hk : Keeps r0 s) : Keeps r0 (State.loseLane s l) := by
  unfold State.loseLane
  repeat' (first | with_reducible assumption | (simp only [keeps_mk, Cellar.allocBlock_mem, Cellar.freeBlock_mem, Cellar.freeBlocks_mem, Cellar.dropStaging_mem, Cellar.replaceStaging_mem, Hearth.runs]; with_reducible refine Keeps.parts ?_) | (intro x; refine Keeps.cut (r := r0) (s := x) ?_ ?_; unfold x; rotate_left; clear_value x; intro _) | intro _ | lift_lets -underBinder | with_reducible apply State.countPort_keeps | with_reducible apply State.failFlight_keeps | with_reducible apply State.settle_keeps | with_reducible apply State.dropLane_keeps | with_reducible apply State.loseRings_keeps | with_reducible apply State.loseOwnRings_keeps | with_reducible apply State.paid_keeps | split)

theorem State.failLane_keeps {r0 : State} (s : State) (l : Lane) (cause : Nat) (hk : Keeps r0 s) : Keeps r0 (State.failLane s l cause) := by
  unfold State.failLane
  repeat' (first | with_reducible assumption | (simp only [keeps_mk, Cellar.allocBlock_mem, Cellar.freeBlock_mem, Cellar.freeBlocks_mem, Cellar.dropStaging_mem, Cellar.replaceStaging_mem, Hearth.runs]; with_reducible refine Keeps.parts ?_) | (intro x; refine Keeps.cut (r := r0) (s := x) ?_ ?_; unfold x; rotate_left; clear_value x; intro _) | intro _ | lift_lets -underBinder | with_reducible apply State.countPort_keeps | with_reducible apply State.askResend_keeps | with_reducible apply State.dropLane_keeps | with_reducible apply State.owe_keeps | with_reducible apply State.loseLane_keeps | split)

theorem State.passOn_keeps {r0 : State} (s : State) (l : Lane) (f : List Byte) (b : List Byte) (aux : ChunkAux) (hk : Keeps r0 s) : Keeps r0 (State.passOn s l f b aux) := by
  unfold State.passOn
  repeat' (first | with_reducible assumption | (simp only [keeps_mk, Cellar.allocBlock_mem, Cellar.freeBlock_mem, Cellar.freeBlocks_mem, Cellar.dropStaging_mem, Cellar.replaceStaging_mem, Hearth.runs]; with_reducible refine Keeps.parts ?_) | (intro x; refine Keeps.cut (r := r0) (s := x) ?_ ?_; unfold x; rotate_left; clear_value x; intro _) | intro _ | lift_lets -underBinder | with_reducible apply State.modOut_keeps | with_reducible apply State.fillOut_keeps | split)

theorem State.ringsBehind_keeps {r0 : State} (s : State) (n : ChunkName) (hk : Keeps r0 s) : Keeps r0 (State.ringsBehind s n) := by
  unfold State.ringsBehind
  repeat' (first | with_reducible assumption | (simp only [keeps_mk, Cellar.allocBlock_mem, Cellar.freeBlock_mem, Cellar.freeBlocks_mem, Cellar.dropStaging_mem, Cellar.replaceStaging_mem, Hearth.runs]; with_reducible refine Keeps.parts ?_) | (intro x; refine Keeps.cut (r := r0) (s := x) ?_ ?_; unfold x; rotate_left; clear_value x; intro _) | intro _ | lift_lets -underBinder | split)

theorem State.confirmLane_keeps {r0 : State} (s : State) (l : Lane) (f : List Byte) (aux : ChunkAux) (hk : Keeps r0 s) : Keeps r0 (State.confirmLane s l f aux) := by
  unfold State.confirmLane
  repeat' (first | with_reducible assumption | (simp only [keeps_mk, Cellar.allocBlock_mem, Cellar.freeBlock_mem, Cellar.freeBlocks_mem, Cellar.dropStaging_mem, Cellar.replaceStaging_mem, Hearth.runs]; with_reducible refine Keeps.parts ?_) | (intro x; refine Keeps.cut (r := r0) (s := x) ?_ ?_; unfold x; rotate_left; clear_value x; intro _) | intro _ | lift_lets -underBinder | with_reducible apply State.countPort_keeps | with_reducible apply State.settle_keeps | with_reducible apply State.ackLane_keeps | with_reducible apply State.commit_keeps | with_reducible apply State.acceptMove_keeps | with_reducible apply State.acceptColl_keeps | with_reducible apply State.paid_keeps | with_reducible apply State.passOn_keeps | with_reducible apply State.ringsBehind_keeps | split)

theorem State.poisonLane_keeps {r0 : State} (s : State) (l : Lane) (hk : Keeps r0 s) : Keeps r0 (State.poisonLane s l) := by
  unfold State.poisonLane
  repeat' (first | with_reducible assumption | (simp only [keeps_mk, Cellar.allocBlock_mem, Cellar.freeBlock_mem, Cellar.freeBlocks_mem, Cellar.dropStaging_mem, Cellar.replaceStaging_mem, Hearth.runs]; with_reducible refine Keeps.parts ?_) | (intro x; refine Keeps.cut (r := r0) (s := x) ?_ ?_; unfold x; rotate_left; clear_value x; intro _) | intro _ | lift_lets -underBinder | with_reducible apply State.failFlight_keeps | with_reducible apply State.settle_keeps | with_reducible apply State.ackLane_keeps | with_reducible apply State.dropLane_keeps | with_reducible apply State.loseRings_keeps | with_reducible apply State.loseOwnRings_keeps | with_reducible apply State.paid_keeps | split)

theorem State.judgeLane_keeps {r0 : State} (s : State) (l : Lane) (f : List Byte) (aux : ChunkAux) (hk : Keeps r0 s) : Keeps r0 (State.judgeLane s l f aux) := by
  unfold State.judgeLane
  repeat' (first | with_reducible assumption | (simp only [keeps_mk, Cellar.allocBlock_mem, Cellar.freeBlock_mem, Cellar.freeBlocks_mem, Cellar.dropStaging_mem, Cellar.replaceStaging_mem, Hearth.runs]; with_reducible refine Keeps.parts ?_) | (intro x; refine Keeps.cut (r := r0) (s := x) ?_ ?_; unfold x; rotate_left; clear_value x; intro _) | intro _ | lift_lets -underBinder | with_reducible apply State.dropLane_keeps | with_reducible apply State.failOwner_keeps | with_reducible apply State.failLane_keeps | with_reducible apply State.confirmLane_keeps | with_reducible apply State.poisonLane_keeps | split)

theorem State.returnCredits_keeps {r0 : State} (s : State) (p : Nat) (vc : Nat) (n : Nat) (hk : Keeps r0 s) : Keeps r0 (State.returnCredits s p vc n) := by
  unfold State.returnCredits
  repeat' (first | with_reducible assumption | (simp only [keeps_mk, Cellar.allocBlock_mem, Cellar.freeBlock_mem, Cellar.freeBlocks_mem, Cellar.dropStaging_mem, Cellar.replaceStaging_mem, Hearth.runs]; with_reducible refine Keeps.parts ?_) | (intro x; refine Keeps.cut (r := r0) (s := x) ?_ ?_; unfold x; rotate_left; clear_value x; intro _) | intro _ | lift_lets -underBinder | with_reducible apply State.modPort_keeps | split)

theorem State.preReady_keeps {r0 : State} (s : State) (p : Nat) (vc : Nat) (n : Nat) (hk : Keeps r0 s) : Keeps r0 (State.preReady s p vc n) := by
  unfold State.preReady
  repeat' (first | with_reducible assumption | (simp only [keeps_mk, Cellar.allocBlock_mem, Cellar.freeBlock_mem, Cellar.freeBlocks_mem, Cellar.dropStaging_mem, Cellar.replaceStaging_mem, Hearth.runs]; with_reducible refine Keeps.parts ?_) | (intro x; refine Keeps.cut (r := r0) (s := x) ?_ ?_; unfold x; rotate_left; clear_value x; intro _) | intro _ | lift_lets -underBinder | with_reducible apply State.countPort_keeps | with_reducible apply State.returnCredits_keeps | split)

theorem State.wrongGen_keeps {r0 : State} (s : State) (g : Nat) (hk : Keeps r0 s) : Keeps r0 (State.wrongGen s g) := by
  unfold State.wrongGen
  repeat' (first | with_reducible assumption | (simp only [keeps_mk, Cellar.allocBlock_mem, Cellar.freeBlock_mem, Cellar.freeBlocks_mem, Cellar.dropStaging_mem, Cellar.replaceStaging_mem, Hearth.runs]; with_reducible refine Keeps.parts ?_) | (intro x; refine Keeps.cut (r := r0) (s := x) ?_ ?_; unfold x; rotate_left; clear_value x; intro _) | intro _ | lift_lets -underBinder | with_reducible apply State.failFlight_keeps | with_reducible apply State.settle_keeps | split)

theorem State.feed_keeps {r0 : State} (s : State) (l : Lane) (off : Nat) (b : List Byte) (hk : Keeps r0 s) : Keeps r0 (State.feed s l off b) := by
  unfold State.feed
  repeat' (first | with_reducible assumption | (simp only [keeps_mk, Cellar.allocBlock_mem, Cellar.freeBlock_mem, Cellar.freeBlocks_mem, Cellar.dropStaging_mem, Cellar.replaceStaging_mem, Hearth.runs]; with_reducible refine Keeps.parts ?_) | (intro x; refine Keeps.cut (r := r0) (s := x) ?_ ?_; unfold x; rotate_left; clear_value x; intro _) | intro _ | lift_lets -underBinder | with_reducible apply overList_keeps | with_reducible apply State.modOut_keeps | with_reducible apply State.pushPieces_keeps | with_reducible apply Keeps.overList | split)

theorem State.openOnward_keeps {r0 : State} (s : State) (c : Nat) (fid : Nat) (k : Coll) (l : Lane) (hk : Keeps r0 s) : Keeps r0 (State.openOnward s c fid k l) := by
  unfold State.openOnward
  repeat' (first | with_reducible assumption | (simp only [keeps_mk, Cellar.allocBlock_mem, Cellar.freeBlock_mem, Cellar.freeBlocks_mem, Cellar.dropStaging_mem, Cellar.replaceStaging_mem, Hearth.runs]; with_reducible refine Keeps.parts ?_) | (intro x; refine Keeps.cut (r := r0) (s := x) ?_ ?_; unfold x; rotate_left; clear_value x; intro _) | intro _ | lift_lets -underBinder | with_reducible apply overList_keeps | with_reducible apply Keeps.overList | split)

theorem State.takeLane_keeps {r0 : State} (s : State) (c : Nat) (fid : Nat) (l : Lane) (hk : Keeps r0 s) : Keeps r0 (State.takeLane s c fid l) := by
  unfold State.takeLane
  repeat' (first | with_reducible assumption | (simp only [keeps_mk, Cellar.allocBlock_mem, Cellar.freeBlock_mem, Cellar.freeBlocks_mem, Cellar.dropStaging_mem, Cellar.replaceStaging_mem, Hearth.runs]; with_reducible refine Keeps.parts ?_) | (intro x; refine Keeps.cut (r := r0) (s := x) ?_ ?_; unfold x; rotate_left; clear_value x; intro _) | intro _ | lift_lets -underBinder | with_reducible apply overList_keeps | with_reducible apply State.modColl_keeps | with_reducible apply State.nodeTry_keeps | with_reducible apply State.feed_keeps | with_reducible apply State.openOnward_keeps | with_reducible apply Keeps.overList | split)

theorem State.openLane_keeps {r0 : State} (s : State) (l : Lane) (ports : List Nat) (hk : Keeps r0 s) : Keeps r0 (State.openLane s l ports) := by
  unfold State.openLane
  repeat' (first | with_reducible assumption | (simp only [keeps_mk, Cellar.allocBlock_mem, Cellar.freeBlock_mem, Cellar.freeBlocks_mem, Cellar.dropStaging_mem, Cellar.replaceStaging_mem, Hearth.runs]; with_reducible refine Keeps.parts ?_) | (intro x; refine Keeps.cut (r := r0) (s := x) ?_ ?_; unfold x; rotate_left; clear_value x; intro _) | intro _ | lift_lets -underBinder | with_reducible apply State.takeLane_keeps | split)

theorem State.intoLane_keeps {r0 : State} (s : State) (l : Lane) (off : Nat) (b : List Byte) (hk : Keeps r0 s) : Keeps r0 (State.intoLane s l off b) := by
  unfold State.intoLane
  repeat' (first | with_reducible assumption | (simp only [keeps_mk, Cellar.allocBlock_mem, Cellar.freeBlock_mem, Cellar.freeBlocks_mem, Cellar.dropStaging_mem, Cellar.replaceStaging_mem, Hearth.runs]; with_reducible refine Keeps.parts ?_) | (intro x; refine Keeps.cut (r := r0) (s := x) ?_ ?_; unfold x; rotate_left; clear_value x; intro _) | intro _ | lift_lets -underBinder | with_reducible apply State.speculate_keeps | with_reducible apply State.feed_keeps | split)

theorem State.renewFlow_keeps {r0 : State} (s : State) (l : Lane) (hk : Keeps r0 s) : Keeps r0 (State.renewFlow s l) := by
  unfold State.renewFlow
  repeat' (first | with_reducible assumption | (simp only [keeps_mk, Cellar.allocBlock_mem, Cellar.freeBlock_mem, Cellar.freeBlocks_mem, Cellar.dropStaging_mem, Cellar.replaceStaging_mem, Hearth.runs]; with_reducible refine Keeps.parts ?_) | (intro x; refine Keeps.cut (r := r0) (s := x) ?_ ?_; unfold x; rotate_left; clear_value x; intro _) | intro _ | lift_lets -underBinder | split)

theorem State.packetIn_keeps {r0 : State} (s : State) (l : Lane) (ports : List Nat) (off : Nat) (b : List Byte) (hk : Keeps r0 s) : Keeps r0 (State.packetIn s l ports off b) := by
  unfold State.packetIn
  repeat' (first | with_reducible assumption | (simp only [keeps_mk, Cellar.allocBlock_mem, Cellar.freeBlock_mem, Cellar.freeBlocks_mem, Cellar.dropStaging_mem, Cellar.replaceStaging_mem, Hearth.runs]; with_reducible refine Keeps.parts ?_) | (intro x; refine Keeps.cut (r := r0) (s := x) ?_ ?_; unfold x; rotate_left; clear_value x; intro _) | intro _ | lift_lets -underBinder | with_reducible apply State.dropLane_keeps | with_reducible apply State.dropUnit_keeps | with_reducible apply State.openLane_keeps | with_reducible apply State.intoLane_keeps | with_reducible apply State.renewFlow_keeps | split | (dsimp +zetaDelta only))

theorem execPacketReceived_keeps {r0 : State} (port : Fin 36) (header : List Byte) (body : List Byte) (src : Nat) (dst : Nat) (s : State) (hk : Keeps r0 s) : KeepsOut r0 (execPacketReceived port header body src dst s) := by
  unfold execPacketReceived
  repeat' (first | with_reducible assumption | (simp only [keeps_mk, Cellar.allocBlock_mem, Cellar.freeBlock_mem, Cellar.freeBlocks_mem, Cellar.dropStaging_mem, Cellar.replaceStaging_mem, Hearth.runs]; with_reducible refine Keeps.parts ?_) | with_reducible apply KeepsOut.next | (intro x; refine Keeps.cut (r := r0) (s := x) ?_ ?_; unfold x; rotate_left; clear_value x; intro _) | intro _ | lift_lets -underBinder | with_reducible apply State.countPort_keeps | with_reducible apply State.fabricIn_keeps | with_reducible apply State.dropUnit_keeps | with_reducible apply State.returnCredits_keeps | with_reducible apply State.preReady_keeps | with_reducible apply State.wrongGen_keeps | with_reducible apply State.packetIn_keeps | split)

theorem State.keepSealed_keeps {r0 : State} (s : State) (l : Lane) (f : List Byte) (aux : ChunkAux) (hk : Keeps r0 s) : Keeps r0 (State.keepSealed s l f aux) := by
  unfold State.keepSealed
  repeat' (first | with_reducible assumption | (simp only [keeps_mk, Cellar.allocBlock_mem, Cellar.freeBlock_mem, Cellar.freeBlocks_mem, Cellar.dropStaging_mem, Cellar.replaceStaging_mem, Hearth.runs]; with_reducible refine Keeps.parts ?_) | (intro x; refine Keeps.cut (r := r0) (s := x) ?_ ?_; unfold x; rotate_left; clear_value x; intro _) | intro _ | lift_lets -underBinder | with_reducible apply State.failFlight_keeps | with_reducible apply State.settle_keeps | with_reducible apply State.dropLane_keeps | split)

theorem State.sealAlone_keeps {r0 : State} (s : State) (g : Lane) (hk : Keeps r0 s) : Keeps r0 (State.sealAlone s g) := by
  unfold State.sealAlone
  repeat' (first | with_reducible assumption | (simp only [keeps_mk, Cellar.allocBlock_mem, Cellar.freeBlock_mem, Cellar.freeBlocks_mem, Cellar.dropStaging_mem, Cellar.replaceStaging_mem, Hearth.runs]; with_reducible refine Keeps.parts ?_) | (intro x; refine Keeps.cut (r := r0) (s := x) ?_ ?_; unfold x; rotate_left; clear_value x; intro _) | intro _ | lift_lets -underBinder | with_reducible apply State.countPort_keeps | with_reducible apply State.ackLane_keeps | with_reducible apply State.failLane_keeps | with_reducible apply State.wrongGen_keeps | split)

theorem execSealReceived_keeps {r0 : State} (port : Fin 36) (sealFlit : List Byte) (aux : ChunkAux) (s : State) (hk : Keeps r0 s) : KeepsOut r0 (execSealReceived port sealFlit aux s) := by
  unfold execSealReceived
  repeat' (first | with_reducible assumption | (simp only [keeps_mk, Cellar.allocBlock_mem, Cellar.freeBlock_mem, Cellar.freeBlocks_mem, Cellar.dropStaging_mem, Cellar.replaceStaging_mem, Hearth.runs]; with_reducible refine Keeps.parts ?_) | with_reducible apply KeepsOut.next | (intro x; refine Keeps.cut (r := r0) (s := x) ?_ ?_; unfold x; rotate_left; clear_value x; intro _) | intro _ | lift_lets -underBinder | with_reducible apply State.fabricIn_keeps | with_reducible apply State.dropLane_keeps | with_reducible apply State.judgeLane_keeps | with_reducible apply State.returnCredits_keeps | with_reducible apply State.preReady_keeps | with_reducible apply State.wrongGen_keeps | with_reducible apply State.keepSealed_keeps | with_reducible apply State.sealAlone_keeps | split)

theorem State.badControl_keeps {r0 : State} (s : State) (p : Nat) (hk : Keeps r0 s) : Keeps r0 (State.badControl s p) := by
  unfold State.badControl
  repeat' (first | with_reducible assumption | (simp only [keeps_mk, Cellar.allocBlock_mem, Cellar.freeBlock_mem, Cellar.freeBlocks_mem, Cellar.dropStaging_mem, Cellar.replaceStaging_mem, Hearth.runs]; with_reducible refine Keeps.parts ?_) | (intro x; refine Keeps.cut (r := r0) (s := x) ?_ ?_; unfold x; rotate_left; clear_value x; intro _) | intro _ | lift_lets -underBinder | with_reducible apply State.countPort_keeps | split)

theorem execRetractMarker_keeps {r0 : State} (port : Fin 36) (flit : List Byte) (s : State) (hk : Keeps r0 s) : KeepsOut r0 (execRetractMarker port flit s) := by
  unfold execRetractMarker
  repeat' (first | with_reducible assumption | (simp only [keeps_mk, Cellar.allocBlock_mem, Cellar.freeBlock_mem, Cellar.freeBlocks_mem, Cellar.dropStaging_mem, Cellar.replaceStaging_mem, Hearth.runs]; with_reducible refine Keeps.parts ?_) | with_reducible apply KeepsOut.next | (intro x; refine Keeps.cut (r := r0) (s := x) ?_ ?_; unfold x; rotate_left; clear_value x; intro _) | intro _ | lift_lets -underBinder | with_reducible apply State.countPort_keeps | with_reducible apply State.fabricIn_keeps | with_reducible apply State.dropLane_keeps | with_reducible apply State.owe_keeps | with_reducible apply State.returnCredits_keeps | with_reducible apply State.preReady_keeps | with_reducible apply State.badControl_keeps | split)

theorem State.lateReply_keeps {r0 : State} (s : State) (n : ChunkName) (hk : Keeps r0 s) : Keeps r0 (State.lateReply s n) := by
  unfold State.lateReply
  repeat' (first | with_reducible assumption | (simp only [keeps_mk, Cellar.allocBlock_mem, Cellar.freeBlock_mem, Cellar.freeBlocks_mem, Cellar.dropStaging_mem, Cellar.replaceStaging_mem, Hearth.runs]; with_reducible refine Keeps.parts ?_) | (intro x; refine Keeps.cut (r := r0) (s := x) ?_ ?_; unfold x; rotate_left; clear_value x; intro _) | intro _ | lift_lets -underBinder | split)

theorem execChunkAck_keeps {r0 : State} (port : Fin 36) (flit : List Byte) (s : State) (hk : Keeps r0 s) : KeepsOut r0 (execChunkAck port flit s) := by
  unfold execChunkAck
  repeat' (first | with_reducible assumption | (simp only [keeps_mk, Cellar.allocBlock_mem, Cellar.freeBlock_mem, Cellar.freeBlocks_mem, Cellar.dropStaging_mem, Cellar.replaceStaging_mem, Hearth.runs]; with_reducible refine Keeps.parts ?_) | with_reducible apply KeepsOut.next | (intro x; refine Keeps.cut (r := r0) (s := x) ?_ ?_; unfold x; rotate_left; clear_value x; intro _) | intro _ | lift_lets -underBinder | with_reducible apply State.fabricIn_keeps | with_reducible apply State.settleOwner_keeps | with_reducible apply State.returnCredits_keeps | with_reducible apply State.badControl_keeps | with_reducible apply State.lateReply_keeps | split)

theorem State.resend_keeps {r0 : State} (s : State) (i : Nat) (o : OutChunk) (hk : Keeps r0 s) : Keeps r0 (State.resend s i o) := by
  unfold State.resend
  repeat' (first | with_reducible assumption | (simp only [keeps_mk, Cellar.allocBlock_mem, Cellar.freeBlock_mem, Cellar.freeBlocks_mem, Cellar.dropStaging_mem, Cellar.replaceStaging_mem, Hearth.runs]; with_reducible refine Keeps.parts ?_) | (intro x; refine Keeps.cut (r := r0) (s := x) ?_ ?_; unfold x; rotate_left; clear_value x; intro _) | intro _ | lift_lets -underBinder | with_reducible apply State.countPort_keeps | with_reducible apply State.disturb_keeps | with_reducible apply State.modOut_keeps | split)

theorem execResendRequest_keeps {r0 : State} (port : Fin 36) (flit : List Byte) (s : State) (hk : Keeps r0 s) : KeepsOut r0 (execResendRequest port flit s) := by
  unfold execResendRequest
  repeat' (first | with_reducible assumption | (simp only [keeps_mk, Cellar.allocBlock_mem, Cellar.freeBlock_mem, Cellar.freeBlocks_mem, Cellar.dropStaging_mem, Cellar.replaceStaging_mem, Hearth.runs]; with_reducible refine Keeps.parts ?_) | with_reducible apply KeepsOut.next | (intro x; refine Keeps.cut (r := r0) (s := x) ?_ ?_; unfold x; rotate_left; clear_value x; intro _) | intro _ | lift_lets -underBinder | with_reducible apply State.fabricIn_keeps | with_reducible apply State.returnCredits_keeps | with_reducible apply State.badControl_keeps | with_reducible apply State.lateReply_keeps | with_reducible apply State.resend_keeps | split)

theorem execAckTimeout_keeps {r0 : State} (n : Nat) (s : State) (hk : Keeps r0 s) : KeepsOut r0 (execAckTimeout n s) := by
  unfold execAckTimeout
  repeat' (first | with_reducible assumption | (simp only [keeps_mk, Cellar.allocBlock_mem, Cellar.freeBlock_mem, Cellar.freeBlocks_mem, Cellar.dropStaging_mem, Cellar.replaceStaging_mem, Hearth.runs]; with_reducible refine Keeps.parts ?_) | with_reducible apply KeepsOut.next | (intro x; refine Keeps.cut (r := r0) (s := x) ?_ ?_; unfold x; rotate_left; clear_value x; intro _) | intro _ | lift_lets -underBinder | with_reducible apply State.countPort_keeps | with_reducible apply State.failFlight_keeps | with_reducible apply State.settle_keeps | with_reducible apply State.disturb_keeps | with_reducible apply State.loseOwnRings_keeps | with_reducible apply State.resend_keeps | split)


/-! ## Figures -/

theorem execFigureFetch_keeps {r0 : State} (ctx : Fin 256) (res : ReadResult) (s : State) (hk : Keeps r0 s) : KeepsOut r0 (execFigureFetch ctx res s) := by
  unfold execFigureFetch
  repeat' (first | with_reducible assumption | (simp only [keeps_mk, Cellar.allocBlock_mem, Cellar.freeBlock_mem, Cellar.freeBlocks_mem, Cellar.dropStaging_mem, Cellar.replaceStaging_mem, Hearth.runs]; with_reducible refine Keeps.parts ?_) | with_reducible apply KeepsOut.next | (intro x; refine Keeps.cut (r := r0) (s := x) ?_ ?_; unfold x; rotate_left; clear_value x; intro _) | intro _ | lift_lets -underBinder | with_reducible apply State.modCtx_keeps | with_reducible apply State.refresh_keeps | with_reducible apply State.directRead_keeps | with_reducible apply State.touch_keeps | split)

theorem execNop_keeps {r0 : State} (ctx : Fin 256) (s : State) (hk : Keeps r0 s) : KeepsOut r0 (execNop ctx s) := by
  unfold execNop
  repeat' (first | with_reducible assumption | (simp only [keeps_mk, Cellar.allocBlock_mem, Cellar.freeBlock_mem, Cellar.freeBlocks_mem, Cellar.dropStaging_mem, Cellar.replaceStaging_mem, Hearth.runs]; with_reducible refine Keeps.parts ?_) | with_reducible apply KeepsOut.next | (intro x; refine Keeps.cut (r := r0) (s := x) ?_ ?_; unfold x; rotate_left; clear_value x; intro _) | intro _ | lift_lets -underBinder | with_reducible apply State.settle_keeps | with_reducible apply State.issue_keeps | with_reducible apply State.issueFail_keeps | split)

theorem execEndCard_keeps {r0 : State} (ctx : Fin 256) (s : State) (hk : Keeps r0 s) : KeepsOut r0 (execEndCard ctx s) := by
  unfold execEndCard
  repeat' (first | with_reducible assumption | (simp only [keeps_mk, Cellar.allocBlock_mem, Cellar.freeBlock_mem, Cellar.freeBlocks_mem, Cellar.dropStaging_mem, Cellar.replaceStaging_mem, Hearth.runs]; with_reducible refine Keeps.parts ?_) | with_reducible apply KeepsOut.next | (intro x; refine Keeps.cut (r := r0) (s := x) ?_ ?_; unfold x; rotate_left; clear_value x; intro _) | intro _ | lift_lets -underBinder | with_reducible apply State.settle_keeps | with_reducible apply State.issueAt_keeps | with_reducible apply State.issueFail_keeps | split)

theorem execLoop_keeps {r0 : State} (ctx : Fin 256) (s : State) (hk : Keeps r0 s) : KeepsOut r0 (execLoop ctx s) := by
  unfold execLoop
  repeat' (first | with_reducible assumption | (simp only [keeps_mk, Cellar.allocBlock_mem, Cellar.freeBlock_mem, Cellar.freeBlocks_mem, Cellar.dropStaging_mem, Cellar.replaceStaging_mem, Hearth.runs]; with_reducible refine Keeps.parts ?_) | with_reducible apply KeepsOut.next | (intro x; refine Keeps.cut (r := r0) (s := x) ?_ ?_; unfold x; rotate_left; clear_value x; intro _) | intro _ | lift_lets -underBinder | with_reducible apply State.modCtx_keeps | with_reducible apply State.settle_keeps | with_reducible apply State.issueAt_keeps | with_reducible apply State.issueFail_keeps | split)

theorem execMark_keeps {r0 : State} (ctx : Fin 256) (s : State) (hk : Keeps r0 s) : KeepsOut r0 (execMark ctx s) := by
  unfold execMark
  repeat' (first | with_reducible assumption | (simp only [keeps_mk, Cellar.allocBlock_mem, Cellar.freeBlock_mem, Cellar.freeBlocks_mem, Cellar.dropStaging_mem, Cellar.replaceStaging_mem, Hearth.runs]; with_reducible refine Keeps.parts ?_) | with_reducible apply KeepsOut.next | (intro x; refine Keeps.cut (r := r0) (s := x) ?_ ?_; unfold x; rotate_left; clear_value x; intro _) | intro _ | lift_lets -underBinder | with_reducible apply State.modCtx_keeps | with_reducible apply State.settle_keeps | with_reducible apply State.issue_keeps | with_reducible apply State.issueFail_keeps | split)

theorem execFence_keeps {r0 : State} (ctx : Fin 256) (s : State) (hk : Keeps r0 s) : KeepsOut r0 (execFence ctx s) := by
  unfold execFence
  repeat' (first | with_reducible assumption | (simp only [keeps_mk, Cellar.allocBlock_mem, Cellar.freeBlock_mem, Cellar.freeBlocks_mem, Cellar.dropStaging_mem, Cellar.replaceStaging_mem, Hearth.runs]; with_reducible refine Keeps.parts ?_) | with_reducible apply KeepsOut.next | (intro x; refine Keeps.cut (r := r0) (s := x) ?_ ?_; unfold x; rotate_left; clear_value x; intro _) | intro _ | lift_lets -underBinder | with_reducible apply State.settle_keeps | with_reducible apply State.issue_keeps | with_reducible apply State.issueFail_keeps | split)

theorem execBadOpcode_keeps {r0 : State} (ctx : Fin 256) (s : State) (hk : Keeps r0 s) : KeepsOut r0 (execBadOpcode ctx s) := by
  unfold execBadOpcode
  repeat' (first | with_reducible assumption | (simp only [keeps_mk, Cellar.allocBlock_mem, Cellar.freeBlock_mem, Cellar.freeBlocks_mem, Cellar.dropStaging_mem, Cellar.replaceStaging_mem, Hearth.runs]; with_reducible refine Keeps.parts ?_) | with_reducible apply KeepsOut.next | (intro x; refine Keeps.cut (r := r0) (s := x) ?_ ?_; unfold x; rotate_left; clear_value x; intro _) | intro _ | lift_lets -underBinder | with_reducible apply State.issueFail_keeps | split)

theorem execNoEnd_keeps {r0 : State} (ctx : Fin 256) (s : State) (hk : Keeps r0 s) : KeepsOut r0 (execNoEnd ctx s) := by
  unfold execNoEnd
  repeat' (first | with_reducible assumption | with_reducible apply KeepsOut.next | (intro x; refine Keeps.cut (r := r0) (s := x) ?_ ?_; unfold x; rotate_left; clear_value x; intro _) | intro _ | lift_lets -underBinder | with_reducible apply State.issueFail_keeps | split)

theorem execCardFetchError_keeps {r0 : State} (ctx : Fin 256) (s : State) (hk : Keeps r0 s) : KeepsOut r0 (execCardFetchError ctx s) := by
  unfold execCardFetchError
  repeat' (first | with_reducible assumption | (simp only [keeps_mk, Cellar.allocBlock_mem, Cellar.freeBlock_mem, Cellar.freeBlocks_mem, Cellar.dropStaging_mem, Cellar.replaceStaging_mem, Hearth.runs]; with_reducible refine Keeps.parts ?_) | with_reducible apply KeepsOut.next | (intro x; refine Keeps.cut (r := r0) (s := x) ?_ ?_; unfold x; rotate_left; clear_value x; intro _) | intro _ | lift_lets -underBinder | with_reducible apply State.issueFail_keeps | with_reducible apply State.poisonRecord_keeps | split)


/-! ## Bells -/

theorem State.bellFail_keeps {r0 : State} (s : State) (c : Nat) (i : Nat) (f : List Byte) (r : Nat × Nat) (hk : Keeps r0 s) : Keeps r0 (State.bellFail s c i f r) := by
  unfold State.bellFail
  repeat' (first | with_reducible assumption | (intro x; refine Keeps.cut (r := r0) (s := x) ?_ ?_; unfold x; rotate_left; clear_value x; intro _) | intro _ | lift_lets -underBinder | with_reducible apply State.ringBlocked_keeps | with_reducible apply State.issueFail_keeps | split)

theorem State.addWaiter_keeps {r0 : State} (s : State) (c : Nat) (z0 : BellRef) (hk : Keeps r0 s) : Keeps r0 (State.addWaiter s c z0) := by
  unfold State.addWaiter
  repeat' (first | with_reducible assumption | (simp only [keeps_mk, Cellar.allocBlock_mem, Cellar.freeBlock_mem, Cellar.freeBlocks_mem, Cellar.dropStaging_mem, Cellar.replaceStaging_mem, Hearth.runs]; with_reducible refine Keeps.parts ?_) | (intro x; refine Keeps.cut (r := r0) (s := x) ?_ ?_; unfold x; rotate_left; clear_value x; intro _) | intro _ | lift_lets -underBinder | with_reducible apply State.modBell_keeps | split)

theorem State.issueBell_keeps {r0 : State} (s : State) (c : Nat) (i : Nat) (f : List Byte) (wait : Bool) (kind : BellRef → FlightKind) (hk : Keeps r0 s) : Keeps r0 (State.issueBell s c i f wait kind) := by
  unfold State.issueBell
  repeat' (first | with_reducible assumption | (simp only [keeps_mk, Cellar.allocBlock_mem, Cellar.freeBlock_mem, Cellar.freeBlocks_mem, Cellar.dropStaging_mem, Cellar.replaceStaging_mem, Hearth.runs]; with_reducible refine Keeps.parts ?_) | (intro x; refine Keeps.cut (r := r0) (s := x) ?_ ?_; unfold x; rotate_left; clear_value x; intro _) | intro _ | lift_lets -underBinder | with_reducible apply State.wakeBell_keeps | with_reducible apply State.settle_keeps | with_reducible apply State.issue_keeps | with_reducible apply State.issueFail_keeps | with_reducible apply State.bellFail_keeps | with_reducible apply State.addWaiter_keeps | split)

theorem execBellWait_keeps {r0 : State} (ctx : Fin 256) (s : State) (hk : Keeps r0 s) : KeepsOut r0 (execBellWait ctx s) := by
  unfold execBellWait
  repeat' (first | with_reducible assumption | (simp only [keeps_mk, Cellar.allocBlock_mem, Cellar.freeBlock_mem, Cellar.freeBlocks_mem, Cellar.dropStaging_mem, Cellar.replaceStaging_mem, Hearth.runs]; with_reducible refine Keeps.parts ?_) | with_reducible apply KeepsOut.next | (intro x; refine Keeps.cut (r := r0) (s := x) ?_ ?_; unfold x; rotate_left; clear_value x; intro _) | intro _ | lift_lets -underBinder | with_reducible apply State.issueBell_keeps | split)

theorem execBellRingSet_keeps {r0 : State} (ctx : Fin 256) (s : State) (hk : Keeps r0 s) : KeepsOut r0 (execBellRingSet ctx s) := by
  unfold execBellRingSet
  repeat' (first | with_reducible assumption | (simp only [keeps_mk, Cellar.allocBlock_mem, Cellar.freeBlock_mem, Cellar.freeBlocks_mem, Cellar.dropStaging_mem, Cellar.replaceStaging_mem, Hearth.runs]; with_reducible refine Keeps.parts ?_) | with_reducible apply KeepsOut.next | (intro x; refine Keeps.cut (r := r0) (s := x) ?_ ?_; unfold x; rotate_left; clear_value x; intro _) | intro _ | lift_lets -underBinder | with_reducible apply State.issueBell_keeps | split)

theorem execBellRingAdd_keeps {r0 : State} (ctx : Fin 256) (s : State) (hk : Keeps r0 s) : KeepsOut r0 (execBellRingAdd ctx s) := by
  unfold execBellRingAdd
  repeat' (first | with_reducible assumption | (simp only [keeps_mk, Cellar.allocBlock_mem, Cellar.freeBlock_mem, Cellar.freeBlocks_mem, Cellar.dropStaging_mem, Cellar.replaceStaging_mem, Hearth.runs]; with_reducible refine Keeps.parts ?_) | with_reducible apply KeepsOut.next | (intro x; refine Keeps.cut (r := r0) (s := x) ?_ ?_; unfold x; rotate_left; clear_value x; intro _) | intro _ | lift_lets -underBinder | with_reducible apply State.issueBell_keeps | split)

theorem execBellRingTake_keeps {r0 : State} (ctx : Fin 256) (s : State) (hk : Keeps r0 s) : KeepsOut r0 (execBellRingTake ctx s) := by
  unfold execBellRingTake
  repeat' (first | with_reducible assumption | (simp only [keeps_mk, Cellar.allocBlock_mem, Cellar.freeBlock_mem, Cellar.freeBlocks_mem, Cellar.dropStaging_mem, Cellar.replaceStaging_mem, Hearth.runs]; with_reducible refine Keeps.parts ?_) | with_reducible apply KeepsOut.next | (intro x; refine Keeps.cut (r := r0) (s := x) ?_ ?_; unfold x; rotate_left; clear_value x; intro _) | intro _ | lift_lets -underBinder | with_reducible apply State.issueBell_keeps | split)

theorem execBellTimeout_keeps {r0 : State} (ctx : Fin 256) (s : State) (hk : Keeps r0 s) : KeepsOut r0 (execBellTimeout ctx s) := by
  unfold execBellTimeout
  repeat' (first | with_reducible assumption | (simp only [keeps_mk, Cellar.allocBlock_mem, Cellar.freeBlock_mem, Cellar.freeBlocks_mem, Cellar.dropStaging_mem, Cellar.replaceStaging_mem, Hearth.runs]; with_reducible refine Keeps.parts ?_) | with_reducible apply KeepsOut.next | (intro x; refine Keeps.cut (r := r0) (s := x) ?_ ?_; unfold x; rotate_left; clear_value x; intro _) | intro _ | lift_lets -underBinder | with_reducible apply State.wake_keeps | with_reducible apply State.endFlight_keeps | with_reducible apply State.settle_keeps | with_reducible apply State.reach_keeps | split)

theorem State.applyRemote_keeps {r0 : State} (s : State) (r : HeldRing) (hk : Keeps r0 s) : Keeps r0 (State.applyRemote s r) := by
  unfold State.applyRemote
  repeat' (first | with_reducible assumption | (simp only [keeps_mk, Cellar.allocBlock_mem, Cellar.freeBlock_mem, Cellar.freeBlocks_mem, Cellar.dropStaging_mem, Cellar.replaceStaging_mem, Hearth.runs]; with_reducible refine Keeps.parts ?_) | (intro x; refine Keeps.cut (r := r0) (s := x) ?_ ?_; unfold x; rotate_left; clear_value x; intro _) | intro _ | lift_lets -underBinder | with_reducible apply State.ringRecord_keeps | with_reducible apply State.wakeBell_keeps | with_reducible apply State.ringBlocked_keeps | with_reducible apply State.countService_keeps | split)

theorem State.ringArrived_keeps {r0 : State} (s : State) (r : HeldRing) (hk : Keeps r0 s) : Keeps r0 (State.ringArrived s r) := by
  unfold State.ringArrived
  repeat' (first | with_reducible assumption | (simp only [keeps_mk, Cellar.allocBlock_mem, Cellar.freeBlock_mem, Cellar.freeBlocks_mem, Cellar.dropStaging_mem, Cellar.replaceStaging_mem, Hearth.runs]; with_reducible refine Keeps.parts ?_) | (intro x; refine Keeps.cut (r := r0) (s := x) ?_ ?_; unfold x; rotate_left; clear_value x; intro _) | intro _ | lift_lets -underBinder | with_reducible apply State.applyRemote_keeps | split)

theorem State.relayRing_keeps {r0 : State} (s : State) (p : Nat) (f : List Byte) (hk : Keeps r0 s) : Keeps r0 (State.relayRing s p f) := by
  unfold State.relayRing
  repeat' (first | with_reducible assumption | (simp only [keeps_mk, Cellar.allocBlock_mem, Cellar.freeBlock_mem, Cellar.freeBlocks_mem, Cellar.dropStaging_mem, Cellar.replaceStaging_mem, Hearth.runs]; with_reducible refine Keeps.parts ?_) | (intro x; refine Keeps.cut (r := r0) (s := x) ?_ ?_; unfold x; rotate_left; clear_value x; intro _) | intro _ | lift_lets -underBinder | with_reducible apply State.countPort_keeps | with_reducible apply State.queueFlow_keeps | with_reducible apply State.queue_keeps | split)

theorem execRemoteBellRing_keeps {r0 : State} (port : Fin 36) (flit : List Byte) (s : State) (hk : Keeps r0 s) : KeepsOut r0 (execRemoteBellRing port flit s) := by
  unfold execRemoteBellRing
  repeat' (first | with_reducible assumption | (simp only [keeps_mk, Cellar.allocBlock_mem, Cellar.freeBlock_mem, Cellar.freeBlocks_mem, Cellar.dropStaging_mem, Cellar.replaceStaging_mem, Hearth.runs]; with_reducible refine Keeps.parts ?_) | with_reducible apply KeepsOut.next | (intro x; refine Keeps.cut (r := r0) (s := x) ?_ ?_; unfold x; rotate_left; clear_value x; intro _) | intro _ | lift_lets -underBinder | with_reducible apply State.countPort_keeps | with_reducible apply State.fabricIn_keeps | with_reducible apply State.returnCredits_keeps | with_reducible apply State.badControl_keeps | with_reducible apply State.ringArrived_keeps | with_reducible apply State.relayRing_keeps | split)

theorem execRemoteRingMarksMet_keeps {r0 : State} (n : Nat) (s : State) (hk : Keeps r0 s) : KeepsOut r0 (execRemoteRingMarksMet n s) := by
  unfold execRemoteRingMarksMet
  repeat' (first | with_reducible assumption | (simp only [keeps_mk, Cellar.allocBlock_mem, Cellar.freeBlock_mem, Cellar.freeBlocks_mem, Cellar.dropStaging_mem, Cellar.replaceStaging_mem, Hearth.runs]; with_reducible refine Keeps.parts ?_) | with_reducible apply KeepsOut.next | (intro x; refine Keeps.cut (r := r0) (s := x) ?_ ?_; unfold x; rotate_left; clear_value x; intro _) | intro _ | lift_lets -underBinder | with_reducible apply State.ringArrived_keeps | split)


/-! ## Barriers -/

theorem State.takeKept_keeps {r0 : State} (s : State) (g : Nat) (k : KeptAbort) (hk : Keeps r0 s) : Keeps r0 (State.takeKept s g k) := by
  unfold State.takeKept
  repeat' (first | with_reducible assumption | (simp only [keeps_mk, Cellar.allocBlock_mem, Cellar.freeBlock_mem, Cellar.freeBlocks_mem, Cellar.dropStaging_mem, Cellar.replaceStaging_mem, Hearth.runs]; with_reducible refine Keeps.parts ?_) | (intro x; refine Keeps.cut (r := r0) (s := x) ?_ ?_; unfold x; rotate_left; clear_value x; intro _) | intro _ | lift_lets -underBinder | with_reducible apply State.modGrp_keeps | split)

theorem State.forgetSeen_keeps {r0 : State} (s : State) (g : Nat) (key : Nat) (barrier : Bool) (hk : Keeps r0 s) : Keeps r0 (State.forgetSeen s g key barrier) := by
  unfold State.forgetSeen
  repeat' (first | with_reducible assumption | (simp only [keeps_mk, Cellar.allocBlock_mem, Cellar.freeBlock_mem, Cellar.freeBlocks_mem, Cellar.dropStaging_mem, Cellar.replaceStaging_mem, Hearth.runs]; with_reducible refine Keeps.parts ?_) | (intro x; refine Keeps.cut (r := r0) (s := x) ?_ ?_; unfold x; rotate_left; clear_value x; intro _) | intro _ | lift_lets -underBinder | with_reducible apply State.modGrp_keeps | split)

theorem State.useGroup_keeps {r0 : State} (s : State) (c : Nat) (g : Nat) (hk : Keeps r0 s) : Keeps r0 (State.useGroup s c g) := by
  unfold State.useGroup
  repeat' (first | with_reducible assumption | (simp only [keeps_mk, Cellar.allocBlock_mem, Cellar.freeBlock_mem, Cellar.freeBlocks_mem, Cellar.dropStaging_mem, Cellar.replaceStaging_mem, Hearth.runs]; with_reducible refine Keeps.parts ?_) | (intro x; refine Keeps.cut (r := r0) (s := x) ?_ ?_; unfold x; rotate_left; clear_value x; intro _) | intro _ | lift_lets -underBinder | with_reducible apply State.modCtx_keeps | split)

theorem State.takeRelease_keeps {r0 : State} (s : State) (g : Nat) (gen : Nat) (seq : Nat) (t : Word64) (hk : Keeps r0 s) : Keeps r0 (State.takeRelease s g gen seq t) := by
  unfold State.takeRelease
  repeat' (first | with_reducible assumption | (simp only [keeps_mk, Cellar.allocBlock_mem, Cellar.freeBlock_mem, Cellar.freeBlocks_mem, Cellar.dropStaging_mem, Cellar.replaceStaging_mem, Hearth.runs]; with_reducible refine Keeps.parts ?_) | (intro x; refine Keeps.cut (r := r0) (s := x) ?_ ?_; unfold x; rotate_left; clear_value x; intro _) | intro _ | lift_lets -underBinder | with_reducible apply State.endFlight_keeps | with_reducible apply State.settle_keeps | with_reducible apply State.modFlight_keeps | split | (simp only [keeps_mk, Cellar.allocBlock_mem, Cellar.freeBlock_mem, Cellar.freeBlocks_mem, Cellar.dropStaging_mem, Cellar.replaceStaging_mem, Hearth.runs]; with_reducible refine Keeps.partsMem ?_ (fun w => by first | exact w | exact Cellar.scrub_wf w | exact Cellar.putUnits_wf w | exact Cellar.maskUnit_wf ‹_› w | (exact Cellar.scrub_wf (by simpa using w)) | simp [Memory.wf])) | (simp only [keeps_mk, Cellar.allocBlock_mem, Cellar.freeBlock_mem, Cellar.freeBlocks_mem, Cellar.dropStaging_mem, Cellar.replaceStaging_mem, Hearth.runs]; with_reducible refine Keeps.partsTo ?_ (by simp) (fun w => by first | exact w | exact Cellar.scrub_wf w | exact Cellar.putUnits_wf w | exact Cellar.maskUnit_wf ‹_› w | (exact Cellar.scrub_wf (by simpa using w)) | simp [Memory.wf])))

theorem State.toParent_keeps {r0 : State} (s : State) (e : List Byte) (type : Nat) (l : List (Nat × Nat × Nat)) (hk : Keeps r0 s) : Keeps r0 (State.toParent s e type l) := by
  unfold State.toParent
  repeat' (first | with_reducible assumption | (intro x; refine Keeps.cut (r := r0) (s := x) ?_ ?_; unfold x; rotate_left; clear_value x; intro _) | intro _ | lift_lets -underBinder | with_reducible apply State.sendEdge_keeps | split)

theorem State.toChildren_keeps {r0 : State} (s : State) (e : List Byte) (type : Nat) (l : List (Nat × Nat × Nat)) (hk : Keeps r0 s) : Keeps r0 (State.toChildren s e type l) := by
  unfold State.toChildren
  repeat' (first | with_reducible assumption | (intro x; refine Keeps.cut (r := r0) (s := x) ?_ ?_; unfold x; rotate_left; clear_value x; intro _) | intro _ | lift_lets -underBinder | with_reducible apply overList_keeps | with_reducible apply State.sendEdge_keeps | with_reducible apply Keeps.overList | split)

theorem State.release_keeps {r0 : State} (s : State) (g : Nat) (seq : Nat) (root : Nat) (e : List Byte) (t : Word64) (hk : Keeps r0 s) : Keeps r0 (State.release s g seq root e t) := by
  unfold State.release
  repeat' (first | with_reducible assumption | (intro x; refine Keeps.cut (r := r0) (s := x) ?_ ?_; unfold x; rotate_left; clear_value x; intro _) | intro _ | lift_lets -underBinder | with_reducible apply State.takeRelease_keeps | with_reducible apply State.toChildren_keeps | split)

theorem State.failBarrier_keeps {r0 : State} (s : State) (g : Nat) (seq : Nat) (eng : Nat) (e : List Byte) (hk : Keeps r0 s) : Keeps r0 (State.failBarrier s g seq eng e) := by
  unfold State.failBarrier
  repeat' (first | with_reducible assumption | (simp only [keeps_mk, Cellar.allocBlock_mem, Cellar.freeBlock_mem, Cellar.freeBlocks_mem, Cellar.dropStaging_mem, Cellar.replaceStaging_mem, Hearth.runs]; with_reducible refine Keeps.parts ?_) | (intro x; refine Keeps.cut (r := r0) (s := x) ?_ ?_; unfold x; rotate_left; clear_value x; intro _) | intro _ | lift_lets -underBinder | with_reducible apply State.modGrp_keeps | with_reducible apply State.record_keeps | with_reducible apply State.floodAbort_keeps | with_reducible apply State.endFlight_keeps | with_reducible apply State.settle_keeps | split)

theorem State.countArrival_keeps {r0 : State} (s : State) (g : Nat) (seq : Nat) (eng : Nat) (e : List Byte) (hk : Keeps r0 s) : Keeps r0 (State.countArrival s g seq eng e) := by
  unfold State.countArrival
  repeat' (first | with_reducible assumption | (simp only [keeps_mk, Cellar.allocBlock_mem, Cellar.freeBlock_mem, Cellar.freeBlocks_mem, Cellar.dropStaging_mem, Cellar.replaceStaging_mem, Hearth.runs]; with_reducible refine Keeps.parts ?_) | (intro x; refine Keeps.cut (r := r0) (s := x) ?_ ?_; unfold x; rotate_left; clear_value x; intro _) | intro _ | lift_lets -underBinder | with_reducible apply State.modGrp_keeps | with_reducible apply State.release_keeps | with_reducible apply State.failBarrier_keeps | split)

theorem execBarrier_keeps {r0 : State} (ctx : Fin 256) (s : State) (hk : Keeps r0 s) : KeepsOut r0 (execBarrier ctx s) := by
  unfold execBarrier
  repeat' (first | with_reducible assumption | (simp only [keeps_mk, Cellar.allocBlock_mem, Cellar.freeBlock_mem, Cellar.freeBlocks_mem, Cellar.dropStaging_mem, Cellar.replaceStaging_mem, Hearth.runs]; with_reducible refine Keeps.parts ?_) | with_reducible apply KeepsOut.next | (intro x; refine Keeps.cut (r := r0) (s := x) ?_ ?_; unfold x; rotate_left; clear_value x; intro _) | intro _ | lift_lets -underBinder | with_reducible apply State.modGrp_keeps | with_reducible apply State.settle_keeps | with_reducible apply State.issue_keeps | with_reducible apply State.issueFail_keeps | with_reducible apply State.takeKept_keeps | with_reducible apply State.forgetSeen_keeps | with_reducible apply State.useGroup_keeps | with_reducible apply State.toParent_keeps | with_reducible apply State.countArrival_keeps | split | (simp only [keeps_mk, Cellar.allocBlock_mem, Cellar.freeBlock_mem, Cellar.freeBlocks_mem, Cellar.dropStaging_mem, Cellar.replaceStaging_mem, Hearth.runs]; with_reducible refine Keeps.partsMem ?_ (fun w => by first | exact w | exact Cellar.scrub_wf w | exact Cellar.putUnits_wf w | exact Cellar.maskUnit_wf ‹_› w | (exact Cellar.scrub_wf (by simpa using w)) | simp [Memory.wf])) | (simp only [keeps_mk, Cellar.allocBlock_mem, Cellar.freeBlock_mem, Cellar.freeBlocks_mem, Cellar.dropStaging_mem, Cellar.replaceStaging_mem, Hearth.runs]; with_reducible refine Keeps.partsTo ?_ (by simp) (fun w => by first | exact w | exact Cellar.scrub_wf w | exact Cellar.putUnits_wf w | exact Cellar.maskUnit_wf ‹_› w | (exact Cellar.scrub_wf (by simpa using w)) | simp [Memory.wf])))

theorem execBarrierTargetReached_keeps {r0 : State} (ctx : Fin 256) (s : State) (hk : Keeps r0 s) : KeepsOut r0 (execBarrierTargetReached ctx s) := by
  unfold execBarrierTargetReached
  repeat' (first | with_reducible assumption | (simp only [keeps_mk, Cellar.allocBlock_mem, Cellar.freeBlock_mem, Cellar.freeBlocks_mem, Cellar.dropStaging_mem, Cellar.replaceStaging_mem, Hearth.runs]; with_reducible refine Keeps.parts ?_) | with_reducible apply KeepsOut.next | (intro x; refine Keeps.cut (r := r0) (s := x) ?_ ?_; unfold x; rotate_left; clear_value x; intro _) | intro _ | lift_lets -underBinder | with_reducible apply State.endFlight_keeps | with_reducible apply State.settle_keeps | with_reducible apply State.reach_keeps | split)

theorem execBarrierTimeout_keeps {r0 : State} (ctx : Fin 256) (s : State) (hk : Keeps r0 s) : KeepsOut r0 (execBarrierTimeout ctx s) := by
  unfold execBarrierTimeout
  repeat' (first | with_reducible assumption | (simp only [keeps_mk, Cellar.allocBlock_mem, Cellar.freeBlock_mem, Cellar.freeBlocks_mem, Cellar.dropStaging_mem, Cellar.replaceStaging_mem, Hearth.runs]; with_reducible refine Keeps.parts ?_) | with_reducible apply KeepsOut.next | (intro x; refine Keeps.cut (r := r0) (s := x) ?_ ?_; unfold x; rotate_left; clear_value x; intro _) | intro _ | lift_lets -underBinder | with_reducible apply State.failFlight_keeps | with_reducible apply State.settle_keeps | with_reducible apply State.reach_keeps | split)

theorem State.ctlIn_keeps {r0 : State} (s : State) (p : Nat) (vc : Nat) (type : Nat) (f : List Byte) (hk : Keeps r0 s) : Keeps r0 (State.ctlIn s p vc type f).1 := by
  unfold State.ctlIn
  repeat' (first | with_reducible assumption | (intro x; refine Keeps.cut (r := r0) (s := x) ?_ ?_; unfold x; rotate_left; clear_value x; intro _) | intro _ | lift_lets -underBinder | with_reducible apply State.returnCredits_keeps | with_reducible apply State.badControl_keeps | split)

theorem State.relayUp_keeps {r0 : State} (s : State) (p : Nat) (e : List Byte) (type : Nat) (f : List Byte) (hk : Keeps r0 s) : Keeps r0 (State.relayUp s p e type f) := by
  unfold State.relayUp
  repeat' (first | with_reducible assumption | (intro x; refine Keeps.cut (r := r0) (s := x) ?_ ?_; unfold x; rotate_left; clear_value x; intro _) | intro _ | lift_lets -underBinder | with_reducible apply State.sendEdge_keeps | split)

theorem execBarrierArrival_keeps {r0 : State} (port : Fin 36) (flit : List Byte) (s : State) (hk : Keeps r0 s) : KeepsOut r0 (execBarrierArrival port flit s) := by
  unfold execBarrierArrival
  repeat' (first | with_reducible assumption | (simp only [keeps_mk, Cellar.allocBlock_mem, Cellar.freeBlock_mem, Cellar.freeBlocks_mem, Cellar.dropStaging_mem, Cellar.replaceStaging_mem, Hearth.runs]; with_reducible refine Keeps.parts ?_) | with_reducible apply KeepsOut.next | (intro x; refine Keeps.cut (r := r0) (s := x) ?_ ?_; unfold x; rotate_left; clear_value x; intro _) | intro _ | lift_lets -underBinder | with_reducible apply State.fabricIn_keeps | with_reducible apply State.wrongGen_keeps | with_reducible apply State.toParent_keeps | with_reducible apply State.countArrival_keeps | with_reducible apply State.ctlIn_keeps | with_reducible apply State.relayUp_keeps | split)

theorem execBarrierRelease_keeps {r0 : State} (port : Fin 36) (flit : List Byte) (s : State) (hk : Keeps r0 s) : KeepsOut r0 (execBarrierRelease port flit s) := by
  unfold execBarrierRelease
  repeat' (first | with_reducible assumption | (simp only [keeps_mk, Cellar.allocBlock_mem, Cellar.freeBlock_mem, Cellar.freeBlocks_mem, Cellar.dropStaging_mem, Cellar.replaceStaging_mem, Hearth.runs]; with_reducible refine Keeps.parts ?_) | with_reducible apply KeepsOut.next | (intro x; refine Keeps.cut (r := r0) (s := x) ?_ ?_; unfold x; rotate_left; clear_value x; intro _) | intro _ | lift_lets -underBinder | with_reducible apply State.fabricIn_keeps | with_reducible apply State.release_keeps | with_reducible apply State.ctlIn_keeps | with_reducible apply State.relayUp_keeps | split)

theorem execPeerAbort_keeps {r0 : State} (port : Fin 36) (flit : List Byte) (s : State) (hk : Keeps r0 s) : KeepsOut r0 (execPeerAbort port flit s) := by
  unfold execPeerAbort
  repeat' (first | with_reducible assumption | (simp only [keeps_mk, Cellar.allocBlock_mem, Cellar.freeBlock_mem, Cellar.freeBlocks_mem, Cellar.dropStaging_mem, Cellar.replaceStaging_mem, Hearth.runs]; with_reducible refine Keeps.parts ?_) | with_reducible apply KeepsOut.next | (intro x; refine Keeps.cut (r := r0) (s := x) ?_ ?_; unfold x; rotate_left; clear_value x; intro _) | intro _ | lift_lets -underBinder | with_reducible apply State.modGrp_keeps | with_reducible apply State.floodAbort_keeps | with_reducible apply State.peerAbort_keeps | with_reducible apply State.fabricIn_keeps | with_reducible apply State.endFlight_keeps | with_reducible apply State.settle_keeps | with_reducible apply State.ctlIn_keeps | with_reducible apply State.relayUp_keeps | split)

theorem State.countStart_keeps {r0 : State} (s : State) (c : Nat) (hk : Keeps r0 s) : Keeps r0 (State.countStart s c) := by
  unfold State.countStart
  repeat' (first | with_reducible assumption | (simp only [keeps_mk, Cellar.allocBlock_mem, Cellar.freeBlock_mem, Cellar.freeBlocks_mem, Cellar.dropStaging_mem, Cellar.replaceStaging_mem, Hearth.runs]; with_reducible refine Keeps.parts ?_) | (intro x; refine Keeps.cut (r := r0) (s := x) ?_ ?_; unfold x; rotate_left; clear_value x; intro _) | intro _ | lift_lets -underBinder | with_reducible apply State.modCtx_keeps | split)

theorem execWaitCount_keeps {r0 : State} (ctx : Fin 256) (s : State) (hk : Keeps r0 s) : KeepsOut r0 (execWaitCount ctx s) := by
  unfold execWaitCount
  repeat' (first | with_reducible assumption | (simp only [keeps_mk, Cellar.allocBlock_mem, Cellar.freeBlock_mem, Cellar.freeBlocks_mem, Cellar.dropStaging_mem, Cellar.replaceStaging_mem, Hearth.runs]; with_reducible refine Keeps.parts ?_) | with_reducible apply KeepsOut.next | (intro x; refine Keeps.cut (r := r0) (s := x) ?_ ?_; unfold x; rotate_left; clear_value x; intro _) | intro _ | lift_lets -underBinder | with_reducible apply State.settle_keeps | with_reducible apply State.issue_keeps | with_reducible apply State.issueFail_keeps | with_reducible apply State.countStart_keeps | split)

theorem execWaitCountTarget_keeps {r0 : State} (ctx : Fin 256) (s : State) (hk : Keeps r0 s) : KeepsOut r0 (execWaitCountTarget ctx s) := by
  unfold execWaitCountTarget
  repeat' (first | with_reducible assumption | (simp only [keeps_mk, Cellar.allocBlock_mem, Cellar.freeBlock_mem, Cellar.freeBlocks_mem, Cellar.dropStaging_mem, Cellar.replaceStaging_mem, Hearth.runs]; with_reducible refine Keeps.parts ?_) | with_reducible apply KeepsOut.next | (intro x; refine Keeps.cut (r := r0) (s := x) ?_ ?_; unfold x; rotate_left; clear_value x; intro _) | intro _ | lift_lets -underBinder | with_reducible apply State.wake_keeps | with_reducible apply State.endFlight_keeps | with_reducible apply State.settle_keeps | with_reducible apply State.reach_keeps | with_reducible apply State.countStart_keeps | split)


/-! ## Moves -/

theorem State.takeStaging_keeps {r0 : State} (s : State) (n : Nat) (hk : Keeps r0 s) : Keeps r0 (State.takeStaging s n) := by
  unfold State.takeStaging
  repeat' (first | with_reducible assumption | (simp only [keeps_mk, Cellar.allocBlock_mem, Cellar.freeBlock_mem, Cellar.freeBlocks_mem, Cellar.dropStaging_mem, Cellar.replaceStaging_mem, Hearth.runs]; with_reducible refine Keeps.parts ?_) | (intro x; refine Keeps.cut (r := r0) (s := x) ?_ ?_; unfold x; rotate_left; clear_value x; intro _) | intro _ | lift_lets -underBinder | with_reducible apply overList_keeps | with_reducible apply State.touch_keeps | with_reducible apply Keeps.overList | split | (simp only [keeps_mk, Cellar.allocBlock_mem, Cellar.freeBlock_mem, Cellar.freeBlocks_mem, Cellar.dropStaging_mem, Cellar.replaceStaging_mem, Hearth.runs]; with_reducible refine Keeps.partsMem ?_ (fun w => by first | exact w | exact Cellar.scrub_wf w | exact Cellar.putUnits_wf w | exact Cellar.maskUnit_wf ‹_› w | (exact Cellar.scrub_wf (by simpa using w)) | simp [Memory.wf])) | (simp only [keeps_mk, Cellar.allocBlock_mem, Cellar.freeBlock_mem, Cellar.freeBlocks_mem, Cellar.dropStaging_mem, Cellar.replaceStaging_mem, Hearth.runs]; with_reducible refine Keeps.partsTo ?_ (by simp) (fun w => by first | exact w | exact Cellar.scrub_wf w | exact Cellar.putUnits_wf w | exact Cellar.maskUnit_wf ‹_› w | (exact Cellar.scrub_wf (by simpa using w)) | simp [Memory.wf])))

theorem State.waitStaging_keeps {r0 : State} (s : State) (c : Nat) (fid : Nat) (hk : Keeps r0 s) : Keeps r0 (State.waitStaging s c fid) := by
  unfold State.waitStaging
  repeat' (first | with_reducible assumption | (simp only [keeps_mk, Cellar.allocBlock_mem, Cellar.freeBlock_mem, Cellar.freeBlocks_mem, Cellar.dropStaging_mem, Cellar.replaceStaging_mem, Hearth.runs]; with_reducible refine Keeps.parts ?_) | (intro x; refine Keeps.cut (r := r0) (s := x) ?_ ?_; unfold x; rotate_left; clear_value x; intro _) | intro _ | lift_lets -underBinder | with_reducible apply State.modCtx_keeps | split | (simp only [keeps_mk, Cellar.allocBlock_mem, Cellar.freeBlock_mem, Cellar.freeBlocks_mem, Cellar.dropStaging_mem, Cellar.replaceStaging_mem, Hearth.runs]; with_reducible refine Keeps.partsMem ?_ (fun w => by first | exact w | exact Cellar.scrub_wf w | exact Cellar.putUnits_wf w | exact Cellar.maskUnit_wf ‹_› w | (exact Cellar.scrub_wf (by simpa using w)) | simp [Memory.wf])) | (simp only [keeps_mk, Cellar.allocBlock_mem, Cellar.freeBlock_mem, Cellar.freeBlocks_mem, Cellar.dropStaging_mem, Cellar.replaceStaging_mem, Hearth.runs]; with_reducible refine Keeps.partsTo ?_ (by simp) (fun w => by first | exact w | exact Cellar.scrub_wf w | exact Cellar.putUnits_wf w | exact Cellar.maskUnit_wf ‹_› w | (exact Cellar.scrub_wf (by simpa using w)) | simp [Memory.wf])))

theorem State.modMove_keeps {r0 : State} (s : State) (c : Nat) (fid : Nat) (g : MoveFlight → MoveFlight) (hk : Keeps r0 s) : Keeps r0 (State.modMove s c fid g) := by
  unfold State.modMove
  repeat' (first | with_reducible assumption | (simp only [keeps_mk, Cellar.allocBlock_mem, Cellar.freeBlock_mem, Cellar.freeBlocks_mem, Cellar.dropStaging_mem, Cellar.replaceStaging_mem, Hearth.runs]; with_reducible refine Keeps.parts ?_) | (intro x; refine Keeps.cut (r := r0) (s := x) ?_ ?_; unfold x; rotate_left; clear_value x; intro _) | intro _ | lift_lets -underBinder | with_reducible apply State.modFlight_keeps | split)

theorem State.moveChunk_keeps {r0 : State} (s : State) (c : Nat) (fid : Nat) (n : Nat) (hk : Keeps r0 s) : Keeps r0 (State.moveChunk s c fid n) := by
  unfold State.moveChunk
  repeat' (first | with_reducible assumption | (simp only [keeps_mk, Cellar.allocBlock_mem, Cellar.freeBlock_mem, Cellar.freeBlocks_mem, Cellar.dropStaging_mem, Cellar.replaceStaging_mem, Hearth.runs]; with_reducible refine Keeps.parts ?_) | (intro x; refine Keeps.cut (r := r0) (s := x) ?_ ?_; unfold x; rotate_left; clear_value x; intro _) | intro _ | lift_lets -underBinder | with_reducible apply State.takeSeq_keeps | with_reducible apply State.modMove_keeps | split)

theorem State.movePiece_keeps {r0 : State} (s : State) (c : Nat) (fid : Nat) (off : Nat) (b : List Byte) (hk : Keeps r0 s) : Keeps r0 (State.movePiece s c fid off b) := by
  unfold State.movePiece
  repeat' (first | with_reducible assumption | (simp only [keeps_mk, Cellar.allocBlock_mem, Cellar.freeBlock_mem, Cellar.freeBlocks_mem, Cellar.dropStaging_mem, Cellar.replaceStaging_mem, Hearth.runs]; with_reducible refine Keeps.parts ?_) | (intro x; refine Keeps.cut (r := r0) (s := x) ?_ ?_; unfold x; rotate_left; clear_value x; intro _) | intro _ | lift_lets -underBinder | with_reducible apply overList_keeps | with_reducible apply State.placeMove_keeps | with_reducible apply State.modMove_keeps | with_reducible apply State.moveChunk_keeps | with_reducible apply Keeps.overList | split)

theorem State.moveStart_keeps {r0 : State} (s : State) (c : Nat) (fid : Nat) (hk : Keeps r0 s) : Keeps r0 (State.moveStart s c fid) := by
  unfold State.moveStart
  repeat' (first | with_reducible assumption | (simp only [keeps_mk, Cellar.allocBlock_mem, Cellar.freeBlock_mem, Cellar.freeBlocks_mem, Cellar.dropStaging_mem, Cellar.replaceStaging_mem, Hearth.runs]; with_reducible refine Keeps.parts ?_) | (intro x; refine Keeps.cut (r := r0) (s := x) ?_ ?_; unfold x; rotate_left; clear_value x; intro _) | intro _ | lift_lets -underBinder | with_reducible apply State.readHost_keeps | with_reducible apply State.failFlight_keeps | with_reducible apply State.touch_keeps | with_reducible apply State.figureRead_keeps | with_reducible apply State.waitCells_keeps | with_reducible apply State.movePiece_keeps | split | (simp only [keeps_mk, Cellar.allocBlock_mem, Cellar.freeBlock_mem, Cellar.freeBlocks_mem, Cellar.dropStaging_mem, Cellar.replaceStaging_mem, Hearth.runs]; with_reducible refine Keeps.partsMem ?_ (fun w => by first | exact w | exact Cellar.scrub_wf w | exact Cellar.putUnits_wf w | exact Cellar.maskUnit_wf ‹_› w | (exact Cellar.scrub_wf (by simpa using w)) | simp [Memory.wf])) | (simp only [keeps_mk, Cellar.allocBlock_mem, Cellar.freeBlock_mem, Cellar.freeBlocks_mem, Cellar.dropStaging_mem, Cellar.replaceStaging_mem, Hearth.runs]; with_reducible refine Keeps.partsTo ?_ (by simp) (fun w => by first | exact w | exact Cellar.scrub_wf w | exact Cellar.putUnits_wf w | exact Cellar.maskUnit_wf ‹_› w | (exact Cellar.scrub_wf (by simpa using w)) | simp [Memory.wf])))

theorem execMove_keeps {r0 : State} (ctx : Fin 256) (s : State) (hk : Keeps r0 s) : KeepsOut r0 (execMove ctx s) := by
  unfold execMove
  repeat' (first | with_reducible assumption | (simp only [keeps_mk, Cellar.allocBlock_mem, Cellar.freeBlock_mem, Cellar.freeBlocks_mem, Cellar.dropStaging_mem, Cellar.replaceStaging_mem, Hearth.runs]; with_reducible refine Keeps.parts ?_) | with_reducible apply KeepsOut.next | (intro x; refine Keeps.cut (r := r0) (s := x) ?_ ?_; unfold x; rotate_left; clear_value x; intro _) | intro _ | lift_lets -underBinder | with_reducible apply State.settle_keeps | with_reducible apply State.issue_keeps | with_reducible apply State.issueFail_keeps | with_reducible apply State.takeStaging_keeps | with_reducible apply State.waitStaging_keeps | with_reducible apply State.moveStart_keeps | split)

theorem execMoveComplete_keeps {r0 : State} (ctx : Fin 256) (idx : Nat) (s : State) (hk : Keeps r0 s) : KeepsOut r0 (execMoveComplete ctx idx s) := by
  unfold execMoveComplete
  repeat' (first | with_reducible assumption | (simp only [keeps_mk, Cellar.allocBlock_mem, Cellar.freeBlock_mem, Cellar.freeBlocks_mem, Cellar.dropStaging_mem, Cellar.replaceStaging_mem, Hearth.runs]; with_reducible refine Keeps.parts ?_) | with_reducible apply KeepsOut.next | (intro x; refine Keeps.cut (r := r0) (s := x) ?_ ?_; unfold x; rotate_left; clear_value x; intro _) | intro _ | lift_lets -underBinder | with_reducible apply State.draw_keeps | with_reducible apply State.endFlight_keeps | with_reducible apply State.settle_keeps | split)


/-! ## Collectives -/

theorem State.collPiece_keeps {r0 : State} (s : State) (c : Nat) (fid : Nat) (mi : Nat) (off : Nat) (b : List Byte) (hk : Keeps r0 s) : Keeps r0 (State.collPiece s c fid mi off b) := by
  unfold State.collPiece
  repeat' (first | with_reducible assumption | (simp only [keeps_mk, Cellar.allocBlock_mem, Cellar.freeBlock_mem, Cellar.freeBlocks_mem, Cellar.dropStaging_mem, Cellar.replaceStaging_mem, Hearth.runs]; with_reducible refine Keeps.parts ?_) | (intro x; refine Keeps.cut (r := r0) (s := x) ?_ ?_; unfold x; rotate_left; clear_value x; intro _) | intro _ | lift_lets -underBinder | with_reducible apply State.modColl_keeps | with_reducible apply State.progress_keeps | split | (simp only [keeps_mk, Cellar.allocBlock_mem, Cellar.freeBlock_mem, Cellar.freeBlocks_mem, Cellar.dropStaging_mem, Cellar.replaceStaging_mem, Hearth.runs]; with_reducible refine Keeps.partsMem ?_ (fun w => by first | exact w | exact Cellar.scrub_wf w | exact Cellar.putUnits_wf w | exact Cellar.maskUnit_wf ‹_› w | (exact Cellar.scrub_wf (by simpa using w)) | simp [Memory.wf])) | (simp only [keeps_mk, Cellar.allocBlock_mem, Cellar.freeBlock_mem, Cellar.freeBlocks_mem, Cellar.dropStaging_mem, Cellar.replaceStaging_mem, Hearth.runs]; with_reducible refine Keeps.partsTo ?_ (by simp) (fun w => by first | exact w | exact Cellar.scrub_wf w | exact Cellar.putUnits_wf w | exact Cellar.maskUnit_wf ‹_› w | (exact Cellar.scrub_wf (by simpa using w)) | simp [Memory.wf])))

theorem State.readMember_keeps {r0 : State} (s : State) (c : Nat) (fid : Nat) (mi : Nat) (m : LMember) (hk : Keeps r0 s) : Keeps r0 (State.readMember s c fid mi m) := by
  unfold State.readMember
  repeat' (first | with_reducible assumption | (simp only [keeps_mk, Cellar.allocBlock_mem, Cellar.freeBlock_mem, Cellar.freeBlocks_mem, Cellar.dropStaging_mem, Cellar.replaceStaging_mem, Hearth.runs]; with_reducible refine Keeps.parts ?_) | (intro x; refine Keeps.cut (r := r0) (s := x) ?_ ?_; unfold x; rotate_left; clear_value x; intro _) | intro _ | lift_lets -underBinder | with_reducible apply State.readHost_keeps | with_reducible apply State.failFlight_keeps | with_reducible apply State.touch_keeps | with_reducible apply State.figureRead_keeps | with_reducible apply State.waitCells_keeps | with_reducible apply State.collPiece_keeps | split | (simp only [keeps_mk, Cellar.allocBlock_mem, Cellar.freeBlock_mem, Cellar.freeBlocks_mem, Cellar.dropStaging_mem, Cellar.replaceStaging_mem, Hearth.runs]; with_reducible refine Keeps.partsMem ?_ (fun w => by first | exact w | exact Cellar.scrub_wf w | exact Cellar.putUnits_wf w | exact Cellar.maskUnit_wf ‹_› w | (exact Cellar.scrub_wf (by simpa using w)) | simp [Memory.wf])) | (simp only [keeps_mk, Cellar.allocBlock_mem, Cellar.freeBlock_mem, Cellar.freeBlocks_mem, Cellar.dropStaging_mem, Cellar.replaceStaging_mem, Hearth.runs]; with_reducible refine Keeps.partsTo ?_ (by simp) (fun w => by first | exact w | exact Cellar.scrub_wf w | exact Cellar.putUnits_wf w | exact Cellar.maskUnit_wf ‹_› w | (exact Cellar.scrub_wf (by simpa using w)) | simp [Memory.wf])))

theorem State.adopt_keeps {r0 : State} (s : State) (c : Nat) (fid : Nat) (l : Lane) (hk : Keeps r0 s) : Keeps r0 (State.adopt s c fid l) := by
  unfold State.adopt
  repeat' (first | with_reducible assumption | (simp only [keeps_mk, Cellar.allocBlock_mem, Cellar.freeBlock_mem, Cellar.freeBlocks_mem, Cellar.dropStaging_mem, Cellar.replaceStaging_mem, Hearth.runs]; with_reducible refine Keeps.parts ?_) | (intro x; refine Keeps.cut (r := r0) (s := x) ?_ ?_; unfold x; rotate_left; clear_value x; intro _) | intro _ | lift_lets -underBinder | with_reducible apply State.judgeLane_keeps | with_reducible apply State.takeLane_keeps | with_reducible apply State.keepSealed_keeps | split)

theorem State.adoptLanes_keeps {r0 : State} (s : State) (c : Nat) (fid : Nat) (hk : Keeps r0 s) : Keeps r0 (State.adoptLanes s c fid) := by
  unfold State.adoptLanes
  repeat' (first | with_reducible assumption | (simp only [keeps_mk, Cellar.allocBlock_mem, Cellar.freeBlock_mem, Cellar.freeBlocks_mem, Cellar.dropStaging_mem, Cellar.replaceStaging_mem, Hearth.runs]; with_reducible refine Keeps.parts ?_) | (intro x; refine Keeps.cut (r := r0) (s := x) ?_ ?_; unfold x; rotate_left; clear_value x; intro _) | intro _ | lift_lets -underBinder | with_reducible apply overList_keeps | with_reducible apply State.adopt_keeps | with_reducible apply Keeps.overList | split)

theorem State.collStart_keeps {r0 : State} (s : State) (c : Nat) (fid : Nat) (hk : Keeps r0 s) : Keeps r0 (State.collStart s c fid) := by
  unfold State.collStart
  repeat' (first | with_reducible assumption | (simp only [keeps_mk, Cellar.allocBlock_mem, Cellar.freeBlock_mem, Cellar.freeBlocks_mem, Cellar.dropStaging_mem, Cellar.replaceStaging_mem, Hearth.runs]; with_reducible refine Keeps.parts ?_) | (intro x; refine Keeps.cut (r := r0) (s := x) ?_ ?_; unfold x; rotate_left; clear_value x; intro _) | intro _ | lift_lets -underBinder | with_reducible apply overList_keeps | with_reducible apply State.modColl_keeps | with_reducible apply State.takeStaging_keeps | with_reducible apply State.readMember_keeps | with_reducible apply State.adoptLanes_keeps | with_reducible apply Keeps.overList | split | (simp only [keeps_mk, Cellar.allocBlock_mem, Cellar.freeBlock_mem, Cellar.freeBlocks_mem, Cellar.dropStaging_mem, Cellar.replaceStaging_mem, Hearth.runs]; with_reducible refine Keeps.partsMem ?_ (fun w => by first | exact w | exact Cellar.scrub_wf w | exact Cellar.putUnits_wf w | exact Cellar.maskUnit_wf ‹_› w | (exact Cellar.scrub_wf (by simpa using w)) | simp [Memory.wf])) | (simp only [keeps_mk, Cellar.allocBlock_mem, Cellar.freeBlock_mem, Cellar.freeBlocks_mem, Cellar.dropStaging_mem, Cellar.replaceStaging_mem, Hearth.runs]; with_reducible refine Keeps.partsTo ?_ (by simp) (fun w => by first | exact w | exact Cellar.scrub_wf w | exact Cellar.putUnits_wf w | exact Cellar.maskUnit_wf ‹_› w | (exact Cellar.scrub_wf (by simpa using w)) | simp [Memory.wf])))

theorem State.blockTimes_keeps {r0 : State} (s : State) (c : Nat) (op : Nat) (ms : List LMember) (block : ReadResult) (counts : List ReadResult) (hk : Keeps r0 s) : Keeps r0 (State.blockTimes s c op ms block counts) := by
  unfold State.blockTimes
  repeat' (first | with_reducible assumption | (intro x; refine Keeps.cut (r := r0) (s := x) ?_ ?_; unfold x; rotate_left; clear_value x; intro _) | intro _ | lift_lets -underBinder | with_reducible apply overList_keeps | with_reducible apply State.directRead_keeps | with_reducible apply Keeps.overList | split)

theorem State.collIssue_keeps {r0 : State} (s : State) (c : Nat) (op : Nat) (block : ReadResult) (counts : List ReadResult) (hk : Keeps r0 s) : Keeps r0 (State.collIssue s c op block counts) := by
  unfold State.collIssue
  repeat' (first | with_reducible assumption | (simp only [keeps_mk, Cellar.allocBlock_mem, Cellar.freeBlock_mem, Cellar.freeBlocks_mem, Cellar.dropStaging_mem, Cellar.replaceStaging_mem, Hearth.runs]; with_reducible refine Keeps.parts ?_) | (intro x; refine Keeps.cut (r := r0) (s := x) ?_ ?_; unfold x; rotate_left; clear_value x; intro _) | intro _ | lift_lets -underBinder | with_reducible apply State.modGrp_keeps | with_reducible apply State.settle_keeps | with_reducible apply State.issue_keeps | with_reducible apply State.issueFail_keeps | with_reducible apply State.poisonRecord_keeps | with_reducible apply State.takeKept_keeps | with_reducible apply State.forgetSeen_keeps | with_reducible apply State.useGroup_keeps | with_reducible apply State.waitStaging_keeps | with_reducible apply State.collStart_keeps | with_reducible apply State.blockTimes_keeps | split)

theorem execAllreduce_keeps {r0 : State} (ctx : Fin 256) (block : ReadResult) (s : State) (hk : Keeps r0 s) : KeepsOut r0 (execAllreduce ctx block s) := by
  unfold execAllreduce
  repeat' (first | with_reducible assumption | with_reducible apply KeepsOut.next | (intro x; refine Keeps.cut (r := r0) (s := x) ?_ ?_; unfold x; rotate_left; clear_value x; intro _) | intro _ | lift_lets -underBinder | with_reducible apply State.collIssue_keeps | split)

theorem execReduceScatter_keeps {r0 : State} (ctx : Fin 256) (block : ReadResult) (s : State) (hk : Keeps r0 s) : KeepsOut r0 (execReduceScatter ctx block s) := by
  unfold execReduceScatter
  repeat' (first | with_reducible assumption | with_reducible apply KeepsOut.next | (intro x; refine Keeps.cut (r := r0) (s := x) ?_ ?_; unfold x; rotate_left; clear_value x; intro _) | intro _ | lift_lets -underBinder | with_reducible apply State.collIssue_keeps | split)

theorem execAllgather_keeps {r0 : State} (ctx : Fin 256) (block : ReadResult) (s : State) (hk : Keeps r0 s) : KeepsOut r0 (execAllgather ctx block s) := by
  unfold execAllgather
  repeat' (first | with_reducible assumption | with_reducible apply KeepsOut.next | (intro x; refine Keeps.cut (r := r0) (s := x) ?_ ?_; unfold x; rotate_left; clear_value x; intro _) | intro _ | lift_lets -underBinder | with_reducible apply State.collIssue_keeps | split)

theorem execBroadcast_keeps {r0 : State} (ctx : Fin 256) (block : ReadResult) (s : State) (hk : Keeps r0 s) : KeepsOut r0 (execBroadcast ctx block s) := by
  unfold execBroadcast
  repeat' (first | with_reducible assumption | with_reducible apply KeepsOut.next | (intro x; refine Keeps.cut (r := r0) (s := x) ?_ ?_; unfold x; rotate_left; clear_value x; intro _) | intro _ | lift_lets -underBinder | with_reducible apply State.collIssue_keeps | split)

theorem execReduce_keeps {r0 : State} (ctx : Fin 256) (block : ReadResult) (s : State) (hk : Keeps r0 s) : KeepsOut r0 (execReduce ctx block s) := by
  unfold execReduce
  repeat' (first | with_reducible assumption | with_reducible apply KeepsOut.next | (intro x; refine Keeps.cut (r := r0) (s := x) ?_ ?_; unfold x; rotate_left; clear_value x; intro _) | intro _ | lift_lets -underBinder | with_reducible apply State.collIssue_keeps | split)

theorem execAlltoall_keeps {r0 : State} (ctx : Fin 256) (block : ReadResult) (s : State) (hk : Keeps r0 s) : KeepsOut r0 (execAlltoall ctx block s) := by
  unfold execAlltoall
  repeat' (first | with_reducible assumption | with_reducible apply KeepsOut.next | (intro x; refine Keeps.cut (r := r0) (s := x) ?_ ?_; unfold x; rotate_left; clear_value x; intro _) | intro _ | lift_lets -underBinder | with_reducible apply State.collIssue_keeps | split)

theorem execAlltoallv_keeps {r0 : State} (ctx : Fin 256) (block : ReadResult) (counts : List ReadResult) (s : State) (hk : Keeps r0 s) : KeepsOut r0 (execAlltoallv ctx block counts s) := by
  unfold execAlltoallv
  repeat' (first | with_reducible assumption | with_reducible apply KeepsOut.next | (intro x; refine Keeps.cut (r := r0) (s := x) ?_ ?_; unfold x; rotate_left; clear_value x; intro _) | intro _ | lift_lets -underBinder | with_reducible apply State.collIssue_keeps | split)

theorem execStagingReservationGranted_keeps {r0 : State} (s : State) (hk : Keeps r0 s) : KeepsOut r0 (execStagingReservationGranted s) := by
  unfold execStagingReservationGranted
  repeat' (first | with_reducible assumption | (simp only [keeps_mk, Cellar.allocBlock_mem, Cellar.freeBlock_mem, Cellar.freeBlocks_mem, Cellar.dropStaging_mem, Cellar.replaceStaging_mem, Hearth.runs]; with_reducible refine Keeps.parts ?_) | with_reducible apply KeepsOut.next | (intro x; refine Keeps.cut (r := r0) (s := x) ?_ ?_; unfold x; rotate_left; clear_value x; intro _) | intro _ | lift_lets -underBinder | with_reducible apply State.settle_keeps | with_reducible apply State.takeStaging_keeps | with_reducible apply State.modMove_keeps | with_reducible apply State.moveStart_keeps | with_reducible apply State.collStart_keeps | split | (simp only [keeps_mk, Cellar.allocBlock_mem, Cellar.freeBlock_mem, Cellar.freeBlocks_mem, Cellar.dropStaging_mem, Cellar.replaceStaging_mem, Hearth.runs]; with_reducible refine Keeps.partsMem ?_ (fun w => by first | exact w | exact Cellar.scrub_wf w | exact Cellar.putUnits_wf w | exact Cellar.maskUnit_wf ‹_› w | (exact Cellar.scrub_wf (by simpa using w)) | simp [Memory.wf])) | (simp only [keeps_mk, Cellar.allocBlock_mem, Cellar.freeBlock_mem, Cellar.freeBlocks_mem, Cellar.dropStaging_mem, Cellar.replaceStaging_mem, Hearth.runs]; with_reducible refine Keeps.partsTo ?_ (by simp) (fun w => by first | exact w | exact Cellar.scrub_wf w | exact Cellar.putUnits_wf w | exact Cellar.maskUnit_wf ‹_› w | (exact Cellar.scrub_wf (by simpa using w)) | simp [Memory.wf])))

theorem State.padSlots_keeps {r0 : State} (s : State) (c : Nat) (fid : Nat) (k : Coll) (hk : Keeps r0 s) : Keeps r0 (State.padSlots s c fid k) := by
  unfold State.padSlots
  repeat' (first | with_reducible assumption | (simp only [keeps_mk, Cellar.allocBlock_mem, Cellar.freeBlock_mem, Cellar.freeBlocks_mem, Cellar.dropStaging_mem, Cellar.replaceStaging_mem, Hearth.runs]; with_reducible refine Keeps.parts ?_) | (intro x; refine Keeps.cut (r := r0) (s := x) ?_ ?_; unfold x; rotate_left; clear_value x; intro _) | intro _ | lift_lets -underBinder | with_reducible apply overList_keeps | with_reducible apply State.postBytes_keeps | with_reducible apply State.writeSlot_keeps | with_reducible apply Keeps.overList | split | (simp only [keeps_mk, Cellar.allocBlock_mem, Cellar.freeBlock_mem, Cellar.freeBlocks_mem, Cellar.dropStaging_mem, Cellar.replaceStaging_mem, Hearth.runs]; with_reducible refine Keeps.partsMem ?_ (fun w => by first | exact w | exact Cellar.scrub_wf w | exact Cellar.putUnits_wf w | exact Cellar.maskUnit_wf ‹_› w | (exact Cellar.scrub_wf (by simpa using w)) | simp [Memory.wf])) | (simp only [keeps_mk, Cellar.allocBlock_mem, Cellar.freeBlock_mem, Cellar.freeBlocks_mem, Cellar.dropStaging_mem, Cellar.replaceStaging_mem, Hearth.runs]; with_reducible refine Keeps.partsTo ?_ (by simp) (fun w => by first | exact w | exact Cellar.scrub_wf w | exact Cellar.putUnits_wf w | exact Cellar.maskUnit_wf ‹_› w | (exact Cellar.scrub_wf (by simpa using w)) | simp [Memory.wf])))

theorem execCollectiveComplete_keeps {r0 : State} (ctx : Fin 256) (idx : Nat) (treeDigest : Option Word64) (s : State) (hk : Keeps r0 s) : KeepsOut r0 (execCollectiveComplete ctx idx treeDigest s) := by
  unfold execCollectiveComplete
  repeat' (first | with_reducible assumption | (simp only [keeps_mk, Cellar.allocBlock_mem, Cellar.freeBlock_mem, Cellar.freeBlocks_mem, Cellar.dropStaging_mem, Cellar.replaceStaging_mem, Hearth.runs]; with_reducible refine Keeps.parts ?_) | with_reducible apply KeepsOut.next | (intro x; refine Keeps.cut (r := r0) (s := x) ?_ ?_; unfold x; rotate_left; clear_value x; intro _) | intro _ | lift_lets -underBinder | with_reducible apply State.modCtx_keeps | with_reducible apply State.endFlight_keeps | with_reducible apply State.settle_keeps | with_reducible apply State.modColl_keeps | with_reducible apply State.padSlots_keeps | split)


/-! ## Access -/

theorem State.bar0Refused_keeps {r0 : State} (s : State) (h : Nat) (read : Bool) (hk : Keeps r0 s) : Keeps r0 (State.bar0Refused s h read) := by
  unfold State.bar0Refused
  repeat' (first | with_reducible assumption | (simp only [keeps_mk, Cellar.allocBlock_mem, Cellar.freeBlock_mem, Cellar.freeBlocks_mem, Cellar.dropStaging_mem, Cellar.replaceStaging_mem, Hearth.runs]; with_reducible refine Keeps.parts ?_) | (intro x; refine Keeps.cut (r := r0) (s := x) ?_ ?_; unfold x; rotate_left; clear_value x; intro _) | intro _ | lift_lets -underBinder | with_reducible apply State.modHost_keeps | split)

theorem State.bar0Reset_keeps {r0 : State} (s : State) (h : Nat) (read : Bool) (hk : Keeps r0 s) : Keeps r0 (State.bar0Reset s h read) := by
  unfold State.bar0Reset
  repeat' (first | with_reducible assumption | (simp only [keeps_mk, Cellar.allocBlock_mem, Cellar.freeBlock_mem, Cellar.freeBlocks_mem, Cellar.dropStaging_mem, Cellar.replaceStaging_mem, Hearth.runs]; with_reducible refine Keeps.parts ?_) | (intro x; refine Keeps.cut (r := r0) (s := x) ?_ ?_; unfold x; rotate_left; clear_value x; intro _) | intro _ | lift_lets -underBinder | with_reducible apply State.modHost_keeps | split)

theorem State.bar0_keeps {r0 : State} (s : State) (h : Nat) (read : Bool) (f : State → State) (hk : Keeps r0 s) (hf : ∀ y0, Keeps r0 y0 → Keeps r0 (f y0)) : Keeps r0 (State.bar0 s h read f) := by
  unfold State.bar0
  repeat' (first | with_reducible assumption | with_reducible apply hf | (intro x; refine Keeps.cut (r := r0) (s := x) ?_ ?_; unfold x; rotate_left; clear_value x; intro _) | intro _ | lift_lets -underBinder | with_reducible apply State.bar0Reset_keeps | split)

theorem State.ownerWrite_keeps {r0 : State} (s : State) (h : Nat) (f : Nat → State → State) (hk : Keeps r0 s) (hf : ∀ y0 y1, Keeps r0 y1 → Keeps r0 (f y0 y1)) : Keeps r0 (State.ownerWrite s h f) := by
  unfold State.ownerWrite
  repeat' (first | with_reducible assumption | (simp only [keeps_mk, Cellar.allocBlock_mem, Cellar.freeBlock_mem, Cellar.freeBlocks_mem, Cellar.dropStaging_mem, Cellar.replaceStaging_mem, Hearth.runs]; with_reducible refine Keeps.parts ?_) | with_reducible apply hf | (intro x; refine Keeps.cut (r := r0) (s := x) ?_ ?_; unfold x; rotate_left; clear_value x; intro _) | intro _ | lift_lets -underBinder | with_reducible apply State.modHost_keeps | with_reducible apply State.bar0Refused_keeps | with_reducible apply State.bar0_keeps | split)

theorem State.ctxWrite_keeps {r0 : State} (s : State) (h : Nat) (c : Nat) (f : Nat → State → State) (hk : Keeps r0 s) (hf : ∀ y0 y1, Keeps r0 y1 → Keeps r0 (f y0 y1)) : Keeps r0 (State.ctxWrite s h c f) := by
  unfold State.ctxWrite
  repeat' (first | with_reducible assumption | (simp only [keeps_mk, Cellar.allocBlock_mem, Cellar.freeBlock_mem, Cellar.freeBlocks_mem, Cellar.dropStaging_mem, Cellar.replaceStaging_mem, Hearth.runs]; with_reducible refine Keeps.parts ?_) | with_reducible apply hf | (intro x; refine Keeps.cut (r := r0) (s := x) ?_ ?_; unfold x; rotate_left; clear_value x; intro _) | intro _ | lift_lets -underBinder | with_reducible apply State.modHost_keeps | with_reducible apply State.bar0Refused_keeps | with_reducible apply State.bar0_keeps | split)

theorem State.drop_keeps {r0 : State} (s : State) (i : Nat) (hk : Keeps r0 s) : Keeps r0 (State.drop s i) := by
  unfold State.drop
  repeat' (first | with_reducible assumption | (simp only [keeps_mk, Cellar.allocBlock_mem, Cellar.freeBlock_mem, Cellar.freeBlocks_mem, Cellar.dropStaging_mem, Cellar.replaceStaging_mem, Hearth.runs]; with_reducible refine Keeps.parts ?_) | (intro x; refine Keeps.cut (r := r0) (s := x) ?_ ?_; unfold x; rotate_left; clear_value x; intro _) | intro _ | lift_lets -underBinder | with_reducible apply State.modSuite_keeps | split)

theorem State.ctxDoor_keeps {r0 : State} (s : State) (h : Nat) (c : Nat) (f : Nat → State → State) (hk : Keeps r0 s) (hf : ∀ y0 y1, Keeps r0 y1 → Keeps r0 (f y0 y1)) : Keeps r0 (State.ctxDoor s h c f) := by
  unfold State.ctxDoor
  repeat' (first | with_reducible assumption | (simp only [keeps_mk, Cellar.allocBlock_mem, Cellar.freeBlock_mem, Cellar.freeBlocks_mem, Cellar.dropStaging_mem, Cellar.replaceStaging_mem, Hearth.runs]; with_reducible refine Keeps.parts ?_) | with_reducible apply hf | (intro x; refine Keeps.cut (r := r0) (s := x) ?_ ?_; unfold x; rotate_left; clear_value x; intro _) | intro _ | lift_lets -underBinder | with_reducible apply State.ctxWrite_keeps | with_reducible apply State.drop_keeps | split)


/-! ## Contexts -/

theorem State.refuseStart_keeps {r0 : State} (s : State) (c : Nat) (st : Nat) (hk : Keeps r0 s) : Keeps r0 (State.refuseStart s c st) := by
  unfold State.refuseStart
  repeat' (first | with_reducible assumption | (simp only [keeps_mk, Cellar.allocBlock_mem, Cellar.freeBlock_mem, Cellar.freeBlocks_mem, Cellar.dropStaging_mem, Cellar.replaceStaging_mem, Hearth.runs]; with_reducible refine Keeps.parts ?_) | (intro x; refine Keeps.cut (r := r0) (s := x) ?_ ?_; unfold x; rotate_left; clear_value x; intro _) | intro _ | lift_lets -underBinder | with_reducible apply State.modCtx_keeps | split)

theorem State.startNow_keeps {r0 : State} (s : State) (i : Nat) (c : Nat) (hk : Keeps r0 s) : Keeps r0 (State.startNow s i c) := by
  unfold State.startNow
  repeat' (first | with_reducible assumption | (simp only [keeps_mk, Cellar.allocBlock_mem, Cellar.freeBlock_mem, Cellar.freeBlocks_mem, Cellar.dropStaging_mem, Cellar.replaceStaging_mem, Hearth.runs]; with_reducible refine Keeps.parts ?_) | (intro x; refine Keeps.cut (r := r0) (s := x) ?_ ?_; unfold x; rotate_left; clear_value x; intro _) | intro _ | lift_lets -underBinder | with_reducible apply State.putCtx_keeps | with_reducible apply State.modCtx_keeps | with_reducible apply State.refresh_keeps | with_reducible apply State.drop_keeps | with_reducible apply State.refuseStart_keeps | split)

theorem execStart_keeps {r0 : State} (host : Fin 16) (ctx : Fin 256) (s : State) (hk : Keeps r0 s) : KeepsOut r0 (execStart host ctx s) := by
  unfold execStart
  repeat' (first | with_reducible assumption | (simp only [keeps_mk, Cellar.allocBlock_mem, Cellar.freeBlock_mem, Cellar.freeBlocks_mem, Cellar.dropStaging_mem, Cellar.replaceStaging_mem, Hearth.runs]; with_reducible refine Keeps.parts ?_) | with_reducible apply KeepsOut.next | (intro x; refine Keeps.cut (r := r0) (s := x) ?_ ?_; unfold x; rotate_left; clear_value x; intro _) | intro _ | lift_lets -underBinder | with_reducible apply State.putCtx_keeps | with_reducible apply State.hostIn_keeps | with_reducible apply State.drop_keeps | with_reducible apply State.ctxDoor_keeps | with_reducible apply State.refuseStart_keeps | with_reducible apply State.startNow_keeps | split)

theorem State.stopCtx_keeps {r0 : State} (s : State) (c : Nat) (hk : Keeps r0 s) : Keeps r0 (State.stopCtx s c) := by
  unfold State.stopCtx
  repeat' (first | with_reducible assumption | (intro x; refine Keeps.cut (r := r0) (s := x) ?_ ?_; unfold x; rotate_left; clear_value x; intro _) | intro _ | lift_lets -underBinder | with_reducible apply State.putCtx_keeps | with_reducible apply overList_keeps | with_reducible apply State.failFlight_keeps | with_reducible apply State.settle_keeps | with_reducible apply Keeps.overList | split)

theorem execStop_keeps {r0 : State} (host : Fin 16) (ctx : Fin 256) (s : State) (hk : Keeps r0 s) : KeepsOut r0 (execStop host ctx s) := by
  unfold execStop
  repeat' (first | with_reducible assumption | (simp only [keeps_mk, Cellar.allocBlock_mem, Cellar.freeBlock_mem, Cellar.freeBlocks_mem, Cellar.dropStaging_mem, Cellar.replaceStaging_mem, Hearth.runs]; with_reducible refine Keeps.parts ?_) | with_reducible apply KeepsOut.next | (intro x; refine Keeps.cut (r := r0) (s := x) ?_ ?_; unfold x; rotate_left; clear_value x; intro _) | intro _ | lift_lets -underBinder | with_reducible apply State.putCtx_keeps | with_reducible apply State.hostIn_keeps | with_reducible apply State.settle_keeps | with_reducible apply State.drop_keeps | with_reducible apply State.ctxDoor_keeps | with_reducible apply State.stopCtx_keeps | split)

theorem execAbort_keeps {r0 : State} (host : Fin 16) (ctx : Fin 256) (s : State) (hk : Keeps r0 s) : KeepsOut r0 (execAbort host ctx s) := by
  unfold execAbort
  repeat' (first | with_reducible assumption | (simp only [keeps_mk, Cellar.allocBlock_mem, Cellar.freeBlock_mem, Cellar.freeBlocks_mem, Cellar.dropStaging_mem, Cellar.replaceStaging_mem, Hearth.runs]; with_reducible refine Keeps.parts ?_) | with_reducible apply KeepsOut.next | (intro x; refine Keeps.cut (r := r0) (s := x) ?_ ?_; unfold x; rotate_left; clear_value x; intro _) | intro _ | lift_lets -underBinder | with_reducible apply State.hostIn_keeps | with_reducible apply State.abortCtx_keeps | with_reducible apply State.drop_keeps | with_reducible apply State.ctxDoor_keeps | split)

theorem execBell_keeps {r0 : State} (host : Fin 16) (ctx : Fin 256) (value : Word32) (s : State) (hk : Keeps r0 s) : KeepsOut r0 (execBell host ctx value s) := by
  unfold execBell
  repeat' (first | with_reducible assumption | with_reducible apply KeepsOut.next | (intro x; refine Keeps.cut (r := r0) (s := x) ?_ ?_; unfold x; rotate_left; clear_value x; intro _) | intro _ | lift_lets -underBinder | with_reducible apply State.hostIn_keeps | with_reducible apply State.ringLocal_keeps | with_reducible apply State.wakeBell_keeps | with_reducible apply State.settle_keeps | with_reducible apply State.drop_keeps | with_reducible apply State.ctxDoor_keeps | split | (simp only [id_eq]))

theorem execRingHead_keeps {r0 : State} (host : Fin 16) (ctx : Fin 256) (value : Word32) (s : State) (hk : Keeps r0 s) : KeepsOut r0 (execRingHead host ctx value s) := by
  unfold execRingHead
  repeat' (first | with_reducible assumption | (simp only [keeps_mk, Cellar.allocBlock_mem, Cellar.freeBlock_mem, Cellar.freeBlocks_mem, Cellar.dropStaging_mem, Cellar.replaceStaging_mem, Hearth.runs]; with_reducible refine Keeps.parts ?_) | with_reducible apply KeepsOut.next | (intro x; refine Keeps.cut (r := r0) (s := x) ?_ ?_; unfold x; rotate_left; clear_value x; intro _) | intro _ | lift_lets -underBinder | with_reducible apply State.putCtx_keeps | with_reducible apply State.hostIn_keeps | with_reducible apply State.settle_keeps | with_reducible apply State.drop_keeps | with_reducible apply State.ctxDoor_keeps | split)

theorem execHistClear_keeps {r0 : State} (host : Fin 16) (ctx : Fin 256) (s : State) (hk : Keeps r0 s) : KeepsOut r0 (execHistClear host ctx s) := by
  unfold execHistClear
  repeat' (first | with_reducible assumption | (simp only [keeps_mk, Cellar.allocBlock_mem, Cellar.freeBlock_mem, Cellar.freeBlocks_mem, Cellar.dropStaging_mem, Cellar.replaceStaging_mem, Hearth.runs]; with_reducible refine Keeps.parts ?_) | with_reducible apply KeepsOut.next | (intro x; refine Keeps.cut (r := r0) (s := x) ?_ ?_; unfold x; rotate_left; clear_value x; intro _) | intro _ | lift_lets -underBinder | with_reducible apply State.modCtx_keeps | with_reducible apply State.hostIn_keeps | with_reducible apply State.ctxDoor_keeps | split)

theorem execTranslation_keeps {r0 : State} (host : Fin 16) (ctx : Fin 256) (value : Word64) (s : State) (hk : Keeps r0 s) : KeepsOut r0 (execTranslation host ctx value s) := by
  unfold execTranslation
  repeat' (first | with_reducible assumption | (simp only [keeps_mk, Cellar.allocBlock_mem, Cellar.freeBlock_mem, Cellar.freeBlocks_mem, Cellar.dropStaging_mem, Cellar.replaceStaging_mem, Hearth.runs]; with_reducible refine Keeps.parts ?_) | with_reducible apply KeepsOut.next | (intro x; refine Keeps.cut (r := r0) (s := x) ?_ ?_; unfold x; rotate_left; clear_value x; intro _) | intro _ | lift_lets -underBinder | with_reducible apply State.putCtx_keeps | with_reducible apply State.modCtx_keeps | with_reducible apply State.hostIn_keeps | with_reducible apply State.ctxWrite_keeps | with_reducible apply State.drop_keeps | split)

theorem State.assignResult_keeps {r0 : State} (s : State) (i : Nat) (r : Nat) (hk : Keeps r0 s) : Keeps r0 (State.assignResult s i r) := by
  unfold State.assignResult
  repeat' (first | with_reducible assumption | (simp only [keeps_mk, Cellar.allocBlock_mem, Cellar.freeBlock_mem, Cellar.freeBlocks_mem, Cellar.dropStaging_mem, Cellar.replaceStaging_mem, Hearth.runs]; with_reducible refine Keeps.parts ?_) | (intro x; refine Keeps.cut (r := r0) (s := x) ?_ ?_; unfold x; rotate_left; clear_value x; intro _) | intro _ | lift_lets -underBinder | with_reducible apply State.modSuite_keeps | split)

theorem State.applyCtxQuota_keeps {r0 : State} (s : State) (i : Nat) (t : Nat) (hk : Keeps r0 s) : Keeps r0 (State.applyCtxQuota s i t) := by
  unfold State.applyCtxQuota
  repeat' (first | with_reducible assumption | (simp only [keeps_mk, Cellar.allocBlock_mem, Cellar.freeBlock_mem, Cellar.freeBlocks_mem, Cellar.dropStaging_mem, Cellar.replaceStaging_mem, Hearth.runs]; with_reducible refine Keeps.parts ?_) | (intro x; refine Keeps.cut (r := r0) (s := x) ?_ ?_; unfold x; rotate_left; clear_value x; intro _) | intro _ | lift_lets -underBinder | with_reducible apply State.modSuite_keeps | split)

theorem State.assignTo_keeps {r0 : State} (s : State) (i : Nat) (c : Nat) (a : Assignment) (hk : Keeps r0 s) : Keeps r0 (State.assignTo s i c a) := by
  unfold State.assignTo
  repeat' (first | with_reducible assumption | (simp only [keeps_mk, Cellar.allocBlock_mem, Cellar.freeBlock_mem, Cellar.freeBlocks_mem, Cellar.dropStaging_mem, Cellar.replaceStaging_mem, Hearth.runs]; with_reducible refine Keeps.parts ?_) | (intro x; refine Keeps.cut (r := r0) (s := x) ?_ ?_; unfold x; rotate_left; clear_value x; intro _) | intro _ | lift_lets -underBinder | with_reducible apply State.putCtx_keeps | with_reducible apply State.modSuite_keeps | with_reducible apply State.carryOut_keeps | with_reducible apply State.settle_keeps | with_reducible apply State.assignResult_keeps | split)

theorem execAssign_keeps {r0 : State} (host : Fin 16) (value : Word64) (s : State) (hk : Keeps r0 s) : KeepsOut r0 (execAssign host value s) := by
  unfold execAssign
  repeat' (first | with_reducible assumption | (simp only [keeps_mk, Cellar.allocBlock_mem, Cellar.freeBlock_mem, Cellar.freeBlocks_mem, Cellar.dropStaging_mem, Cellar.replaceStaging_mem, Hearth.runs]; with_reducible refine Keeps.parts ?_) | with_reducible apply KeepsOut.next | (intro x; refine Keeps.cut (r := r0) (s := x) ?_ ?_; unfold x; rotate_left; clear_value x; intro _) | intro _ | lift_lets -underBinder | with_reducible apply State.modSuite_keeps | with_reducible apply State.hostIn_keeps | with_reducible apply State.ownerWrite_keeps | with_reducible apply State.assignResult_keeps | with_reducible apply State.applyCtxQuota_keeps | with_reducible apply State.assignTo_keeps | split)

theorem State.clearingDone_keeps {r0 : State} (s : State) (c : Nat) (hk : Keeps r0 s) : Keeps r0 (State.clearingDone s c) := by
  unfold State.clearingDone
  repeat' (first | with_reducible assumption | (simp only [keeps_mk, Cellar.allocBlock_mem, Cellar.freeBlock_mem, Cellar.freeBlocks_mem, Cellar.dropStaging_mem, Cellar.replaceStaging_mem, Hearth.runs]; with_reducible refine Keeps.parts ?_) | (intro x; refine Keeps.cut (r := r0) (s := x) ?_ ?_; unfold x; rotate_left; clear_value x; intro _) | intro _ | lift_lets -underBinder | with_reducible apply State.putCtx_keeps | with_reducible apply overList_keeps | with_reducible apply State.carryOut_keeps | with_reducible apply State.ringBlocked_keeps | with_reducible apply State.applyRemote_keeps | with_reducible apply State.assignResult_keeps | with_reducible apply Keeps.overList | split)

theorem execClearingComplete_keeps {r0 : State} (ctx : Fin 256) (s : State) (hk : Keeps r0 s) : KeepsOut r0 (execClearingComplete ctx s) := by
  unfold execClearingComplete
  repeat' (first | with_reducible assumption | with_reducible apply KeepsOut.next | (intro x; refine Keeps.cut (r := r0) (s := x) ?_ ?_; unfold x; rotate_left; clear_value x; intro _) | intro _ | lift_lets -underBinder | with_reducible apply State.clearingDone_keeps | split)


/-! ## Groups -/

theorem State.setEntry_keeps {r0 : State} (s : State) (g : Nat) (e : Option (List Byte)) (hk : Keeps r0 s) : Keeps r0 (State.setEntry s g e) := by
  unfold State.setEntry
  repeat' (first | with_reducible assumption | (simp only [keeps_mk, Cellar.allocBlock_mem, Cellar.freeBlock_mem, Cellar.freeBlocks_mem, Cellar.dropStaging_mem, Cellar.replaceStaging_mem, Hearth.runs]; with_reducible refine Keeps.parts ?_) | (intro x; refine Keeps.cut (r := r0) (s := x) ?_ ?_; unfold x; rotate_left; clear_value x; intro _) | intro _ | lift_lets -underBinder | with_reducible apply State.putGrp_keeps | split)

theorem State.applyStaged_keeps {r0 : State} (s : State) (g : Nat) (z0 : Staged) (hk : Keeps r0 s) : Keeps r0 (State.applyStaged s g z0) := by
  unfold State.applyStaged
  repeat' (first | with_reducible assumption | (intro x; refine Keeps.cut (r := r0) (s := x) ?_ ?_; unfold x; rotate_left; clear_value x; intro _) | intro _ | lift_lets -underBinder | with_reducible apply State.commit_keeps | with_reducible apply State.setEntry_keeps | split)

theorem State.groupResult_keeps {r0 : State} (s : State) (i : Nat) (g : Nat) (r : Nat) (off : Nat) (hk : Keeps r0 s) : Keeps r0 (State.groupResult s i g r off) := by
  unfold State.groupResult
  repeat' (first | with_reducible assumption | (simp only [keeps_mk, Cellar.allocBlock_mem, Cellar.freeBlock_mem, Cellar.freeBlocks_mem, Cellar.dropStaging_mem, Cellar.replaceStaging_mem, Hearth.runs]; with_reducible refine Keeps.parts ?_) | (intro x; refine Keeps.cut (r := r0) (s := x) ?_ ?_; unfold x; rotate_left; clear_value x; intro _) | intro _ | lift_lets -underBinder | with_reducible apply State.modSuite_keeps | split)

theorem State.groupTake_keeps {r0 : State} (s : State) (i : Nat) (g : Nat) (st : Staged) (hk : Keeps r0 s) : Keeps r0 (State.groupTake s i g st) := by
  unfold State.groupTake
  repeat' (first | with_reducible assumption | (simp only [keeps_mk, Cellar.allocBlock_mem, Cellar.freeBlock_mem, Cellar.freeBlocks_mem, Cellar.dropStaging_mem, Cellar.replaceStaging_mem, Hearth.runs]; with_reducible refine Keeps.parts ?_) | (intro x; refine Keeps.cut (r := r0) (s := x) ?_ ?_; unfold x; rotate_left; clear_value x; intro _) | intro _ | lift_lets -underBinder | with_reducible apply State.modGrp_keeps | with_reducible apply State.applyStaged_keeps | with_reducible apply State.groupResult_keeps | split)

theorem State.applyGrpQuota_keeps {r0 : State} (s : State) (i : Nat) (t : Nat) (hk : Keeps r0 s) : Keeps r0 (State.applyGrpQuota s i t) := by
  unfold State.applyGrpQuota
  repeat' (first | with_reducible assumption | (simp only [keeps_mk, Cellar.allocBlock_mem, Cellar.freeBlock_mem, Cellar.freeBlocks_mem, Cellar.dropStaging_mem, Cellar.replaceStaging_mem, Hearth.runs]; with_reducible refine Keeps.parts ?_) | (intro x; refine Keeps.cut (r := r0) (s := x) ?_ ?_; unfold x; rotate_left; clear_value x; intro _) | intro _ | lift_lets -underBinder | with_reducible apply State.modSuite_keeps | split)

theorem execGroupCommit_keeps {r0 : State} (host : Fin 16) (group : BitVec 12) (s : State) (hk : Keeps r0 s) : KeepsOut r0 (execGroupCommit host group s) := by
  unfold execGroupCommit
  repeat' (first | with_reducible assumption | (simp only [keeps_mk, Cellar.allocBlock_mem, Cellar.freeBlock_mem, Cellar.freeBlocks_mem, Cellar.dropStaging_mem, Cellar.replaceStaging_mem, Hearth.runs]; with_reducible refine Keeps.parts ?_) | with_reducible apply KeepsOut.next | (intro x; refine Keeps.cut (r := r0) (s := x) ?_ ?_; unfold x; rotate_left; clear_value x; intro _) | intro _ | lift_lets -underBinder | with_reducible apply State.hostIn_keeps | with_reducible apply State.commit_keeps | with_reducible apply State.ownerWrite_keeps | with_reducible apply State.groupResult_keeps | with_reducible apply State.groupTake_keeps | with_reducible apply State.applyGrpQuota_keeps | split)

theorem execGroupInvalidate_keeps {r0 : State} (host : Fin 16) (group : BitVec 12) (s : State) (hk : Keeps r0 s) : KeepsOut r0 (execGroupInvalidate host group s) := by
  unfold execGroupInvalidate
  repeat' (first | with_reducible assumption | with_reducible apply KeepsOut.next | (intro x; refine Keeps.cut (r := r0) (s := x) ?_ ?_; unfold x; rotate_left; clear_value x; intro _) | intro _ | lift_lets -underBinder | with_reducible apply State.hostIn_keeps | with_reducible apply State.ownerWrite_keeps | with_reducible apply State.groupResult_keeps | with_reducible apply State.groupTake_keeps | split)

theorem execStagedCommitApplied_keeps {r0 : State} (group : BitVec 12) (s : State) (hk : Keeps r0 s) : KeepsOut r0 (execStagedCommitApplied group s) := by
  unfold execStagedCommitApplied
  repeat' (first | with_reducible assumption | (simp only [keeps_mk, Cellar.allocBlock_mem, Cellar.freeBlock_mem, Cellar.freeBlocks_mem, Cellar.dropStaging_mem, Cellar.replaceStaging_mem, Hearth.runs]; with_reducible refine Keeps.parts ?_) | with_reducible apply KeepsOut.next | (intro x; refine Keeps.cut (r := r0) (s := x) ?_ ?_; unfold x; rotate_left; clear_value x; intro _) | intro _ | lift_lets -underBinder | with_reducible apply State.modSuite_keeps | with_reducible apply State.applyStaged_keeps | with_reducible apply State.groupResult_keeps | split)

theorem execGroupRead_keeps {r0 : State} (host : Fin 16) (value : Word32) (s : State) (hk : Keeps r0 s) : KeepsOut r0 (execGroupRead host value s) := by
  unfold execGroupRead
  repeat' (first | with_reducible assumption | (simp only [keeps_mk, Cellar.allocBlock_mem, Cellar.freeBlock_mem, Cellar.freeBlocks_mem, Cellar.dropStaging_mem, Cellar.replaceStaging_mem, Hearth.runs]; with_reducible refine Keeps.parts ?_) | with_reducible apply KeepsOut.next | (intro x; refine Keeps.cut (r := r0) (s := x) ?_ ?_; unfold x; rotate_left; clear_value x; intro _) | intro _ | lift_lets -underBinder | with_reducible apply State.modSuite_keeps | with_reducible apply State.hostIn_keeps | with_reducible apply State.ownerWrite_keeps | split)


/-! ## Suites -/

theorem State.bellResult_keeps {r0 : State} (s : State) (i : Nat) (r : Nat) (hk : Keeps r0 s) : Keeps r0 (State.bellResult s i r) := by
  unfold State.bellResult
  repeat' (first | with_reducible assumption | (simp only [keeps_mk, Cellar.allocBlock_mem, Cellar.freeBlock_mem, Cellar.freeBlocks_mem, Cellar.dropStaging_mem, Cellar.replaceStaging_mem, Hearth.runs]; with_reducible refine Keeps.parts ?_) | (intro x; refine Keeps.cut (r := r0) (s := x) ?_ ?_; unfold x; rotate_left; clear_value x; intro _) | intro _ | lift_lets -underBinder | with_reducible apply State.modSuite_keeps | split)

theorem execBellBlockAllocate_keeps {r0 : State} (host : Fin 16) (tenant : BitVec 8) (s : State) (hk : Keeps r0 s) : KeepsOut r0 (execBellBlockAllocate host tenant s) := by
  unfold execBellBlockAllocate
  repeat' (first | with_reducible assumption | (simp only [keeps_mk, Cellar.allocBlock_mem, Cellar.freeBlock_mem, Cellar.freeBlocks_mem, Cellar.dropStaging_mem, Cellar.replaceStaging_mem, Hearth.runs]; with_reducible refine Keeps.parts ?_) | with_reducible apply KeepsOut.next | (intro x; refine Keeps.cut (r := r0) (s := x) ?_ ?_; unfold x; rotate_left; clear_value x; intro _) | intro _ | lift_lets -underBinder | with_reducible apply State.modSuite_keeps | with_reducible apply State.hostIn_keeps | with_reducible apply State.progressIn_keeps | with_reducible apply State.ownerWrite_keeps | with_reducible apply State.bellResult_keeps | split | (simp only [keeps_mk, Cellar.allocBlock_mem, Cellar.freeBlock_mem, Cellar.freeBlocks_mem, Cellar.dropStaging_mem, Cellar.replaceStaging_mem, Hearth.runs]; with_reducible refine Keeps.partsMem ?_ (fun w => by first | exact w | exact Cellar.scrub_wf w | exact Cellar.putUnits_wf w | exact Cellar.maskUnit_wf ‹_› w | (exact Cellar.scrub_wf (by simpa using w)) | simp [Memory.wf])) | (simp only [keeps_mk, Cellar.allocBlock_mem, Cellar.freeBlock_mem, Cellar.freeBlocks_mem, Cellar.dropStaging_mem, Cellar.replaceStaging_mem, Hearth.runs]; with_reducible refine Keeps.partsTo ?_ (by simp) (fun w => by first | exact w | exact Cellar.scrub_wf w | exact Cellar.putUnits_wf w | exact Cellar.maskUnit_wf ‹_› w | (exact Cellar.scrub_wf (by simpa using w)) | simp [Memory.wf])))

theorem execBellBlockFree_keeps {r0 : State} (host : Fin 16) (offset : Word32) (s : State) (hk : Keeps r0 s) : KeepsOut r0 (execBellBlockFree host offset s) := by
  unfold execBellBlockFree
  repeat' (first | with_reducible assumption | (simp only [keeps_mk, Cellar.allocBlock_mem, Cellar.freeBlock_mem, Cellar.freeBlocks_mem, Cellar.dropStaging_mem, Cellar.replaceStaging_mem, Hearth.runs]; with_reducible refine Keeps.parts ?_) | with_reducible apply KeepsOut.next | (intro x; refine Keeps.cut (r := r0) (s := x) ?_ ?_; unfold x; rotate_left; clear_value x; intro _) | intro _ | lift_lets -underBinder | with_reducible apply State.hostIn_keeps | with_reducible apply State.progressIn_keeps | with_reducible apply State.ownerWrite_keeps | with_reducible apply State.bellResult_keeps | split | (simp only [keeps_mk, Cellar.allocBlock_mem, Cellar.freeBlock_mem, Cellar.freeBlocks_mem, Cellar.dropStaging_mem, Cellar.replaceStaging_mem, Hearth.runs]; with_reducible refine Keeps.partsMem ?_ (fun w => by first | exact w | exact Cellar.scrub_wf w | exact Cellar.putUnits_wf w | exact Cellar.maskUnit_wf ‹_› w | (exact Cellar.scrub_wf (by simpa using w)) | simp [Memory.wf])) | (simp only [keeps_mk, Cellar.allocBlock_mem, Cellar.freeBlock_mem, Cellar.freeBlocks_mem, Cellar.dropStaging_mem, Cellar.replaceStaging_mem, Hearth.runs]; with_reducible refine Keeps.partsTo ?_ (by simp) (fun w => by first | exact w | exact Cellar.scrub_wf w | exact Cellar.putUnits_wf w | exact Cellar.maskUnit_wf ‹_› w | (exact Cellar.scrub_wf (by simpa using w)) | simp [Memory.wf])))

theorem execBellDebugSel_keeps {r0 : State} (host : Fin 16) (value : Word64) (s : State) (hk : Keeps r0 s) : KeepsOut r0 (execBellDebugSel host value s) := by
  unfold execBellDebugSel
  repeat' (first | with_reducible assumption | (simp only [keeps_mk, Cellar.allocBlock_mem, Cellar.freeBlock_mem, Cellar.freeBlocks_mem, Cellar.dropStaging_mem, Cellar.replaceStaging_mem, Hearth.runs]; with_reducible refine Keeps.parts ?_) | with_reducible apply KeepsOut.next | (intro x; refine Keeps.cut (r := r0) (s := x) ?_ ?_; unfold x; rotate_left; clear_value x; intro _) | intro _ | lift_lets -underBinder | with_reducible apply State.modSuite_keeps | with_reducible apply State.hostIn_keeps | with_reducible apply State.ownerWrite_keeps | split)

theorem execBellDebugClear_keeps {r0 : State} (host : Fin 16) (s : State) (hk : Keeps r0 s) : KeepsOut r0 (execBellDebugClear host s) := by
  unfold execBellDebugClear
  repeat' (first | with_reducible assumption | (simp only [keeps_mk, Cellar.allocBlock_mem, Cellar.freeBlock_mem, Cellar.freeBlocks_mem, Cellar.dropStaging_mem, Cellar.replaceStaging_mem, Hearth.runs]; with_reducible refine Keeps.parts ?_) | with_reducible apply KeepsOut.next | (intro x; refine Keeps.cut (r := r0) (s := x) ?_ ?_; unfold x; rotate_left; clear_value x; intro _) | intro _ | lift_lets -underBinder | with_reducible apply State.hostIn_keeps | with_reducible apply State.progressIn_keeps | with_reducible apply State.modBell_keeps | with_reducible apply State.ownerWrite_keeps | with_reducible apply State.drop_keeps | split)

theorem execStallDetected_keeps {r0 : State} (suite : Fin 16) (s : State) (hk : Keeps r0 s) : KeepsOut r0 (execStallDetected suite s) := by
  unfold execStallDetected
  repeat' (first | with_reducible assumption | (simp only [keeps_mk, Cellar.allocBlock_mem, Cellar.freeBlock_mem, Cellar.freeBlocks_mem, Cellar.dropStaging_mem, Cellar.replaceStaging_mem, Hearth.runs]; with_reducible refine Keeps.parts ?_) | with_reducible apply KeepsOut.next | (intro x; refine Keeps.cut (r := r0) (s := x) ?_ ?_; unfold x; rotate_left; clear_value x; intro _) | intro _ | lift_lets -underBinder | with_reducible apply State.modSuite_keeps | with_reducible apply State.record_keeps | with_reducible apply State.suiteEvent_keeps | with_reducible apply State.reach_keeps | split)

theorem execStallClear_keeps {r0 : State} (host : Fin 16) (s : State) (hk : Keeps r0 s) : KeepsOut r0 (execStallClear host s) := by
  unfold execStallClear
  repeat' (first | with_reducible assumption | (simp only [keeps_mk, Cellar.allocBlock_mem, Cellar.freeBlock_mem, Cellar.freeBlocks_mem, Cellar.dropStaging_mem, Cellar.replaceStaging_mem, Hearth.runs]; with_reducible refine Keeps.parts ?_) | with_reducible apply KeepsOut.next | (intro x; refine Keeps.cut (r := r0) (s := x) ?_ ?_; unfold x; rotate_left; clear_value x; intro _) | intro _ | lift_lets -underBinder | with_reducible apply State.modSuite_keeps | with_reducible apply State.hostIn_keeps | with_reducible apply State.ownerWrite_keeps | split)

theorem execQuotaWrite_keeps {r0 : State} (host : Fin 16) (tenant : BitVec 8) (value : Word32) (s : State) (hk : Keeps r0 s) : KeepsOut r0 (execQuotaWrite host tenant value s) := by
  unfold execQuotaWrite
  repeat' (first | with_reducible assumption | (simp only [keeps_mk, Cellar.allocBlock_mem, Cellar.freeBlock_mem, Cellar.freeBlocks_mem, Cellar.dropStaging_mem, Cellar.replaceStaging_mem, Hearth.runs]; with_reducible refine Keeps.parts ?_) | with_reducible apply KeepsOut.next | (intro x; refine Keeps.cut (r := r0) (s := x) ?_ ?_; unfold x; rotate_left; clear_value x; intro _) | intro _ | lift_lets -underBinder | with_reducible apply State.modSuite_keeps | with_reducible apply State.hostIn_keeps | with_reducible apply State.ownerWrite_keeps | split)

theorem execRecordSeq_keeps {r0 : State} (host : Fin 16) (value : Word32) (s : State) (hk : Keeps r0 s) : KeepsOut r0 (execRecordSeq host value s) := by
  unfold execRecordSeq
  repeat' (first | with_reducible assumption | (simp only [keeps_mk, Cellar.allocBlock_mem, Cellar.freeBlock_mem, Cellar.freeBlocks_mem, Cellar.dropStaging_mem, Cellar.replaceStaging_mem, Hearth.runs]; with_reducible refine Keeps.parts ?_) | with_reducible apply KeepsOut.next | (intro x; refine Keeps.cut (r := r0) (s := x) ?_ ?_; unfold x; rotate_left; clear_value x; intro _) | intro _ | lift_lets -underBinder | with_reducible apply State.modSuite_keeps | with_reducible apply State.hostIn_keeps | with_reducible apply State.ownerWrite_keeps | split)


/-! ## CellarAccess -/

theorem State.answer_keeps {r0 : State} (s : State) (h : Nat) (c : HostCpl) (hk : Keeps r0 s) : Keeps r0 (State.answer s h c) := by
  unfold State.answer
  repeat' (first | with_reducible assumption | (simp only [keeps_mk, Cellar.allocBlock_mem, Cellar.freeBlock_mem, Cellar.freeBlocks_mem, Cellar.dropStaging_mem, Cellar.replaceStaging_mem, Hearth.runs]; with_reducible refine Keeps.parts ?_) | (intro x; refine Keeps.cut (r := r0) (s := x) ?_ ?_; unfold x; rotate_left; clear_value x; intro _) | intro _ | lift_lets -underBinder | with_reducible apply State.modHost_keeps | split)

theorem State.hostReply_keeps {r0 : State} (s : State) (h : Nat) (c : HostCpl) (hk : Keeps r0 s) : Keeps r0 (State.hostReply s h c) := by
  unfold State.hostReply
  repeat' (first | with_reducible assumption | (simp only [keeps_mk, Cellar.allocBlock_mem, Cellar.freeBlock_mem, Cellar.freeBlocks_mem, Cellar.dropStaging_mem, Cellar.replaceStaging_mem, Hearth.runs]; with_reducible refine Keeps.parts ?_) | (intro x; refine Keeps.cut (r := r0) (s := x) ?_ ?_; unfold x; rotate_left; clear_value x; intro _) | intro _ | lift_lets -underBinder | with_reducible apply State.modHost_keeps | split)

theorem State.countMiss_keeps {r0 : State} (s : State) (h : Nat) (a : Nat) (z0 : WindowHit) (hk : Keeps r0 s) : Keeps r0 (State.countMiss s h a z0) := by
  unfold State.countMiss
  repeat' (first | with_reducible assumption | (simp only [keeps_mk, Cellar.allocBlock_mem, Cellar.freeBlock_mem, Cellar.freeBlocks_mem, Cellar.dropStaging_mem, Cellar.replaceStaging_mem, Hearth.runs]; with_reducible refine Keeps.parts ?_) | (intro x; refine Keeps.cut (r := r0) (s := x) ?_ ?_; unfold x; rotate_left; clear_value x; intro _) | intro _ | lift_lets -underBinder | with_reducible apply State.modHost_keeps | with_reducible apply State.record_keeps | split)

theorem State.meetError_keeps {r0 : State} (s : State) (off : Nat) (len : Nat) (ecc : Option Nat) (reads : Nat → Bool) (hk : Keeps r0 s) : Keeps r0 (State.meetError s off len ecc reads) := by
  unfold State.meetError
  repeat' (first | with_reducible assumption | (simp only [keeps_mk, Cellar.allocBlock_mem, Cellar.freeBlock_mem, Cellar.freeBlocks_mem, Cellar.dropStaging_mem, Cellar.replaceStaging_mem, Hearth.runs]; with_reducible refine Keeps.parts ?_) | (intro x; refine Keeps.cut (r := r0) (s := x) ?_ ?_; unfold x; rotate_left; clear_value x; intro _) | intro _ | lift_lets -underBinder | with_reducible apply State.cellError_keeps | split)

theorem State.serveRead_keeps {r0 : State} (s : State) (h : Nat) (off : Nat) (len : Nat) (ecc : Option Nat) (hk : Keeps r0 s) : Keeps r0 (State.serveRead s h off len ecc) := by
  unfold State.serveRead
  repeat' (first | with_reducible assumption | (intro x; refine Keeps.cut (r := r0) (s := x) ?_ ?_; unfold x; rotate_left; clear_value x; intro _) | intro _ | lift_lets -underBinder | with_reducible apply State.touch_keeps | with_reducible apply State.poisonRecord_keeps | with_reducible apply State.hostReply_keeps | with_reducible apply State.meetError_keeps | split)

theorem State.serveWrite_keeps {r0 : State} (s : State) (h : Nat) (off : Nat) (b : List Byte) (en : List Bool) (ecc : Option Nat) (hk : Keeps r0 s) : Keeps r0 (State.serveWrite s h off b en ecc) := by
  unfold State.serveWrite
  repeat' (first | with_reducible assumption | (simp only [keeps_mk, Cellar.allocBlock_mem, Cellar.freeBlock_mem, Cellar.freeBlocks_mem, Cellar.dropStaging_mem, Cellar.replaceStaging_mem, Hearth.runs]; with_reducible refine Keeps.parts ?_) | (intro x; refine Keeps.cut (r := r0) (s := x) ?_ ?_; unfold x; rotate_left; clear_value x; intro _) | intro _ | lift_lets -underBinder | with_reducible apply State.modHost_keeps | with_reducible apply overList_keeps | with_reducible apply State.touch_keeps | with_reducible apply State.meetError_keeps | with_reducible apply Keeps.overList | split | (simp only [keeps_mk, Cellar.allocBlock_mem, Cellar.freeBlock_mem, Cellar.freeBlocks_mem, Cellar.dropStaging_mem, Cellar.replaceStaging_mem, Hearth.runs]; with_reducible refine Keeps.partsMem ?_ (fun w => by first | exact w | exact Cellar.scrub_wf w | exact Cellar.putUnits_wf w | exact Cellar.maskUnit_wf ‹_› w | (exact Cellar.scrub_wf (by simpa using w)) | simp [Memory.wf])) | (simp only [keeps_mk, Cellar.allocBlock_mem, Cellar.freeBlock_mem, Cellar.freeBlocks_mem, Cellar.dropStaging_mem, Cellar.replaceStaging_mem, Hearth.runs]; with_reducible refine Keeps.partsTo ?_ (by simp) (fun w => by first | exact w | exact Cellar.scrub_wf w | exact Cellar.putUnits_wf w | exact Cellar.maskUnit_wf ‹_› w | (exact Cellar.scrub_wf (by simpa using w)) | simp [Memory.wf])))

theorem State.serveAs_keeps {r0 : State} (s : State) (h : Nat) (q : CellarReq) (m : WindowHit) (hk : Keeps r0 s) : Keeps r0 (State.serveAs s h q m) := by
  unfold State.serveAs
  repeat' (first | with_reducible assumption | (simp only [keeps_mk, Cellar.allocBlock_mem, Cellar.freeBlock_mem, Cellar.freeBlocks_mem, Cellar.dropStaging_mem, Cellar.replaceStaging_mem, Hearth.runs]; with_reducible refine Keeps.parts ?_) | (intro x; refine Keeps.cut (r := r0) (s := x) ?_ ?_; unfold x; rotate_left; clear_value x; intro _) | intro _ | lift_lets -underBinder | with_reducible apply State.hostReply_keeps | with_reducible apply State.countMiss_keeps | with_reducible apply State.serveRead_keeps | with_reducible apply State.serveWrite_keeps | split)

theorem State.cross_keeps {r0 : State} (s : State) (h : Nat) (q : CellarReq) (hk : Keeps r0 s) (t : State) (e : State.cross s h q = some t) :
    Keeps r0 t := by
  unfold State.cross at e
  split at e
  · split at e
    · split at e
      · simp only [Option.some.injEq] at e
        subst e
        simp only [keeps_mk]
        exact Keeps.parts (State.touch_keeps _ _ _ hk)
      · cases e
    · cases e
      exact State.serveAs_keeps _ _ _ _ hk
  · cases e
    exact State.serveAs_keeps _ _ _ _ hk

theorem State.hallGo_keeps {r0 : State} (h : Nat) (z0 : Nat) (z1 : State) (hk : Keeps r0 z1) : Keeps r0 (State.hallGo h z0 z1) := by
  induction z0 generalizing z1 with
  | zero => exact hk
  | succ n ih =>
    unfold State.hallGo
    split
    · exact hk
    · split
      · rename_i q l _ _ t e
        refine ih _ ?_
        simp only [keeps_mk]
        exact Keeps.parts (State.cross_keeps z1 h q hk t e)
      · exact hk

theorem State.serve_keeps {r0 : State} (s : State) (h : Nat) (q : CellarReq) (hk : Keeps r0 s) : Keeps r0 (State.serve s h q) := by
  unfold State.serve
  repeat' (first | with_reducible assumption | (simp only [keeps_mk, Cellar.allocBlock_mem, Cellar.freeBlock_mem, Cellar.freeBlocks_mem, Cellar.dropStaging_mem, Cellar.replaceStaging_mem, Hearth.runs]; with_reducible refine Keeps.parts ?_) | (intro x; refine Keeps.cut (r := r0) (s := x) ?_ ?_; unfold x; rotate_left; clear_value x; intro _) | intro _ | lift_lets -underBinder | with_reducible apply State.hallGo_keeps | split)

theorem State.porchGo_keeps {r0 : State} (h : Nat) (z0 : Nat) (z1 : State) (hk : Keeps r0 z1) : Keeps r0 (State.porchGo h z0 z1) := by
  induction z0 generalizing z1 with
  | zero => exact hk
  | succ n ih =>
    unfold State.porchGo
    lift_lets -underBinder
    intro x
    split
    · exact hk
    · split
      · exact ih _ (State.serve_keeps _ _ _ (State.putHost_keeps _ _ _ hk))
      · exact hk

theorem State.requestsGo_keeps {r0 : State} (s : State) (h : Nat) (hk : Keeps r0 s) : Keeps r0 (State.requestsGo s h) := by
  unfold State.requestsGo
  repeat' (first | with_reducible assumption | (intro x; refine Keeps.cut (r := r0) (s := x) ?_ ?_; unfold x; rotate_left; clear_value x; intro _) | intro _ | lift_lets -underBinder | with_reducible apply State.hallGo_keeps | with_reducible apply State.porchGo_keeps | split)

theorem State.cellarReq_keeps {r0 : State} (s : State) (h : Nat) (q : CellarReq) (hk : Keeps r0 s) : Keeps r0 (State.cellarReq s h q) := by
  unfold State.cellarReq
  repeat' (first | with_reducible assumption | (simp only [keeps_mk, Cellar.allocBlock_mem, Cellar.freeBlock_mem, Cellar.freeBlocks_mem, Cellar.dropStaging_mem, Cellar.replaceStaging_mem, Hearth.runs]; with_reducible refine Keeps.parts ?_) | (intro x; refine Keeps.cut (r := r0) (s := x) ?_ ?_; unfold x; rotate_left; clear_value x; intro _) | intro _ | lift_lets -underBinder | with_reducible apply State.modHost_keeps | with_reducible apply State.requestsGo_keeps | split)

theorem State.figAccess_keeps {r0 : State} (s : State) (z0 : FigWait) (hk : Keeps r0 s) : Keeps r0 (State.figAccess s z0) := by
  unfold State.figAccess
  repeat' (first | with_reducible assumption | (simp only [keeps_mk, Cellar.allocBlock_mem, Cellar.freeBlock_mem, Cellar.freeBlocks_mem, Cellar.dropStaging_mem, Cellar.replaceStaging_mem, Hearth.runs]; with_reducible refine Keeps.parts ?_) | (intro x; refine Keeps.cut (r := r0) (s := x) ?_ ?_; unfold x; rotate_left; clear_value x; intro _) | intro _ | lift_lets -underBinder | with_reducible apply State.settle_keeps | with_reducible apply State.moveToCells_keeps | with_reducible apply State.moveStart_keeps | with_reducible apply State.readMember_keeps | split | (simp only [keeps_mk, Cellar.allocBlock_mem, Cellar.freeBlock_mem, Cellar.freeBlocks_mem, Cellar.dropStaging_mem, Cellar.replaceStaging_mem, Hearth.runs]; with_reducible refine Keeps.partsMem ?_ (fun w => by first | exact w | exact Cellar.scrub_wf w | exact Cellar.putUnits_wf w | exact Cellar.maskUnit_wf ‹_› w | (exact Cellar.scrub_wf (by simpa using w)) | simp [Memory.wf])) | (simp only [keeps_mk, Cellar.allocBlock_mem, Cellar.freeBlock_mem, Cellar.freeBlocks_mem, Cellar.dropStaging_mem, Cellar.replaceStaging_mem, Hearth.runs]; with_reducible refine Keeps.partsTo ?_ (by simp) (fun w => by first | exact w | exact Cellar.scrub_wf w | exact Cellar.putUnits_wf w | exact Cellar.maskUnit_wf ‹_› w | (exact Cellar.scrub_wf (by simpa using w)) | simp [Memory.wf])))

theorem State.cellsGo_keeps {r0 : State} (s : State) (e : Nat) (hk : Keeps r0 s) : Keeps r0 (State.cellsGo s e) := by
  unfold State.cellsGo
  repeat' (first | with_reducible assumption | (simp only [keeps_mk, Cellar.allocBlock_mem, Cellar.freeBlock_mem, Cellar.freeBlocks_mem, Cellar.dropStaging_mem, Cellar.replaceStaging_mem, Hearth.runs]; with_reducible refine Keeps.parts ?_) | (intro x; refine Keeps.cut (r := r0) (s := x) ?_ ?_; unfold x; rotate_left; clear_value x; intro _) | intro _ | lift_lets -underBinder | with_reducible apply overList_keeps | with_reducible apply State.serveAs_keeps | with_reducible apply State.requestsGo_keeps | with_reducible apply State.figAccess_keeps | with_reducible apply Keeps.overList | split | (simp only [keeps_mk, Cellar.allocBlock_mem, Cellar.freeBlock_mem, Cellar.freeBlocks_mem, Cellar.dropStaging_mem, Cellar.replaceStaging_mem, Hearth.runs]; with_reducible refine Keeps.partsMem ?_ (fun w => by first | exact w | exact Cellar.scrub_wf w | exact Cellar.putUnits_wf w | exact Cellar.maskUnit_wf ‹_› w | (exact Cellar.scrub_wf (by simpa using w)) | simp [Memory.wf])) | (simp only [keeps_mk, Cellar.allocBlock_mem, Cellar.freeBlock_mem, Cellar.freeBlocks_mem, Cellar.dropStaging_mem, Cellar.replaceStaging_mem, Hearth.runs]; with_reducible refine Keeps.partsTo ?_ (by simp) (fun w => by first | exact w | exact Cellar.scrub_wf w | exact Cellar.putUnits_wf w | exact Cellar.maskUnit_wf ‹_› w | (exact Cellar.scrub_wf (by simpa using w)) | simp [Memory.wf])))

theorem execTokenAvailable_keeps {r0 : State} (host : Fin 16) (s : State) (hk : Keeps r0 s) : KeepsOut r0 (execTokenAvailable host s) := by
  unfold execTokenAvailable
  repeat' (first | with_reducible assumption | (simp only [keeps_mk, Cellar.allocBlock_mem, Cellar.freeBlock_mem, Cellar.freeBlocks_mem, Cellar.dropStaging_mem, Cellar.replaceStaging_mem, Hearth.runs]; with_reducible refine Keeps.parts ?_) | with_reducible apply KeepsOut.next | (intro x; refine Keeps.cut (r := r0) (s := x) ?_ ?_; unfold x; rotate_left; clear_value x; intro _) | intro _ | lift_lets -underBinder | with_reducible apply State.reach_keeps | with_reducible apply State.requestsGo_keeps | split)

theorem execLoadIndexUpdate_keeps {r0 : State} (s : State) (hk : Keeps r0 s) : KeepsOut r0 (execLoadIndexUpdate s) := by
  unfold execLoadIndexUpdate
  repeat' (first | with_reducible assumption | (simp only [keeps_mk, Cellar.allocBlock_mem, Cellar.freeBlock_mem, Cellar.freeBlocks_mem, Cellar.dropStaging_mem, Cellar.replaceStaging_mem, Hearth.runs]; with_reducible refine Keeps.parts ?_) | with_reducible apply KeepsOut.next | (intro x; refine Keeps.cut (r := r0) (s := x) ?_ ?_; unfold x; rotate_left; clear_value x; intro _) | intro _ | lift_lets -underBinder | split | (simp only [keeps_mk, Cellar.allocBlock_mem, Cellar.freeBlock_mem, Cellar.freeBlocks_mem, Cellar.dropStaging_mem, Cellar.replaceStaging_mem, Hearth.runs]; with_reducible refine Keeps.partsMem ?_ (fun w => by first | exact w | exact Cellar.scrub_wf w | exact Cellar.putUnits_wf w | exact Cellar.maskUnit_wf ‹_› w | (exact Cellar.scrub_wf (by simpa using w)) | simp [Memory.wf])) | (simp only [keeps_mk, Cellar.allocBlock_mem, Cellar.freeBlock_mem, Cellar.freeBlocks_mem, Cellar.dropStaging_mem, Cellar.replaceStaging_mem, Hearth.runs]; with_reducible refine Keeps.partsTo ?_ (by simp) (fun w => by first | exact w | exact Cellar.scrub_wf w | exact Cellar.putUnits_wf w | exact Cellar.maskUnit_wf ‹_› w | (exact Cellar.scrub_wf (by simpa using w)) | simp [Memory.wf])))

theorem State.blockedReq_keeps {r0 : State} (s : State) (h : Nat) (c : Option HostCpl) (hk : Keeps r0 s) : Keeps r0 (State.blockedReq s h c) := by
  unfold State.blockedReq
  repeat' (first | with_reducible assumption | (simp only [keeps_mk, Cellar.allocBlock_mem, Cellar.freeBlock_mem, Cellar.freeBlocks_mem, Cellar.dropStaging_mem, Cellar.replaceStaging_mem, Hearth.runs]; with_reducible refine Keeps.parts ?_) | (intro x; refine Keeps.cut (r := r0) (s := x) ?_ ?_; unfold x; rotate_left; clear_value x; intro _) | intro _ | lift_lets -underBinder | with_reducible apply State.modHost_keeps | split)

theorem execCxlMemRead_keeps {r0 : State} (host : Fin 16) (addr : BitVec 31) (ecc : Option Nat) (s : State) (hk : Keeps r0 s) : KeepsOut r0 (execCxlMemRead host addr ecc s) := by
  unfold execCxlMemRead
  repeat' (first | with_reducible assumption | with_reducible apply KeepsOut.next | (intro x; refine Keeps.cut (r := r0) (s := x) ?_ ?_; unfold x; rotate_left; clear_value x; intro _) | intro _ | lift_lets -underBinder | with_reducible apply State.hostIn_keeps | with_reducible apply State.cellarReq_keeps | with_reducible apply State.blockedReq_keeps | split)

theorem execCxlMemWrite_keeps {r0 : State} (host : Fin 16) (addr : BitVec 31) (data : List Byte) (enables : List Bool) (ecc : Option Nat) (s : State) (hk : Keeps r0 s) : KeepsOut r0 (execCxlMemWrite host addr data enables ecc s) := by
  unfold execCxlMemWrite
  repeat' (first | with_reducible assumption | with_reducible apply KeepsOut.next | (intro x; refine Keeps.cut (r := r0) (s := x) ?_ ?_; unfold x; rotate_left; clear_value x; intro _) | intro _ | lift_lets -underBinder | with_reducible apply State.hostIn_keeps | with_reducible apply State.cellarReq_keeps | with_reducible apply State.blockedReq_keeps | split)

theorem State.bar2Refused_keeps {r0 : State} (s : State) (h : Nat) (read : Bool) (count : Bool) (hk : Keeps r0 s) : Keeps r0 (State.bar2Refused s h read count) := by
  unfold State.bar2Refused
  repeat' (first | with_reducible assumption | (simp only [keeps_mk, Cellar.allocBlock_mem, Cellar.freeBlock_mem, Cellar.freeBlocks_mem, Cellar.dropStaging_mem, Cellar.replaceStaging_mem, Hearth.runs]; with_reducible refine Keeps.parts ?_) | (intro x; refine Keeps.cut (r := r0) (s := x) ?_ ?_; unfold x; rotate_left; clear_value x; intro _) | intro _ | lift_lets -underBinder | with_reducible apply State.modHost_keeps | split)

theorem execBar2Access_keeps {r0 : State} (host : Fin 16) (addr : BitVec 31) (len : Nat) (write : Option (List Byte)) (atomic : Bool) (ecc : Option Nat) (s : State) (hk : Keeps r0 s) : KeepsOut r0 (execBar2Access host addr len write atomic ecc s) := by
  unfold execBar2Access
  repeat' (first | with_reducible assumption | (simp only [keeps_mk, Cellar.allocBlock_mem, Cellar.freeBlock_mem, Cellar.freeBlocks_mem, Cellar.dropStaging_mem, Cellar.replaceStaging_mem, Hearth.runs]; with_reducible refine Keeps.parts ?_) | with_reducible apply KeepsOut.next | (intro x; refine Keeps.cut (r := r0) (s := x) ?_ ?_; unfold x; rotate_left; clear_value x; intro _) | intro _ | lift_lets -underBinder | with_reducible apply State.hostIn_keeps | with_reducible apply State.cellarReq_keeps | with_reducible apply State.blockedReq_keeps | with_reducible apply State.bar2Refused_keeps | split | (simp only [keeps_mk, Cellar.allocBlock_mem, Cellar.freeBlock_mem, Cellar.freeBlocks_mem, Cellar.dropStaging_mem, Cellar.replaceStaging_mem, Hearth.runs]; with_reducible refine Keeps.partsMem ?_ (fun w => by first | exact w | exact Cellar.scrub_wf w | exact Cellar.putUnits_wf w | exact Cellar.maskUnit_wf ‹_› w | (exact Cellar.scrub_wf (by simpa using w)) | simp [Memory.wf])) | (simp only [keeps_mk, Cellar.allocBlock_mem, Cellar.freeBlock_mem, Cellar.freeBlocks_mem, Cellar.dropStaging_mem, Cellar.replaceStaging_mem, Hearth.runs]; with_reducible refine Keeps.partsTo ?_ (by simp) (fun w => by first | exact w | exact Cellar.scrub_wf w | exact Cellar.putUnits_wf w | exact Cellar.maskUnit_wf ‹_› w | (exact Cellar.scrub_wf (by simpa using w)) | simp [Memory.wf])))

theorem execGetDynamicCapacityConfiguration_keeps {r0 : State} (host : Fin 16) (s : State) (hk : Keeps r0 s) : KeepsOut r0 (execGetDynamicCapacityConfiguration host s) := by
  unfold execGetDynamicCapacityConfiguration
  repeat' (first | with_reducible assumption | with_reducible apply KeepsOut.next | (intro x; refine Keeps.cut (r := r0) (s := x) ?_ ?_; unfold x; rotate_left; clear_value x; intro _) | intro _ | lift_lets -underBinder | with_reducible apply State.hostIn_keeps | with_reducible apply State.answer_keeps | split)

theorem execGetDynamicCapacityExtentList_keeps {r0 : State} (host : Fin 16) (s : State) (hk : Keeps r0 s) : KeepsOut r0 (execGetDynamicCapacityExtentList host s) := by
  unfold execGetDynamicCapacityExtentList
  repeat' (first | with_reducible assumption | with_reducible apply KeepsOut.next | (intro x; refine Keeps.cut (r := r0) (s := x) ?_ ?_; unfold x; rotate_left; clear_value x; intro _) | intro _ | lift_lets -underBinder | with_reducible apply State.hostIn_keeps | with_reducible apply State.answer_keeps | split)

theorem execAddDynamicCapacityResponse_keeps {r0 : State} (host : Fin 16) (slots : List Nat) (s : State) (hk : Keeps r0 s) : KeepsOut r0 (execAddDynamicCapacityResponse host slots s) := by
  unfold execAddDynamicCapacityResponse
  repeat' (first | with_reducible assumption | (simp only [keeps_mk, Cellar.allocBlock_mem, Cellar.freeBlock_mem, Cellar.freeBlocks_mem, Cellar.dropStaging_mem, Cellar.replaceStaging_mem, Hearth.runs]; with_reducible refine Keeps.parts ?_) | with_reducible apply KeepsOut.next | (intro x; refine Keeps.cut (r := r0) (s := x) ?_ ?_; unfold x; rotate_left; clear_value x; intro _) | intro _ | lift_lets -underBinder | with_reducible apply State.modHost_keeps | with_reducible apply State.hostIn_keeps | with_reducible apply Keeps.foldl | split)

theorem execReleaseDynamicCapacity_keeps {r0 : State} (host : Fin 16) (slots : List Nat) (s : State) (hk : Keeps r0 s) : KeepsOut r0 (execReleaseDynamicCapacity host slots s) := by
  unfold execReleaseDynamicCapacity
  repeat' (first | with_reducible assumption | (simp only [keeps_mk, Cellar.allocBlock_mem, Cellar.freeBlock_mem, Cellar.freeBlocks_mem, Cellar.dropStaging_mem, Cellar.replaceStaging_mem, Hearth.runs]; with_reducible refine Keeps.parts ?_) | with_reducible apply KeepsOut.next | (intro x; refine Keeps.cut (r := r0) (s := x) ?_ ?_; unfold x; rotate_left; clear_value x; intro _) | intro _ | lift_lets -underBinder | with_reducible apply State.modHost_keeps | with_reducible apply State.hostIn_keeps | split)


/-! ## CellarOps -/

theorem State.acceptDone_keeps {r0 : State} (s : State) (a : Accepted) (status : Nat) (detail : Nat) (hk : Keeps r0 s) : Keeps r0 (State.acceptDone s a status detail) := by
  unfold State.acceptDone
  repeat' (first | with_reducible assumption | (simp only [keeps_mk, Cellar.allocBlock_mem, Cellar.freeBlock_mem, Cellar.freeBlocks_mem, Cellar.dropStaging_mem, Cellar.replaceStaging_mem, Hearth.runs]; with_reducible refine Keeps.parts ?_) | (intro x; refine Keeps.cut (r := r0) (s := x) ?_ ?_; unfold x; rotate_left; clear_value x; intro _) | intro _ | lift_lets -underBinder | with_reducible apply State.sendEvent_keeps | split)

theorem State.acceptAll_keeps {r0 : State} (s : State) (p : Accepted → Bool) (status : Nat) (detail : Nat) (hk : Keeps r0 s) : Keeps r0 (State.acceptAll s p status detail) := by
  unfold State.acceptAll
  repeat' (first | with_reducible assumption | (intro x; refine Keeps.cut (r := r0) (s := x) ?_ ?_; unfold x; rotate_left; clear_value x; intro _) | intro _ | lift_lets -underBinder | with_reducible apply overList_keeps | with_reducible apply State.acceptDone_keeps | with_reducible apply Keeps.overList | split)

theorem State.cellarDone_keeps {r0 : State} (s : State) (hk : Keeps r0 s) : Keeps r0 (State.cellarDone s) := by
  unfold State.cellarDone
  repeat' (first | with_reducible assumption | (intro x; refine Keeps.cut (r := r0) (s := x) ?_ ?_; unfold x; rotate_left; clear_value x; intro _) | intro _ | lift_lets -underBinder | with_reducible apply State.acceptAll_keeps | split)

theorem State.capacityCheck_keeps {r0 : State} (s : State) (hk : Keeps r0 s) : Keeps r0 (State.capacityCheck s) := by
  unfold State.capacityCheck
  repeat' (first | with_reducible assumption | (intro x; refine Keeps.cut (r := r0) (s := x) ?_ ?_; unfold x; rotate_left; clear_value x; intro _) | intro _ | lift_lets -underBinder | with_reducible apply State.record_keeps | split)

theorem State.quarantineExt_keeps {r0 : State} (s : State) (e : Nat) (hk : Keeps r0 s) : Keeps r0 (State.quarantineExt s e) := by
  unfold State.quarantineExt
  repeat' (first | with_reducible assumption | (simp only [keeps_mk, Cellar.allocBlock_mem, Cellar.freeBlock_mem, Cellar.freeBlocks_mem, Cellar.dropStaging_mem, Cellar.replaceStaging_mem, Hearth.runs]; with_reducible refine Keeps.parts ?_) | (intro x; refine Keeps.cut (r := r0) (s := x) ?_ ?_; unfold x; rotate_left; clear_value x; intro _) | intro _ | lift_lets -underBinder | with_reducible apply State.modExt_keeps | with_reducible apply State.record_keeps | with_reducible apply State.cellsGo_keeps | with_reducible apply State.capacityCheck_keeps | split)

theorem State.scrubStarts_keeps {r0 : State} (s : State) (hk : Keeps r0 s) : Keeps r0 (State.scrubStarts s) := by
  unfold State.scrubStarts
  repeat' (first | with_reducible assumption | (simp only [keeps_mk, Cellar.allocBlock_mem, Cellar.freeBlock_mem, Cellar.freeBlocks_mem, Cellar.dropStaging_mem, Cellar.replaceStaging_mem, Hearth.runs]; with_reducible refine Keeps.parts ?_) | (intro x; refine Keeps.cut (r := r0) (s := x) ?_ ?_; unfold x; rotate_left; clear_value x; intro _) | intro _ | lift_lets -underBinder | with_reducible apply State.modExt_keeps | with_reducible apply overList_keeps | with_reducible apply State.cellsGo_keeps | with_reducible apply Keeps.overList | split | (simp only [keeps_mk, Cellar.allocBlock_mem, Cellar.freeBlock_mem, Cellar.freeBlocks_mem, Cellar.dropStaging_mem, Cellar.replaceStaging_mem, Hearth.runs]; with_reducible refine Keeps.partsMem ?_ (fun w => by first | exact w | exact Cellar.scrub_wf w | exact Cellar.putUnits_wf w | exact Cellar.maskUnit_wf ‹_› w | (exact Cellar.scrub_wf (by simpa using w)) | simp [Memory.wf])) | (simp only [keeps_mk, Cellar.allocBlock_mem, Cellar.freeBlock_mem, Cellar.freeBlocks_mem, Cellar.dropStaging_mem, Cellar.replaceStaging_mem, Hearth.runs]; with_reducible refine Keeps.partsTo ?_ (by simp) (fun w => by first | exact w | exact Cellar.scrub_wf w | exact Cellar.putUnits_wf w | exact Cellar.maskUnit_wf ‹_› w | (exact Cellar.scrub_wf (by simpa using w)) | simp [Memory.wf])))

theorem State.queueScrub_keeps {r0 : State} (s : State) (es : List Nat) (hk : Keeps r0 s) : Keeps r0 (State.queueScrub s es) := by
  unfold State.queueScrub
  repeat' (first | with_reducible assumption | (simp only [keeps_mk, Cellar.allocBlock_mem, Cellar.freeBlock_mem, Cellar.freeBlocks_mem, Cellar.dropStaging_mem, Cellar.replaceStaging_mem, Hearth.runs]; with_reducible refine Keeps.parts ?_) | (intro x; refine Keeps.cut (r := r0) (s := x) ?_ ?_; unfold x; rotate_left; clear_value x; intro _) | intro _ | lift_lets -underBinder | with_reducible apply State.scrubStarts_keeps | split | (simp only [keeps_mk, Cellar.allocBlock_mem, Cellar.freeBlock_mem, Cellar.freeBlocks_mem, Cellar.dropStaging_mem, Cellar.replaceStaging_mem, Hearth.runs]; with_reducible refine Keeps.partsMem ?_ (fun w => by first | exact w | exact Cellar.scrub_wf w | exact Cellar.putUnits_wf w | exact Cellar.maskUnit_wf ‹_› w | (exact Cellar.scrub_wf (by simpa using w)) | simp [Memory.wf])) | (simp only [keeps_mk, Cellar.allocBlock_mem, Cellar.freeBlock_mem, Cellar.freeBlocks_mem, Cellar.dropStaging_mem, Cellar.replaceStaging_mem, Hearth.runs]; with_reducible refine Keeps.partsTo ?_ (by simp) (fun w => by first | exact w | exact Cellar.scrub_wf w | exact Cellar.putUnits_wf w | exact Cellar.maskUnit_wf ‹_› w | (exact Cellar.scrub_wf (by simpa using w)) | simp [Memory.wf])))

theorem State.unmapAll_keeps {r0 : State} (s : State) (e : Nat) (hk : Keeps r0 s) : Keeps r0 (State.unmapAll s e) := by
  unfold State.unmapAll
  repeat' (first | with_reducible assumption | (simp only [keeps_mk, Cellar.allocBlock_mem, Cellar.freeBlock_mem, Cellar.freeBlocks_mem, Cellar.dropStaging_mem, Cellar.replaceStaging_mem, Hearth.runs]; with_reducible refine Keeps.parts ?_) | (intro x; refine Keeps.cut (r := r0) (s := x) ?_ ?_; unfold x; rotate_left; clear_value x; intro _) | intro _ | lift_lets -underBinder | split)

theorem State.failWhere_keeps {r0 : State} (s : State) (p : Nat → Flight → Bool) (status : Nat) (detail : Nat) (hk : Keeps r0 s) : Keeps r0 (State.failWhere s p status detail) := by
  unfold State.failWhere
  repeat' (first | with_reducible assumption | (intro x; refine Keeps.cut (r := r0) (s := x) ?_ ?_; unfold x; rotate_left; clear_value x; intro _) | intro _ | lift_lets -underBinder | with_reducible apply overList_keeps | with_reducible apply State.failFlight_keeps | with_reducible apply Keeps.overList | split)

theorem State.reclaimOne_keeps {r0 : State} (cause : Nat) (s : State) (e : Nat) (hk : Keeps r0 s) : Keeps r0 (State.reclaimOne cause s e) := by
  unfold State.reclaimOne
  repeat' (first | with_reducible assumption | (simp only [keeps_mk, Cellar.allocBlock_mem, Cellar.freeBlock_mem, Cellar.freeBlocks_mem, Cellar.dropStaging_mem, Cellar.replaceStaging_mem, Hearth.runs]; with_reducible refine Keeps.parts ?_) | (intro x; refine Keeps.cut (r := r0) (s := x) ?_ ?_; unfold x; rotate_left; clear_value x; intro _) | intro _ | lift_lets -underBinder | with_reducible apply State.modExt_keeps | with_reducible apply State.msix_keeps | with_reducible apply State.cellsGo_keeps | with_reducible apply State.unmapAll_keeps | with_reducible apply State.failWhere_keeps | split | (dsimp +zetaDelta only))

theorem State.reclaim_keeps {r0 : State} (s : State) (cause : Nat) (es : List Nat) (hk : Keeps r0 s) : Keeps r0 (State.reclaim s cause es) := by
  unfold State.reclaim
  repeat' (first | with_reducible assumption | (intro x; refine Keeps.cut (r := r0) (s := x) ?_ ?_; unfold x; rotate_left; clear_value x; intro _) | intro _ | lift_lets -underBinder | with_reducible apply overList_keeps | with_reducible apply State.settleAll_keeps | with_reducible apply State.queueScrub_keeps | with_reducible apply State.reclaimOne_keeps | with_reducible apply Keeps.overList | split)

theorem State.replaceStaging_keeps {r0 : State} (s : State) (e : Nat) (hk : Keeps r0 s) : Keeps r0 (State.replaceStaging s e) := by
  unfold State.replaceStaging
  repeat' (first | with_reducible assumption | (simp only [keeps_mk, Cellar.allocBlock_mem, Cellar.freeBlock_mem, Cellar.freeBlocks_mem, Cellar.dropStaging_mem, Cellar.replaceStaging_mem, Hearth.runs]; with_reducible refine Keeps.parts ?_) | (intro x; refine Keeps.cut (r := r0) (s := x) ?_ ?_; unfold x; rotate_left; clear_value x; intro _) | intro _ | lift_lets -underBinder | with_reducible apply State.modExt_keeps | with_reducible apply State.queueScrub_keeps | split | (simp only [keeps_mk, Cellar.allocBlock_mem, Cellar.freeBlock_mem, Cellar.freeBlocks_mem, Cellar.dropStaging_mem, Cellar.replaceStaging_mem, Hearth.runs]; with_reducible refine Keeps.partsMem ?_ (fun w => by first | exact w | exact Cellar.scrub_wf w | exact Cellar.putUnits_wf w | exact Cellar.maskUnit_wf ‹_› w | (exact Cellar.scrub_wf (by simpa using w)) | simp [Memory.wf])) | (simp only [keeps_mk, Cellar.allocBlock_mem, Cellar.freeBlock_mem, Cellar.freeBlocks_mem, Cellar.dropStaging_mem, Cellar.replaceStaging_mem, Hearth.runs]; with_reducible refine Keeps.partsTo ?_ (by simp) (fun w => by first | exact w | exact Cellar.scrub_wf w | exact Cellar.putUnits_wf w | exact Cellar.maskUnit_wf ‹_› w | (exact Cellar.scrub_wf (by simpa using w)) | simp [Memory.wf])))

theorem State.stagingLost_keeps {r0 : State} (s : State) (e : Nat) (hk : Keeps r0 s) : Keeps r0 (State.stagingLost s e) := by
  unfold State.stagingLost
  repeat' (first | with_reducible assumption | (simp only [keeps_mk, Cellar.allocBlock_mem, Cellar.freeBlock_mem, Cellar.freeBlocks_mem, Cellar.dropStaging_mem, Cellar.replaceStaging_mem, Hearth.runs]; with_reducible refine Keeps.parts ?_) | (intro x; refine Keeps.cut (r := r0) (s := x) ?_ ?_; unfold x; rotate_left; clear_value x; intro _) | intro _ | lift_lets -underBinder | with_reducible apply State.settleAll_keeps | with_reducible apply State.quarantineExt_keeps | with_reducible apply State.failWhere_keeps | with_reducible apply State.replaceStaging_keeps | with_reducible apply Keeps.foldl | split | (simp only [keeps_mk, Cellar.allocBlock_mem, Cellar.freeBlock_mem, Cellar.freeBlocks_mem, Cellar.dropStaging_mem, Cellar.replaceStaging_mem, Hearth.runs]; with_reducible refine Keeps.partsMem ?_ (fun w => by first | exact w | exact Cellar.scrub_wf w | exact Cellar.putUnits_wf w | exact Cellar.maskUnit_wf ‹_› w | (exact Cellar.scrub_wf (by simpa using w)) | simp [Memory.wf])) | (simp only [keeps_mk, Cellar.allocBlock_mem, Cellar.freeBlock_mem, Cellar.freeBlocks_mem, Cellar.dropStaging_mem, Cellar.replaceStaging_mem, Hearth.runs]; with_reducible refine Keeps.partsTo ?_ (by simp) (fun w => by first | exact w | exact Cellar.scrub_wf w | exact Cellar.putUnits_wf w | exact Cellar.maskUnit_wf ‹_› w | (exact Cellar.scrub_wf (by simpa using w)) | simp [Memory.wf])))


/-! ## SyncCounter -/

theorem State.syncPick_keeps {r0 : State} (s : State) (hk : Keeps r0 s) : Keeps r0 (State.syncPick s) := by
  unfold State.syncPick
  repeat' (first | with_reducible assumption | (simp only [keeps_mk, Cellar.allocBlock_mem, Cellar.freeBlock_mem, Cellar.freeBlocks_mem, Cellar.dropStaging_mem, Cellar.replaceStaging_mem, Hearth.runs]; with_reducible refine Keeps.parts ?_) | (intro x; refine Keeps.cut (r := r0) (s := x) ?_ ?_; unfold x; rotate_left; clear_value x; intro _) | intro _ | lift_lets -underBinder | split)

theorem State.syncPortDown_keeps {r0 : State} (s : State) (p : Nat) (hk : Keeps r0 s) : Keeps r0 (State.syncPortDown s p) := by
  unfold State.syncPortDown
  repeat' (first | with_reducible assumption | (simp only [keeps_mk, Cellar.allocBlock_mem, Cellar.freeBlock_mem, Cellar.freeBlocks_mem, Cellar.dropStaging_mem, Cellar.replaceStaging_mem, Hearth.runs]; with_reducible refine Keeps.parts ?_) | (intro x; refine Keeps.cut (r := r0) (s := x) ?_ ?_; unfold x; rotate_left; clear_value x; intro _) | intro _ | lift_lets -underBinder | with_reducible apply State.modPort_keeps | with_reducible apply State.syncPick_keeps | split)

theorem State.sendSync_keeps {r0 : State} (s : State) (p : Nat) (reply : Bool) (q : Nat) (t1 : Nat) (t2 : Nat) (t3 : Nat) (hk : Keeps r0 s) : Keeps r0 (State.sendSync s p reply q t1 t2 t3) := by
  unfold State.sendSync
  repeat' (first | with_reducible assumption | (intro x; refine Keeps.cut (r := r0) (s := x) ?_ ?_; unfold x; rotate_left; clear_value x; intro _) | intro _ | lift_lets -underBinder | with_reducible apply State.sendCtl_keeps | split)

theorem State.askSync_keeps {r0 : State} (s : State) (p : Nat) (hk : Keeps r0 s) : Keeps r0 (State.askSync s p) := by
  unfold State.askSync
  repeat' (first | with_reducible assumption | (simp only [keeps_mk, Cellar.allocBlock_mem, Cellar.freeBlock_mem, Cellar.freeBlocks_mem, Cellar.dropStaging_mem, Cellar.replaceStaging_mem, Hearth.runs]; with_reducible refine Keeps.parts ?_) | (intro x; refine Keeps.cut (r := r0) (s := x) ?_ ?_; unfold x; rotate_left; clear_value x; intro _) | intro _ | lift_lets -underBinder | with_reducible apply State.sendSync_keeps | split)

theorem execSyncExchangeTimer_keeps {r0 : State} (s : State) (hk : Keeps r0 s) : KeepsOut r0 (execSyncExchangeTimer s) := by
  unfold execSyncExchangeTimer
  repeat' (first | with_reducible assumption | (simp only [keeps_mk, Cellar.allocBlock_mem, Cellar.freeBlock_mem, Cellar.freeBlocks_mem, Cellar.dropStaging_mem, Cellar.replaceStaging_mem, Hearth.runs]; with_reducible refine Keeps.parts ?_) | with_reducible apply KeepsOut.next | (intro x; refine Keeps.cut (r := r0) (s := x) ?_ ?_; unfold x; rotate_left; clear_value x; intro _) | intro _ | lift_lets -underBinder | with_reducible apply overList_keeps | with_reducible apply State.askSync_keeps | with_reducible apply Keeps.overList | split)

theorem State.judgeOffset_keeps {r0 : State} (s : State) (p : Nat) (offset2 : Int) (hk : Keeps r0 s) : Keeps r0 (State.judgeOffset s p offset2) := by
  unfold State.judgeOffset
  repeat' (first | with_reducible assumption | (simp only [keeps_mk, Cellar.allocBlock_mem, Cellar.freeBlock_mem, Cellar.freeBlocks_mem, Cellar.dropStaging_mem, Cellar.replaceStaging_mem, Hearth.runs]; with_reducible refine Keeps.parts ?_) | (intro x; refine Keeps.cut (r := r0) (s := x) ?_ ?_; unfold x; rotate_left; clear_value x; intro _) | intro _ | lift_lets -underBinder | with_reducible apply State.record_keeps | split)

theorem execSyncExchange_keeps {r0 : State} (port : Fin 36) (flit : List Byte) (s : State) (hk : Keeps r0 s) : KeepsOut r0 (execSyncExchange port flit s) := by
  unfold execSyncExchange
  repeat' (first | with_reducible assumption | (simp only [keeps_mk, Cellar.allocBlock_mem, Cellar.freeBlock_mem, Cellar.freeBlocks_mem, Cellar.dropStaging_mem, Cellar.replaceStaging_mem, Hearth.runs]; with_reducible refine Keeps.parts ?_) | with_reducible apply KeepsOut.next | (intro x; refine Keeps.cut (r := r0) (s := x) ?_ ?_; unfold x; rotate_left; clear_value x; intro _) | intro _ | lift_lets -underBinder | with_reducible apply State.modPort_keeps | with_reducible apply State.countPort_keeps | with_reducible apply State.badControl_keeps | with_reducible apply State.syncPick_keeps | with_reducible apply State.sendSync_keeps | with_reducible apply State.judgeOffset_keeps | split | (dsimp +zetaDelta only))

theorem execEpochPulse_keeps {r0 : State} (s : State) (hk : Keeps r0 s) : KeepsOut r0 (execEpochPulse s) := by
  unfold execEpochPulse
  repeat' (first | with_reducible assumption | (simp only [keeps_mk, Cellar.allocBlock_mem, Cellar.freeBlock_mem, Cellar.freeBlocks_mem, Cellar.dropStaging_mem, Cellar.replaceStaging_mem, Hearth.runs]; with_reducible refine Keeps.parts ?_) | with_reducible apply KeepsOut.next | (intro x; refine Keeps.cut (r := r0) (s := x) ?_ ?_; unfold x; rotate_left; clear_value x; intro _) | intro _ | lift_lets -underBinder | with_reducible apply State.reach_keeps | split | (simp only [keeps_mk, Cellar.allocBlock_mem, Cellar.freeBlock_mem, Cellar.freeBlocks_mem, Cellar.dropStaging_mem, Cellar.replaceStaging_mem, Hearth.runs]; with_reducible refine Keeps.partsMem ?_ (fun w => by first | exact w | exact Cellar.scrub_wf w | exact Cellar.putUnits_wf w | exact Cellar.maskUnit_wf ‹_› w | (exact Cellar.scrub_wf (by simpa using w)) | simp [Memory.wf])) | (simp only [keeps_mk, Cellar.allocBlock_mem, Cellar.freeBlock_mem, Cellar.freeBlocks_mem, Cellar.dropStaging_mem, Cellar.replaceStaging_mem, Hearth.runs]; with_reducible refine Keeps.partsTo ?_ (by simp) (fun w => by first | exact w | exact Cellar.scrub_wf w | exact Cellar.putUnits_wf w | exact Cellar.maskUnit_wf ‹_› w | (exact Cellar.scrub_wf (by simpa using w)) | simp [Memory.wf])))

theorem execSyncInEpochEdge_keeps {r0 : State} (s : State) (hk : Keeps r0 s) : KeepsOut r0 (execSyncInEpochEdge s) := by
  unfold execSyncInEpochEdge
  repeat' (first | with_reducible assumption | (simp only [keeps_mk, Cellar.allocBlock_mem, Cellar.freeBlock_mem, Cellar.freeBlocks_mem, Cellar.dropStaging_mem, Cellar.replaceStaging_mem, Hearth.runs]; with_reducible refine Keeps.parts ?_) | with_reducible apply KeepsOut.next | (intro x; refine Keeps.cut (r := r0) (s := x) ?_ ?_; unfold x; rotate_left; clear_value x; intro _) | intro _ | lift_lets -underBinder | split | (simp only [keeps_mk, Cellar.allocBlock_mem, Cellar.freeBlock_mem, Cellar.freeBlocks_mem, Cellar.dropStaging_mem, Cellar.replaceStaging_mem, Hearth.runs]; with_reducible refine Keeps.partsMem ?_ (fun w => by first | exact w | exact Cellar.scrub_wf w | exact Cellar.putUnits_wf w | exact Cellar.maskUnit_wf ‹_› w | (exact Cellar.scrub_wf (by simpa using w)) | simp [Memory.wf])) | (simp only [keeps_mk, Cellar.allocBlock_mem, Cellar.freeBlock_mem, Cellar.freeBlocks_mem, Cellar.dropStaging_mem, Cellar.replaceStaging_mem, Hearth.runs]; with_reducible refine Keeps.partsTo ?_ (by simp) (fun w => by first | exact w | exact Cellar.scrub_wf w | exact Cellar.putUnits_wf w | exact Cellar.maskUnit_wf ‹_› w | (exact Cellar.scrub_wf (by simpa using w)) | simp [Memory.wf])))

theorem execSyncInWireEdge_keeps {r0 : State} (s : State) (hk : Keeps r0 s) : KeepsOut r0 (execSyncInWireEdge s) := by
  unfold execSyncInWireEdge
  repeat' (first | with_reducible assumption | (simp only [keeps_mk, Cellar.allocBlock_mem, Cellar.freeBlock_mem, Cellar.freeBlocks_mem, Cellar.dropStaging_mem, Cellar.replaceStaging_mem, Hearth.runs]; with_reducible refine Keeps.parts ?_) | with_reducible apply KeepsOut.next | (intro x; refine Keeps.cut (r := r0) (s := x) ?_ ?_; unfold x; rotate_left; clear_value x; intro _) | intro _ | lift_lets -underBinder | split | (simp only [keeps_mk, Cellar.allocBlock_mem, Cellar.freeBlock_mem, Cellar.freeBlocks_mem, Cellar.dropStaging_mem, Cellar.replaceStaging_mem, Hearth.runs]; with_reducible refine Keeps.partsMem ?_ (fun w => by first | exact w | exact Cellar.scrub_wf w | exact Cellar.putUnits_wf w | exact Cellar.maskUnit_wf ‹_› w | (exact Cellar.scrub_wf (by simpa using w)) | simp [Memory.wf])) | (simp only [keeps_mk, Cellar.allocBlock_mem, Cellar.freeBlock_mem, Cellar.freeBlocks_mem, Cellar.dropStaging_mem, Cellar.replaceStaging_mem, Hearth.runs]; with_reducible refine Keeps.partsTo ?_ (by simp) (fun w => by first | exact w | exact Cellar.scrub_wf w | exact Cellar.putUnits_wf w | exact Cellar.maskUnit_wf ‹_› w | (exact Cellar.scrub_wf (by simpa using w)) | simp [Memory.wf])))

theorem execWireBarrierComplete_keeps {r0 : State} (s : State) (hk : Keeps r0 s) : KeepsOut r0 (execWireBarrierComplete s) := by
  unfold execWireBarrierComplete
  repeat' (first | with_reducible assumption | (simp only [keeps_mk, Cellar.allocBlock_mem, Cellar.freeBlock_mem, Cellar.freeBlocks_mem, Cellar.dropStaging_mem, Cellar.replaceStaging_mem, Hearth.runs]; with_reducible refine Keeps.parts ?_) | with_reducible apply KeepsOut.next | (intro x; refine Keeps.cut (r := r0) (s := x) ?_ ?_; unfold x; rotate_left; clear_value x; intro _) | intro _ | lift_lets -underBinder | with_reducible apply State.endFlight_keeps | with_reducible apply State.settle_keeps | with_reducible apply State.reach_keeps | split)


/-! ## Census -/

theorem State.censusReply_keeps {r0 : State} (s : State) (hk : Keeps r0 s) : Keeps r0 (State.censusReply s) := by
  unfold State.censusReply
  repeat' (first | with_reducible assumption | (simp only [keeps_mk, Cellar.allocBlock_mem, Cellar.freeBlock_mem, Cellar.freeBlocks_mem, Cellar.dropStaging_mem, Cellar.replaceStaging_mem, Hearth.runs]; with_reducible refine Keeps.parts ?_) | (intro x; refine Keeps.cut (r := r0) (s := x) ?_ ?_; unfold x; rotate_left; clear_value x; intro _) | intro _ | lift_lets -underBinder | with_reducible apply overList_keeps | with_reducible apply State.sendEvent_keeps | with_reducible apply State.queue_keeps | with_reducible apply Keeps.overList | split)

theorem State.censusTry_keeps {r0 : State} (s : State) (hk : Keeps r0 s) : Keeps r0 (State.censusTry s) := by
  unfold State.censusTry
  repeat' (first | with_reducible assumption | (intro x; refine Keeps.cut (r := r0) (s := x) ?_ ?_; unfold x; rotate_left; clear_value x; intro _) | intro _ | lift_lets -underBinder | with_reducible apply State.censusReply_keeps | split)

theorem State.joinCensus_keeps {r0 : State} (s : State) (e : Word64) (originId : Nat) (parent : Option Nat) (hk : Keeps r0 s) : Keeps r0 (State.joinCensus s e originId parent) := by
  unfold State.joinCensus
  repeat' (first | with_reducible assumption | (simp only [keeps_mk, Cellar.allocBlock_mem, Cellar.freeBlock_mem, Cellar.freeBlocks_mem, Cellar.dropStaging_mem, Cellar.replaceStaging_mem, Hearth.runs]; with_reducible refine Keeps.parts ?_) | (intro x; refine Keeps.cut (r := r0) (s := x) ?_ ?_; unfold x; rotate_left; clear_value x; intro _) | intro _ | lift_lets -underBinder | with_reducible apply overList_keeps | with_reducible apply State.sendCtl_keeps | with_reducible apply State.censusTry_keeps | with_reducible apply Keeps.overList | split)

theorem State.censusIn_keeps {r0 : State} (s : State) (p : Nat) (type : Nat) (f : List Byte) (hk : Keeps r0 s) : Keeps r0 (State.censusIn s p type f).1 := by
  unfold State.censusIn
  repeat' (first | with_reducible assumption | (simp only [keeps_mk, Cellar.allocBlock_mem, Cellar.freeBlock_mem, Cellar.freeBlocks_mem, Cellar.dropStaging_mem, Cellar.replaceStaging_mem, Hearth.runs]; with_reducible refine Keeps.parts ?_) | (intro x; refine Keeps.cut (r := r0) (s := x) ?_ ?_; unfold x; rotate_left; clear_value x; intro _) | intro _ | lift_lets -underBinder | with_reducible apply State.returnCredits_keeps | with_reducible apply State.preReady_keeps | with_reducible apply State.badControl_keeps | split | (simp only [keeps_mk, Cellar.allocBlock_mem, Cellar.freeBlock_mem, Cellar.freeBlocks_mem, Cellar.dropStaging_mem, Cellar.replaceStaging_mem, Hearth.runs]; with_reducible refine Keeps.partsMem ?_ (fun w => by first | exact w | exact Cellar.scrub_wf w | exact Cellar.putUnits_wf w | exact Cellar.maskUnit_wf ‹_› w | (exact Cellar.scrub_wf (by simpa using w)) | simp [Memory.wf])) | (simp only [keeps_mk, Cellar.allocBlock_mem, Cellar.freeBlock_mem, Cellar.freeBlocks_mem, Cellar.dropStaging_mem, Cellar.replaceStaging_mem, Hearth.runs]; with_reducible refine Keeps.partsTo ?_ (by simp) (fun w => by first | exact w | exact Cellar.scrub_wf w | exact Cellar.putUnits_wf w | exact Cellar.maskUnit_wf ‹_› w | (exact Cellar.scrub_wf (by simpa using w)) | simp [Memory.wf])))

theorem execCensusQuery_keeps {r0 : State} (port : Fin 36) (flit : List Byte) (s : State) (hk : Keeps r0 s) : KeepsOut r0 (execCensusQuery port flit s) := by
  unfold execCensusQuery
  repeat' (first | with_reducible assumption | (simp only [keeps_mk, Cellar.allocBlock_mem, Cellar.freeBlock_mem, Cellar.freeBlocks_mem, Cellar.dropStaging_mem, Cellar.replaceStaging_mem, Hearth.runs]; with_reducible refine Keeps.parts ?_) | with_reducible apply KeepsOut.next | (intro x; refine Keeps.cut (r := r0) (s := x) ?_ ?_; unfold x; rotate_left; clear_value x; intro _) | intro _ | lift_lets -underBinder | with_reducible apply State.sendCtl_keeps | with_reducible apply State.fabricIn_keeps | with_reducible apply State.joinCensus_keeps | with_reducible apply State.censusIn_keeps | split | (simp only [keeps_mk, Cellar.allocBlock_mem, Cellar.freeBlock_mem, Cellar.freeBlocks_mem, Cellar.dropStaging_mem, Cellar.replaceStaging_mem, Hearth.runs]; with_reducible refine Keeps.partsMem ?_ (fun w => by first | exact w | exact Cellar.scrub_wf w | exact Cellar.putUnits_wf w | exact Cellar.maskUnit_wf ‹_› w | (exact Cellar.scrub_wf (by simpa using w)) | simp [Memory.wf])) | (simp only [keeps_mk, Cellar.allocBlock_mem, Cellar.freeBlock_mem, Cellar.freeBlocks_mem, Cellar.dropStaging_mem, Cellar.replaceStaging_mem, Hearth.runs]; with_reducible refine Keeps.partsTo ?_ (by simp) (fun w => by first | exact w | exact Cellar.scrub_wf w | exact Cellar.putUnits_wf w | exact Cellar.maskUnit_wf ‹_› w | (exact Cellar.scrub_wf (by simpa using w)) | simp [Memory.wf])))

theorem State.censusAnswered_keeps {r0 : State} (s : State) (p : Nat) (hk : Keeps r0 s) : Keeps r0 (State.censusAnswered s p) := by
  unfold State.censusAnswered
  repeat' (first | with_reducible assumption | (simp only [keeps_mk, Cellar.allocBlock_mem, Cellar.freeBlock_mem, Cellar.freeBlocks_mem, Cellar.dropStaging_mem, Cellar.replaceStaging_mem, Hearth.runs]; with_reducible refine Keeps.parts ?_) | (intro x; refine Keeps.cut (r := r0) (s := x) ?_ ?_; unfold x; rotate_left; clear_value x; intro _) | intro _ | lift_lets -underBinder | with_reducible apply State.censusTry_keeps | split)

theorem execCensusSeen_keeps {r0 : State} (port : Fin 36) (flit : List Byte) (s : State) (hk : Keeps r0 s) : KeepsOut r0 (execCensusSeen port flit s) := by
  unfold execCensusSeen
  repeat' (first | with_reducible assumption | (simp only [keeps_mk, Cellar.allocBlock_mem, Cellar.freeBlock_mem, Cellar.freeBlocks_mem, Cellar.dropStaging_mem, Cellar.replaceStaging_mem, Hearth.runs]; with_reducible refine Keeps.parts ?_) | with_reducible apply KeepsOut.next | (intro x; refine Keeps.cut (r := r0) (s := x) ?_ ?_; unfold x; rotate_left; clear_value x; intro _) | intro _ | lift_lets -underBinder | with_reducible apply State.fabricIn_keeps | with_reducible apply State.censusIn_keeps | with_reducible apply State.censusAnswered_keeps | split)

theorem execCensusConcurrent_keeps {r0 : State} (port : Fin 36) (flit : List Byte) (s : State) (hk : Keeps r0 s) : KeepsOut r0 (execCensusConcurrent port flit s) := by
  unfold execCensusConcurrent
  repeat' (first | with_reducible assumption | (simp only [keeps_mk, Cellar.allocBlock_mem, Cellar.freeBlock_mem, Cellar.freeBlocks_mem, Cellar.dropStaging_mem, Cellar.replaceStaging_mem, Hearth.runs]; with_reducible refine Keeps.parts ?_) | with_reducible apply KeepsOut.next | (intro x; refine Keeps.cut (r := r0) (s := x) ?_ ?_; unfold x; rotate_left; clear_value x; intro _) | intro _ | lift_lets -underBinder | with_reducible apply State.fabricIn_keeps | with_reducible apply State.censusIn_keeps | split)

theorem execCensusSubtreeReply_keeps {r0 : State} (port : Fin 36) (flits : List (List Byte)) (s : State) (hk : Keeps r0 s) : KeepsOut r0 (execCensusSubtreeReply port flits s) := by
  unfold execCensusSubtreeReply
  repeat' (first | with_reducible assumption | (simp only [keeps_mk, Cellar.allocBlock_mem, Cellar.freeBlock_mem, Cellar.freeBlocks_mem, Cellar.dropStaging_mem, Cellar.replaceStaging_mem, Hearth.runs]; with_reducible refine Keeps.parts ?_) | with_reducible apply KeepsOut.next | (intro x; refine Keeps.cut (r := r0) (s := x) ?_ ?_; unfold x; rotate_left; clear_value x; intro _) | intro _ | lift_lets -underBinder | with_reducible apply State.fabricIn_keeps | with_reducible apply State.returnCredits_keeps | with_reducible apply State.preReady_keeps | with_reducible apply State.badControl_keeps | with_reducible apply State.censusAnswered_keeps | split | (simp only [keeps_mk, Cellar.allocBlock_mem, Cellar.freeBlock_mem, Cellar.freeBlocks_mem, Cellar.dropStaging_mem, Cellar.replaceStaging_mem, Hearth.runs]; with_reducible refine Keeps.partsMem ?_ (fun w => by first | exact w | exact Cellar.scrub_wf w | exact Cellar.putUnits_wf w | exact Cellar.maskUnit_wf ‹_› w | (exact Cellar.scrub_wf (by simpa using w)) | simp [Memory.wf])) | (simp only [keeps_mk, Cellar.allocBlock_mem, Cellar.freeBlock_mem, Cellar.freeBlocks_mem, Cellar.dropStaging_mem, Cellar.replaceStaging_mem, Hearth.runs]; with_reducible refine Keeps.partsTo ?_ (by simp) (fun w => by first | exact w | exact Cellar.scrub_wf w | exact Cellar.putUnits_wf w | exact Cellar.maskUnit_wf ‹_› w | (exact Cellar.scrub_wf (by simpa using w)) | simp [Memory.wf])))

theorem execCensusReplyTimeout_keeps {r0 : State} (s : State) (hk : Keeps r0 s) : KeepsOut r0 (execCensusReplyTimeout s) := by
  unfold execCensusReplyTimeout
  repeat' (first | with_reducible assumption | (simp only [keeps_mk, Cellar.allocBlock_mem, Cellar.freeBlock_mem, Cellar.freeBlocks_mem, Cellar.dropStaging_mem, Cellar.replaceStaging_mem, Hearth.runs]; with_reducible refine Keeps.parts ?_) | with_reducible apply KeepsOut.next | (intro x; refine Keeps.cut (r := r0) (s := x) ?_ ?_; unfold x; rotate_left; clear_value x; intro _) | intro _ | lift_lets -underBinder | with_reducible apply State.reach_keeps | with_reducible apply State.censusReply_keeps | split)

theorem State.commitTry_keeps {r0 : State} (s : State) (hk : Keeps r0 s) : Keeps r0 (State.commitTry s) := by
  unfold State.commitTry
  repeat' (first | with_reducible assumption | (simp only [keeps_mk, Cellar.allocBlock_mem, Cellar.freeBlock_mem, Cellar.freeBlocks_mem, Cellar.dropStaging_mem, Cellar.replaceStaging_mem, Hearth.runs]; with_reducible refine Keeps.parts ?_) | (intro x; refine Keeps.cut (r := r0) (s := x) ?_ ?_; unfold x; rotate_left; clear_value x; intro _) | intro _ | lift_lets -underBinder | with_reducible apply State.sendCtl_keeps | with_reducible apply State.acceptAll_keeps | split)

theorem State.applyCommit_keeps {r0 : State} (s : State) (hk : Keeps r0 s) : Keeps r0 (State.applyCommit s) := by
  unfold State.applyCommit
  repeat' (first | with_reducible assumption | (simp only [keeps_mk, Cellar.allocBlock_mem, Cellar.freeBlock_mem, Cellar.freeBlocks_mem, Cellar.dropStaging_mem, Cellar.replaceStaging_mem, Hearth.runs]; with_reducible refine Keeps.parts ?_) | (intro x; refine Keeps.cut (r := r0) (s := x) ?_ ?_; unfold x; rotate_left; clear_value x; intro _) | intro _ | lift_lets -underBinder | with_reducible apply overList_keeps | with_reducible apply State.sendCtl_keeps | with_reducible apply State.commitTry_keeps | with_reducible apply Keeps.overList | split)

theorem execCensusCommitMessage_keeps {r0 : State} (port : Fin 36) (flit : List Byte) (s : State) (hk : Keeps r0 s) : KeepsOut r0 (execCensusCommitMessage port flit s) := by
  unfold execCensusCommitMessage
  repeat' (first | with_reducible assumption | with_reducible apply KeepsOut.next | (intro x; refine Keeps.cut (r := r0) (s := x) ?_ ?_; unfold x; rotate_left; clear_value x; intro _) | intro _ | lift_lets -underBinder | with_reducible apply State.fabricIn_keeps | with_reducible apply State.censusIn_keeps | with_reducible apply State.applyCommit_keeps | split)

theorem execCensusCommitDone_keeps {r0 : State} (port : Fin 36) (flit : List Byte) (s : State) (hk : Keeps r0 s) : KeepsOut r0 (execCensusCommitDone port flit s) := by
  unfold execCensusCommitDone
  repeat' (first | with_reducible assumption | (simp only [keeps_mk, Cellar.allocBlock_mem, Cellar.freeBlock_mem, Cellar.freeBlocks_mem, Cellar.dropStaging_mem, Cellar.replaceStaging_mem, Hearth.runs]; with_reducible refine Keeps.parts ?_) | with_reducible apply KeepsOut.next | (intro x; refine Keeps.cut (r := r0) (s := x) ?_ ?_; unfold x; rotate_left; clear_value x; intro _) | intro _ | lift_lets -underBinder | with_reducible apply State.fabricIn_keeps | with_reducible apply State.censusIn_keeps | with_reducible apply State.commitTry_keeps | split)

theorem State.censusPortUp_keeps {r0 : State} (s : State) (hk : Keeps r0 s) : Keeps r0 (State.censusPortUp s) := by
  unfold State.censusPortUp
  repeat' (first | with_reducible assumption | (simp only [keeps_mk, Cellar.allocBlock_mem, Cellar.freeBlock_mem, Cellar.freeBlocks_mem, Cellar.dropStaging_mem, Cellar.replaceStaging_mem, Hearth.runs]; with_reducible refine Keeps.parts ?_) | (intro x; refine Keeps.cut (r := r0) (s := x) ?_ ?_; unfold x; rotate_left; clear_value x; intro _) | intro _ | lift_lets -underBinder | split)

theorem State.censusPortDown_keeps {r0 : State} (s : State) (p : Nat) (hk : Keeps r0 s) : Keeps r0 (State.censusPortDown s p) := by
  unfold State.censusPortDown
  repeat' (first | with_reducible assumption | (simp only [keeps_mk, Cellar.allocBlock_mem, Cellar.freeBlock_mem, Cellar.freeBlocks_mem, Cellar.dropStaging_mem, Cellar.replaceStaging_mem, Hearth.runs]; with_reducible refine Keeps.parts ?_) | (intro x; refine Keeps.cut (r := r0) (s := x) ?_ ?_; unfold x; rotate_left; clear_value x; intro _) | intro _ | lift_lets -underBinder | with_reducible apply State.censusTry_keeps | with_reducible apply State.commitTry_keeps | split)


/-! ## Links -/

theorem State.routesLost_keeps {r0 : State} (s : State) (p : Nat) (hk : Keeps r0 s) : Keeps r0 (State.routesLost s p) := by
  unfold State.routesLost
  repeat' (first | with_reducible assumption | (intro x; refine Keeps.cut (r := r0) (s := x) ?_ ?_; unfold x; rotate_left; clear_value x; intro _) | intro _ | lift_lets -underBinder | with_reducible apply State.modCtx_keeps | with_reducible apply overList_keeps | with_reducible apply State.settleAll_keeps | with_reducible apply State.failWhere_keeps | with_reducible apply Keeps.overList | split)

theorem State.leaveUpAs_keeps {r0 : State} (s : State) (p : Nat) (f : FabPort → FabPort) (hk : Keeps r0 s) : Keeps r0 (State.leaveUpAs s p f) := by
  unfold State.leaveUpAs
  repeat' (first | with_reducible assumption | (simp only [keeps_mk, Cellar.allocBlock_mem, Cellar.freeBlock_mem, Cellar.freeBlocks_mem, Cellar.dropStaging_mem, Cellar.replaceStaging_mem, Hearth.runs]; with_reducible refine Keeps.parts ?_) | (intro x; refine Keeps.cut (r := r0) (s := x) ?_ ?_; unfold x; rotate_left; clear_value x; intro _) | intro _ | lift_lets -underBinder | with_reducible apply State.modPort_keeps | with_reducible apply overList_keeps | with_reducible apply State.dropLane_keeps | with_reducible apply State.loseRings_keeps | with_reducible apply State.syncPortDown_keeps | with_reducible apply State.censusPortDown_keeps | with_reducible apply State.routesLost_keeps | with_reducible apply Keeps.overList | split)

theorem State.leaveUp_keeps {r0 : State} (s : State) (p : Nat) (tgt : PortState) (hk : Keeps r0 s) : Keeps r0 (State.leaveUp s p tgt) := by
  unfold State.leaveUp
  repeat' (first | with_reducible assumption | (intro x; refine Keeps.cut (r := r0) (s := x) ?_ ?_; unfold x; rotate_left; clear_value x; intro _) | intro _ | lift_lets -underBinder | with_reducible apply State.leaveUpAs_keeps | split)

theorem State.downRecord_keeps {r0 : State} (s : State) (p : Nat) (hk : Keeps r0 s) : Keeps r0 (State.downRecord s p) := by
  unfold State.downRecord
  repeat' (first | with_reducible assumption | (simp only [keeps_mk, Cellar.allocBlock_mem, Cellar.freeBlock_mem, Cellar.freeBlocks_mem, Cellar.dropStaging_mem, Cellar.replaceStaging_mem, Hearth.runs]; with_reducible refine Keeps.parts ?_) | (intro x; refine Keeps.cut (r := r0) (s := x) ?_ ?_; unfold x; rotate_left; clear_value x; intro _) | intro _ | lift_lets -underBinder | with_reducible apply State.modPort_keeps | with_reducible apply State.record_keeps | split)

theorem State.portDown_keeps {r0 : State} (s : State) (p : Nat) (hk : Keeps r0 s) : Keeps r0 (State.portDown s p) := by
  unfold State.portDown
  repeat' (first | with_reducible assumption | (intro x; refine Keeps.cut (r := r0) (s := x) ?_ ?_; unfold x; rotate_left; clear_value x; intro _) | intro _ | lift_lets -underBinder | with_reducible apply State.leaveUp_keeps | with_reducible apply State.downRecord_keeps | split)

theorem State.portTo_keeps {r0 : State} (s : State) (p : Nat) (tgt : PortState) (hk : Keeps r0 s) : Keeps r0 (State.portTo s p tgt) := by
  unfold State.portTo
  repeat' (first | with_reducible assumption | (intro x; refine Keeps.cut (r := r0) (s := x) ?_ ?_; unfold x; rotate_left; clear_value x; intro _) | intro _ | lift_lets -underBinder | with_reducible apply State.modPort_keeps | with_reducible apply State.leaveUp_keeps | split)

theorem State.disturbAll_keeps {r0 : State} (s : State) (cs : List Nat) (hk : Keeps r0 s) : Keeps r0 (State.disturbAll s cs) := by
  unfold State.disturbAll
  repeat' (first | with_reducible assumption | (intro x; refine Keeps.cut (r := r0) (s := x) ?_ ?_; unfold x; rotate_left; clear_value x; intro _) | intro _ | lift_lets -underBinder | with_reducible apply overList_keeps | with_reducible apply State.disturb_keeps | with_reducible apply Keeps.overList | split)

theorem State.replay_keeps {r0 : State} (s : State) (p : Nat) (hk : Keeps r0 s) : Keeps r0 (State.replay s p) := by
  unfold State.replay
  repeat' (first | with_reducible assumption | (simp only [keeps_mk, Cellar.allocBlock_mem, Cellar.freeBlock_mem, Cellar.freeBlocks_mem, Cellar.dropStaging_mem, Cellar.replaceStaging_mem, Hearth.runs]; with_reducible refine Keeps.parts ?_) | (intro x; refine Keeps.cut (r := r0) (s := x) ?_ ?_; unfold x; rotate_left; clear_value x; intro _) | intro _ | lift_lets -underBinder | with_reducible apply State.putPort_keeps | with_reducible apply State.portDown_keeps | with_reducible apply State.disturbAll_keeps | split)

theorem execReplayTimeout_keeps {r0 : State} (port : Fin 36) (s : State) (hk : Keeps r0 s) : KeepsOut r0 (execReplayTimeout port s) := by
  unfold execReplayTimeout
  repeat' (first | with_reducible assumption | (simp only [keeps_mk, Cellar.allocBlock_mem, Cellar.freeBlock_mem, Cellar.freeBlocks_mem, Cellar.dropStaging_mem, Cellar.replaceStaging_mem, Hearth.runs]; with_reducible refine Keeps.parts ?_) | with_reducible apply KeepsOut.next | (intro x; refine Keeps.cut (r := r0) (s := x) ?_ ?_; unfold x; rotate_left; clear_value x; intro _) | intro _ | lift_lets -underBinder | with_reducible apply State.countPort_keeps | with_reducible apply State.replay_keeps | split)

theorem execLinkFailureDetected_keeps {r0 : State} (port : Fin 36) (s : State) (hk : Keeps r0 s) : KeepsOut r0 (execLinkFailureDetected port s) := by
  unfold execLinkFailureDetected
  repeat' (first | with_reducible assumption | with_reducible apply KeepsOut.next | (intro x; refine Keeps.cut (r := r0) (s := x) ?_ ?_; unfold x; rotate_left; clear_value x; intro _) | intro _ | lift_lets -underBinder | with_reducible apply State.portDown_keeps | split)

theorem State.retrain_keeps {r0 : State} (s : State) (p : Nat) (hk : Keeps r0 s) : Keeps r0 (State.retrain s p) := by
  unfold State.retrain
  repeat' (first | with_reducible assumption | (simp only [keeps_mk, Cellar.allocBlock_mem, Cellar.freeBlock_mem, Cellar.freeBlocks_mem, Cellar.dropStaging_mem, Cellar.replaceStaging_mem, Hearth.runs]; with_reducible refine Keeps.parts ?_) | (intro x; refine Keeps.cut (r := r0) (s := x) ?_ ?_; unfold x; rotate_left; clear_value x; intro _) | intro _ | lift_lets -underBinder | with_reducible apply State.modPort_keeps | with_reducible apply State.countPort_keeps | split)

theorem State.retryPort_keeps {r0 : State} (s : State) (p : Nat) (hk : Keeps r0 s) : Keeps r0 (State.retryPort s p) := by
  unfold State.retryPort
  repeat' (first | with_reducible assumption | (intro x; refine Keeps.cut (r := r0) (s := x) ?_ ?_; unfold x; rotate_left; clear_value x; intro _) | intro _ | lift_lets -underBinder | with_reducible apply State.retrain_keeps | split)

theorem execPortRetryTimer_keeps {r0 : State} (port : Fin 36) (s : State) (hk : Keeps r0 s) : KeepsOut r0 (execPortRetryTimer port s) := by
  unfold execPortRetryTimer
  repeat' (first | with_reducible assumption | with_reducible apply KeepsOut.next | (intro x; refine Keeps.cut (r := r0) (s := x) ?_ ?_; unfold x; rotate_left; clear_value x; intro _) | intro _ | lift_lets -underBinder | with_reducible apply State.retryPort_keeps | split)

theorem execTrainingPatternDetected_keeps {r0 : State} (port : Fin 36) (s : State) (hk : Keeps r0 s) : KeepsOut r0 (execTrainingPatternDetected port s) := by
  unfold execTrainingPatternDetected
  repeat' (first | with_reducible assumption | with_reducible apply KeepsOut.next | (intro x; refine Keeps.cut (r := r0) (s := x) ?_ ?_; unfold x; rotate_left; clear_value x; intro _) | intro _ | lift_lets -underBinder | with_reducible apply State.retryPort_keeps | split)

theorem State.trainFailed_keeps {r0 : State} (s : State) (p : Nat) (hk : Keeps r0 s) : Keeps r0 (State.trainFailed s p) := by
  unfold State.trainFailed
  repeat' (first | with_reducible assumption | (simp only [keeps_mk, Cellar.allocBlock_mem, Cellar.freeBlock_mem, Cellar.freeBlocks_mem, Cellar.dropStaging_mem, Cellar.replaceStaging_mem, Hearth.runs]; with_reducible refine Keeps.parts ?_) | (intro x; refine Keeps.cut (r := r0) (s := x) ?_ ?_; unfold x; rotate_left; clear_value x; intro _) | intro _ | lift_lets -underBinder | with_reducible apply State.modPort_keeps | with_reducible apply State.countPort_keeps | with_reducible apply State.downRecord_keeps | split)

theorem execTrainingComplete_keeps {r0 : State} (port : Fin 36) (res : TrainResult) (s : State) (hk : Keeps r0 s) : KeepsOut r0 (execTrainingComplete port res s) := by
  unfold execTrainingComplete
  repeat' (first | with_reducible assumption | (simp only [keeps_mk, Cellar.allocBlock_mem, Cellar.freeBlock_mem, Cellar.freeBlocks_mem, Cellar.dropStaging_mem, Cellar.replaceStaging_mem, Hearth.runs]; with_reducible refine Keeps.parts ?_) | with_reducible apply KeepsOut.next | (intro x; refine Keeps.cut (r := r0) (s := x) ?_ ?_; unfold x; rotate_left; clear_value x; intro _) | intro _ | lift_lets -underBinder | with_reducible apply State.modPort_keeps | with_reducible apply State.record_keeps | with_reducible apply State.censusPortUp_keeps | with_reducible apply State.trainFailed_keeps | split | (simp only [keeps_mk, Cellar.allocBlock_mem, Cellar.freeBlock_mem, Cellar.freeBlocks_mem, Cellar.dropStaging_mem, Cellar.replaceStaging_mem, Hearth.runs]; with_reducible refine Keeps.partsMem ?_ (fun w => by first | exact w | exact Cellar.scrub_wf w | exact Cellar.putUnits_wf w | exact Cellar.maskUnit_wf ‹_› w | (exact Cellar.scrub_wf (by simpa using w)) | simp [Memory.wf])) | (simp only [keeps_mk, Cellar.allocBlock_mem, Cellar.freeBlock_mem, Cellar.freeBlocks_mem, Cellar.dropStaging_mem, Cellar.replaceStaging_mem, Hearth.runs]; with_reducible refine Keeps.partsTo ?_ (by simp) (fun w => by first | exact w | exact Cellar.scrub_wf w | exact Cellar.putUnits_wf w | exact Cellar.maskUnit_wf ‹_› w | (exact Cellar.scrub_wf (by simpa using w)) | simp [Memory.wf])) | (simp only [keeps_mk, Cellar.allocBlock_mem, Cellar.freeBlock_mem, Cellar.freeBlocks_mem, Cellar.dropStaging_mem, Cellar.replaceStaging_mem, Hearth.runs]; with_reducible refine Keeps.partsMix ?_ ?_) | (dsimp +zetaDelta only))

theorem State.startRecal_keeps {r0 : State} (s : State) (p : Nat) (hk : Keeps r0 s) : Keeps r0 (State.startRecal s p) := by
  unfold State.startRecal
  repeat' (first | with_reducible assumption | (simp only [keeps_mk, Cellar.allocBlock_mem, Cellar.freeBlock_mem, Cellar.freeBlocks_mem, Cellar.dropStaging_mem, Cellar.replaceStaging_mem, Hearth.runs]; with_reducible refine Keeps.parts ?_) | (intro x; refine Keeps.cut (r := r0) (s := x) ?_ ?_; unfold x; rotate_left; clear_value x; intro _) | intro _ | lift_lets -underBinder | with_reducible apply State.modPort_keeps | split)

theorem execRecalibrationDue_keeps {r0 : State} (port : Fin 36) (s : State) (hk : Keeps r0 s) : KeepsOut r0 (execRecalibrationDue port s) := by
  unfold execRecalibrationDue
  repeat' (first | with_reducible assumption | (simp only [keeps_mk, Cellar.allocBlock_mem, Cellar.freeBlock_mem, Cellar.freeBlocks_mem, Cellar.dropStaging_mem, Cellar.replaceStaging_mem, Hearth.runs]; with_reducible refine Keeps.parts ?_) | with_reducible apply KeepsOut.next | (intro x; refine Keeps.cut (r := r0) (s := x) ?_ ?_; unfold x; rotate_left; clear_value x; intro _) | intro _ | lift_lets -underBinder | with_reducible apply State.modPort_keeps | with_reducible apply State.countPort_keeps | with_reducible apply State.startRecal_keeps | split)

theorem execRecalibrationForced_keeps {r0 : State} (port : Fin 36) (s : State) (hk : Keeps r0 s) : KeepsOut r0 (execRecalibrationForced port s) := by
  unfold execRecalibrationForced
  repeat' (first | with_reducible assumption | (simp only [keeps_mk, Cellar.allocBlock_mem, Cellar.freeBlock_mem, Cellar.freeBlocks_mem, Cellar.dropStaging_mem, Cellar.replaceStaging_mem, Hearth.runs]; with_reducible refine Keeps.parts ?_) | with_reducible apply KeepsOut.next | (intro x; refine Keeps.cut (r := r0) (s := x) ?_ ?_; unfold x; rotate_left; clear_value x; intro _) | intro _ | lift_lets -underBinder | with_reducible apply State.modPort_keeps | with_reducible apply State.countPort_keeps | with_reducible apply State.startRecal_keeps | split)

theorem execPllSettled_keeps {r0 : State} (port : Fin 36) (s : State) (hk : Keeps r0 s) : KeepsOut r0 (execPllSettled port s) := by
  unfold execPllSettled
  repeat' (first | with_reducible assumption | (simp only [keeps_mk, Cellar.allocBlock_mem, Cellar.freeBlock_mem, Cellar.freeBlocks_mem, Cellar.dropStaging_mem, Cellar.replaceStaging_mem, Hearth.runs]; with_reducible refine Keeps.parts ?_) | with_reducible apply KeepsOut.next | (intro x; refine Keeps.cut (r := r0) (s := x) ?_ ?_; unfold x; rotate_left; clear_value x; intro _) | intro _ | lift_lets -underBinder | with_reducible apply State.modPort_keeps | with_reducible apply State.disturbAll_keeps | split)

theorem execPllSettleTimeout_keeps {r0 : State} (port : Fin 36) (s : State) (hk : Keeps r0 s) : KeepsOut r0 (execPllSettleTimeout port s) := by
  unfold execPllSettleTimeout
  repeat' (first | with_reducible assumption | with_reducible apply KeepsOut.next | (intro x; refine Keeps.cut (r := r0) (s := x) ?_ ?_; unfold x; rotate_left; clear_value x; intro _) | intro _ | lift_lets -underBinder | with_reducible apply State.portDown_keeps | with_reducible apply State.trainFailed_keeps | split)

theorem execResyncTimeout_keeps {r0 : State} (port : Fin 36) (s : State) (hk : Keeps r0 s) : KeepsOut r0 (execResyncTimeout port s) := by
  unfold execResyncTimeout
  repeat' (first | with_reducible assumption | with_reducible apply KeepsOut.next | (intro x; refine Keeps.cut (r := r0) (s := x) ?_ ?_; unfold x; rotate_left; clear_value x; intro _) | intro _ | lift_lets -underBinder | with_reducible apply State.portDown_keeps | split)

theorem State.portTick_keeps {r0 : State} (s : State) (p : Nat) (hk : Keeps r0 s) : Keeps r0 (State.portTick s p) := by
  unfold State.portTick
  repeat' (first | with_reducible assumption | (simp only [keeps_mk, Cellar.allocBlock_mem, Cellar.freeBlock_mem, Cellar.freeBlocks_mem, Cellar.dropStaging_mem, Cellar.replaceStaging_mem, Hearth.runs]; with_reducible refine Keeps.parts ?_) | (intro x; refine Keeps.cut (r := r0) (s := x) ?_ ?_; unfold x; rotate_left; clear_value x; intro _) | intro _ | lift_lets -underBinder | with_reducible apply State.putPort_keeps | with_reducible apply State.startRecal_keeps | split)

theorem State.tick_keeps {r0 : State} (s : State) (hk : Keeps r0 s) : Keeps r0 (State.tick s) := by
  unfold State.tick
  repeat' (first | with_reducible assumption | (intro x; refine Keeps.cut (r := r0) (s := x) ?_ ?_; unfold x; rotate_left; clear_value x; intro _) | intro _ | lift_lets -underBinder | with_reducible apply overList_keeps | with_reducible apply State.ringsAnswered_keeps | with_reducible apply State.elapse_keeps | with_reducible apply State.portTick_keeps | with_reducible apply Keeps.overList | split)


/-! ## Frames -/

theorem State.packetDone_keeps {r0 : State} (s : State) (port : Fin 36) (fs : List (List Byte)) (hk : Keeps r0 s) : Keeps r0 (State.packetDone s port fs) := by
  unfold State.packetDone
  repeat' (first | with_reducible assumption | (intro x; refine Keeps.cut (r := r0) (s := x) ?_ ?_; unfold x; rotate_left; clear_value x; intro _) | intro _ | lift_lets -underBinder | with_reducible apply execPacketReceived_keeps | with_reducible apply State.drop_keeps | with_reducible apply Keeps.stateAfter | split | with_reducible apply KeepsOut.next)

theorem State.packetFlit_keeps {r0 : State} (s : State) (port : Fin 36) (head : Bool) (f : List Byte) (hk : Keeps r0 s) : Keeps r0 (State.packetFlit s port head f) := by
  unfold State.packetFlit
  repeat' (first | with_reducible assumption | (simp only [keeps_mk, Cellar.allocBlock_mem, Cellar.freeBlock_mem, Cellar.freeBlocks_mem, Cellar.dropStaging_mem, Cellar.replaceStaging_mem, Hearth.runs]; with_reducible refine Keeps.parts ?_) | (intro x; refine Keeps.cut (r := r0) (s := x) ?_ ?_; unfold x; rotate_left; clear_value x; intro _) | intro _ | lift_lets -underBinder | with_reducible apply State.modPort_keeps | with_reducible apply State.returnCredits_keeps | with_reducible apply State.packetDone_keeps | split)

theorem State.replyFlit_keeps {r0 : State} (s : State) (port : Fin 36) (head : Bool) (f : List Byte) (hk : Keeps r0 s) : Keeps r0 (State.replyFlit s port head f) := by
  unfold State.replyFlit
  repeat' (first | with_reducible assumption | (simp only [keeps_mk, Cellar.allocBlock_mem, Cellar.freeBlock_mem, Cellar.freeBlocks_mem, Cellar.dropStaging_mem, Cellar.replaceStaging_mem, Hearth.runs]; with_reducible refine Keeps.parts ?_) | (intro x; refine Keeps.cut (r := r0) (s := x) ?_ ?_; unfold x; rotate_left; clear_value x; intro _) | intro _ | lift_lets -underBinder | with_reducible apply State.modPort_keeps | with_reducible apply State.returnCredits_keeps | with_reducible apply State.badControl_keeps | with_reducible apply execCensusSubtreeReply_keeps | with_reducible apply Keeps.stateAfter | split | with_reducible apply KeepsOut.next)

theorem State.controlFlit_keeps {r0 : State} (s : State) (port : Fin 36) (vc : Nat) (f : List Byte) (hk : Keeps r0 s) : Keeps r0 (State.controlFlit s port vc f) := by
  unfold State.controlFlit
  repeat' (first | with_reducible assumption | (simp only [keeps_mk, Cellar.allocBlock_mem, Cellar.freeBlock_mem, Cellar.freeBlocks_mem, Cellar.dropStaging_mem, Cellar.replaceStaging_mem, Hearth.runs]; with_reducible refine Keeps.parts ?_) | (intro x; refine Keeps.cut (r := r0) (s := x) ?_ ?_; unfold x; rotate_left; clear_value x; intro _) | intro _ | lift_lets -underBinder | with_reducible apply State.returnCredits_keeps | with_reducible apply State.badControl_keeps | with_reducible apply execRetractMarker_keeps | with_reducible apply execChunkAck_keeps | with_reducible apply execResendRequest_keeps | with_reducible apply execRemoteBellRing_keeps | with_reducible apply execBarrierArrival_keeps | with_reducible apply execBarrierRelease_keeps | with_reducible apply execPeerAbort_keeps | with_reducible apply execSyncExchange_keeps | with_reducible apply execCensusQuery_keeps | with_reducible apply execCensusSeen_keeps | with_reducible apply execCensusConcurrent_keeps | with_reducible apply execCensusCommitMessage_keeps | with_reducible apply execCensusCommitDone_keeps | with_reducible apply State.replyFlit_keeps | with_reducible apply Keeps.stateAfter | split | with_reducible apply KeepsOut.next | (dsimp +zetaDelta only))

theorem State.slotIn_keeps {r0 : State} (port : Fin 36) (s : State) (x : Nat × List Byte) (hk : Keeps r0 s) : Keeps r0 (State.slotIn port s x) := by
  unfold State.slotIn
  repeat' (first | with_reducible assumption | (intro x; refine Keeps.cut (r := r0) (s := x) ?_ ?_; unfold x; rotate_left; clear_value x; intro _) | intro _ | lift_lets -underBinder | with_reducible apply State.wake_keeps | with_reducible apply State.returnCredits_keeps | with_reducible apply execSealReceived_keeps | with_reducible apply State.packetFlit_keeps | with_reducible apply State.controlFlit_keeps | with_reducible apply Keeps.stateAfter | split | with_reducible apply KeepsOut.next)

theorem State.frameIn_keeps {r0 : State} (s : State) (port : Fin 36) (b : List Byte) (hk : Keeps r0 s) : Keeps r0 (State.frameIn s port b) := by
  unfold State.frameIn
  repeat' (first | with_reducible assumption | (simp only [keeps_mk, Cellar.allocBlock_mem, Cellar.freeBlock_mem, Cellar.freeBlocks_mem, Cellar.dropStaging_mem, Cellar.replaceStaging_mem, Hearth.runs]; with_reducible refine Keeps.parts ?_) | (intro x; refine Keeps.cut (r := r0) (s := x) ?_ ?_; unfold x; rotate_left; clear_value x; intro _) | intro _ | lift_lets -underBinder | with_reducible apply State.modPort_keeps | with_reducible apply overList_keeps | with_reducible apply State.replay_keeps | with_reducible apply State.slotIn_keeps | with_reducible apply Keeps.overList | split)

theorem execFrameReceived_keeps {r0 : State} (port : Fin 36) (frame : List Byte) (fecOk : Bool) (corrected : Nat) (s : State) (hk : Keeps r0 s) : KeepsOut r0 (execFrameReceived port frame fecOk corrected s) := by
  unfold execFrameReceived
  repeat' (first | with_reducible assumption | (simp only [keeps_mk, Cellar.allocBlock_mem, Cellar.freeBlock_mem, Cellar.freeBlocks_mem, Cellar.dropStaging_mem, Cellar.replaceStaging_mem, Hearth.runs]; with_reducible refine Keeps.parts ?_) | with_reducible apply KeepsOut.next | (intro x; refine Keeps.cut (r := r0) (s := x) ?_ ?_; unfold x; rotate_left; clear_value x; intro _) | intro _ | lift_lets -underBinder | with_reducible apply State.modPort_keeps | with_reducible apply State.countPort_keeps | with_reducible apply State.frameIn_keeps | split)


/-! ## CellarTimers -/

theorem execLease_keeps {r0 : State} (host : Fin 16) (value : Word32) (s : State) (hk : Keeps r0 s) : KeepsOut r0 (execLease host value s) := by
  unfold execLease
  repeat' (first | with_reducible assumption | (simp only [keeps_mk, Cellar.allocBlock_mem, Cellar.freeBlock_mem, Cellar.freeBlocks_mem, Cellar.dropStaging_mem, Cellar.replaceStaging_mem, Hearth.runs]; with_reducible refine Keeps.parts ?_) | with_reducible apply KeepsOut.next | (intro x; refine Keeps.cut (r := r0) (s := x) ?_ ?_; unfold x; rotate_left; clear_value x; intro _) | intro _ | lift_lets -underBinder | with_reducible apply State.modHost_keeps | with_reducible apply State.hostIn_keeps | with_reducible apply State.bar0_keeps | split)

theorem State.applyRenewal_keeps {r0 : State} (s : State) (h : Nat) (v : Word32) (hk : Keeps r0 s) : Keeps r0 (State.applyRenewal s h v) := by
  unfold State.applyRenewal
  repeat' (first | with_reducible assumption | (simp only [keeps_mk, Cellar.allocBlock_mem, Cellar.freeBlock_mem, Cellar.freeBlocks_mem, Cellar.dropStaging_mem, Cellar.replaceStaging_mem, Hearth.runs]; with_reducible refine Keeps.parts ?_) | (intro x; refine Keeps.cut (r := r0) (s := x) ?_ ?_; unfold x; rotate_left; clear_value x; intro _) | intro _ | lift_lets -underBinder | with_reducible apply State.modHost_keeps | with_reducible apply State.modExt_keeps | with_reducible apply overList_keeps | with_reducible apply Keeps.overList | split)

theorem State.applyRenewals_keeps {r0 : State} (s : State) (hk : Keeps r0 s) : Keeps r0 (State.applyRenewals s) := by
  unfold State.applyRenewals
  repeat' (first | with_reducible assumption | (simp only [keeps_mk, Cellar.allocBlock_mem, Cellar.freeBlock_mem, Cellar.freeBlocks_mem, Cellar.dropStaging_mem, Cellar.replaceStaging_mem, Hearth.runs]; with_reducible refine Keeps.parts ?_) | (intro x; refine Keeps.cut (r := r0) (s := x) ?_ ?_; unfold x; rotate_left; clear_value x; intro _) | intro _ | lift_lets -underBinder | with_reducible apply State.modHost_keeps | with_reducible apply overList_keeps | with_reducible apply State.applyRenewal_keeps | with_reducible apply Keeps.overList | split | (simp only [keeps_mk, Cellar.allocBlock_mem, Cellar.freeBlock_mem, Cellar.freeBlocks_mem, Cellar.dropStaging_mem, Cellar.replaceStaging_mem, Hearth.runs]; with_reducible refine Keeps.partsMem ?_ (fun w => by first | exact w | exact Cellar.scrub_wf w | exact Cellar.putUnits_wf w | exact Cellar.maskUnit_wf ‹_› w | (exact Cellar.scrub_wf (by simpa using w)) | simp [Memory.wf])) | (simp only [keeps_mk, Cellar.allocBlock_mem, Cellar.freeBlock_mem, Cellar.freeBlocks_mem, Cellar.dropStaging_mem, Cellar.replaceStaging_mem, Hearth.runs]; with_reducible refine Keeps.partsTo ?_ (by simp) (fun w => by first | exact w | exact Cellar.scrub_wf w | exact Cellar.putUnits_wf w | exact Cellar.maskUnit_wf ‹_› w | (exact Cellar.scrub_wf (by simpa using w)) | simp [Memory.wf])))

theorem State.applyRights_keeps {r0 : State} (s : State) (r : Nat) (hk : Keeps r0 s) : Keeps r0 (State.applyRights s r) := by
  unfold State.applyRights
  repeat' (first | with_reducible assumption | (simp only [keeps_mk, Cellar.allocBlock_mem, Cellar.freeBlock_mem, Cellar.freeBlocks_mem, Cellar.dropStaging_mem, Cellar.replaceStaging_mem, Hearth.runs]; with_reducible refine Keeps.parts ?_) | (intro x; refine Keeps.cut (r := r0) (s := x) ?_ ?_; unfold x; rotate_left; clear_value x; intro _) | intro _ | lift_lets -underBinder | with_reducible apply State.modHost_keeps | with_reducible apply overList_keeps | with_reducible apply Keeps.foldl | with_reducible apply Keeps.overList | split | (simp only [keeps_mk, Cellar.allocBlock_mem, Cellar.freeBlock_mem, Cellar.freeBlocks_mem, Cellar.dropStaging_mem, Cellar.replaceStaging_mem, Hearth.runs]; with_reducible refine Keeps.partsMem ?_ (fun w => by first | exact w | exact Cellar.scrub_wf w | exact Cellar.putUnits_wf w | exact Cellar.maskUnit_wf ‹_› w | (exact Cellar.scrub_wf (by simpa using w)) | simp [Memory.wf])) | (simp only [keeps_mk, Cellar.allocBlock_mem, Cellar.freeBlock_mem, Cellar.freeBlocks_mem, Cellar.dropStaging_mem, Cellar.replaceStaging_mem, Hearth.runs]; with_reducible refine Keeps.partsTo ?_ (by simp) (fun w => by first | exact w | exact Cellar.scrub_wf w | exact Cellar.putUnits_wf w | exact Cellar.maskUnit_wf ‹_› w | (exact Cellar.scrub_wf (by simpa using w)) | simp [Memory.wf])))

theorem State.regionsEnd_keeps {r0 : State} (s : State) (hk : Keeps r0 s) : Keeps r0 (State.regionsEnd s) := by
  unfold State.regionsEnd
  repeat' (first | with_reducible assumption | (simp only [keeps_mk, Cellar.allocBlock_mem, Cellar.freeBlock_mem, Cellar.freeBlocks_mem, Cellar.dropStaging_mem, Cellar.replaceStaging_mem, Hearth.runs]; with_reducible refine Keeps.parts ?_) | (intro x; refine Keeps.cut (r := r0) (s := x) ?_ ?_; unfold x; rotate_left; clear_value x; intro _) | intro _ | lift_lets -underBinder | with_reducible apply State.modExt_keeps | with_reducible apply overList_keeps | with_reducible apply Keeps.overList | split | (simp only [keeps_mk, Cellar.allocBlock_mem, Cellar.freeBlock_mem, Cellar.freeBlocks_mem, Cellar.dropStaging_mem, Cellar.replaceStaging_mem, Hearth.runs]; with_reducible refine Keeps.partsMem ?_ (fun w => by first | exact w | exact Cellar.scrub_wf w | exact Cellar.putUnits_wf w | exact Cellar.maskUnit_wf ‹_› w | (exact Cellar.scrub_wf (by simpa using w)) | simp [Memory.wf])) | (simp only [keeps_mk, Cellar.allocBlock_mem, Cellar.freeBlock_mem, Cellar.freeBlocks_mem, Cellar.dropStaging_mem, Cellar.replaceStaging_mem, Hearth.runs]; with_reducible refine Keeps.partsTo ?_ (by simp) (fun w => by first | exact w | exact Cellar.scrub_wf w | exact Cellar.putUnits_wf w | exact Cellar.maskUnit_wf ‹_› w | (exact Cellar.scrub_wf (by simpa using w)) | simp [Memory.wf])))

theorem execLeaseTick_keeps {r0 : State} (s : State) (hk : Keeps r0 s) : KeepsOut r0 (execLeaseTick s) := by
  unfold execLeaseTick
  repeat' (first | with_reducible assumption | (simp only [keeps_mk, Cellar.allocBlock_mem, Cellar.freeBlock_mem, Cellar.freeBlocks_mem, Cellar.dropStaging_mem, Cellar.replaceStaging_mem, Hearth.runs]; with_reducible refine Keeps.parts ?_) | with_reducible apply KeepsOut.next | (intro x; refine Keeps.cut (r := r0) (s := x) ?_ ?_; unfold x; rotate_left; clear_value x; intro _) | intro _ | lift_lets -underBinder | with_reducible apply overList_keeps | with_reducible apply State.applyRenewals_keeps | with_reducible apply State.applyRights_keeps | with_reducible apply State.regionsEnd_keeps | with_reducible apply Keeps.overList | split | (simp only [keeps_mk, Cellar.allocBlock_mem, Cellar.freeBlock_mem, Cellar.freeBlocks_mem, Cellar.dropStaging_mem, Cellar.replaceStaging_mem, Hearth.runs]; with_reducible refine Keeps.partsMem ?_ (fun w => by first | exact w | exact Cellar.scrub_wf w | exact Cellar.putUnits_wf w | exact Cellar.maskUnit_wf ‹_› w | (exact Cellar.scrub_wf (by simpa using w)) | simp [Memory.wf])) | (simp only [keeps_mk, Cellar.allocBlock_mem, Cellar.freeBlock_mem, Cellar.freeBlocks_mem, Cellar.dropStaging_mem, Cellar.replaceStaging_mem, Hearth.runs]; with_reducible refine Keeps.partsTo ?_ (by simp) (fun w => by first | exact w | exact Cellar.scrub_wf w | exact Cellar.putUnits_wf w | exact Cellar.maskUnit_wf ‹_› w | (exact Cellar.scrub_wf (by simpa using w)) | simp [Memory.wf])))

theorem execLeaseExpiry_keeps {r0 : State} (region : Bool) (number : Nat) (s : State) (hk : Keeps r0 s) : KeepsOut r0 (execLeaseExpiry region number s) := by
  unfold execLeaseExpiry
  simp only [State.wake]
  repeat' (first | with_reducible assumption | (simp only [keeps_mk, Cellar.allocBlock_mem, Cellar.freeBlock_mem, Cellar.freeBlocks_mem, Cellar.dropStaging_mem, Cellar.replaceStaging_mem, Hearth.runs]; with_reducible refine Keeps.parts ?_) | with_reducible apply KeepsOut.next | (intro x; refine Keeps.cut (r := r0) (s := x) ?_ ?_; unfold x; rotate_left; clear_value x; intro _) | intro _ | lift_lets -underBinder | with_reducible apply State.wake_keeps | with_reducible apply State.reclaim_keeps | split | (simp only [keeps_mk, Cellar.allocBlock_mem, Cellar.freeBlock_mem, Cellar.freeBlocks_mem, Cellar.dropStaging_mem, Cellar.replaceStaging_mem, Hearth.runs]; with_reducible refine Keeps.partsMem ?_ (fun w => by first | exact w | exact Cellar.scrub_wf w | exact Cellar.putUnits_wf w | exact Cellar.maskUnit_wf ‹_› w | (exact Cellar.scrub_wf (by simpa using w)) | simp [Memory.wf])) | (simp only [keeps_mk, Cellar.allocBlock_mem, Cellar.freeBlock_mem, Cellar.freeBlocks_mem, Cellar.dropStaging_mem, Cellar.replaceStaging_mem, Hearth.runs]; with_reducible refine Keeps.partsTo ?_ (by simp) (fun w => by first | exact w | exact Cellar.scrub_wf w | exact Cellar.putUnits_wf w | exact Cellar.maskUnit_wf ‹_› w | (exact Cellar.scrub_wf (by simpa using w)) | simp [Memory.wf])))

theorem State.scrubbed_keeps {r0 : State} (bad : List Nat) (s : State) (e : Nat) (hk : Keeps r0 s) : Keeps r0 (State.scrubbed bad s e) := by
  unfold State.scrubbed
  repeat' (first | with_reducible assumption | (simp only [keeps_mk, Cellar.allocBlock_mem, Cellar.freeBlock_mem, Cellar.freeBlocks_mem, Cellar.dropStaging_mem, Cellar.replaceStaging_mem, Hearth.runs]; with_reducible refine Keeps.parts ?_) | (intro x; refine Keeps.cut (r := r0) (s := x) ?_ ?_; unfold x; rotate_left; clear_value x; intro _) | intro _ | lift_lets -underBinder | with_reducible apply State.putExt_keeps | with_reducible apply State.modExt_keeps | with_reducible apply State.sendEvent_keeps | with_reducible apply State.quarantineExt_keeps | with_reducible apply State.replaceStaging_keeps | split | (simp only [keeps_mk, Cellar.allocBlock_mem, Cellar.freeBlock_mem, Cellar.freeBlocks_mem, Cellar.dropStaging_mem, Cellar.replaceStaging_mem, Hearth.runs]; with_reducible refine Keeps.partsMem ?_ (fun w => by first | exact w | exact Cellar.scrub_wf w | exact Cellar.putUnits_wf w | exact Cellar.maskUnit_wf ‹_› w | (exact Cellar.scrub_wf (by simpa using w)) | simp [Memory.wf])) | (simp only [keeps_mk, Cellar.allocBlock_mem, Cellar.freeBlock_mem, Cellar.freeBlocks_mem, Cellar.dropStaging_mem, Cellar.replaceStaging_mem, Hearth.runs]; with_reducible refine Keeps.partsTo ?_ (by simp) (fun w => by first | exact w | exact Cellar.scrub_wf w | exact Cellar.putUnits_wf w | exact Cellar.maskUnit_wf ‹_› w | (exact Cellar.scrub_wf (by simpa using w)) | simp [Memory.wf])))

theorem execScrubBatchComplete_keeps {r0 : State} (bad : List Nat) (s : State) (hk : Keeps r0 s) : KeepsOut r0 (execScrubBatchComplete bad s) := by
  unfold execScrubBatchComplete
  repeat' (first | with_reducible assumption | (simp only [keeps_mk, Cellar.allocBlock_mem, Cellar.freeBlock_mem, Cellar.freeBlocks_mem, Cellar.dropStaging_mem, Cellar.replaceStaging_mem, Hearth.runs]; with_reducible refine Keeps.parts ?_) | with_reducible apply KeepsOut.next | (intro x; refine Keeps.cut (r := r0) (s := x) ?_ ?_; unfold x; rotate_left; clear_value x; intro _) | intro _ | lift_lets -underBinder | with_reducible apply overList_keeps | with_reducible apply State.cellarDone_keeps | with_reducible apply State.scrubStarts_keeps | with_reducible apply State.scrubbed_keeps | with_reducible apply Keeps.overList | split | (simp only [keeps_mk, Cellar.allocBlock_mem, Cellar.freeBlock_mem, Cellar.freeBlocks_mem, Cellar.dropStaging_mem, Cellar.replaceStaging_mem, Hearth.runs]; with_reducible refine Keeps.partsMem ?_ (fun w => by first | exact w | exact Cellar.scrub_wf w | exact Cellar.putUnits_wf w | exact Cellar.maskUnit_wf ‹_› w | (exact Cellar.scrub_wf (by simpa using w)) | simp [Memory.wf])) | (simp only [keeps_mk, Cellar.allocBlock_mem, Cellar.freeBlock_mem, Cellar.freeBlocks_mem, Cellar.dropStaging_mem, Cellar.replaceStaging_mem, Hearth.runs]; with_reducible refine Keeps.partsTo ?_ (by simp) (fun w => by first | exact w | exact Cellar.scrub_wf w | exact Cellar.putUnits_wf w | exact Cellar.maskUnit_wf ‹_› w | (exact Cellar.scrub_wf (by simpa using w)) | simp [Memory.wf])))

theorem execGroupRetentionTimeout_keeps {r0 : State} (extent : Nat) (s : State) (hk : Keeps r0 s) : KeepsOut r0 (execGroupRetentionTimeout extent s) := by
  unfold execGroupRetentionTimeout
  repeat' (first | with_reducible assumption | (simp only [keeps_mk, Cellar.allocBlock_mem, Cellar.freeBlock_mem, Cellar.freeBlocks_mem, Cellar.dropStaging_mem, Cellar.replaceStaging_mem, Hearth.runs]; with_reducible refine Keeps.parts ?_) | with_reducible apply KeepsOut.next | (intro x; refine Keeps.cut (r := r0) (s := x) ?_ ?_; unfold x; rotate_left; clear_value x; intro _) | intro _ | lift_lets -underBinder | with_reducible apply State.putExt_keeps | split | (simp only [keeps_mk, Cellar.allocBlock_mem, Cellar.freeBlock_mem, Cellar.freeBlocks_mem, Cellar.dropStaging_mem, Cellar.replaceStaging_mem, Hearth.runs]; with_reducible refine Keeps.partsMem ?_ (fun w => by first | exact w | exact Cellar.scrub_wf w | exact Cellar.putUnits_wf w | exact Cellar.maskUnit_wf ‹_› w | (exact Cellar.scrub_wf (by simpa using w)) | simp [Memory.wf])) | (simp only [keeps_mk, Cellar.allocBlock_mem, Cellar.freeBlock_mem, Cellar.freeBlocks_mem, Cellar.dropStaging_mem, Cellar.replaceStaging_mem, Hearth.runs]; with_reducible refine Keeps.partsTo ?_ (by simp) (fun w => by first | exact w | exact Cellar.scrub_wf w | exact Cellar.putUnits_wf w | exact Cellar.maskUnit_wf ‹_› w | (exact Cellar.scrub_wf (by simpa using w)) | simp [Memory.wf])))

theorem execGroupWakeComplete_keeps {r0 : State} (extent : Nat) (s : State) (hk : Keeps r0 s) : KeepsOut r0 (execGroupWakeComplete extent s) := by
  unfold execGroupWakeComplete
  repeat' (first | with_reducible assumption | (simp only [keeps_mk, Cellar.allocBlock_mem, Cellar.freeBlock_mem, Cellar.freeBlocks_mem, Cellar.dropStaging_mem, Cellar.replaceStaging_mem, Hearth.runs]; with_reducible refine Keeps.parts ?_) | with_reducible apply KeepsOut.next | (intro x; refine Keeps.cut (r := r0) (s := x) ?_ ?_; unfold x; rotate_left; clear_value x; intro _) | intro _ | lift_lets -underBinder | with_reducible apply State.putExt_keeps | with_reducible apply State.cellsGo_keeps | split)

theorem State.patrolError_keeps {r0 : State} (e : Nat) (row : Nat) (s : State) (w : WordError) (hk : Keeps r0 s) : Keeps r0 (State.patrolError e row s w) := by
  unfold State.patrolError
  repeat' (first | with_reducible assumption | (simp only [keeps_mk, Cellar.allocBlock_mem, Cellar.freeBlock_mem, Cellar.freeBlocks_mem, Cellar.dropStaging_mem, Cellar.replaceStaging_mem, Hearth.runs]; with_reducible refine Keeps.parts ?_) | (intro x; refine Keeps.cut (r := r0) (s := x) ?_ ?_; unfold x; rotate_left; clear_value x; intro _) | intro _ | lift_lets -underBinder | with_reducible apply State.modExt_keeps | with_reducible apply State.record_keeps | with_reducible apply State.cellError_keeps | with_reducible apply State.stagingLost_keeps | split)

theorem State.laneAdvanced_keeps {r0 : State} (s : State) (lane : Nat) (hk : Keeps r0 s) : Keeps r0 (State.laneAdvanced s lane) := by
  unfold State.laneAdvanced
  repeat' (first | with_reducible assumption | (simp only [keeps_mk, Cellar.allocBlock_mem, Cellar.freeBlock_mem, Cellar.freeBlocks_mem, Cellar.dropStaging_mem, Cellar.replaceStaging_mem, Hearth.runs]; with_reducible refine Keeps.parts ?_) | (intro x; refine Keeps.cut (r := r0) (s := x) ?_ ?_; unfold x; rotate_left; clear_value x; intro _) | intro _ | lift_lets -underBinder | split)

theorem execPatrolRow_keeps {r0 : State} (lane : Fin 8) (errors : List WordError) (s : State) (hk : Keeps r0 s) : KeepsOut r0 (execPatrolRow lane errors s) := by
  unfold execPatrolRow
  repeat' (first | with_reducible assumption | (simp only [keeps_mk, Cellar.allocBlock_mem, Cellar.freeBlock_mem, Cellar.freeBlocks_mem, Cellar.dropStaging_mem, Cellar.replaceStaging_mem, Hearth.runs]; with_reducible refine Keeps.parts ?_) | with_reducible apply KeepsOut.next | (intro x; refine Keeps.cut (r := r0) (s := x) ?_ ?_; unfold x; rotate_left; clear_value x; intro _) | intro _ | lift_lets -underBinder | with_reducible apply overList_keeps | with_reducible apply State.touch_keeps | with_reducible apply State.patrolError_keeps | with_reducible apply State.laneAdvanced_keeps | with_reducible apply Keeps.overList | split | (simp only [keeps_mk, Cellar.allocBlock_mem, Cellar.freeBlock_mem, Cellar.freeBlocks_mem, Cellar.dropStaging_mem, Cellar.replaceStaging_mem, Hearth.runs]; with_reducible refine Keeps.partsMem ?_ (fun w => by first | exact w | exact Cellar.scrub_wf w | exact Cellar.putUnits_wf w | exact Cellar.maskUnit_wf ‹_› w | (exact Cellar.scrub_wf (by simpa using w)) | simp [Memory.wf])) | (simp only [keeps_mk, Cellar.allocBlock_mem, Cellar.freeBlock_mem, Cellar.freeBlocks_mem, Cellar.dropStaging_mem, Cellar.replaceStaging_mem, Hearth.runs]; with_reducible refine Keeps.partsTo ?_ (by simp) (fun w => by first | exact w | exact Cellar.scrub_wf w | exact Cellar.putUnits_wf w | exact Cellar.maskUnit_wf ‹_› w | (exact Cellar.scrub_wf (by simpa using w)) | simp [Memory.wf])))

theorem execPatrolCatchUp_keeps {r0 : State} (s : State) (hk : Keeps r0 s) : KeepsOut r0 (execPatrolCatchUp s) := by
  unfold execPatrolCatchUp
  repeat' (first | with_reducible assumption | with_reducible apply KeepsOut.next | (intro x; refine Keeps.cut (r := r0) (s := x) ?_ ?_; unfold x; rotate_left; clear_value x; intro _) | intro _ | lift_lets -underBinder | with_reducible apply State.wake_keeps | split)

theorem execFaultRecordAtticWrite_keeps {r0 : State} (s : State) (hk : Keeps r0 s) : KeepsOut r0 (execFaultRecordAtticWrite s) := by
  unfold execFaultRecordAtticWrite
  repeat' (first | with_reducible assumption | (simp only [keeps_mk, Cellar.allocBlock_mem, Cellar.freeBlock_mem, Cellar.freeBlocks_mem, Cellar.dropStaging_mem, Cellar.replaceStaging_mem, Hearth.runs]; with_reducible refine Keeps.parts ?_) | with_reducible apply KeepsOut.next | (intro x; refine Keeps.cut (r := r0) (s := x) ?_ ?_; unfold x; rotate_left; clear_value x; intro _) | intro _ | lift_lets -underBinder | split)


/-! ## HostPorts -/

theorem State.fenceHost_keeps {r0 : State} (s : State) (h : Nat) (hk : Keeps r0 s) : Keeps r0 (State.fenceHost s h) := by
  unfold State.fenceHost
  repeat' (first | with_reducible assumption | (simp only [keeps_mk, Cellar.allocBlock_mem, Cellar.freeBlock_mem, Cellar.freeBlocks_mem, Cellar.dropStaging_mem, Cellar.replaceStaging_mem, Hearth.runs]; with_reducible refine Keeps.parts ?_) | (intro x; refine Keeps.cut (r := r0) (s := x) ?_ ?_; unfold x; rotate_left; clear_value x; intro _) | intro _ | lift_lets -underBinder | split | (simp only [keeps_mk, Cellar.allocBlock_mem, Cellar.freeBlock_mem, Cellar.freeBlocks_mem, Cellar.dropStaging_mem, Cellar.replaceStaging_mem, Hearth.runs]; with_reducible refine Keeps.partsMem ?_ (fun w => by first | exact w | exact Cellar.scrub_wf w | exact Cellar.putUnits_wf w | exact Cellar.maskUnit_wf ‹_› w | (exact Cellar.scrub_wf (by simpa using w)) | simp [Memory.wf])) | (simp only [keeps_mk, Cellar.allocBlock_mem, Cellar.freeBlock_mem, Cellar.freeBlocks_mem, Cellar.dropStaging_mem, Cellar.replaceStaging_mem, Hearth.runs]; with_reducible refine Keeps.partsTo ?_ (by simp) (fun w => by first | exact w | exact Cellar.scrub_wf w | exact Cellar.putUnits_wf w | exact Cellar.maskUnit_wf ‹_› w | (exact Cellar.scrub_wf (by simpa using w)) | simp [Memory.wf])))

theorem State.linkLost_keeps {r0 : State} (s : State) (h : Nat) (tgt : HostState) (status : Nat) (detail : Nat) (hk : Keeps r0 s) : Keeps r0 (State.linkLost s h tgt status detail) := by
  unfold State.linkLost
  repeat' (first | with_reducible assumption | (simp only [keeps_mk, Cellar.allocBlock_mem, Cellar.freeBlock_mem, Cellar.freeBlocks_mem, Cellar.dropStaging_mem, Cellar.replaceStaging_mem, Hearth.runs]; with_reducible refine Keeps.parts ?_) | (intro x; refine Keeps.cut (r := r0) (s := x) ?_ ?_; unfold x; rotate_left; clear_value x; intro _) | intro _ | lift_lets -underBinder | with_reducible apply State.modHost_keeps | with_reducible apply State.settleAll_keeps | with_reducible apply State.failWhere_keeps | with_reducible apply State.fenceHost_keeps | split)

theorem State.serveHost_keeps {r0 : State} (s : State) (h : Nat) (hk : Keeps r0 s) : Keeps r0 (State.serveHost s h) := by
  unfold State.serveHost
  repeat' (first | with_reducible assumption | (simp only [keeps_mk, Cellar.allocBlock_mem, Cellar.freeBlock_mem, Cellar.freeBlocks_mem, Cellar.dropStaging_mem, Cellar.replaceStaging_mem, Hearth.runs]; with_reducible refine Keeps.parts ?_) | (intro x; refine Keeps.cut (r := r0) (s := x) ?_ ?_; unfold x; rotate_left; clear_value x; intro _) | intro _ | lift_lets -underBinder | with_reducible apply State.modHost_keeps | with_reducible apply State.msix_keeps | split)

theorem execHostLinkUp_keeps {r0 : State} (host : Fin 16) (rate : Nat) (width : Nat) (s : State) (hk : Keeps r0 s) : KeepsOut r0 (execHostLinkUp host rate width s) := by
  unfold execHostLinkUp
  repeat' (first | with_reducible assumption | (simp only [keeps_mk, Cellar.allocBlock_mem, Cellar.freeBlock_mem, Cellar.freeBlocks_mem, Cellar.dropStaging_mem, Cellar.replaceStaging_mem, Hearth.runs]; with_reducible refine Keeps.parts ?_) | with_reducible apply KeepsOut.next | (intro x; refine Keeps.cut (r := r0) (s := x) ?_ ?_; unfold x; rotate_left; clear_value x; intro _) | intro _ | lift_lets -underBinder | with_reducible apply State.modHost_keeps | with_reducible apply State.serveHost_keeps | split | (simp only [keeps_mk, Cellar.allocBlock_mem, Cellar.freeBlock_mem, Cellar.freeBlocks_mem, Cellar.dropStaging_mem, Cellar.replaceStaging_mem, Hearth.runs]; with_reducible refine Keeps.partsMem ?_ (fun w => by first | exact w | exact Cellar.scrub_wf w | exact Cellar.putUnits_wf w | exact Cellar.maskUnit_wf ‹_› w | (exact Cellar.scrub_wf (by simpa using w)) | simp [Memory.wf])) | (simp only [keeps_mk, Cellar.allocBlock_mem, Cellar.freeBlock_mem, Cellar.freeBlocks_mem, Cellar.dropStaging_mem, Cellar.replaceStaging_mem, Hearth.runs]; with_reducible refine Keeps.partsTo ?_ (by simp) (fun w => by first | exact w | exact Cellar.scrub_wf w | exact Cellar.putUnits_wf w | exact Cellar.maskUnit_wf ‹_› w | (exact Cellar.scrub_wf (by simpa using w)) | simp [Memory.wf])))

theorem execHostLinkDown_keeps {r0 : State} (host : Fin 16) (s : State) (hk : Keeps r0 s) : KeepsOut r0 (execHostLinkDown host s) := by
  unfold execHostLinkDown
  repeat' (first | with_reducible assumption | with_reducible apply KeepsOut.next | (intro x; refine Keeps.cut (r := r0) (s := x) ?_ ?_; unfold x; rotate_left; clear_value x; intro _) | intro _ | lift_lets -underBinder | with_reducible apply State.linkLost_keeps | split)

theorem execHostWidthChange_keeps {r0 : State} (host : Fin 16) (width : Nat) (s : State) (hk : Keeps r0 s) : KeepsOut r0 (execHostWidthChange host width s) := by
  unfold execHostWidthChange
  repeat' (first | with_reducible assumption | (simp only [keeps_mk, Cellar.allocBlock_mem, Cellar.freeBlock_mem, Cellar.freeBlocks_mem, Cellar.dropStaging_mem, Cellar.replaceStaging_mem, Hearth.runs]; with_reducible refine Keeps.parts ?_) | with_reducible apply KeepsOut.next | (intro x; refine Keeps.cut (r := r0) (s := x) ?_ ?_; unfold x; rotate_left; clear_value x; intro _) | intro _ | lift_lets -underBinder | with_reducible apply State.putHost_keeps | with_reducible apply State.msix_keeps | split)

theorem State.busMasterOff_keeps {r0 : State} (s : State) (h : Nat) (hk : Keeps r0 s) : Keeps r0 (State.busMasterOff s h) := by
  unfold State.busMasterOff
  repeat' (first | with_reducible assumption | (simp only [keeps_mk, Cellar.allocBlock_mem, Cellar.freeBlock_mem, Cellar.freeBlocks_mem, Cellar.dropStaging_mem, Cellar.replaceStaging_mem, Hearth.runs]; with_reducible refine Keeps.parts ?_) | (intro x; refine Keeps.cut (r := r0) (s := x) ?_ ?_; unfold x; rotate_left; clear_value x; intro _) | intro _ | lift_lets -underBinder | with_reducible apply State.modHost_keeps | with_reducible apply State.settleAll_keeps | with_reducible apply State.failWhere_keeps | split)

theorem State.config_keeps {r0 : State} (s : State) (h : Nat) (z0 : ConfigReq) (hk : Keeps r0 s) : Keeps r0 (State.config s h z0) := by
  unfold State.config
  repeat' (first | with_reducible assumption | (simp only [keeps_mk, Cellar.allocBlock_mem, Cellar.freeBlock_mem, Cellar.freeBlocks_mem, Cellar.dropStaging_mem, Cellar.replaceStaging_mem, Hearth.runs]; with_reducible refine Keeps.parts ?_) | (intro x; refine Keeps.cut (r := r0) (s := x) ?_ ?_; unfold x; rotate_left; clear_value x; intro _) | intro _ | lift_lets -underBinder | with_reducible apply State.modHost_keeps | with_reducible apply State.pumpHost_keeps | with_reducible apply State.settleAll_keeps | with_reducible apply State.busMasterOff_keeps | split)

theorem execConfigRequest_keeps {r0 : State} (host : Fin 16) (req : ConfigReq) (s : State) (hk : Keeps r0 s) : KeepsOut r0 (execConfigRequest host req s) := by
  unfold execConfigRequest
  repeat' (first | with_reducible assumption | (simp only [keeps_mk, Cellar.allocBlock_mem, Cellar.freeBlock_mem, Cellar.freeBlocks_mem, Cellar.dropStaging_mem, Cellar.replaceStaging_mem, Hearth.runs]; with_reducible refine Keeps.parts ?_) | with_reducible apply KeepsOut.next | (intro x; refine Keeps.cut (r := r0) (s := x) ?_ ?_; unfold x; rotate_left; clear_value x; intro _) | intro _ | lift_lets -underBinder | with_reducible apply State.hostIn_keeps | with_reducible apply State.answer_keeps | with_reducible apply State.blockedReq_keeps | with_reducible apply State.config_keeps | split)

theorem State.hostSession_keeps {r0 : State} (s : State) (h : Nat) (identity : BitVec 384) (hk : Keeps r0 s) : Keeps r0 (State.hostSession s h identity) := by
  unfold State.hostSession
  repeat' (first | with_reducible assumption | (simp only [keeps_mk, Cellar.allocBlock_mem, Cellar.freeBlock_mem, Cellar.freeBlocks_mem, Cellar.dropStaging_mem, Cellar.replaceStaging_mem, Hearth.runs]; with_reducible refine Keeps.parts ?_) | (intro x; refine Keeps.cut (r := r0) (s := x) ?_ ?_; unfold x; rotate_left; clear_value x; intro _) | intro _ | lift_lets -underBinder | with_reducible apply State.sendEvent_keeps | with_reducible apply State.record_keeps | with_reducible apply State.msix_keeps | split | (simp only [keeps_mk, Cellar.allocBlock_mem, Cellar.freeBlock_mem, Cellar.freeBlocks_mem, Cellar.dropStaging_mem, Cellar.replaceStaging_mem, Hearth.runs]; with_reducible refine Keeps.partsMem ?_ (fun w => by first | exact w | exact Cellar.scrub_wf w | exact Cellar.putUnits_wf w | exact Cellar.maskUnit_wf ‹_› w | (exact Cellar.scrub_wf (by simpa using w)) | simp [Memory.wf])) | (simp only [keeps_mk, Cellar.allocBlock_mem, Cellar.freeBlock_mem, Cellar.freeBlocks_mem, Cellar.dropStaging_mem, Cellar.replaceStaging_mem, Hearth.runs]; with_reducible refine Keeps.partsTo ?_ (by simp) (fun w => by first | exact w | exact Cellar.scrub_wf w | exact Cellar.putUnits_wf w | exact Cellar.maskUnit_wf ‹_› w | (exact Cellar.scrub_wf (by simpa using w)) | simp [Memory.wf])))

theorem execHostSessionEstablished_keeps {r0 : State} (host : Fin 16) (identity : BitVec 384) (s : State) (hk : Keeps r0 s) : KeepsOut r0 (execHostSessionEstablished host identity s) := by
  unfold execHostSessionEstablished
  repeat' (first | with_reducible assumption | with_reducible apply KeepsOut.next | (intro x; refine Keeps.cut (r := r0) (s := x) ?_ ?_; unfold x; rotate_left; clear_value x; intro _) | intro _ | lift_lets -underBinder | with_reducible apply State.hostIn_keeps | with_reducible apply State.hostSession_keeps | split)

theorem State.slowRead_keeps {r0 : State} (s : State) (h : Nat) (t : ReadTag) (hk : Keeps r0 s) : Keeps r0 (State.slowRead s h t) := by
  unfold State.slowRead
  repeat' (first | with_reducible assumption | (intro x; refine Keeps.cut (r := r0) (s := x) ?_ ?_; unfold x; rotate_left; clear_value x; intro _) | intro _ | lift_lets -underBinder | with_reducible apply State.countSlow_keeps | split)

theorem State.readData_keeps {r0 : State} (s : State) (o : ReadOwner) (b : List Byte) (hk : Keeps r0 s) : Keeps r0 (State.readData s o b) := by
  unfold State.readData
  repeat' (first | with_reducible assumption | (simp only [keeps_mk, Cellar.allocBlock_mem, Cellar.freeBlock_mem, Cellar.freeBlocks_mem, Cellar.dropStaging_mem, Cellar.replaceStaging_mem, Hearth.runs]; with_reducible refine Keeps.parts ?_) | (intro x; refine Keeps.cut (r := r0) (s := x) ?_ ?_; unfold x; rotate_left; clear_value x; intro _) | intro _ | lift_lets -underBinder | with_reducible apply State.settle_keeps | with_reducible apply State.movePiece_keeps | with_reducible apply State.collPiece_keeps | split)

theorem State.readFailed_keeps {r0 : State} (s : State) (h : Nat) (o : ReadOwner) (hk : Keeps r0 s) : Keeps r0 (State.readFailed s h o) := by
  unfold State.readFailed
  repeat' (first | with_reducible assumption | (intro x; refine Keeps.cut (r := r0) (s := x) ?_ ?_; unfold x; rotate_left; clear_value x; intro _) | intro _ | lift_lets -underBinder | with_reducible apply State.failFlight_keeps | with_reducible apply State.settle_keeps | split)

theorem execDmaReadCompletion_keeps {r0 : State} (host : Fin 16) (tag : Nat) (res : ReadResult) (s : State) (hk : Keeps r0 s) : KeepsOut r0 (execDmaReadCompletion host tag res s) := by
  unfold execDmaReadCompletion
  repeat' (first | with_reducible assumption | (simp only [keeps_mk, Cellar.allocBlock_mem, Cellar.freeBlock_mem, Cellar.freeBlocks_mem, Cellar.dropStaging_mem, Cellar.replaceStaging_mem, Hearth.runs]; with_reducible refine Keeps.parts ?_) | with_reducible apply KeepsOut.next | (intro x; refine Keeps.cut (r := r0) (s := x) ?_ ?_; unfold x; rotate_left; clear_value x; intro _) | intro _ | lift_lets -underBinder | with_reducible apply State.modHost_keeps | with_reducible apply State.pumpHost_keeps | with_reducible apply State.slowRead_keeps | with_reducible apply State.readData_keeps | with_reducible apply State.readFailed_keeps | split)

theorem execDmaCompletionTimeout_keeps {r0 : State} (host : Fin 16) (tag : Nat) (s : State) (hk : Keeps r0 s) : KeepsOut r0 (execDmaCompletionTimeout host tag s) := by
  unfold execDmaCompletionTimeout
  repeat' (first | with_reducible assumption | (simp only [keeps_mk, Cellar.allocBlock_mem, Cellar.freeBlock_mem, Cellar.freeBlocks_mem, Cellar.dropStaging_mem, Cellar.replaceStaging_mem, Hearth.runs]; with_reducible refine Keeps.parts ?_) | with_reducible apply KeepsOut.next | (intro x; refine Keeps.cut (r := r0) (s := x) ?_ ?_; unfold x; rotate_left; clear_value x; intro _) | intro _ | lift_lets -underBinder | with_reducible apply State.modHost_keeps | with_reducible apply State.pumpHost_keeps | with_reducible apply State.reach_keeps | with_reducible apply State.readFailed_keeps | split)

theorem execReadTagLeak_keeps {r0 : State} (host : Fin 16) (tag : Nat) (s : State) (hk : Keeps r0 s) : KeepsOut r0 (execReadTagLeak host tag s) := by
  unfold execReadTagLeak
  repeat' (first | with_reducible assumption | (simp only [keeps_mk, Cellar.allocBlock_mem, Cellar.freeBlock_mem, Cellar.freeBlocks_mem, Cellar.dropStaging_mem, Cellar.replaceStaging_mem, Hearth.runs]; with_reducible refine Keeps.parts ?_) | with_reducible apply KeepsOut.next | (intro x; refine Keeps.cut (r := r0) (s := x) ?_ ?_; unfold x; rotate_left; clear_value x; intro _) | intro _ | lift_lets -underBinder | with_reducible apply State.modHost_keeps | with_reducible apply State.record_keeps | with_reducible apply State.pumpHost_keeps | with_reducible apply State.reach_keeps | split)

theorem execPorchSweep_keeps {r0 : State} (s : State) (hk : Keeps r0 s) : KeepsOut r0 (execPorchSweep s) := by
  unfold execPorchSweep
  repeat' (first | with_reducible assumption | (simp only [keeps_mk, Cellar.allocBlock_mem, Cellar.freeBlock_mem, Cellar.freeBlocks_mem, Cellar.dropStaging_mem, Cellar.replaceStaging_mem, Hearth.runs]; with_reducible refine Keeps.parts ?_) | with_reducible apply KeepsOut.next | (intro x; refine Keeps.cut (r := r0) (s := x) ?_ ?_; unfold x; rotate_left; clear_value x; intro _) | intro _ | lift_lets -underBinder | split)

theorem execHostStall_keeps {r0 : State} (host : Fin 16) (s : State) (hk : Keeps r0 s) : KeepsOut r0 (execHostStall host s) := by
  unfold execHostStall
  repeat' (first | with_reducible assumption | (simp only [keeps_mk, Cellar.allocBlock_mem, Cellar.freeBlock_mem, Cellar.freeBlocks_mem, Cellar.dropStaging_mem, Cellar.replaceStaging_mem, Hearth.runs]; with_reducible refine Keeps.parts ?_) | with_reducible apply KeepsOut.next | (intro x; refine Keeps.cut (r := r0) (s := x) ?_ ?_; unfold x; rotate_left; clear_value x; intro _) | intro _ | lift_lets -underBinder | with_reducible apply State.modHost_keeps | with_reducible apply State.record_keeps | with_reducible apply State.msix_keeps | with_reducible apply State.reach_keeps | with_reducible apply State.linkLost_keeps | split)

theorem execAtsInvalidation_keeps {r0 : State} (host : Fin 16) (iova : Word64) (len : Nat) (s : State) (hk : Keeps r0 s) : KeepsOut r0 (execAtsInvalidation host iova len s) := by
  unfold execAtsInvalidation
  repeat' (first | with_reducible assumption | (simp only [keeps_mk, Cellar.allocBlock_mem, Cellar.freeBlock_mem, Cellar.freeBlocks_mem, Cellar.dropStaging_mem, Cellar.replaceStaging_mem, Hearth.runs]; with_reducible refine Keeps.parts ?_) | with_reducible apply KeepsOut.next | (intro x; refine Keeps.cut (r := r0) (s := x) ?_ ?_; unfold x; rotate_left; clear_value x; intro _) | intro _ | lift_lets -underBinder | with_reducible apply State.modHost_keeps | with_reducible apply State.hostIn_keeps | split)

theorem execAtsTranslationCompletion_keeps {r0 : State} (host : Fin 16) (iova : Word64) (res : Option Word64) (s : State) (hk : Keeps r0 s) : KeepsOut r0 (execAtsTranslationCompletion host iova res s) := by
  unfold execAtsTranslationCompletion
  repeat' (first | with_reducible assumption | (simp only [keeps_mk, Cellar.allocBlock_mem, Cellar.freeBlock_mem, Cellar.freeBlocks_mem, Cellar.dropStaging_mem, Cellar.replaceStaging_mem, Hearth.runs]; with_reducible refine Keeps.parts ?_) | with_reducible apply KeepsOut.next | (intro x; refine Keeps.cut (r := r0) (s := x) ?_ ?_; unfold x; rotate_left; clear_value x; intro _) | intro _ | lift_lets -underBinder | with_reducible apply State.modHost_keeps | with_reducible apply overList_keeps | with_reducible apply State.pumpHost_keeps | with_reducible apply State.failFlight_keeps | with_reducible apply State.settleAll_keeps | with_reducible apply State.drop_keeps | with_reducible apply Keeps.overList | split)

theorem State.unmask_keeps {r0 : State} (s : State) (h : Nat) (v : Nat) (hk : Keeps r0 s) : Keeps r0 (State.unmask s h v) := by
  unfold State.unmask
  repeat' (first | with_reducible assumption | (simp only [keeps_mk, Cellar.allocBlock_mem, Cellar.freeBlock_mem, Cellar.freeBlocks_mem, Cellar.dropStaging_mem, Cellar.replaceStaging_mem, Hearth.runs]; with_reducible refine Keeps.parts ?_) | (intro x; refine Keeps.cut (r := r0) (s := x) ?_ ?_; unfold x; rotate_left; clear_value x; intro _) | intro _ | lift_lets -underBinder | with_reducible apply State.putHost_keeps | with_reducible apply State.msix_keeps | split)

theorem execMsixUnmask_keeps {r0 : State} (host : Fin 16) (vector : Nat) (s : State) (hk : Keeps r0 s) : KeepsOut r0 (execMsixUnmask host vector s) := by
  unfold execMsixUnmask
  repeat' (first | with_reducible assumption | with_reducible apply KeepsOut.next | (intro x; refine Keeps.cut (r := r0) (s := x) ?_ ?_; unfold x; rotate_left; clear_value x; intro _) | intro _ | lift_lets -underBinder | with_reducible apply State.hostIn_keeps | with_reducible apply State.bar0Refused_keeps | with_reducible apply State.bar0_keeps | with_reducible apply State.unmask_keeps | split)

theorem execPostedCreditReturn_keeps {r0 : State} (host : Fin 16) (flits : Nat) (s : State) (hk : Keeps r0 s) : KeepsOut r0 (execPostedCreditReturn host flits s) := by
  unfold execPostedCreditReturn
  repeat' (first | with_reducible assumption | (simp only [keeps_mk, Cellar.allocBlock_mem, Cellar.freeBlock_mem, Cellar.freeBlocks_mem, Cellar.dropStaging_mem, Cellar.replaceStaging_mem, Hearth.runs]; with_reducible refine Keeps.parts ?_) | with_reducible apply KeepsOut.next | (intro x; refine Keeps.cut (r := r0) (s := x) ?_ ?_; unfold x; rotate_left; clear_value x; intro _) | intro _ | lift_lets -underBinder | with_reducible apply State.modHost_keeps | with_reducible apply State.draw_keeps | split)

theorem execSlowReadNs_keeps {r0 : State} (host : Fin 16) (value : Word32) (s : State) (hk : Keeps r0 s) : KeepsOut r0 (execSlowReadNs host value s) := by
  unfold execSlowReadNs
  repeat' (first | with_reducible assumption | (simp only [keeps_mk, Cellar.allocBlock_mem, Cellar.freeBlock_mem, Cellar.freeBlocks_mem, Cellar.dropStaging_mem, Cellar.replaceStaging_mem, Hearth.runs]; with_reducible refine Keeps.parts ?_) | with_reducible apply KeepsOut.next | (intro x; refine Keeps.cut (r := r0) (s := x) ?_ ?_; unfold x; rotate_left; clear_value x; intro _) | intro _ | lift_lets -underBinder | with_reducible apply State.modHost_keeps | with_reducible apply State.hostIn_keeps | with_reducible apply State.bar0_keeps | split)


/-! ## Boot -/

theorem State.bootRecord_keeps {r0 : State} (s : State) (b : Bool) (code : Nat) (fatal : Bool) (hk : Keeps r0 s) : Keeps r0 (State.bootRecord s b code fatal) := by
  unfold State.bootRecord
  repeat' (first | with_reducible assumption | (intro x; refine Keeps.cut (r := r0) (s := x) ?_ ?_; unfold x; rotate_left; clear_value x; intro _) | intro _ | lift_lets -underBinder | with_reducible apply State.record_keeps | split)


/-! ## ArrayErrors -/

theorem State.arrayRecord_keeps {r0 : State} (s : State) (dataPath : Bool) (severity : Nat) (cls : Nat) (idx : Nat) (hk : Keeps r0 s) : Keeps r0 (State.arrayRecord s dataPath severity cls idx) := by
  unfold State.arrayRecord
  repeat' (first | with_reducible assumption | (intro x; refine Keeps.cut (r := r0) (s := x) ?_ ?_; unfold x; rotate_left; clear_value x; intro _) | intro _ | lift_lets -underBinder | with_reducible apply State.record_keeps | split)

theorem State.figureFault_keeps {r0 : State} (s : State) (c : Nat) (fid : Nat) (dataPath : Bool) (cls : Nat) (idx : Nat) (hk : Keeps r0 s) : Keeps r0 (State.figureFault s c fid dataPath cls idx) := by
  unfold State.figureFault
  repeat' (first | with_reducible assumption | (simp only [keeps_mk, Cellar.allocBlock_mem, Cellar.freeBlock_mem, Cellar.freeBlocks_mem, Cellar.dropStaging_mem, Cellar.replaceStaging_mem, Hearth.runs]; with_reducible refine Keeps.parts ?_) | (intro x; refine Keeps.cut (r := r0) (s := x) ?_ ?_; unfold x; rotate_left; clear_value x; intro _) | intro _ | lift_lets -underBinder | with_reducible apply State.failFlight_keeps | with_reducible apply State.settle_keeps | with_reducible apply State.arrayRecord_keeps | split)

theorem State.spoilOut_keeps {r0 : State} (s : State) (n : Nat) (o : OutChunk) (hk : Keeps r0 s) : Keeps r0 (State.spoilOut s n o) := by
  unfold State.spoilOut
  repeat' (first | with_reducible assumption | (simp only [keeps_mk, Cellar.allocBlock_mem, Cellar.freeBlock_mem, Cellar.freeBlocks_mem, Cellar.dropStaging_mem, Cellar.replaceStaging_mem, Hearth.runs]; with_reducible refine Keeps.parts ?_) | (intro x; refine Keeps.cut (r := r0) (s := x) ?_ ?_; unfold x; rotate_left; clear_value x; intro _) | intro _ | lift_lets -underBinder | with_reducible apply State.modOut_keeps | with_reducible apply State.sendMarker_keeps | with_reducible apply State.retractOut_keeps | split)

theorem State.registersReset_keeps {r0 : State} (s : State) (cls : Nat) (idx : Nat) (hk : Keeps r0 s) : Keeps r0 (State.registersReset s cls idx) := by
  unfold State.registersReset
  repeat' (first | with_reducible assumption | (simp only [keeps_mk, Cellar.allocBlock_mem, Cellar.freeBlock_mem, Cellar.freeBlocks_mem, Cellar.dropStaging_mem, Cellar.replaceStaging_mem, Hearth.runs]; with_reducible refine Keeps.parts ?_) | (intro x; refine Keeps.cut (r := r0) (s := x) ?_ ?_; unfold x; rotate_left; clear_value x; intro _) | intro _ | lift_lets -underBinder | with_reducible apply State.modCtx_keeps | with_reducible apply State.modHost_keeps | split)


/-! ## Echo -/

theorem State.echoDone_keeps {r0 : State} (s : State) (i : Nat) (outcome : Nat) (unit : Nat × Nat) (hk : Keeps r0 s) : Keeps r0 (State.echoDone s i outcome unit) := by
  unfold State.echoDone
  repeat' (first | with_reducible assumption | (simp only [keeps_mk, Cellar.allocBlock_mem, Cellar.freeBlock_mem, Cellar.freeBlocks_mem, Cellar.dropStaging_mem, Cellar.replaceStaging_mem, Hearth.runs]; with_reducible refine Keeps.parts ?_) | (intro x; refine Keeps.cut (r := r0) (s := x) ?_ ?_; unfold x; rotate_left; clear_value x; intro _) | intro _ | lift_lets -underBinder | with_reducible apply State.modSuite_keeps | with_reducible apply State.record_keeps | with_reducible apply State.suiteEvent_keeps | split)

theorem State.echoAbort_keeps {r0 : State} (s : State) (i : Nat) (hk : Keeps r0 s) : Keeps r0 (State.echoAbort s i) := by
  unfold State.echoAbort
  repeat' (first | with_reducible assumption | (intro x; refine Keeps.cut (r := r0) (s := x) ?_ ?_; unfold x; rotate_left; clear_value x; intro _) | intro _ | lift_lets -underBinder | with_reducible apply State.echoDone_keeps | split)

theorem execEchoGo_keeps {r0 : State} (host : Fin 16) (s : State) (hk : Keeps r0 s) : KeepsOut r0 (execEchoGo host s) := by
  unfold execEchoGo
  repeat' (first | with_reducible assumption | (simp only [keeps_mk, Cellar.allocBlock_mem, Cellar.freeBlock_mem, Cellar.freeBlocks_mem, Cellar.dropStaging_mem, Cellar.replaceStaging_mem, Hearth.runs]; with_reducible refine Keeps.parts ?_) | with_reducible apply KeepsOut.next | (intro x; refine Keeps.cut (r := r0) (s := x) ?_ ?_; unfold x; rotate_left; clear_value x; intro _) | intro _ | lift_lets -underBinder | with_reducible apply State.modSuite_keeps | with_reducible apply State.hostIn_keeps | with_reducible apply State.ownerWrite_keeps | with_reducible apply State.drop_keeps | with_reducible apply State.echoAbort_keeps | split)

theorem execEchoPeerTimeout_keeps {r0 : State} (suite : Fin 16) (s : State) (hk : Keeps r0 s) : KeepsOut r0 (execEchoPeerTimeout suite s) := by
  unfold execEchoPeerTimeout
  repeat' (first | with_reducible assumption | with_reducible apply KeepsOut.next | (intro x; refine Keeps.cut (r := r0) (s := x) ?_ ?_; unfold x; rotate_left; clear_value x; intro _) | intro _ | lift_lets -underBinder | with_reducible apply State.reach_keeps | with_reducible apply State.echoAbort_keeps | split)

theorem State.cellFailed_keeps {r0 : State} (s : State) (cell : Nat) (hk : Keeps r0 s) : Keeps r0 (State.cellFailed s cell) := by
  unfold State.cellFailed
  repeat' (first | with_reducible assumption | (intro x; refine Keeps.cut (r := r0) (s := x) ?_ ?_; unfold x; rotate_left; clear_value x; intro _) | intro _ | lift_lets -underBinder | with_reducible apply State.stagingLost_keeps | split)

theorem execEchoComplete_keeps {r0 : State} (suite : Fin 16) (res : EchoResult) (s : State) (hk : Keeps r0 s) : KeepsOut r0 (execEchoComplete suite res s) := by
  unfold execEchoComplete
  repeat' (first | with_reducible assumption | (simp only [keeps_mk, Cellar.allocBlock_mem, Cellar.freeBlock_mem, Cellar.freeBlocks_mem, Cellar.dropStaging_mem, Cellar.replaceStaging_mem, Hearth.runs]; with_reducible refine Keeps.parts ?_) | with_reducible apply KeepsOut.next | (intro x; refine Keeps.cut (r := r0) (s := x) ?_ ?_; unfold x; rotate_left; clear_value x; intro _) | intro _ | lift_lets -underBinder | with_reducible apply State.modSuite_keeps | with_reducible apply overList_keeps | with_reducible apply State.echoDone_keeps | with_reducible apply State.cellFailed_keeps | with_reducible apply Keeps.overList | split)


/-! ## Startup -/

theorem State.conflict_keeps {r0 : State} (s : State) (cls : Nat) (idx : Nat) (row : Nat) (keptCls : Nat) (keptIdx : Nat) (hk : Keeps r0 s) : Keeps r0 (State.conflict s cls idx row keptCls keptIdx) := by
  unfold State.conflict
  repeat' (first | with_reducible assumption | (intro x; refine Keeps.cut (r := r0) (s := x) ?_ ?_; unfold x; rotate_left; clear_value x; intro _) | intro _ | lift_lets -underBinder | with_reducible apply State.record_keeps | split)

theorem State.dropSuite_keeps {r0 : State} (s : State) (i : Nat) (row : Nat) (keptCls : Nat) (keptIdx : Nat) (hk : Keeps r0 s) : Keeps r0 (State.dropSuite s i row keptCls keptIdx) := by
  unfold State.dropSuite
  repeat' (first | with_reducible assumption | (simp only [keeps_mk, Cellar.allocBlock_mem, Cellar.freeBlock_mem, Cellar.freeBlocks_mem, Cellar.dropStaging_mem, Cellar.replaceStaging_mem, Hearth.runs]; with_reducible refine Keeps.parts ?_) | (intro x; refine Keeps.cut (r := r0) (s := x) ?_ ?_; unfold x; rotate_left; clear_value x; intro _) | intro _ | lift_lets -underBinder | with_reducible apply State.modSuite_keeps | with_reducible apply State.conflict_keeps | split)

theorem State.conflictSync_keeps {r0 : State} (s : State) (hk : Keeps r0 s) : Keeps r0 (State.conflictSync s) := by
  unfold State.conflictSync
  repeat' (first | with_reducible assumption | (simp only [keeps_mk, Cellar.allocBlock_mem, Cellar.freeBlock_mem, Cellar.freeBlocks_mem, Cellar.dropStaging_mem, Cellar.replaceStaging_mem, Hearth.runs]; with_reducible refine Keeps.parts ?_) | (intro x; refine Keeps.cut (r := r0) (s := x) ?_ ?_; unfold x; rotate_left; clear_value x; intro _) | intro _ | lift_lets -underBinder | with_reducible apply State.conflict_keeps | split | (simp only [keeps_mk, Cellar.allocBlock_mem, Cellar.freeBlock_mem, Cellar.freeBlocks_mem, Cellar.dropStaging_mem, Cellar.replaceStaging_mem, Hearth.runs]; with_reducible refine Keeps.partsMem ?_ (fun w => by first | exact w | exact Cellar.scrub_wf w | exact Cellar.putUnits_wf w | exact Cellar.maskUnit_wf ‹_› w | (exact Cellar.scrub_wf (by simpa using w)) | simp [Memory.wf])) | (simp only [keeps_mk, Cellar.allocBlock_mem, Cellar.freeBlock_mem, Cellar.freeBlocks_mem, Cellar.dropStaging_mem, Cellar.replaceStaging_mem, Hearth.runs]; with_reducible refine Keeps.partsTo ?_ (by simp) (fun w => by first | exact w | exact Cellar.scrub_wf w | exact Cellar.putUnits_wf w | exact Cellar.maskUnit_wf ‹_› w | (exact Cellar.scrub_wf (by simpa using w)) | simp [Memory.wf])))

theorem State.conflictSuites_keeps {r0 : State} (s : State) (hk : Keeps r0 s) : Keeps r0 (State.conflictSuites s) := by
  unfold State.conflictSuites
  repeat' (first | with_reducible assumption | (simp only [keeps_mk, Cellar.allocBlock_mem, Cellar.freeBlock_mem, Cellar.freeBlocks_mem, Cellar.dropStaging_mem, Cellar.replaceStaging_mem, Hearth.runs]; with_reducible refine Keeps.parts ?_) | (intro x; refine Keeps.cut (r := r0) (s := x) ?_ ?_; unfold x; rotate_left; clear_value x; intro _) | intro _ | lift_lets -underBinder | with_reducible apply overList_keeps | with_reducible apply State.dropSuite_keeps | with_reducible apply Keeps.overList | split)

theorem State.conflictBonds_keeps {r0 : State} (s : State) (hk : Keeps r0 s) : Keeps r0 (State.conflictBonds s) := by
  unfold State.conflictBonds
  repeat' (first | with_reducible assumption | (simp only [keeps_mk, Cellar.allocBlock_mem, Cellar.freeBlock_mem, Cellar.freeBlocks_mem, Cellar.dropStaging_mem, Cellar.replaceStaging_mem, Hearth.runs]; with_reducible refine Keeps.parts ?_) | (intro x; refine Keeps.cut (r := r0) (s := x) ?_ ?_; unfold x; rotate_left; clear_value x; intro _) | intro _ | lift_lets -underBinder | with_reducible apply overList_keeps | with_reducible apply State.dropSuite_keeps | with_reducible apply Keeps.overList | split)

theorem State.conflictFloors_keeps {r0 : State} (s : State) (hk : Keeps r0 s) : Keeps r0 (State.conflictFloors s) := by
  unfold State.conflictFloors
  repeat' (first | with_reducible assumption | (intro x; refine Keeps.cut (r := r0) (s := x) ?_ ?_; unfold x; rotate_left; clear_value x; intro _) | intro _ | lift_lets -underBinder | with_reducible apply overList_keeps | with_reducible apply State.dropSuite_keeps | with_reducible apply Keeps.overList | split)

theorem State.conflictSpine_keeps {r0 : State} (s : State) (hk : Keeps r0 s) : Keeps r0 (State.conflictSpine s) := by
  unfold State.conflictSpine
  repeat' (first | with_reducible assumption | (intro x; refine Keeps.cut (r := r0) (s := x) ?_ ?_; unfold x; rotate_left; clear_value x; intro _) | intro _ | lift_lets -underBinder | with_reducible apply overList_keeps | with_reducible apply State.conflict_keeps | with_reducible apply Keeps.overList | split)

theorem State.conflictPorts_keeps {r0 : State} (s : State) (hk : Keeps r0 s) : Keeps r0 (State.conflictPorts s) := by
  unfold State.conflictPorts
  repeat' (first | with_reducible assumption | (intro x; refine Keeps.cut (r := r0) (s := x) ?_ ?_; unfold x; rotate_left; clear_value x; intro _) | intro _ | lift_lets -underBinder | with_reducible apply overList_keeps | with_reducible apply State.conflict_keeps | with_reducible apply Keeps.overList | split)

theorem State.layOut_keeps {r0 : State} (s : State) (hk : Keeps r0 s) : Keeps r0 (State.layOut s) := by
  unfold State.layOut
  repeat' (first | with_reducible assumption | (simp only [keeps_mk, Cellar.allocBlock_mem, Cellar.freeBlock_mem, Cellar.freeBlocks_mem, Cellar.dropStaging_mem, Cellar.replaceStaging_mem, Hearth.runs]; with_reducible refine Keeps.parts ?_) | (intro x; refine Keeps.cut (r := r0) (s := x) ?_ ?_; unfold x; rotate_left; clear_value x; intro _) | intro _ | lift_lets -underBinder | with_reducible apply State.drop_keeps | split | (simp only [keeps_mk, Cellar.allocBlock_mem, Cellar.freeBlock_mem, Cellar.freeBlocks_mem, Cellar.dropStaging_mem, Cellar.replaceStaging_mem, Hearth.runs]; with_reducible refine Keeps.partsMem ?_ (fun w => by first | exact w | exact Cellar.scrub_wf w | exact Cellar.putUnits_wf w | exact Cellar.maskUnit_wf ‹_› w | (exact Cellar.scrub_wf (by simpa using w)) | simp [Memory.wf])) | (simp only [keeps_mk, Cellar.allocBlock_mem, Cellar.freeBlock_mem, Cellar.freeBlocks_mem, Cellar.dropStaging_mem, Cellar.replaceStaging_mem, Hearth.runs]; with_reducible refine Keeps.partsTo ?_ (by simp) (fun w => by first | exact w | exact Cellar.scrub_wf w | exact Cellar.putUnits_wf w | exact Cellar.maskUnit_wf ‹_› w | (exact Cellar.scrub_wf (by simpa using w)) | simp [Memory.wf])))

theorem State.beginTraining_keeps {r0 : State} (s : State) (hk : Keeps r0 s) : Keeps r0 (State.beginTraining s) := by
  unfold State.beginTraining
  repeat' (first | with_reducible assumption | (simp only [keeps_mk, Cellar.allocBlock_mem, Cellar.freeBlock_mem, Cellar.freeBlocks_mem, Cellar.dropStaging_mem, Cellar.replaceStaging_mem, Hearth.runs]; with_reducible refine Keeps.parts ?_) | (intro x; refine Keeps.cut (r := r0) (s := x) ?_ ?_; unfold x; rotate_left; clear_value x; intro _) | intro _ | lift_lets -underBinder | with_reducible apply State.modHost_keeps | with_reducible apply State.modPort_keeps | with_reducible apply overList_keeps | with_reducible apply Keeps.overList | split | (simp only [keeps_mk, Cellar.allocBlock_mem, Cellar.freeBlock_mem, Cellar.freeBlocks_mem, Cellar.dropStaging_mem, Cellar.replaceStaging_mem, Hearth.runs]; with_reducible refine Keeps.partsMem ?_ (fun w => by first | exact w | exact Cellar.scrub_wf w | exact Cellar.putUnits_wf w | exact Cellar.maskUnit_wf ‹_› w | (exact Cellar.scrub_wf (by simpa using w)) | simp [Memory.wf])) | (simp only [keeps_mk, Cellar.allocBlock_mem, Cellar.freeBlock_mem, Cellar.freeBlocks_mem, Cellar.dropStaging_mem, Cellar.replaceStaging_mem, Hearth.runs]; with_reducible refine Keeps.partsTo ?_ (by simp) (fun w => by first | exact w | exact Cellar.scrub_wf w | exact Cellar.putUnits_wf w | exact Cellar.maskUnit_wf ‹_› w | (exact Cellar.scrub_wf (by simpa using w)) | simp [Memory.wf])))

theorem execScrubComplete_keeps {r0 : State} (bad : List (Nat × Nat)) (s : State) (hk : Keeps r0 s) : KeepsOut r0 (execScrubComplete bad s) := by
  unfold execScrubComplete
  repeat' (first | with_reducible assumption | (simp only [keeps_mk, Cellar.allocBlock_mem, Cellar.freeBlock_mem, Cellar.freeBlocks_mem, Cellar.dropStaging_mem, Cellar.replaceStaging_mem, Hearth.runs]; with_reducible refine Keeps.parts ?_) | with_reducible apply KeepsOut.next | (intro x; refine Keeps.cut (r := r0) (s := x) ?_ ?_; unfold x; rotate_left; clear_value x; intro _) | intro _ | lift_lets -underBinder | with_reducible apply overList_keeps | with_reducible apply State.record_keeps | with_reducible apply State.capacityCheck_keeps | with_reducible apply State.layOut_keeps | with_reducible apply State.beginTraining_keeps | with_reducible apply Keeps.foldl | with_reducible apply Keeps.overList | split | (simp only [keeps_mk, Cellar.allocBlock_mem, Cellar.freeBlock_mem, Cellar.freeBlocks_mem, Cellar.dropStaging_mem, Cellar.replaceStaging_mem, Hearth.runs]; with_reducible refine Keeps.partsMem ?_ (fun w => by first | exact w | exact Cellar.scrub_wf w | exact Cellar.putUnits_wf w | exact Cellar.maskUnit_wf ‹_› w | (exact Cellar.scrub_wf (by simpa using w)) | simp [Memory.wf])) | (simp only [keeps_mk, Cellar.allocBlock_mem, Cellar.freeBlock_mem, Cellar.freeBlocks_mem, Cellar.dropStaging_mem, Cellar.replaceStaging_mem, Hearth.runs]; with_reducible refine Keeps.partsTo ?_ (by simp) (fun w => by first | exact w | exact Cellar.scrub_wf w | exact Cellar.putUnits_wf w | exact Cellar.maskUnit_wf ‹_› w | (exact Cellar.scrub_wf (by simpa using w)) | simp [Memory.wf])))

theorem execTrainingPhaseEnd_keeps {r0 : State} (s : State) (hk : Keeps r0 s) : KeepsOut r0 (execTrainingPhaseEnd s) := by
  unfold execTrainingPhaseEnd
  repeat' (first | with_reducible assumption | (simp only [keeps_mk, Cellar.allocBlock_mem, Cellar.freeBlock_mem, Cellar.freeBlocks_mem, Cellar.dropStaging_mem, Cellar.replaceStaging_mem, Hearth.runs]; with_reducible refine Keeps.parts ?_) | with_reducible apply KeepsOut.next | (intro x; refine Keeps.cut (r := r0) (s := x) ?_ ?_; unfold x; rotate_left; clear_value x; intro _) | intro _ | lift_lets -underBinder | with_reducible apply overList_keeps | with_reducible apply State.trainFailed_keeps | with_reducible apply Keeps.overList | split | (simp only [keeps_mk, Cellar.allocBlock_mem, Cellar.freeBlock_mem, Cellar.freeBlocks_mem, Cellar.dropStaging_mem, Cellar.replaceStaging_mem, Hearth.runs]; with_reducible refine Keeps.partsMem ?_ (fun w => by first | exact w | exact Cellar.scrub_wf w | exact Cellar.putUnits_wf w | exact Cellar.maskUnit_wf ‹_› w | (exact Cellar.scrub_wf (by simpa using w)) | simp [Memory.wf])) | (simp only [keeps_mk, Cellar.allocBlock_mem, Cellar.freeBlock_mem, Cellar.freeBlocks_mem, Cellar.dropStaging_mem, Cellar.replaceStaging_mem, Hearth.runs]; with_reducible refine Keeps.partsTo ?_ (by simp) (fun w => by first | exact w | exact Cellar.scrub_wf w | exact Cellar.putUnits_wf w | exact Cellar.maskUnit_wf ‹_› w | (exact Cellar.scrub_wf (by simpa using w)) | simp [Memory.wf])))

theorem State.becomeReady_keeps {r0 : State} (s : State) (hk : Keeps r0 s) : Keeps r0 (State.becomeReady s) := by
  unfold State.becomeReady
  repeat' (first | with_reducible assumption | (simp only [keeps_mk, Cellar.allocBlock_mem, Cellar.freeBlock_mem, Cellar.freeBlocks_mem, Cellar.dropStaging_mem, Cellar.replaceStaging_mem, Hearth.runs]; with_reducible refine Keeps.parts ?_) | (intro x; refine Keeps.cut (r := r0) (s := x) ?_ ?_; unfold x; rotate_left; clear_value x; intro _) | intro _ | lift_lets -underBinder | with_reducible apply overList_keeps | with_reducible apply State.setSuite_keeps | with_reducible apply State.acceptAll_keeps | with_reducible apply State.serveHost_keeps | with_reducible apply Keeps.overList | split | (simp only [keeps_mk, Cellar.allocBlock_mem, Cellar.freeBlock_mem, Cellar.freeBlocks_mem, Cellar.dropStaging_mem, Cellar.replaceStaging_mem, Hearth.runs]; with_reducible refine Keeps.partsMem ?_ (fun w => by first | exact w | exact Cellar.scrub_wf w | exact Cellar.putUnits_wf w | exact Cellar.maskUnit_wf ‹_› w | (exact Cellar.scrub_wf (by simpa using w)) | simp [Memory.wf])) | (simp only [keeps_mk, Cellar.allocBlock_mem, Cellar.freeBlock_mem, Cellar.freeBlocks_mem, Cellar.dropStaging_mem, Cellar.replaceStaging_mem, Hearth.runs]; with_reducible refine Keeps.partsTo ?_ (by simp) (fun w => by first | exact w | exact Cellar.scrub_wf w | exact Cellar.putUnits_wf w | exact Cellar.maskUnit_wf ‹_› w | (exact Cellar.scrub_wf (by simpa using w)) | simp [Memory.wf])))

theorem execSyncingComplete_keeps {r0 : State} (port : Fin 36) (count : Word64) (s : State) (hk : Keeps r0 s) : KeepsOut r0 (execSyncingComplete port count s) := by
  unfold execSyncingComplete
  repeat' (first | with_reducible assumption | (simp only [keeps_mk, Cellar.allocBlock_mem, Cellar.freeBlock_mem, Cellar.freeBlocks_mem, Cellar.dropStaging_mem, Cellar.replaceStaging_mem, Hearth.runs]; with_reducible refine Keeps.parts ?_) | with_reducible apply KeepsOut.next | (intro x; refine Keeps.cut (r := r0) (s := x) ?_ ?_; unfold x; rotate_left; clear_value x; intro _) | intro _ | lift_lets -underBinder | with_reducible apply State.becomeReady_keeps | split | (simp only [keeps_mk, Cellar.allocBlock_mem, Cellar.freeBlock_mem, Cellar.freeBlocks_mem, Cellar.dropStaging_mem, Cellar.replaceStaging_mem, Hearth.runs]; with_reducible refine Keeps.partsMem ?_ (fun w => by first | exact w | exact Cellar.scrub_wf w | exact Cellar.putUnits_wf w | exact Cellar.maskUnit_wf ‹_› w | (exact Cellar.scrub_wf (by simpa using w)) | simp [Memory.wf])) | (simp only [keeps_mk, Cellar.allocBlock_mem, Cellar.freeBlock_mem, Cellar.freeBlocks_mem, Cellar.dropStaging_mem, Cellar.replaceStaging_mem, Hearth.runs]; with_reducible refine Keeps.partsTo ?_ (by simp) (fun w => by first | exact w | exact Cellar.scrub_wf w | exact Cellar.putUnits_wf w | exact Cellar.maskUnit_wf ‹_› w | (exact Cellar.scrub_wf (by simpa using w)) | simp [Memory.wf])))

theorem execCounterMasterTimeout_keeps {r0 : State} (s : State) (hk : Keeps r0 s) : KeepsOut r0 (execCounterMasterTimeout s) := by
  unfold execCounterMasterTimeout
  repeat' (first | with_reducible assumption | (simp only [keeps_mk, Cellar.allocBlock_mem, Cellar.freeBlock_mem, Cellar.freeBlocks_mem, Cellar.dropStaging_mem, Cellar.replaceStaging_mem, Hearth.runs]; with_reducible refine Keeps.parts ?_) | with_reducible apply KeepsOut.next | (intro x; refine Keeps.cut (r := r0) (s := x) ?_ ?_; unfold x; rotate_left; clear_value x; intro _) | intro _ | lift_lets -underBinder | with_reducible apply State.becomeReady_keeps | split | (simp only [keeps_mk, Cellar.allocBlock_mem, Cellar.freeBlock_mem, Cellar.freeBlocks_mem, Cellar.dropStaging_mem, Cellar.replaceStaging_mem, Hearth.runs]; with_reducible refine Keeps.partsMem ?_ (fun w => by first | exact w | exact Cellar.scrub_wf w | exact Cellar.putUnits_wf w | exact Cellar.maskUnit_wf ‹_› w | (exact Cellar.scrub_wf (by simpa using w)) | simp [Memory.wf])) | (simp only [keeps_mk, Cellar.allocBlock_mem, Cellar.freeBlock_mem, Cellar.freeBlocks_mem, Cellar.dropStaging_mem, Cellar.replaceStaging_mem, Hearth.runs]; with_reducible refine Keeps.partsTo ?_ (by simp) (fun w => by first | exact w | exact Cellar.scrub_wf w | exact Cellar.putUnits_wf w | exact Cellar.maskUnit_wf ‹_› w | (exact Cellar.scrub_wf (by simpa using w)) | simp [Memory.wf])))


/-! ## WatchdogHalt -/

theorem execWatchdogCheckIn_keeps {r0 : State} (slot : Fin 8) (key : BitVec 16) (s : State) (hk : Keeps r0 s) : KeepsOut r0 (execWatchdogCheckIn slot key s) := by
  unfold execWatchdogCheckIn
  repeat' (first | with_reducible assumption | (simp only [keeps_mk, Cellar.allocBlock_mem, Cellar.freeBlock_mem, Cellar.freeBlocks_mem, Cellar.dropStaging_mem, Cellar.replaceStaging_mem, Hearth.runs]; with_reducible refine Keeps.parts ?_) | with_reducible apply KeepsOut.next | (intro x; refine Keeps.cut (r := r0) (s := x) ?_ ?_; unfold x; rotate_left; clear_value x; intro _) | intro _ | lift_lets -underBinder | split)

theorem State.tellSuites_keeps {r0 : State} (s : State) (hk : Keeps r0 s) : Keeps r0 (State.tellSuites s) := by
  unfold State.tellSuites
  repeat' (first | with_reducible assumption | (intro x; refine Keeps.cut (r := r0) (s := x) ?_ ?_; unfold x; rotate_left; clear_value x; intro _) | intro _ | lift_lets -underBinder | with_reducible apply overList_keeps | with_reducible apply State.suiteEvent_keeps | with_reducible apply Keeps.overList | split)

theorem State.beginHalt_keeps {r0 : State} (s : State) (hk : Keeps r0 s) : Keeps r0 (State.beginHalt s) := by
  unfold State.beginHalt
  repeat' (first | with_reducible assumption | (simp only [keeps_mk, Cellar.allocBlock_mem, Cellar.freeBlock_mem, Cellar.freeBlocks_mem, Cellar.dropStaging_mem, Cellar.replaceStaging_mem, Hearth.runs]; with_reducible refine Keeps.parts ?_) | (intro x; refine Keeps.cut (r := r0) (s := x) ?_ ?_; unfold x; rotate_left; clear_value x; intro _) | intro _ | lift_lets -underBinder | split | (simp only [keeps_mk, Cellar.allocBlock_mem, Cellar.freeBlock_mem, Cellar.freeBlocks_mem, Cellar.dropStaging_mem, Cellar.replaceStaging_mem, Hearth.runs]; with_reducible refine Keeps.partsMem ?_ (fun w => by first | exact w | exact Cellar.scrub_wf w | exact Cellar.putUnits_wf w | exact Cellar.maskUnit_wf ‹_› w | (exact Cellar.scrub_wf (by simpa using w)) | simp [Memory.wf])) | (simp only [keeps_mk, Cellar.allocBlock_mem, Cellar.freeBlock_mem, Cellar.freeBlocks_mem, Cellar.dropStaging_mem, Cellar.replaceStaging_mem, Hearth.runs]; with_reducible refine Keeps.partsTo ?_ (by simp) (fun w => by first | exact w | exact Cellar.scrub_wf w | exact Cellar.putUnits_wf w | exact Cellar.maskUnit_wf ‹_› w | (exact Cellar.scrub_wf (by simpa using w)) | simp [Memory.wf])))

theorem State.discrepancyFault_keeps {r0 : State} (s : State) (channelB : Bool) (hk : Keeps r0 s) : Keeps r0 (State.discrepancyFault s channelB) := by
  unfold State.discrepancyFault
  repeat' (first | with_reducible assumption | (simp only [keeps_mk, Cellar.allocBlock_mem, Cellar.freeBlock_mem, Cellar.freeBlocks_mem, Cellar.dropStaging_mem, Cellar.replaceStaging_mem, Hearth.runs]; with_reducible refine Keeps.parts ?_) | (intro x; refine Keeps.cut (r := r0) (s := x) ?_ ?_; unfold x; rotate_left; clear_value x; intro _) | intro _ | lift_lets -underBinder | with_reducible apply State.record_keeps | with_reducible apply State.beginHalt_keeps | split)

theorem execHaltInputChange_keeps {r0 : State} (channelB : Bool) (asserted : Bool) (samples : Nat) (s : State) (hk : Keeps r0 s) : KeepsOut r0 (execHaltInputChange channelB asserted samples s) := by
  unfold execHaltInputChange
  repeat' (first | with_reducible assumption | (simp only [keeps_mk, Cellar.allocBlock_mem, Cellar.freeBlock_mem, Cellar.freeBlocks_mem, Cellar.dropStaging_mem, Cellar.replaceStaging_mem, Hearth.runs]; with_reducible refine Keeps.parts ?_) | with_reducible apply KeepsOut.next | (intro x; refine Keeps.cut (r := r0) (s := x) ?_ ?_; unfold x; rotate_left; clear_value x; intro _) | intro _ | lift_lets -underBinder | with_reducible apply State.record_keeps | with_reducible apply State.beginHalt_keeps | with_reducible apply State.discrepancyFault_keeps | split)

theorem execHaltDiscrepancyExpiry_keeps {r0 : State} (s : State) (hk : Keeps r0 s) : KeepsOut r0 (execHaltDiscrepancyExpiry s) := by
  unfold execHaltDiscrepancyExpiry
  repeat' (first | with_reducible assumption | with_reducible apply KeepsOut.next | (intro x; refine Keeps.cut (r := r0) (s := x) ?_ ?_; unfold x; rotate_left; clear_value x; intro _) | intro _ | lift_lets -underBinder | with_reducible apply State.discrepancyFault_keeps | split)

theorem State.goInert_keeps {r0 : State} (s : State) (hk : Keeps r0 s) : Keeps r0 (State.goInert s) := by
  unfold State.goInert
  repeat' (first | with_reducible assumption | (simp only [keeps_mk, Cellar.allocBlock_mem, Cellar.freeBlock_mem, Cellar.freeBlocks_mem, Cellar.dropStaging_mem, Cellar.replaceStaging_mem, Hearth.runs]; with_reducible refine Keeps.parts ?_) | (intro x; refine Keeps.cut (r := r0) (s := x) ?_ ?_; unfold x; rotate_left; clear_value x; intro _) | intro _ | lift_lets -underBinder | with_reducible apply State.modHost_keeps | with_reducible apply State.modPort_keeps | with_reducible apply overList_keeps | with_reducible apply State.portTo_keeps | with_reducible apply State.linkLost_keeps | with_reducible apply Keeps.overList | split | (simp only [keeps_mk, Cellar.allocBlock_mem, Cellar.freeBlock_mem, Cellar.freeBlocks_mem, Cellar.dropStaging_mem, Cellar.replaceStaging_mem, Hearth.runs]; with_reducible refine Keeps.partsMem ?_ (fun w => by first | exact w | exact Cellar.scrub_wf w | exact Cellar.putUnits_wf w | exact Cellar.maskUnit_wf ‹_› w | (exact Cellar.scrub_wf (by simpa using w)) | simp [Memory.wf])) | (simp only [keeps_mk, Cellar.allocBlock_mem, Cellar.freeBlock_mem, Cellar.freeBlocks_mem, Cellar.dropStaging_mem, Cellar.replaceStaging_mem, Hearth.runs]; with_reducible refine Keeps.partsTo ?_ (by simp) (fun w => by first | exact w | exact Cellar.scrub_wf w | exact Cellar.putUnits_wf w | exact Cellar.maskUnit_wf ‹_› w | (exact Cellar.scrub_wf (by simpa using w)) | simp [Memory.wf])))

theorem execHaltGraceExpiry_keeps {r0 : State} (s : State) (hk : Keeps r0 s) : KeepsOut r0 (execHaltGraceExpiry s) := by
  unfold execHaltGraceExpiry
  repeat' (first | with_reducible assumption | (simp only [keeps_mk, Cellar.allocBlock_mem, Cellar.freeBlock_mem, Cellar.freeBlocks_mem, Cellar.dropStaging_mem, Cellar.replaceStaging_mem, Hearth.runs]; with_reducible refine Keeps.parts ?_) | with_reducible apply KeepsOut.next | (intro x; refine Keeps.cut (r := r0) (s := x) ?_ ?_; unfold x; rotate_left; clear_value x; intro _) | intro _ | lift_lets -underBinder | with_reducible apply overList_keeps | with_reducible apply State.settleAll_keeps | with_reducible apply State.cancelAll_keeps | with_reducible apply State.goInert_keeps | with_reducible apply Keeps.overList | split)

theorem State.trainAgain_keeps {r0 : State} (s : State) (hk : Keeps r0 s) : Keeps r0 (State.trainAgain s) := by
  unfold State.trainAgain
  repeat' (first | with_reducible assumption | (simp only [keeps_mk, Cellar.allocBlock_mem, Cellar.freeBlock_mem, Cellar.freeBlocks_mem, Cellar.dropStaging_mem, Cellar.replaceStaging_mem, Hearth.runs]; with_reducible refine Keeps.parts ?_) | (intro x; refine Keeps.cut (r := r0) (s := x) ?_ ?_; unfold x; rotate_left; clear_value x; intro _) | intro _ | lift_lets -underBinder | with_reducible apply State.modHost_keeps | with_reducible apply State.modPort_keeps | with_reducible apply overList_keeps | with_reducible apply State.retrain_keeps | with_reducible apply Keeps.overList | split)

theorem execResumeComplete_keeps {r0 : State} (s : State) (hk : Keeps r0 s) : KeepsOut r0 (execResumeComplete s) := by
  unfold execResumeComplete
  repeat' (first | with_reducible assumption | (simp only [keeps_mk, Cellar.allocBlock_mem, Cellar.freeBlock_mem, Cellar.freeBlocks_mem, Cellar.dropStaging_mem, Cellar.replaceStaging_mem, Hearth.runs]; with_reducible refine Keeps.parts ?_) | with_reducible apply KeepsOut.next | (intro x; refine Keeps.cut (r := r0) (s := x) ?_ ?_; unfold x; rotate_left; clear_value x; intro _) | intro _ | lift_lets -underBinder | with_reducible apply State.settleAll_keeps | with_reducible apply State.acceptAll_keeps | split | (simp only [keeps_mk, Cellar.allocBlock_mem, Cellar.freeBlock_mem, Cellar.freeBlocks_mem, Cellar.dropStaging_mem, Cellar.replaceStaging_mem, Hearth.runs]; with_reducible refine Keeps.partsMem ?_ (fun w => by first | exact w | exact Cellar.scrub_wf w | exact Cellar.putUnits_wf w | exact Cellar.maskUnit_wf ‹_› w | (exact Cellar.scrub_wf (by simpa using w)) | simp [Memory.wf])) | (simp only [keeps_mk, Cellar.allocBlock_mem, Cellar.freeBlock_mem, Cellar.freeBlocks_mem, Cellar.dropStaging_mem, Cellar.replaceStaging_mem, Hearth.runs]; with_reducible refine Keeps.partsTo ?_ (by simp) (fun w => by first | exact w | exact Cellar.scrub_wf w | exact Cellar.putUnits_wf w | exact Cellar.maskUnit_wf ‹_› w | (exact Cellar.scrub_wf (by simpa using w)) | simp [Memory.wf])))


/-! ## SledPower -/

theorem State.tryDebounce_keeps {r0 : State} (s : State) (hk : Keeps r0 s) : Keeps r0 (State.tryDebounce s) := by
  unfold State.tryDebounce
  repeat' (first | with_reducible assumption | (simp only [keeps_mk, Cellar.allocBlock_mem, Cellar.freeBlock_mem, Cellar.freeBlocks_mem, Cellar.dropStaging_mem, Cellar.replaceStaging_mem, Hearth.runs]; with_reducible refine Keeps.parts ?_) | (intro x; refine Keeps.cut (r := r0) (s := x) ?_ ?_; unfold x; rotate_left; clear_value x; intro _) | intro _ | lift_lets -underBinder | split)

theorem execPrsntNMate_keeps {r0 : State} (s : State) (hk : Keeps r0 s) : KeepsOut r0 (execPrsntNMate s) := by
  unfold execPrsntNMate
  repeat' (first | with_reducible assumption | (simp only [keeps_mk, Cellar.allocBlock_mem, Cellar.freeBlock_mem, Cellar.freeBlocks_mem, Cellar.dropStaging_mem, Cellar.replaceStaging_mem, Hearth.runs]; with_reducible refine Keeps.parts ?_) | with_reducible apply KeepsOut.next | (intro x; refine Keeps.cut (r := r0) (s := x) ?_ ?_; unfold x; rotate_left; clear_value x; intro _) | intro _ | lift_lets -underBinder | with_reducible apply State.tryDebounce_keeps | split)

theorem execPrsntDebounceComplete_keeps {r0 : State} (s : State) (hk : Keeps r0 s) : KeepsOut r0 (execPrsntDebounceComplete s) := by
  unfold execPrsntDebounceComplete
  repeat' (first | with_reducible assumption | (simp only [keeps_mk, Cellar.allocBlock_mem, Cellar.freeBlock_mem, Cellar.freeBlocks_mem, Cellar.dropStaging_mem, Cellar.replaceStaging_mem, Hearth.runs]; with_reducible refine Keeps.parts ?_) | with_reducible apply KeepsOut.next | (intro x; refine Keeps.cut (r := r0) (s := x) ?_ ?_; unfold x; rotate_left; clear_value x; intro _) | intro _ | lift_lets -underBinder | split)

theorem execBulkChargeComplete_keeps {r0 : State} (s : State) (hk : Keeps r0 s) : KeepsOut r0 (execBulkChargeComplete s) := by
  unfold execBulkChargeComplete
  repeat' (first | with_reducible assumption | (simp only [keeps_mk, Cellar.allocBlock_mem, Cellar.freeBlock_mem, Cellar.freeBlocks_mem, Cellar.dropStaging_mem, Cellar.replaceStaging_mem, Hearth.runs]; with_reducible refine Keeps.parts ?_) | with_reducible apply KeepsOut.next | (intro x; refine Keeps.cut (r := r0) (s := x) ?_ ?_; unfold x; rotate_left; clear_value x; intro _) | intro _ | lift_lets -underBinder | split)

theorem execInputVoltageReturn_keeps {r0 : State} (mv : Nat) (s : State) (hk : Keeps r0 s) : KeepsOut r0 (execInputVoltageReturn mv s) := by
  unfold execInputVoltageReturn
  repeat' (first | with_reducible assumption | (simp only [keeps_mk, Cellar.allocBlock_mem, Cellar.freeBlock_mem, Cellar.freeBlocks_mem, Cellar.dropStaging_mem, Cellar.replaceStaging_mem, Hearth.runs]; with_reducible refine Keeps.parts ?_) | with_reducible apply KeepsOut.next | (intro x; refine Keeps.cut (r := r0) (s := x) ?_ ?_; unfold x; rotate_left; clear_value x; intro _) | intro _ | lift_lets -underBinder | with_reducible apply State.tryDebounce_keeps | split)

theorem State.setCclk_keeps {r0 : State} (s : State) (mhz : Nat) (hk : Keeps r0 s) : Keeps r0 (State.setCclk s mhz) := by
  unfold State.setCclk
  repeat' (first | with_reducible assumption | (simp only [keeps_mk, Cellar.allocBlock_mem, Cellar.freeBlock_mem, Cellar.freeBlocks_mem, Cellar.dropStaging_mem, Cellar.replaceStaging_mem, Hearth.runs]; with_reducible refine Keeps.parts ?_) | (intro x; refine Keeps.cut (r := r0) (s := x) ?_ ?_; unfold x; rotate_left; clear_value x; intro _) | intro _ | lift_lets -underBinder | split)

theorem execThrottleStepDown_keeps {r0 : State} (s : State) (hk : Keeps r0 s) : KeepsOut r0 (execThrottleStepDown s) := by
  unfold execThrottleStepDown
  repeat' (first | with_reducible assumption | with_reducible apply KeepsOut.next | (intro x; refine Keeps.cut (r := r0) (s := x) ?_ ?_; unfold x; rotate_left; clear_value x; intro _) | intro _ | lift_lets -underBinder | with_reducible apply overList_keeps | with_reducible apply State.disturb_keeps | with_reducible apply State.setCclk_keeps | with_reducible apply Keeps.overList | split)

theorem execThrottleStepUp_keeps {r0 : State} (s : State) (hk : Keeps r0 s) : KeepsOut r0 (execThrottleStepUp s) := by
  unfold execThrottleStepUp
  repeat' (first | with_reducible assumption | with_reducible apply KeepsOut.next | (intro x; refine Keeps.cut (r := r0) (s := x) ?_ ?_; unfold x; rotate_left; clear_value x; intro _) | intro _ | lift_lets -underBinder | with_reducible apply State.setCclk_keeps | split)

theorem execThermalHalt_keeps {r0 : State} (s : State) (hk : Keeps r0 s) : KeepsOut r0 (execThermalHalt s) := by
  unfold execThermalHalt
  repeat' (first | with_reducible assumption | (simp only [keeps_mk, Cellar.allocBlock_mem, Cellar.freeBlock_mem, Cellar.freeBlocks_mem, Cellar.dropStaging_mem, Cellar.replaceStaging_mem, Hearth.runs]; with_reducible refine Keeps.parts ?_) | with_reducible apply KeepsOut.next | (intro x; refine Keeps.cut (r := r0) (s := x) ?_ ?_; unfold x; rotate_left; clear_value x; intro _) | intro _ | lift_lets -underBinder | with_reducible apply State.beginHalt_keeps | split)

theorem State.tapLoad_keeps {r0 : State} (s : State) (op : BitVec 8) (hk : Keeps r0 s) : Keeps r0 (State.tapLoad s op) := by
  unfold State.tapLoad
  repeat' (first | with_reducible assumption | (simp only [keeps_mk, Cellar.allocBlock_mem, Cellar.freeBlock_mem, Cellar.freeBlocks_mem, Cellar.dropStaging_mem, Cellar.replaceStaging_mem, Hearth.runs]; with_reducible refine Keeps.parts ?_) | (intro x; refine Keeps.cut (r := r0) (s := x) ?_ ?_; unfold x; rotate_left; clear_value x; intro _) | intro _ | lift_lets -underBinder | with_reducible apply State.beginHalt_keeps | split | (simp only [keeps_mk, Cellar.allocBlock_mem, Cellar.freeBlock_mem, Cellar.freeBlocks_mem, Cellar.dropStaging_mem, Cellar.replaceStaging_mem, Hearth.runs]; with_reducible refine Keeps.partsMem ?_ (fun w => by first | exact w | exact Cellar.scrub_wf w | exact Cellar.putUnits_wf w | exact Cellar.maskUnit_wf ‹_› w | (exact Cellar.scrub_wf (by simpa using w)) | simp [Memory.wf])) | (simp only [keeps_mk, Cellar.allocBlock_mem, Cellar.freeBlock_mem, Cellar.freeBlocks_mem, Cellar.dropStaging_mem, Cellar.replaceStaging_mem, Hearth.runs]; with_reducible refine Keeps.partsTo ?_ (by simp) (fun w => by first | exact w | exact Cellar.scrub_wf w | exact Cellar.putUnits_wf w | exact Cellar.maskUnit_wf ‹_› w | (exact Cellar.scrub_wf (by simpa using w)) | simp [Memory.wf])))

theorem execTapInstruction_keeps {r0 : State} (op : BitVec 8) (s : State) (hk : Keeps r0 s) : KeepsOut r0 (execTapInstruction op s) := by
  unfold execTapInstruction
  repeat' (first | with_reducible assumption | with_reducible apply KeepsOut.next | (intro x; refine Keeps.cut (r := r0) (s := x) ?_ ?_; unfold x; rotate_left; clear_value x; intro _) | intro _ | lift_lets -underBinder | with_reducible apply State.tapLoad_keeps | split)

theorem execTapHaltInstruction_keeps {r0 : State} (op : BitVec 8) (s : State) (hk : Keeps r0 s) : KeepsOut r0 (execTapHaltInstruction op s) := by
  unfold execTapHaltInstruction
  repeat' (first | with_reducible assumption | with_reducible apply KeepsOut.next | (intro x; refine Keeps.cut (r := r0) (s := x) ?_ ?_; unfold x; rotate_left; clear_value x; intro _) | intro _ | lift_lets -underBinder | with_reducible apply State.tapLoad_keeps | split)

theorem execTapReset_keeps {r0 : State} (s : State) (hk : Keeps r0 s) : KeepsOut r0 (execTapReset s) := by
  unfold execTapReset
  repeat' (first | with_reducible assumption | (simp only [keeps_mk, Cellar.allocBlock_mem, Cellar.freeBlock_mem, Cellar.freeBlocks_mem, Cellar.dropStaging_mem, Cellar.replaceStaging_mem, Hearth.runs]; with_reducible refine Keeps.parts ?_) | with_reducible apply KeepsOut.next | (intro x; refine Keeps.cut (r := r0) (s := x) ?_ ?_; unfold x; rotate_left; clear_value x; intro _) | intro _ | lift_lets -underBinder | split)

theorem execDozeEntry_keeps {r0 : State} (s : State) (hk : Keeps r0 s) : KeepsOut r0 (execDozeEntry s) := by
  unfold execDozeEntry
  repeat' (first | with_reducible assumption | (simp only [keeps_mk, Cellar.allocBlock_mem, Cellar.freeBlock_mem, Cellar.freeBlocks_mem, Cellar.dropStaging_mem, Cellar.replaceStaging_mem, Hearth.runs]; with_reducible refine Keeps.parts ?_) | with_reducible apply KeepsOut.next | (intro x; refine Keeps.cut (r := r0) (s := x) ?_ ?_; unfold x; rotate_left; clear_value x; intro _) | intro _ | lift_lets -underBinder | split | (simp only [keeps_mk, Cellar.allocBlock_mem, Cellar.freeBlock_mem, Cellar.freeBlocks_mem, Cellar.dropStaging_mem, Cellar.replaceStaging_mem, Hearth.runs]; with_reducible refine Keeps.partsMem ?_ (fun w => by first | exact w | exact Cellar.scrub_wf w | exact Cellar.putUnits_wf w | exact Cellar.maskUnit_wf ‹_› w | (exact Cellar.scrub_wf (by simpa using w)) | simp [Memory.wf])) | (simp only [keeps_mk, Cellar.allocBlock_mem, Cellar.freeBlock_mem, Cellar.freeBlocks_mem, Cellar.dropStaging_mem, Cellar.replaceStaging_mem, Hearth.runs]; with_reducible refine Keeps.partsTo ?_ (by simp) (fun w => by first | exact w | exact Cellar.scrub_wf w | exact Cellar.putUnits_wf w | exact Cellar.maskUnit_wf ‹_› w | (exact Cellar.scrub_wf (by simpa using w)) | simp [Memory.wf])))

theorem execWaitCountWake_keeps {r0 : State} (s : State) (hk : Keeps r0 s) : KeepsOut r0 (execWaitCountWake s) := by
  unfold execWaitCountWake
  repeat' (first | with_reducible assumption | (simp only [keeps_mk, Cellar.allocBlock_mem, Cellar.freeBlock_mem, Cellar.freeBlocks_mem, Cellar.dropStaging_mem, Cellar.replaceStaging_mem, Hearth.runs]; with_reducible refine Keeps.parts ?_) | with_reducible apply KeepsOut.next | (intro x; refine Keeps.cut (r := r0) (s := x) ?_ ?_; unfold x; rotate_left; clear_value x; intro _) | intro _ | lift_lets -underBinder | with_reducible apply State.wake_keeps | with_reducible apply State.reach_keeps | split | (simp only [keeps_mk, Cellar.allocBlock_mem, Cellar.freeBlock_mem, Cellar.freeBlocks_mem, Cellar.dropStaging_mem, Cellar.replaceStaging_mem, Hearth.runs]; with_reducible refine Keeps.partsMem ?_ (fun w => by first | exact w | exact Cellar.scrub_wf w | exact Cellar.putUnits_wf w | exact Cellar.maskUnit_wf ‹_› w | (exact Cellar.scrub_wf (by simpa using w)) | simp [Memory.wf])) | (simp only [keeps_mk, Cellar.allocBlock_mem, Cellar.freeBlock_mem, Cellar.freeBlocks_mem, Cellar.dropStaging_mem, Cellar.replaceStaging_mem, Hearth.runs]; with_reducible refine Keeps.partsTo ?_ (by simp) (fun w => by first | exact w | exact Cellar.scrub_wf w | exact Cellar.putUnits_wf w | exact Cellar.maskUnit_wf ‹_› w | (exact Cellar.scrub_wf (by simpa using w)) | simp [Memory.wf])))

theorem State.bankService_keeps {r0 : State} (s : State) (hk : Keeps r0 s) : Keeps r0 (State.bankService s) := by
  unfold State.bankService
  repeat' (first | with_reducible assumption | (simp only [keeps_mk, Cellar.allocBlock_mem, Cellar.freeBlock_mem, Cellar.freeBlocks_mem, Cellar.dropStaging_mem, Cellar.replaceStaging_mem, Hearth.runs]; with_reducible refine Keeps.parts ?_) | (intro x; refine Keeps.cut (r := r0) (s := x) ?_ ?_; unfold x; rotate_left; clear_value x; intro _) | intro _ | lift_lets -underBinder | with_reducible apply State.acceptAll_keeps | with_reducible apply State.cellarDone_keeps | split | (simp only [keeps_mk, Cellar.allocBlock_mem, Cellar.freeBlock_mem, Cellar.freeBlocks_mem, Cellar.dropStaging_mem, Cellar.replaceStaging_mem, Hearth.runs]; with_reducible refine Keeps.partsMem ?_ (fun w => by first | exact w | exact Cellar.scrub_wf w | exact Cellar.putUnits_wf w | exact Cellar.maskUnit_wf ‹_› w | (exact Cellar.scrub_wf (by simpa using w)) | simp [Memory.wf])) | (simp only [keeps_mk, Cellar.allocBlock_mem, Cellar.freeBlock_mem, Cellar.freeBlocks_mem, Cellar.dropStaging_mem, Cellar.replaceStaging_mem, Hearth.runs]; with_reducible refine Keeps.partsTo ?_ (by simp) (fun w => by first | exact w | exact Cellar.scrub_wf w | exact Cellar.putUnits_wf w | exact Cellar.maskUnit_wf ‹_› w | (exact Cellar.scrub_wf (by simpa using w)) | simp [Memory.wf])))

theorem execBankedEntryComplete_keeps {r0 : State} (s : State) (hk : Keeps r0 s) : KeepsOut r0 (execBankedEntryComplete s) := by
  unfold execBankedEntryComplete
  repeat' (first | with_reducible assumption | (simp only [keeps_mk, Cellar.allocBlock_mem, Cellar.freeBlock_mem, Cellar.freeBlocks_mem, Cellar.dropStaging_mem, Cellar.replaceStaging_mem, Hearth.runs]; with_reducible refine Keeps.parts ?_) | with_reducible apply KeepsOut.next | (intro x; refine Keeps.cut (r := r0) (s := x) ?_ ?_; unfold x; rotate_left; clear_value x; intro _) | intro _ | lift_lets -underBinder | with_reducible apply overList_keeps | with_reducible apply State.acceptAll_keeps | with_reducible apply State.leaveUp_keeps | with_reducible apply State.linkLost_keeps | with_reducible apply State.bankService_keeps | with_reducible apply Keeps.overList | split | (simp only [keeps_mk, Cellar.allocBlock_mem, Cellar.freeBlock_mem, Cellar.freeBlocks_mem, Cellar.dropStaging_mem, Cellar.replaceStaging_mem, Hearth.runs]; with_reducible refine Keeps.partsMem ?_ (fun w => by first | exact w | exact Cellar.scrub_wf w | exact Cellar.putUnits_wf w | exact Cellar.maskUnit_wf ‹_› w | (exact Cellar.scrub_wf (by simpa using w)) | simp [Memory.wf])) | (simp only [keeps_mk, Cellar.allocBlock_mem, Cellar.freeBlock_mem, Cellar.freeBlocks_mem, Cellar.dropStaging_mem, Cellar.replaceStaging_mem, Hearth.runs]; with_reducible refine Keeps.partsTo ?_ (by simp) (fun w => by first | exact w | exact Cellar.scrub_wf w | exact Cellar.putUnits_wf w | exact Cellar.maskUnit_wf ‹_› w | (exact Cellar.scrub_wf (by simpa using w)) | simp [Memory.wf])))


/-! ## MgmtBase -/

theorem State.respond_keeps {r0 : State} (s : State) (code : Nat) (tag : BitVec 16) (status : Nat) (detail : Nat) (payload : List Byte) (hk : Keeps r0 s) : Keeps r0 (State.respond s code tag status detail payload) := by
  unfold State.respond
  repeat' (first | with_reducible assumption | (simp only [keeps_mk, Cellar.allocBlock_mem, Cellar.freeBlock_mem, Cellar.freeBlocks_mem, Cellar.dropStaging_mem, Cellar.replaceStaging_mem, Hearth.runs]; with_reducible refine Keeps.parts ?_) | (intro x; refine Keeps.cut (r := r0) (s := x) ?_ ?_; unfold x; rotate_left; clear_value x; intro _) | intro _ | lift_lets -underBinder | split)

theorem State.reply_keeps {r0 : State} (s : State) (code : Nat) (tag : BitVec 16) (status : Nat) (detail : Nat) (hk : Keeps r0 s) : Keeps r0 (State.reply s code tag status detail) := by
  unfold State.reply
  repeat' (first | with_reducible assumption | (intro x; refine Keeps.cut (r := r0) (s := x) ?_ ?_; unfold x; rotate_left; clear_value x; intro _) | intro _ | lift_lets -underBinder | with_reducible apply State.respond_keeps | split)

theorem State.ok_keeps {r0 : State} (s : State) (code : Nat) (tag : BitVec 16) (hk : Keeps r0 s) : Keeps r0 (State.ok s code tag) := by
  unfold State.ok
  repeat' (first | with_reducible assumption | (intro x; refine Keeps.cut (r := r0) (s := x) ?_ ?_; unfold x; rotate_left; clear_value x; intro _) | intro _ | lift_lets -underBinder | with_reducible apply State.reply_keeps | split)

theorem State.accept_keeps {r0 : State} (s : State) (code : Nat) (tag : BitVec 16) (cls : Nat) (units : List Nat) (region : Option Nat) (payload : List Byte) (hk : Keeps r0 s) : Keeps r0 (State.accept s code tag cls units region payload) := by
  unfold State.accept
  repeat' (first | with_reducible assumption | (simp only [keeps_mk, Cellar.allocBlock_mem, Cellar.freeBlock_mem, Cellar.freeBlocks_mem, Cellar.dropStaging_mem, Cellar.replaceStaging_mem, Hearth.runs]; with_reducible refine Keeps.parts ?_) | (intro x; refine Keeps.cut (r := r0) (s := x) ?_ ?_; unfold x; rotate_left; clear_value x; intro _) | intro _ | lift_lets -underBinder | with_reducible apply State.respond_keeps | split)

theorem State.busy_keeps {r0 : State} (s : State) (code : Nat) (tag : BitVec 16) (cls : Nat) (idx : Nat) (hk : Keeps r0 s) : Keeps r0 (State.busy s code tag cls idx) := by
  unfold State.busy
  repeat' (first | with_reducible assumption | (intro x; refine Keeps.cut (r := r0) (s := x) ?_ ?_; unfold x; rotate_left; clear_value x; intro _) | intro _ | lift_lets -underBinder | with_reducible apply State.reply_keeps | split)

theorem State.sessionUsed_keeps {r0 : State} (s : State) (sess : Option Nat) (hk : Keeps r0 s) : Keeps r0 (State.sessionUsed s sess) := by
  unfold State.sessionUsed
  repeat' (first | with_reducible assumption | (simp only [keeps_mk, Cellar.allocBlock_mem, Cellar.freeBlock_mem, Cellar.freeBlocks_mem, Cellar.dropStaging_mem, Cellar.replaceStaging_mem, Hearth.runs]; with_reducible refine Keeps.parts ?_) | (intro x; refine Keeps.cut (r := r0) (s := x) ?_ ?_; unfold x; rotate_left; clear_value x; intro _) | intro _ | lift_lets -underBinder | split)

theorem State.mgmtMissed_keeps {r0 : State} (s : State) (hk : Keeps r0 s) : Keeps r0 (State.mgmtMissed s) := by
  unfold State.mgmtMissed
  repeat' (first | with_reducible assumption | (simp only [keeps_mk, Cellar.allocBlock_mem, Cellar.freeBlock_mem, Cellar.freeBlocks_mem, Cellar.dropStaging_mem, Cellar.replaceStaging_mem, Hearth.runs]; with_reducible refine Keeps.parts ?_) | (intro x; refine Keeps.cut (r := r0) (s := x) ?_ ?_; unfold x; rotate_left; clear_value x; intro _) | intro _ | lift_lets -underBinder | split | (simp only [keeps_mk, Cellar.allocBlock_mem, Cellar.freeBlock_mem, Cellar.freeBlocks_mem, Cellar.dropStaging_mem, Cellar.replaceStaging_mem, Hearth.runs]; with_reducible refine Keeps.partsMem ?_ (fun w => by first | exact w | exact Cellar.scrub_wf w | exact Cellar.putUnits_wf w | exact Cellar.maskUnit_wf ‹_› w | (exact Cellar.scrub_wf (by simpa using w)) | simp [Memory.wf])) | (simp only [keeps_mk, Cellar.allocBlock_mem, Cellar.freeBlock_mem, Cellar.freeBlocks_mem, Cellar.dropStaging_mem, Cellar.replaceStaging_mem, Hearth.runs]; with_reducible refine Keeps.partsTo ?_ (by simp) (fun w => by first | exact w | exact Cellar.scrub_wf w | exact Cellar.putUnits_wf w | exact Cellar.maskUnit_wf ‹_› w | (exact Cellar.scrub_wf (by simpa using w)) | simp [Memory.wf])))

theorem State.command_keeps {r0 : State} (s : State) (sess : Option Nat) (tag : BitVec 16) (code : Nat) (free : Bool) (ready : Bool) (lenOk : Bool) (fields : List (Bool × Nat)) (f : State → State) (hk : Keeps r0 s) (hf : ∀ y0, Keeps r0 y0 → Keeps r0 (f y0)) : Keeps r0 (State.command s sess tag code free ready lenOk fields f) := by
  unfold State.command
  repeat' (first | with_reducible assumption | (simp only [keeps_mk, Cellar.allocBlock_mem, Cellar.freeBlock_mem, Cellar.freeBlocks_mem, Cellar.dropStaging_mem, Cellar.replaceStaging_mem, Hearth.runs]; with_reducible refine Keeps.parts ?_) | with_reducible apply hf | (intro x; refine Keeps.cut (r := r0) (s := x) ?_ ?_; unfold x; rotate_left; clear_value x; intro _) | intro _ | lift_lets -underBinder | with_reducible apply State.reply_keeps | with_reducible apply State.sessionUsed_keeps | with_reducible apply State.mgmtMissed_keeps | split | (simp only [keeps_mk, Cellar.allocBlock_mem, Cellar.freeBlock_mem, Cellar.freeBlocks_mem, Cellar.dropStaging_mem, Cellar.replaceStaging_mem, Hearth.runs]; with_reducible refine Keeps.partsMem ?_ (fun w => by first | exact w | exact Cellar.scrub_wf w | exact Cellar.putUnits_wf w | exact Cellar.maskUnit_wf ‹_› w | (exact Cellar.scrub_wf (by simpa using w)) | simp [Memory.wf])) | (simp only [keeps_mk, Cellar.allocBlock_mem, Cellar.freeBlock_mem, Cellar.freeBlocks_mem, Cellar.dropStaging_mem, Cellar.replaceStaging_mem, Hearth.runs]; with_reducible refine Keeps.partsTo ?_ (by simp) (fun w => by first | exact w | exact Cellar.scrub_wf w | exact Cellar.putUnits_wf w | exact Cellar.maskUnit_wf ‹_› w | (exact Cellar.scrub_wf (by simpa using w)) | simp [Memory.wf])))

theorem State.readyCommand_keeps {r0 : State} (s : State) (sess : Option Nat) (tag : BitVec 16) (code : Nat) (lenOk : Bool) (fields : List (Bool × Nat)) (f : State → State) (hk : Keeps r0 s) (hf : ∀ y0, Keeps r0 y0 → Keeps r0 (f y0)) : Keeps r0 (State.readyCommand s sess tag code lenOk fields f) := by
  unfold State.readyCommand
  repeat' (first | with_reducible assumption | with_reducible apply hf | (intro x; refine Keeps.cut (r := r0) (s := x) ?_ ?_; unfold x; rotate_left; clear_value x; intro _) | intro _ | lift_lets -underBinder | with_reducible apply State.wake_keeps | with_reducible apply State.command_keeps | split)

theorem State.ifFree_keeps {r0 : State} (s : State) (code : Nat) (tag : BitVec 16) (cls : Nat) (idx : Nat) (f : State → State) (hk : Keeps r0 s) (hf : ∀ y0, Keeps r0 y0 → Keeps r0 (f y0)) : Keeps r0 (State.ifFree s code tag cls idx f) := by
  unfold State.ifFree
  repeat' (first | with_reducible assumption | with_reducible apply hf | (intro x; refine Keeps.cut (r := r0) (s := x) ?_ ?_; unfold x; rotate_left; clear_value x; intro _) | intro _ | lift_lets -underBinder | with_reducible apply State.countTarget_keeps | with_reducible apply State.busy_keeps | split)


/-! ## Service -/

theorem State.drainSuite_keeps {r0 : State} (s : State) (i : Nat) (hk : Keeps r0 s) : Keeps r0 (State.drainSuite s i) := by
  unfold State.drainSuite
  repeat' (first | with_reducible assumption | (intro x; refine Keeps.cut (r := r0) (s := x) ?_ ?_; unfold x; rotate_left; clear_value x; intro _) | intro _ | lift_lets -underBinder | with_reducible apply overList_keeps | with_reducible apply State.setSuite_keeps | with_reducible apply State.abortCtx_keeps | with_reducible apply State.echoAbort_keeps | with_reducible apply State.busy_keeps | with_reducible apply Keeps.overList | split)

theorem State.drainHost_keeps {r0 : State} (s : State) (h : Nat) (hk : Keeps r0 s) : Keeps r0 (State.drainHost s h) := by
  unfold State.drainHost
  repeat' (first | with_reducible assumption | (simp only [keeps_mk, Cellar.allocBlock_mem, Cellar.freeBlock_mem, Cellar.freeBlocks_mem, Cellar.dropStaging_mem, Cellar.replaceStaging_mem, Hearth.runs]; with_reducible refine Keeps.parts ?_) | (intro x; refine Keeps.cut (r := r0) (s := x) ?_ ?_; unfold x; rotate_left; clear_value x; intro _) | intro _ | lift_lets -underBinder | with_reducible apply State.modHost_keeps | with_reducible apply State.settleAll_keeps | with_reducible apply State.failWhere_keeps | with_reducible apply State.fenceHost_keeps | split)

theorem State.drainPort_keeps {r0 : State} (s : State) (p : Nat) (hk : Keeps r0 s) : Keeps r0 (State.drainPort s p) := by
  unfold State.drainPort
  repeat' (first | with_reducible assumption | (simp only [keeps_mk, Cellar.allocBlock_mem, Cellar.freeBlock_mem, Cellar.freeBlocks_mem, Cellar.dropStaging_mem, Cellar.replaceStaging_mem, Hearth.runs]; with_reducible refine Keeps.parts ?_) | (intro x; refine Keeps.cut (r := r0) (s := x) ?_ ?_; unfold x; rotate_left; clear_value x; intro _) | intro _ | lift_lets -underBinder | with_reducible apply State.modPort_keeps | with_reducible apply State.leaveUpAs_keeps | split)

theorem State.drainPart_keeps {r0 : State} (s : State) (cls : Nat) (idx : Nat) (hk : Keeps r0 s) : Keeps r0 (State.drainPart s cls idx) := by
  unfold State.drainPart
  repeat' (first | with_reducible assumption | (simp only [keeps_mk, Cellar.allocBlock_mem, Cellar.freeBlock_mem, Cellar.freeBlocks_mem, Cellar.dropStaging_mem, Cellar.replaceStaging_mem, Hearth.runs]; with_reducible refine Keeps.parts ?_) | (intro x; refine Keeps.cut (r := r0) (s := x) ?_ ?_; unfold x; rotate_left; clear_value x; intro _) | intro _ | lift_lets -underBinder | with_reducible apply overList_keeps | with_reducible apply State.abortCtx_keeps | with_reducible apply State.replaceStaging_keeps | with_reducible apply State.drainSuite_keeps | with_reducible apply State.drainHost_keeps | with_reducible apply State.drainPort_keeps | with_reducible apply Keeps.overList | split)

theorem State.resetPart_keeps {r0 : State} (s : State) (cls : Nat) (idx : Nat) (hk : Keeps r0 s) : Keeps r0 (State.resetPart s cls idx) := by
  unfold State.resetPart
  repeat' (first | with_reducible assumption | (simp only [keeps_mk, Cellar.allocBlock_mem, Cellar.freeBlock_mem, Cellar.freeBlocks_mem, Cellar.dropStaging_mem, Cellar.replaceStaging_mem, Hearth.runs]; with_reducible refine Keeps.parts ?_) | (intro x; refine Keeps.cut (r := r0) (s := x) ?_ ?_; unfold x; rotate_left; clear_value x; intro _) | intro _ | lift_lets -underBinder | with_reducible apply State.modCtx_keeps | with_reducible apply State.modHost_keeps | with_reducible apply State.modPort_keeps | with_reducible apply State.modExt_keeps | with_reducible apply overList_keeps | with_reducible apply State.setSuite_keeps | with_reducible apply Keeps.overList | split | (simp only [keeps_mk, Cellar.allocBlock_mem, Cellar.freeBlock_mem, Cellar.freeBlocks_mem, Cellar.dropStaging_mem, Cellar.replaceStaging_mem, Hearth.runs]; with_reducible refine Keeps.partsMem ?_ (fun w => by first | exact w | exact Cellar.scrub_wf w | exact Cellar.putUnits_wf w | exact Cellar.maskUnit_wf ‹_› w | (exact Cellar.scrub_wf (by simpa using w)) | simp [Memory.wf])) | (simp only [keeps_mk, Cellar.allocBlock_mem, Cellar.freeBlock_mem, Cellar.freeBlocks_mem, Cellar.dropStaging_mem, Cellar.replaceStaging_mem, Hearth.runs]; with_reducible refine Keeps.partsTo ?_ (by simp) (fun w => by first | exact w | exact Cellar.scrub_wf w | exact Cellar.putUnits_wf w | exact Cellar.maskUnit_wf ‹_› w | (exact Cellar.scrub_wf (by simpa using w)) | simp [Memory.wf])))

theorem State.suiteCleared_keeps {r0 : State} (s : State) (i : Nat) (hk : Keeps r0 s) : Keeps r0 (State.suiteCleared s i) := by
  unfold State.suiteCleared
  repeat' (first | with_reducible assumption | (simp only [keeps_mk, Cellar.allocBlock_mem, Cellar.freeBlock_mem, Cellar.freeBlocks_mem, Cellar.dropStaging_mem, Cellar.replaceStaging_mem, Hearth.runs]; with_reducible refine Keeps.parts ?_) | (intro x; refine Keeps.cut (r := r0) (s := x) ?_ ?_; unfold x; rotate_left; clear_value x; intro _) | intro _ | lift_lets -underBinder | with_reducible apply State.modCtx_keeps | with_reducible apply State.modSuite_keeps | with_reducible apply overList_keeps | with_reducible apply State.setEntry_keeps | with_reducible apply Keeps.foldl | with_reducible apply Keeps.overList | split | (simp only [keeps_mk, Cellar.allocBlock_mem, Cellar.freeBlock_mem, Cellar.freeBlocks_mem, Cellar.dropStaging_mem, Cellar.replaceStaging_mem, Hearth.runs]; with_reducible refine Keeps.partsMem ?_ (fun w => by first | exact w | exact Cellar.scrub_wf w | exact Cellar.putUnits_wf w | exact Cellar.maskUnit_wf ‹_› w | (exact Cellar.scrub_wf (by simpa using w)) | simp [Memory.wf])) | (simp only [keeps_mk, Cellar.allocBlock_mem, Cellar.freeBlock_mem, Cellar.freeBlocks_mem, Cellar.dropStaging_mem, Cellar.replaceStaging_mem, Hearth.runs]; with_reducible refine Keeps.partsTo ?_ (by simp) (fun w => by first | exact w | exact Cellar.scrub_wf w | exact Cellar.putUnits_wf w | exact Cellar.maskUnit_wf ‹_› w | (exact Cellar.scrub_wf (by simpa using w)) | simp [Memory.wf])))

theorem State.partCleared_keeps {r0 : State} (s : State) (cls : Nat) (idx : Nat) (hk : Keeps r0 s) : Keeps r0 (State.partCleared s cls idx) := by
  unfold State.partCleared
  repeat' (first | with_reducible assumption | (simp only [keeps_mk, Cellar.allocBlock_mem, Cellar.freeBlock_mem, Cellar.freeBlocks_mem, Cellar.dropStaging_mem, Cellar.replaceStaging_mem, Hearth.runs]; with_reducible refine Keeps.parts ?_) | (intro x; refine Keeps.cut (r := r0) (s := x) ?_ ?_; unfold x; rotate_left; clear_value x; intro _) | intro _ | lift_lets -underBinder | with_reducible apply State.modHost_keeps | with_reducible apply State.modExt_keeps | with_reducible apply overList_keeps | with_reducible apply State.clearingDone_keeps | with_reducible apply State.suiteCleared_keeps | with_reducible apply Keeps.overList | split)

theorem State.callerBack_keeps {r0 : State} (s : State) (k : Nat) (hk : Keeps r0 s) : Keeps r0 (State.callerBack s k) := by
  unfold State.callerBack
  repeat' (first | with_reducible assumption | (simp only [keeps_mk, Cellar.allocBlock_mem, Cellar.freeBlock_mem, Cellar.freeBlocks_mem, Cellar.dropStaging_mem, Cellar.replaceStaging_mem, Hearth.runs]; with_reducible refine Keeps.parts ?_) | (intro x; refine Keeps.cut (r := r0) (s := x) ?_ ?_; unfold x; rotate_left; clear_value x; intro _) | intro _ | lift_lets -underBinder | with_reducible apply State.putCtx_keeps | with_reducible apply overList_keeps | with_reducible apply State.refresh_keeps | with_reducible apply State.carryOut_keeps | with_reducible apply Keeps.overList | split)

theorem State.portBack_keeps {r0 : State} (s : State) (p : Nat) (hk : Keeps r0 s) : Keeps r0 (State.portBack s p) := by
  unfold State.portBack
  repeat' (first | with_reducible assumption | (simp only [keeps_mk, Cellar.allocBlock_mem, Cellar.freeBlock_mem, Cellar.freeBlocks_mem, Cellar.dropStaging_mem, Cellar.replaceStaging_mem, Hearth.runs]; with_reducible refine Keeps.parts ?_) | (intro x; refine Keeps.cut (r := r0) (s := x) ?_ ?_; unfold x; rotate_left; clear_value x; intro _) | intro _ | lift_lets -underBinder | with_reducible apply State.modPort_keeps | with_reducible apply State.retrain_keeps | split)

theorem State.hostBack_keeps {r0 : State} (s : State) (h : Nat) (hk : Keeps r0 s) : Keeps r0 (State.hostBack s h) := by
  unfold State.hostBack
  repeat' (first | with_reducible assumption | (simp only [keeps_mk, Cellar.allocBlock_mem, Cellar.freeBlock_mem, Cellar.freeBlocks_mem, Cellar.dropStaging_mem, Cellar.replaceStaging_mem, Hearth.runs]; with_reducible refine Keeps.parts ?_) | (intro x; refine Keeps.cut (r := r0) (s := x) ?_ ?_; unfold x; rotate_left; clear_value x; intro _) | intro _ | lift_lets -underBinder | with_reducible apply State.modHost_keeps | split)

theorem State.partBack_keeps {r0 : State} (s : State) (cls : Nat) (idx : Nat) (hk : Keeps r0 s) : Keeps r0 (State.partBack s cls idx) := by
  unfold State.partBack
  repeat' (first | with_reducible assumption | (simp only [keeps_mk, Cellar.allocBlock_mem, Cellar.freeBlock_mem, Cellar.freeBlocks_mem, Cellar.dropStaging_mem, Cellar.replaceStaging_mem, Hearth.runs]; with_reducible refine Keeps.parts ?_) | (intro x; refine Keeps.cut (r := r0) (s := x) ?_ ?_; unfold x; rotate_left; clear_value x; intro _) | intro _ | lift_lets -underBinder | with_reducible apply overList_keeps | with_reducible apply State.setSuite_keeps | with_reducible apply State.callerBack_keeps | with_reducible apply State.portBack_keeps | with_reducible apply State.hostBack_keeps | with_reducible apply Keeps.overList | split)

theorem State.partOut_keeps {r0 : State} (s : State) (cls : Nat) (idx : Nat) (hk : Keeps r0 s) : Keeps r0 (State.partOut s cls idx) := by
  unfold State.partOut
  repeat' (first | with_reducible assumption | (simp only [keeps_mk, Cellar.allocBlock_mem, Cellar.freeBlock_mem, Cellar.freeBlocks_mem, Cellar.dropStaging_mem, Cellar.replaceStaging_mem, Hearth.runs]; with_reducible refine Keeps.parts ?_) | (intro x; refine Keeps.cut (r := r0) (s := x) ?_ ?_; unfold x; rotate_left; clear_value x; intro _) | intro _ | lift_lets -underBinder | with_reducible apply overList_keeps | with_reducible apply State.setSuite_keeps | with_reducible apply State.linkLost_keeps | with_reducible apply Keeps.overList | split)

theorem State.modJob_keeps {r0 : State} (s : State) (j : SvcJob) (k : SvcJob) (hk : Keeps r0 s) : Keeps r0 (State.modJob s j k) := by
  unfold State.modJob
  repeat' (first | with_reducible assumption | (simp only [keeps_mk, Cellar.allocBlock_mem, Cellar.freeBlock_mem, Cellar.freeBlocks_mem, Cellar.dropStaging_mem, Cellar.replaceStaging_mem, Hearth.runs]; with_reducible refine Keeps.parts ?_) | (intro x; refine Keeps.cut (r := r0) (s := x) ?_ ?_; unfold x; rotate_left; clear_value x; intro _) | intro _ | lift_lets -underBinder | split)

theorem State.beginService_keeps {r0 : State} (s : State) (cls : Nat) (idx : Nat) (powerDown : Bool) (hk : Keeps r0 s) : Keeps r0 (State.beginService s cls idx powerDown) := by
  unfold State.beginService
  repeat' (first | with_reducible assumption | (simp only [keeps_mk, Cellar.allocBlock_mem, Cellar.freeBlock_mem, Cellar.freeBlocks_mem, Cellar.dropStaging_mem, Cellar.replaceStaging_mem, Hearth.runs]; with_reducible refine Keeps.parts ?_) | (intro x; refine Keeps.cut (r := r0) (s := x) ?_ ?_; unfold x; rotate_left; clear_value x; intro _) | intro _ | lift_lets -underBinder | with_reducible apply State.drainPart_keeps | split)

theorem State.cancelRestart_keeps {r0 : State} (s : State) (j : SvcJob) (hk : Keeps r0 s) : Keeps r0 (State.cancelRestart s j) := by
  unfold State.cancelRestart
  repeat' (first | with_reducible assumption | (simp only [keeps_mk, Cellar.allocBlock_mem, Cellar.freeBlock_mem, Cellar.freeBlocks_mem, Cellar.dropStaging_mem, Cellar.replaceStaging_mem, Hearth.runs]; with_reducible refine Keeps.parts ?_) | (intro x; refine Keeps.cut (r := r0) (s := x) ?_ ?_; unfold x; rotate_left; clear_value x; intro _) | intro _ | lift_lets -underBinder | with_reducible apply State.setSuite_keeps | with_reducible apply State.modJob_keeps | split)

theorem State.queueRestart_keeps {r0 : State} (s : State) (j : SvcJob) (hk : Keeps r0 s) : Keeps r0 (State.queueRestart s j) := by
  unfold State.queueRestart
  repeat' (first | with_reducible assumption | (simp only [keeps_mk, Cellar.allocBlock_mem, Cellar.freeBlock_mem, Cellar.freeBlocks_mem, Cellar.dropStaging_mem, Cellar.replaceStaging_mem, Hearth.runs]; with_reducible refine Keeps.parts ?_) | (intro x; refine Keeps.cut (r := r0) (s := x) ?_ ?_; unfold x; rotate_left; clear_value x; intro _) | intro _ | lift_lets -underBinder | with_reducible apply State.setSuite_keeps | with_reducible apply State.modJob_keeps | split)

theorem State.serviceAccepted_keeps {r0 : State} (s : State) (tag : BitVec 16) (cls : Nat) (idx : Nat) (hk : Keeps r0 s) : Keeps r0 (State.serviceAccepted s tag cls idx) := by
  unfold State.serviceAccepted
  repeat' (first | with_reducible assumption | (intro x; refine Keeps.cut (r := r0) (s := x) ?_ ?_; unfold x; rotate_left; clear_value x; intro _) | intro _ | lift_lets -underBinder | with_reducible apply State.accept_keeps | split)

theorem State.partBusy_keeps {r0 : State} (s : State) (tag : BitVec 16) (cls : Nat) (idx : Nat) (hk : Keeps r0 s) : Keeps r0 (State.partBusy s tag cls idx) := by
  unfold State.partBusy
  repeat' (first | with_reducible assumption | (intro x; refine Keeps.cut (r := r0) (s := x) ?_ ?_; unfold x; rotate_left; clear_value x; intro _) | intro _ | lift_lets -underBinder | with_reducible apply State.countTarget_keeps | with_reducible apply State.busy_keeps | split)

theorem State.serviceStart_keeps {r0 : State} (s : State) (tag : BitVec 16) (cls : Nat) (idx : Nat) (powerDown : Bool) (hk : Keeps r0 s) : Keeps r0 (State.serviceStart s tag cls idx powerDown) := by
  unfold State.serviceStart
  repeat' (first | with_reducible assumption | (simp only [keeps_mk, Cellar.allocBlock_mem, Cellar.freeBlock_mem, Cellar.freeBlocks_mem, Cellar.dropStaging_mem, Cellar.replaceStaging_mem, Hearth.runs]; with_reducible refine Keeps.parts ?_) | (intro x; refine Keeps.cut (r := r0) (s := x) ?_ ?_; unfold x; rotate_left; clear_value x; intro _) | intro _ | lift_lets -underBinder | with_reducible apply State.reply_keeps | with_reducible apply State.busy_keeps | with_reducible apply State.beginService_keeps | with_reducible apply State.cancelRestart_keeps | with_reducible apply State.serviceAccepted_keeps | with_reducible apply State.partBusy_keeps | split)

theorem State.serviceBack_keeps {r0 : State} (s : State) (tag : BitVec 16) (cls : Nat) (idx : Nat) (hk : Keeps r0 s) : Keeps r0 (State.serviceBack s tag cls idx) := by
  unfold State.serviceBack
  repeat' (first | with_reducible assumption | (simp only [keeps_mk, Cellar.allocBlock_mem, Cellar.freeBlock_mem, Cellar.freeBlocks_mem, Cellar.dropStaging_mem, Cellar.replaceStaging_mem, Hearth.runs]; with_reducible refine Keeps.parts ?_) | (intro x; refine Keeps.cut (r := r0) (s := x) ?_ ?_; unfold x; rotate_left; clear_value x; intro _) | intro _ | lift_lets -underBinder | with_reducible apply State.reply_keeps | with_reducible apply State.ok_keeps | with_reducible apply State.busy_keeps | with_reducible apply State.partBack_keeps | with_reducible apply State.queueRestart_keeps | with_reducible apply State.serviceAccepted_keeps | with_reducible apply State.partBusy_keeps | split)

theorem State.holdPort_keeps {r0 : State} (s : State) (cls : Nat) (idx : Nat) (hk : Keeps r0 s) : Keeps r0 (State.holdPort s cls idx) := by
  unfold State.holdPort
  repeat' (first | with_reducible assumption | (intro x; refine Keeps.cut (r := r0) (s := x) ?_ ?_; unfold x; rotate_left; clear_value x; intro _) | intro _ | lift_lets -underBinder | with_reducible apply State.portTo_keeps | with_reducible apply State.linkLost_keeps | split)

theorem State.serviceHold_keeps {r0 : State} (s : State) (tag : BitVec 16) (cls : Nat) (idx : Nat) (hk : Keeps r0 s) : Keeps r0 (State.serviceHold s tag cls idx) := by
  unfold State.serviceHold
  repeat' (first | with_reducible assumption | (intro x; refine Keeps.cut (r := r0) (s := x) ?_ ?_; unfold x; rotate_left; clear_value x; intro _) | intro _ | lift_lets -underBinder | with_reducible apply State.reply_keeps | with_reducible apply State.ok_keeps | with_reducible apply State.ifFree_keeps | with_reducible apply State.holdPort_keeps | split)

theorem State.serviceRetrain_keeps {r0 : State} (s : State) (tag : BitVec 16) (cls : Nat) (idx : Nat) (hk : Keeps r0 s) : Keeps r0 (State.serviceRetrain s tag cls idx) := by
  unfold State.serviceRetrain
  repeat' (first | with_reducible assumption | (intro x; refine Keeps.cut (r := r0) (s := x) ?_ ?_; unfold x; rotate_left; clear_value x; intro _) | intro _ | lift_lets -underBinder | with_reducible apply State.retrain_keeps | with_reducible apply State.reply_keeps | with_reducible apply State.ok_keeps | with_reducible apply State.ifFree_keeps | split)

theorem State.service_keeps {r0 : State} (s : State) (sess : Option Nat) (tag : BitVec 16) (p : List Byte) (action : Nat) (classes : List Nat) (f : Nat → Nat → State → State) (hk : Keeps r0 s) (hf : ∀ y0 y1 y2, Keeps r0 y2 → Keeps r0 (f y0 y1 y2)) : Keeps r0 (State.service s sess tag p action classes f) := by
  unfold State.service
  repeat' (first | with_reducible assumption | with_reducible apply hf | (intro x; refine Keeps.cut (r := r0) (s := x) ?_ ?_; unfold x; rotate_left; clear_value x; intro _) | intro _ | lift_lets -underBinder | with_reducible apply State.readyCommand_keeps | split)

theorem execServiceReset_keeps {r0 : State} (sess : Option Nat) (tag : BitVec 16) (payload : List Byte) (s : State) (hk : Keeps r0 s) : KeepsOut r0 (execServiceReset sess tag payload s) := by
  unfold execServiceReset
  repeat' (first | with_reducible assumption | with_reducible apply KeepsOut.next | (intro x; refine Keeps.cut (r := r0) (s := x) ?_ ?_; unfold x; rotate_left; clear_value x; intro _) | intro _ | lift_lets -underBinder | with_reducible apply State.serviceStart_keeps | with_reducible apply State.service_keeps | split)

theorem execServicePowerDown_keeps {r0 : State} (sess : Option Nat) (tag : BitVec 16) (payload : List Byte) (s : State) (hk : Keeps r0 s) : KeepsOut r0 (execServicePowerDown sess tag payload s) := by
  unfold execServicePowerDown
  repeat' (first | with_reducible assumption | with_reducible apply KeepsOut.next | (intro x; refine Keeps.cut (r := r0) (s := x) ?_ ?_; unfold x; rotate_left; clear_value x; intro _) | intro _ | lift_lets -underBinder | with_reducible apply State.serviceStart_keeps | with_reducible apply State.service_keeps | split)

theorem execServiceEnable_keeps {r0 : State} (sess : Option Nat) (tag : BitVec 16) (payload : List Byte) (s : State) (hk : Keeps r0 s) : KeepsOut r0 (execServiceEnable sess tag payload s) := by
  unfold execServiceEnable
  repeat' (first | with_reducible assumption | with_reducible apply KeepsOut.next | (intro x; refine Keeps.cut (r := r0) (s := x) ?_ ?_; unfold x; rotate_left; clear_value x; intro _) | intro _ | lift_lets -underBinder | with_reducible apply State.serviceBack_keeps | with_reducible apply State.service_keeps | split)

theorem execServiceHoldDown_keeps {r0 : State} (sess : Option Nat) (tag : BitVec 16) (payload : List Byte) (s : State) (hk : Keeps r0 s) : KeepsOut r0 (execServiceHoldDown sess tag payload s) := by
  unfold execServiceHoldDown
  repeat' (first | with_reducible assumption | with_reducible apply KeepsOut.next | (intro x; refine Keeps.cut (r := r0) (s := x) ?_ ?_; unfold x; rotate_left; clear_value x; intro _) | intro _ | lift_lets -underBinder | with_reducible apply State.serviceHold_keeps | with_reducible apply State.service_keeps | split)

theorem execServiceRelease_keeps {r0 : State} (sess : Option Nat) (tag : BitVec 16) (payload : List Byte) (s : State) (hk : Keeps r0 s) : KeepsOut r0 (execServiceRelease sess tag payload s) := by
  unfold execServiceRelease
  repeat' (first | with_reducible assumption | with_reducible apply KeepsOut.next | (intro x; refine Keeps.cut (r := r0) (s := x) ?_ ?_; unfold x; rotate_left; clear_value x; intro _) | intro _ | lift_lets -underBinder | with_reducible apply State.serviceBack_keeps | with_reducible apply State.service_keeps | split)

theorem execServiceRetrain_keeps {r0 : State} (sess : Option Nat) (tag : BitVec 16) (payload : List Byte) (s : State) (hk : Keeps r0 s) : KeepsOut r0 (execServiceRetrain sess tag payload s) := by
  unfold execServiceRetrain
  repeat' (first | with_reducible assumption | with_reducible apply KeepsOut.next | (intro x; refine Keeps.cut (r := r0) (s := x) ?_ ?_; unfold x; rotate_left; clear_value x; intro _) | intro _ | lift_lets -underBinder | with_reducible apply State.serviceRetrain_keeps | with_reducible apply State.service_keeps | split)

theorem execServiceDrainComplete_keeps {r0 : State} (unitClass : Nat) (unitIndex : Nat) (s : State) (hk : Keeps r0 s) : KeepsOut r0 (execServiceDrainComplete unitClass unitIndex s) := by
  unfold execServiceDrainComplete
  repeat' (first | with_reducible assumption | (simp only [keeps_mk, Cellar.allocBlock_mem, Cellar.freeBlock_mem, Cellar.freeBlocks_mem, Cellar.dropStaging_mem, Cellar.replaceStaging_mem, Hearth.runs]; with_reducible refine Keeps.parts ?_) | with_reducible apply KeepsOut.next | (intro x; refine Keeps.cut (r := r0) (s := x) ?_ ?_; unfold x; rotate_left; clear_value x; intro _) | intro _ | lift_lets -underBinder | with_reducible apply State.reach_keeps | with_reducible apply State.resetPart_keeps | with_reducible apply State.modJob_keeps | split)

theorem execServiceResetComplete_keeps {r0 : State} (unitClass : Nat) (unitIndex : Nat) (s : State) (hk : Keeps r0 s) : KeepsOut r0 (execServiceResetComplete unitClass unitIndex s) := by
  unfold execServiceResetComplete
  repeat' (first | with_reducible assumption | (simp only [keeps_mk, Cellar.allocBlock_mem, Cellar.freeBlock_mem, Cellar.freeBlocks_mem, Cellar.dropStaging_mem, Cellar.replaceStaging_mem, Hearth.runs]; with_reducible refine Keeps.parts ?_) | with_reducible apply KeepsOut.next | (intro x; refine Keeps.cut (r := r0) (s := x) ?_ ?_; unfold x; rotate_left; clear_value x; intro _) | intro _ | lift_lets -underBinder | with_reducible apply State.acceptAll_keeps | with_reducible apply State.partCleared_keeps | with_reducible apply State.partBack_keeps | with_reducible apply State.partOut_keeps | split)

theorem State.suiteCmd_keeps {r0 : State} (s : State) (i : Nat) (powerDown : Bool) (hk : Keeps r0 s) : Keeps r0 (State.suiteCmd s i powerDown) := by
  unfold State.suiteCmd
  repeat' (first | with_reducible assumption | (simp only [keeps_mk, Cellar.allocBlock_mem, Cellar.freeBlock_mem, Cellar.freeBlocks_mem, Cellar.dropStaging_mem, Cellar.replaceStaging_mem, Hearth.runs]; with_reducible refine Keeps.parts ?_) | (intro x; refine Keeps.cut (r := r0) (s := x) ?_ ?_; unfold x; rotate_left; clear_value x; intro _) | intro _ | lift_lets -underBinder | with_reducible apply State.drop_keeps | with_reducible apply State.beginService_keeps | with_reducible apply State.cancelRestart_keeps | split)

theorem execSuiteReset_keeps {r0 : State} (host : Fin 16) (s : State) (hk : Keeps r0 s) : KeepsOut r0 (execSuiteReset host s) := by
  unfold execSuiteReset
  repeat' (first | with_reducible assumption | with_reducible apply KeepsOut.next | (intro x; refine Keeps.cut (r := r0) (s := x) ?_ ?_; unfold x; rotate_left; clear_value x; intro _) | intro _ | lift_lets -underBinder | with_reducible apply State.hostIn_keeps | with_reducible apply State.ownerWrite_keeps | with_reducible apply State.suiteCmd_keeps | split)

theorem execSuitePowerDown_keeps {r0 : State} (host : Fin 16) (s : State) (hk : Keeps r0 s) : KeepsOut r0 (execSuitePowerDown host s) := by
  unfold execSuitePowerDown
  repeat' (first | with_reducible assumption | with_reducible apply KeepsOut.next | (intro x; refine Keeps.cut (r := r0) (s := x) ?_ ?_; unfold x; rotate_left; clear_value x; intro _) | intro _ | lift_lets -underBinder | with_reducible apply State.hostIn_keeps | with_reducible apply State.ownerWrite_keeps | with_reducible apply State.suiteCmd_keeps | split)


/-! ## CellarCommands -/

theorem State.takeExts_keeps {r0 : State} (s : State) (es : List Nat) (x : Extent) (hk : Keeps r0 s) : Keeps r0 (State.takeExts s es x) := by
  unfold State.takeExts
  repeat' (first | with_reducible assumption | (intro x; refine Keeps.cut (r := r0) (s := x) ?_ ?_; unfold x; rotate_left; clear_value x; intro _) | intro _ | lift_lets -underBinder | with_reducible apply State.putExt_keeps | with_reducible apply overList_keeps | with_reducible apply State.queueScrub_keeps | with_reducible apply Keeps.overList | split)

theorem State.grantTo_keeps {r0 : State} (s : State) (tag : BitVec 16) (h : Nat) (n : Nat) (lease : Nat) (hk : Keeps r0 s) : Keeps r0 (State.grantTo s tag h n lease) := by
  unfold State.grantTo
  repeat' (first | with_reducible assumption | (simp only [keeps_mk, Cellar.allocBlock_mem, Cellar.freeBlock_mem, Cellar.freeBlocks_mem, Cellar.dropStaging_mem, Cellar.replaceStaging_mem, Hearth.runs]; with_reducible refine Keeps.parts ?_) | (intro x; refine Keeps.cut (r := r0) (s := x) ?_ ?_; unfold x; rotate_left; clear_value x; intro _) | intro _ | lift_lets -underBinder | with_reducible apply State.reply_keeps | with_reducible apply State.accept_keeps | with_reducible apply State.takeExts_keeps | split | (simp only [keeps_mk, Cellar.allocBlock_mem, Cellar.freeBlock_mem, Cellar.freeBlocks_mem, Cellar.dropStaging_mem, Cellar.replaceStaging_mem, Hearth.runs]; with_reducible refine Keeps.partsMem ?_ (fun w => by first | exact w | exact Cellar.scrub_wf w | exact Cellar.putUnits_wf w | exact Cellar.maskUnit_wf ‹_› w | (exact Cellar.scrub_wf (by simpa using w)) | simp [Memory.wf])) | (simp only [keeps_mk, Cellar.allocBlock_mem, Cellar.freeBlock_mem, Cellar.freeBlocks_mem, Cellar.dropStaging_mem, Cellar.replaceStaging_mem, Hearth.runs]; with_reducible refine Keeps.partsTo ?_ (by simp) (fun w => by first | exact w | exact Cellar.scrub_wf w | exact Cellar.putUnits_wf w | exact Cellar.maskUnit_wf ‹_› w | (exact Cellar.scrub_wf (by simpa using w)) | simp [Memory.wf])))

theorem execGrant_keeps {r0 : State} (sess : Option Nat) (tag : BitVec 16) (payload : List Byte) (s : State) (hk : Keeps r0 s) : KeepsOut r0 (execGrant sess tag payload s) := by
  unfold execGrant
  repeat' (first | with_reducible assumption | with_reducible apply KeepsOut.next | (intro x; refine Keeps.cut (r := r0) (s := x) ?_ ?_; unfold x; rotate_left; clear_value x; intro _) | intro _ | lift_lets -underBinder | with_reducible apply State.readyCommand_keeps | with_reducible apply State.grantTo_keeps | split)

theorem execRelease_keeps {r0 : State} (sess : Option Nat) (tag : BitVec 16) (payload : List Byte) (s : State) (hk : Keeps r0 s) : KeepsOut r0 (execRelease sess tag payload s) := by
  unfold execRelease
  repeat' (first | with_reducible assumption | (simp only [keeps_mk, Cellar.allocBlock_mem, Cellar.freeBlock_mem, Cellar.freeBlocks_mem, Cellar.dropStaging_mem, Cellar.replaceStaging_mem, Hearth.runs]; with_reducible refine Keeps.parts ?_) | with_reducible apply KeepsOut.next | (intro x; refine Keeps.cut (r := r0) (s := x) ?_ ?_; unfold x; rotate_left; clear_value x; intro _) | intro _ | lift_lets -underBinder | with_reducible apply State.reclaim_keeps | with_reducible apply State.reply_keeps | with_reducible apply State.accept_keeps | with_reducible apply State.readyCommand_keeps | split)

theorem execMap_keeps {r0 : State} (sess : Option Nat) (tag : BitVec 16) (payload : List Byte) (s : State) (hk : Keeps r0 s) : KeepsOut r0 (execMap sess tag payload s) := by
  unfold execMap
  repeat' (first | with_reducible assumption | with_reducible apply KeepsOut.next | (intro x; refine Keeps.cut (r := r0) (s := x) ?_ ?_; unfold x; rotate_left; clear_value x; intro _) | intro _ | lift_lets -underBinder | with_reducible apply State.modHost_keeps | with_reducible apply State.reply_keeps | with_reducible apply State.ok_keeps | with_reducible apply State.busy_keeps | with_reducible apply State.readyCommand_keeps | split)

theorem execUnmap_keeps {r0 : State} (sess : Option Nat) (tag : BitVec 16) (payload : List Byte) (s : State) (hk : Keeps r0 s) : KeepsOut r0 (execUnmap sess tag payload s) := by
  unfold execUnmap
  repeat' (first | with_reducible assumption | with_reducible apply KeepsOut.next | (intro x; refine Keeps.cut (r := r0) (s := x) ?_ ?_; unfold x; rotate_left; clear_value x; intro _) | intro _ | lift_lets -underBinder | with_reducible apply State.modHost_keeps | with_reducible apply State.reply_keeps | with_reducible apply State.ok_keeps | with_reducible apply State.readyCommand_keeps | split)

theorem State.renewExt_keeps {r0 : State} (s : State) (tag : BitVec 16) (e : Nat) (secs : Nat) (hk : Keeps r0 s) : Keeps r0 (State.renewExt s tag e secs) := by
  unfold State.renewExt
  repeat' (first | with_reducible assumption | (simp only [keeps_mk, Cellar.allocBlock_mem, Cellar.freeBlock_mem, Cellar.freeBlocks_mem, Cellar.dropStaging_mem, Cellar.replaceStaging_mem, Hearth.runs]; with_reducible refine Keeps.parts ?_) | (intro x; refine Keeps.cut (r := r0) (s := x) ?_ ?_; unfold x; rotate_left; clear_value x; intro _) | intro _ | lift_lets -underBinder | with_reducible apply State.modExt_keeps | with_reducible apply State.reply_keeps | with_reducible apply State.ok_keeps | split)

theorem State.renewRegion_keeps {r0 : State} (s : State) (tag : BitVec 16) (r : Nat) (secs : Nat) (hk : Keeps r0 s) : Keeps r0 (State.renewRegion s tag r secs) := by
  unfold State.renewRegion
  repeat' (first | with_reducible assumption | (simp only [keeps_mk, Cellar.allocBlock_mem, Cellar.freeBlock_mem, Cellar.freeBlocks_mem, Cellar.dropStaging_mem, Cellar.replaceStaging_mem, Hearth.runs]; with_reducible refine Keeps.parts ?_) | (intro x; refine Keeps.cut (r := r0) (s := x) ?_ ?_; unfold x; rotate_left; clear_value x; intro _) | intro _ | lift_lets -underBinder | with_reducible apply State.reply_keeps | with_reducible apply State.ok_keeps | split | (simp only [keeps_mk, Cellar.allocBlock_mem, Cellar.freeBlock_mem, Cellar.freeBlocks_mem, Cellar.dropStaging_mem, Cellar.replaceStaging_mem, Hearth.runs]; with_reducible refine Keeps.partsMem ?_ (fun w => by first | exact w | exact Cellar.scrub_wf w | exact Cellar.putUnits_wf w | exact Cellar.maskUnit_wf ‹_› w | (exact Cellar.scrub_wf (by simpa using w)) | simp [Memory.wf])) | (simp only [keeps_mk, Cellar.allocBlock_mem, Cellar.freeBlock_mem, Cellar.freeBlocks_mem, Cellar.dropStaging_mem, Cellar.replaceStaging_mem, Hearth.runs]; with_reducible refine Keeps.partsTo ?_ (by simp) (fun w => by first | exact w | exact Cellar.scrub_wf w | exact Cellar.putUnits_wf w | exact Cellar.maskUnit_wf ‹_› w | (exact Cellar.scrub_wf (by simpa using w)) | simp [Memory.wf])))

theorem execRenew_keeps {r0 : State} (sess : Option Nat) (tag : BitVec 16) (payload : List Byte) (s : State) (hk : Keeps r0 s) : KeepsOut r0 (execRenew sess tag payload s) := by
  unfold execRenew
  repeat' (first | with_reducible assumption | with_reducible apply KeepsOut.next | (intro x; refine Keeps.cut (r := r0) (s := x) ?_ ?_; unfold x; rotate_left; clear_value x; intro _) | intro _ | lift_lets -underBinder | with_reducible apply State.readyCommand_keeps | with_reducible apply State.renewExt_keeps | with_reducible apply State.renewRegion_keeps | split)

theorem execReadExtent_keeps {r0 : State} (sess : Option Nat) (tag : BitVec 16) (payload : List Byte) (s : State) (hk : Keeps r0 s) : KeepsOut r0 (execReadExtent sess tag payload s) := by
  unfold execReadExtent
  repeat' (first | with_reducible assumption | with_reducible apply KeepsOut.next | (intro x; refine Keeps.cut (r := r0) (s := x) ?_ ?_; unfold x; rotate_left; clear_value x; intro _) | intro _ | lift_lets -underBinder | with_reducible apply State.respond_keeps | with_reducible apply State.readyCommand_keeps | split)

theorem State.createRegion_keeps {r0 : State} (s : State) (tag : BitVec 16) (r : Nat) (n : Nat) (lease : Nat) (hk : Keeps r0 s) : Keeps r0 (State.createRegion s tag r n lease) := by
  unfold State.createRegion
  repeat' (first | with_reducible assumption | (simp only [keeps_mk, Cellar.allocBlock_mem, Cellar.freeBlock_mem, Cellar.freeBlocks_mem, Cellar.dropStaging_mem, Cellar.replaceStaging_mem, Hearth.runs]; with_reducible refine Keeps.parts ?_) | (intro x; refine Keeps.cut (r := r0) (s := x) ?_ ?_; unfold x; rotate_left; clear_value x; intro _) | intro _ | lift_lets -underBinder | with_reducible apply State.reply_keeps | with_reducible apply State.accept_keeps | with_reducible apply State.takeExts_keeps | split | (simp only [keeps_mk, Cellar.allocBlock_mem, Cellar.freeBlock_mem, Cellar.freeBlocks_mem, Cellar.dropStaging_mem, Cellar.replaceStaging_mem, Hearth.runs]; with_reducible refine Keeps.partsMem ?_ (fun w => by first | exact w | exact Cellar.scrub_wf w | exact Cellar.putUnits_wf w | exact Cellar.maskUnit_wf ‹_› w | (exact Cellar.scrub_wf (by simpa using w)) | simp [Memory.wf])) | (simp only [keeps_mk, Cellar.allocBlock_mem, Cellar.freeBlock_mem, Cellar.freeBlocks_mem, Cellar.dropStaging_mem, Cellar.replaceStaging_mem, Hearth.runs]; with_reducible refine Keeps.partsTo ?_ (by simp) (fun w => by first | exact w | exact Cellar.scrub_wf w | exact Cellar.putUnits_wf w | exact Cellar.maskUnit_wf ‹_› w | (exact Cellar.scrub_wf (by simpa using w)) | simp [Memory.wf])))

theorem execRegionCreate_keeps {r0 : State} (sess : Option Nat) (tag : BitVec 16) (payload : List Byte) (s : State) (hk : Keeps r0 s) : KeepsOut r0 (execRegionCreate sess tag payload s) := by
  unfold execRegionCreate
  repeat' (first | with_reducible assumption | with_reducible apply KeepsOut.next | (intro x; refine Keeps.cut (r := r0) (s := x) ?_ ?_; unfold x; rotate_left; clear_value x; intro _) | intro _ | lift_lets -underBinder | with_reducible apply State.readyCommand_keeps | with_reducible apply State.createRegion_keeps | split)

theorem execRegionRights_keeps {r0 : State} (sess : Option Nat) (tag : BitVec 16) (payload : List Byte) (s : State) (hk : Keeps r0 s) : KeepsOut r0 (execRegionRights sess tag payload s) := by
  unfold execRegionRights
  repeat' (first | with_reducible assumption | (simp only [keeps_mk, Cellar.allocBlock_mem, Cellar.freeBlock_mem, Cellar.freeBlocks_mem, Cellar.dropStaging_mem, Cellar.replaceStaging_mem, Hearth.runs]; with_reducible refine Keeps.parts ?_) | with_reducible apply KeepsOut.next | (intro x; refine Keeps.cut (r := r0) (s := x) ?_ ?_; unfold x; rotate_left; clear_value x; intro _) | intro _ | lift_lets -underBinder | with_reducible apply State.reply_keeps | with_reducible apply State.ok_keeps | with_reducible apply State.readyCommand_keeps | split | (simp only [keeps_mk, Cellar.allocBlock_mem, Cellar.freeBlock_mem, Cellar.freeBlocks_mem, Cellar.dropStaging_mem, Cellar.replaceStaging_mem, Hearth.runs]; with_reducible refine Keeps.partsMem ?_ (fun w => by first | exact w | exact Cellar.scrub_wf w | exact Cellar.putUnits_wf w | exact Cellar.maskUnit_wf ‹_› w | (exact Cellar.scrub_wf (by simpa using w)) | simp [Memory.wf])) | (simp only [keeps_mk, Cellar.allocBlock_mem, Cellar.freeBlock_mem, Cellar.freeBlocks_mem, Cellar.dropStaging_mem, Cellar.replaceStaging_mem, Hearth.runs]; with_reducible refine Keeps.partsTo ?_ (by simp) (fun w => by first | exact w | exact Cellar.scrub_wf w | exact Cellar.putUnits_wf w | exact Cellar.maskUnit_wf ‹_› w | (exact Cellar.scrub_wf (by simpa using w)) | simp [Memory.wf])))

theorem execRegionDelete_keeps {r0 : State} (sess : Option Nat) (tag : BitVec 16) (payload : List Byte) (s : State) (hk : Keeps r0 s) : KeepsOut r0 (execRegionDelete sess tag payload s) := by
  unfold execRegionDelete
  repeat' (first | with_reducible assumption | (simp only [keeps_mk, Cellar.allocBlock_mem, Cellar.freeBlock_mem, Cellar.freeBlocks_mem, Cellar.dropStaging_mem, Cellar.replaceStaging_mem, Hearth.runs]; with_reducible refine Keeps.parts ?_) | with_reducible apply KeepsOut.next | (intro x; refine Keeps.cut (r := r0) (s := x) ?_ ?_; unfold x; rotate_left; clear_value x; intro _) | intro _ | lift_lets -underBinder | with_reducible apply State.reclaim_keeps | with_reducible apply State.reply_keeps | with_reducible apply State.accept_keeps | with_reducible apply State.readyCommand_keeps | split | (simp only [keeps_mk, Cellar.allocBlock_mem, Cellar.freeBlock_mem, Cellar.freeBlocks_mem, Cellar.dropStaging_mem, Cellar.replaceStaging_mem, Hearth.runs]; with_reducible refine Keeps.partsMem ?_ (fun w => by first | exact w | exact Cellar.scrub_wf w | exact Cellar.putUnits_wf w | exact Cellar.maskUnit_wf ‹_› w | (exact Cellar.scrub_wf (by simpa using w)) | simp [Memory.wf])) | (simp only [keeps_mk, Cellar.allocBlock_mem, Cellar.freeBlock_mem, Cellar.freeBlocks_mem, Cellar.dropStaging_mem, Cellar.replaceStaging_mem, Hearth.runs]; with_reducible refine Keeps.partsTo ?_ (by simp) (fun w => by first | exact w | exact Cellar.scrub_wf w | exact Cellar.putUnits_wf w | exact Cellar.maskUnit_wf ‹_› w | (exact Cellar.scrub_wf (by simpa using w)) | simp [Memory.wf])))

theorem execKeyLoad_keeps {r0 : State} (sess : Option Nat) (tag : BitVec 16) (payload : List Byte) (s : State) (hk : Keeps r0 s) : KeepsOut r0 (execKeyLoad sess tag payload s) := by
  unfold execKeyLoad
  repeat' (first | with_reducible assumption | (simp only [keeps_mk, Cellar.allocBlock_mem, Cellar.freeBlock_mem, Cellar.freeBlocks_mem, Cellar.dropStaging_mem, Cellar.replaceStaging_mem, Hearth.runs]; with_reducible refine Keeps.parts ?_) | with_reducible apply KeepsOut.next | (intro x; refine Keeps.cut (r := r0) (s := x) ?_ ?_; unfold x; rotate_left; clear_value x; intro _) | intro _ | lift_lets -underBinder | with_reducible apply State.reply_keeps | with_reducible apply State.ok_keeps | with_reducible apply State.readyCommand_keeps | split | (simp only [keeps_mk, Cellar.allocBlock_mem, Cellar.freeBlock_mem, Cellar.freeBlocks_mem, Cellar.dropStaging_mem, Cellar.replaceStaging_mem, Hearth.runs]; with_reducible refine Keeps.partsMem ?_ (fun w => by first | exact w | exact Cellar.scrub_wf w | exact Cellar.putUnits_wf w | exact Cellar.maskUnit_wf ‹_› w | (exact Cellar.scrub_wf (by simpa using w)) | simp [Memory.wf])) | (simp only [keeps_mk, Cellar.allocBlock_mem, Cellar.freeBlock_mem, Cellar.freeBlocks_mem, Cellar.dropStaging_mem, Cellar.replaceStaging_mem, Hearth.runs]; with_reducible refine Keeps.partsTo ?_ (by simp) (fun w => by first | exact w | exact Cellar.scrub_wf w | exact Cellar.putUnits_wf w | exact Cellar.maskUnit_wf ‹_› w | (exact Cellar.scrub_wf (by simpa using w)) | simp [Memory.wf])))

theorem execKeyErase_keeps {r0 : State} (sess : Option Nat) (tag : BitVec 16) (payload : List Byte) (s : State) (hk : Keeps r0 s) : KeepsOut r0 (execKeyErase sess tag payload s) := by
  unfold execKeyErase
  repeat' (first | with_reducible assumption | (simp only [keeps_mk, Cellar.allocBlock_mem, Cellar.freeBlock_mem, Cellar.freeBlocks_mem, Cellar.dropStaging_mem, Cellar.replaceStaging_mem, Hearth.runs]; with_reducible refine Keeps.parts ?_) | with_reducible apply KeepsOut.next | (intro x; refine Keeps.cut (r := r0) (s := x) ?_ ?_; unfold x; rotate_left; clear_value x; intro _) | intro _ | lift_lets -underBinder | with_reducible apply State.reply_keeps | with_reducible apply State.ok_keeps | with_reducible apply State.readyCommand_keeps | split | (simp only [keeps_mk, Cellar.allocBlock_mem, Cellar.freeBlock_mem, Cellar.freeBlocks_mem, Cellar.dropStaging_mem, Cellar.replaceStaging_mem, Hearth.runs]; with_reducible refine Keeps.partsMem ?_ (fun w => by first | exact w | exact Cellar.scrub_wf w | exact Cellar.putUnits_wf w | exact Cellar.maskUnit_wf ‹_› w | (exact Cellar.scrub_wf (by simpa using w)) | simp [Memory.wf])) | (simp only [keeps_mk, Cellar.allocBlock_mem, Cellar.freeBlock_mem, Cellar.freeBlocks_mem, Cellar.dropStaging_mem, Cellar.replaceStaging_mem, Hearth.runs]; with_reducible refine Keeps.partsTo ?_ (by simp) (fun w => by first | exact w | exact Cellar.scrub_wf w | exact Cellar.putUnits_wf w | exact Cellar.maskUnit_wf ‹_› w | (exact Cellar.scrub_wf (by simpa using w)) | simp [Memory.wf])))

theorem execTokenBucket_keeps {r0 : State} (sess : Option Nat) (tag : BitVec 16) (payload : List Byte) (s : State) (hk : Keeps r0 s) : KeepsOut r0 (execTokenBucket sess tag payload s) := by
  unfold execTokenBucket
  repeat' (first | with_reducible assumption | (simp only [keeps_mk, Cellar.allocBlock_mem, Cellar.freeBlock_mem, Cellar.freeBlocks_mem, Cellar.dropStaging_mem, Cellar.replaceStaging_mem, Hearth.runs]; with_reducible refine Keeps.parts ?_) | with_reducible apply KeepsOut.next | (intro x; refine Keeps.cut (r := r0) (s := x) ?_ ?_; unfold x; rotate_left; clear_value x; intro _) | intro _ | lift_lets -underBinder | with_reducible apply State.modHost_keeps | with_reducible apply State.ok_keeps | with_reducible apply State.readyCommand_keeps | with_reducible apply State.ifFree_keeps | split)

theorem execSuiteWeight_keeps {r0 : State} (sess : Option Nat) (tag : BitVec 16) (payload : List Byte) (s : State) (hk : Keeps r0 s) : KeepsOut r0 (execSuiteWeight sess tag payload s) := by
  unfold execSuiteWeight
  repeat' (first | with_reducible assumption | (simp only [keeps_mk, Cellar.allocBlock_mem, Cellar.freeBlock_mem, Cellar.freeBlocks_mem, Cellar.dropStaging_mem, Cellar.replaceStaging_mem, Hearth.runs]; with_reducible refine Keeps.parts ?_) | with_reducible apply KeepsOut.next | (intro x; refine Keeps.cut (r := r0) (s := x) ?_ ?_; unfold x; rotate_left; clear_value x; intro _) | intro _ | lift_lets -underBinder | with_reducible apply State.modSuite_keeps | with_reducible apply State.ok_keeps | with_reducible apply State.readyCommand_keeps | with_reducible apply State.ifFree_keeps | split)


/-! ## MgmtCommands -/

theorem execGetStatus_keeps {r0 : State} (sess : Option Nat) (tag : BitVec 16) (payload : List Byte) (s : State) (hk : Keeps r0 s) : KeepsOut r0 (execGetStatus sess tag payload s) := by
  unfold execGetStatus
  repeat' (first | with_reducible assumption | (simp only [keeps_mk, Cellar.allocBlock_mem, Cellar.freeBlock_mem, Cellar.freeBlocks_mem, Cellar.dropStaging_mem, Cellar.replaceStaging_mem, Hearth.runs]; with_reducible refine Keeps.parts ?_) | with_reducible apply KeepsOut.next | (intro x; refine Keeps.cut (r := r0) (s := x) ?_ ?_; unfold x; rotate_left; clear_value x; intro _) | intro _ | lift_lets -underBinder | with_reducible apply State.respond_keeps | with_reducible apply State.command_keeps | split)

theorem execReadRecords_keeps {r0 : State} (sess : Option Nat) (tag : BitVec 16) (payload : List Byte) (s : State) (hk : Keeps r0 s) : KeepsOut r0 (execReadRecords sess tag payload s) := by
  unfold execReadRecords
  repeat' (first | with_reducible assumption | (simp only [keeps_mk, Cellar.allocBlock_mem, Cellar.freeBlock_mem, Cellar.freeBlocks_mem, Cellar.dropStaging_mem, Cellar.replaceStaging_mem, Hearth.runs]; with_reducible refine Keeps.parts ?_) | with_reducible apply KeepsOut.next | (intro x; refine Keeps.cut (r := r0) (s := x) ?_ ?_; unfold x; rotate_left; clear_value x; intro _) | intro _ | lift_lets -underBinder | with_reducible apply State.respond_keeps | with_reducible apply State.command_keeps | split | (simp only [keeps_mk, Cellar.allocBlock_mem, Cellar.freeBlock_mem, Cellar.freeBlocks_mem, Cellar.dropStaging_mem, Cellar.replaceStaging_mem, Hearth.runs]; with_reducible refine Keeps.partsMem ?_ (fun w => by first | exact w | exact Cellar.scrub_wf w | exact Cellar.putUnits_wf w | exact Cellar.maskUnit_wf ‹_› w | (exact Cellar.scrub_wf (by simpa using w)) | simp [Memory.wf])) | (simp only [keeps_mk, Cellar.allocBlock_mem, Cellar.freeBlock_mem, Cellar.freeBlocks_mem, Cellar.dropStaging_mem, Cellar.replaceStaging_mem, Hearth.runs]; with_reducible refine Keeps.partsTo ?_ (by simp) (fun w => by first | exact w | exact Cellar.scrub_wf w | exact Cellar.putUnits_wf w | exact Cellar.maskUnit_wf ‹_› w | (exact Cellar.scrub_wf (by simpa using w)) | simp [Memory.wf])))

theorem execImageWrite_keeps {r0 : State} (sess : Option Nat) (tag : BitVec 16) (payload : List Byte) (s : State) (hk : Keeps r0 s) : KeepsOut r0 (execImageWrite sess tag payload s) := by
  unfold execImageWrite
  repeat' (first | with_reducible assumption | (simp only [keeps_mk, Cellar.allocBlock_mem, Cellar.freeBlock_mem, Cellar.freeBlocks_mem, Cellar.dropStaging_mem, Cellar.replaceStaging_mem, Hearth.runs]; with_reducible refine Keeps.parts ?_) | with_reducible apply KeepsOut.next | (intro x; refine Keeps.cut (r := r0) (s := x) ?_ ?_; unfold x; rotate_left; clear_value x; intro _) | intro _ | lift_lets -underBinder | with_reducible apply State.drop_keeps | with_reducible apply State.reply_keeps | with_reducible apply State.accept_keeps | with_reducible apply State.busy_keeps | with_reducible apply State.command_keeps | split | (simp only [keeps_mk, Cellar.allocBlock_mem, Cellar.freeBlock_mem, Cellar.freeBlocks_mem, Cellar.dropStaging_mem, Cellar.replaceStaging_mem, Hearth.runs]; with_reducible refine Keeps.partsMem ?_ (fun w => by first | exact w | exact Cellar.scrub_wf w | exact Cellar.putUnits_wf w | exact Cellar.maskUnit_wf ‹_› w | (exact Cellar.scrub_wf (by simpa using w)) | simp [Memory.wf])) | (simp only [keeps_mk, Cellar.allocBlock_mem, Cellar.freeBlock_mem, Cellar.freeBlocks_mem, Cellar.dropStaging_mem, Cellar.replaceStaging_mem, Hearth.runs]; with_reducible refine Keeps.partsTo ?_ (by simp) (fun w => by first | exact w | exact Cellar.scrub_wf w | exact Cellar.putUnits_wf w | exact Cellar.maskUnit_wf ‹_› w | (exact Cellar.scrub_wf (by simpa using w)) | simp [Memory.wf])))

theorem State.beginLive_keeps {r0 : State} (s : State) (tag : BitVec 16) (slotB : Bool) (hk : Keeps r0 s) : Keeps r0 (State.beginLive s tag slotB) := by
  unfold State.beginLive
  repeat' (first | with_reducible assumption | (simp only [keeps_mk, Cellar.allocBlock_mem, Cellar.freeBlock_mem, Cellar.freeBlocks_mem, Cellar.dropStaging_mem, Cellar.replaceStaging_mem, Hearth.runs]; with_reducible refine Keeps.parts ?_) | (intro x; refine Keeps.cut (r := r0) (s := x) ?_ ?_; unfold x; rotate_left; clear_value x; intro _) | intro _ | lift_lets -underBinder | with_reducible apply State.accept_keeps | split | (simp only [keeps_mk, Cellar.allocBlock_mem, Cellar.freeBlock_mem, Cellar.freeBlocks_mem, Cellar.dropStaging_mem, Cellar.replaceStaging_mem, Hearth.runs]; with_reducible refine Keeps.partsMem ?_ (fun w => by first | exact w | exact Cellar.scrub_wf w | exact Cellar.putUnits_wf w | exact Cellar.maskUnit_wf ‹_› w | (exact Cellar.scrub_wf (by simpa using w)) | simp [Memory.wf])) | (simp only [keeps_mk, Cellar.allocBlock_mem, Cellar.freeBlock_mem, Cellar.freeBlocks_mem, Cellar.dropStaging_mem, Cellar.replaceStaging_mem, Hearth.runs]; with_reducible refine Keeps.partsTo ?_ (by simp) (fun w => by first | exact w | exact Cellar.scrub_wf w | exact Cellar.putUnits_wf w | exact Cellar.maskUnit_wf ‹_› w | (exact Cellar.scrub_wf (by simpa using w)) | simp [Memory.wf])))

theorem execLiveRestart_keeps {r0 : State} (sess : Option Nat) (tag : BitVec 16) (payload : List Byte) (s : State) (hk : Keeps r0 s) : KeepsOut r0 (execLiveRestart sess tag payload s) := by
  unfold execLiveRestart
  repeat' (first | with_reducible assumption | with_reducible apply KeepsOut.next | (intro x; refine Keeps.cut (r := r0) (s := x) ?_ ?_; unfold x; rotate_left; clear_value x; intro _) | intro _ | lift_lets -underBinder | with_reducible apply State.reply_keeps | with_reducible apply State.busy_keeps | with_reducible apply State.command_keeps | with_reducible apply State.beginLive_keeps | split)

theorem execLiveRestartComplete_keeps {r0 : State} (flashMiB : Option Nat) (readOk : Bool) (s : State) (hk : Keeps r0 s) : KeepsOut r0 (execLiveRestartComplete flashMiB readOk s) := by
  unfold execLiveRestartComplete
  repeat' (first | with_reducible assumption | (simp only [keeps_mk, Cellar.allocBlock_mem, Cellar.freeBlock_mem, Cellar.freeBlocks_mem, Cellar.dropStaging_mem, Cellar.replaceStaging_mem, Hearth.runs]; with_reducible refine Keeps.parts ?_) | with_reducible apply KeepsOut.next | (intro x; refine Keeps.cut (r := r0) (s := x) ?_ ?_; unfold x; rotate_left; clear_value x; intro _) | intro _ | lift_lets -underBinder | with_reducible apply State.acceptAll_keeps | with_reducible apply State.bootRecord_keeps | split | (simp only [keeps_mk, Cellar.allocBlock_mem, Cellar.freeBlock_mem, Cellar.freeBlocks_mem, Cellar.dropStaging_mem, Cellar.replaceStaging_mem, Hearth.runs]; with_reducible refine Keeps.partsMem ?_ (fun w => by first | exact w | exact Cellar.scrub_wf w | exact Cellar.putUnits_wf w | exact Cellar.maskUnit_wf ‹_› w | (exact Cellar.scrub_wf (by simpa using w)) | simp [Memory.wf])) | (simp only [keeps_mk, Cellar.allocBlock_mem, Cellar.freeBlock_mem, Cellar.freeBlocks_mem, Cellar.dropStaging_mem, Cellar.replaceStaging_mem, Hearth.runs]; with_reducible refine Keeps.partsTo ?_ (by simp) (fun w => by first | exact w | exact Cellar.scrub_wf w | exact Cellar.putUnits_wf w | exact Cellar.maskUnit_wf ‹_› w | (exact Cellar.scrub_wf (by simpa using w)) | simp [Memory.wf])))

theorem State.fuseUpdate_keeps {r0 : State} (s : State) (sess : Option Nat) (tag : BitVec 16) (p : List Byte) (action : Nat) (f : State → State) (hk : Keeps r0 s) (hf : ∀ y0, Keeps r0 y0 → Keeps r0 (f y0)) : Keeps r0 (State.fuseUpdate s sess tag p action f) := by
  unfold State.fuseUpdate
  repeat' (first | with_reducible assumption | with_reducible apply hf | (intro x; refine Keeps.cut (r := r0) (s := x) ?_ ?_; unfold x; rotate_left; clear_value x; intro _) | intro _ | lift_lets -underBinder | with_reducible apply State.ok_keeps | with_reducible apply State.command_keeps | split)

theorem execSetWallclock_keeps {r0 : State} (sess : Option Nat) (tag : BitVec 16) (payload : List Byte) (s : State) (hk : Keeps r0 s) : KeepsOut r0 (execSetWallclock sess tag payload s) := by
  unfold execSetWallclock
  repeat' (first | with_reducible assumption | (simp only [keeps_mk, Cellar.allocBlock_mem, Cellar.freeBlock_mem, Cellar.freeBlocks_mem, Cellar.dropStaging_mem, Cellar.replaceStaging_mem, Hearth.runs]; with_reducible refine Keeps.parts ?_) | with_reducible apply KeepsOut.next | (intro x; refine Keeps.cut (r := r0) (s := x) ?_ ?_; unfold x; rotate_left; clear_value x; intro _) | intro _ | lift_lets -underBinder | with_reducible apply State.ok_keeps | with_reducible apply State.command_keeps | split | (simp only [keeps_mk, Cellar.allocBlock_mem, Cellar.freeBlock_mem, Cellar.freeBlocks_mem, Cellar.dropStaging_mem, Cellar.replaceStaging_mem, Hearth.runs]; with_reducible refine Keeps.partsMem ?_ (fun w => by first | exact w | exact Cellar.scrub_wf w | exact Cellar.putUnits_wf w | exact Cellar.maskUnit_wf ‹_› w | (exact Cellar.scrub_wf (by simpa using w)) | simp [Memory.wf])) | (simp only [keeps_mk, Cellar.allocBlock_mem, Cellar.freeBlock_mem, Cellar.freeBlocks_mem, Cellar.dropStaging_mem, Cellar.replaceStaging_mem, Hearth.runs]; with_reducible refine Keeps.partsTo ?_ (by simp) (fun w => by first | exact w | exact Cellar.scrub_wf w | exact Cellar.putUnits_wf w | exact Cellar.maskUnit_wf ‹_› w | (exact Cellar.scrub_wf (by simpa using w)) | simp [Memory.wf])))

theorem State.powerCommand_keeps {r0 : State} (s : State) (sess : Option Nat) (tag : BitVec 16) (p : List Byte) (action : Nat) (f : State → State) (hk : Keeps r0 s) (hf : ∀ y0, Keeps r0 y0 → Keeps r0 (f y0)) : Keeps r0 (State.powerCommand s sess tag p action f) := by
  unfold State.powerCommand
  repeat' (first | with_reducible assumption | with_reducible apply hf | (intro x; refine Keeps.cut (r := r0) (s := x) ?_ ?_; unfold x; rotate_left; clear_value x; intro _) | intro _ | lift_lets -underBinder | with_reducible apply State.command_keeps | split)

theorem execPowerBank_keeps {r0 : State} (sess : Option Nat) (tag : BitVec 16) (payload : List Byte) (s : State) (hk : Keeps r0 s) : KeepsOut r0 (execPowerBank sess tag payload s) := by
  unfold execPowerBank
  repeat' (first | with_reducible assumption | (simp only [keeps_mk, Cellar.allocBlock_mem, Cellar.freeBlock_mem, Cellar.freeBlocks_mem, Cellar.dropStaging_mem, Cellar.replaceStaging_mem, Hearth.runs]; with_reducible refine Keeps.parts ?_) | with_reducible apply KeepsOut.next | (intro x; refine Keeps.cut (r := r0) (s := x) ?_ ?_; unfold x; rotate_left; clear_value x; intro _) | intro _ | lift_lets -underBinder | with_reducible apply State.reply_keeps | with_reducible apply State.accept_keeps | with_reducible apply State.powerCommand_keeps | split | (simp only [keeps_mk, Cellar.allocBlock_mem, Cellar.freeBlock_mem, Cellar.freeBlocks_mem, Cellar.dropStaging_mem, Cellar.replaceStaging_mem, Hearth.runs]; with_reducible refine Keeps.partsMem ?_ (fun w => by first | exact w | exact Cellar.scrub_wf w | exact Cellar.putUnits_wf w | exact Cellar.maskUnit_wf ‹_› w | (exact Cellar.scrub_wf (by simpa using w)) | simp [Memory.wf])) | (simp only [keeps_mk, Cellar.allocBlock_mem, Cellar.freeBlock_mem, Cellar.freeBlocks_mem, Cellar.dropStaging_mem, Cellar.replaceStaging_mem, Hearth.runs]; with_reducible refine Keeps.partsTo ?_ (by simp) (fun w => by first | exact w | exact Cellar.scrub_wf w | exact Cellar.putUnits_wf w | exact Cellar.maskUnit_wf ‹_› w | (exact Cellar.scrub_wf (by simpa using w)) | simp [Memory.wf])))

theorem execPowerUnbank_keeps {r0 : State} (sess : Option Nat) (tag : BitVec 16) (payload : List Byte) (s : State) (hk : Keeps r0 s) : KeepsOut r0 (execPowerUnbank sess tag payload s) := by
  unfold execPowerUnbank
  repeat' (first | with_reducible assumption | (simp only [keeps_mk, Cellar.allocBlock_mem, Cellar.freeBlock_mem, Cellar.freeBlocks_mem, Cellar.dropStaging_mem, Cellar.replaceStaging_mem, Hearth.runs]; with_reducible refine Keeps.parts ?_) | with_reducible apply KeepsOut.next | (intro x; refine Keeps.cut (r := r0) (s := x) ?_ ?_; unfold x; rotate_left; clear_value x; intro _) | intro _ | lift_lets -underBinder | with_reducible apply State.reply_keeps | with_reducible apply State.accept_keeps | with_reducible apply State.powerCommand_keeps | split | (simp only [keeps_mk, Cellar.allocBlock_mem, Cellar.freeBlock_mem, Cellar.freeBlocks_mem, Cellar.dropStaging_mem, Cellar.replaceStaging_mem, Hearth.runs]; with_reducible refine Keeps.partsMem ?_ (fun w => by first | exact w | exact Cellar.scrub_wf w | exact Cellar.putUnits_wf w | exact Cellar.maskUnit_wf ‹_› w | (exact Cellar.scrub_wf (by simpa using w)) | simp [Memory.wf])) | (simp only [keeps_mk, Cellar.allocBlock_mem, Cellar.freeBlock_mem, Cellar.freeBlocks_mem, Cellar.dropStaging_mem, Cellar.replaceStaging_mem, Hearth.runs]; with_reducible refine Keeps.partsTo ?_ (by simp) (fun w => by first | exact w | exact Cellar.scrub_wf w | exact Cellar.putUnits_wf w | exact Cellar.maskUnit_wf ‹_› w | (exact Cellar.scrub_wf (by simpa using w)) | simp [Memory.wf])))

theorem execPowerHoldOn_keeps {r0 : State} (sess : Option Nat) (tag : BitVec 16) (payload : List Byte) (s : State) (hk : Keeps r0 s) : KeepsOut r0 (execPowerHoldOn sess tag payload s) := by
  unfold execPowerHoldOn
  repeat' (first | with_reducible assumption | (simp only [keeps_mk, Cellar.allocBlock_mem, Cellar.freeBlock_mem, Cellar.freeBlocks_mem, Cellar.dropStaging_mem, Cellar.replaceStaging_mem, Hearth.runs]; with_reducible refine Keeps.parts ?_) | with_reducible apply KeepsOut.next | (intro x; refine Keeps.cut (r := r0) (s := x) ?_ ?_; unfold x; rotate_left; clear_value x; intro _) | intro _ | lift_lets -underBinder | with_reducible apply State.wake_keeps | with_reducible apply State.ok_keeps | with_reducible apply State.powerCommand_keeps | split | (simp only [keeps_mk, Cellar.allocBlock_mem, Cellar.freeBlock_mem, Cellar.freeBlocks_mem, Cellar.dropStaging_mem, Cellar.replaceStaging_mem, Hearth.runs]; with_reducible refine Keeps.partsMem ?_ (fun w => by first | exact w | exact Cellar.scrub_wf w | exact Cellar.putUnits_wf w | exact Cellar.maskUnit_wf ‹_› w | (exact Cellar.scrub_wf (by simpa using w)) | simp [Memory.wf])) | (simp only [keeps_mk, Cellar.allocBlock_mem, Cellar.freeBlock_mem, Cellar.freeBlocks_mem, Cellar.dropStaging_mem, Cellar.replaceStaging_mem, Hearth.runs]; with_reducible refine Keeps.partsTo ?_ (by simp) (fun w => by first | exact w | exact Cellar.scrub_wf w | exact Cellar.putUnits_wf w | exact Cellar.maskUnit_wf ‹_› w | (exact Cellar.scrub_wf (by simpa using w)) | simp [Memory.wf])))

theorem execPowerHoldOff_keeps {r0 : State} (sess : Option Nat) (tag : BitVec 16) (payload : List Byte) (s : State) (hk : Keeps r0 s) : KeepsOut r0 (execPowerHoldOff sess tag payload s) := by
  unfold execPowerHoldOff
  repeat' (first | with_reducible assumption | (simp only [keeps_mk, Cellar.allocBlock_mem, Cellar.freeBlock_mem, Cellar.freeBlocks_mem, Cellar.dropStaging_mem, Cellar.replaceStaging_mem, Hearth.runs]; with_reducible refine Keeps.parts ?_) | with_reducible apply KeepsOut.next | (intro x; refine Keeps.cut (r := r0) (s := x) ?_ ?_; unfold x; rotate_left; clear_value x; intro _) | intro _ | lift_lets -underBinder | with_reducible apply State.ok_keeps | with_reducible apply State.powerCommand_keeps | split | (simp only [keeps_mk, Cellar.allocBlock_mem, Cellar.freeBlock_mem, Cellar.freeBlocks_mem, Cellar.dropStaging_mem, Cellar.replaceStaging_mem, Hearth.runs]; with_reducible refine Keeps.partsMem ?_ (fun w => by first | exact w | exact Cellar.scrub_wf w | exact Cellar.putUnits_wf w | exact Cellar.maskUnit_wf ‹_› w | (exact Cellar.scrub_wf (by simpa using w)) | simp [Memory.wf])) | (simp only [keeps_mk, Cellar.allocBlock_mem, Cellar.freeBlock_mem, Cellar.freeBlocks_mem, Cellar.dropStaging_mem, Cellar.replaceStaging_mem, Hearth.runs]; with_reducible refine Keeps.partsTo ?_ (by simp) (fun w => by first | exact w | exact Cellar.scrub_wf w | exact Cellar.putUnits_wf w | exact Cellar.maskUnit_wf ‹_› w | (exact Cellar.scrub_wf (by simpa using w)) | simp [Memory.wf])))

theorem execAbortContexts_keeps {r0 : State} (sess : Option Nat) (tag : BitVec 16) (payload : List Byte) (s : State) (hk : Keeps r0 s) : KeepsOut r0 (execAbortContexts sess tag payload s) := by
  unfold execAbortContexts
  repeat' (first | with_reducible assumption | with_reducible apply KeepsOut.next | (intro x; refine Keeps.cut (r := r0) (s := x) ?_ ?_; unfold x; rotate_left; clear_value x; intro _) | intro _ | lift_lets -underBinder | with_reducible apply overList_keeps | with_reducible apply State.abortCtx_keeps | with_reducible apply State.ok_keeps | with_reducible apply State.readyCommand_keeps | with_reducible apply Keeps.overList | split)

theorem execClearCounters_keeps {r0 : State} (sess : Option Nat) (tag : BitVec 16) (payload : List Byte) (s : State) (hk : Keeps r0 s) : KeepsOut r0 (execClearCounters sess tag payload s) := by
  unfold execClearCounters
  repeat' (first | with_reducible assumption | (simp only [keeps_mk, Cellar.allocBlock_mem, Cellar.freeBlock_mem, Cellar.freeBlocks_mem, Cellar.dropStaging_mem, Cellar.replaceStaging_mem, Hearth.runs]; with_reducible refine Keeps.parts ?_) | with_reducible apply KeepsOut.next | (intro x; refine Keeps.cut (r := r0) (s := x) ?_ ?_; unfold x; rotate_left; clear_value x; intro _) | intro _ | lift_lets -underBinder | with_reducible apply State.modPort_keeps | with_reducible apply State.ok_keeps | with_reducible apply State.readyCommand_keeps | with_reducible apply State.ifFree_keeps | split)

theorem State.resumeHalted_keeps {r0 : State} (s : State) (hk : Keeps r0 s) : Keeps r0 (State.resumeHalted s) := by
  unfold State.resumeHalted
  repeat' (first | with_reducible assumption | (simp only [keeps_mk, Cellar.allocBlock_mem, Cellar.freeBlock_mem, Cellar.freeBlocks_mem, Cellar.dropStaging_mem, Cellar.replaceStaging_mem, Hearth.runs]; with_reducible refine Keeps.parts ?_) | (intro x; refine Keeps.cut (r := r0) (s := x) ?_ ?_; unfold x; rotate_left; clear_value x; intro _) | intro _ | lift_lets -underBinder | with_reducible apply State.beginTraining_keeps | with_reducible apply State.trainAgain_keeps | split | (simp only [keeps_mk, Cellar.allocBlock_mem, Cellar.freeBlock_mem, Cellar.freeBlocks_mem, Cellar.dropStaging_mem, Cellar.replaceStaging_mem, Hearth.runs]; with_reducible refine Keeps.partsMem ?_ (fun w => by first | exact w | exact Cellar.scrub_wf w | exact Cellar.putUnits_wf w | exact Cellar.maskUnit_wf ‹_› w | (exact Cellar.scrub_wf (by simpa using w)) | simp [Memory.wf])) | (simp only [keeps_mk, Cellar.allocBlock_mem, Cellar.freeBlock_mem, Cellar.freeBlocks_mem, Cellar.dropStaging_mem, Cellar.replaceStaging_mem, Hearth.runs]; with_reducible refine Keeps.partsTo ?_ (by simp) (fun w => by first | exact w | exact Cellar.scrub_wf w | exact Cellar.putUnits_wf w | exact Cellar.maskUnit_wf ‹_› w | (exact Cellar.scrub_wf (by simpa using w)) | simp [Memory.wf])) | (dsimp +zetaDelta only))

theorem execResume_keeps {r0 : State} (sess : Option Nat) (tag : BitVec 16) (payload : List Byte) (s : State) (hk : Keeps r0 s) : KeepsOut r0 (execResume sess tag payload s) := by
  unfold execResume
  repeat' (first | with_reducible assumption | (simp only [keeps_mk, Cellar.allocBlock_mem, Cellar.freeBlock_mem, Cellar.freeBlocks_mem, Cellar.dropStaging_mem, Cellar.replaceStaging_mem, Hearth.runs]; with_reducible refine Keeps.parts ?_) | with_reducible apply KeepsOut.next | (intro x; refine Keeps.cut (r := r0) (s := x) ?_ ?_; unfold x; rotate_left; clear_value x; intro _) | intro _ | lift_lets -underBinder | with_reducible apply State.wake_keeps | with_reducible apply State.settleAll_keeps | with_reducible apply State.reply_keeps | with_reducible apply State.ok_keeps | with_reducible apply State.accept_keeps | with_reducible apply State.command_keeps | with_reducible apply State.resumeHalted_keeps | split | (simp only [keeps_mk, Cellar.allocBlock_mem, Cellar.freeBlock_mem, Cellar.freeBlocks_mem, Cellar.dropStaging_mem, Cellar.replaceStaging_mem, Hearth.runs]; with_reducible refine Keeps.partsMem ?_ (fun w => by first | exact w | exact Cellar.scrub_wf w | exact Cellar.putUnits_wf w | exact Cellar.maskUnit_wf ‹_› w | (exact Cellar.scrub_wf (by simpa using w)) | simp [Memory.wf])) | (simp only [keeps_mk, Cellar.allocBlock_mem, Cellar.freeBlock_mem, Cellar.freeBlocks_mem, Cellar.dropStaging_mem, Cellar.replaceStaging_mem, Hearth.runs]; with_reducible refine Keeps.partsTo ?_ (by simp) (fun w => by first | exact w | exact Cellar.scrub_wf w | exact Cellar.putUnits_wf w | exact Cellar.maskUnit_wf ‹_› w | (exact Cellar.scrub_wf (by simpa using w)) | simp [Memory.wf])))

theorem execCensusStart_keeps {r0 : State} (sess : Option Nat) (tag : BitVec 16) (payload : List Byte) (s : State) (hk : Keeps r0 s) : KeepsOut r0 (execCensusStart sess tag payload s) := by
  unfold execCensusStart
  repeat' (first | with_reducible assumption | with_reducible apply KeepsOut.next | (intro x; refine Keeps.cut (r := r0) (s := x) ?_ ?_; unfold x; rotate_left; clear_value x; intro _) | intro _ | lift_lets -underBinder | with_reducible apply State.joinCensus_keeps | with_reducible apply State.respond_keeps | with_reducible apply State.busy_keeps | with_reducible apply State.readyCommand_keeps | split)

theorem execCensusRead_keeps {r0 : State} (sess : Option Nat) (tag : BitVec 16) (payload : List Byte) (s : State) (hk : Keeps r0 s) : KeepsOut r0 (execCensusRead sess tag payload s) := by
  unfold execCensusRead
  repeat' (first | with_reducible assumption | with_reducible apply KeepsOut.next | (intro x; refine Keeps.cut (r := r0) (s := x) ?_ ?_; unfold x; rotate_left; clear_value x; intro _) | intro _ | lift_lets -underBinder | with_reducible apply State.drop_keeps | with_reducible apply State.respond_keeps | with_reducible apply State.readyCommand_keeps | split)

theorem execCensusCommit_keeps {r0 : State} (sess : Option Nat) (tag : BitVec 16) (payload : List Byte) (s : State) (hk : Keeps r0 s) : KeepsOut r0 (execCensusCommit sess tag payload s) := by
  unfold execCensusCommit
  repeat' (first | with_reducible assumption | with_reducible apply KeepsOut.next | (intro x; refine Keeps.cut (r := r0) (s := x) ?_ ?_; unfold x; rotate_left; clear_value x; intro _) | intro _ | lift_lets -underBinder | with_reducible apply State.applyCommit_keeps | with_reducible apply State.reply_keeps | with_reducible apply State.accept_keeps | with_reducible apply State.busy_keeps | with_reducible apply State.readyCommand_keeps | split)

theorem execBadCommand_keeps {r0 : State} (sess : Option Nat) (tag : BitVec 16) (code : BitVec 16) (len : Nat) (s : State) (hk : Keeps r0 s) : KeepsOut r0 (execBadCommand sess tag code len s) := by
  unfold execBadCommand
  repeat' (first | with_reducible assumption | (simp only [keeps_mk, Cellar.allocBlock_mem, Cellar.freeBlock_mem, Cellar.freeBlocks_mem, Cellar.dropStaging_mem, Cellar.replaceStaging_mem, Hearth.runs]; with_reducible refine Keeps.parts ?_) | with_reducible apply KeepsOut.next | (intro x; refine Keeps.cut (r := r0) (s := x) ?_ ?_; unfold x; rotate_left; clear_value x; intro _) | intro _ | lift_lets -underBinder | with_reducible apply State.reply_keeps | with_reducible apply State.mgmtMissed_keeps | with_reducible apply State.command_keeps | split | (simp only [id_eq]) | (simp only [keeps_mk, Cellar.allocBlock_mem, Cellar.freeBlock_mem, Cellar.freeBlocks_mem, Cellar.dropStaging_mem, Cellar.replaceStaging_mem, Hearth.runs]; with_reducible refine Keeps.partsMem ?_ (fun w => by first | exact w | exact Cellar.scrub_wf w | exact Cellar.putUnits_wf w | exact Cellar.maskUnit_wf ‹_› w | (exact Cellar.scrub_wf (by simpa using w)) | simp [Memory.wf])) | (simp only [keeps_mk, Cellar.allocBlock_mem, Cellar.freeBlock_mem, Cellar.freeBlocks_mem, Cellar.dropStaging_mem, Cellar.replaceStaging_mem, Hearth.runs]; with_reducible refine Keeps.partsTo ?_ (by simp) (fun w => by first | exact w | exact Cellar.scrub_wf w | exact Cellar.putUnits_wf w | exact Cellar.maskUnit_wf ‹_› w | (exact Cellar.scrub_wf (by simpa using w)) | simp [Memory.wf])))


/-! ## Scans -/

theorem State.packRecord_keeps {r0 : State} (s : State) (step : Nat) (hk : Keeps r0 s) : Keeps r0 (State.packRecord s step) := by
  unfold State.packRecord
  repeat' (first | with_reducible assumption | (intro x; refine Keeps.cut (r := r0) (s := x) ?_ ?_; unfold x; rotate_left; clear_value x; intro _) | intro _ | lift_lets -underBinder | with_reducible apply State.record_keeps | split)

theorem State.putPack_keeps {r0 : State} (s : State) (id : Nat) (b : List Byte) (hk : Keeps r0 s) : Keeps r0 (State.putPack s id b) := by
  unfold State.putPack
  repeat' (first | with_reducible assumption | (simp only [keeps_mk, Cellar.allocBlock_mem, Cellar.freeBlock_mem, Cellar.freeBlocks_mem, Cellar.dropStaging_mem, Cellar.replaceStaging_mem, Hearth.runs]; with_reducible refine Keeps.parts ?_) | (intro x; refine Keeps.cut (r := r0) (s := x) ?_ ?_; unfold x; rotate_left; clear_value x; intro _) | intro _ | lift_lets -underBinder | split | (simp only [id_eq]))

theorem State.packWhole_keeps {r0 : State} (s : State) (tag : BitVec 16) (id : Nat) (b : List Byte) (hk : Keeps r0 s) : Keeps r0 (State.packWhole s tag id b) := by
  unfold State.packWhole
  repeat' (first | with_reducible assumption | (simp only [keeps_mk, Cellar.allocBlock_mem, Cellar.freeBlock_mem, Cellar.freeBlocks_mem, Cellar.dropStaging_mem, Cellar.replaceStaging_mem, Hearth.runs]; with_reducible refine Keeps.parts ?_) | (intro x; refine Keeps.cut (r := r0) (s := x) ?_ ?_; unfold x; rotate_left; clear_value x; intro _) | intro _ | lift_lets -underBinder | with_reducible apply State.reply_keeps | with_reducible apply State.accept_keeps | with_reducible apply State.packRecord_keeps | with_reducible apply State.putPack_keeps | split | (simp only [id_eq]))

theorem execPackPush_keeps {r0 : State} (sess : Option Nat) (tag : BitVec 16) (payload : List Byte) (s : State) (hk : Keeps r0 s) : KeepsOut r0 (execPackPush sess tag payload s) := by
  unfold execPackPush
  repeat' (first | with_reducible assumption | with_reducible apply KeepsOut.next | (intro x; refine Keeps.cut (r := r0) (s := x) ?_ ?_; unfold x; rotate_left; clear_value x; intro _) | intro _ | lift_lets -underBinder | with_reducible apply State.drop_keeps | with_reducible apply State.ok_keeps | with_reducible apply State.busy_keeps | with_reducible apply State.readyCommand_keeps | with_reducible apply State.putPack_keeps | with_reducible apply State.packWhole_keeps | split | (simp only [id_eq]))

theorem State.packOver_keeps {r0 : State} (s : State) (id : Nat) (status : Nat) (detail : Nat) (hk : Keeps r0 s) : Keeps r0 (State.packOver s id status detail) := by
  unfold State.packOver
  repeat' (first | with_reducible assumption | (simp only [keeps_mk, Cellar.allocBlock_mem, Cellar.freeBlock_mem, Cellar.freeBlocks_mem, Cellar.dropStaging_mem, Cellar.replaceStaging_mem, Hearth.runs]; with_reducible refine Keeps.parts ?_) | (intro x; refine Keeps.cut (r := r0) (s := x) ?_ ?_; unfold x; rotate_left; clear_value x; intro _) | intro _ | lift_lets -underBinder | with_reducible apply State.acceptAll_keeps | with_reducible apply State.putPack_keeps | split | (simp only [id_eq]))

theorem State.scanPower_keeps {r0 : State} (s : State) (cls : Nat) (units : List Nat) (hk : Keeps r0 s) : Keeps r0 (State.scanPower s cls units) := by
  unfold State.scanPower
  repeat' (first | with_reducible assumption | (simp only [keeps_mk, Cellar.allocBlock_mem, Cellar.freeBlock_mem, Cellar.freeBlocks_mem, Cellar.dropStaging_mem, Cellar.replaceStaging_mem, Hearth.runs]; with_reducible refine Keeps.parts ?_) | (intro x; refine Keeps.cut (r := r0) (s := x) ?_ ?_; unfold x; rotate_left; clear_value x; intro _) | intro _ | lift_lets -underBinder | with_reducible apply State.modExt_keeps | split)

theorem State.beginScan_keeps {r0 : State} (s : State) (tag : BitVec 16) (cls : Nat) (units : List Nat) (copy : Nat) (hk : Keeps r0 s) : Keeps r0 (State.beginScan s tag cls units copy) := by
  unfold State.beginScan
  repeat' (first | with_reducible assumption | (simp only [keeps_mk, Cellar.allocBlock_mem, Cellar.freeBlock_mem, Cellar.freeBlocks_mem, Cellar.dropStaging_mem, Cellar.replaceStaging_mem, Hearth.runs]; with_reducible refine Keeps.parts ?_) | (intro x; refine Keeps.cut (r := r0) (s := x) ?_ ?_; unfold x; rotate_left; clear_value x; intro _) | intro _ | lift_lets -underBinder | with_reducible apply overList_keeps | with_reducible apply State.replaceStaging_keeps | with_reducible apply State.scanPower_keeps | with_reducible apply Keeps.overList | split | (simp only [keeps_mk, Cellar.allocBlock_mem, Cellar.freeBlock_mem, Cellar.freeBlocks_mem, Cellar.dropStaging_mem, Cellar.replaceStaging_mem, Hearth.runs]; with_reducible refine Keeps.partsMem ?_ (fun w => by first | exact w | exact Cellar.scrub_wf w | exact Cellar.putUnits_wf w | exact Cellar.maskUnit_wf ‹_› w | (exact Cellar.scrub_wf (by simpa using w)) | simp [Memory.wf])) | (simp only [keeps_mk, Cellar.allocBlock_mem, Cellar.freeBlock_mem, Cellar.freeBlocks_mem, Cellar.dropStaging_mem, Cellar.replaceStaging_mem, Hearth.runs]; with_reducible refine Keeps.partsTo ?_ (by simp) (fun w => by first | exact w | exact Cellar.scrub_wf w | exact Cellar.putUnits_wf w | exact Cellar.maskUnit_wf ‹_› w | (exact Cellar.scrub_wf (by simpa using w)) | simp [Memory.wf])))

theorem execScan_keeps {r0 : State} (sess : Option Nat) (tag : BitVec 16) (payload : List Byte) (s : State) (hk : Keeps r0 s) : KeepsOut r0 (execScan sess tag payload s) := by
  unfold execScan
  repeat' (first | with_reducible assumption | (simp only [keeps_mk, Cellar.allocBlock_mem, Cellar.freeBlock_mem, Cellar.freeBlocks_mem, Cellar.dropStaging_mem, Cellar.replaceStaging_mem, Hearth.runs]; with_reducible refine Keeps.parts ?_) | with_reducible apply KeepsOut.next | (intro x; refine Keeps.cut (r := r0) (s := x) ?_ ?_; unfold x; rotate_left; clear_value x; intro _) | intro _ | lift_lets -underBinder | with_reducible apply State.reply_keeps | with_reducible apply State.accept_keeps | with_reducible apply State.readyCommand_keeps | with_reducible apply State.ifFree_keeps | with_reducible apply State.packRecord_keeps | with_reducible apply State.beginScan_keeps | split | (simp only [id_eq]))

theorem State.scannedExt_keeps {r0 : State} (s : State) (e : Nat) (j : ScanJob) (hk : Keeps r0 s) : Keeps r0 (State.scannedExt s e j) := by
  unfold State.scannedExt
  repeat' (first | with_reducible assumption | (simp only [keeps_mk, Cellar.allocBlock_mem, Cellar.freeBlock_mem, Cellar.freeBlocks_mem, Cellar.dropStaging_mem, Cellar.replaceStaging_mem, Hearth.runs]; with_reducible refine Keeps.parts ?_) | (intro x; refine Keeps.cut (r := r0) (s := x) ?_ ?_; unfold x; rotate_left; clear_value x; intro _) | intro _ | lift_lets -underBinder | with_reducible apply State.putExt_keeps | with_reducible apply State.modExt_keeps | with_reducible apply State.replaceStaging_keeps | split | (simp only [keeps_mk, Cellar.allocBlock_mem, Cellar.freeBlock_mem, Cellar.freeBlocks_mem, Cellar.dropStaging_mem, Cellar.replaceStaging_mem, Hearth.runs]; with_reducible refine Keeps.partsMem ?_ (fun w => by first | exact w | exact Cellar.scrub_wf w | exact Cellar.putUnits_wf w | exact Cellar.maskUnit_wf ‹_› w | (exact Cellar.scrub_wf (by simpa using w)) | simp [Memory.wf])) | (simp only [keeps_mk, Cellar.allocBlock_mem, Cellar.freeBlock_mem, Cellar.freeBlocks_mem, Cellar.dropStaging_mem, Cellar.replaceStaging_mem, Hearth.runs]; with_reducible refine Keeps.partsTo ?_ (by simp) (fun w => by first | exact w | exact Cellar.scrub_wf w | exact Cellar.putUnits_wf w | exact Cellar.maskUnit_wf ‹_› w | (exact Cellar.scrub_wf (by simpa using w)) | simp [Memory.wf])))

theorem State.scanPassed_keeps {r0 : State} (s : State) (idx : Nat) (j : ScanJob) (hk : Keeps r0 s) : Keeps r0 (State.scanPassed s idx j) := by
  unfold State.scanPassed
  repeat' (first | with_reducible assumption | (simp only [keeps_mk, Cellar.allocBlock_mem, Cellar.freeBlock_mem, Cellar.freeBlocks_mem, Cellar.dropStaging_mem, Cellar.replaceStaging_mem, Hearth.runs]; with_reducible refine Keeps.parts ?_) | (intro x; refine Keeps.cut (r := r0) (s := x) ?_ ?_; unfold x; rotate_left; clear_value x; intro _) | intro _ | lift_lets -underBinder | with_reducible apply State.record_keeps | with_reducible apply State.callerBack_keeps | with_reducible apply State.scannedExt_keeps | split)

theorem State.scanFailed_keeps {r0 : State} (s : State) (idx : Nat) (j : ScanJob) (hk : Keeps r0 s) : Keeps r0 (State.scanFailed s idx j) := by
  unfold State.scanFailed
  repeat' (first | with_reducible assumption | (simp only [keeps_mk, Cellar.allocBlock_mem, Cellar.freeBlock_mem, Cellar.freeBlocks_mem, Cellar.dropStaging_mem, Cellar.replaceStaging_mem, Hearth.runs]; with_reducible refine Keeps.parts ?_) | (intro x; refine Keeps.cut (r := r0) (s := x) ?_ ?_; unfold x; rotate_left; clear_value x; intro _) | intro _ | lift_lets -underBinder | with_reducible apply State.modHost_keeps | with_reducible apply State.modPort_keeps | with_reducible apply State.modExt_keeps | with_reducible apply State.record_keeps | with_reducible apply State.quarantineExt_keeps | split)

theorem execScanComplete_keeps {r0 : State} (unitClass : Nat) (unitIndex : Nat) (pass : Bool) (s : State) (hk : Keeps r0 s) : KeepsOut r0 (execScanComplete unitClass unitIndex pass s) := by
  unfold execScanComplete
  repeat' (first | with_reducible assumption | (simp only [keeps_mk, Cellar.allocBlock_mem, Cellar.freeBlock_mem, Cellar.freeBlocks_mem, Cellar.dropStaging_mem, Cellar.replaceStaging_mem, Hearth.runs]; with_reducible refine Keeps.parts ?_) | with_reducible apply KeepsOut.next | (intro x; refine Keeps.cut (r := r0) (s := x) ?_ ?_; unfold x; rotate_left; clear_value x; intro _) | intro _ | lift_lets -underBinder | with_reducible apply State.acceptAll_keeps | with_reducible apply State.scanPower_keeps | with_reducible apply State.scanPassed_keeps | with_reducible apply State.scanFailed_keeps | split | (simp only [keeps_mk, Cellar.allocBlock_mem, Cellar.freeBlock_mem, Cellar.freeBlocks_mem, Cellar.dropStaging_mem, Cellar.replaceStaging_mem, Hearth.runs]; with_reducible refine Keeps.partsMem ?_ (fun w => by first | exact w | exact Cellar.scrub_wf w | exact Cellar.putUnits_wf w | exact Cellar.maskUnit_wf ‹_› w | (exact Cellar.scrub_wf (by simpa using w)) | simp [Memory.wf])) | (simp only [keeps_mk, Cellar.allocBlock_mem, Cellar.freeBlock_mem, Cellar.freeBlocks_mem, Cellar.dropStaging_mem, Cellar.replaceStaging_mem, Hearth.runs]; with_reducible refine Keeps.partsTo ?_ (by simp) (fun w => by first | exact w | exact Cellar.scrub_wf w | exact Cellar.putUnits_wf w | exact Cellar.maskUnit_wf ‹_› w | (exact Cellar.scrub_wf (by simpa using w)) | simp [Memory.wf])))


/-! ## Transport -/

theorem execSmbusArbitrationLost_keeps {r0 : State} (s : State) (hk : Keeps r0 s) : KeepsOut r0 (execSmbusArbitrationLost s) := by
  unfold execSmbusArbitrationLost
  repeat' (first | with_reducible assumption | (simp only [keeps_mk, Cellar.allocBlock_mem, Cellar.freeBlock_mem, Cellar.freeBlocks_mem, Cellar.dropStaging_mem, Cellar.replaceStaging_mem, Hearth.runs]; with_reducible refine Keeps.parts ?_) | with_reducible apply KeepsOut.next | (intro x; refine Keeps.cut (r := r0) (s := x) ?_ ?_; unfold x; rotate_left; clear_value x; intro _) | intro _ | lift_lets -underBinder | split)

theorem execSmbusRetry_keeps {r0 : State} (s : State) (hk : Keeps r0 s) : KeepsOut r0 (execSmbusRetry s) := by
  unfold execSmbusRetry
  repeat' (first | with_reducible assumption | (simp only [keeps_mk, Cellar.allocBlock_mem, Cellar.freeBlock_mem, Cellar.freeBlocks_mem, Cellar.dropStaging_mem, Cellar.replaceStaging_mem, Hearth.runs]; with_reducible refine Keeps.parts ?_) | with_reducible apply KeepsOut.next | (intro x; refine Keeps.cut (r := r0) (s := x) ?_ ?_; unfold x; rotate_left; clear_value x; intro _) | intro _ | lift_lets -underBinder | split)

theorem execSmbusSclTimeout_keeps {r0 : State} (s : State) (hk : Keeps r0 s) : KeepsOut r0 (execSmbusSclTimeout s) := by
  unfold execSmbusSclTimeout
  repeat' (first | with_reducible assumption | (simp only [keeps_mk, Cellar.allocBlock_mem, Cellar.freeBlock_mem, Cellar.freeBlocks_mem, Cellar.dropStaging_mem, Cellar.replaceStaging_mem, Hearth.runs]; with_reducible refine Keeps.parts ?_) | with_reducible apply KeepsOut.next | (intro x; refine Keeps.cut (r := r0) (s := x) ?_ ?_; unfold x; rotate_left; clear_value x; intro _) | intro _ | lift_lets -underBinder | split | (simp only [keeps_mk, Cellar.allocBlock_mem, Cellar.freeBlock_mem, Cellar.freeBlocks_mem, Cellar.dropStaging_mem, Cellar.replaceStaging_mem, Hearth.runs]; with_reducible refine Keeps.partsMem ?_ (fun w => by first | exact w | exact Cellar.scrub_wf w | exact Cellar.putUnits_wf w | exact Cellar.maskUnit_wf ‹_› w | (exact Cellar.scrub_wf (by simpa using w)) | simp [Memory.wf])) | (simp only [keeps_mk, Cellar.allocBlock_mem, Cellar.freeBlock_mem, Cellar.freeBlocks_mem, Cellar.dropStaging_mem, Cellar.replaceStaging_mem, Hearth.runs]; with_reducible refine Keeps.partsTo ?_ (by simp) (fun w => by first | exact w | exact Cellar.scrub_wf w | exact Cellar.putUnits_wf w | exact Cellar.maskUnit_wf ‹_› w | (exact Cellar.scrub_wf (by simpa using w)) | simp [Memory.wf])))

theorem State.transport_keeps {r0 : State} (s : State) (r : TransportReply) (hk : Keeps r0 s) : Keeps r0 (State.transport s r) := by
  unfold State.transport
  repeat' (first | with_reducible assumption | (simp only [keeps_mk, Cellar.allocBlock_mem, Cellar.freeBlock_mem, Cellar.freeBlocks_mem, Cellar.dropStaging_mem, Cellar.replaceStaging_mem, Hearth.runs]; with_reducible refine Keeps.parts ?_) | (intro x; refine Keeps.cut (r := r0) (s := x) ?_ ?_; unfold x; rotate_left; clear_value x; intro _) | intro _ | lift_lets -underBinder | split)

theorem State.control_keeps {r0 : State} (s : State) (f : State → State) (hk : Keeps r0 s) (hf : ∀ y0, Keeps r0 y0 → Keeps r0 (f y0)) : Keeps r0 (State.control s f) := by
  unfold State.control
  repeat' (first | with_reducible assumption | with_reducible apply hf | (intro x; refine Keeps.cut (r := r0) (s := x) ?_ ?_; unfold x; rotate_left; clear_value x; intro _) | intro _ | lift_lets -underBinder | with_reducible apply State.mgmtMissed_keeps | split)

theorem execSetEndpointId_keeps {r0 : State} (eid : BitVec 8) (s : State) (hk : Keeps r0 s) : KeepsOut r0 (execSetEndpointId eid s) := by
  unfold execSetEndpointId
  repeat' (first | with_reducible assumption | (simp only [keeps_mk, Cellar.allocBlock_mem, Cellar.freeBlock_mem, Cellar.freeBlocks_mem, Cellar.dropStaging_mem, Cellar.replaceStaging_mem, Hearth.runs]; with_reducible refine Keeps.parts ?_) | with_reducible apply KeepsOut.next | (intro x; refine Keeps.cut (r := r0) (s := x) ?_ ?_; unfold x; rotate_left; clear_value x; intro _) | intro _ | lift_lets -underBinder | with_reducible apply State.ok_keeps | with_reducible apply State.transport_keeps | with_reducible apply State.control_keeps | split)

theorem execGetEndpointId_keeps {r0 : State} (s : State) (hk : Keeps r0 s) : KeepsOut r0 (execGetEndpointId s) := by
  unfold execGetEndpointId
  repeat' (first | with_reducible assumption | with_reducible apply KeepsOut.next | (intro x; refine Keeps.cut (r := r0) (s := x) ?_ ?_; unfold x; rotate_left; clear_value x; intro _) | intro _ | lift_lets -underBinder | with_reducible apply State.transport_keeps | with_reducible apply State.control_keeps | split)

theorem execGetMctpVersionSupport_keeps {r0 : State} (s : State) (hk : Keeps r0 s) : KeepsOut r0 (execGetMctpVersionSupport s) := by
  unfold execGetMctpVersionSupport
  repeat' (first | with_reducible assumption | with_reducible apply KeepsOut.next | (intro x; refine Keeps.cut (r := r0) (s := x) ?_ ?_; unfold x; rotate_left; clear_value x; intro _) | intro _ | lift_lets -underBinder | with_reducible apply State.transport_keeps | with_reducible apply State.control_keeps | split)

theorem execGetMessageTypeSupport_keeps {r0 : State} (s : State) (hk : Keeps r0 s) : KeepsOut r0 (execGetMessageTypeSupport s) := by
  unfold execGetMessageTypeSupport
  repeat' (first | with_reducible assumption | with_reducible apply KeepsOut.next | (intro x; refine Keeps.cut (r := r0) (s := x) ?_ ?_; unfold x; rotate_left; clear_value x; intro _) | intro _ | lift_lets -underBinder | with_reducible apply State.transport_keeps | with_reducible apply State.control_keeps | split)

theorem State.spdm_keeps {r0 : State} (s : State) (f : State → State) (hk : Keeps r0 s) (hf : ∀ y0, Keeps r0 y0 → Keeps r0 (f y0)) : Keeps r0 (State.spdm s f) := by
  unfold State.spdm
  repeat' (first | with_reducible assumption | with_reducible apply hf | (intro x; refine Keeps.cut (r := r0) (s := x) ?_ ?_; unfold x; rotate_left; clear_value x; intro _) | intro _ | lift_lets -underBinder | with_reducible apply State.transport_keeps | with_reducible apply State.control_keeps | split)

theorem execGetMeasurements_keeps {r0 : State} (sess : Option Nat) (index : Nat) (s : State) (hk : Keeps r0 s) : KeepsOut r0 (execGetMeasurements sess index s) := by
  unfold execGetMeasurements
  repeat' (first | with_reducible assumption | (simp only [keeps_mk, Cellar.allocBlock_mem, Cellar.freeBlock_mem, Cellar.freeBlocks_mem, Cellar.dropStaging_mem, Cellar.replaceStaging_mem, Hearth.runs]; with_reducible refine Keeps.parts ?_) | with_reducible apply KeepsOut.next | (intro x; refine Keeps.cut (r := r0) (s := x) ?_ ?_; unfold x; rotate_left; clear_value x; intro _) | intro _ | lift_lets -underBinder | with_reducible apply State.sessionUsed_keeps | with_reducible apply State.transport_keeps | with_reducible apply State.spdm_keeps | split)

theorem execGetCertificate_keeps {r0 : State} (slot : Nat) (s : State) (hk : Keeps r0 s) : KeepsOut r0 (execGetCertificate slot s) := by
  unfold execGetCertificate
  repeat' (first | with_reducible assumption | (simp only [keeps_mk, Cellar.allocBlock_mem, Cellar.freeBlock_mem, Cellar.freeBlocks_mem, Cellar.dropStaging_mem, Cellar.replaceStaging_mem, Hearth.runs]; with_reducible refine Keeps.parts ?_) | with_reducible apply KeepsOut.next | (intro x; refine Keeps.cut (r := r0) (s := x) ?_ ?_; unfold x; rotate_left; clear_value x; intro _) | intro _ | lift_lets -underBinder | with_reducible apply State.transport_keeps | with_reducible apply State.spdm_keeps | split)

theorem execChallenge_keeps {r0 : State} (slot : Nat) (nonce : BitVec 256) (s : State) (hk : Keeps r0 s) : KeepsOut r0 (execChallenge slot nonce s) := by
  unfold execChallenge
  repeat' (first | with_reducible assumption | (simp only [keeps_mk, Cellar.allocBlock_mem, Cellar.freeBlock_mem, Cellar.freeBlocks_mem, Cellar.dropStaging_mem, Cellar.replaceStaging_mem, Hearth.runs]; with_reducible refine Keeps.parts ?_) | with_reducible apply KeepsOut.next | (intro x; refine Keeps.cut (r := r0) (s := x) ?_ ?_; unfold x; rotate_left; clear_value x; intro _) | intro _ | lift_lets -underBinder | with_reducible apply State.transport_keeps | with_reducible apply State.spdm_keeps | split)

theorem State.fmKeyExchange_keeps {r0 : State} (s : State) (r : KeyEx) (hk : Keeps r0 s) : Keeps r0 (State.fmKeyExchange s r) := by
  unfold State.fmKeyExchange
  repeat' (first | with_reducible assumption | (simp only [keeps_mk, Cellar.allocBlock_mem, Cellar.freeBlock_mem, Cellar.freeBlocks_mem, Cellar.dropStaging_mem, Cellar.replaceStaging_mem, Hearth.runs]; with_reducible refine Keeps.parts ?_) | (intro x; refine Keeps.cut (r := r0) (s := x) ?_ ?_; unfold x; rotate_left; clear_value x; intro _) | intro _ | lift_lets -underBinder | with_reducible apply State.busy_keeps | with_reducible apply State.transport_keeps | split)

theorem State.hostKeyExchange_keeps {r0 : State} (s : State) (h : Nat) (r : KeyEx) (hk : Keeps r0 s) : Keeps r0 (State.hostKeyExchange s h r) := by
  unfold State.hostKeyExchange
  repeat' (first | with_reducible assumption | (intro x; refine Keeps.cut (r := r0) (s := x) ?_ ?_; unfold x; rotate_left; clear_value x; intro _) | intro _ | lift_lets -underBinder | with_reducible apply State.wake_keeps | with_reducible apply State.hostSession_keeps | with_reducible apply State.busy_keeps | with_reducible apply State.transport_keeps | split)

theorem execKeyExchange_keeps {r0 : State} (req : KeyEx) (s : State) (hk : Keeps r0 s) : KeepsOut r0 (execKeyExchange req s) := by
  unfold execKeyExchange
  repeat' (first | with_reducible assumption | (simp only [keeps_mk, Cellar.allocBlock_mem, Cellar.freeBlock_mem, Cellar.freeBlocks_mem, Cellar.dropStaging_mem, Cellar.replaceStaging_mem, Hearth.runs]; with_reducible refine Keeps.parts ?_) | with_reducible apply KeepsOut.next | (intro x; refine Keeps.cut (r := r0) (s := x) ?_ ?_; unfold x; rotate_left; clear_value x; intro _) | intro _ | lift_lets -underBinder | with_reducible apply State.spdm_keeps | with_reducible apply State.fmKeyExchange_keeps | with_reducible apply State.hostKeyExchange_keeps | split | (simp only [keeps_mk, Cellar.allocBlock_mem, Cellar.freeBlock_mem, Cellar.freeBlocks_mem, Cellar.dropStaging_mem, Cellar.replaceStaging_mem, Hearth.runs]; with_reducible refine Keeps.partsMem ?_ (fun w => by first | exact w | exact Cellar.scrub_wf w | exact Cellar.putUnits_wf w | exact Cellar.maskUnit_wf ‹_› w | (exact Cellar.scrub_wf (by simpa using w)) | simp [Memory.wf])) | (simp only [keeps_mk, Cellar.allocBlock_mem, Cellar.freeBlock_mem, Cellar.freeBlocks_mem, Cellar.dropStaging_mem, Cellar.replaceStaging_mem, Hearth.runs]; with_reducible refine Keeps.partsTo ?_ (by simp) (fun w => by first | exact w | exact Cellar.scrub_wf w | exact Cellar.putUnits_wf w | exact Cellar.maskUnit_wf ‹_› w | (exact Cellar.scrub_wf (by simpa using w)) | simp [Memory.wf])))

theorem execHeartbeat_keeps {r0 : State} (sess : Nat) (s : State) (hk : Keeps r0 s) : KeepsOut r0 (execHeartbeat sess s) := by
  unfold execHeartbeat
  repeat' (first | with_reducible assumption | with_reducible apply KeepsOut.next | (intro x; refine Keeps.cut (r := r0) (s := x) ?_ ?_; unfold x; rotate_left; clear_value x; intro _) | intro _ | lift_lets -underBinder | with_reducible apply State.ok_keeps | with_reducible apply State.sessionUsed_keeps | with_reducible apply State.transport_keeps | with_reducible apply State.spdm_keeps | split)

theorem execSpdmSessionTimeout_keeps {r0 : State} (sess : Nat) (s : State) (hk : Keeps r0 s) : KeepsOut r0 (execSpdmSessionTimeout sess s) := by
  unfold execSpdmSessionTimeout
  repeat' (first | with_reducible assumption | (simp only [keeps_mk, Cellar.allocBlock_mem, Cellar.freeBlock_mem, Cellar.freeBlocks_mem, Cellar.dropStaging_mem, Cellar.replaceStaging_mem, Hearth.runs]; with_reducible refine Keeps.parts ?_) | with_reducible apply KeepsOut.next | (intro x; refine Keeps.cut (r := r0) (s := x) ?_ ?_; unfold x; rotate_left; clear_value x; intro _) | intro _ | lift_lets -underBinder | with_reducible apply State.reach_keeps | split)


/-! ## Registers -/

theorem execBar0UnsupportedAccess_keeps {r0 : State} (host : Fin 16) (write : Bool) (offset : Nat) (size : Nat) (atomic : Bool) (s : State) (hk : Keeps r0 s) : KeepsOut r0 (execBar0UnsupportedAccess host write offset size atomic s) := by
  unfold execBar0UnsupportedAccess
  repeat' (first | with_reducible assumption | with_reducible apply KeepsOut.next | (intro x; refine Keeps.cut (r := r0) (s := x) ?_ ?_; unfold x; rotate_left; clear_value x; intro _) | intro _ | lift_lets -underBinder | with_reducible apply State.hostIn_keeps | with_reducible apply State.bar0Refused_keeps | with_reducible apply State.bar0_keeps | split)

theorem State.readWord_keeps {r0 : State} (s : State) (h : Nat) (off : Nat) (hk : Keeps r0 s) : Keeps r0 (State.readWord s h off) := by
  unfold State.readWord
  repeat' (first | with_reducible assumption | (simp only [keeps_mk, Cellar.allocBlock_mem, Cellar.freeBlock_mem, Cellar.freeBlocks_mem, Cellar.dropStaging_mem, Cellar.replaceStaging_mem, Hearth.runs]; with_reducible refine Keeps.parts ?_) | (intro x; refine Keeps.cut (r := r0) (s := x) ?_ ?_; unfold x; rotate_left; clear_value x; intro _) | intro _ | lift_lets -underBinder | with_reducible apply State.modHost_keeps | with_reducible apply State.bar0Refused_keeps | with_reducible apply State.bar0Reset_keeps | split)

theorem execLowHalfRead_keeps {r0 : State} (host : Fin 16) (offset : Nat) (s : State) (hk : Keeps r0 s) : KeepsOut r0 (execLowHalfRead host offset s) := by
  unfold execLowHalfRead
  repeat' (first | with_reducible assumption | with_reducible apply KeepsOut.next | (intro x; refine Keeps.cut (r := r0) (s := x) ?_ ?_; unfold x; rotate_left; clear_value x; intro _) | intro _ | lift_lets -underBinder | with_reducible apply State.hostIn_keeps | with_reducible apply State.bar0Refused_keeps | with_reducible apply State.bar0_keeps | with_reducible apply State.readWord_keeps | split)

theorem State.rlWrite_keeps {r0 : State} (s : State) (h : Nat) (off : Nat) (hk : Keeps r0 s) : Keeps r0 (State.rlWrite s h off) := by
  unfold State.rlWrite
  repeat' (first | with_reducible assumption | (simp only [keeps_mk, Cellar.allocBlock_mem, Cellar.freeBlock_mem, Cellar.freeBlocks_mem, Cellar.dropStaging_mem, Cellar.replaceStaging_mem, Hearth.runs]; with_reducible refine Keeps.parts ?_) | (intro x; refine Keeps.cut (r := r0) (s := x) ?_ ?_; unfold x; rotate_left; clear_value x; intro _) | intro _ | lift_lets -underBinder | with_reducible apply State.record_keeps | split | (simp only [keeps_mk, Cellar.allocBlock_mem, Cellar.freeBlock_mem, Cellar.freeBlocks_mem, Cellar.dropStaging_mem, Cellar.replaceStaging_mem, Hearth.runs]; with_reducible refine Keeps.partsMem ?_ (fun w => by first | exact w | exact Cellar.scrub_wf w | exact Cellar.putUnits_wf w | exact Cellar.maskUnit_wf ‹_› w | (exact Cellar.scrub_wf (by simpa using w)) | simp [Memory.wf])) | (simp only [keeps_mk, Cellar.allocBlock_mem, Cellar.freeBlock_mem, Cellar.freeBlocks_mem, Cellar.dropStaging_mem, Cellar.replaceStaging_mem, Hearth.runs]; with_reducible refine Keeps.partsTo ?_ (by simp) (fun w => by first | exact w | exact Cellar.scrub_wf w | exact Cellar.putUnits_wf w | exact Cellar.maskUnit_wf ‹_› w | (exact Cellar.scrub_wf (by simpa using w)) | simp [Memory.wf])))

theorem execRlFieldWrite_keeps {r0 : State} (host : Fin 16) (offset : Nat) (s : State) (hk : Keeps r0 s) : KeepsOut r0 (execRlFieldWrite host offset s) := by
  unfold execRlFieldWrite
  repeat' (first | with_reducible assumption | with_reducible apply KeepsOut.next | (intro x; refine Keeps.cut (r := r0) (s := x) ?_ ?_; unfold x; rotate_left; clear_value x; intro _) | intro _ | lift_lets -underBinder | with_reducible apply State.hostIn_keeps | with_reducible apply State.bar0_keeps | with_reducible apply State.rlWrite_keeps | split)

theorem State.writeMsix_keeps {r0 : State} (s : State) (h : Nat) (off : Nat) (v : Nat) (hk : Keeps r0 s) : Keeps r0 (State.writeMsix s h off v) := by
  unfold State.writeMsix
  repeat' (first | with_reducible assumption | (simp only [keeps_mk, Cellar.allocBlock_mem, Cellar.freeBlock_mem, Cellar.freeBlocks_mem, Cellar.dropStaging_mem, Cellar.replaceStaging_mem, Hearth.runs]; with_reducible refine Keeps.parts ?_) | (intro x; refine Keeps.cut (r := r0) (s := x) ?_ ?_; unfold x; rotate_left; clear_value x; intro _) | intro _ | lift_lets -underBinder | with_reducible apply State.modHost_keeps | with_reducible apply State.msix_keeps | with_reducible apply State.unmask_keeps | split)

theorem State.writePort_keeps {r0 : State} (s : State) (host : Fin 16) (off : Nat) (v : Nat) (hk : Keeps r0 s) : Keeps r0 (State.writePort s host off v) := by
  unfold State.writePort
  repeat' (first | with_reducible assumption | (simp only [keeps_mk, Cellar.allocBlock_mem, Cellar.freeBlock_mem, Cellar.freeBlocks_mem, Cellar.dropStaging_mem, Cellar.replaceStaging_mem, Hearth.runs]; with_reducible refine Keeps.parts ?_) | (intro x; refine Keeps.cut (r := r0) (s := x) ?_ ?_; unfold x; rotate_left; clear_value x; intro _) | intro _ | lift_lets -underBinder | with_reducible apply execLease_keeps | with_reducible apply execSlowReadNs_keeps | with_reducible apply State.rlWrite_keeps | with_reducible apply Keeps.nextOr | split | (simp only [keeps_mk, Cellar.allocBlock_mem, Cellar.freeBlock_mem, Cellar.freeBlocks_mem, Cellar.dropStaging_mem, Cellar.replaceStaging_mem, Hearth.runs]; with_reducible refine Keeps.partsMem ?_ (fun w => by first | exact w | exact Cellar.scrub_wf w | exact Cellar.putUnits_wf w | exact Cellar.maskUnit_wf ‹_› w | (exact Cellar.scrub_wf (by simpa using w)) | simp [Memory.wf])) | (simp only [keeps_mk, Cellar.allocBlock_mem, Cellar.freeBlock_mem, Cellar.freeBlocks_mem, Cellar.dropStaging_mem, Cellar.replaceStaging_mem, Hearth.runs]; with_reducible refine Keeps.partsTo ?_ (by simp) (fun w => by first | exact w | exact Cellar.scrub_wf w | exact Cellar.putUnits_wf w | exact Cellar.maskUnit_wf ‹_› w | (exact Cellar.scrub_wf (by simpa using w)) | simp [Memory.wf])))

theorem State.groupCmd_keeps {r0 : State} (s : State) (host : Fin 16) (i : Nat) (v : Nat) (hk : Keeps r0 s) : Keeps r0 (State.groupCmd s host i v) := by
  unfold State.groupCmd
  repeat' (first | with_reducible assumption | (simp only [keeps_mk, Cellar.allocBlock_mem, Cellar.freeBlock_mem, Cellar.freeBlocks_mem, Cellar.dropStaging_mem, Cellar.replaceStaging_mem, Hearth.runs]; with_reducible refine Keeps.parts ?_) | (intro x; refine Keeps.cut (r := r0) (s := x) ?_ ?_; unfold x; rotate_left; clear_value x; intro _) | intro _ | lift_lets -underBinder | with_reducible apply State.drop_keeps | with_reducible apply execGroupCommit_keeps | with_reducible apply execGroupInvalidate_keeps | with_reducible apply Keeps.nextOr | split)

theorem State.suiteCmdWord_keeps {r0 : State} (s : State) (host : Fin 16) (i : Nat) (v : Nat) (hk : Keeps r0 s) : Keeps r0 (State.suiteCmdWord s host i v) := by
  unfold State.suiteCmdWord
  repeat' (first | with_reducible assumption | (simp only [keeps_mk, Cellar.allocBlock_mem, Cellar.freeBlock_mem, Cellar.freeBlocks_mem, Cellar.dropStaging_mem, Cellar.replaceStaging_mem, Hearth.runs]; with_reducible refine Keeps.parts ?_) | (intro x; refine Keeps.cut (r := r0) (s := x) ?_ ?_; unfold x; rotate_left; clear_value x; intro _) | intro _ | lift_lets -underBinder | with_reducible apply State.drop_keeps | with_reducible apply execSuiteReset_keeps | with_reducible apply execSuitePowerDown_keeps | with_reducible apply Keeps.nextOr | split)

theorem State.writeOwner_keeps {r0 : State} (s : State) (host : Fin 16) (i : Nat) (off : Nat) (v : Nat) (hk : Keeps r0 s) : Keeps r0 (State.writeOwner s host i off v) := by
  unfold State.writeOwner
  repeat' (first | with_reducible assumption | (simp only [keeps_mk, Cellar.allocBlock_mem, Cellar.freeBlock_mem, Cellar.freeBlocks_mem, Cellar.dropStaging_mem, Cellar.replaceStaging_mem, Hearth.runs]; with_reducible refine Keeps.parts ?_) | (intro x; refine Keeps.cut (r := r0) (s := x) ?_ ?_; unfold x; rotate_left; clear_value x; intro _) | intro _ | lift_lets -underBinder | with_reducible apply State.modSuite_keeps | with_reducible apply execGroupRead_keeps | with_reducible apply execBellDebugClear_keeps | with_reducible apply execStallClear_keeps | with_reducible apply execQuotaWrite_keeps | with_reducible apply execRecordSeq_keeps | with_reducible apply execEchoGo_keeps | with_reducible apply State.groupCmd_keeps | with_reducible apply State.suiteCmdWord_keeps | with_reducible apply Keeps.nextOr | split | (simp only [id_eq]))

theorem State.writeCard_keeps {r0 : State} (s : State) (i : Nat) (c : Nat) (f : CardRegs → CardRegs) (hk : Keeps r0 s) : Keeps r0 (State.writeCard s i c f) := by
  unfold State.writeCard
  repeat' (first | with_reducible assumption | (simp only [keeps_mk, Cellar.allocBlock_mem, Cellar.freeBlock_mem, Cellar.freeBlocks_mem, Cellar.dropStaging_mem, Cellar.replaceStaging_mem, Hearth.runs]; with_reducible refine Keeps.parts ?_) | (intro x; refine Keeps.cut (r := r0) (s := x) ?_ ?_; unfold x; rotate_left; clear_value x; intro _) | intro _ | lift_lets -underBinder | with_reducible apply State.modCtx_keeps | with_reducible apply State.drop_keeps | split)

theorem State.writeCtx_keeps {r0 : State} (s : State) (host : Fin 16) (i : Nat) (c : Fin 256) (off : Nat) (v : Nat) (hk : Keeps r0 s) : Keeps r0 (State.writeCtx s host i c off v) := by
  unfold State.writeCtx
  repeat' (first | with_reducible assumption | (simp only [keeps_mk, Cellar.allocBlock_mem, Cellar.freeBlock_mem, Cellar.freeBlocks_mem, Cellar.dropStaging_mem, Cellar.replaceStaging_mem, Hearth.runs]; with_reducible refine Keeps.parts ?_) | (intro x; refine Keeps.cut (r := r0) (s := x) ?_ ?_; unfold x; rotate_left; clear_value x; intro _) | intro _ | lift_lets -underBinder | with_reducible apply execStart_keeps | with_reducible apply execStop_keeps | with_reducible apply execAbort_keeps | with_reducible apply execBell_keeps | with_reducible apply execRingHead_keeps | with_reducible apply execHistClear_keeps | with_reducible apply State.writeCard_keeps | with_reducible apply Keeps.nextOr | split)

theorem State.writeWord_keeps {r0 : State} (s : State) (host : Fin 16) (off : Nat) (v : Nat) (hk : Keeps r0 s) : Keeps r0 (State.writeWord s host off v) := by
  unfold State.writeWord
  repeat' (first | with_reducible assumption | (simp only [keeps_mk, Cellar.allocBlock_mem, Cellar.freeBlock_mem, Cellar.freeBlocks_mem, Cellar.dropStaging_mem, Cellar.replaceStaging_mem, Hearth.runs]; with_reducible refine Keeps.parts ?_) | (intro x; refine Keeps.cut (r := r0) (s := x) ?_ ?_; unfold x; rotate_left; clear_value x; intro _) | intro _ | lift_lets -underBinder | with_reducible apply State.msix_keeps | with_reducible apply State.writeMsix_keeps | with_reducible apply State.writePort_keeps | with_reducible apply State.writeOwner_keeps | with_reducible apply State.writeCtx_keeps | split)

theorem State.writeWide_keeps {r0 : State} (s : State) (host : Fin 16) (off : Nat) (v : Word64) (hk : Keeps r0 s) : Keeps r0 (State.writeWide s host off v) := by
  unfold State.writeWide
  repeat' (first | with_reducible assumption | (simp only [keeps_mk, Cellar.allocBlock_mem, Cellar.freeBlock_mem, Cellar.freeBlocks_mem, Cellar.dropStaging_mem, Cellar.replaceStaging_mem, Hearth.runs]; with_reducible refine Keeps.parts ?_) | (intro x; refine Keeps.cut (r := r0) (s := x) ?_ ?_; unfold x; rotate_left; clear_value x; intro _) | intro _ | lift_lets -underBinder | with_reducible apply execTranslation_keeps | with_reducible apply execAssign_keeps | with_reducible apply execBellBlockAllocate_keeps | with_reducible apply execBellBlockFree_keeps | with_reducible apply execBellDebugSel_keeps | with_reducible apply State.writeCard_keeps | with_reducible apply Keeps.nextOr | split)

theorem State.writeHalf_keeps {r0 : State} (s : State) (host : Fin 16) (off : Nat) (v : Nat) (hk : Keeps r0 s) : Keeps r0 (State.writeHalf s host off v) := by
  unfold State.writeHalf
  repeat' (first | with_reducible assumption | (simp only [keeps_mk, Cellar.allocBlock_mem, Cellar.freeBlock_mem, Cellar.freeBlocks_mem, Cellar.dropStaging_mem, Cellar.replaceStaging_mem, Hearth.runs]; with_reducible refine Keeps.parts ?_) | (intro x; refine Keeps.cut (r := r0) (s := x) ?_ ?_; unfold x; rotate_left; clear_value x; intro _) | intro _ | lift_lets -underBinder | with_reducible apply State.modHost_keeps | with_reducible apply State.bar0Refused_keeps | with_reducible apply State.drop_keeps | with_reducible apply State.writeWord_keeps | with_reducible apply State.writeWide_keeps | split)

theorem State.writeBoth_keeps {r0 : State} (s : State) (host : Fin 16) (off : Nat) (v : Word64) (hk : Keeps r0 s) : Keeps r0 (State.writeBoth s host off v) := by
  unfold State.writeBoth
  repeat' (first | with_reducible assumption | (simp only [keeps_mk, Cellar.allocBlock_mem, Cellar.freeBlock_mem, Cellar.freeBlocks_mem, Cellar.dropStaging_mem, Cellar.replaceStaging_mem, Hearth.runs]; with_reducible refine Keeps.parts ?_) | (intro x; refine Keeps.cut (r := r0) (s := x) ?_ ?_; unfold x; rotate_left; clear_value x; intro _) | intro _ | lift_lets -underBinder | with_reducible apply State.writeWide_keeps | with_reducible apply State.writeHalf_keeps | split)

theorem execRegisterWrite_keeps {r0 : State} (host : Fin 16) (offset : Nat) (value : Word64) (wide : Bool) (s : State) (hk : Keeps r0 s) : KeepsOut r0 (execRegisterWrite host offset value wide s) := by
  unfold execRegisterWrite
  repeat' (first | with_reducible assumption | with_reducible apply KeepsOut.next | (intro x; refine Keeps.cut (r := r0) (s := x) ?_ ?_; unfold x; rotate_left; clear_value x; intro _) | intro _ | lift_lets -underBinder | with_reducible apply State.hostIn_keeps | with_reducible apply State.bar0Refused_keeps | with_reducible apply State.bar0Reset_keeps | with_reducible apply State.bar0_keeps | with_reducible apply State.writeHalf_keeps | with_reducible apply State.writeBoth_keeps | split)


/-! ## Wake -/

theorem State.arrived_keeps {r0 : State} (s : State) (i : Instr) (hk : Keeps r0 s) : Keeps r0 (State.arrived s i) := by
  unfold State.arrived
  repeat' (first | with_reducible assumption | (simp only [keeps_mk, Cellar.allocBlock_mem, Cellar.freeBlock_mem, Cellar.freeBlocks_mem, Cellar.dropStaging_mem, Cellar.replaceStaging_mem, Hearth.runs]; with_reducible refine Keeps.parts ?_) | (intro x; refine Keeps.cut (r := r0) (s := x) ?_ ?_; unfold x; rotate_left; clear_value x; intro _) | intro _ | lift_lets -underBinder | with_reducible apply State.peerAbort_keeps | with_reducible apply execPacketReceived_keeps | with_reducible apply execSealReceived_keeps | with_reducible apply execRetractMarker_keeps | with_reducible apply execChunkAck_keeps | with_reducible apply execResendRequest_keeps | with_reducible apply execRemoteBellRing_keeps | with_reducible apply execBarrierArrival_keeps | with_reducible apply execBarrierRelease_keeps | with_reducible apply execPeerAbort_keeps | with_reducible apply execStart_keeps | with_reducible apply execStop_keeps | with_reducible apply execAbort_keeps | with_reducible apply execBell_keeps | with_reducible apply execRingHead_keeps | with_reducible apply execHistClear_keeps | with_reducible apply execTranslation_keeps | with_reducible apply execAssign_keeps | with_reducible apply execGroupCommit_keeps | with_reducible apply execGroupInvalidate_keeps | with_reducible apply execGroupRead_keeps | with_reducible apply execBellBlockAllocate_keeps | with_reducible apply execBellBlockFree_keeps | with_reducible apply execBellDebugSel_keeps | with_reducible apply execBellDebugClear_keeps | with_reducible apply execStallClear_keeps | with_reducible apply execQuotaWrite_keeps | with_reducible apply execRecordSeq_keeps | with_reducible apply execCxlMemRead_keeps | with_reducible apply execCxlMemWrite_keeps | with_reducible apply execBar2Access_keeps | with_reducible apply execGetDynamicCapacityConfiguration_keeps | with_reducible apply execGetDynamicCapacityExtentList_keeps | with_reducible apply execAddDynamicCapacityResponse_keeps | with_reducible apply execReleaseDynamicCapacity_keeps | with_reducible apply execCensusQuery_keeps | with_reducible apply execCensusSeen_keeps | with_reducible apply execCensusConcurrent_keeps | with_reducible apply execCensusSubtreeReply_keeps | with_reducible apply execCensusCommitMessage_keeps | with_reducible apply execCensusCommitDone_keeps | with_reducible apply execLease_keeps | with_reducible apply execConfigRequest_keeps | with_reducible apply execHostSessionEstablished_keeps | with_reducible apply execAtsInvalidation_keeps | with_reducible apply execMsixUnmask_keeps | with_reducible apply execSlowReadNs_keeps | with_reducible apply execEchoGo_keeps | with_reducible apply execSuiteReset_keeps | with_reducible apply execSuitePowerDown_keeps | with_reducible apply execBar0UnsupportedAccess_keeps | with_reducible apply execLowHalfRead_keeps | with_reducible apply execRlFieldWrite_keeps | with_reducible apply execRegisterWrite_keeps | with_reducible apply Keeps.stateAfter | split | with_reducible apply KeepsOut.next)

theorem execDozeWakeComplete_keeps {r0 : State} (s : State) (hk : Keeps r0 s) : KeepsOut r0 (execDozeWakeComplete s) := by
  unfold execDozeWakeComplete
  repeat' (first | with_reducible assumption | (simp only [keeps_mk, Cellar.allocBlock_mem, Cellar.freeBlock_mem, Cellar.freeBlocks_mem, Cellar.dropStaging_mem, Cellar.replaceStaging_mem, Hearth.runs]; with_reducible refine Keeps.parts ?_) | with_reducible apply KeepsOut.next | (intro x; refine Keeps.cut (r := r0) (s := x) ?_ ?_; unfold x; rotate_left; clear_value x; intro _) | intro _ | lift_lets -underBinder | with_reducible apply overList_keeps | with_reducible apply State.arrived_keeps | with_reducible apply Keeps.overList | split | (simp only [keeps_mk, Cellar.allocBlock_mem, Cellar.freeBlock_mem, Cellar.freeBlocks_mem, Cellar.dropStaging_mem, Cellar.replaceStaging_mem, Hearth.runs]; with_reducible refine Keeps.partsMem ?_ (fun w => by first | exact w | exact Cellar.scrub_wf w | exact Cellar.putUnits_wf w | exact Cellar.maskUnit_wf ‹_› w | (exact Cellar.scrub_wf (by simpa using w)) | simp [Memory.wf])) | (simp only [keeps_mk, Cellar.allocBlock_mem, Cellar.freeBlock_mem, Cellar.freeBlocks_mem, Cellar.dropStaging_mem, Cellar.replaceStaging_mem, Hearth.runs]; with_reducible refine Keeps.partsTo ?_ (by simp) (fun w => by first | exact w | exact Cellar.scrub_wf w | exact Cellar.putUnits_wf w | exact Cellar.maskUnit_wf ‹_› w | (exact Cellar.scrub_wf (by simpa using w)) | simp [Memory.wf])))

end Sys2Proof.Machine
end

