-- ==== Sys2Proof/Laws/Maps.lean ====
section
/-! SUPPORT. What finding, putting and deleting do to one another in the finite maps of the numbered units. -/

namespace Sys2Proof

/-- Putting and then finding the same unit. -/
@[simp] theorem FMap.find_put {α : Type} (m : FMap α) (k : Nat) (v : α) : FMap.find (FMap.put m k v) k = some v := by
  induction m with
  | nil => simp [put, find]
  | cons x m ih =>
    obtain ⟨j, w⟩ := x
    simp only [put]
    split
    · simp [find]
    · split
      · simp [find]
      · simp [find, *]

/-- Putting one unit and finding another. -/
theorem FMap.find_put_ne {α : Type} (m : FMap α) (k j : Nat) (v : α) (h : j ≠ k) : FMap.find (FMap.put m k v) j = FMap.find m j := by
  induction m with
  | nil => simp [put, find, h.symm]
  | cons x m ih =>
    obtain ⟨i, w⟩ := x
    simp only [put]
    split
    · simp [find, h.symm]
    · split
      · rename_i e
        subst e
        simp [find, h.symm]
      · simp [find, ih]

/-- A put unit reads what was put. -/
@[simp] theorem FMap.get_put {α : Type} (d : α) (m : FMap α) (k : Nat) (v : α) : FMap.get d (FMap.put m k v) k = v := by
  simp [get]

/-- Another unit reads as before. -/
theorem FMap.get_put_ne {α : Type} (d : α) (m : FMap α) (k j : Nat) (v : α) (h : j ≠ k) : FMap.get d (FMap.put m k v) j = FMap.get d m j := by
  simp [get, find_put_ne m k j v h]

/-- Both in one: the put unit or another. -/
theorem FMap.get_put_ite {α : Type} (d : α) (m : FMap α) (k j : Nat) (v : α) :
    FMap.get d (FMap.put m k v) j = if j = k then v else FMap.get d m j := by
  split
  · rename_i e
    subst e
    exact get_put d m j v
  · rename_i e
    exact get_put_ne d m k j v e

@[simp] theorem FMap.find_nil {α : Type} (k : Nat) : FMap.find ([] : FMap α) k = none := rfl

@[simp] theorem FMap.get_nil {α : Type} (d : α) (k : Nat) : FMap.get d [] k = d := rfl

/-- Deleting one unit leaves what is found of another. -/
theorem FMap.find_del_ne {α : Type} (m : FMap α) (k j : Nat) (h : j ≠ k) : FMap.find (FMap.del m k) j = FMap.find m j := by
  induction m with
  | nil => rfl
  | cons x m ih =>
    obtain ⟨i, w⟩ := x
    simp only [del]
    split
    · rename_i e
      subst e
      simp [find, h.symm]
    · simp [find, ih]

/-- What is found of a map whose every value has been changed by its number. -/
theorem FMap.find_mapped {α : Type} (m : FMap α) (f : Nat → α → α) (k : Nat) :
    FMap.find (m.map (fun (i, x) => (i, f i x))) k = (FMap.find m k).map (f k) := by
  induction m with
  | nil => rfl
  | cons x m ih =>
    obtain ⟨i, w⟩ := x
    by_cases e : i = k
    · subst e
      simp [find]
    · simp [find, e, ih]

/-- The same of what is read, where the change leaves the default. -/
theorem FMap.get_mapped {α : Type} (d : α) (m : FMap α) (f : Nat → α → α) (k : Nat) (h : f k d = d) :
    FMap.get d (m.map (fun (i, x) => (i, f i x))) k = f k (FMap.get d m k) := by
  unfold get
  rw [find_mapped]
  cases FMap.find m k <;> simp [h]

end Sys2Proof
end

