-- ==== Sys2Proof/Laws/State.lean ====
section
/-! SUPPORT. What every shared update of the state changes and leaves: one lemma per field and update, so that no proof unfolds a
record update. -/

namespace Sys2Proof.Machine

/-! ## A numbered unit is replaced -/

@[simp] theorem State.putCtx_pending (s : State) (n : Nat) (x : Context) : (s.putCtx n x).pending = s.pending := rfl
@[simp] theorem State.putCtx_hall (s : State) (n : Nat) (x : Context) : (s.putCtx n x).hall = s.hall := rfl
@[simp] theorem State.putCtx_sled (s : State) (n : Nat) (x : Context) : (s.putCtx n x).sled = s.sled := rfl
@[simp] theorem State.putCtx_fuses (s : State) (n : Nat) (x : Context) : (s.putCtx n x).fuses = s.fuses := rfl
@[simp] theorem State.putCtx_flash (s : State) (n : Nat) (x : Context) : (s.putCtx n x).flash = s.flash := rfl
@[simp] theorem State.putCtx_hearth (s : State) (n : Nat) (x : Context) : (s.putCtx n x).hearth = s.hearth := rfl
@[simp] theorem State.putCtx_thermal (s : State) (n : Nat) (x : Context) : (s.putCtx n x).thermal = s.thermal := rfl
@[simp] theorem State.putCtx_tap (s : State) (n : Nat) (x : Context) : (s.putCtx n x).tap = s.tap := rfl
@[simp] theorem State.putCtx_wd (s : State) (n : Nat) (x : Context) : (s.putCtx n x).wd = s.wd := rfl
@[simp] theorem State.putCtx_halt (s : State) (n : Nat) (x : Context) : (s.putCtx n x).halt = s.halt := rfl
@[simp] theorem State.putCtx_sync (s : State) (n : Nat) (x : Context) : (s.putCtx n x).sync = s.sync := rfl
@[simp] theorem State.putCtx_log (s : State) (n : Nat) (x : Context) : (s.putCtx n x).log = s.log := rfl
@[simp] theorem State.putCtx_hosts (s : State) (n : Nat) (x : Context) : (s.putCtx n x).hosts = s.hosts := rfl
@[simp] theorem State.putCtx_ports (s : State) (n : Nat) (x : Context) : (s.putCtx n x).ports = s.ports := rfl
@[simp] theorem State.putCtx_suites (s : State) (n : Nat) (x : Context) : (s.putCtx n x).suites = s.suites := rfl
@[simp] theorem State.putCtx_callers (s : State) (n : Nat) (x : Context) : (s.putCtx n x).callers = s.callers := rfl
@[simp] theorem State.putCtx_groups (s : State) (n : Nat) (x : Context) : (s.putCtx n x).groups = s.groups := rfl
@[simp] theorem State.putCtx_cellar (s : State) (n : Nat) (x : Context) : (s.putCtx n x).cellar = s.cellar := rfl
@[simp] theorem State.putCtx_lanes (s : State) (n : Nat) (x : Context) : (s.putCtx n x).lanes = s.lanes := rfl
@[simp] theorem State.putCtx_outs (s : State) (n : Nat) (x : Context) : (s.putCtx n x).outs = s.outs := rfl
@[simp] theorem State.putCtx_confirmed (s : State) (n : Nat) (x : Context) : (s.putCtx n x).confirmed = s.confirmed := rfl
@[simp] theorem State.putCtx_rings (s : State) (n : Nat) (x : Context) : (s.putCtx n x).rings = s.rings := rfl
@[simp] theorem State.putCtx_commits (s : State) (n : Nat) (x : Context) : (s.putCtx n x).commits = s.commits := rfl
@[simp] theorem State.putCtx_owed (s : State) (n : Nat) (x : Context) : (s.putCtx n x).owed = s.owed := rfl
@[simp] theorem State.putCtx_droppedChunks (s : State) (n : Nat) (x : Context) : (s.putCtx n x).droppedChunks = s.droppedChunks := rfl
@[simp] theorem State.putCtx_givenUp (s : State) (n : Nat) (x : Context) : (s.putCtx n x).givenUp = s.givenUp := rfl
@[simp] theorem State.putCtx_hallway (s : State) (n : Nat) (x : Context) : (s.putCtx n x).hallway = s.hallway := rfl
@[simp] theorem State.putCtx_arrivals (s : State) (n : Nat) (x : Context) : (s.putCtx n x).arrivals = s.arrivals := rfl
@[simp] theorem State.putCtx_mgmt (s : State) (n : Nat) (x : Context) : (s.putCtx n x).mgmt = s.mgmt := rfl
@[simp] theorem State.putCtx_census (s : State) (n : Nat) (x : Context) : (s.putCtx n x).census = s.census := rfl
@[simp] theorem State.putCtx_svc (s : State) (n : Nat) (x : Context) : (s.putCtx n x).svc = s.svc := rfl
@[simp] theorem State.putCtx_freeCtr (s : State) (n : Nat) (x : Context) : (s.putCtx n x).freeCtr = s.freeCtr := rfl
theorem State.putCtx_ctx (s : State) (n m : Nat) (x : Context) : (s.putCtx n x).ctx m = if m = n then x else s.ctx m :=
  FMap.get_put_ite _ _ _ _ _
@[simp] theorem State.putCtx_ctx_self (s : State) (n : Nat) (x : Context) : (s.putCtx n x).ctx n = x :=
  FMap.get_put _ _ _ _
theorem State.putCtx_ctx_ne (s : State) {n m : Nat} (x : Context) (h : m ≠ n) : (s.putCtx n x).ctx m = s.ctx m :=
  FMap.get_put_ne _ _ _ _ _ h
@[simp] theorem State.putCtx_host (s : State) (n m : Nat) (x : Context) : (s.putCtx n x).host m = s.host m := rfl
@[simp] theorem State.putCtx_port (s : State) (n m : Nat) (x : Context) : (s.putCtx n x).port m = s.port m := rfl
@[simp] theorem State.putCtx_suite (s : State) (n m : Nat) (x : Context) : (s.putCtx n x).suite m = s.suite m := rfl
@[simp] theorem State.putCtx_grp (s : State) (n m : Nat) (x : Context) : (s.putCtx n x).grp m = s.grp m := rfl
@[simp] theorem State.putCtx_ext (s : State) (n m : Nat) (x : Context) : (s.putCtx n x).ext m = s.ext m := rfl

@[simp] theorem State.putHost_pending (s : State) (n : Nat) (x : HostPort) : (s.putHost n x).pending = s.pending := rfl
@[simp] theorem State.putHost_hall (s : State) (n : Nat) (x : HostPort) : (s.putHost n x).hall = s.hall := rfl
@[simp] theorem State.putHost_sled (s : State) (n : Nat) (x : HostPort) : (s.putHost n x).sled = s.sled := rfl
@[simp] theorem State.putHost_fuses (s : State) (n : Nat) (x : HostPort) : (s.putHost n x).fuses = s.fuses := rfl
@[simp] theorem State.putHost_flash (s : State) (n : Nat) (x : HostPort) : (s.putHost n x).flash = s.flash := rfl
@[simp] theorem State.putHost_hearth (s : State) (n : Nat) (x : HostPort) : (s.putHost n x).hearth = s.hearth := rfl
@[simp] theorem State.putHost_thermal (s : State) (n : Nat) (x : HostPort) : (s.putHost n x).thermal = s.thermal := rfl
@[simp] theorem State.putHost_tap (s : State) (n : Nat) (x : HostPort) : (s.putHost n x).tap = s.tap := rfl
@[simp] theorem State.putHost_wd (s : State) (n : Nat) (x : HostPort) : (s.putHost n x).wd = s.wd := rfl
@[simp] theorem State.putHost_halt (s : State) (n : Nat) (x : HostPort) : (s.putHost n x).halt = s.halt := rfl
@[simp] theorem State.putHost_sync (s : State) (n : Nat) (x : HostPort) : (s.putHost n x).sync = s.sync := rfl
@[simp] theorem State.putHost_log (s : State) (n : Nat) (x : HostPort) : (s.putHost n x).log = s.log := rfl
@[simp] theorem State.putHost_ports (s : State) (n : Nat) (x : HostPort) : (s.putHost n x).ports = s.ports := rfl
@[simp] theorem State.putHost_suites (s : State) (n : Nat) (x : HostPort) : (s.putHost n x).suites = s.suites := rfl
@[simp] theorem State.putHost_ctxs (s : State) (n : Nat) (x : HostPort) : (s.putHost n x).ctxs = s.ctxs := rfl
@[simp] theorem State.putHost_callers (s : State) (n : Nat) (x : HostPort) : (s.putHost n x).callers = s.callers := rfl
@[simp] theorem State.putHost_groups (s : State) (n : Nat) (x : HostPort) : (s.putHost n x).groups = s.groups := rfl
@[simp] theorem State.putHost_cellar (s : State) (n : Nat) (x : HostPort) : (s.putHost n x).cellar = s.cellar := rfl
@[simp] theorem State.putHost_lanes (s : State) (n : Nat) (x : HostPort) : (s.putHost n x).lanes = s.lanes := rfl
@[simp] theorem State.putHost_outs (s : State) (n : Nat) (x : HostPort) : (s.putHost n x).outs = s.outs := rfl
@[simp] theorem State.putHost_confirmed (s : State) (n : Nat) (x : HostPort) : (s.putHost n x).confirmed = s.confirmed := rfl
@[simp] theorem State.putHost_rings (s : State) (n : Nat) (x : HostPort) : (s.putHost n x).rings = s.rings := rfl
@[simp] theorem State.putHost_commits (s : State) (n : Nat) (x : HostPort) : (s.putHost n x).commits = s.commits := rfl
@[simp] theorem State.putHost_owed (s : State) (n : Nat) (x : HostPort) : (s.putHost n x).owed = s.owed := rfl
@[simp] theorem State.putHost_droppedChunks (s : State) (n : Nat) (x : HostPort) : (s.putHost n x).droppedChunks = s.droppedChunks := rfl
@[simp] theorem State.putHost_givenUp (s : State) (n : Nat) (x : HostPort) : (s.putHost n x).givenUp = s.givenUp := rfl
@[simp] theorem State.putHost_hallway (s : State) (n : Nat) (x : HostPort) : (s.putHost n x).hallway = s.hallway := rfl
@[simp] theorem State.putHost_arrivals (s : State) (n : Nat) (x : HostPort) : (s.putHost n x).arrivals = s.arrivals := rfl
@[simp] theorem State.putHost_mgmt (s : State) (n : Nat) (x : HostPort) : (s.putHost n x).mgmt = s.mgmt := rfl
@[simp] theorem State.putHost_census (s : State) (n : Nat) (x : HostPort) : (s.putHost n x).census = s.census := rfl
@[simp] theorem State.putHost_svc (s : State) (n : Nat) (x : HostPort) : (s.putHost n x).svc = s.svc := rfl
@[simp] theorem State.putHost_freeCtr (s : State) (n : Nat) (x : HostPort) : (s.putHost n x).freeCtr = s.freeCtr := rfl
@[simp] theorem State.putHost_ctx (s : State) (n m : Nat) (x : HostPort) : (s.putHost n x).ctx m = s.ctx m := rfl
theorem State.putHost_host (s : State) (n m : Nat) (x : HostPort) : (s.putHost n x).host m = if m = n then x else s.host m :=
  FMap.get_put_ite _ _ _ _ _
@[simp] theorem State.putHost_host_self (s : State) (n : Nat) (x : HostPort) : (s.putHost n x).host n = x :=
  FMap.get_put _ _ _ _
theorem State.putHost_host_ne (s : State) {n m : Nat} (x : HostPort) (h : m ≠ n) : (s.putHost n x).host m = s.host m :=
  FMap.get_put_ne _ _ _ _ _ h
@[simp] theorem State.putHost_port (s : State) (n m : Nat) (x : HostPort) : (s.putHost n x).port m = s.port m := rfl
@[simp] theorem State.putHost_suite (s : State) (n m : Nat) (x : HostPort) : (s.putHost n x).suite m = s.suite m := rfl
@[simp] theorem State.putHost_grp (s : State) (n m : Nat) (x : HostPort) : (s.putHost n x).grp m = s.grp m := rfl
@[simp] theorem State.putHost_ext (s : State) (n m : Nat) (x : HostPort) : (s.putHost n x).ext m = s.ext m := rfl

@[simp] theorem State.putPort_pending (s : State) (n : Nat) (x : FabPort) : (s.putPort n x).pending = s.pending := rfl
@[simp] theorem State.putPort_hall (s : State) (n : Nat) (x : FabPort) : (s.putPort n x).hall = s.hall := rfl
@[simp] theorem State.putPort_sled (s : State) (n : Nat) (x : FabPort) : (s.putPort n x).sled = s.sled := rfl
@[simp] theorem State.putPort_fuses (s : State) (n : Nat) (x : FabPort) : (s.putPort n x).fuses = s.fuses := rfl
@[simp] theorem State.putPort_flash (s : State) (n : Nat) (x : FabPort) : (s.putPort n x).flash = s.flash := rfl
@[simp] theorem State.putPort_hearth (s : State) (n : Nat) (x : FabPort) : (s.putPort n x).hearth = s.hearth := rfl
@[simp] theorem State.putPort_thermal (s : State) (n : Nat) (x : FabPort) : (s.putPort n x).thermal = s.thermal := rfl
@[simp] theorem State.putPort_tap (s : State) (n : Nat) (x : FabPort) : (s.putPort n x).tap = s.tap := rfl
@[simp] theorem State.putPort_wd (s : State) (n : Nat) (x : FabPort) : (s.putPort n x).wd = s.wd := rfl
@[simp] theorem State.putPort_halt (s : State) (n : Nat) (x : FabPort) : (s.putPort n x).halt = s.halt := rfl
@[simp] theorem State.putPort_sync (s : State) (n : Nat) (x : FabPort) : (s.putPort n x).sync = s.sync := rfl
@[simp] theorem State.putPort_log (s : State) (n : Nat) (x : FabPort) : (s.putPort n x).log = s.log := rfl
@[simp] theorem State.putPort_hosts (s : State) (n : Nat) (x : FabPort) : (s.putPort n x).hosts = s.hosts := rfl
@[simp] theorem State.putPort_suites (s : State) (n : Nat) (x : FabPort) : (s.putPort n x).suites = s.suites := rfl
@[simp] theorem State.putPort_ctxs (s : State) (n : Nat) (x : FabPort) : (s.putPort n x).ctxs = s.ctxs := rfl
@[simp] theorem State.putPort_callers (s : State) (n : Nat) (x : FabPort) : (s.putPort n x).callers = s.callers := rfl
@[simp] theorem State.putPort_groups (s : State) (n : Nat) (x : FabPort) : (s.putPort n x).groups = s.groups := rfl
@[simp] theorem State.putPort_cellar (s : State) (n : Nat) (x : FabPort) : (s.putPort n x).cellar = s.cellar := rfl
@[simp] theorem State.putPort_lanes (s : State) (n : Nat) (x : FabPort) : (s.putPort n x).lanes = s.lanes := rfl
@[simp] theorem State.putPort_outs (s : State) (n : Nat) (x : FabPort) : (s.putPort n x).outs = s.outs := rfl
@[simp] theorem State.putPort_confirmed (s : State) (n : Nat) (x : FabPort) : (s.putPort n x).confirmed = s.confirmed := rfl
@[simp] theorem State.putPort_rings (s : State) (n : Nat) (x : FabPort) : (s.putPort n x).rings = s.rings := rfl
@[simp] theorem State.putPort_commits (s : State) (n : Nat) (x : FabPort) : (s.putPort n x).commits = s.commits := rfl
@[simp] theorem State.putPort_owed (s : State) (n : Nat) (x : FabPort) : (s.putPort n x).owed = s.owed := rfl
@[simp] theorem State.putPort_droppedChunks (s : State) (n : Nat) (x : FabPort) : (s.putPort n x).droppedChunks = s.droppedChunks := rfl
@[simp] theorem State.putPort_givenUp (s : State) (n : Nat) (x : FabPort) : (s.putPort n x).givenUp = s.givenUp := rfl
@[simp] theorem State.putPort_hallway (s : State) (n : Nat) (x : FabPort) : (s.putPort n x).hallway = s.hallway := rfl
@[simp] theorem State.putPort_arrivals (s : State) (n : Nat) (x : FabPort) : (s.putPort n x).arrivals = s.arrivals := rfl
@[simp] theorem State.putPort_mgmt (s : State) (n : Nat) (x : FabPort) : (s.putPort n x).mgmt = s.mgmt := rfl
@[simp] theorem State.putPort_census (s : State) (n : Nat) (x : FabPort) : (s.putPort n x).census = s.census := rfl
@[simp] theorem State.putPort_svc (s : State) (n : Nat) (x : FabPort) : (s.putPort n x).svc = s.svc := rfl
@[simp] theorem State.putPort_freeCtr (s : State) (n : Nat) (x : FabPort) : (s.putPort n x).freeCtr = s.freeCtr := rfl
@[simp] theorem State.putPort_ctx (s : State) (n m : Nat) (x : FabPort) : (s.putPort n x).ctx m = s.ctx m := rfl
@[simp] theorem State.putPort_host (s : State) (n m : Nat) (x : FabPort) : (s.putPort n x).host m = s.host m := rfl
theorem State.putPort_port (s : State) (n m : Nat) (x : FabPort) : (s.putPort n x).port m = if m = n then x else s.port m :=
  FMap.get_put_ite _ _ _ _ _
@[simp] theorem State.putPort_port_self (s : State) (n : Nat) (x : FabPort) : (s.putPort n x).port n = x :=
  FMap.get_put _ _ _ _
theorem State.putPort_port_ne (s : State) {n m : Nat} (x : FabPort) (h : m ≠ n) : (s.putPort n x).port m = s.port m :=
  FMap.get_put_ne _ _ _ _ _ h
@[simp] theorem State.putPort_suite (s : State) (n m : Nat) (x : FabPort) : (s.putPort n x).suite m = s.suite m := rfl
@[simp] theorem State.putPort_grp (s : State) (n m : Nat) (x : FabPort) : (s.putPort n x).grp m = s.grp m := rfl
@[simp] theorem State.putPort_ext (s : State) (n m : Nat) (x : FabPort) : (s.putPort n x).ext m = s.ext m := rfl

@[simp] theorem State.putSuite_pending (s : State) (n : Nat) (x : Suite) : (s.putSuite n x).pending = s.pending := rfl
@[simp] theorem State.putSuite_hall (s : State) (n : Nat) (x : Suite) : (s.putSuite n x).hall = s.hall := rfl
@[simp] theorem State.putSuite_sled (s : State) (n : Nat) (x : Suite) : (s.putSuite n x).sled = s.sled := rfl
@[simp] theorem State.putSuite_fuses (s : State) (n : Nat) (x : Suite) : (s.putSuite n x).fuses = s.fuses := rfl
@[simp] theorem State.putSuite_flash (s : State) (n : Nat) (x : Suite) : (s.putSuite n x).flash = s.flash := rfl
@[simp] theorem State.putSuite_hearth (s : State) (n : Nat) (x : Suite) : (s.putSuite n x).hearth = s.hearth := rfl
@[simp] theorem State.putSuite_thermal (s : State) (n : Nat) (x : Suite) : (s.putSuite n x).thermal = s.thermal := rfl
@[simp] theorem State.putSuite_tap (s : State) (n : Nat) (x : Suite) : (s.putSuite n x).tap = s.tap := rfl
@[simp] theorem State.putSuite_wd (s : State) (n : Nat) (x : Suite) : (s.putSuite n x).wd = s.wd := rfl
@[simp] theorem State.putSuite_halt (s : State) (n : Nat) (x : Suite) : (s.putSuite n x).halt = s.halt := rfl
@[simp] theorem State.putSuite_sync (s : State) (n : Nat) (x : Suite) : (s.putSuite n x).sync = s.sync := rfl
@[simp] theorem State.putSuite_log (s : State) (n : Nat) (x : Suite) : (s.putSuite n x).log = s.log := rfl
@[simp] theorem State.putSuite_hosts (s : State) (n : Nat) (x : Suite) : (s.putSuite n x).hosts = s.hosts := rfl
@[simp] theorem State.putSuite_ports (s : State) (n : Nat) (x : Suite) : (s.putSuite n x).ports = s.ports := rfl
@[simp] theorem State.putSuite_ctxs (s : State) (n : Nat) (x : Suite) : (s.putSuite n x).ctxs = s.ctxs := rfl
@[simp] theorem State.putSuite_callers (s : State) (n : Nat) (x : Suite) : (s.putSuite n x).callers = s.callers := rfl
@[simp] theorem State.putSuite_groups (s : State) (n : Nat) (x : Suite) : (s.putSuite n x).groups = s.groups := rfl
@[simp] theorem State.putSuite_cellar (s : State) (n : Nat) (x : Suite) : (s.putSuite n x).cellar = s.cellar := rfl
@[simp] theorem State.putSuite_lanes (s : State) (n : Nat) (x : Suite) : (s.putSuite n x).lanes = s.lanes := rfl
@[simp] theorem State.putSuite_outs (s : State) (n : Nat) (x : Suite) : (s.putSuite n x).outs = s.outs := rfl
@[simp] theorem State.putSuite_confirmed (s : State) (n : Nat) (x : Suite) : (s.putSuite n x).confirmed = s.confirmed := rfl
@[simp] theorem State.putSuite_rings (s : State) (n : Nat) (x : Suite) : (s.putSuite n x).rings = s.rings := rfl
@[simp] theorem State.putSuite_commits (s : State) (n : Nat) (x : Suite) : (s.putSuite n x).commits = s.commits := rfl
@[simp] theorem State.putSuite_owed (s : State) (n : Nat) (x : Suite) : (s.putSuite n x).owed = s.owed := rfl
@[simp] theorem State.putSuite_droppedChunks (s : State) (n : Nat) (x : Suite) : (s.putSuite n x).droppedChunks = s.droppedChunks := rfl
@[simp] theorem State.putSuite_givenUp (s : State) (n : Nat) (x : Suite) : (s.putSuite n x).givenUp = s.givenUp := rfl
@[simp] theorem State.putSuite_hallway (s : State) (n : Nat) (x : Suite) : (s.putSuite n x).hallway = s.hallway := rfl
@[simp] theorem State.putSuite_arrivals (s : State) (n : Nat) (x : Suite) : (s.putSuite n x).arrivals = s.arrivals := rfl
@[simp] theorem State.putSuite_mgmt (s : State) (n : Nat) (x : Suite) : (s.putSuite n x).mgmt = s.mgmt := rfl
@[simp] theorem State.putSuite_census (s : State) (n : Nat) (x : Suite) : (s.putSuite n x).census = s.census := rfl
@[simp] theorem State.putSuite_svc (s : State) (n : Nat) (x : Suite) : (s.putSuite n x).svc = s.svc := rfl
@[simp] theorem State.putSuite_freeCtr (s : State) (n : Nat) (x : Suite) : (s.putSuite n x).freeCtr = s.freeCtr := rfl
@[simp] theorem State.putSuite_ctx (s : State) (n m : Nat) (x : Suite) : (s.putSuite n x).ctx m = s.ctx m := rfl
@[simp] theorem State.putSuite_host (s : State) (n m : Nat) (x : Suite) : (s.putSuite n x).host m = s.host m := rfl
@[simp] theorem State.putSuite_port (s : State) (n m : Nat) (x : Suite) : (s.putSuite n x).port m = s.port m := rfl
theorem State.putSuite_suite (s : State) (n m : Nat) (x : Suite) : (s.putSuite n x).suite m = if m = n then x else s.suite m :=
  FMap.get_put_ite _ _ _ _ _
@[simp] theorem State.putSuite_suite_self (s : State) (n : Nat) (x : Suite) : (s.putSuite n x).suite n = x :=
  FMap.get_put _ _ _ _
theorem State.putSuite_suite_ne (s : State) {n m : Nat} (x : Suite) (h : m ≠ n) : (s.putSuite n x).suite m = s.suite m :=
  FMap.get_put_ne _ _ _ _ _ h
@[simp] theorem State.putSuite_grp (s : State) (n m : Nat) (x : Suite) : (s.putSuite n x).grp m = s.grp m := rfl
@[simp] theorem State.putSuite_ext (s : State) (n m : Nat) (x : Suite) : (s.putSuite n x).ext m = s.ext m := rfl

@[simp] theorem State.putGrp_pending (s : State) (n : Nat) (x : Group) : (s.putGrp n x).pending = s.pending := rfl
@[simp] theorem State.putGrp_hall (s : State) (n : Nat) (x : Group) : (s.putGrp n x).hall = s.hall := rfl
@[simp] theorem State.putGrp_sled (s : State) (n : Nat) (x : Group) : (s.putGrp n x).sled = s.sled := rfl
@[simp] theorem State.putGrp_fuses (s : State) (n : Nat) (x : Group) : (s.putGrp n x).fuses = s.fuses := rfl
@[simp] theorem State.putGrp_flash (s : State) (n : Nat) (x : Group) : (s.putGrp n x).flash = s.flash := rfl
@[simp] theorem State.putGrp_hearth (s : State) (n : Nat) (x : Group) : (s.putGrp n x).hearth = s.hearth := rfl
@[simp] theorem State.putGrp_thermal (s : State) (n : Nat) (x : Group) : (s.putGrp n x).thermal = s.thermal := rfl
@[simp] theorem State.putGrp_tap (s : State) (n : Nat) (x : Group) : (s.putGrp n x).tap = s.tap := rfl
@[simp] theorem State.putGrp_wd (s : State) (n : Nat) (x : Group) : (s.putGrp n x).wd = s.wd := rfl
@[simp] theorem State.putGrp_halt (s : State) (n : Nat) (x : Group) : (s.putGrp n x).halt = s.halt := rfl
@[simp] theorem State.putGrp_sync (s : State) (n : Nat) (x : Group) : (s.putGrp n x).sync = s.sync := rfl
@[simp] theorem State.putGrp_log (s : State) (n : Nat) (x : Group) : (s.putGrp n x).log = s.log := rfl
@[simp] theorem State.putGrp_hosts (s : State) (n : Nat) (x : Group) : (s.putGrp n x).hosts = s.hosts := rfl
@[simp] theorem State.putGrp_ports (s : State) (n : Nat) (x : Group) : (s.putGrp n x).ports = s.ports := rfl
@[simp] theorem State.putGrp_suites (s : State) (n : Nat) (x : Group) : (s.putGrp n x).suites = s.suites := rfl
@[simp] theorem State.putGrp_ctxs (s : State) (n : Nat) (x : Group) : (s.putGrp n x).ctxs = s.ctxs := rfl
@[simp] theorem State.putGrp_callers (s : State) (n : Nat) (x : Group) : (s.putGrp n x).callers = s.callers := rfl
@[simp] theorem State.putGrp_cellar (s : State) (n : Nat) (x : Group) : (s.putGrp n x).cellar = s.cellar := rfl
@[simp] theorem State.putGrp_lanes (s : State) (n : Nat) (x : Group) : (s.putGrp n x).lanes = s.lanes := rfl
@[simp] theorem State.putGrp_outs (s : State) (n : Nat) (x : Group) : (s.putGrp n x).outs = s.outs := rfl
@[simp] theorem State.putGrp_confirmed (s : State) (n : Nat) (x : Group) : (s.putGrp n x).confirmed = s.confirmed := rfl
@[simp] theorem State.putGrp_rings (s : State) (n : Nat) (x : Group) : (s.putGrp n x).rings = s.rings := rfl
@[simp] theorem State.putGrp_commits (s : State) (n : Nat) (x : Group) : (s.putGrp n x).commits = s.commits := rfl
@[simp] theorem State.putGrp_owed (s : State) (n : Nat) (x : Group) : (s.putGrp n x).owed = s.owed := rfl
@[simp] theorem State.putGrp_droppedChunks (s : State) (n : Nat) (x : Group) : (s.putGrp n x).droppedChunks = s.droppedChunks := rfl
@[simp] theorem State.putGrp_givenUp (s : State) (n : Nat) (x : Group) : (s.putGrp n x).givenUp = s.givenUp := rfl
@[simp] theorem State.putGrp_hallway (s : State) (n : Nat) (x : Group) : (s.putGrp n x).hallway = s.hallway := rfl
@[simp] theorem State.putGrp_arrivals (s : State) (n : Nat) (x : Group) : (s.putGrp n x).arrivals = s.arrivals := rfl
@[simp] theorem State.putGrp_mgmt (s : State) (n : Nat) (x : Group) : (s.putGrp n x).mgmt = s.mgmt := rfl
@[simp] theorem State.putGrp_census (s : State) (n : Nat) (x : Group) : (s.putGrp n x).census = s.census := rfl
@[simp] theorem State.putGrp_svc (s : State) (n : Nat) (x : Group) : (s.putGrp n x).svc = s.svc := rfl
@[simp] theorem State.putGrp_freeCtr (s : State) (n : Nat) (x : Group) : (s.putGrp n x).freeCtr = s.freeCtr := rfl
@[simp] theorem State.putGrp_ctx (s : State) (n m : Nat) (x : Group) : (s.putGrp n x).ctx m = s.ctx m := rfl
@[simp] theorem State.putGrp_host (s : State) (n m : Nat) (x : Group) : (s.putGrp n x).host m = s.host m := rfl
@[simp] theorem State.putGrp_port (s : State) (n m : Nat) (x : Group) : (s.putGrp n x).port m = s.port m := rfl
@[simp] theorem State.putGrp_suite (s : State) (n m : Nat) (x : Group) : (s.putGrp n x).suite m = s.suite m := rfl
theorem State.putGrp_grp (s : State) (n m : Nat) (x : Group) : (s.putGrp n x).grp m = if m = n then x else s.grp m :=
  FMap.get_put_ite _ _ _ _ _
@[simp] theorem State.putGrp_grp_self (s : State) (n : Nat) (x : Group) : (s.putGrp n x).grp n = x :=
  FMap.get_put _ _ _ _
theorem State.putGrp_grp_ne (s : State) {n m : Nat} (x : Group) (h : m ≠ n) : (s.putGrp n x).grp m = s.grp m :=
  FMap.get_put_ne _ _ _ _ _ h
@[simp] theorem State.putGrp_ext (s : State) (n m : Nat) (x : Group) : (s.putGrp n x).ext m = s.ext m := rfl

@[simp] theorem State.putExt_pending (s : State) (n : Nat) (x : Extent) : (s.putExt n x).pending = s.pending := rfl
@[simp] theorem State.putExt_hall (s : State) (n : Nat) (x : Extent) : (s.putExt n x).hall = s.hall := rfl
@[simp] theorem State.putExt_sled (s : State) (n : Nat) (x : Extent) : (s.putExt n x).sled = s.sled := rfl
@[simp] theorem State.putExt_fuses (s : State) (n : Nat) (x : Extent) : (s.putExt n x).fuses = s.fuses := rfl
@[simp] theorem State.putExt_flash (s : State) (n : Nat) (x : Extent) : (s.putExt n x).flash = s.flash := rfl
@[simp] theorem State.putExt_hearth (s : State) (n : Nat) (x : Extent) : (s.putExt n x).hearth = s.hearth := rfl
@[simp] theorem State.putExt_thermal (s : State) (n : Nat) (x : Extent) : (s.putExt n x).thermal = s.thermal := rfl
@[simp] theorem State.putExt_tap (s : State) (n : Nat) (x : Extent) : (s.putExt n x).tap = s.tap := rfl
@[simp] theorem State.putExt_wd (s : State) (n : Nat) (x : Extent) : (s.putExt n x).wd = s.wd := rfl
@[simp] theorem State.putExt_halt (s : State) (n : Nat) (x : Extent) : (s.putExt n x).halt = s.halt := rfl
@[simp] theorem State.putExt_sync (s : State) (n : Nat) (x : Extent) : (s.putExt n x).sync = s.sync := rfl
@[simp] theorem State.putExt_log (s : State) (n : Nat) (x : Extent) : (s.putExt n x).log = s.log := rfl
@[simp] theorem State.putExt_hosts (s : State) (n : Nat) (x : Extent) : (s.putExt n x).hosts = s.hosts := rfl
@[simp] theorem State.putExt_ports (s : State) (n : Nat) (x : Extent) : (s.putExt n x).ports = s.ports := rfl
@[simp] theorem State.putExt_suites (s : State) (n : Nat) (x : Extent) : (s.putExt n x).suites = s.suites := rfl
@[simp] theorem State.putExt_ctxs (s : State) (n : Nat) (x : Extent) : (s.putExt n x).ctxs = s.ctxs := rfl
@[simp] theorem State.putExt_callers (s : State) (n : Nat) (x : Extent) : (s.putExt n x).callers = s.callers := rfl
@[simp] theorem State.putExt_groups (s : State) (n : Nat) (x : Extent) : (s.putExt n x).groups = s.groups := rfl
@[simp] theorem State.putExt_lanes (s : State) (n : Nat) (x : Extent) : (s.putExt n x).lanes = s.lanes := rfl
@[simp] theorem State.putExt_outs (s : State) (n : Nat) (x : Extent) : (s.putExt n x).outs = s.outs := rfl
@[simp] theorem State.putExt_confirmed (s : State) (n : Nat) (x : Extent) : (s.putExt n x).confirmed = s.confirmed := rfl
@[simp] theorem State.putExt_rings (s : State) (n : Nat) (x : Extent) : (s.putExt n x).rings = s.rings := rfl
@[simp] theorem State.putExt_commits (s : State) (n : Nat) (x : Extent) : (s.putExt n x).commits = s.commits := rfl
@[simp] theorem State.putExt_owed (s : State) (n : Nat) (x : Extent) : (s.putExt n x).owed = s.owed := rfl
@[simp] theorem State.putExt_droppedChunks (s : State) (n : Nat) (x : Extent) : (s.putExt n x).droppedChunks = s.droppedChunks := rfl
@[simp] theorem State.putExt_givenUp (s : State) (n : Nat) (x : Extent) : (s.putExt n x).givenUp = s.givenUp := rfl
@[simp] theorem State.putExt_hallway (s : State) (n : Nat) (x : Extent) : (s.putExt n x).hallway = s.hallway := rfl
@[simp] theorem State.putExt_arrivals (s : State) (n : Nat) (x : Extent) : (s.putExt n x).arrivals = s.arrivals := rfl
@[simp] theorem State.putExt_mgmt (s : State) (n : Nat) (x : Extent) : (s.putExt n x).mgmt = s.mgmt := rfl
@[simp] theorem State.putExt_census (s : State) (n : Nat) (x : Extent) : (s.putExt n x).census = s.census := rfl
@[simp] theorem State.putExt_svc (s : State) (n : Nat) (x : Extent) : (s.putExt n x).svc = s.svc := rfl
@[simp] theorem State.putExt_freeCtr (s : State) (n : Nat) (x : Extent) : (s.putExt n x).freeCtr = s.freeCtr := rfl
@[simp] theorem State.putExt_ctx (s : State) (n m : Nat) (x : Extent) : (s.putExt n x).ctx m = s.ctx m := rfl
@[simp] theorem State.putExt_host (s : State) (n m : Nat) (x : Extent) : (s.putExt n x).host m = s.host m := rfl
@[simp] theorem State.putExt_port (s : State) (n m : Nat) (x : Extent) : (s.putExt n x).port m = s.port m := rfl
@[simp] theorem State.putExt_suite (s : State) (n m : Nat) (x : Extent) : (s.putExt n x).suite m = s.suite m := rfl
@[simp] theorem State.putExt_grp (s : State) (n m : Nat) (x : Extent) : (s.putExt n x).grp m = s.grp m := rfl
theorem State.putExt_ext (s : State) (n m : Nat) (x : Extent) : (s.putExt n x).ext m = if m = n then x else s.ext m :=
  FMap.get_put_ite _ _ _ _ _
@[simp] theorem State.putExt_ext_self (s : State) (n : Nat) (x : Extent) : (s.putExt n x).ext n = x :=
  FMap.get_put _ _ _ _
theorem State.putExt_ext_ne (s : State) {n m : Nat} (x : Extent) (h : m ≠ n) : (s.putExt n x).ext m = s.ext m :=
  FMap.get_put_ne _ _ _ _ _ h
@[simp] theorem State.putExt_cellar_mem (s : State) (n : Nat) (x : Extent) : (s.putExt n x).cellar.mem = s.cellar.mem := rfl
@[simp] theorem State.putExt_cellar_written (s : State) (n : Nat) (x : Extent) : (s.putExt n x).cellar.written = s.cellar.written := rfl
@[simp] theorem State.putExt_cellar_poisoned (s : State) (n : Nat) (x : Extent) : (s.putExt n x).cellar.poisoned = s.cellar.poisoned := rfl
@[simp] theorem State.putExt_cellar_regions (s : State) (n : Nat) (x : Extent) : (s.putExt n x).cellar.regions = s.cellar.regions := rfl
@[simp] theorem State.putExt_cellar_keys (s : State) (n : Nat) (x : Extent) : (s.putExt n x).cellar.keys = s.cellar.keys := rfl
@[simp] theorem State.putExt_cellar_staging (s : State) (n : Nat) (x : Extent) : (s.putExt n x).cellar.staging = s.cellar.staging := rfl
@[simp] theorem State.putExt_cellar_bellArea (s : State) (n : Nat) (x : Extent) : (s.putExt n x).cellar.bellArea = s.cellar.bellArea := rfl
@[simp] theorem State.putExt_cellar_replacing (s : State) (n : Nat) (x : Extent) : (s.putExt n x).cellar.replacing = s.cellar.replacing := rfl
@[simp] theorem State.putExt_cellar_scrubQ (s : State) (n : Nat) (x : Extent) : (s.putExt n x).cellar.scrubQ = s.cellar.scrubQ := rfl
@[simp] theorem State.putExt_cellar_patrolRows (s : State) (n : Nat) (x : Extent) : (s.putExt n x).cellar.patrolRows = s.cellar.patrolRows := rfl
@[simp] theorem State.putExt_cellar_reserved (s : State) (n : Nat) (x : Extent) : (s.putExt n x).cellar.reserved = s.cellar.reserved := rfl
@[simp] theorem State.putExt_cellar_waitingStaging (s : State) (n : Nat) (x : Extent) : (s.putExt n x).cellar.waitingStaging = s.cellar.waitingStaging := rfl
@[simp] theorem State.putExt_cellar_bells (s : State) (n : Nat) (x : Extent) : (s.putExt n x).cellar.bells = s.cellar.bells := rfl
@[simp] theorem State.putExt_cellar_blocks (s : State) (n : Nat) (x : Extent) : (s.putExt n x).cellar.blocks = s.cellar.blocks := rfl

/-! ## A numbered unit is changed: it is replaced by its changed self -/

@[simp] theorem State.modCtx_eq (s : State) (n : Nat) (f : Context → Context) : s.modCtx n f = s.putCtx n (f (s.ctx n)) := rfl
@[simp] theorem State.modHost_eq (s : State) (n : Nat) (f : HostPort → HostPort) : s.modHost n f = s.putHost n (f (s.host n)) := rfl
@[simp] theorem State.modPort_eq (s : State) (n : Nat) (f : FabPort → FabPort) : s.modPort n f = s.putPort n (f (s.port n)) := rfl
@[simp] theorem State.modSuite_eq (s : State) (n : Nat) (f : Suite → Suite) : s.modSuite n f = s.putSuite n (f (s.suite n)) := rfl
@[simp] theorem State.modGrp_eq (s : State) (n : Nat) (f : Group → Group) : s.modGrp n f = s.putGrp n (f (s.grp n)) := rfl
@[simp] theorem State.modExt_eq (s : State) (n : Nat) (f : Extent → Extent) : s.modExt n f = s.putExt n (f (s.ext n)) := rfl
@[simp] theorem State.countPort_eq (s : State) (n : Nat) (f : PortCounters → PortCounters) :
    s.countPort n f = s.putPort n { s.port n with cnt := f (s.port n).cnt } := rfl

/-! ## Events and records (R421-R426, R517) -/

@[simp] theorem State.sendEvent_pending (s : State) (c : Nat) (p : List Byte) : (s.sendEvent c p).pending = s.pending := rfl
@[simp] theorem State.sendEvent_hall (s : State) (c : Nat) (p : List Byte) : (s.sendEvent c p).hall = s.hall := rfl
@[simp] theorem State.sendEvent_sled (s : State) (c : Nat) (p : List Byte) : (s.sendEvent c p).sled = s.sled := rfl
@[simp] theorem State.sendEvent_fuses (s : State) (c : Nat) (p : List Byte) : (s.sendEvent c p).fuses = s.fuses := rfl
@[simp] theorem State.sendEvent_flash (s : State) (c : Nat) (p : List Byte) : (s.sendEvent c p).flash = s.flash := rfl
@[simp] theorem State.sendEvent_hearth (s : State) (c : Nat) (p : List Byte) : (s.sendEvent c p).hearth = s.hearth := rfl
@[simp] theorem State.sendEvent_thermal (s : State) (c : Nat) (p : List Byte) : (s.sendEvent c p).thermal = s.thermal := rfl
@[simp] theorem State.sendEvent_tap (s : State) (c : Nat) (p : List Byte) : (s.sendEvent c p).tap = s.tap := rfl
@[simp] theorem State.sendEvent_wd (s : State) (c : Nat) (p : List Byte) : (s.sendEvent c p).wd = s.wd := rfl
@[simp] theorem State.sendEvent_halt (s : State) (c : Nat) (p : List Byte) : (s.sendEvent c p).halt = s.halt := rfl
@[simp] theorem State.sendEvent_sync (s : State) (c : Nat) (p : List Byte) : (s.sendEvent c p).sync = s.sync := rfl
@[simp] theorem State.sendEvent_log (s : State) (c : Nat) (p : List Byte) : (s.sendEvent c p).log = s.log := rfl
@[simp] theorem State.sendEvent_hosts (s : State) (c : Nat) (p : List Byte) : (s.sendEvent c p).hosts = s.hosts := rfl
@[simp] theorem State.sendEvent_ports (s : State) (c : Nat) (p : List Byte) : (s.sendEvent c p).ports = s.ports := rfl
@[simp] theorem State.sendEvent_suites (s : State) (c : Nat) (p : List Byte) : (s.sendEvent c p).suites = s.suites := rfl
@[simp] theorem State.sendEvent_ctxs (s : State) (c : Nat) (p : List Byte) : (s.sendEvent c p).ctxs = s.ctxs := rfl
@[simp] theorem State.sendEvent_callers (s : State) (c : Nat) (p : List Byte) : (s.sendEvent c p).callers = s.callers := rfl
@[simp] theorem State.sendEvent_groups (s : State) (c : Nat) (p : List Byte) : (s.sendEvent c p).groups = s.groups := rfl
@[simp] theorem State.sendEvent_cellar (s : State) (c : Nat) (p : List Byte) : (s.sendEvent c p).cellar = s.cellar := rfl
@[simp] theorem State.sendEvent_lanes (s : State) (c : Nat) (p : List Byte) : (s.sendEvent c p).lanes = s.lanes := rfl
@[simp] theorem State.sendEvent_outs (s : State) (c : Nat) (p : List Byte) : (s.sendEvent c p).outs = s.outs := rfl
@[simp] theorem State.sendEvent_confirmed (s : State) (c : Nat) (p : List Byte) : (s.sendEvent c p).confirmed = s.confirmed := rfl
@[simp] theorem State.sendEvent_rings (s : State) (c : Nat) (p : List Byte) : (s.sendEvent c p).rings = s.rings := rfl
@[simp] theorem State.sendEvent_commits (s : State) (c : Nat) (p : List Byte) : (s.sendEvent c p).commits = s.commits := rfl
@[simp] theorem State.sendEvent_owed (s : State) (c : Nat) (p : List Byte) : (s.sendEvent c p).owed = s.owed := rfl
@[simp] theorem State.sendEvent_droppedChunks (s : State) (c : Nat) (p : List Byte) : (s.sendEvent c p).droppedChunks = s.droppedChunks := rfl
@[simp] theorem State.sendEvent_givenUp (s : State) (c : Nat) (p : List Byte) : (s.sendEvent c p).givenUp = s.givenUp := rfl
@[simp] theorem State.sendEvent_hallway (s : State) (c : Nat) (p : List Byte) : (s.sendEvent c p).hallway = s.hallway := rfl
@[simp] theorem State.sendEvent_arrivals (s : State) (c : Nat) (p : List Byte) : (s.sendEvent c p).arrivals = s.arrivals := rfl
@[simp] theorem State.sendEvent_census (s : State) (c : Nat) (p : List Byte) : (s.sendEvent c p).census = s.census := rfl
@[simp] theorem State.sendEvent_svc (s : State) (c : Nat) (p : List Byte) : (s.sendEvent c p).svc = s.svc := rfl
@[simp] theorem State.sendEvent_freeCtr (s : State) (c : Nat) (p : List Byte) : (s.sendEvent c p).freeCtr = s.freeCtr := rfl
@[simp] theorem State.record_pending (s : State) (a : RecArgs) : (s.record a).pending = s.pending := by
  unfold record
  split
  · rfl
  · split <;> rfl
@[simp] theorem State.record_hall (s : State) (a : RecArgs) : (s.record a).hall = s.hall := by
  unfold record
  split
  · rfl
  · split <;> rfl
@[simp] theorem State.record_sled (s : State) (a : RecArgs) : (s.record a).sled = s.sled := by
  unfold record
  split
  · rfl
  · split <;> rfl
@[simp] theorem State.record_fuses (s : State) (a : RecArgs) : (s.record a).fuses = s.fuses := by
  unfold record
  split
  · rfl
  · split <;> rfl
@[simp] theorem State.record_flash (s : State) (a : RecArgs) : (s.record a).flash = s.flash := by
  unfold record
  split
  · rfl
  · split <;> rfl
@[simp] theorem State.record_thermal (s : State) (a : RecArgs) : (s.record a).thermal = s.thermal := by
  unfold record
  split
  · rfl
  · split <;> rfl
@[simp] theorem State.record_tap (s : State) (a : RecArgs) : (s.record a).tap = s.tap := by
  unfold record
  split
  · rfl
  · split <;> rfl
@[simp] theorem State.record_wd (s : State) (a : RecArgs) : (s.record a).wd = s.wd := by
  unfold record
  split
  · rfl
  · split <;> rfl
@[simp] theorem State.record_halt (s : State) (a : RecArgs) : (s.record a).halt = s.halt := by
  unfold record
  split
  · rfl
  · split <;> rfl
@[simp] theorem State.record_sync (s : State) (a : RecArgs) : (s.record a).sync = s.sync := by
  unfold record
  split
  · rfl
  · split <;> rfl
@[simp] theorem State.record_hosts (s : State) (a : RecArgs) : (s.record a).hosts = s.hosts := by
  unfold record
  split
  · rfl
  · split <;> rfl
@[simp] theorem State.record_ports (s : State) (a : RecArgs) : (s.record a).ports = s.ports := by
  unfold record
  split
  · rfl
  · split <;> rfl
@[simp] theorem State.record_suites (s : State) (a : RecArgs) : (s.record a).suites = s.suites := by
  unfold record
  split
  · rfl
  · split <;> rfl
@[simp] theorem State.record_ctxs (s : State) (a : RecArgs) : (s.record a).ctxs = s.ctxs := by
  unfold record
  split
  · rfl
  · split <;> rfl
@[simp] theorem State.record_callers (s : State) (a : RecArgs) : (s.record a).callers = s.callers := by
  unfold record
  split
  · rfl
  · split <;> rfl
@[simp] theorem State.record_groups (s : State) (a : RecArgs) : (s.record a).groups = s.groups := by
  unfold record
  split
  · rfl
  · split <;> rfl
@[simp] theorem State.record_cellar (s : State) (a : RecArgs) : (s.record a).cellar = s.cellar := by
  unfold record
  split
  · rfl
  · split <;> rfl
@[simp] theorem State.record_lanes (s : State) (a : RecArgs) : (s.record a).lanes = s.lanes := by
  unfold record
  split
  · rfl
  · split <;> rfl
@[simp] theorem State.record_outs (s : State) (a : RecArgs) : (s.record a).outs = s.outs := by
  unfold record
  split
  · rfl
  · split <;> rfl
@[simp] theorem State.record_confirmed (s : State) (a : RecArgs) : (s.record a).confirmed = s.confirmed := by
  unfold record
  split
  · rfl
  · split <;> rfl
@[simp] theorem State.record_rings (s : State) (a : RecArgs) : (s.record a).rings = s.rings := by
  unfold record
  split
  · rfl
  · split <;> rfl
@[simp] theorem State.record_commits (s : State) (a : RecArgs) : (s.record a).commits = s.commits := by
  unfold record
  split
  · rfl
  · split <;> rfl
@[simp] theorem State.record_owed (s : State) (a : RecArgs) : (s.record a).owed = s.owed := by
  unfold record
  split
  · rfl
  · split <;> rfl
@[simp] theorem State.record_droppedChunks (s : State) (a : RecArgs) : (s.record a).droppedChunks = s.droppedChunks := by
  unfold record
  split
  · rfl
  · split <;> rfl
@[simp] theorem State.record_givenUp (s : State) (a : RecArgs) : (s.record a).givenUp = s.givenUp := by
  unfold record
  split
  · rfl
  · split <;> rfl
@[simp] theorem State.record_hallway (s : State) (a : RecArgs) : (s.record a).hallway = s.hallway := by
  unfold record
  split
  · rfl
  · split <;> rfl
@[simp] theorem State.record_arrivals (s : State) (a : RecArgs) : (s.record a).arrivals = s.arrivals := by
  unfold record
  split
  · rfl
  · split <;> rfl
@[simp] theorem State.record_census (s : State) (a : RecArgs) : (s.record a).census = s.census := by
  unfold record
  split
  · rfl
  · split <;> rfl
@[simp] theorem State.record_svc (s : State) (a : RecArgs) : (s.record a).svc = s.svc := by
  unfold record
  split
  · rfl
  · split <;> rfl
@[simp] theorem State.record_freeCtr (s : State) (a : RecArgs) : (s.record a).freeCtr = s.freeCtr := by
  unfold record
  split
  · rfl
  · split <;> rfl
@[simp] theorem State.record_hearth_startup (s : State) (a : RecArgs) : (s.record a).hearth.startup = s.hearth.startup := by
  unfold record
  split
  · rfl
  · split <;> rfl
@[simp] theorem State.record_hearth_bootReason (s : State) (a : RecArgs) : (s.record a).hearth.bootReason = s.hearth.bootReason := by
  unfold record
  split
  · rfl
  · split <;> rfl
@[simp] theorem State.record_hearth_slotId (s : State) (a : RecArgs) : (s.record a).hearth.slotId = s.hearth.slotId := by
  unfold record
  split
  · rfl
  · split <;> rfl
@[simp] theorem State.record_hearth_roomId (s : State) (a : RecArgs) : (s.record a).hearth.roomId = s.hearth.roomId := by
  unfold record
  split
  · rfl
  · split <;> rfl
@[simp] theorem State.record_hearth_loadingB (s : State) (a : RecArgs) : (s.record a).hearth.loadingB = s.hearth.loadingB := by
  unfold record
  split
  · rfl
  · split <;> rfl
@[simp] theorem State.record_hearth_imageB (s : State) (a : RecArgs) : (s.record a).hearth.imageB = s.hearth.imageB := by
  unfold record
  split
  · rfl
  · split <;> rfl
@[simp] theorem State.record_hearth_fwVersion (s : State) (a : RecArgs) : (s.record a).hearth.fwVersion = s.hearth.fwVersion := by
  unfold record
  split
  · rfl
  · split <;> rfl
@[simp] theorem State.record_hearth_fwMeasure (s : State) (a : RecArgs) : (s.record a).hearth.fwMeasure = s.hearth.fwMeasure := by
  unfold record
  split
  · rfl
  · split <;> rfl
@[simp] theorem State.record_hearth_config (s : State) (a : RecArgs) : (s.record a).hearth.config = s.hearth.config := by
  unfold record
  split
  · rfl
  · split <;> rfl
@[simp] theorem State.record_hearth_imageRetire (s : State) (a : RecArgs) : (s.record a).hearth.imageRetire = s.hearth.imageRetire := by
  unfold record
  split
  · rfl
  · split <;> rfl
@[simp] theorem State.record_hearth_locked (s : State) (a : RecArgs) : (s.record a).hearth.locked = s.hearth.locked := by
  unfold record
  split
  · rfl
  · split <;> rfl
@[simp] theorem State.record_hearth_wireDisabled (s : State) (a : RecArgs) : (s.record a).hearth.wireDisabled = s.hearth.wireDisabled := by
  unfold record
  split
  · rfl
  · split <;> rfl
@[simp] theorem State.record_hearth_disabledMap (s : State) (a : RecArgs) : (s.record a).hearth.disabledMap = s.hearth.disabledMap := by
  unfold record
  split
  · rfl
  · split <;> rfl
@[simp] theorem State.record_hearth_readyHall (s : State) (a : RecArgs) : (s.record a).hearth.readyHall = s.hearth.readyHall := by
  unfold record
  split
  · rfl
  · split <;> rfl
@[simp] theorem State.record_hearth_mapDigest (s : State) (a : RecArgs) : (s.record a).hearth.mapDigest = s.hearth.mapDigest := by
  unfold record
  split
  · rfl
  · split <;> rfl
@[simp] theorem State.record_hearth_configDigest (s : State) (a : RecArgs) : (s.record a).hearth.configDigest = s.hearth.configDigest := by
  unfold record
  split
  · rfl
  · split <;> rfl
@[simp] theorem State.record_hearth_power (s : State) (a : RecArgs) : (s.record a).hearth.power = s.hearth.power := by
  unfold record
  split
  · rfl
  · split <;> rfl
@[simp] theorem State.record_hearth_mgmtHold (s : State) (a : RecArgs) : (s.record a).hearth.mgmtHold = s.hearth.mgmtHold := by
  unfold record
  split
  · rfl
  · split <;> rfl
@[simp] theorem State.record_hearth_live (s : State) (a : RecArgs) : (s.record a).hearth.live = s.hearth.live := by
  unfold record
  split
  · rfl
  · split <;> rfl
@[simp] theorem State.record_hearth_wallclock (s : State) (a : RecArgs) : (s.record a).hearth.wallclock = s.hearth.wallclock := by
  unfold record
  split
  · rfl
  · split <;> rfl
@[simp] theorem State.record_hearth_rlOffset (s : State) (a : RecArgs) : (s.record a).hearth.rlOffset = s.hearth.rlOffset := by
  unfold record
  split
  · rfl
  · split <;> rfl
@[simp] theorem State.record_hearth_rlSeen (s : State) (a : RecArgs) : (s.record a).hearth.rlSeen = s.hearth.rlSeen := by
  unfold record
  split
  · rfl
  · split <;> rfl
@[simp] theorem State.record_hearth_miswired (s : State) (a : RecArgs) : (s.record a).hearth.miswired = s.hearth.miswired := by
  unfold record
  split
  · rfl
  · split <;> rfl
@[simp] theorem State.record_hearth_lateRelease (s : State) (a : RecArgs) : (s.record a).hearth.lateRelease = s.hearth.lateRelease := by
  unfold record
  split
  · rfl
  · split <;> rfl
@[simp] theorem State.record_hearth_epochErrors (s : State) (a : RecArgs) : (s.record a).hearth.epochErrors = s.hearth.epochErrors := by
  unfold record
  split
  · rfl
  · split <;> rfl
@[simp] theorem State.record_hearth_exempt56 (s : State) (a : RecArgs) : (s.record a).hearth.exempt56 = s.hearth.exempt56 := by
  unfold record
  split
  · rfl
  · split <;> rfl
@[simp] theorem State.record_hearth_vdmDropped (s : State) (a : RecArgs) : (s.record a).hearth.vdmDropped = s.hearth.vdmDropped := by
  unfold record
  split
  · rfl
  · split <;> rfl
@[simp] theorem State.record_hearth_censusDropped (s : State) (a : RecArgs) : (s.record a).hearth.censusDropped = s.hearth.censusDropped := by
  unfold record
  split
  · rfl
  · split <;> rfl
@[simp] theorem State.record_hearth_powerTag (s : State) (a : RecArgs) : (s.record a).hearth.powerTag = s.hearth.powerTag := by
  unfold record
  split
  · rfl
  · split <;> rfl
@[simp] theorem State.record_hearth_syncOut (s : State) (a : RecArgs) : (s.record a).hearth.syncOut = s.hearth.syncOut := by
  unfold record
  split
  · rfl
  · split <;> rfl
@[simp] theorem State.record_hearth_smbusOn (s : State) (a : RecArgs) : (s.record a).hearth.smbusOn = s.hearth.smbusOn := by
  unfold record
  split
  · rfl
  · split <;> rfl
@[simp] theorem State.record_hearth_spiSelect (s : State) (a : RecArgs) : (s.record a).hearth.spiSelect = s.hearth.spiSelect := by
  unfold record
  split
  · rfl
  · split <;> rfl
@[simp] theorem State.sendEvent_ctx (s : State) (c : Nat) (p : List Byte) (n : Nat) : (s.sendEvent c p).ctx n = s.ctx n := rfl
@[simp] theorem State.record_ctx (s : State) (a : RecArgs) (n : Nat) : (s.record a).ctx n = s.ctx n := by
  simp [ctx]
@[simp] theorem State.sendEvent_host (s : State) (c : Nat) (p : List Byte) (n : Nat) : (s.sendEvent c p).host n = s.host n := rfl
@[simp] theorem State.record_host (s : State) (a : RecArgs) (n : Nat) : (s.record a).host n = s.host n := by
  simp [host]
@[simp] theorem State.sendEvent_port (s : State) (c : Nat) (p : List Byte) (n : Nat) : (s.sendEvent c p).port n = s.port n := rfl
@[simp] theorem State.record_port (s : State) (a : RecArgs) (n : Nat) : (s.record a).port n = s.port n := by
  simp [port]
@[simp] theorem State.sendEvent_suite (s : State) (c : Nat) (p : List Byte) (n : Nat) : (s.sendEvent c p).suite n = s.suite n := rfl
@[simp] theorem State.record_suite (s : State) (a : RecArgs) (n : Nat) : (s.record a).suite n = s.suite n := by
  simp [suite]
@[simp] theorem State.sendEvent_grp (s : State) (c : Nat) (p : List Byte) (n : Nat) : (s.sendEvent c p).grp n = s.grp n := rfl
@[simp] theorem State.record_grp (s : State) (a : RecArgs) (n : Nat) : (s.record a).grp n = s.grp n := by
  simp [grp]
@[simp] theorem State.sendEvent_ext (s : State) (c : Nat) (p : List Byte) (n : Nat) : (s.sendEvent c p).ext n = s.ext n := rfl
@[simp] theorem State.record_ext (s : State) (a : RecArgs) (n : Nat) : (s.record a).ext n = s.ext n := by
  simp [ext]

/-- An event takes one place: sent, queued or lost, and the queue never grows past its 256 (R517). -/
theorem Mgmt.event_cases (m : Mgmt) (e : MgmtEvent) :
    (m.fmOpen = true ∧ (m.event e).sent = m.sent ++ [e] ∧ (m.event e).queue = m.queue ∧ (m.event e).lost = m.lost) ∨
    (m.fmOpen = false ∧ m.queue.length < 256 ∧ (m.event e).queue = m.queue ++ [e] ∧ (m.event e).sent = m.sent ∧ (m.event e).lost = m.lost) ∨
    (m.fmOpen = false ∧ 256 ≤ m.queue.length ∧ (m.event e).queue = m.queue ∧ (m.event e).sent = m.sent ∧ (m.event e).lost = satInc m.lost) := by
  unfold event
  split
  · exact .inl ⟨‹_›, rfl, rfl, rfl⟩
  · split
    · exact .inr (.inl ⟨by simpa using ‹¬m.fmOpen = true›, ‹_›, rfl, rfl, rfl⟩)
    · exact .inr (.inr ⟨by simpa using ‹¬m.fmOpen = true›, by omega, rfl, rfl, rfl⟩)

/-! ## Posted writes and vectors (R403, R407, R408): they change host blocks alone -/

@[simp] theorem State.post_pending (s : State) (h : Nat) (w : HostWrite) : (s.post h w).pending = s.pending := by
  simp only [post]
  split <;> rfl
@[simp] theorem State.msix_pending (s : State) (h v : Nat) : (s.msix h v).pending = s.pending := by
  simp only [msix]
  repeat' split
  all_goals first | rfl | simp
@[simp] theorem State.suiteEvent_pending (s : State) (i : Nat) : (s.suiteEvent i).pending = s.pending := msix_pending _ _ _
@[simp] theorem State.setSuite_pending (s : State) (i : Nat) (x : SuiteState) : (s.setSuite i x).pending = s.pending := by
  simp [setSuite]
@[simp] theorem State.post_hall (s : State) (h : Nat) (w : HostWrite) : (s.post h w).hall = s.hall := by
  simp only [post]
  split <;> rfl
@[simp] theorem State.msix_hall (s : State) (h v : Nat) : (s.msix h v).hall = s.hall := by
  simp only [msix]
  repeat' split
  all_goals first | rfl | simp
@[simp] theorem State.suiteEvent_hall (s : State) (i : Nat) : (s.suiteEvent i).hall = s.hall := msix_hall _ _ _
@[simp] theorem State.setSuite_hall (s : State) (i : Nat) (x : SuiteState) : (s.setSuite i x).hall = s.hall := by
  simp [setSuite]
@[simp] theorem State.post_sled (s : State) (h : Nat) (w : HostWrite) : (s.post h w).sled = s.sled := by
  simp only [post]
  split <;> rfl
@[simp] theorem State.msix_sled (s : State) (h v : Nat) : (s.msix h v).sled = s.sled := by
  simp only [msix]
  repeat' split
  all_goals first | rfl | simp
@[simp] theorem State.suiteEvent_sled (s : State) (i : Nat) : (s.suiteEvent i).sled = s.sled := msix_sled _ _ _
@[simp] theorem State.setSuite_sled (s : State) (i : Nat) (x : SuiteState) : (s.setSuite i x).sled = s.sled := by
  simp [setSuite]
@[simp] theorem State.post_fuses (s : State) (h : Nat) (w : HostWrite) : (s.post h w).fuses = s.fuses := by
  simp only [post]
  split <;> rfl
@[simp] theorem State.msix_fuses (s : State) (h v : Nat) : (s.msix h v).fuses = s.fuses := by
  simp only [msix]
  repeat' split
  all_goals first | rfl | simp
@[simp] theorem State.suiteEvent_fuses (s : State) (i : Nat) : (s.suiteEvent i).fuses = s.fuses := msix_fuses _ _ _
@[simp] theorem State.setSuite_fuses (s : State) (i : Nat) (x : SuiteState) : (s.setSuite i x).fuses = s.fuses := by
  simp [setSuite]
@[simp] theorem State.post_flash (s : State) (h : Nat) (w : HostWrite) : (s.post h w).flash = s.flash := by
  simp only [post]
  split <;> rfl
@[simp] theorem State.msix_flash (s : State) (h v : Nat) : (s.msix h v).flash = s.flash := by
  simp only [msix]
  repeat' split
  all_goals first | rfl | simp
@[simp] theorem State.suiteEvent_flash (s : State) (i : Nat) : (s.suiteEvent i).flash = s.flash := msix_flash _ _ _
@[simp] theorem State.setSuite_flash (s : State) (i : Nat) (x : SuiteState) : (s.setSuite i x).flash = s.flash := by
  simp [setSuite]
@[simp] theorem State.post_hearth (s : State) (h : Nat) (w : HostWrite) : (s.post h w).hearth = s.hearth := by
  simp only [post]
  split <;> rfl
@[simp] theorem State.msix_hearth (s : State) (h v : Nat) : (s.msix h v).hearth = s.hearth := by
  simp only [msix]
  repeat' split
  all_goals first | rfl | simp
@[simp] theorem State.suiteEvent_hearth (s : State) (i : Nat) : (s.suiteEvent i).hearth = s.hearth := msix_hearth _ _ _
@[simp] theorem State.setSuite_hearth (s : State) (i : Nat) (x : SuiteState) : (s.setSuite i x).hearth = s.hearth := by
  simp [setSuite]
@[simp] theorem State.post_thermal (s : State) (h : Nat) (w : HostWrite) : (s.post h w).thermal = s.thermal := by
  simp only [post]
  split <;> rfl
@[simp] theorem State.msix_thermal (s : State) (h v : Nat) : (s.msix h v).thermal = s.thermal := by
  simp only [msix]
  repeat' split
  all_goals first | rfl | simp
@[simp] theorem State.suiteEvent_thermal (s : State) (i : Nat) : (s.suiteEvent i).thermal = s.thermal := msix_thermal _ _ _
@[simp] theorem State.setSuite_thermal (s : State) (i : Nat) (x : SuiteState) : (s.setSuite i x).thermal = s.thermal := by
  simp [setSuite]
@[simp] theorem State.post_tap (s : State) (h : Nat) (w : HostWrite) : (s.post h w).tap = s.tap := by
  simp only [post]
  split <;> rfl
@[simp] theorem State.msix_tap (s : State) (h v : Nat) : (s.msix h v).tap = s.tap := by
  simp only [msix]
  repeat' split
  all_goals first | rfl | simp
@[simp] theorem State.suiteEvent_tap (s : State) (i : Nat) : (s.suiteEvent i).tap = s.tap := msix_tap _ _ _
@[simp] theorem State.setSuite_tap (s : State) (i : Nat) (x : SuiteState) : (s.setSuite i x).tap = s.tap := by
  simp [setSuite]
@[simp] theorem State.post_wd (s : State) (h : Nat) (w : HostWrite) : (s.post h w).wd = s.wd := by
  simp only [post]
  split <;> rfl
@[simp] theorem State.msix_wd (s : State) (h v : Nat) : (s.msix h v).wd = s.wd := by
  simp only [msix]
  repeat' split
  all_goals first | rfl | simp
@[simp] theorem State.suiteEvent_wd (s : State) (i : Nat) : (s.suiteEvent i).wd = s.wd := msix_wd _ _ _
@[simp] theorem State.setSuite_wd (s : State) (i : Nat) (x : SuiteState) : (s.setSuite i x).wd = s.wd := by
  simp [setSuite]
@[simp] theorem State.post_halt (s : State) (h : Nat) (w : HostWrite) : (s.post h w).halt = s.halt := by
  simp only [post]
  split <;> rfl
@[simp] theorem State.msix_halt (s : State) (h v : Nat) : (s.msix h v).halt = s.halt := by
  simp only [msix]
  repeat' split
  all_goals first | rfl | simp
@[simp] theorem State.suiteEvent_halt (s : State) (i : Nat) : (s.suiteEvent i).halt = s.halt := msix_halt _ _ _
@[simp] theorem State.setSuite_halt (s : State) (i : Nat) (x : SuiteState) : (s.setSuite i x).halt = s.halt := by
  simp [setSuite]
@[simp] theorem State.post_sync (s : State) (h : Nat) (w : HostWrite) : (s.post h w).sync = s.sync := by
  simp only [post]
  split <;> rfl
@[simp] theorem State.msix_sync (s : State) (h v : Nat) : (s.msix h v).sync = s.sync := by
  simp only [msix]
  repeat' split
  all_goals first | rfl | simp
@[simp] theorem State.suiteEvent_sync (s : State) (i : Nat) : (s.suiteEvent i).sync = s.sync := msix_sync _ _ _
@[simp] theorem State.setSuite_sync (s : State) (i : Nat) (x : SuiteState) : (s.setSuite i x).sync = s.sync := by
  simp [setSuite]
@[simp] theorem State.post_log (s : State) (h : Nat) (w : HostWrite) : (s.post h w).log = s.log := by
  simp only [post]
  split <;> rfl
@[simp] theorem State.msix_log (s : State) (h v : Nat) : (s.msix h v).log = s.log := by
  simp only [msix]
  repeat' split
  all_goals first | rfl | simp
@[simp] theorem State.suiteEvent_log (s : State) (i : Nat) : (s.suiteEvent i).log = s.log := msix_log _ _ _
@[simp] theorem State.setSuite_log (s : State) (i : Nat) (x : SuiteState) : (s.setSuite i x).log = s.log := by
  simp [setSuite]
@[simp] theorem State.post_ports (s : State) (h : Nat) (w : HostWrite) : (s.post h w).ports = s.ports := by
  simp only [post]
  split <;> rfl
@[simp] theorem State.msix_ports (s : State) (h v : Nat) : (s.msix h v).ports = s.ports := by
  simp only [msix]
  repeat' split
  all_goals first | rfl | simp
@[simp] theorem State.suiteEvent_ports (s : State) (i : Nat) : (s.suiteEvent i).ports = s.ports := msix_ports _ _ _
@[simp] theorem State.setSuite_ports (s : State) (i : Nat) (x : SuiteState) : (s.setSuite i x).ports = s.ports := by
  simp [setSuite]
@[simp] theorem State.post_suites (s : State) (h : Nat) (w : HostWrite) : (s.post h w).suites = s.suites := by
  simp only [post]
  split <;> rfl
@[simp] theorem State.msix_suites (s : State) (h v : Nat) : (s.msix h v).suites = s.suites := by
  simp only [msix]
  repeat' split
  all_goals first | rfl | simp
@[simp] theorem State.suiteEvent_suites (s : State) (i : Nat) : (s.suiteEvent i).suites = s.suites := msix_suites _ _ _
@[simp] theorem State.post_ctxs (s : State) (h : Nat) (w : HostWrite) : (s.post h w).ctxs = s.ctxs := by
  simp only [post]
  split <;> rfl
@[simp] theorem State.post_callers (s : State) (h : Nat) (w : HostWrite) : (s.post h w).callers = s.callers := by
  simp only [post]
  split <;> rfl
@[simp] theorem State.msix_ctxs (s : State) (h v : Nat) : (s.msix h v).ctxs = s.ctxs := by
  simp only [msix]
  repeat' split
  all_goals first | rfl | simp
@[simp] theorem State.msix_callers (s : State) (h v : Nat) : (s.msix h v).callers = s.callers := by
  simp only [msix]
  repeat' split
  all_goals first | rfl | simp
@[simp] theorem State.suiteEvent_ctxs (s : State) (i : Nat) : (s.suiteEvent i).ctxs = s.ctxs := msix_ctxs _ _ _
@[simp] theorem State.suiteEvent_callers (s : State) (i : Nat) : (s.suiteEvent i).callers = s.callers := msix_callers _ _ _
@[simp] theorem State.setSuite_ctxs (s : State) (i : Nat) (x : SuiteState) : (s.setSuite i x).ctxs = s.ctxs := by
  simp [setSuite]
@[simp] theorem State.setSuite_callers (s : State) (i : Nat) (x : SuiteState) : (s.setSuite i x).callers = s.callers := by
  simp [setSuite]
@[simp] theorem State.post_groups (s : State) (h : Nat) (w : HostWrite) : (s.post h w).groups = s.groups := by
  simp only [post]
  split <;> rfl
@[simp] theorem State.msix_groups (s : State) (h v : Nat) : (s.msix h v).groups = s.groups := by
  simp only [msix]
  repeat' split
  all_goals first | rfl | simp
@[simp] theorem State.suiteEvent_groups (s : State) (i : Nat) : (s.suiteEvent i).groups = s.groups := msix_groups _ _ _
@[simp] theorem State.setSuite_groups (s : State) (i : Nat) (x : SuiteState) : (s.setSuite i x).groups = s.groups := by
  simp [setSuite]
@[simp] theorem State.post_cellar (s : State) (h : Nat) (w : HostWrite) : (s.post h w).cellar = s.cellar := by
  simp only [post]
  split <;> rfl
@[simp] theorem State.msix_cellar (s : State) (h v : Nat) : (s.msix h v).cellar = s.cellar := by
  simp only [msix]
  repeat' split
  all_goals first | rfl | simp
@[simp] theorem State.suiteEvent_cellar (s : State) (i : Nat) : (s.suiteEvent i).cellar = s.cellar := msix_cellar _ _ _
@[simp] theorem State.setSuite_cellar (s : State) (i : Nat) (x : SuiteState) : (s.setSuite i x).cellar = s.cellar := by
  simp [setSuite]
@[simp] theorem State.post_lanes (s : State) (h : Nat) (w : HostWrite) : (s.post h w).lanes = s.lanes := by
  simp only [post]
  split <;> rfl
@[simp] theorem State.msix_lanes (s : State) (h v : Nat) : (s.msix h v).lanes = s.lanes := by
  simp only [msix]
  repeat' split
  all_goals first | rfl | simp
@[simp] theorem State.suiteEvent_lanes (s : State) (i : Nat) : (s.suiteEvent i).lanes = s.lanes := msix_lanes _ _ _
@[simp] theorem State.setSuite_lanes (s : State) (i : Nat) (x : SuiteState) : (s.setSuite i x).lanes = s.lanes := by
  simp [setSuite]
@[simp] theorem State.post_outs (s : State) (h : Nat) (w : HostWrite) : (s.post h w).outs = s.outs := by
  simp only [post]
  split <;> rfl
@[simp] theorem State.msix_outs (s : State) (h v : Nat) : (s.msix h v).outs = s.outs := by
  simp only [msix]
  repeat' split
  all_goals first | rfl | simp
@[simp] theorem State.suiteEvent_outs (s : State) (i : Nat) : (s.suiteEvent i).outs = s.outs := msix_outs _ _ _
@[simp] theorem State.setSuite_outs (s : State) (i : Nat) (x : SuiteState) : (s.setSuite i x).outs = s.outs := by
  simp [setSuite]
@[simp] theorem State.post_confirmed (s : State) (h : Nat) (w : HostWrite) : (s.post h w).confirmed = s.confirmed := by
  simp only [post]
  split <;> rfl
@[simp] theorem State.msix_confirmed (s : State) (h v : Nat) : (s.msix h v).confirmed = s.confirmed := by
  simp only [msix]
  repeat' split
  all_goals first | rfl | simp
@[simp] theorem State.suiteEvent_confirmed (s : State) (i : Nat) : (s.suiteEvent i).confirmed = s.confirmed := msix_confirmed _ _ _
@[simp] theorem State.setSuite_confirmed (s : State) (i : Nat) (x : SuiteState) : (s.setSuite i x).confirmed = s.confirmed := by
  simp [setSuite]
@[simp] theorem State.post_rings (s : State) (h : Nat) (w : HostWrite) : (s.post h w).rings = s.rings := by
  simp only [post]
  split <;> rfl
@[simp] theorem State.msix_rings (s : State) (h v : Nat) : (s.msix h v).rings = s.rings := by
  simp only [msix]
  repeat' split
  all_goals first | rfl | simp
@[simp] theorem State.suiteEvent_rings (s : State) (i : Nat) : (s.suiteEvent i).rings = s.rings := msix_rings _ _ _
@[simp] theorem State.setSuite_rings (s : State) (i : Nat) (x : SuiteState) : (s.setSuite i x).rings = s.rings := by
  simp [setSuite]
@[simp] theorem State.post_commits (s : State) (h : Nat) (w : HostWrite) : (s.post h w).commits = s.commits := by
  simp only [post]
  split <;> rfl
@[simp] theorem State.post_owed (s : State) (h : Nat) (w : HostWrite) : (s.post h w).owed = s.owed := by
  simp only [post]
  split <;> rfl
@[simp] theorem State.post_droppedChunks (s : State) (h : Nat) (w : HostWrite) : (s.post h w).droppedChunks = s.droppedChunks := by
  simp only [post]
  split <;> rfl
@[simp] theorem State.post_givenUp (s : State) (h : Nat) (w : HostWrite) : (s.post h w).givenUp = s.givenUp := by
  simp only [post]
  split <;> rfl
@[simp] theorem State.post_hallway (s : State) (h : Nat) (w : HostWrite) : (s.post h w).hallway = s.hallway := by
  simp only [post]
  split <;> rfl
@[simp] theorem State.post_arrivals (s : State) (h : Nat) (w : HostWrite) : (s.post h w).arrivals = s.arrivals := by
  simp only [post]
  split <;> rfl
@[simp] theorem State.msix_commits (s : State) (h v : Nat) : (s.msix h v).commits = s.commits := by
  simp only [msix]
  repeat' split
  all_goals first | rfl | simp
@[simp] theorem State.msix_owed (s : State) (h v : Nat) : (s.msix h v).owed = s.owed := by
  simp only [msix]
  repeat' split
  all_goals first | rfl | simp
@[simp] theorem State.msix_droppedChunks (s : State) (h v : Nat) : (s.msix h v).droppedChunks = s.droppedChunks := by
  simp only [msix]
  repeat' split
  all_goals first | rfl | simp
@[simp] theorem State.msix_givenUp (s : State) (h v : Nat) : (s.msix h v).givenUp = s.givenUp := by
  simp only [msix]
  repeat' split
  all_goals first | rfl | simp
@[simp] theorem State.msix_hallway (s : State) (h v : Nat) : (s.msix h v).hallway = s.hallway := by
  simp only [msix]
  repeat' split
  all_goals first | rfl | simp
@[simp] theorem State.msix_arrivals (s : State) (h v : Nat) : (s.msix h v).arrivals = s.arrivals := by
  simp only [msix]
  repeat' split
  all_goals first | rfl | simp
@[simp] theorem State.suiteEvent_commits (s : State) (i : Nat) : (s.suiteEvent i).commits = s.commits := msix_commits _ _ _
@[simp] theorem State.suiteEvent_owed (s : State) (i : Nat) : (s.suiteEvent i).owed = s.owed := msix_owed _ _ _
@[simp] theorem State.suiteEvent_droppedChunks (s : State) (i : Nat) : (s.suiteEvent i).droppedChunks = s.droppedChunks := msix_droppedChunks _ _ _
@[simp] theorem State.suiteEvent_givenUp (s : State) (i : Nat) : (s.suiteEvent i).givenUp = s.givenUp := msix_givenUp _ _ _
@[simp] theorem State.suiteEvent_hallway (s : State) (i : Nat) : (s.suiteEvent i).hallway = s.hallway := msix_hallway _ _ _
@[simp] theorem State.suiteEvent_arrivals (s : State) (i : Nat) : (s.suiteEvent i).arrivals = s.arrivals := msix_arrivals _ _ _
@[simp] theorem State.setSuite_commits (s : State) (i : Nat) (x : SuiteState) : (s.setSuite i x).commits = s.commits := by
  simp [setSuite]
@[simp] theorem State.setSuite_owed (s : State) (i : Nat) (x : SuiteState) : (s.setSuite i x).owed = s.owed := by
  simp [setSuite]
@[simp] theorem State.setSuite_droppedChunks (s : State) (i : Nat) (x : SuiteState) : (s.setSuite i x).droppedChunks = s.droppedChunks := by
  simp [setSuite]
@[simp] theorem State.setSuite_givenUp (s : State) (i : Nat) (x : SuiteState) : (s.setSuite i x).givenUp = s.givenUp := by
  simp [setSuite]
@[simp] theorem State.setSuite_hallway (s : State) (i : Nat) (x : SuiteState) : (s.setSuite i x).hallway = s.hallway := by
  simp [setSuite]
@[simp] theorem State.setSuite_arrivals (s : State) (i : Nat) (x : SuiteState) : (s.setSuite i x).arrivals = s.arrivals := by
  simp [setSuite]
@[simp] theorem State.post_mgmt (s : State) (h : Nat) (w : HostWrite) : (s.post h w).mgmt = s.mgmt := by
  simp only [post]
  split <;> rfl
@[simp] theorem State.msix_mgmt (s : State) (h v : Nat) : (s.msix h v).mgmt = s.mgmt := by
  simp only [msix]
  repeat' split
  all_goals first | rfl | simp
@[simp] theorem State.suiteEvent_mgmt (s : State) (i : Nat) : (s.suiteEvent i).mgmt = s.mgmt := msix_mgmt _ _ _
@[simp] theorem State.setSuite_mgmt (s : State) (i : Nat) (x : SuiteState) : (s.setSuite i x).mgmt = s.mgmt := by
  simp [setSuite]
@[simp] theorem State.post_census (s : State) (h : Nat) (w : HostWrite) : (s.post h w).census = s.census := by
  simp only [post]
  split <;> rfl
@[simp] theorem State.msix_census (s : State) (h v : Nat) : (s.msix h v).census = s.census := by
  simp only [msix]
  repeat' split
  all_goals first | rfl | simp
@[simp] theorem State.suiteEvent_census (s : State) (i : Nat) : (s.suiteEvent i).census = s.census := msix_census _ _ _
@[simp] theorem State.setSuite_census (s : State) (i : Nat) (x : SuiteState) : (s.setSuite i x).census = s.census := by
  simp [setSuite]
@[simp] theorem State.post_svc (s : State) (h : Nat) (w : HostWrite) : (s.post h w).svc = s.svc := by
  simp only [post]
  split <;> rfl
@[simp] theorem State.msix_svc (s : State) (h v : Nat) : (s.msix h v).svc = s.svc := by
  simp only [msix]
  repeat' split
  all_goals first | rfl | simp
@[simp] theorem State.suiteEvent_svc (s : State) (i : Nat) : (s.suiteEvent i).svc = s.svc := msix_svc _ _ _
@[simp] theorem State.setSuite_svc (s : State) (i : Nat) (x : SuiteState) : (s.setSuite i x).svc = s.svc := by
  simp [setSuite]
@[simp] theorem State.post_freeCtr (s : State) (h : Nat) (w : HostWrite) : (s.post h w).freeCtr = s.freeCtr := by
  simp only [post]
  split <;> rfl
@[simp] theorem State.msix_freeCtr (s : State) (h v : Nat) : (s.msix h v).freeCtr = s.freeCtr := by
  simp only [msix]
  repeat' split
  all_goals first | rfl | simp
@[simp] theorem State.suiteEvent_freeCtr (s : State) (i : Nat) : (s.suiteEvent i).freeCtr = s.freeCtr := msix_freeCtr _ _ _
@[simp] theorem State.setSuite_freeCtr (s : State) (i : Nat) (x : SuiteState) : (s.setSuite i x).freeCtr = s.freeCtr := by
  simp [setSuite]

/-- A byte string is posted write by write: what every write leaves stays. -/
theorem State.postBytes_keep {α : Type} (p : State → α) (hp : ∀ (s : State) h w, p (s.post h w) = p s) (s : State) (h iova : Nat) (b : List Byte) (c fid : Nat) :
    p (s.postBytes h iova b c fid) = p s := by
  simp only [postBytes]
  generalize alignedCuts iova b.length = l
  induction l generalizing s with
  | nil => rfl
  | cons x l ih => rw [List.foldl_cons, ih, hp]

@[simp] theorem State.postBytes_pending (s : State) (h i : Nat) (b : List Byte) (c fid : Nat) : (s.postBytes h i b c fid).pending = s.pending :=
  postBytes_keep (fun s => s.pending) (fun s h w => post_pending s h w) s h i b c fid
@[simp] theorem State.postBytes_hall (s : State) (h i : Nat) (b : List Byte) (c fid : Nat) : (s.postBytes h i b c fid).hall = s.hall :=
  postBytes_keep (fun s => s.hall) (fun s h w => post_hall s h w) s h i b c fid
@[simp] theorem State.postBytes_sled (s : State) (h i : Nat) (b : List Byte) (c fid : Nat) : (s.postBytes h i b c fid).sled = s.sled :=
  postBytes_keep (fun s => s.sled) (fun s h w => post_sled s h w) s h i b c fid
@[simp] theorem State.postBytes_fuses (s : State) (h i : Nat) (b : List Byte) (c fid : Nat) : (s.postBytes h i b c fid).fuses = s.fuses :=
  postBytes_keep (fun s => s.fuses) (fun s h w => post_fuses s h w) s h i b c fid
@[simp] theorem State.postBytes_flash (s : State) (h i : Nat) (b : List Byte) (c fid : Nat) : (s.postBytes h i b c fid).flash = s.flash :=
  postBytes_keep (fun s => s.flash) (fun s h w => post_flash s h w) s h i b c fid
@[simp] theorem State.postBytes_hearth (s : State) (h i : Nat) (b : List Byte) (c fid : Nat) : (s.postBytes h i b c fid).hearth = s.hearth :=
  postBytes_keep (fun s => s.hearth) (fun s h w => post_hearth s h w) s h i b c fid
@[simp] theorem State.postBytes_thermal (s : State) (h i : Nat) (b : List Byte) (c fid : Nat) : (s.postBytes h i b c fid).thermal = s.thermal :=
  postBytes_keep (fun s => s.thermal) (fun s h w => post_thermal s h w) s h i b c fid
@[simp] theorem State.postBytes_tap (s : State) (h i : Nat) (b : List Byte) (c fid : Nat) : (s.postBytes h i b c fid).tap = s.tap :=
  postBytes_keep (fun s => s.tap) (fun s h w => post_tap s h w) s h i b c fid
@[simp] theorem State.postBytes_wd (s : State) (h i : Nat) (b : List Byte) (c fid : Nat) : (s.postBytes h i b c fid).wd = s.wd :=
  postBytes_keep (fun s => s.wd) (fun s h w => post_wd s h w) s h i b c fid
@[simp] theorem State.postBytes_halt (s : State) (h i : Nat) (b : List Byte) (c fid : Nat) : (s.postBytes h i b c fid).halt = s.halt :=
  postBytes_keep (fun s => s.halt) (fun s h w => post_halt s h w) s h i b c fid
@[simp] theorem State.postBytes_sync (s : State) (h i : Nat) (b : List Byte) (c fid : Nat) : (s.postBytes h i b c fid).sync = s.sync :=
  postBytes_keep (fun s => s.sync) (fun s h w => post_sync s h w) s h i b c fid
@[simp] theorem State.postBytes_log (s : State) (h i : Nat) (b : List Byte) (c fid : Nat) : (s.postBytes h i b c fid).log = s.log :=
  postBytes_keep (fun s => s.log) (fun s h w => post_log s h w) s h i b c fid
@[simp] theorem State.postBytes_ports (s : State) (h i : Nat) (b : List Byte) (c fid : Nat) : (s.postBytes h i b c fid).ports = s.ports :=
  postBytes_keep (fun s => s.ports) (fun s h w => post_ports s h w) s h i b c fid
@[simp] theorem State.postBytes_suites (s : State) (h i : Nat) (b : List Byte) (c fid : Nat) : (s.postBytes h i b c fid).suites = s.suites :=
  postBytes_keep (fun s => s.suites) (fun s h w => post_suites s h w) s h i b c fid
@[simp] theorem State.postBytes_ctxs (s : State) (h i : Nat) (b : List Byte) (c fid : Nat) : (s.postBytes h i b c fid).ctxs = s.ctxs :=
  postBytes_keep (fun s => s.ctxs) (fun s h w => post_ctxs s h w) s h i b c fid
@[simp] theorem State.postBytes_callers (s : State) (h i : Nat) (b : List Byte) (c fid : Nat) : (s.postBytes h i b c fid).callers = s.callers :=
  postBytes_keep (fun s => s.callers) (fun s h w => post_callers s h w) s h i b c fid
@[simp] theorem State.postBytes_groups (s : State) (h i : Nat) (b : List Byte) (c fid : Nat) : (s.postBytes h i b c fid).groups = s.groups :=
  postBytes_keep (fun s => s.groups) (fun s h w => post_groups s h w) s h i b c fid
@[simp] theorem State.postBytes_cellar (s : State) (h i : Nat) (b : List Byte) (c fid : Nat) : (s.postBytes h i b c fid).cellar = s.cellar :=
  postBytes_keep (fun s => s.cellar) (fun s h w => post_cellar s h w) s h i b c fid
@[simp] theorem State.postBytes_lanes (s : State) (h i : Nat) (b : List Byte) (c fid : Nat) : (s.postBytes h i b c fid).lanes = s.lanes :=
  postBytes_keep (fun s => s.lanes) (fun s h w => post_lanes s h w) s h i b c fid
@[simp] theorem State.postBytes_outs (s : State) (h i : Nat) (b : List Byte) (c fid : Nat) : (s.postBytes h i b c fid).outs = s.outs :=
  postBytes_keep (fun s => s.outs) (fun s h w => post_outs s h w) s h i b c fid
@[simp] theorem State.postBytes_confirmed (s : State) (h i : Nat) (b : List Byte) (c fid : Nat) : (s.postBytes h i b c fid).confirmed = s.confirmed :=
  postBytes_keep (fun s => s.confirmed) (fun s h w => post_confirmed s h w) s h i b c fid
@[simp] theorem State.postBytes_rings (s : State) (h i : Nat) (b : List Byte) (c fid : Nat) : (s.postBytes h i b c fid).rings = s.rings :=
  postBytes_keep (fun s => s.rings) (fun s h w => post_rings s h w) s h i b c fid
@[simp] theorem State.postBytes_commits (s : State) (h i : Nat) (b : List Byte) (c fid : Nat) : (s.postBytes h i b c fid).commits = s.commits :=
  postBytes_keep (fun s => s.commits) (fun s h w => post_commits s h w) s h i b c fid
@[simp] theorem State.postBytes_owed (s : State) (h i : Nat) (b : List Byte) (c fid : Nat) : (s.postBytes h i b c fid).owed = s.owed :=
  postBytes_keep (fun s => s.owed) (fun s h w => post_owed s h w) s h i b c fid
@[simp] theorem State.postBytes_droppedChunks (s : State) (h i : Nat) (b : List Byte) (c fid : Nat) : (s.postBytes h i b c fid).droppedChunks = s.droppedChunks :=
  postBytes_keep (fun s => s.droppedChunks) (fun s h w => post_droppedChunks s h w) s h i b c fid
@[simp] theorem State.postBytes_givenUp (s : State) (h i : Nat) (b : List Byte) (c fid : Nat) : (s.postBytes h i b c fid).givenUp = s.givenUp :=
  postBytes_keep (fun s => s.givenUp) (fun s h w => post_givenUp s h w) s h i b c fid
@[simp] theorem State.postBytes_hallway (s : State) (h i : Nat) (b : List Byte) (c fid : Nat) : (s.postBytes h i b c fid).hallway = s.hallway :=
  postBytes_keep (fun s => s.hallway) (fun s h w => post_hallway s h w) s h i b c fid
@[simp] theorem State.postBytes_arrivals (s : State) (h i : Nat) (b : List Byte) (c fid : Nat) : (s.postBytes h i b c fid).arrivals = s.arrivals :=
  postBytes_keep (fun s => s.arrivals) (fun s h w => post_arrivals s h w) s h i b c fid
@[simp] theorem State.postBytes_mgmt (s : State) (h i : Nat) (b : List Byte) (c fid : Nat) : (s.postBytes h i b c fid).mgmt = s.mgmt :=
  postBytes_keep (fun s => s.mgmt) (fun s h w => post_mgmt s h w) s h i b c fid
@[simp] theorem State.postBytes_census (s : State) (h i : Nat) (b : List Byte) (c fid : Nat) : (s.postBytes h i b c fid).census = s.census :=
  postBytes_keep (fun s => s.census) (fun s h w => post_census s h w) s h i b c fid
@[simp] theorem State.postBytes_svc (s : State) (h i : Nat) (b : List Byte) (c fid : Nat) : (s.postBytes h i b c fid).svc = s.svc :=
  postBytes_keep (fun s => s.svc) (fun s h w => post_svc s h w) s h i b c fid
@[simp] theorem State.postBytes_freeCtr (s : State) (h i : Nat) (b : List Byte) (c fid : Nat) : (s.postBytes h i b c fid).freeCtr = s.freeCtr :=
  postBytes_keep (fun s => s.freeCtr) (fun s h w => post_freeCtr s h w) s h i b c fid
@[simp] theorem State.post_ctx (s : State) (h : Nat) (w : HostWrite) (n : Nat) : (s.post h w).ctx n = s.ctx n := by
  simp [ctx]
@[simp] theorem State.msix_ctx (s : State) (h v n : Nat) : (s.msix h v).ctx n = s.ctx n := by
  simp [ctx]
@[simp] theorem State.post_port (s : State) (h : Nat) (w : HostWrite) (n : Nat) : (s.post h w).port n = s.port n := by
  simp [port]
@[simp] theorem State.msix_port (s : State) (h v n : Nat) : (s.msix h v).port n = s.port n := by
  simp [port]
@[simp] theorem State.post_suite (s : State) (h : Nat) (w : HostWrite) (n : Nat) : (s.post h w).suite n = s.suite n := by
  simp [suite]
@[simp] theorem State.msix_suite (s : State) (h v n : Nat) : (s.msix h v).suite n = s.suite n := by
  simp [suite]
@[simp] theorem State.post_grp (s : State) (h : Nat) (w : HostWrite) (n : Nat) : (s.post h w).grp n = s.grp n := by
  simp [grp]
@[simp] theorem State.msix_grp (s : State) (h v n : Nat) : (s.msix h v).grp n = s.grp n := by
  simp [grp]
@[simp] theorem State.post_ext (s : State) (h : Nat) (w : HostWrite) (n : Nat) : (s.post h w).ext n = s.ext n := by
  simp [ext]
@[simp] theorem State.msix_ext (s : State) (h v n : Nat) : (s.msix h v).ext n = s.ext n := by
  simp [ext]

/-- A vector or a write toward one host block leaves every other. -/
theorem State.post_host_ne (s : State) {h g : Nat} (w : HostWrite) (hne : g ≠ h) : (s.post h w).host g = s.host g := by
  simp only [post]
  split <;> exact putHost_host_ne _ _ hne

/-- A write moves no host block's state. -/
@[simp] theorem HostPort.pump_state (x : HostPort) (ats : Bool) (now : Word64) : (x.pump ats now).state = x.state := rfl

/-- A write moves no host block's state. -/
@[simp] theorem State.post_host_state (s : State) (h g : Nat) (w : HostWrite) : ((s.post h w).host g).state = (s.host g).state := by
  simp only [post]
  split <;> (rw [putHost_host]; split <;> simp_all)

/-- A vector moves no host block's state. -/
@[simp] theorem State.msix_host_state (s : State) (h v g : Nat) : ((s.msix h v).host g).state = (s.host g).state := by
  simp only [msix]
  repeat' split
  all_goals first | rfl | simp | (rw [putHost_host]; split <;> simp_all)

/-! ## A free value is drawn -/

@[simp] theorem State.draw_fst (s : State) : s.draw.1 = s.freeCtr := rfl
@[simp] theorem State.draw_pending (s : State) : s.draw.2.pending = s.pending := rfl
@[simp] theorem State.draw_hall (s : State) : s.draw.2.hall = s.hall := rfl
@[simp] theorem State.draw_sled (s : State) : s.draw.2.sled = s.sled := rfl
@[simp] theorem State.draw_fuses (s : State) : s.draw.2.fuses = s.fuses := rfl
@[simp] theorem State.draw_flash (s : State) : s.draw.2.flash = s.flash := rfl
@[simp] theorem State.draw_hearth (s : State) : s.draw.2.hearth = s.hearth := rfl
@[simp] theorem State.draw_thermal (s : State) : s.draw.2.thermal = s.thermal := rfl
@[simp] theorem State.draw_tap (s : State) : s.draw.2.tap = s.tap := rfl
@[simp] theorem State.draw_wd (s : State) : s.draw.2.wd = s.wd := rfl
@[simp] theorem State.draw_halt (s : State) : s.draw.2.halt = s.halt := rfl
@[simp] theorem State.draw_sync (s : State) : s.draw.2.sync = s.sync := rfl
@[simp] theorem State.draw_log (s : State) : s.draw.2.log = s.log := rfl
@[simp] theorem State.draw_hosts (s : State) : s.draw.2.hosts = s.hosts := rfl
@[simp] theorem State.draw_ports (s : State) : s.draw.2.ports = s.ports := rfl
@[simp] theorem State.draw_suites (s : State) : s.draw.2.suites = s.suites := rfl
@[simp] theorem State.draw_ctxs (s : State) : s.draw.2.ctxs = s.ctxs := rfl
@[simp] theorem State.draw_callers (s : State) : s.draw.2.callers = s.callers := rfl
@[simp] theorem State.draw_groups (s : State) : s.draw.2.groups = s.groups := rfl
@[simp] theorem State.draw_cellar (s : State) : s.draw.2.cellar = s.cellar := rfl
@[simp] theorem State.draw_lanes (s : State) : s.draw.2.lanes = s.lanes := rfl
@[simp] theorem State.draw_outs (s : State) : s.draw.2.outs = s.outs := rfl
@[simp] theorem State.draw_confirmed (s : State) : s.draw.2.confirmed = s.confirmed := rfl
@[simp] theorem State.draw_rings (s : State) : s.draw.2.rings = s.rings := rfl
@[simp] theorem State.draw_commits (s : State) : s.draw.2.commits = s.commits := rfl
@[simp] theorem State.draw_owed (s : State) : s.draw.2.owed = s.owed := rfl
@[simp] theorem State.draw_droppedChunks (s : State) : s.draw.2.droppedChunks = s.droppedChunks := rfl
@[simp] theorem State.draw_givenUp (s : State) : s.draw.2.givenUp = s.givenUp := rfl
@[simp] theorem State.draw_hallway (s : State) : s.draw.2.hallway = s.hallway := rfl
@[simp] theorem State.draw_arrivals (s : State) : s.draw.2.arrivals = s.arrivals := rfl
@[simp] theorem State.draw_mgmt (s : State) : s.draw.2.mgmt = s.mgmt := rfl
@[simp] theorem State.draw_census (s : State) : s.draw.2.census = s.census := rfl
@[simp] theorem State.draw_svc (s : State) : s.draw.2.svc = s.svc := rfl

end Sys2Proof.Machine
end

