-- ==== Sys2Proof/WellFormed.lean ====
section
/-! DEFINITION. Which commands are well formed: operands of the sizes and ranges in which a pin, a link, a memory or a host can deliver
them. A command that is not well formed still has a meaning; the checks say which commands can occur. -/

namespace Sys2Proof

/-- A flit is 64 bytes (R366). -/
def flitOk (f : List Byte) : Bool := f.length == 64

/-- A management payload is at most 4,096 bytes (R510). -/
def payloadOk (p : List Byte) : Bool := p.length ≤ 4096

/-- A whole answer to a read of at most `n` bytes. -/
def answerOk (n : Nat) : ReadResult → Bool
  | .ok b => b.length ≤ n
  | _ => true

/-- An operand block is a 32-byte header and a 64-byte entry for each of at most 64 local members (R107). -/
def blockOk : ReadResult → Bool
  | .ok b => b.length ≤ 4128 && b.length % 64 == 32
  | _ => true

/-- A BAR0 offset lies in 2 MiB (R398). -/
def bar0Ok (off : Nat) : Bool := off < 0x200000

/-- A host writes a Cellar unit with one enable for each of its bytes (R338). -/
def enablesOk (data : List Byte) (en : List Bool) : Bool := data.length == 64 && en.length == 64

/-- The checks of a command. -/
def Instr.wf : Instr → Bool
  | .syncExchange _ f => flitOk f
  | .figureFetch _ r => (match r with | .ok b => b.length == 32 | _ => true)
  | .allreduce _ b => blockOk b
  | .reduceScatter _ b => blockOk b
  | .allgather _ b => blockOk b
  | .broadcast _ b => blockOk b
  | .reduce _ b => blockOk b
  | .alltoall _ b => blockOk b
  | .alltoallv _ b cs => blockOk b && cs.length ≤ 64
  | .packetReceived _ h b _ _ => flitOk h && b.length % 64 == 0
  | .sealReceived _ f _ => flitOk f
  | .retractMarker _ f => flitOk f
  | .chunkAck _ f => flitOk f
  | .resendRequest _ f => flitOk f
  | .remoteBellRing _ f => flitOk f
  | .barrierArrival _ f => flitOk f
  | .barrierRelease _ f => flitOk f
  | .peerAbort _ f => flitOk f
  | .frameReceived _ f _ _ => f.length == 832
  | .censusQuery _ f => flitOk f
  | .censusSeen _ f => flitOk f
  | .censusConcurrent _ f => flitOk f
  | .censusSubtreeReply _ fs => fs.all flitOk
  | .censusCommitMessage _ f => flitOk f
  | .censusCommitDone _ f => flitOk f
  | .dmaReadCompletion _ t r => t < 1024 && answerOk 512 r
  | .cxlMemWrite _ _ d e _ => enablesOk d e
  | .bar0UnsupportedAccess _ _ o _ _ => bar0Ok o
  | .registerWrite _ o _ _ => bar0Ok o
  | .rlFieldWrite _ o => bar0Ok o
  | .lowHalfRead _ o => bar0Ok o
  | .leaseExpiry region n => if region then n < 48 else n < 800
  | .groupRetentionTimeout e => e < 800
  | .groupWakeComplete e => e < 800
  | .temperatureUpdate l _ => l.length == 24
  | .badCommand _ _ _ n => n ≤ 4096
  | .getStatus _ _ p => payloadOk p
  | .readRecords _ _ p => payloadOk p
  | .imageWrite _ _ p => payloadOk p
  | .warmReset _ _ p => payloadOk p
  | .liveRestart _ _ p => payloadOk p
  | .fuseRaiseMinVersion _ _ p => payloadOk p
  | .fuseRevokeKey _ _ p => payloadOk p
  | .setWallclock _ _ p => payloadOk p
  | .powerBank _ _ p => payloadOk p
  | .powerUnbank _ _ p => payloadOk p
  | .powerHoldOn _ _ p => payloadOk p
  | .powerHoldOff _ _ p => payloadOk p
  | .grant _ _ p => payloadOk p
  | .release _ _ p => payloadOk p
  | .map _ _ p => payloadOk p
  | .unmap _ _ p => payloadOk p
  | .renew _ _ p => payloadOk p
  | .readExtent _ _ p => payloadOk p
  | .regionCreate _ _ p => payloadOk p
  | .regionRights _ _ p => payloadOk p
  | .regionDelete _ _ p => payloadOk p
  | .keyLoad _ _ p => payloadOk p
  | .keyErase _ _ p => payloadOk p
  | .tokenBucket _ _ p => payloadOk p
  | .suiteWeight _ _ p => payloadOk p
  | .serviceReset _ _ p => payloadOk p
  | .servicePowerDown _ _ p => payloadOk p
  | .serviceEnable _ _ p => payloadOk p
  | .serviceHoldDown _ _ p => payloadOk p
  | .serviceRelease _ _ p => payloadOk p
  | .serviceRetrain _ _ p => payloadOk p
  | .abortContexts _ _ p => payloadOk p
  | .clearCounters _ _ p => payloadOk p
  | .scan _ _ p => payloadOk p
  | .packPush _ _ p => payloadOk p
  | .resume _ _ p => payloadOk p
  | .censusStart _ _ p => payloadOk p
  | .censusRead _ _ p => payloadOk p
  | .censusCommit _ _ p => payloadOk p
  | _ => true

end Sys2Proof
end

