-- ==== Sys2Proof/Tests/Slice0.lean ====
section
/-! SUPPORT. Tests: for each obligation a witness, a concrete state and operands that meet its hypotheses and what the command makes of them; an
image and a pattern pack signed outside the model, which pass their checks; and the commands that WellFormed refuses. -/

set_option linter.unusedTactic false
set_option linter.unreachableTactic false

set_option maxRecDepth 100000
set_option Elab.async false

namespace Sys2Proof.Tests

open Sys2Proof.Machine

/-! ## A small engine: leaf engine 16 of the Hall, one Suite over every host port -/

/-- What a command leaves. -/
def after (c : Instr) (s : State) : State := nextOr s (exec c s)

/-- A configuration: CXL.mem on host port 1, ATS on port 2, the epoch SYNC uses; `use` sets the SYNC uses and `master` the role. -/
def tconfig (use master : Nat) : List Byte :=
  fields 512 [(0, 4, 0x47464E43), (4, 2, 1), (7, 1, master), (8, 2, 7), (0xB, 1, use), (0xC, 2, 0xFFFF), (0xE, 2, 2), (0x10, 2, 4),
    (0x14, 8, 2 ^ 36 - 1), (0x1C, 4, 100000), (0x20, 1, 0xFF), (0x21, 1, 10), (0x22, 2, 100), (0x24, 4, 10000), (0x28, 2, 30),
    (0x2A, 2, 16), (0x2C, 2, 1), (0x100, 2, 0xFFFF), (0x102, 2, 0), (0x104, 2, 256), (0x106, 2, 0), (0x108, 2, 800), (0x10A, 1, 1)]

/-- The Hearth of an engine that runs. -/
def thearth : Hearth :=
  { startup := .ready, config := tconfig 5 1, slotId := 0, roomId := 2, smbusOn := true, locked := true, syncOut := .low }

/-- An engine that is Ready: three hosts served, one context Idle under tenant 5, one extent granted to host 0 and one to host 1, a fabric
manager's session open. -/
def ready : State :=
  { hearth := thearth
    hall := 5000
    wd := { state := .armed }
    sync := { status := .synced, depth := 0 }
    hosts := [(0, { state := .serving, barsAssigned := true, busMaster := true, everServed := true, window := [(0, 8)] }),
      (1, { state := .serving, barsAssigned := true, busMaster := true, everServed := true, hdmCommitted := true, window := [(0, 9)] }),
      (2, { state := .serving, barsAssigned := true, busMaster := true, everServed := true })]
    suites := [(0, { state := .serving })]
    ctxs := [(0, { state := .idle, asg := { tenant := 5, valid := true } })]
    cellar := { extents := [(8, { state := .granted, owner := .host 0, leaseS := 30, leftMs := 30000, power := .awake }),
                  (9, { state := .granted, owner := .host 1, leaseS := 30, leftMs := 30000, power := .awake })]
                keys := [(0, [1]), (17, [1])] }
    mgmt := { sessions := [⟨7, none, 0, 0⟩], nextSession := 8 } }

/-- `ready` with host block 0 as given. -/
def withHost (x : HostPort) : State := { ready with hosts := [(0, x)] }

/-- A host block whose link serves. -/
def served : HostPort := { state := .serving, barsAssigned := true, busMaster := true, everServed := true }

/-! ## The sled, the resets, the die (O1 to O5) -/

/-- A sled whose path stands at `p`. -/
def sledAt (p : PowerPath) (mated : Bool) (mv : Nat) : State := { sled := { path := p, prsntLow := mated, inputMv := mv } }

theorem witness_PowerPathAdvances :
    ((sledAt .off false 48000).sled.path = .off ∧ 48000 ≤ (sledAt .off false 48000).sled.inputMv ∧
      (after .prsntNMate (sledAt .off false 48000)).sled.path = .debounce) ∧
    ((sledAt .debounce true 56000).sled.inputMv ≤ 56000 ∧ (after .prsntDebounceComplete (sledAt .debounce true 56000)).sled.path = .charging) ∧
    (after .bulkChargeComplete (sledAt .charging true 54000)).sled.path = .sequencing ∧
    (after (.inputVoltageReturn 48000) (sledAt .off true 0)).sled = { path := .debounce, inputMv := 48000 } ∧
    (after (.inputVoltageReturn 56000) (sledAt .off false 0)).sled = { path := .off, prsntLow := false, inputMv := 56000 } ∧
    (after .prsntNMate (sledAt .off false 47999)).sled.path = .off := by decide

theorem witness_ResetsAndPowerLoss :
    ((sledAt .sequencing true 54000).sled.path = .sequencing ∧ (after .powerOnReset (sledAt .sequencing true 54000)).sled.path = .on) ∧
    (ready.sled.path = .on ∧ (after .refclkLoss ready).hall = 0 ∧ (after .refclkLoss ready).hosts = [] ∧
      (after .refclkLoss ready).sled.refclk = false) ∧
    (after .refclkRestored (after .refclkLoss ready)).sled = {} ∧
    (after .refclkLoss (sledAt .charging true 54000)).sled.refclk = false ∧
    (after .prsntNBreak ready).sled = { path := .off, prsntLow := false } ∧ (after .prsntNBreak ready).ctxs = [] ∧
    (after (.inputVoltageFault 43999) ready).sled = { path := .off, inputMv := 43999 } ∧
    (after (.inputVoltageFault 60001) ready).sled.path = .off ∧ (after (.inputVoltageFault 44000) ready).hall = 5000 ∧
    (after (.inputVoltageFault 60000) ready).hall = 5000 ∧
    (after (.temperatureUpdate [100, 460, 3] 750) ready).sled.path = .off ∧
    (after (.temperatureUpdate [100, 459, 3] 750) ready).thermal.tj = 459 := by decide +kernel

/-- An engine whose slot 3 has missed its period once. -/
def missing : State := { ready with wd := { state := .armed, streak := 1, checked := 0xF7 } }

theorem witness_ResetsLeaveNothingGranted :
    (ready.mgmtOn = true ∧ ready.fmSession (some 7) = true ∧ (after (.warmReset (some 7) 1 []) ready).cellar.extents = [] ∧
      (after (.warmReset (some 7) 1 []) ready).hearth.startup = .reset) ∧
    (missing.wdMissed ≠ 0 ∧ 0 < missing.wd.streak ∧ (after .watchdogPeriodEnd missing).cellar.keys = [] ∧
      (after .watchdogPeriodEnd missing).hearth.bootReason = .watchdog 0x08) := by decide +kernel

/-- A die at a temperature, CCLK at a frequency. -/
def dieAt (tj : Int) (mhz : Nat) : State := { ready with thermal := { tj := tj, cclkMHz := mhz } }

theorem witness_ThermalAndTap :
    ((after .throttleStepDown (dieAt 380 1600)).thermal.cclkMHz = 1500 ∧ (after .throttleStepDown (dieAt 380 1600)).thermal.throttling = true ∧
      (after .throttleStepDown (dieAt 380 850)).thermal.cclkMHz = 800 ∧ (after .throttleStepDown (dieAt 379 1600)).thermal.cclkMHz = 1600 ∧
      (after .throttleStepDown (dieAt 400 800)).thermal.cclkMHz = 800) ∧
    ((after .throttleStepUp (dieAt 368 1500)).thermal.cclkMHz = 1600 ∧ (after .throttleStepUp (dieAt 369 1500)).thermal.cclkMHz = 1500) ∧
    ((dieAt 420 1600).hearth.startup = .ready ∧ (dieAt 420 1600).halt.state = .running ∧ (after .thermalHalt (dieAt 420 1600)).halt.state = .halting ∧
      (after .thermalHalt (dieAt 420 1600)).thermal.thermalHalt = true) ∧
    ((after .thermalHalt { dieAt 420 1600 with halt := { state := .halted } }).halt.state = .halted) ∧
    (after (.tapInstruction 0x01) ready).tap = { instr := 0x01 } ∧ (after (.tapInstruction 0x77) ready).tap.instr = 0xFF ∧
    (after (.tapInstruction 0x00) State.reset).tap = { instr := 0x00, drivesPins := true } ∧
    (after (.tapInstruction 0x00) State.reset).halt.state = .running ∧
    (after (.tapHaltInstruction 0x09) ready).halt.state = .halting ∧ (after .tapReset ready).tap.instr = 0x01 := by decide +kernel

theorem witness_PinsSampledOnce :
    (State.reset.hearth.startup = .reset ∧ (after (.resetEnd 3 5) State.reset).engineId = 43 ∧
      (after (.resetEnd 7 31) State.reset).hearth.roomId = 31) ∧
    (ready.hearth.startup ≠ .reset ∧ (after (.resetEnd 3 5) ready).hearth.slotId = 0) := by decide +kernel

/-! ## A signed image -/

/-- Bytes 0x0 on. -/
def timage0 : List Byte := [79, 90, 78, 73, 1, 0, 0, 2, 18, 4, 0, 0, 3, 0, 0, 0, 9, 0, 0, 0, 0, 2, 0, 0, 16, 0, 0, 0, 16, 2, 0, 0, 0, 2, 0, 0, 16, 4, 0, 0, 2, 0, 0, 0, 1, 3, 0, 0, 0, 0, 0, 0, 0, 0, 0, 0, 0, 0, 0, 0, 0, 0, 0, 0]
/-- Bytes 0x100 on. -/
def timage4 : List Byte := [4, 122, 233, 225, 219, 17, 96, 121, 76, 112, 193, 239, 7, 27, 229, 25, 31, 108, 102, 36, 15, 70, 8, 251, 232, 164, 78, 205, 54, 195, 237, 93, 185, 117, 0, 242, 228, 216, 78, 63, 180, 88, 80, 253, 111, 67, 3, 48, 43, 216, 172, 33, 68, 76, 216, 13, 36, 21, 56, 216, 3, 75, 57, 154]
/-- Bytes 0x140 on. -/
def timage5 : List Byte := [13, 238, 54, 54, 235, 92, 176, 11, 148, 153, 208, 97, 165, 113, 219, 15, 20, 187, 71, 237, 121, 69, 57, 72, 237, 99, 243, 166, 204, 187, 246, 231, 79, 0, 0, 0, 0, 0, 0, 0, 0, 0, 0, 0, 0, 0, 0, 0, 0, 0, 0, 0, 0, 0, 0, 0, 0, 0, 0, 0, 0, 0, 0, 0]
/-- Bytes 0x180 on. -/
def timage6 : List Byte := [112, 43, 246, 218, 213, 237, 62, 189, 32, 149, 155, 41, 196, 236, 133, 10, 125, 27, 1, 163, 129, 52, 155, 26, 221, 29, 95, 198, 193, 163, 165, 42, 238, 109, 175, 5, 250, 123, 165, 48, 9, 79, 146, 216, 201, 61, 111, 86, 163, 75, 227, 83, 60, 166, 101, 6, 56, 37, 105, 85, 184, 56, 171, 215]
/-- Bytes 0x1c0 on. -/
def timage7 : List Byte := [161, 189, 51, 140, 127, 47, 219, 24, 17, 1, 193, 93, 15, 197, 201, 216, 118, 168, 13, 131, 30, 233, 90, 47, 17, 199, 90, 6, 170, 107, 228, 52, 0, 0, 0, 0, 0, 0, 0, 0, 0, 0, 0, 0, 0, 0, 0, 0, 0, 0, 0, 0, 0, 0, 0, 0, 0, 0, 0, 0, 55, 31, 229, 4]
/-- Bytes 0x200 on. -/
def timage8 : List Byte := [79, 90, 78, 32, 102, 105, 114, 109, 119, 97, 114, 101, 32, 49, 0, 0, 67, 78, 70, 71, 1, 0, 0, 1, 7, 0, 0, 5, 255, 255, 2, 0, 4, 0, 0, 0, 255, 255, 255, 255, 15, 0, 0, 0, 160, 134, 1, 0, 255, 10, 100, 0, 16, 39, 0, 0, 30, 0, 16, 0, 1, 0, 0, 0]
/-- Bytes 0x300 on. -/
def timage12 : List Byte := [0, 0, 0, 0, 0, 0, 0, 0, 0, 0, 0, 0, 0, 0, 0, 0, 255, 255, 0, 0, 0, 1, 0, 0, 32, 3, 1, 0, 0, 0, 0, 0, 0, 0, 0, 0, 0, 0, 0, 0, 0, 0, 0, 0, 0, 0, 0, 0, 0, 0, 0, 0, 0, 0, 0, 0, 0, 0, 0, 0, 0, 0, 0, 0]
/-- An image signed with a test key (FIPS 186-5): a header, 16 bytes of firmware, a configuration, an empty retire list (R68, R71). The key's
private half is 0x1234567; key, signature and checksum were computed from the standards outside this model. -/
def timage : List Byte :=
  timage0 ++ List.replicate 64 0 ++ List.replicate 64 0 ++ List.replicate 64 0 ++ timage4 ++ timage5 ++ timage6 ++ timage7 ++ timage8 ++ List.replicate 64 0 ++ List.replicate 64 0 ++ List.replicate 64 0 ++ timage12 ++ List.replicate 64 0 ++ List.replicate 64 0 ++ List.replicate 64 0 ++ List.replicate 18 0
/-- SHA-384 of the key. -/
def tkeyHash : BitVec 384 := 0xf8ff926584fa072475d878e9f499b0a4d7146994b148d98b7ec760b8e4cb1467535eacecf9ae072f3b79dccc277db5c3

/-- An engine that loads that image from slot A. -/
def loading : State :=
  { hearth := { startup := .loading, smbusOn := true }, fuses := { keyHash0 := tkeyHash },
    flash := { mem := (List.range timage.length).zip timage } }

/-- Reading a flash whose bytes are listed from address `n` on. -/
theorem read_listed (d : Byte) (l : List Byte) : ∀ n i, i < l.length → memRead d ((List.range' n l.length).zip l) (n + i) = l.getD i d := by
  induction l with
  | nil => intro n i h; simp at h
  | cons v l ih =>
    intro n i h
    cases i with
    | zero => simp [List.range'_succ, memRead]
    | succ i =>
      have hi : i < l.length := by simpa using h
      have e : n + (i + 1) = (n + 1) + i := by omega
      simp [List.range'_succ, memRead, e, ih (n + 1) i hi, show n ≠ n + 1 + i by omega]

theorem timage_length : timage.length = 1042 := by decide +kernel

/-- A read of the flash is a run of the image. -/
theorem loading_read (off len : Nat) (h : off + len ≤ 1042) : loading.flashBytes off len = (timage.drop off).take len := by
  apply List.ext_getElem
  · simp [State.flashBytes, memBytes, timage_length]; omega
  · intro i h1 h2
    have hi : off + i < timage.length := by
      simp only [State.flashBytes, memBytes, List.length_map, List.length_range] at h1
      rw [timage_length]
      omega
    have hr := read_listed Config.erasedByte timage 0 (off + i) hi
    simp only [Nat.zero_add, ← List.range_eq_range'] at hr
    simp only [State.flashBytes, memBytes, List.getElem_map, List.getElem_range, loading, hr, List.getElem_take, List.getElem_drop]
    simp [List.getD_eq_getElem?_getD, hi]

/-- The image's own description of itself. -/
theorem loading_header :
    loading.imgTotal false = 1042 ∧ loading.imgFw false = (0x200, 16) ∧ loading.imgCfg false = (0x210, 0x200) ∧
    loading.imgRet false = (0x410, 2) := by
  simp only [State.imgTotal, State.imgFw, State.imgCfg, State.imgRet, State.imgField, slotBase, Bool.false_eq_true, if_false, Nat.zero_add]
  simp only [loading_read _ _ (show 0x008 + 4 ≤ 1042 by decide), loading_read _ _ (show 0x014 + 4 ≤ 1042 by decide),
    loading_read _ _ (show 0x018 + 4 ≤ 1042 by decide), loading_read _ _ (show 0x01C + 4 ≤ 1042 by decide),
    loading_read _ _ (show 0x020 + 4 ≤ 1042 by decide), loading_read _ _ (show 0x024 + 4 ≤ 1042 by decide),
    loading_read _ _ (show 0x028 + 4 ≤ 1042 by decide)]
  decide +kernel

theorem loading_config : loading.imgConfig false = (timage.drop 0x210).take 0x200 := by
  simp only [State.imgConfig, State.imgBytes, slotBase, Bool.false_eq_true, if_false, Nat.zero_add, loading_header.2.2.1]
  exact loading_read _ _ (by decide)

theorem loading_retire : loading.imgRetire false = [] := by
  simp only [State.imgRetire, State.imgBytes, slotBase, Bool.false_eq_true, if_false, Nat.zero_add, loading_header.2.2.2,
    loading_read _ _ (show 0x410 + 2 ≤ 1042 by decide)]
  decide +kernel

theorem loading_layout : loading.imgLayout false = true := by
  simp only [State.imgLayout, loading_header, State.imgField, State.imgBytes, slotBase, Bool.false_eq_true, if_false, Nat.zero_add,
    loading_read _ _ (show 0x410 + 2 ≤ 1042 by decide), loading_read _ _ (show 0x02F + 209 ≤ 1042 by decide),
    loading_read _ _ (show 0x161 + 31 ≤ 1042 by decide), loading_read _ _ (show 0x1E0 + 28 ≤ 1042 by decide)]
  decide +kernel

/-- The SHA-384 of everything that is signed, as the standard gives it. -/
theorem timage_hash : sha384Nat (timage.take 0x180 ++ (timage.drop 0x200).take 530) = 0x6f6f71958189030cca0d4a05729d428a6a999d2e41a6ac2eb17bc8faf984058ff6a962cc8fd0578053c6e53ad60671c := by decide +kernel

theorem timage_signature : ecdsaVerify ((timage.drop 0x100).take 97) 0x6f6f71958189030cca0d4a05729d428a6a999d2e41a6ac2eb17bc8faf984058ff6a962cc8fd0578053c6e53ad60671c ((timage.drop 0x180).take 96) = true := by decide +kernel

theorem timage_config : configOk ((timage.drop 0x210).take 0x200) = true := by decide +kernel

theorem timage_key : loading.keyOk 0 ((timage.drop 0x100).take 97) = true := by decide +kernel

theorem loading_check : loading.imageCheck false (some 64) true = none := by
  have hs : (timage.drop 0).take 0x180 = timage.take 0x180 := rfl
  simp only [State.imageCheck, loading_layout, loading_config, loading_retire, loading_header, State.imgField, State.imgBytes, slotBase,
    Bool.false_eq_true, if_false, Nat.zero_add, loading_read _ _ (show 0 + 4 ≤ 1042 by decide), loading_read _ _ (show 4 + 2 ≤ 1042 by decide),
    loading_read _ _ (show 6 + 2 ≤ 1042 by decide), loading_read _ _ (show 0 + 0x1FC ≤ 1042 by decide),
    loading_read _ _ (show 0x1FC + 4 ≤ 1042 by decide), loading_read _ _ (show 0x02C + 1 ≤ 1042 by decide),
    loading_read _ _ (show 0x02D + 1 ≤ 1042 by decide), loading_read _ _ (show 0x02E + 1 ≤ 1042 by decide),
    loading_read _ _ (show 0x100 + 97 ≤ 1042 by decide), loading_read _ _ (show 0x00C + 4 ≤ 1042 by decide),
    loading_read _ _ (show 0 + 0x180 ≤ 1042 by decide), loading_read _ _ (show 0x200 + (1042 - 0x200) ≤ 1042 by decide),
    loading_read _ _ (show 0x180 + 96 ≤ 1042 by decide), hs, Nat.reduceSub, timage_hash, timage_signature, timage_config]
  have hk : le (List.take 1 (List.drop 46 timage)) 0 1 = 0 := by decide +kernel
  simp only [hk, timage_key]
  decide +kernel

/-! ## Start-up (O6, O7) -/

/-- Nothing but zeros where the image's magic number should stand. -/
def blank (b : Bool) : State :=
  { hearth := { startup := .loading, smbusOn := true, loadingB := b }
    flash := { mem := (List.range 8).map (fun i => ((if b then 0x400000 else 0) + i, 0)) } }

/-- An image that passes its checks starts Locking. -/
theorem image_locks (s : State) (mib : Option Nat) (ok : Bool) (h : s.hearth.startup = .loading) (hc : s.imageCheck s.hearth.loadingB mib ok = none) :
    (after (.imageLoadComplete mib ok) s).hearth.startup = .locking := by
  have e : exec (.imageLoadComplete mib ok) s = execImageLoadComplete mib ok s := rfl
  have hi : ∀ b : Bool, (if b = true then ({ s with wd := { s.wd with checked := s.wd.checked ||| 0x01 } } : State) else s).imageCheck
      s.hearth.loadingB mib ok = none := by
    intro b
    cases b <;> exact hc
  simp only [after, e, execImageLoadComplete, h, hi]
  cases s.blocksRead s.hearth.loadingB mib <;> rfl

theorem witness_ImageLoading :
    (loading.hearth.startup = .loading ∧ (after (.imageLoadComplete (some 64) true) loading).hearth.startup = .locking) ∧
    ((blank false).imageCheck false none true = some 1 ∧ (after (.imageLoadComplete none true) (blank false)).hearth.startup = .bootFailed ∧
      (after (.imageLoadComplete none true) (blank false)).hearth.alert = true) ∧
    ((blank true).imageCheck true (some 32) true = some 2 ∧ (after (.imageLoadComplete (some 32) true) (blank true)).hearth.startup = .bootFailed) ∧
    ((blank false).imageCheck false (some 128) true = some 2 ∧
      (after (.imageLoadComplete (some 128) true) (blank false)).hearth.startup = .loading ∧
      (after (.imageLoadComplete (some 128) true) (blank false)).hearth.loadingB = true) := by
  exact ⟨⟨rfl, image_locks _ _ _ rfl loading_check⟩, by decide +kernel⟩

/-- An engine at a start-up state, its room and its configuration's role byte as given. -/
def bootAt (st : Startup) (room : BitVec 5) (cfg : List Byte) : State :=
  { hearth := { startup := st, config := cfg, slotId := 0, roomId := room, smbusOn := true, locked := st == .scrubbing || st == .training || st == .syncing } }

/-- Three neighbours have announced themselves in Syncing: two Synced at depth 1, one at depth 3. -/
def offered (use master : Nat) : State :=
  { bootAt .syncing 2 (tconfig use master) with ports := [(3, { state := .upNoCensus, nbrStatus := some (.synced, 1, 40) }),
      (4, { state := .up, nbrStatus := some (.synced, 1, 41) }), (5, { state := .up, nbrStatus := some (.synced, 3, 42) })] }

theorem witness_LockingToReady :
    ((bootAt .locking 2 (tconfig 5 1)).cfg 6 1 = 0 ∧ (after .lockingComplete (bootAt .locking 2 (tconfig 5 1))).hearth.startup = .scrubbing ∧
      (after .lockingComplete (bootAt .locking 2 (tconfig 5 1))).hearth.locked = true) ∧
    ((after .lockingComplete (bootAt .locking 16 (tconfig 5 1))).hearth.startup = .held ∧
      (after .lockingComplete (bootAt .locking 18 (tconfig 5 1))).hearth.startup = .held) ∧
    ((bootAt .scrubbing 2 (tconfig 5 1)).extUsable 799 = true ∧
      (after (.scrubComplete [(799, 31)]) (bootAt .scrubbing 2 (tconfig 5 1))).hearth.startup = .training ∧
      (after (.scrubComplete [(799, 31)]) (bootAt .scrubbing 2 (tconfig 5 1))).hearth.disabledMap = [799] ∧
      (after (.scrubComplete [(799, 31)]) (bootAt .scrubbing 2 (tconfig 5 1))).cellar.staging = (List.range 16).map (fun i => 783 + i)) ∧
    ((after (.scrubComplete []) { bootAt .scrubbing 2 (tconfig 5 1) with halt := { assertedA := true, atStart := true } }).hearth.startup =
      .haltedAtStart) ∧
    ((after .trainingPhaseEnd (bootAt .training 2 (tconfig 5 1))).hearth.startup = .syncing) ∧
    ((after .counterMasterTimeout (bootAt .syncing 2 (tconfig 5 1))).hearth.startup = .ready ∧
      (after .counterMasterTimeout (bootAt .syncing 2 (tconfig 5 1))).sync.status = .synced) ∧
    ((offered 5 0).portUp 3 = true ∧ (offered 5 0).offersCount 3 = some 1 ∧ (offered 5 0).offersCount 4 = some 1 ∧ (offered 5 0).offersCount 5 = none ∧
      (after (.syncingComplete 3 77) (offered 5 0)).hall = 77 ∧ (after (.syncingComplete 3 77) (offered 5 0)).sync.source = some 3 ∧
      (after (.syncingComplete 3 77) (offered 5 0)).sync.depth = 2 ∧ after (.syncingComplete 4 77) (offered 5 0) = offered 5 0 ∧
      (after (.syncingComplete 3 77) (offered 5 1)).sync.depth = 0) := by
  decide +kernel

/-! ## Watchdog, halt, power, the hall count (O8 to O11) -/

/-- An armed watchdog at a count, with slots checked in. -/
def wdAt (count : Word32) (checked : BitVec 8) (streak : Nat) (w : WdState) : State :=
  { ready with wd := { state := w, count := count, checked := checked, streak := streak } }

theorem witness_WatchdogPeriods :
    ((after (.watchdogCheckIn 3 0) (wdAt 9 0 0 .armed)).wd.badKeys = 1) ∧
    (bit (wdAt 9 0 0 .armed).wdMask 3 = true ∧ (after (.watchdogCheckIn 3 (0x6009 ^^^ 0xC35A)) (wdAt 9 0 0 .armed)).wd.checked = 0x08 ∧
      (after (.watchdogCheckIn 7 (0xFFFF ^^^ 0xC35A)) (wdAt 0 0 0 .armed)).wd.checked = 0x80) ∧
    (bit State.reset.wdMask 3 = false ∧ (after (.watchdogCheckIn 3 (0x6000 ^^^ 0xC35A)) State.reset).wd.disabledCheckins = 1) ∧
    ((wdAt 9 0xFF 3 .fenced).wdMissed = 0 ∧ (after .watchdogPeriodEnd (wdAt 9 0xFF 3 .fenced)).wd = { state := .fencedClean, count := 10 }) ∧
    ((wdAt 0xFFFFFFFF 0xF7 0 .armed).wdMissed = 8 ∧ (after .watchdogPeriodEnd (wdAt 0xFFFFFFFF 0xF7 0 .armed)).wd =
      { state := .fenced, count := 0, streak := 1, lastMissed := 8 } ∧ (after .watchdogPeriodEnd (wdAt 0xFFFFFFFF 0xF7 0 .armed)).hearth.alert = true) ∧
    ((after .watchdogPeriodEnd (wdAt 9 0xF7 1 .fenced)).hearth.startup = .reset) := by decide +kernel

/-- A running engine with its halt inputs and halt state. -/
def haltAt (a b : Bool) (h : HaltState) : State := { ready with halt := { assertedA := a, assertedB := b, state := h } }

theorem witness_Halts :
    ((after (.haltInputChange false true 3) (haltAt false false .running)).halt = { assertedA := true }) ∧
    ((haltAt true false .running).haltWindowUs = 10000 ∧ (after (.haltInputChange true true 9999) (haltAt true false .running)).halt =
      { assertedA := true, assertedB := true, state := .halting }) ∧
    ((after .haltDiscrepancyExpiry (haltAt false true .running)).halt = { assertedB := true, faultFound := true, state := .halting } ∧
      ((after .haltDiscrepancyExpiry (haltAt false true .running)).log.ring.map (fun r => r.detail.toNat)) = [10000 + 2 * 2 ^ 28]) ∧
    ((after .haltDiscrepancyExpiry (haltAt true true .running)).halt.faultFound = false) ∧
    ((after .haltGraceExpiry (haltAt true true .halting)).halt.state = .halted ∧
      (after .haltGraceExpiry (haltAt true true .halting)).hearth.syncOut = .highZ) ∧
    ((after .haltGraceExpiry (haltAt false false .running)).halt.state = .running) ∧
    ((haltAt false false .resuming).isReady = true ∧ (after .resumeComplete (haltAt false false .resuming)).halt.state = .running) := by
  decide +kernel

/-- The context of `ready` in another condition. -/
def withCtx (x : Context) : State := { ready with ctxs := [(0, x)] }

/-- A Figure in flight. -/
def flight (k : FlightKind) : Flight := { fid := 4, idx := 2, opcode := 0x30, pass := 0, cpl := false, irq := false, issuedAt := 100, kind := k }

/-- A Waiting context with one Figure in flight. -/
def busy (k : FlightKind) : State :=
  withCtx { state := .waiting, asg := { tenant := 5, valid := true }, nextFid := 5, pc := 3, run := { len := 9 }, flights := [flight k] }

/-- The same in another power state. -/
def powered (p : Power) (s : State) : State := { s with hearth := { s.hearth with power := p } }

theorem witness_PowerStates :
    (ready.isReady = true ∧ ready.activeHold = false ∧ ready.quiet = true ∧ ready.ctxs.all (fun x => ready.dozeIdle x.1) = true ∧
      (after .dozeEntry ready).hearth.power = .doze) ∧
    ((powered .active { ready with hearth := { thearth with mgmtHold := true } }).activeHold = true ∧
      (after .dozeEntry { ready with hearth := { thearth with mgmtHold := true } }).hearth.power = .active) ∧
    ((after .dozeWakeComplete (powered .dozeWaking ready)).hearth.power = .active) ∧
    ((powered .doze (busy (.waitCount 9000))).earliestCount = some 9000 ∧ (after .waitCountWake (powered .doze (busy (.waitCount 9000)))).now = 7500 ∧
      (after .waitCountWake (powered .doze (busy (.waitCount 6000)))).now = 5000 ∧
      (after .waitCountWake (powered .doze (busy (.waitCount 9000)))).hearth.power = .dozeWaking) ∧
    ((after .bankedEntryComplete (powered .banking ready)).hearth.power = .banked ∧
      (after .bankedEntryComplete (powered .banking ready)).isReady = false ∧
      (after .bankedEntryComplete (powered .banking ready)).cellar.extents = []) := by decide +kernel

/-- The hall count at `n`, the SYNC uses `use`. -/
def syncAt (n : Word64) (use master : Nat) : State := { ready with hall := n, hearth := { thearth with config := tconfig use master } }

/-- The engine's ports 3 and 4 Up. -/
def linked (use master : Nat) : State :=
  { syncAt 5000 use master with ports := [(3, { state := .up, upTime := 10 }), (4, { state := .up, upTime := 10 })] }

theorem witness_SyncAndEpochs :
    ((syncAt 0x300000 4 1).syncUse 2 = true ∧ (syncAt 0x300000 4 1).syncUse 1 = false ∧
      (after .epochPulse (syncAt 0x300000 4 1)).sync.pulseEnd = some 0x300400 ∧ (after .epochPulse (syncAt 0x300000 4 1)).hearth.syncOut = .high) ∧
    ((after .syncInEpochEdge (syncAt 0x30000A 1 1)).hearth.epochErrors = 0 ∧ (after .syncInEpochEdge (syncAt 0x30000B 1 1)).hearth.epochErrors = 1 ∧
      (after .syncInEpochEdge (syncAt 0x2FFFF5 1 1)).hearth.epochErrors = 1) ∧
    ((({ busy (.barrier 0 1 0 0 none true) with
        hearth := { thearth with config := tconfig 2 1, syncOut := .high } } : State).syncUse 1 = true) ∧
      ((after .syncInWireEdge { busy (.barrier 0 1 0 0 none true) with
        hearth := { thearth with config := tconfig 2 1, syncOut := .high } }).ctx 0).flights.map (fun f => f.kind) =
        [.barrier 0 1 0 0 (some 7168) true]) ∧
    ((busy (.barrier 0 1 0 0 (some 7168) true)).wireWaits = [(0, 4, 7168)] ∧
      ((after .wireBarrierComplete (busy (.barrier 0 1 0 0 (some 7168) true))).ctx 0).flights = [] ∧
      (after .wireBarrierComplete (busy (.barrier 0 1 0 0 (some 7168) true))).now = 7168) ∧
    ((linked 5 0).master = false ∧
      FMap.find (after .syncExchangeTimer { linked 5 0 with sync := { status := .synced, depth := 1, source := some 3 } }).sync.requests 3 = some (0, 5000) ∧
      ((after .syncExchangeTimer { linked 5 0 with sync := { status := .synced, depth := 1, source := some 3 } }).port 3).vc1.length = 1) ∧
    (ctlOk 0x13 (ctlFlit 0x13 1 [(4, 1, 1)]) = true ∧
      ((after (.syncExchange 3 (ctlFlit 0x13 1 [(3, 1, 2), (4, 1, 3), (5, 1, 7)])) (linked 5 1)).port 3).nbrStatus = some (.holdover, 2, 7) ∧
      ((after (.syncExchange 3 (ctlFlit 0x13 1 [(4, 1, 1)])) (linked 5 1)).port 3).vc1.length = 1) ∧
    (ctlOk 0x13 (ctlFlit 0x14 1 []) = false ∧ ((after (.syncExchange 3 (ctlFlit 0x14 1 [])) (linked 5 1)).port 3).cnt.badControl = 1) := by
  decide +kernel

/-! ## Host ports and the Porch (O12 to O15) -/

theorem witness_HostLinkUpAndDown :
    ((0 ∈ (withHost { state := .detect }).hostIndices ∧ ((withHost { state := .detect }).host 0).trains = true ∧
      (withHost { state := .detect }).portsOpen = true) ∧
      ((after (.hostLinkUp 0 6 16) (withHost { state := .detect })).host 0).state = .serving ∧
      ((after (.hostLinkUp 0 1 16) (withHost { state := .detect })).host 0).rate = 1 ∧
      ((after (.hostLinkUp 0 6 4) { bootAt .training 2 (tconfig 5 1) with hosts := [(0, { state := .detect })] }).host 0).state = .upNotReady) ∧
    (((after (.hostLinkDown 0) ready).host 0).state = .linkLost ∧ ((after (.hostLinkDown 0) ready).ext 8).state = .fenced ∧
      ((after (.hostLinkDown 0) ready).ext 9).state = .granted ∧ ((after (.hostLinkDown 0) ready).host 0).busMaster = false) ∧
    (((after (.hostWidthChange 0 8) ready).host 0).width = 8 ∧ ((after (.hostWidthChange 0 99) ready).host 0).width = ready.fullWidth 0) := by
  decide +kernel

theorem witness_HostConfigurationAndSession :
    (((withHost { served with barsAssigned := false }).host 0).blocked = false ∧
      ((after (.configRequest 0 .assignBars) (withHost { served with barsAssigned := false })).host 0).barsAssigned = true ∧
      ((after (.configRequest 0 (.busMaster false)) ready).host 0).busMaster = false ∧
      ((after (.configRequest 0 (.busMaster true)) (withHost { served with busMaster := false })).host 0).busMaster = true ∧
      ((after (.configRequest 0 (.completionTimeout 10000)) ready).host 0).timeoutUs = 10000 ∧
      ((after (.configRequest 0 (.completionTimeout 9999)) ready).host 0).timeoutUs = 20000 ∧
      ((after (.configRequest 0 (.tag14 true)) (withHost { served with rate := 6 })).host 0).tag14 = true ∧
      ((after (.configRequest 0 (.tag14 true)) (withHost { served with rate := 5 })).host 0).tag14 = false) ∧
    ((after (.configRequest 0 .read) (withHost { state := .upNotReady })).host 0).cpl = .rrs ∧
    (((after (.configRequest 0 .read) (withHost { served with blocked := true })).host 0).cpl = .ca ∧
      ((after (.configRequest 0 .read) (withHost { served with blocked := true })).host 0).targetResets = 1) ∧
    (ready.hostServing 0 = true ∧
      ((after (.hostSessionEstablished 0 5) { ready with cellar := { extents := [(3, { state := .fenced, owner := .host 0, identity := 5 }),
        (4, { state := .fenced, owner := .host 0, identity := 6 })] } }).cellar.extents.map (fun x => x.2.state)) = [.granted, .fenced] ∧
      (after (.hostSessionEstablished 0 5) ready).mgmt.sessions = [⟨7, none, 0, 0⟩, ⟨8, some 0, 5, 5000⟩]) := by decide +kernel

/-- A host block with one read outstanding. -/
def reading (abandoned timedOut : Bool) : State :=
  withHost { served with busMaster := false, tags := [{ tag := 9, req := ⟨0x1000, 64, .move 0 4 0⟩, issuedAt := 100, threshold := 1500, abandoned := abandoned, timedOut := timedOut }] }

theorem witness_PorchReadsAndWrites :
    ((((reading true false).host 0).tag? 9).isSome = true ∧ ((after (.dmaReadCompletion 0 9 .ur) (reading true false)).host 0).droppedReplies = 1 ∧
      ((after (.dmaReadCompletion 0 9 (.ok [1])) (reading false true)).host 0).droppedReplies = 1 ∧
      ((after (.dmaReadCompletion 0 9 .ca) (reading false false)).host 0).tags = []) ∧
    (((after (.dmaCompletionTimeout 0 9) (reading true false)).host 0).tags = [] ∧
      ((after (.readTagLeak 0 9) (reading false true)).host 0).tagLeaks = 1 ∧ ((after (.readTagLeak 0 9) (reading false true)).host 0).tags = []) ∧
    (after .porchSweep ready).wd.checked = 0x80 ∧
    (((after (.hostStall 0) (withHost { served with path := [.msix 0 0 1] })).host 0).hostStalls = 1 ∧
      ((after (.hostStall 0) (withHost { served with path := [.msix 0 0 1] })).host 0).state = .linkLost) ∧
    ((after (.postedCreditReturn 0 3) (withHost { served with path := [.data 0 (List.replicate 128 1) 0 0, .msix 0 0 1, .msix 0 0 2] })).host 0).path =
      [.msix 0 0 2] := by decide +kernel

theorem witness_TranslationsAndVectors :
    (ready.atsOn 2 = true ∧ ready.hostServing 2 = true ∧
      ((after (.atsInvalidation 2 0x5000 0x2000) { ready with hosts := [(2, { served with atsCache := [(4, 1), (5, 1), (6, 1), (7, 1)] })] }).host 2).atsCache =
        [(4, 1), (7, 1)]) ∧
    ((after (.atsTranslationCompletion 2 0x5678 (some 0x9999)) ready).host 2).atsCache = [(5, 9)] ∧
    (ready.decodes 0 = true ∧ ready.vectorExists 0 63 = true ∧
      ((after (.msixUnmask 0 63) (withHost { served with pba := [63] })).host 0).path = [.msix 0 0 63] ∧
      ((after (.msixUnmask 0 63) (withHost { served with pba := [63] })).host 0).pba = []) ∧
    (((after (.slowReadNs 0 200) ready).host 0).slowReadNs = 200 ∧ ((after (.slowReadNs 0 10000) ready).host 0).slowReadNs = 10000) := by
  decide +kernel

/-! ## The Cellar seen by hosts (O16 to O20) -/

/-- `ready` with bytes in extents 8 and 9, and units written and poisoned. -/
def filled (mem : List Host.Cell) (poisoned : List Nat) : State :=
  { ready with cellar := { ready.cellar with mem := mem, written := poisoned, poisoned := poisoned } }

theorem witness_CxlMem :
    (ready.takesCxl 1 = true ∧ (ready.host 1).hasTokens 1 = true ∧ FMap.find (ready.host 1).window (0x1FFFFF / 0x200000) = some 9 ∧
      ((after (.cxlMemRead 1 0x1FFFFF none) (filled [(0x13FFFFF, 7)] [])).host 1).cpl = .data (List.replicate 63 0 ++ [7]) ∧
      ((after (.cxlMemRead 1 0 none) (filled [] [0x48000])).host 1).cpl = .poison) ∧
    (FMap.find (ready.host 1).window (0x200000 / 0x200000) = none ∧ ((after (.cxlMemRead 1 0x200000 none) ready).host 1).cpl = .poison ∧
      ((after (.cxlMemRead 1 0x200000 none) ready).host 1).unmapped = 1) ∧
    ((after (.cxlMemWrite 1 0x40 (List.replicate 64 5) ([true, false, true] ++ List.replicate 61 false) none) ready).cellar.mem =
        [(0x1200040, 5), (0x1200042, 5)] ∧
      ((after (.cxlMemWrite 1 0x40 (List.replicate 64 5) [true] none) ready).host 1).cpl = .done ∧
      (after (.cxlMemWrite 1 0x40 (List.replicate 64 5) [true] none) ready).cellar.written = [0x48001]) ∧
    ((after (.cxlMemWrite 1 0x200000 [] [] none) ready).host 1).unmapped = 1 := by decide +kernel

theorem witness_Bar2ReadsAndWrites :
    (Memory.wf 0 (filled [(0x1000005, 7)] []).cellar.mem = true ∧ ready.decodes 0 = true ∧ ready.cxlOn 0 = false ∧
      ((after (.bar2Access 0 4 3 none false none) (filled [(0x1000005, 7)] [])).host 0).cpl = .data [0, 7, 0] ∧
      (after (.bar2Access 0 4 2 (some [1, 0]) false none) (filled [(0x1000005, 7)] [])).cellar.mem = [(0x1000004, 1)] ∧
      ((after (.bar2Access 0 0x1FFE00 512 none false none) ready).host 0).cpl = .data (List.replicate 512 0)) ∧
    ((after (.bar2Access 0 4 8 none true none) ready).host 0).bar2Unsupported = 1 := by decide +kernel

/-- Host 1 with two reads waiting for tokens. -/
def queued (tokens : Nat) : State :=
  { ready with hosts := [(1, { served with
      hdmCommitted := true, window := [(0, 9)], rate64 := 8, depth64 := 64, tokens := tokens
      waitingReqs := [.read 0 64 none, .read 64 64 none], dcOffered := [2, 3], dcAccepted := [0] })] }

/-- The bytes that a port returned. -/
def cplBytes : HostCpl → List Byte
  | .data b => b
  | _ => []

theorem no_renewals (h : Nat) : (ready.host h).renewals = [] := by
  simp only [State.host, ready, FMap.get, FMap.find]
  repeat' split
  all_goals rfl

theorem no_times (e : Nat) : (ready.ext e).renewMs = none := by
  simp only [State.ext, ready, FMap.get, FMap.find]
  repeat' split
  all_goals rfl

/-- The scrubber at work on extents 6 and 7. -/
def scrubbing : State :=
  { ready with cellar := { extents := [(6, { state := .granting, owner := .host 0, leaseS := 30 })]
                           mem := [(0xC00000, 1), (0xE00000, 2)], written := [0x30000, 0x38000], scrubQ := [⟨[6]⟩, ⟨[7]⟩] } }

/-- An error record of severity Service. -/
def trecord : ErrRec := { seq := 4, hall := 1, event := 0x0301, severity := 2, unitClass := 1, unitIndex := 2 }

/-! ## The context and owner pages (O21 to O30) -/

/-- `CtxPageOpen` and `OwnerPageOpen`, evaluated. -/
def ctxOpen (s : State) (h c i : Nat) : Bool :=
  !s.asleep && !(s.host h).blocked && s.decodes h && s.suiteOfCtx c == some i && s.hostSuite h == some i && (s.suite i).state != .resetting
def ownOpen (s : State) (h i : Nat) : Bool :=
  !s.asleep && !(s.host h).blocked && s.decodes h && s.ownedSuite h == some i && (s.suite i).state != .resetting

theorem ctxOpen_page {s : State} {h c i : Nat} (w : ctxOpen s h c i = true) : CtxPageOpen s h c i := by
  simpa [ctxOpen, CtxPageOpen, and_assoc] using w

theorem ownOpen_page {s : State} {h i : Nat} (w : ownOpen s h i = true) : OwnerPageOpen s h i := by
  simpa [ownOpen, OwnerPageOpen, and_assoc] using w

/-- `ready` with context 0 as given. -/
def withCtx0 (x : Context) : State := { ready with ctxs := [(0, { x with asg := { tenant := 5, valid := true } })] }

/-- Registers that START accepts: 4 Figures at the start of extent 8, from index 2; a ring of 16 entries. -/
def card4 : CardRegs := { base := 0x1000000, loc := 0x4010, len := 4, startIdx := 2, ringSize := 4 }

theorem witness_StartBeginsCard :
    ctxOpen ready 1 0 0 = true ∧
    ((withCtx0 { state := .idle, regs := card4 }).startCheck 0 0 card4 = none ∧
      ((after (.start 1 0) (withCtx0 { state := .idle, regs := card4, pc := 9 })).ctx 0).state = .waiting ∧
      ((after (.start 1 0) (withCtx0 { state := .idle, regs := card4, pc := 9 })).ctx 0).pc = 2) ∧
    ((withCtx0 { state := .stopped, regs := { card4 with base := 0x1000010 } }).startCheck 0 0 { card4 with base := 0x1000010 } = some 0x13 ∧
      ((after (.start 1 0) (withCtx0 { state := .stopped, regs := { card4 with base := 0x1000010 } })).ctx 0).stopReason = .startRefused ∧
      ((after (.start 1 0) (withCtx0 { state := .stopped, regs := { card4 with base := 0x1000010 } })).ctx 0).lastStatus = 0x13) := by
  decide +kernel

/-- A WAIT that counts to 9000, in flight alone at index 3. -/
def waiting : Context :=
  { state := .waiting, run := card4, pc := 3, flights := [{ fid := 0, idx := 3, opcode := 0x03, pass := 0, cpl := false, irq := false, issuedAt := 0, kind := .waitCount 9000 }] }

theorem witness_StopAndAbort :
    (((after (.stop 0 0) (withCtx0 { state := .running, run := card4, pc := 3 })).ctx 0).state = .stopped ∧
      ((after (.abort 0 0) (withCtx0 { state := .running, run := card4, pc := 3 })).ctx 0).stopIndex = 3 ∧
      ((after (.abort 0 0) (withCtx0 { state := .running, run := card4, pc := 3 })).ctx 0).stopReason = .abort) ∧
    ((withCtx0 waiting).ringRoom 0 = true ∧ ((after (.stop 0 0) (withCtx0 waiting)).ctx 0).flights = [] ∧
      ((after (.stop 0 0) (withCtx0 waiting)).ctx 0).lastStatus = 0x40 ∧ ((after (.abort 0 0) (withCtx0 waiting)).ctx 0).lastStatus = 0x40 ∧
      ((after (.stop 0 0) (withCtx0 waiting)).ctx 0).stopReason = .stop) := by decide +kernel

theorem witness_BellRingHeadAndHistogram :
    (((after (.bell 0 0 0x0000072F) (withCtx0 { state := .idle })).ctx 0).bell 47 = { value := 7, full := true } ∧
      ((after (.bell 0 0 0x00000700) (withCtx0 { state := .idle, bells := [(0, { value := 2 ^ 64 - 1 })] })).ctx 0).bell 0 =
        { value := 6, full := true, overflow := true } ∧
      ((after (.bell 0 0 0x00000130) ready).suite 0).dropped = 1) ∧
    (((after (.ringHead 0 0 3) (withCtx0 { state := .idle, run := card4, ringUsed := 3, ringHead := 14 })).ctx 0).ringUsed = 0 ∧
      ((after (.ringHead 0 0 3) (withCtx0 { state := .idle, run := card4, ringUsed := 3, ringHead := 14 })).ctx 0).ringHead = 1 ∧
      ((after (.ringHead 0 0 4) (withCtx0 { state := .idle, run := card4, ringUsed := 3 })).suite 0).dropped = 1) ∧
    ((after (.histClear 0 0) (withCtx0 { state := .idle, hist := [(3, 4)] })).ctx 0).hist = [] ∧
    (((after (.bell 0 0 0x101) (withCtx0 { state := .clearing })).suite 0).dropped = 1 ∧
      ((after (.start 0 0) { ready with ctxs := [] }).suite 0).dropped = 1) := by decide +kernel

theorem witness_AssignmentAndClearing :
    (ready.ownerHost 0 = 0 ∧
      ((after (.translation 0 0 0x10100007) (withCtx0 { state := .idle })).ctx 0).trans = [] ∧
      ((after (.translation 0 0 0x1007) (withCtx0 { state := .stopped, trans := [(6, 1)] })).ctx 0).trans = [(6, 1), (7, 0x1007)] ∧
      ((after (.translation 0 0 0x1007) (withCtx0 { state := .running })).ctx 0).transRefused = true) ∧
    (ownOpen ready 0 0 = true ∧ ready.assignCheck 0 3 (assignmentOf 0x2000010503) = some 0x5 ∧ ready.assignCheck 0 3 (assignmentOf 0x3000010503) = none ∧
      ((after (.assign 0 0x2000010503) ready).suite 0).assignResult = 0x5 ∧
      ((after (.assign 0 0x3000010503) ready).suite 0).assignResult = 1 ∧ ((after (.assign 0 0x3000010503) ready).ctx 3).state = .clearing ∧
      ((after (.assign 0 0x3000010503) ready).ctx 3).asg = { tenant := 5, valid := true, host := 0, vector := 3 }) ∧
    (((after (.clearingComplete 0) (withCtx0 { state := .clearing, bells := [(1, {})] })).ctx 0) =
        { state := .idle, asg := { tenant := 5, valid := true } } ∧
      ((after (.clearingComplete 0) (withCtx0 { state := .clearing, latched := some {} })).ctx 0).state = .clearing) := by decide +kernel

/-- A group entry of tenant 5: one engine, which is the root of both trees, with two local members of two, chunks of 64 KiB, generation `gen`. -/
def gentry (g gen : Nat) : List Byte :=
  fields 512 [(0, 2, g), (2, 1, 5), (4, 2, gen), (6, 2, 2), (8, 1, 2), (9, 1, 16), (10, 1, 1), (0x10, 1, 16), (0x11, 1, 16),
    (0x28, 1, 16), (0x29, 1, 16), (0x100, 4, 0), (0x104, 4, 1)]

/-- `ready` with the entry window of Suite 0 filled, and group 3 as given; a group whose entry is staged is busy. -/
def grouped (w : List Byte) (g : Group) : State :=
  { ready with suites := [(0, { state := .serving, groupWindow := w })], groups := [(3, g)] }

/-- Context 0 waits in a barrier on group 3. -/
def inBarrier : Context :=
  { state := .waiting, asg := { tenant := 5, valid := true }, run := card4, pc := 4
    flights := [{ fid := 0, idx := 3, opcode := 0x02, pass := 0, cpl := false, irq := false, issuedAt := 0, selector := 3
                  kind := .barrier 3 0 0 0 none false }] }

/-- Group 3 with an entry to commit: idle, and busy under another entry. -/
def idle3 : State := grouped (gentry 3 1) {}
def busy3 : State := { grouped (gentry 3 1) { entry := some (gentry 3 0) } with ctxs := [(0, inBarrier)] }

/-- A window of 512 bytes is read as it was written. -/
theorem slice_whole (b : List Byte) : slice b 0 b.length = b := by
  apply List.ext_getElem
  · simp [slice]
  · intro i h1 h2
    simp [slice, byteAt, List.getD_eq_getElem?_getD, h2]

theorem gentry_window (g gen : Nat) (x : Group) : ((grouped (gentry g gen) x).suite 0).window = gentry g gen := by
  have h := slice_whole (gentry g gen)
  rw [show (gentry g gen).length = 512 by simp [gentry, fields]] at h
  exact h

/-- The checks of a commit do not depend on whether the group is busy. -/
theorem busy_checks_as_idle : busy3.commitCheck 0 3 (gentry 3 1) = idle3.commitCheck 0 3 (gentry 3 1) := by
  have ht : busy3.tenantIn 0 (geTenant (gentry 3 1)) = idle3.tenantIn 0 (geTenant (gentry 3 1)) := by decide +kernel
  have he : busy3.engineId = idle3.engineId := rfl
  have hb : busy3.badEntry 0 3 (gentry 3 1) = idle3.badEntry 0 3 (gentry 3 1) := by unfold State.badEntry; rw [ht, he]
  have hr : busy3.badRoute (gentry 3 1) = idle3.badRoute (gentry 3 1) := rfl
  have hq : busy3.tenantGroups 0 (geTenant (gentry 3 1)) 3 = idle3.tenantGroups 0 (geTenant (gentry 3 1)) 3 := by decide +kernel
  have hs : busy3.suite 0 = idle3.suite 0 := rfl
  simp only [State.commitCheck, hb, hr, hq, hs]

theorem idle_check : idle3.commitCheck 0 3 (gentry 3 1) = none := by decide +kernel

theorem witness_GroupEntries :
    (idle3.commitCheck 0 3 (idle3.suite 0).window = none ∧ idle3.groupBusy 3 = false ∧ busy3.commitCheck 0 3 (busy3.suite 0).window = none ∧
      busy3.groupBusy 3 = true ∧ (grouped [] {}).commitCheck 0 3 ((grouped [] {}).suite 0).window = some (4, 0)) ∧
    ((after (.groupInvalidate 0 3) busy3).grp 3).staged = some .invalidate ∧
    ((after (.groupInvalidate 0 3) (grouped [] { entry := some [1] })).grp 3 = {}) ∧
    ((after (.stagedCommitApplied 3) (grouped [] { staged := some (.commit [1]) })).grp 3 = { entry := some [1] }) ∧
    ((after (.stagedCommitApplied 3) (grouped [] { entry := some [1], staged := some .invalidate })).grp 3 = {}) ∧
    (((after (.groupRead 0 0x1003) (grouped [] { entry := some [1], staged := some (.commit [2]) })).suite 0).groupReadback = [2]) := by
  have h1 : (idle3.suite 0).window = gentry 3 1 := gentry_window 3 1 {}
  have h2 : (busy3.suite 0).window = gentry 3 1 := gentry_window 3 1 { entry := some (gentry 3 0) }
  rw [h1, h2, busy_checks_as_idle, idle_check]
  decide +kernel

/-- `ready` with extent 200 as the Bell area. -/
def belled (blocks : FMap BellBlock) (bells : FMap BellRec) : State :=
  { ready with cellar := { ready.cellar with staging := [200], bellArea := [200], blocks := blocks, bells := bells } }

/-- Context 0 with virtual Bell 7 in record 1 of the block of Suite 0, and BELL_DEBUG_SEL naming it. -/
def debugging : State :=
  { belled [(0x19000000, ⟨0, 5⟩)] [(0x19000020, { tenant := 5, tenantValid := true, value := 4, full := true, overflow := true })] with
    ctxs := [(0, { state := .idle, asg := { tenant := 5, valid := true }, trans := [(7, BitVec.ofNat 64 (0x101007 + 0xC80001 * 2 ^ 24))] })]
    suites := [(0, { state := .serving, dbg := { sel := 0x800700 } })] }

theorem witness_BellBlocksAndDebug :
    ((belled [] []).allocCheck 0 5 = none ∧ (belled [] []).blockOffsets.head? = some 0x19000000 ∧
      ((after (.bellBlockAllocate 0 5) (belled [] [])).suite 0).bellOffset = 0x19000000 ∧
      ready.allocCheck 0 6 = some 3) ∧
    ((after (.bellBlockFree 0 0x19000000) debugging).cellar.blocks = [] ∧ (after (.bellBlockFree 0 0x19000000) debugging).cellar.bells = [] ∧
      ((after (.bellBlockFree 0 0x19002000) debugging).suite 0).bellResult = 5) ∧
    (debugging.debugTarget 0 = some 0x19000020 ∧ (after (.bellDebugClear 0) debugging).bell 0x19000020 =
        { tenant := 5, tenantValid := true, value := 4, full := true } ∧
      ((after (.bellDebugSel 0 0x800700) debugging).suite 0).dbg.value = 4 ∧
      ((after (.bellDebugSel 0 0x2F00) (withCtx0 { state := .idle, bells := [(47, { value := 6, full := true })] })).suite 0).dbg.value = 6 ∧
      ready.debugTarget 0 = none ∧ ((after (.bellDebugClear 0) ready).suite 0).dropped = 1) := by decide +kernel

/-- Suite 0 with one context, which waits for Bell 4 to reach 9. -/
def stalled0 : State :=
  withCtx0 { inBarrier with flights := [{ fid := 0, idx := 3, opcode := 0x01, pass := 0, cpl := false, irq := false, issuedAt := 0, kind := .bellWait (.loc 4) true 9 0 }] }

theorem witness_Bar0Access :
    (((after (.registerWrite 0 0x10002C 0x12345678 false) ready).ctx 0).regs.len = 0x345678 ∧
      ((after (.registerWrite 0 0x10000C 0x72F false) ready).ctx 0).bell 47 = { value := 7, full := true }) ∧
    (((after (.lowHalfRead 0 0x020) { ready with hall := 0x1234567800000002 }).host 0).cpl = .data [2, 0, 0, 0] ∧
      ((after (.lowHalfRead 0 0x020) { ready with hall := 0x1234567800000002 }).host 0).readLatch = 0x12345678 ∧
      ((after (.lowHalfRead 0 0x024) (withHost { served with readLatch := 7 })).host 0).cpl = .data [7, 0, 0, 0]) ∧
    ((after (.rlFieldWrite 0 0x3FC) ready).hearth.rlOffset = 0x3FC ∧ (after (.rlFieldWrite 0 0x200) ready).hearth.rlSeen = true) ∧
    (ready.accepted 0 0x22 2 = false ∧ ((after (.bar0UnsupportedAccess 0 false 0x22 2 false) ready).host 0).bar0Unsupported = 1 ∧
      ((after (.bar0UnsupportedAccess 0 true 0 8 true) ready).host 0).bar0Unsupported = 1) := by decide +kernel

/-- A busy echo of an Ordered original whose digest was 7. -/
def echoing (busy ordered : Bool) : State :=
  { ready with suites := [(0, { state := .serving, echo := { id := 3, busy := busy, goOrdered := ordered, goDigest := 7 } })] }

theorem witness_EchoChecks :
    (((after (.echoGo 0) (echoing true true)).suite 0).dropped = 1 ∧ (echoing false true).echoCheck 0 0 0 = false ∧
      ((after (.echoGo 0) (echoing false true)).suite 0).echo.outcome = 5 ∧ ((after (.echoGo 0) (echoing false true)).suite 0).echo.idDone = 3) ∧
    (((after (.echoPeerTimeout 0) (echoing true true)).suite 0).echo.busy = false ∧
      ((after (.echoComplete 0 ⟨0x100000007, 0x100000007, none, false⟩) (echoing true true)).suite 0).echo.outcome = 0 ∧
      ((after (.echoComplete 0 ⟨8, 8, none, false⟩) (echoing true true)).suite 0).echo.outcome = 2 ∧
      ((after (.echoComplete 0 ⟨8, 8, none, false⟩) (echoing true false)).suite 0).echo.outcome = 1) := by decide +kernel

/-- Cell group 6 in service, in a phase. -/
def serviced (p : SvcPhase) : State :=
  { ready with
    svc := { jobs := [{ unitClass := 2, unitIndex := 6, powerDown := true, phase := p, since := 0 }] }
    cellar := { ready.cellar with mem := [(0xC00000, 1), (0xE00000, 2)] } }

theorem witness_SuiteAndCellService :
    (ready.svcJob 8 0 = none ∧ ready.suiteOn 0 = true ∧
      (∀ c ∈ ready.suiteCtxs 0, (ready.ctx c).state = .idle ∨ (ready.ctx c).state = .stopped ∨ (ready.ctx c).state = .unassigned) ∧
      ((after (.suiteReset 0) ready).suite 0).state = .draining ∧ (after (.suitePowerDown 0) ready).svc.jobs.length = 1 ∧
      ((after (.suiteReset 0) { ready with suites := [(0, { state := .draining })] }).suite 0).dropped = 1) ∧
    ((serviced .draining).svcJob 2 6 = some { unitClass := 2, unitIndex := 6, powerDown := true, phase := .draining, since := 0 } ∧
      (after (.serviceDrainComplete 2 6) (serviced .draining)).cellar.mem = [(0xE00000, 2)] ∧
      ((after (.serviceDrainComplete 2 6) (serviced .draining)).svcJob 2 6).map (fun j => j.phase) = some .resetting ∧
      (2, 6) ∈ (after (.serviceResetComplete 2 6) (serviced .resetting)).svc.out ∧ (after (.serviceResetComplete 2 6) (serviced .resetting)).svc.jobs = []) := by
  decide +kernel

/-! ## Fabric ports and the census (O31 to O35) -/

/-- `MgmtReady`, evaluated. -/
def mgr (s : State) (sess : Option Nat) : Bool := s.mgmtOn && s.fmSession sess && s.isReady

theorem mgr_ready {s : State} {sess : Option Nat} (w : mgr s sess = true) : MgmtReady s sess := by
  simpa [mgr, MgmtReady, and_assoc] using w

/-- The code, status and detail that the engine last answered. -/
def ans (s : State) : Option (Nat × Nat × Nat) := s.mgmt.response.map (fun r => (r.code, r.status, r.detail.toNat))

/-- `ready` with fabric port 0 as given. -/
def withPort (x : FabPort) : State := { ready with ports := [(0, x)] }

/-- An Up port to engine 17's port 24, Up since hall count 100. -/
def upPort : FabPort := { state := .up, width := 4, farEngine := 17, farPort := 24, farHall := 7, upTime := 100, credits := [9, 9, 9, 9] }

theorem witness_ServiceActionsOnPorts :
    (mgr ready (some 7) = true ∧ ready.fabOn 0 = true ∧ ready.wired 0 = some (17, 24) ∧ ready.svcJob 6 0 = none ∧ ready.pendingUnit 6 0 = false ∧
      ready.halt.state = .running) ∧
    (ans (after (.serviceReset (some 7) 1 [6, 1, 0, 0, 0, 0, 0, 0]) (withPort upPort)) = some (0x28, 1, 0) ∧
      ((after (.servicePowerDown (some 7) 1 [6, 2, 0, 0, 0, 0, 0, 0]) (withPort upPort)).port 0).state = .heldDown ∧
      ((after (.serviceEnable (some 7) 1 [6, 3, 0, 0, 0, 0, 0, 0]) (withPort { upPort with state := .heldDown })).port 0).state = .training ∧
      ((after (.serviceRelease (some 7) 1 [6, 5, 0, 0, 0, 0, 0, 0]) (withPort { upPort with state := .heldDown })).port 0).state = .training ∧
      ((after (.serviceHoldDown (some 7) 1 [6, 4, 0, 0, 0, 0, 0, 0]) (withPort upPort)).port 0).state = .heldDown ∧
      ((after (.serviceRetrain (some 7) 1 [6, 6, 0, 0, 0, 0, 0, 0]) (withPort { upPort with state := .miswired })).port 0).state = .training) := by
  decide +kernel

/-- The check value of CRC-32C over the ASCII digits 1 to 9 is 0xE306_9283. -/
theorem test_crc32c_check_value : crc32c [0x31, 0x32, 0x33, 0x34, 0x35, 0x36, 0x37, 0x38, 0x39] = 0xE3069283 := by decide +kernel

/-- A frame of no slots with a sequence, a flags byte and a check. -/
def emptyFrame (seq flags crc : Nat) : List Byte :=
  toLe 2 seq ++ [0, 0] ++ toLe 1 flags ++ List.replicate 55 0 ++ toLe 4 crc ++ List.replicate 768 0

theorem witness_FramesAndSlots :
    ((withPort upPort).portUp 0 = true ∧ ((after (.frameReceived 0 [] false 0) (withPort upPort)).port 0).nak = true) ∧
    ((emptyFrame 0xFFFF 8 0x39398BAD).length = 832 ∧ frameCheck (emptyFrame 0xFFFF 8 0x39398BAD) = true ∧
      BitVec.ofNat 16 (le (emptyFrame 0xFFFF 8 0x39398BAD) 0 2) = ((withPort upPort).port 0).rxSeq) ∧
    (frameCheck (emptyFrame 0xFFFF 0 0x0B60CD0C) = true ∧ BitVec.ofNat 16 (le (emptyFrame 0xFFFF 0 0x0B60CD0C) 0 2) ≠ ((withPort upPort).port 0).rxSeq + 1) ∧
    ((State.slotIn 0 (withPort upPort) (12, ctlFlit 0x10 17 [])).port 0).cnt.badControl = 1 := by decide +kernel

/-- Port 0 with one frame that is not acknowledged. -/
def unacked (replays : Nat) : State := withPort { upPort with replayBuf := [⟨3, [7], replays⟩], txSeq := 4 }

theorem witness_ReplayAndRecalibration :
    (((after (.replayTimeout 0) (unacked 2)).port 0).resend = [3] ∧ ((after (.replayTimeout 0) (unacked 2)).port 0).state = .up ∧
      ((after (.replayTimeout 0) (unacked 3)).port 0).state = .down) ∧
    ((withPort upPort).traffic 0 = false ∧ (withPort { upPort with vc1 := [⟨3, [], 0⟩] }).traffic 0 = true ∧
      ((after (.recalibrationDue 0) (withPort upPort)).port 0).recalibrating = true ∧
      ((after (.recalibrationDue 0) (withPort { upPort with vc1 := [⟨3, [], 0⟩] })).port 0).recalDue = true ∧
      ((after (.recalibrationForced 0) (withPort { upPort with recalDue := true })).port 0).cnt.forced = 1 ∧
      ((after (.pllSettled 0) (withPort { upPort with recalibrating := true })).port 0).resync = true) := by decide +kernel

/-- Ports 0 and 4 Up, not in census, and this engine's part in census 4000. -/
def polled (k : Census) : State :=
  { ready with ports := [(0, { upPort with state := .upNoCensus }), (4, { upPort with state := .upNoCensus, farEngine := 18, farPort := 20 })], census := k }

/-- A census flit of epoch 4000 from engine 17. -/
def cflit (type : Nat) : List Byte := ctlFlit type 17 [(4, 8, 4000)]

theorem witness_CensusAndCommit :
    ((polled {}).portUp 0 = true ∧ ctlOk 0x20 (cflit 0x20) = true ∧ flitEpoch (cflit 0x20) = 4000 ∧
      (after (.censusQuery 0 (cflit 0x20)) (polled {})).census.parent = 0 ∧ (after (.censusQuery 0 (cflit 0x20)) (polled {})).census.waiting = [4] ∧
      (after (.censusQuery 0 (cflit 0x20)) (polled { took := true, epoch := 4000, active := true, waiting := [4] })).census.seenPorts = [0] ∧
      ((after (.censusQuery 0 (cflit 0x20)) (polled { took := true, epoch := 4001, active := true, waiting := [4] })).port 0).vc2.map (fun x => (x.bytes.headD 0, x.bytes.getD 12 0)) = [(0x23, 0xA1)]) ∧
    (ctlOk 0x22 (cflit 0x22) = true ∧ ctlOk 0x23 (cflit 0x23) = true ∧
      (after (.censusSeen 4 (cflit 0x22)) (polled { took := true, epoch := 4000, active := true, parent := 0, waiting := [4] })).census.active = false ∧
      (after (.censusConcurrent 4 (cflit 0x23)) (polled { took := true, epoch := 4000, active := true, waiting := [4] })).census.concurrent = true ∧
      (after .censusReplyTimeout (polled { took := true, epoch := 4000, active := true, parent := 0, waiting := [4] })).census.missing = true) ∧
    ((replyRecords 4000 [ctlFlit 0x24 18 [(2, 2, 1), (4, 8, 4000)], ctlFlit 0x25 18 [], ctlFlit 0x25 18 [(3, 1, 1)], ctlFlit 0x25 18 [(3, 1, 2)]]).map
        (fun l => l.map (fun r => r.bytes.length)) = some [176] ∧
      (after (.censusSubtreeReply 4 [ctlFlit 0x24 18 [(2, 2, 1), (4, 8, 4000)], ctlFlit 0x25 18 [], ctlFlit 0x25 18 [(3, 1, 1)], ctlFlit 0x25 18 [(3, 1, 2)]])
        (polled { took := true, epoch := 4000, active := true, parent := 0, waiting := [4] })).census.children = [4]) ∧
    (ctlOk 0x21 (cflit 0x21) = true ∧
      ((after (.censusCommitMessage 0 (cflit 0x21)) (polled { took := true, epoch := 4000, parent := 0, children := [4] })).port 4).state = .up ∧
      (after (.censusCommitMessage 0 (cflit 0x21)) (polled { took := true, epoch := 4000, parent := 0, children := [4] })).census.commitWaiting = [4] ∧
      ctlOk 0x26 (ctlFlit 0x26 18 [(2, 2, 3), (4, 8, 4000)]) = true ∧
      (after (.censusCommitDone 4 (ctlFlit 0x26 18 [(2, 2, 3), (4, 8, 4000)])) (polled { took := true, epoch := 4000, parent := 0, committing := true, commitWaiting := [4], commitCount := 1 })).census.commitCount = 4) := by
  decide +kernel

/-! ## A signed pattern pack -/

/-- Bytes 0x0 on. -/
def tpack0 : List Byte := [90, 78, 80, 75, 1, 0, 3, 0, 2, 0, 0, 0, 48, 1, 0, 0, 5, 0, 3, 0, 0, 0, 0, 0, 0, 0, 0, 0, 0, 0, 0, 0, 0, 0, 0, 0, 0, 0, 0, 0, 0, 0, 0, 0, 0, 0, 0, 0, 0, 0, 0, 0, 0, 0, 0, 0, 0, 0, 0, 0, 0, 0, 0, 0]
/-- Bytes 0x40 on. -/
def tpack1 : List Byte := [4, 122, 233, 225, 219, 17, 96, 121, 76, 112, 193, 239, 7, 27, 229, 25, 31, 108, 102, 36, 15, 70, 8, 251, 232, 164, 78, 205, 54, 195, 237, 93, 185, 117, 0, 242, 228, 216, 78, 63, 180, 88, 80, 253, 111, 67, 3, 48, 43, 216, 172, 33, 68, 76, 216, 13, 36, 21, 56, 216, 3, 75, 57, 154]
/-- Bytes 0x80 on. -/
def tpack2 : List Byte := [13, 238, 54, 54, 235, 92, 176, 11, 148, 153, 208, 97, 165, 113, 219, 15, 20, 187, 71, 237, 121, 69, 57, 72, 237, 99, 243, 166, 204, 187, 246, 231, 79, 0, 0, 0, 0, 0, 0, 0, 0, 0, 0, 0, 0, 0, 0, 0, 0, 0, 0, 0, 0, 0, 0, 0, 0, 0, 0, 0, 0, 0, 0, 0]
/-- Bytes 0xc0 on. -/
def tpack3 : List Byte := [133, 104, 163, 90, 135, 155, 13, 80, 97, 50, 153, 60, 109, 145, 29, 49, 54, 167, 49, 64, 154, 184, 197, 210, 111, 215, 160, 30, 129, 66, 82, 129, 69, 58, 108, 106, 223, 76, 210, 243, 140, 119, 165, 4, 40, 21, 234, 72, 22, 249, 94, 43, 254, 124, 228, 21, 164, 246, 6, 89, 68, 128, 71, 14]
/-- Bytes 0x100 on. -/
def tpack4 : List Byte := [187, 0, 212, 4, 194, 119, 21, 126, 155, 129, 185, 255, 187, 7, 161, 231, 121, 43, 126, 237, 12, 245, 238, 53, 4, 67, 113, 179, 255, 155, 240, 68, 38, 153, 215, 234, 0, 0, 0, 0, 0, 0, 0, 0, 0, 0, 0, 0]
/-- A pack of ID 3 for fabric ports, version 2, signed with the test key (FIPS 186-5), which nothing but its header makes up (R439). Signature and
checksum were computed from the standards outside this model. -/
def tpack : List Byte := tpack0 ++ tpack1 ++ tpack2 ++ tpack3 ++ tpack4

theorem tpack_length : tpack.length = 304 := by decide +kernel

theorem tpack_hash : sha384Nat (slice tpack 0 0xC0) = 0x0412338f95805e25ab1e3a3075dcae620fcf735941535dfddc66eb1a6f2942bc0fb5bf0503f7714bba1028b67179f79f := by decide +kernel

theorem tpack_signature : ecdsaVerify (slice tpack 0x040 97) 0x0412338f95805e25ab1e3a3075dcae620fcf735941535dfddc66eb1a6f2942bc0fb5bf0503f7714bba1028b67179f79f (slice tpack 0x0C0 96) = true := by decide +kernel

/-- The pack passes on an engine that knows the key and has taken no newer one. -/
theorem tpack_check (s : State) (hk : s.fuses.keyHash0 = tkeyHash) (hr : s.fuses.revoked0 = false) (hs : s.fuses.stepping = 1) (hm : s.flash.packMin = []) :
    s.packCheck 3 tpack = none := by
  have ht : le tpack 0x00C 4 = 304 := by decide +kernel
  have hc : (crc32c (slice tpack 0 0x120)).toNat = le tpack 0x120 4 := by decide +kernel
  have hh : sha384Nat (slice tpack 0 0xC0 ++ slice tpack 0x130 0) = _ := (congrArg sha384Nat (List.append_nil _)).trans tpack_hash
  have h7 : le tpack 7 1 = 0 := by decide +kernel
  have hd : sha384Nat (slice tpack 0x040 97) = tkeyHash.toNat := by decide +kernel
  have hkey : s.keyOk (le tpack 7 1) (slice tpack 0x040 97) = true := by simp [State.keyOk, h7, hr, hk, hd]
  have ha : le tpack 0 4 = 0x4B504E5A ∧ le tpack 4 2 = 1 ∧ le tpack 6 1 = 3 ∧ le tpack 8 4 = 2 ∧ le tpack 0x010 2 = 5 ∧ bit (le tpack 0x012 1) 1 = true ∧
      allZero tpack 0x013 45 = true ∧ allZero tpack 0x0A1 31 = true ∧ allZero tpack 0x124 12 = true := by decide +kernel
  obtain ⟨a1, a2, a3, a4, a5, a6, a7, a8, a9⟩ := ha
  have hg : FMap.get 0 s.flash.packMin 3 = 0 := by rw [hm]; rfl
  have hb : bit (le tpack 0x012 1) s.fuses.stepping.toNat = true := by rw [hs]; exact a6
  unfold State.packCheck
  rw [ht, hc, hkey, hg, a1, a2, a3, a4, a5, hb, a7, a8, a9, tpack_length]
  dsimp only
  rw [show 304 - 304 = 0 from rfl, hh, tpack_signature]
  rfl

/-! ## Management (O36 to O45) -/

theorem witness_StatusRecordsAndRefusals :
    (ready.mgmtOn = true ∧ ready.inHostSession none = false ∧ (ans (after (.getStatus none 1 []) ready) = some (1, 0, 0)) ∧
      ans (after (.getStatus none 1 []) { ready with mgmt := { ready.mgmt with lostSince := true } }) = some (1, 0x22, 0)) ∧
    (ready.fmSession (some 7) = true ∧
      ans (after (.readRecords (some 7) 1 [4, 0, 0, 0, 64, 0, 0, 0]) { ready with log := { nextSeq := 5, ring := [trecord], unread := [4] }, hearth := { thearth with alert := true } }) = some (2, 0, 1) ∧
      (after (.readRecords (some 7) 1 [4, 0, 0, 0, 64, 0, 0, 0]) { ready with log := { nextSeq := 5, ring := [trecord], unread := [4] }, hearth := { thearth with alert := true } }).hearth.alert = false) ∧
    (lengthFits 0x99 3 = none ∧ lengthFits 0x10 9 = some false ∧ ans (after (.badCommand (some 7) 1 0x10 9) ready) = some (0x10, 0x10, 0x10)) ∧
    (ready.fmSession none = false ∧ ans (after (.grant none 1 []) ready) = some (0x10, 0x12, 0) ∧
      ({ ready with hearth := { thearth with startup := .syncing } } : State).isReady = false ∧
      ans (after (.grant (some 7) 1 []) { ready with hearth := { thearth with startup := .syncing } }) = some (0x10, 0x13, 5)) := by decide +kernel

/-- What an image says depends on the flash alone, and its checks on the flash and the fuses. -/
theorem imgConfig_of_flash {s t : State} (h : s.flash = t.flash) (b : Bool) : s.imgConfig b = t.imgConfig b := by
  simp only [State.imgConfig, State.imgCfg, State.imgBytes, State.imgField, State.flashBytes, h]

theorem imageCheck_of_flash {s t : State} (h : s.flash = t.flash) (u : s.fuses = t.fuses) (b : Bool) (m : Option Nat) (r : Bool) :
    s.imageCheck b m r = t.imageCheck b m r := by
  have key : ∀ x : State, x.imageCheck b m r = ({ flash := x.flash, fuses := x.fuses } : State).imageCheck b m r := fun _ => rfl
  rw [key s, key t, h, u]

/-- `ready` with image B of the same configuration. -/
def restartable : State := { ready with hearth := { thearth with configDigest := digest8 (ready.imgConfig true) } }

/-- The image in slot A being checked again. -/
def restarting : State := { loading with hearth := { thearth with live := some ⟨false, 1⟩, imageB := true } }

theorem restartable_digest : digest8 (restartable.imgConfig true) = restartable.hearth.configDigest := by
  rw [imgConfig_of_flash (s := restartable) (t := ready) rfl true]
  simp only [restartable]

theorem restarting_check : restarting.imageCheck false (some 64) true = none := by
  rw [imageCheck_of_flash (s := restarting) (t := loading) rfl rfl]
  exact loading_check

theorem witness_ImagesFusesAndClock :
    (restartable.hearth.locked = true ∧ digest8 (restartable.imgConfig true) = restartable.hearth.configDigest) ∧
    (restarting.hearth.live = some ⟨false, 1⟩ ∧ restarting.imageCheck false (some 64) true = none) ∧
    ((ready.runsFrom true = false ∧ ready.runsFrom false = true ∧ ready.flashBusy = false ∧
      ans (after (.imageWrite (some 7) 1 [1, 0, 0, 0, 0xF8, 0xFF, 0x3F, 0, 9]) ready) = some (3, 1, 0) ∧
      ans (after (.imageWrite (some 7) 1 [0, 0, 0, 0, 0xF8, 0xFF, 0x3F, 0, 9]) ready) = some (3, 0x21, 6)) ∧
    ((after (.warmReset (some 7) 1 []) ready).hearth.startup = .reset ∧ (after (.warmReset (some 7) 1 []) ready).ctxs = []) ∧
    (ans (after (.liveRestart (some 7) 1 [1, 0, 0, 0]) { ready with hearth := { thearth with locked := false } }) = some (5, 0x21, 6)) ∧
    ((after (.fuseRaiseMinVersion (some 7) 1 [1, 0, 0, 0, 9, 0, 0, 0]) ready).fuses.minSecurity = 9 ∧
      (after (.fuseRaiseMinVersion (some 7) 1 [1, 0, 0, 0, 9, 0, 0, 0]) { ready with fuses := { minSecurity := 10 } }).fuses.minSecurity = 10 ∧
      (after (.fuseRevokeKey (some 7) 1 [2, 1, 0, 0, 0, 0, 0, 0]) ready).fuses.revoked1 = true) ∧
    ((after (.setWallclock (some 7) 1 [1, 0, 0, 0, 0, 0, 0, 0, 2, 0, 0, 0, 0, 0, 0, 0]) ready).hearth.wallclock = some (1, 2) ∧
      restarting.imageCheck false none true = some 1)) := by
  refine ⟨⟨rfl, restartable_digest⟩, ⟨rfl, restarting_check⟩, by decide +kernel⟩

/-- An engine that is to write pack 3, or that has yet to take its last part. -/
def packing (buf : List Byte) (writing : Option Nat) : State :=
  { ready with fuses := { keyHash0 := tkeyHash }, mgmt := { ready.mgmt with packBuf := [(3, buf)], packWriting := writing } }

/-- An image write on its way to the flash. -/
def flashing : State :=
  { ready with flash := { mem := [(0x400005, 3)] }, mgmt := { ready.mgmt with flashWrite := some (0x400000, [1]) } }

theorem witness_FlashWrites :
    ((packing [] none).packCheck 3 tpack = none ∧ (packing tpack (some 3)).packCheck 3 tpack = none) ∧
    ((packing (tpack.take 300) none).packSoFar 3 ++ ([3, 1, 0, 0, 44, 1, 0, 0] ++ tpack.drop 300).drop 8 = tpack) ∧
    (mgr (packing [] none) (some 7) = true ∧ ready.pendingUnit 0x0A 3 = false ∧ ready.packScans 3 = false ∧
      ans (after (.packPush (some 7) 1 [3, 0, 0, 0, 0, 0, 0, 0, 0x5A]) ready) = some (0x31, 0, 0) ∧
      (after (.packPush (some 7) 1 [3, 0, 0, 0, 0, 0, 0, 0, 0x5A]) ready).packSoFar 3 = [0x5A] ∧
      (packing [] none).packCheck 3 [7] = some 1 ∧ ans (after (.packPush (some 7) 1 [3, 1, 0, 0, 0, 0, 0, 0, 7]) ready) = some (0x31, 0x26, 1)) ∧
    ((after .flashWriteComplete flashing).mgmt.flashWrite = none ∧ after .flashWriteComplete ready = ready) := by
  refine ⟨⟨tpack_check _ rfl rfl rfl rfl, tpack_check _ rfl rfl rfl rfl⟩, ?_, ?_, ?_⟩ <;> decide +kernel

/-- `ready` with nothing granted or assigned. -/
def unused : State := { ready with ctxs := [], cellar := {} }

/-- An engine that is halted, or that runs, with the watchdog and the die as given. -/
def haltedWith (h : HaltState) (w : WdState) (hot : Bool) : State :=
  { ready with halt := { state := h }, wd := { state := w }, thermal := { tj := if hot then 380 else 379, thermalHalt := hot } }

theorem witness_PowerAndResume :
    (unused.bankBlocker = none ∧ ready.bankBlocker = some 0x02000008 ∧ ans (after (.powerBank (some 7) 1 [1, 0, 0, 0]) unused) = some (8, 1, 0) ∧
      (after (.powerBank (some 7) 1 [1, 0, 0, 0]) unused).hearth.power = .banking ∧
      ans (after (.powerBank (some 7) 1 [1, 0, 0, 0]) ready) = some (8, 0x20, 0x02000008) ∧
      (after (.powerUnbank (some 7) 1 [2, 0, 0, 0]) { unused with hearth := { thearth with power := .banked } }).hearth.startup = .scrubbing ∧
      (ans (after (.powerUnbank (some 7) 1 [2, 0, 0, 0]) ready)).map (fun r => r.2.1) = some 0x21 ∧
      (after (.powerHoldOn (some 7) 1 [3, 0, 0, 0]) { ready with hearth := { thearth with power := .doze } }).hearth.power = .dozeWaking ∧
      (after (.powerHoldOff (some 7) 1 [4, 0, 0, 0]) { ready with hearth := { thearth with mgmtHold := true } }).hearth.mgmtHold = false) ∧
    ((after (.resume (some 7) 1 []) (haltedWith .halted .fencedClean false)).halt.state = .resuming ∧
      (after (.resume (some 7) 1 []) (haltedWith .halted .fencedClean false)).wd.state = .armed ∧
      (after (.resume (some 7) 1 []) (haltedWith .running .fencedClean false)).wd.state = .armed ∧
      (haltedWith .halted .armed true).resumable = false ∧
      ans (after (.resume (some 7) 1 []) (haltedWith .halted .armed true)) = some (0x32, 0x21, 0x1060102) ∧
      (haltedWith .running .armed false).resumable = false) := by decide +kernel

/-- Census 4000, which this engine began, is over. -/
def censused : State :=
  polled { took := true, epoch := 4000, isOrigin := true, done := true, resultEpoch := 4000, children := [0], doneHall := 5000 }

theorem witness_AbortsCountersAndCensus :
    (mgr ready (some 7) = true ∧
      ((after (.abortContexts (some 7) 1 (1 :: List.replicate 31 0)) (withCtx0 { state := .running, run := card4 })).ctx 0).stopReason = .abort ∧
      ((after (.clearCounters (some 7) 1 [0, 0, 0, 0]) (withPort { upPort with cnt := { replays := 4 } })).port 0).cnt = {}) ∧
    ((after (.censusStart (some 7) 1 []) (withPort upPort)).census.active = true ∧ (after (.censusStart (some 7) 1 []) ready).census.done = true ∧
      ans (after (.censusStart (some 7) 1 []) { ready with census := { active := true } }) = some (0x40, 0x20, 0x0D000010)) ∧
    (ans (after (.censusRead (some 7) 1 [0xA0, 0x0F, 0, 0, 0, 0, 0, 0, 1, 0, 0, 0]) { ready with census := { done := true, resultEpoch := 4000, result := [⟨[1]⟩, ⟨[2]⟩] } }) = some (0x41, 0, 1)) ∧
    (censused.commitAllowed 4000 = true ∧ ((after (.censusCommit (some 7) 1 [0xA0, 0x0F, 0, 0, 0, 0, 0, 0]) censused).port 0).state = .up ∧
      censused.commitAllowed 4001 = false ∧ ans (after (.censusCommit (some 7) 1 [0xA1, 0x0F, 0, 0, 0, 0, 0, 0]) censused) = some (0x42, 0x21, 2)) := by
  decide +kernel

/-- `ready` with a session of host 0's function, no extent held but 9. -/
def granting : State :=
  { ready with mgmt := { sessions := [⟨7, none, 0, 0⟩, ⟨8, some 0, 5, 0⟩], nextSession := 9 } }

theorem witness_GrantsAndReleases :
    (granting.hostExists 0 = true ∧ granting.hostSessionOf 0 = some ⟨8, some 0, 5, 0⟩ ∧ granting.suiteOfPort 0 = some 0 ∧
      FMap.find granting.cellar.keys 0 = some [1] ∧ granting.suiteHeld 0 + 2 ≤ granting.suiteCfg 0 8 2 ∧ granting.freeExts.take 2 = [0, 1] ∧
      ans (after (.grant (some 7) 1 [0, 0, 2, 0, 0, 0, 0, 0]) granting) = some (0x10, 1, 0) ∧
      ((after (.grant (some 7) 1 [0, 0, 2, 0, 0, 0, 0, 0]) granting).ext 1).state = .granting ∧
      ready.hostSessionOf 0 = none ∧ ans (after (.grant (some 7) 1 [0, 0, 2, 0, 0, 0, 0, 0]) ready) = some (0x10, 0x27, 0) ∧
      ans (after (.grant (some 7) 1 [0, 0, 2, 0, 0, 0, 0, 0]) { granting with cellar := {} }) = some (0x10, 0x25, 0) ∧
      granting.suiteCfg 0 8 2 < granting.suiteHeld 0 + 799 ∧ ans (after (.grant (some 7) 1 [0, 0, 0x1F, 3, 0, 0, 0, 0]) granting) = some (0x10, 0x23, 0)) ∧
    (({ granting with hearth := { thearth with disabledMap := [0, 1, 2, 3, 4] } } : State).grantable (some 0) < 795) ∧
    (releaseList [1, 0, 0, 0, 8, 0] = [8] ∧ ready.releaseCheck 8 = none ∧
      ((after (.release (some 7) 1 [1, 0, 0, 0, 8, 0]) ready).ext 8).state = .reclaiming ∧
      ((after (.release (some 7) 1 [1, 0, 0, 0, 8, 0]) ready).host 0).window = [] ∧
      ans (after (.release (some 7) 1 [1, 0, 0, 0, 7, 0]) ready) = some (0x11, 0x21, 0)) := by decide +kernel

/-- Region 3 with one extent and rights for host 0. -/
def regioned : State :=
  { ready with
    hosts := [(0, { served with window := [(0, 8)] })]
    cellar := { extents := [(8, { state := .granted, owner := .host 0, leaseS := 30 }), (12, { state := .granted, owner := .region 3 })]
                regions := [(3, { extents := [12], leaseS := 30, leftMs := 5, hosts := [(0, false)] })]
                keys := [(0, [1]), (17, [1])] } }

theorem witness_WindowMapsAndRenewals :
    (regioned.mappable 0 12 = true ∧ ((after (.map (some 7) 1 [5, 0, 0, 0, 12, 0, 0, 0]) regioned).host 0).window = [(0, 8), (5, 12)] ∧
      ans (after (.map (some 7) 1 [0, 0, 0, 0, 12, 0, 0, 0]) regioned) = some (0x12, 0x24, 0) ∧ regioned.mappable 0 9 = false ∧
      ans (after (.map (some 7) 1 [5, 0, 0, 0, 9, 0, 0, 0]) regioned) = some (0x12, 0x21, 0) ∧
      ((after (.unmap (some 7) 1 [0, 0x80, 0, 0, 0, 0, 0, 0]) regioned).host 0).window = [] ∧
      ans (after (.unmap (some 7) 1 [5, 0x80, 0, 0, 0, 0, 0, 0]) regioned) = some (0x12, 0x21, 0)) ∧
    (((after (.renew (some 7) 1 [0, 0, 8, 0, 99, 0, 0, 0]) regioned).ext 8).renewMs = some 30000 ∧
      ((FMap.find (after (.renew (some 7) 1 [1, 0, 3, 0, 7, 0, 0, 0]) regioned).cellar.regions 3).map (fun r => r.renewMs)) = some (some 7000)) ∧
    (ans (after (.readExtent (some 7) 1 [8, 0, 0, 0]) regioned) = some (0x14, 0, 0)) := by decide +kernel

theorem witness_RegionsKeysAndBandwidth :
    (2 ≤ regioned.grantable none ∧ ((after (.regionCreate (some 7) 1 [1, 0, 2, 0, 0, 0, 0, 0]) regioned).ext 0).owner = .region 1 ∧
      ans (after (.regionCreate (some 7) 1 [2, 0, 2, 0, 0, 0, 0, 0]) regioned) = some (0x18, 0x25, 18)) ∧
    ((∀ f ∈ rightsFields ([3, 1, 0, 0, 0x80] ++ List.replicate 47 0), f.1 = false) ∧
      ((FMap.find (after (.regionRights (some 7) 1 ([3, 1, 0, 0, 0x80] ++ List.replicate 47 0)) regioned).cellar.regions 3).map (fun r => r.staged)) = some (some ([(0, true)], []))) ∧
    ((after (.regionDelete (some 7) 1 [3, 0, 0, 0]) regioned).cellar.regions = [] ∧ ((after (.regionDelete (some 7) 1 [3, 0, 0, 0]) regioned).ext 12).cause = 3) ∧
    (regioned.keyInUse 2 = false ∧ regioned.keyInUse 0 = true ∧
      (FMap.find (after (.keyLoad (some 7) 1 ([2, 0, 0, 0, 1] ++ List.replicate 63 0)) regioned).cellar.keys 2).isSome = true ∧
      ans (after (.keyLoad (some 7) 1 ([2, 0, 0, 0] ++ List.replicate 64 0)) regioned) = some (0x20, 0x25, 2) ∧
      FMap.find (after (.keyErase (some 7) 1 [17, 0, 0, 0]) regioned).cellar.keys 17 = none) ∧
    (((after (.tokenBucket (some 7) 1 [0, 0, 8, 0, 64, 0, 0, 0]) regioned).host 0).stagedBucket = some (8, 64) ∧
      ((after (.suiteWeight (some 7) 1 [0, 5, 0, 0]) regioned).suite 0).weight = some 5) := by decide +kernel

/-! ## Scans, transport and sessions (O44, O45) -/

/-- Pack 3 in the flash of an engine that knows its key. -/
def packed : State :=
  { ready with fuses := { keyHash0 := tkeyHash }, ports := [(0, { upPort with state := .heldDown })],
               flash := { mem := (List.range' 0x1410000 tpack.length).zip tpack } }

/-- A read of the flash is a run of the pack. -/
theorem packed_read (off len : Nat) (h : off + len ≤ 304) : packed.flashBytes (0x1410000 + off) len = (tpack.drop off).take len := by
  apply List.ext_getElem
  · simp [State.flashBytes, memBytes, tpack_length]; omega
  · intro i h1 h2
    have hi : off + i < tpack.length := by
      simp only [State.flashBytes, memBytes, List.length_map, List.length_range] at h1
      rw [tpack_length]
      omega
    have hr := read_listed Config.erasedByte tpack 0x1410000 (off + i) hi
    simp only [State.flashBytes, memBytes, List.getElem_map, List.getElem_range, packed, Nat.add_assoc, hr, List.getElem_take, List.getElem_drop]
    simp [List.getD_eq_getElem?_getD, hi]

theorem packed_bytes : packed.packBytes 3 0 = tpack := by
  have h1 : packed.flashBytes (packBase 3 0 + 0x00C) 4 = (tpack.drop 0x00C).take 4 := packed_read 0x00C 4 (by decide)
  have h2 : max 0x130 (min (le ((tpack.drop 0x00C).take 4) 0 4) 0x100000) = 304 := by decide +kernel
  have h3 : packed.flashBytes (packBase 3 0) 304 = (tpack.drop 0).take 304 := packed_read 0 304 (by decide)
  simp only [State.packBytes, h1, h2, h3]
  decide +kernel

/-- A copy in use that passes is the one a scan takes. -/
theorem packForScan_inUse (s : State) (id : Nat) (h : s.packCheck id (s.packBytes id (s.packCopy id)) = none) :
    s.packForScan id = .inl (s.packCopy id) := by
  delta State.packForScan
  dsimp only
  rw [h]

theorem packed_scan : packed.packForScan 3 = .inl 0 :=
  packForScan_inUse packed 3 (by
    rw [show packed.packCopy 3 = 0 from rfl, packed_bytes]
    exact tpack_check packed rfl rfl rfl rfl)

/-- A scan of port 0 with copy 0. -/
def scanning : State := { withPort { upPort with state := .heldDown } with svc := { scans := [{ unitClass := 6, units := [0], tag := 4 }] } }

theorem witness_Scans :
    (packed.packForScan (packOf 6) = .inl 0) ∧
    (mgr packed (some 7) = true ∧ packed.scannable 6 0 = true ∧ packed.svcJob 6 0 = none ∧ packed.pendingUnit 6 0 = false ∧ packed.svc.scans = [] ∧
      (withPort upPort).scannable 6 0 = false ∧ ready.scannable 3 0 = true ∧
      ans (after (.scan (some 7) 4 [6, 1, 0, 0, 0, 0]) (withPort upPort)) = some (0x30, 0x21, (withPort upPort).partState 6 0)) ∧
    ((after (.scanComplete 6 0 true) scanning).svc.scans = [] ∧ (after (.scanComplete 6 0 true) scanning).svc.failed = [] ∧
      (after (.scanComplete 6 0 false) scanning).svc.failed = [(6, 0)] ∧
      (after (.scanComplete 6 0 false) scanning).log.ring.map (fun r => (r.event, r.severity)) = [(0x0902, 3)] ∧
      after (.scanComplete 6 1 true) scanning = scanning) := by
  refine ⟨packed_scan, ?_, ?_⟩ <;> decide +kernel

/-- An event under way on the SMBus. -/
def mastering (retries : Nat) (waiting : Bool) : State :=
  { ready with mgmt := { ready.mgmt with smbusEvent := some ⟨1, [2]⟩, smbusRetries := retries, smbusWaiting := waiting, smbusFirst := 4000 } }

theorem witness_TransportAndSessions :
    (ready.mgmtOn = true ∧ (after (.setEndpointId 9) ready).mgmt.eid = 9 ∧ (after .getMessageTypeSupport ready).mgmt.reply = .bytes [0, 5, 6] ∧
      (after .getEndpointId (after (.setEndpointId 9) ready)).mgmt.reply = .eid 9) ∧
    ((after .smbusArbitrationLost (mastering 2 false)).mgmt.smbusWaiting = true ∧
      (after .smbusArbitrationLost (mastering 3 false)).mgmt.smbusAbandoned = 1 ∧ (after .smbusArbitrationLost (mastering 3 false)).mgmt.queue = [⟨1, [2]⟩] ∧
      (after .smbusRetry (mastering 2 true)).mgmt.smbusRetries = 3 ∧ (after .smbusSclTimeout ready).mgmt.smbusResets = 1) ∧
    (ready.spdmOn = true ∧ (after (.getMeasurements none 7) ready).mgmt.reply = .error ∧ (after (.getCertificate 2) ready).mgmt.reply = .error ∧
      (ready.measurement 3).isSome = true ∧ ready.mgmt.fmCount = 1 ∧
      (after (.keyExchange ⟨none, true, true, 3⟩) ready).mgmt.sessions = [⟨7, none, 0, 0⟩, ⟨8, none, 3, 5000⟩] ∧
      (after (.keyExchange ⟨none, false, true, 3⟩) ready).mgmt.sessions = [⟨7, none, 0, 0⟩] ∧
      (after (.keyExchange ⟨none, true, true, 4⟩) (after (.keyExchange ⟨none, true, true, 3⟩) ready)).mgmt.reply = .busy) ∧
    ((after (.heartbeat 7) ready).mgmt.sessions = [⟨7, none, 0, 5000⟩] ∧ (after (.spdmSessionTimeout 7) ready).mgmt.sessions = []) := by
  decide +kernel

/-! ## Figures (O46 to O50) -/

/-- A Figure from its opcode, flags and fields. -/
def fig (op flags : Nat) (l : List (Nat × Nat × Nat)) : List Byte := fields 32 ([(30, 1, flags), (31, 1, op)] ++ l)

/-- A context that has fetched these Figures from index 2 on. -/
def running (fs : List (List Byte)) : Context :=
  { state := .running, asg := { tenant := 5, valid := true }, run := { card4 with len := 9 }, pc := 2, prefetch := (List.range fs.length).zip fs |>.map (fun (i, f) => (2 + i, some f)) }

/-- `ready`, in which context 0 has fetched one Figure. -/
def at2 (f : List Byte) : State := { ready with ctxs := [(0, running [f])] }

/-- `Reaches`, evaluated. -/
def reaches (s : State) (c op i : Nat) (f : List Byte) : Bool := s.nextOp c op == some (i, f) && s.issueCheck c i f == none

theorem reaches_at {s : State} {c op i : Nat} {f : List Byte} (w : reaches s c op i f = true) : Reaches s c op i f := by
  simpa [reaches, Reaches] using w

/-- A Cellar-to-Cellar MOVE in flight. -/
def cellMove (toRead : Nat) : MoveFlight :=
  { srcSel := 0x4010, srcAddr := 0x1000000, dstSel := 0x4010, dstAddr := 0x1000100, size := 4, toRead := toRead }

/-- A flight of context 0 at index 1. -/
def fly (op : Nat) (k : FlightKind) : Flight :=
  { fid := 0, idx := 1, opcode := op, pass := 0, cpl := false, irq := false, issuedAt := 4000, kind := k }

/-- A FENCE behind a MOVE in flight. -/
def behindMove : State :=
  { ready with ctxs := [(0, { running [fig 0x34 0 []] with flights := [fly 0x10 (.move (cellMove 4))], nextFid := 1 })] }

theorem witness_ControlFigures :
    (reaches (at2 (fig 0 0 [])) 0 0 2 (fig 0 0 []) = true ∧ ((after (.nop 0) (at2 (fig 0 0 []))).ctx 0).pc = 3 ∧
      reaches (at2 (fig 0x34 0 [])) 0 0x34 2 (fig 0x34 0 []) = true ∧ ((after (.fence 0) (at2 (fig 0x34 0 []))).ctx 0).flights = [] ∧
      reaches (at2 (fig 3 0 [(0, 4, 7)])) 0 3 2 (fig 3 0 [(0, 4, 7)]) = true ∧
      ((after (.mark 0) (at2 (fig 3 0 [(0, 4, 7)]))).ctx 0).layers = [{ age := 0, tag := 7 }]) ∧
    (reaches (at2 (fig 2 0 [(0, 4, 1), (4, 3, 1)])) 0 2 2 (fig 2 0 [(0, 4, 1), (4, 3, 1)]) = true ∧
      ((after (.loop 0) (at2 (fig 2 0 [(0, 4, 1), (4, 3, 1)]))).ctx 0).loops = [] ∧
      ((after (.loop 0) (at2 (fig 2 0 [(0, 4, 3), (4, 3, 1)]))).ctx 0).loops = [⟨2, 1, 1, 1⟩] ∧
      ((after (.loop 0) (at2 (fig 2 0 [(0, 4, 3), (4, 3, 1)]))).ctx 0).pc = 1 ∧
      ((after (.loop 0) { ready with ctxs := [(0, { running [fig 2 0 [(0, 4, 3), (4, 3, 1)]] with loops := [⟨2, 1, 1, 1⟩] })] }).ctx 0).loops = [⟨2, 1, 0, 2⟩] ∧
      ((after (.loop 0) { ready with ctxs := [(0, { running [fig 2 0 [(0, 4, 3), (4, 3, 1)]] with loops := [⟨2, 1, 0, 2⟩] })] }).ctx 0).loops = []) ∧
    (reaches (at2 (fig 1 0 [])) 0 1 2 (fig 1 0 []) = true ∧ (at2 (fig 1 0 [])).ringRoom 0 = true ∧ ((after (.endCard 0) (at2 (fig 1 0 []))).ctx 0).state = .idle ∧
      ((after (.endCard 0) (at2 (fig 1 0 []))).ctx 0).stopIndex = 2) ∧
    (reaches behindMove 0 0x34 2 (fig 0x34 0 []) = true ∧ (after (.fence 0) behindMove).canIssue 0 = false) := by decide +kernel

theorem witness_FetchesAndFailures :
    (((after (.figureFetch 0 .ur) { ready with ctxs := [(0, running [])] }).ctx 0).prefetch = [(2, some (List.replicate 32 0))] ∧
      predict [] 2 [] < 9 ∧ ready.isReady = true) ∧
    ((at2 (fig 0x77 0 [])).nextFig 0 = some (2, fig 0x77 0 []) ∧ opKnown 0x77 = false ∧ ((after (.badOpcode 0) (at2 (fig 0x77 0 []))).ctx 0).lastStatus = 0x10 ∧
      ({ ready with ctxs := [(0, { running [] with pc := 9 })] } : State).canIssue 0 = true ∧
      ({ ready with ctxs := [(0, { running [] with prefetch := [(2, none)] })] } : State).canIssue 0 = true ∧
      (at2 (fig 0 4 [])).issueCheck 0 2 (fig 0 4 []) = some (0x11, 30) ∧ ((after (.nop 0) (at2 (fig 0 4 []))).ctx 0).lastStatus = 0x11 ∧
      ((after (.nop 0) (at2 (fig 0 4 []))).ctx 0).stopReason = .failed ∧ ((after (.nop 0) (at2 (fig 0 4 []))).ctx 0).stopIndex = 2) := by decide +kernel

/-- Context 0 with Bell 5 as given and one Figure. -/
def belling (b : LocalBell) (f : List Byte) : State := { ready with ctxs := [(0, { running [f] with bells := [(5, b)] })] }

/-- A BELL_WAIT with a timeout of 70 µs. -/
def belltimed : State :=
  { ready with ctxs := [(0, { running [] with flights := [fly 0x30 (.bellWait (.loc 5) false 0 70)], nextFid := 1, state := .waiting })] }

theorem witness_BellFigures :
    (reaches (belling {} (fig 0x31 0 [(0, 8, 9), (8, 2, 5)])) 0 0x31 2 (fig 0x31 0 [(0, 8, 9), (8, 2, 5)]) = true ∧
      ((belling {} []).bellTarget 0 5 false).toOption = some (.loc 5) ∧
      ((after (.bellRingSet 0) (belling {} (fig 0x31 0 [(0, 8, 9), (8, 2, 5)]))).ctx 0).bell 5 = { value := 9, full := true } ∧
      ((after (.bellRingAdd 0) (belling { value := 2 ^ 64 - 1 } (fig 0x31 4 [(0, 8, 9), (8, 2, 5)]))).ctx 0).bell 5 = { value := 8, full := true, overflow := true }) ∧
    (reaches (belling { value := 9, full := true } (fig 0x30 4 [(0, 8, 9), (8, 2, 5)])) 0 0x30 2 (fig 0x30 4 [(0, 8, 9), (8, 2, 5)]) = true ∧
      ((after (.bellWait 0) (belling { value := 9, full := true } (fig 0x30 4 [(0, 8, 9), (8, 2, 5)]))).ctx 0).flights = [] ∧
      ((after (.bellWait 0) (belling {} (fig 0x30 0 [(8, 2, 5)]))).ctx 0).state = .waiting) ∧
    (reaches (belling { value := 9, full := true } (fig 0x31 8 [(8, 2, 5), (10, 1, 6)])) 0 0x31 2 (fig 0x31 8 [(8, 2, 5), (10, 1, 6)]) = true ∧
      ((after (.bellRingTake 0) (belling { value := 9, full := true } (fig 0x31 8 [(8, 2, 5), (10, 1, 6)]))).ctx 0).bell 6 = { value := 9, full := true } ∧
      ((after (.bellRingTake 0) (belling { value := 9, full := true } (fig 0x31 8 [(8, 2, 5), (10, 1, 6)]))).ctx 0).bell 5 = { value := 9 } ∧
      ((after (.bellRingTake 0) (belling {} (fig 0x31 8 [(8, 2, 5), (10, 1, 6)]))).ctx 0).flights.length = 1) ∧
    (belltimed.counting = true ∧ belltimed.ringRoom 0 = true ∧ ((after (.bellTimeout 0) belltimed).ctx 0).lastStatus = 0x41 ∧ (after (.bellTimeout 0) belltimed).hall = 74000) := by decide +kernel

/-- A group entry of tenant 5 with a Tree A root, a parent through these ports, and flags; this engine has no child. -/
def treeEntry (root parent mask flags : Nat) : List Byte :=
  fields 512 [(0, 2, 3), (2, 1, 5), (3, 1, flags), (4, 2, 1), (6, 2, 2), (8, 1, 2), (9, 1, 16), (10, 1, if root = 16 then 1 else 2),
    (0x10, 1, root), (0x11, 1, parent), (0x18, 5, mask), (0x28, 1, root), (0x29, 1, parent), (0x30, 5, mask), (0x100, 4, 0), (0x104, 4, 0x401)]

/-- Context 0 with one Figure, group 3 with an entry, fabric port 0 Up. -/
def atGroup (f e : List Byte) (use : Nat) : State :=
  { at2 f with hearth := { thearth with config := tconfig use 1 }, ports := [(0, upPort)], groups := [(3, { entry := some e })] }

/-- A BARRIER on group 3 without timeout. -/
def bfig : List Byte := fig 0x32 0 [(0, 2, 3)]

theorem witness_BarriersAndCounts :
    (reaches (atGroup bfig (treeEntry 16 16 0 0) 5) 0 0x32 2 bfig = true ∧
      (atGroup bfig (treeEntry 16 16 0 0) 5).barrierCheck 3 (treeEntry 16 16 0 0) = none ∧
      ((after (.barrier 0) (atGroup bfig (treeEntry 16 16 0 0) 5)).ctx 0).flights.map (fun f => f.kind) = [.barrier 3 1 0 0 (some 7000) false] ∧
      ((after (.barrier 0) (atGroup bfig (treeEntry 16 16 0 0) 5)).grp 3).rootSeq = 1) ∧
    (reaches (atGroup bfig (treeEntry 16 16 0 1) 6) 0 0x32 2 bfig = true ∧ (atGroup bfig (treeEntry 16 16 0 1) 6).barrierCheck 3 (treeEntry 16 16 0 1) = none ∧
      (after (.barrier 0) (atGroup bfig (treeEntry 16 16 0 1) 6)).hearth.syncOut = .high) ∧
    (reaches (atGroup bfig (treeEntry 17 17 1 0) 5) 0 0x32 2 bfig = true ∧ (atGroup bfig (treeEntry 17 17 1 0) 5).barrierCheck 3 (treeEntry 17 17 1 0) = none ∧
      ((after (.barrier 0) (atGroup bfig (treeEntry 17 17 1 0) 5)).grp 3).barrierSeq = 1 ∧
      ((after (.barrier 0) (atGroup bfig (treeEntry 17 17 1 0) 5)).port 0).vc1.length = 1) ∧
    (reaches (at2 (fig 0x33 0 [(0, 8, 5000)])) 0 0x33 2 (fig 0x33 0 [(0, 8, 5000)]) = true ∧
      ((after (.waitCount 0) (at2 (fig 0x33 0 [(0, 8, 5000)]))).ctx 0).flights = [] ∧
      ((after (.waitCount 0) (at2 (fig 0x33 0 [(0, 8, 5001)]))).ctx 0).flights.map (fun f => f.kind) = [.waitCount 5001]) := by decide +kernel

/-- Context 0 with one flight, and nothing more to fetch. -/
def alone (f : Flight) : State := { ready with ctxs := [(0, { running [] with flights := [f], nextFid := 1, state := .waiting })] }

theorem witness_BarriersAndCounts_later :
    ((alone (fly 0x33 (.waitCount 9000))).ringRoom 0 = true ∧ (alone (fly 0x33 (.waitCount 9000))).counting = true ∧
      (after (.waitCountTarget 0) (alone (fly 0x33 (.waitCount 9000)))).hall = 9000 ∧
      ((after (.waitCountTarget 0) (alone (fly 0x33 (.waitCount 9000)))).ctx 0).flights = []) ∧
    ((after (.barrierTargetReached 0) (alone (fly 0x32 (.barrier 3 1 0 0 (some 7000) false)))).hall = 7000 ∧
      ((after (.barrierTargetReached 0) (alone (fly 0x32 (.barrier 3 1 0 0 (some 7000) false)))).ctx 0).flights = []) ∧
    ((after (.barrierTimeout 0) (alone (fly 0x32 (.barrier 3 1 0 50 none false)))).hall = 54000 ∧
      ((after (.barrierTimeout 0) (alone (fly 0x32 (.barrier 3 1 0 50 none false)))).ctx 0).lastStatus = 0x41) := by decide +kernel

/-- A MOVE of 4 bytes within extent 8, from Card index 2. -/
def mfig : List Byte := fig 0x10 0 [(0, 8, 0x1000000), (8, 8, 0x1000100), (16, 5, 4), (22, 2, 0x4010), (24, 2, 0x4010)]

/-- The source's bytes. -/
def moving : State := { at2 mfig with cellar := { ready.cellar with mem := [(0x1000001, 7), (0x1000102, 9)] } }

/-- The operand block of both local members: what is sent from, and received at, by accelerators 128 and 129. -/
def opBlock (s0 r0 s1 r1 : Bool) (v : Bool) : List Byte :=
  fields 160 ([(4, 2, 2)] ++
    (if s0 then [(32, 8, 0x10000), (40, 2, 128)] else []) ++ (if r0 then [(42, 2, 128), (48, 8, 0x20000)] else []) ++
    (if s1 then [(96, 8, 0x10000), (104, 2, 129)] else []) ++ (if r1 then [(106, 2, 129), (112, 8, 0x20000)] else []) ++
    (if v then [(64, 8, 0x30000), (72, 8, 0x40000), (128, 8, 0x30000), (136, 8, 0x40000)] else []))

/-- A collective of 16 bytes of 32-bit integers on group 3, its operand block in host memory; root 0, capacity 2. -/
def cfig (op : Nat) : List Byte :=
  fig op 0 ([(0, 8, 0x1000), (8, 5, if op = 0x26 then 0 else 16), (13, 2, 3)] ++ (if op = 0x26 then [(22, 4, 2)] else []))

/-- Context 0, its Card in the memory of accelerator 128, with that Figure; staging of two extents, for which a MOVE waits if `wait`. -/
def colling (op : Nat) (wait : Bool) : State :=
  { atGroup (cfig op) (treeEntry 16 16 0 0) 5 with
    ctxs := [(0, { running [cfig op] with run := { card4 with loc := 128, len := 9 } })]
    cellar := { ready.cellar with staging := [200, 201], waitingStaging := if wait then [(3, 3)] else [] } }

/-- An ALLREDUCE of one chunk that has arrived and has been formed. -/
def formed : Coll :=
  { opcode := 0x20, size := 4, group := 3, gen := 1, entry := treeEntry 16 16 0 0, dtype := 0, redop := 0, root := 0, seed := 0, capacity := 0, epoch := 0,
    stream := false, sr := false, padnan := false, padPattern := 0, ordered := false, members := [{ id := 0, pair := 0 }], reserved := true, reserve := 100,
    done1 := [(1, 0, 0)], finals := [⟨0, 0, 0, [1, 2, 3, 4], 5⟩] }

/-! ## Chunks, rings and barrier messages (O51 to O54) -/

/-- A MOVE chunk of two bytes toward engine 17, of context 0 here or of another engine's. -/
def tchunk (owner : Option (Nat × Nat)) (port : Option Nat) (attempt : Nat) : OutChunk :=
  { owner := owner, flow := 0, isMove := true, suite := 0, gen := 0, mask := [0, 4], ordered := false, dest := 17, edge := none, chunk := 2, formedBy := 16,
    seq := 9, treeB := false, down := false, attempt := attempt, epoch := 0, opcode := 0x10, dtype := 0, root := 0, size := 2, capacity := 0, srpad := 0,
    src := 0, dst := 0, aux := noAux, moveAddr := 0x40, moveSel := 0x4011, full := 0x10000, bytes := some [5, 6], port := port, sealed := port.isSome }

/-- `ready` with that chunk, and port 0 Up. -/
def sending (o : OutChunk) : State := { withPort upPort with outs := [o] }

/-- The acknowledgement, or the resend request, of that chunk. -/
def chunkFlit (type attempt : Nat) : List Byte :=
  ctlFlit type 17 [(6, 4, 2), (10, 1, attempt), (11, 1, 8), (12, 8, 9), (21, 1, 16), (22, 1, 17)]

/-- The header of a MOVE packet of context 4 of engine 17 for `dest`: chunk 1, sequence 3. -/
def packetHeader (dest : Nat) : List Byte :=
  fields 64 [(0, 1, dest), (1, 1, 17), (2, 2, 4), (6, 4, 1), (10, 4, 0), (14, 1, 0), (15, 1, 1), (16, 1, 8), (24, 8, 3), (32, 8, 0x1200000), (40, 2, 0x4010)]

/-- Its lane, with its two bytes. -/
def tlane : Lane :=
  { port := 0, flow := 4, isMove := true, gen := 0, chunk := 1, formedBy := 17, dest := 16, seq := 3, treeB := false, down := false, ordered := false, epoch := 0,
    attempt := 1, src := 0, dst := 0, rank := 0, moveAddr := 0x1200000, moveSel := 0x4010, owner := none, pieces := [(0, [5, 6])] }

/-- Its seal, with a check value. -/
def tseal (crc : Nat) : List Byte :=
  fields 64 [(0, 2, 4), (4, 4, 1), (12, 4, 2), (16, 4, crc), (20, 1, 1), (21, 1, 8), (22, 1, 17), (23, 1, 17), (24, 1, 0x10), (28, 5, 2), (40, 8, 3)]

/-- `ready` with port 0 Up, and these lanes and confirmed chunks. -/
def receiving (lanes : List Lane) (confirmed : List ChunkName) : State := { withPort upPort with lanes := lanes, confirmed := confirmed }

/-- A ring of record 1 of the block at 0x1900_0000, from context 2 of engine 17. -/
def tring (marks : List (Nat × Nat)) : List Byte := ringFlit 17 2 5 6 true 9 16 0x19000020 marks

/-- `ready` with that block under tenant 5, port 0 Up and rings held. -/
def ringing (tenant : BitVec 8) (rings : List HeldRing) : State :=
  { belled [(0x19000000, ⟨0, 5⟩)] [(0x19000020, { tenant := tenant, tenantValid := true, value := 4, full := true })] with ports := [(0, upPort)], rings := rings }

/-- Such a ring, held. -/
def theld (lost : Bool) (marks : List (Nat × Nat)) : HeldRing :=
  { port := 0, engine := 17, ctx := 2, add := false, figIdx := 6, tenant := 5, value := 8, offset := 0x19000020, marks := marks, lost := lost }

theorem witness_RemoteRings :
    (ctlOk 0x02 (tring []) = true ∧ le (tring []) 20 1 = 16 ∧ (ringing 5 []).marksMet ((ringing 5 []).ringOf 0 (tring []) false) = true ∧
      (ringing 5 []).clearingFor 0x19000020 = none ∧ (ringing 5 []).recordCheck 5 0x19000020 = none ∧ ((ringing 5 []).bell 0x19000020).waiters = [] ∧
      ((after (.remoteBellRing 0 (tring [])) (ringing 5 [])).bell 0x19000020).value = 13 ∧
      ((after (.remoteBellRing 0 (tring [])) (ringing 5 [])).bell 0x19000020).doubleFill = 1 ∧
      ((after (.remoteBellRing 0 (tring [])) (ringing 5 [])).bell 0x19000020).lastFig = 6) ∧
    ((ringing 6 []).recordCheck 5 0x19000020 ≠ none ∧ ((after (.remoteBellRing 0 (tring [])) (ringing 6 [])).bell 0x19000020).value = 4) ∧
    ((ringing 5 []).marksMet ((ringing 5 []).ringOf 0 (tring [(0xFFF, 3)]) false) = false ∧ (after (.remoteBellRing 0 (tring [(0xFFF, 3)])) (ringing 5 [])).rings.length = 1) ∧
    ((after (.remoteRingMarksMet 0) (ringing 5 [theld true []])).rings = [] ∧ (ringing 5 []).marksMet (theld false [(0xFFF, 3)]) = false ∧
      (ringing 5 []).marksMet (theld false []) = true ∧ ((after (.remoteRingMarksMet 0) (ringing 5 [theld false []])).bell 0x19000020).value = 8) := by decide +kernel

/-- `ready` with group 3, port 0 Up, and one flight of context 0. -/
def inGroup (g : Group) (fs : List Flight) : State :=
  { ready with ports := [(0, upPort)], groups := [(3, g)], ctxs := [(0, { running [] with flights := fs, nextFid := 1, state := .waiting })] }

/-- A barrier flit of group 3, generation 1, sequence 0, from engine 17, with an 8-byte time. -/
def bflit (type at_ : Nat) : List Byte :=
  ctlFlit type 17 (if type = 0x11 then [(2, 2, 3), (4, 2, 1), (10, 8, at_)] else [(2, 2, 3), (4, 2, 1), (18, 1, 17)])

/-- A peer abort of group 3, of BARRIER 0 or of collective 0. -/
def aflit (barrier : Nat) : List Byte := ctlFlit 0x12 17 [(2, 2, 3), (4, 2, 1), (10, 1, 17), (11, 1, barrier), (12, 1, 0x30)]

/-- The entry of a root of three engines, or of one on the way to engine 17. -/
def rootEntry (engines : Nat) : List Byte := fields 512 [(0, 2, 3), (2, 1, 5), (4, 2, 1), (10, 1, engines), (0x10, 1, 16), (0x11, 1, 16)]

theorem witness_BarrierMessagesAndAborts :
    (ctlOk 0x10 (bflit 0x10 0) = true ∧ geGen (rootEntry 3) = 1 ∧ (insertNat 17 [16]).length < 3 ∧ (insertNat 17 [16]).length = 2 ∧
      ((after (.barrierArrival 0 (bflit 0x10 0)) (inGroup { entry := some (rootEntry 3), arrived := [16] } [])).grp 3).arrived = [16, 17] ∧
      ((after (.barrierArrival 0 (bflit 0x10 0)) (inGroup { entry := some (rootEntry 2), arrived := [16] } [])).grp 3).rootSeq = 1 ∧
      (inGroup {} []).lowestUp (gePorts (treeEntry 17 17 1 0) false 0) = some 0 ∧
      ((after (.barrierArrival 0 (bflit 0x10 0)) (inGroup { entry := some (treeEntry 17 17 1 0) } [])).port 0).vc1.length = 1) ∧
    (ctlOk 0x11 (bflit 0x11 9000) = true ∧ ((inGroup {} [fly 0x32 (.barrier 3 1 0 0 none false)]).barrierOn 3).map (fun x => x.1) = some 0 ∧
      ((after (.barrierRelease 0 (bflit 0x11 9000)) (inGroup { entry := some (treeEntry 17 17 1 0) } [fly 0x32 (.barrier 3 1 0 0 none false)])).ctx 0).flights.map (fun f => f.kind) =
        [.barrier 3 1 0 0 (some 9000) false] ∧
      (after (.barrierRelease 0 (bflit 0x11 4999)) (inGroup { entry := some (treeEntry 17 17 1 0) } [fly 0x32 (.barrier 3 1 0 0 none false)])).hearth.lateRelease = 1) ∧
    (ctlOk 0x12 (aflit 1) = true ∧ (inGroup {} [fly 0x32 (.barrier 3 1 0 0 none false)]).abortNames 3 ⟨1, 0, 17, true, 0x30⟩ = some (0, 0) ∧
      ((after (.peerAbort 0 (aflit 1)) (inGroup { entry := some (treeEntry 17 17 1 0) } [fly 0x32 (.barrier 3 1 0 0 none false)])).ctx 0).lastStatus = 0x33 ∧
      ((after (.peerAbort 0 (aflit 0)) (inGroup { entry := some (treeEntry 17 17 1 0) } [])).grp 3).kept = [⟨1, 0, 17, false, 0x30⟩] ∧
      ((after (.peerAbort 0 (aflit 0)) (inGroup { entry := some (treeEntry 17 17 1 0), seen := [⟨1, 0, 17, false, 0x30⟩] } [])).grp 3).kept = []) := by decide +kernel

/-! ## The whole machine (O55 to O60) -/

/-- The states in which the invariants start, and steps from them. -/
theorem witness_MachineInvariants :
    LockedPastLocking ready ∧ ready.hearth.locked = true ∧ Memory.wf 0 moving.cellar.mem = true ∧ ready.pending = [] ∧
    (step { moving with pending := [.move 0, .nop 0] } = exec (.move 0) { moving with pending := [.nop 0] }) ∧
    (nextOr ready (step ready)).hall = 5001 := by
  refine ⟨fun _ => ?_, by decide +kernel, by decide +kernel, rfl, rfl, by decide +kernel⟩
  decide +kernel

theorem witness_MachineInvariants_flash : Memory.wf Config.erasedByte ready.flash.mem = true := by decide

/-! ## Further forms: the die, power, the count, the Porch (O4 to O14) -/

theorem witness_ThermalAndTap_forms :
    ((dieAt 380 1600).thermal.tj = 380 ∧ ((dieAt 380 1600).ctx 0).flights = [] ∧ (after .throttleStepDown (dieAt 380 1600)).ctx 0 = (dieAt 380 1600).ctx 0) ∧
    (ready.hearth.locked = true ∧ ready.halt.state = .running ∧ (after (.tapInstruction 0x08) ready).halt.state = .halting ∧
      (after (.tapInstruction 0x09) ready).tap.drivesPins = true ∧
      (after (.tapHaltInstruction 0x00) { ready with halt := { state := .halted } }).halt.state = .halted ∧
      after (.tapHaltInstruction 0x02) ready = ready ∧ after (.tapHaltInstruction 0x0A) ready = ready) ∧
    ((after .tapReset { ready with fuses := { stepping := 0 } }).tapCapture = some 0x002569AF ∧
      (after .tapReset { ready with fuses := { stepping := 1 } }).tapCapture = some 0x102569AF) := by decide +kernel

theorem witness_PowerStates_forms :
    ((powered .dozeWaking { ready with arrivals := [.stop 1 0] }).hearth.power = .dozeWaking ∧ trafficHost (.stop 1 0) = some 1 ∧
      ((after .dozeWakeComplete { powered .dozeWaking (withCtx0 waiting) with arrivals := [.stop 1 0] }).ctx 0).stopReason = .stop ∧
      (after .dozeWakeComplete { powered .dozeWaking (withCtx0 waiting) with arrivals := [.stop 1 0] }).arrivals = []) ∧
    ((powered .doze ready).hostServing 1 = true ∧ (powered .doze ready).asleep = true ∧
      (after (.stop 1 0) (powered .doze ready)).arrivals = [.stop 1 0] ∧ (after (.stop 1 0) (powered .doze ready)).hearth.power = .dozeWaking) ∧
    (trafficPort (.peerAbort 0 []) = some 0 ∧ (powered .doze (withPort upPort)).portUp 0 = true ∧
      (after (.peerAbort 0 []) (powered .dozeWaking (withPort upPort))).arrivals = [.peerAbort 0 []]) := by decide +kernel

/-- A follower of the neighbour on port 3 that has asked it. -/
def following : State :=
  { linked 5 0 with sync := { status := .synced, depth := 1, source := some 3, requests := [(3, (9, 4000))] } }

/-- The reply to that request: the far end took it at `t2` and answered at `t3`. -/
def sreply (t2 t3 : Nat) : List Byte := ctlFlit 0x13 1 [(2, 1, 1), (4, 1, 1), (6, 2, 9), (8, 8, 4000), (16, 8, t2), (24, 8, t3)]

theorem witness_SyncAndEpochs_forms :
    (ctlOk 0x13 (sreply 4500 4501) = true ∧ following.master = false ∧ le (sreply 0 0) 5 1 ≠ following.engineId ∧
      (after (.syncExchange 3 (sreply 4500 4501)) following).sync.offset2 = 1 ∧ (after (.syncExchange 3 (sreply 4500 4501)) following).sync.status = .synced ∧
      (after (.syncExchange 3 (sreply 4500 4502)) following).sync.offset2 = 2 ∧ (after (.syncExchange 3 (sreply 4500 4502)) following).sync.status = .slewing ∧
      (after (.syncExchange 3 (sreply 2005000 4500)) following).sync.status = .unsynced) ∧
    ((syncAt 0x100000 4 1).syncUse 2 = true ∧ (after .epochPulse { syncAt 0x100000 4 1 with halt := { state := .halting } }).hearth.syncOut = .high ∧
      (after .epochPulse { syncAt 0x100000 4 1 with halt := { state := .halted } }).hearth.syncOut = .low) := by decide +kernel

theorem witness_HostLinkUpAndDown_forms :
    ((withHost { state := .upNotReady }).host 0).state = .upNotReady ∧ ((after (.hostLinkDown 0) (withHost { state := .upNotReady })).host 0).state = .linkLost ∧
    ((after (.hostWidthChange 0 4) (withHost { state := .upNotReady })).host 0).width = 4 ∧ (ready.hearth.live = none) ∧
    ((after (.hostLinkUp 0 6 16) { withHost { state := .detect } with hearth := { thearth with live := some ⟨true, 0⟩ } }).host 0).state = .detect := by
  decide +kernel

theorem witness_HostConfigurationAndSession_forms :
    (ready.asleep = false ∧ ((after (.configRequest 1 .readClassCode) ready).host 1).cpl = .data [0x10, 0x02, 0x05] ∧
      ((after (.configRequest 0 .readClassCode) ready).host 0).cpl = .data [0, 0, 0x12] ∧
      ((after (.configRequest 0 (.d3hot true)) ready).host 0).d3hot = true ∧ ((after (.configRequest 1 (.hdmCommit false)) ready).host 1).hdmCommitted = false ∧
      ((after (.configRequest 0 (.hdmCommit true)) ready).host 0).hdmCommitted = false ∧
      ((after (.configRequest 0 (.completionTimeout 4000001)) ready).host 0).timeoutUs = 20000 ∧
      ((after (.configRequest 0 (.completionTimeout 4000000)) ready).host 0).timeoutUs = 4000000) := by decide +kernel

/-- A MOVE toward engine 17 whose source is host 0's memory, 64 bytes of it outstanding. -/
def awayMove : MoveFlight := { srcSel := 0x2010, srcAddr := 0x1000, dstSel := 0x4011, dstAddr := 0x100, size := 64, toRead := 64 }

/-- Context 0 with it alone in flight, its read on host 0 outstanding. -/
def moveReading (timedOut : Bool) : State :=
  { alone (fly 0x10 (.move awayMove)) with
    hosts := [(0, { served with tags := [{ tag := 9, req := ⟨0x1000, 64, .move 0 0 0⟩, issuedAt := 4000, threshold := 1500, abandoned := false, timedOut := timedOut }] })] }

/-- `Alone`, evaluated. -/
def isAlone (s : State) (c : Nat) (f : Flight) : Bool :=
  (s.ctx c).flights == [f] && f.done == none && (s.ctx c).live && (s.ctx c).latched == none && s.ringRoom c

theorem isAlone_alone {s : State} {c : Nat} {f : Flight} (w : isAlone s c f = true) : Alone s c f := by
  simpa [isAlone, Alone, and_assoc] using w

theorem witness_PorchReadsAndWrites_forms :
    (isAlone (moveReading false) 0 (fly 0x10 (.move awayMove)) = true ∧ awayMove.dstEngine ≠ (moveReading false).engineId ∧
      ((after (.dmaReadCompletion 0 9 (.ok (List.replicate 63 0))) (moveReading false)).ctx 0).lastStatus = 0x23 ∧
      ((after (.dmaReadCompletion 0 9 .ca) (moveReading false)).ctx 0).lastStatus = 0x23 ∧
      ((after (.dmaReadCompletion 0 9 .ca) (moveReading false)).ctx 0).flights = [] ∧
      ((after (.dmaReadCompletion 0 9 (.ok (List.replicate 64 7))) (moveReading false)).host 0).tags = [] ∧
      ((after (.dmaReadCompletion 0 9 (.ok (List.replicate 64 7))) (moveReading false)).ctx 0).flights.map (fun f => match f.kind with
        | .move m => (m.toRead, m.pieces) | _ => (1, [])) = [(0, [(0, List.replicate 64 7)])]) ∧
    (((after (.dmaCompletionTimeout 0 9) (moveReading false)).ctx 0).lastStatus = 0x23 ∧
      ((after (.dmaCompletionTimeout 0 9) (moveReading false)).host 0).tags.map (fun t => t.timedOut) = [true]) ∧
    (((after (.postedCreditReturn 0 3) (withHost { served with path := [.msix 0 0 1, .msix 0 0 2], heldWrites := [] })).host 0).pathSince = 5000 ∧
      (after (.postedCreditReturn 0 3) (withHost { state := .upNotReady })) = withHost { state := .upNotReady }) := by decide +kernel

/-! ## Further forms: host reads, the Cellar, contexts (O15 to O24) -/

/-- A MOVE whose destination waits for the translation of page 5 of host 2. -/
def atsStalled : State :=
  { alone (fly 0x10 (.move (cellMove 4))) with hosts := [(2, { served with heldReads := [⟨0x5000, 64, .move 0 0 0⟩], atsWaiting := [5] })] }

theorem witness_TranslationsAndVectors_forms :
    (atsStalled.atsOn 2 = true ∧ (atsStalled.host 2).waitsFor 5 = [(0, 0)] ∧
      ((after (.atsTranslationCompletion 2 0x5000 none) atsStalled).ctx 0).lastStatus = 0x23) ∧
    (after (.slowReadNs 0 199) ready = ready ∧ after (.slowReadNs 0 10001) ready = ready) := by decide +kernel

/-- Extent 9 asleep in Retention. -/
def coldNine : State := filled [(0x1200001, 7)] [] |>.modExt 9 (fun x => { x with power := .retention })

theorem witness_CxlMem_forms :
    (((after (.cxlMemRead 1 0 (some 7)) ready).host 1).cpl = .poison ∧ (after (.cxlMemRead 1 0 (some 7)) ready).cellar.poisoned = [0x48000]) ∧
    ((coldNine.ext 9).power = .retention ∧ coldNine.cellar.waiting = [] ∧ ((after (.cxlMemRead 1 0 none) coldNine).ext 9).waking = true ∧
      (after (.cxlMemRead 1 0 none) coldNine).cellar.waiting = [.host ⟨1, .read 0 64 none, 0x1200000⟩] ∧
      ((after (.groupWakeComplete 9) (after (.cxlMemRead 1 0 none) coldNine)).host 1).cpl = .data ([0, 7] ++ List.replicate 62 0) ∧
      (after (.groupWakeComplete 9) (after (.cxlMemRead 1 0 none) coldNine)).cellar.waiting = []) ∧
    (([true].take 64).getD 1 false = false ∧ (filled [] [0x48000]).poisonIn 0x1200000 64 = true ∧
      ((after (.cxlMemWrite 1 0 [5] [true] none) (filled [] [0x48000])).host 1).poisonPartialDrops = 1 ∧
      (after (.cxlMemWrite 1 0 [5] [true] (some 0)) ready).cellar.poisoned = [0x48000] ∧
      (after (.cxlMemWrite 1 0 [5] [true] (some 0)) ready).cellar.mem = []) := by decide +kernel

theorem witness_Bar2ReadsAndWrites_forms :
    (filled [] [0x40000]).poisonIn 0x1000004 3 = true ∧ ((after (.bar2Access 0 4 3 none false none) (filled [] [0x40000])).host 0).cpl = .poison ∧
    ((after (.bar2Access 0 4 513 none false none) ready).host 0).cpl = .ur ∧ ((after (.bar2Access 0 4 0 none false none) ready).host 0).cpl = .ur ∧
    ((after (.bar2Access 0 0x1FFE01 512 none false none) ready).host 0).cpl = .ur := by decide +kernel

/-- Host 1 with one read of 64 bytes waiting, at a bucket of 4 units a µs. -/
def queued1 (tokens rate : Nat) : State :=
  { ready with hosts := [(1, { served with hdmCommitted := true, window := [(0, 9)], rate64 := rate, depth64 := 64, tokens := tokens, waitingReqs := [.read 0 64 none] })] }

theorem witness_TokensAndDynamicCapacity :
    (((queued1 1 4).host 1).hasTokens 1 = true ∧ (CellarReq.read 0 64 none).units = 1 ∧ ((queued1 1 4).hall_ 1).requests = [] ∧
      ((after (.tokenAvailable 1) (queued1 1 4)).host 1).waitingReqs = [] ∧ ((after (.tokenAvailable 1) (queued1 1 4)).host 1).tokens = 0 ∧
      ((after (.tokenAvailable 1) (queued1 0 0)).host 1).waitingReqs = []) ∧
    (((queued 1).host 1).hasTokens 1 = true ∧ ((after (.tokenAvailable 1) (queued 1)).host 1).waitingReqs = [.read 64 64 none] ∧
      ((after (.tokenAvailable 1) (queued 1)).host 1).tokens = 0) ∧
    ((queued1 0 4).counting = true ∧ (queued1 0 4).now = 5000 ∧ (after (.tokenAvailable 1) (queued1 0 4)).now = 6000 ∧
      ((after (.tokenAvailable 1) (queued1 0 4)).host 1).waitingReqs = []) ∧
    ((after .loadIndexUpdate (queued 16)).host 1).loadIndex = 191 ∧ ((after .loadIndexUpdate (queued 64)).host 1).loadIndex = 0 ∧
    ((queued 1).cxlOn 1 = true ∧ ((after (.addDynamicCapacityResponse 1 [3, 5]) (queued 1)).host 1).dcAccepted = [0, 3] ∧
      ((after (.addDynamicCapacityResponse 1 [3, 5]) (queued 1)).host 1).dcOffered = [] ∧
      ((after (.releaseDynamicCapacity 1 [0]) (queued 1)).host 1).dcAccepted = []) ∧
    ((cplBytes ((after (.getDynamicCapacityConfiguration 1) (queued 1)).host 1).cpl).length = 32 ∧
      le (cplBytes ((after (.getDynamicCapacityConfiguration 1) (queued 1)).host 1).cpl) 16 8 = 0x80000000 ∧
      (cplBytes ((after (.getDynamicCapacityExtentList 1) (queued 1)).host 1).cpl).length = 16) := by
  decide +kernel

/-- Extent 8 and region 2 with extent 12, with time left and set since the last tick or not. -/
def leased (left : Nat) (fresh : Bool) : State :=
  { ready with
    hosts := [(0, { served with window := [(0, 8)] })]
    cellar := { extents := [(8, { state := .granted, owner := .host 0, leaseS := 30, leftMs := left, fresh := fresh, power := .awake }),
                  (12, { state := .granted, owner := .region 2, leaseS := 30, power := .awake })]
                regions := [(2, { extents := [12], leaseS := 30, leftMs := left, fresh := fresh })] } }

/-- The same after a tick that has ended both leases. -/
def leasesOver : State := after .leaseTick (leased 1 false)

theorem witness_Leases :
    ((after (.lease 0 0x00050000) ready).host 0).renewals = [0x00050000] ∧
    (((after .leaseTick (leased 30000 true)).ext 8).leftMs = 30000 ∧ ((after .leaseTick (leased 30000 false)).ext 8).leftMs = 29999 ∧
      ((after .leaseTick (leased 2 false)).ext 8).state = .granted ∧
      FMap.find (after .leaseTick (leased 2 false)).cellar.regions 2 = some { extents := [12], leaseS := 30, leftMs := 1, fresh := false } ∧
      (leasesOver.ext 8).state = .reclaiming ∧ (leasesOver.ext 8).due = true ∧ (leasesOver.ext 8).cause = 1 ∧ (leasesOver.ext 12).due = true ∧
      (leasesOver.host 0).window = [(0, 8)]) ∧
    (bit 0x00050000 15 = false ∧ FMap.find ((leased 1 false).host 0).window (bits 0x00050000 9 0) = some 8 ∧
      ((after .leaseTick (after (.lease 0 0x00050000) (leased 1 false))).ext 8).leftMs = 5000 ∧
      ((after .leaseTick (after (.lease 0 0x00000000) (leased 1 false))).ext 8).leftMs = 30000 ∧
      ((after .leaseTick (after (.lease 0 0x00050000) (leased 1 false))).host 0).renewals = []) ∧
    (leasesOver.leaseDue false 8 = true ∧ leasesOver.leaseDue true 2 = true ∧ ((after (.leaseExpiry false 8) leasesOver).ext 8).due = false ∧
      ((after (.leaseExpiry false 8) leasesOver).host 0).window = [] ∧ (after (.leaseExpiry false 8) leasesOver).cellar.scrubQ = [⟨[8, 12]⟩] ∧
      (after (.leaseExpiry true 2) leasesOver).cellar.regions = []) ∧
    ((leased 1 false).leaseDue false 8 = false ∧ after (.leaseExpiry false 8) (leased 1 false) = leased 1 false) := by
  decide +kernel

/-- The lane whose turn it is, and the state of the extent there. -/
def patrolling (st : ExtState) : State :=
  { ready with cellar := { ready.cellar with extents := [(8, { state := st, owner := .host 0, leaseS := 30, leftMs := 30000, power := .awake })], patrolRows := [(0, 2047)] } }

theorem witness_CellarMaintenance :
    (((after (.scrubBatchComplete [6]) scrubbing).ext 6) =
        { state := .granted, owner := .host 0, leaseS := 30, leftMs := 30000, fresh := true, power := .awake, quarantine := true } ∧
      (after (.scrubBatchComplete []) scrubbing).cellar.mem = [(0xE00000, 2)] ∧ (after (.scrubBatchComplete []) scrubbing).cellar.written = [0x38000] ∧
      (after (.scrubBatchComplete []) scrubbing).cellar.scrubQ = [⟨[7]⟩] ∧ scrubbing.hostServing 0 = true ∧ scrubbing.hostFenced 0 = false ∧
      ((after (.scrubBatchComplete []) (scrubbing.modExt 6 (fun x => { x with state := .reclaiming }))).ext 6).state = .free) ∧
    (((after (.groupRetentionTimeout 8) ready).ext 8).power = .retention ∧
      ((after (.groupWakeComplete 8) (ready.modExt 8 (fun x => { x with power := .retention, waking := true }))).ext 8).power = .awake) ∧
    ((patrolling .granted).laneAt_ 0 2047 = some (8, 1023) ∧
      (after (.patrolRow 0 [⟨31, 8191, false⟩]) (patrolling .granted)).cellar.poisoned = [8 * 0x8000 + 1023 * 32 + 31] ∧
      ((after (.patrolRow 0 [⟨31, 8191, false⟩]) (patrolling .granted)).ext 8).quarantine = true ∧
      ((after (.patrolRow 0 [⟨0, 8184, true⟩]) (patrolling .granted)).ext 8).corrected = 1 ∧
      FMap.get 0 (after (.patrolRow 0 []) { ready with cellar := { ready.cellar with patrolRows := [(0, 102399)] } }).cellar.patrolRows 0 = 0 ∧
      ((after (.patrolRow 0 [⟨31, 8191, false⟩]) (patrolling .staging)).ext 8).state = .quarantined ∧
      (after (.patrolRow 0 [⟨31, 8191, false⟩]) (patrolling .staging)).flash.retireList = [8] ∧
      after (.patrolRow 0 []) (powered .doze ready) = powered .doze ready) ∧
    ((after .patrolCatchUp (powered .doze ready)).hearth.power = .dozeWaking ∧ (after .patrolCatchUp ready).hearth.power = .active) ∧
    (((after (.arrayPatrol (.uncorrectable 4 9)) ready).log.ring.map (fun r => (r.event, r.severity, r.unitClass, r.unitIndex))) = [(0x0202, 3, 4, 9)] ∧
      (after (.arrayPatrol (.corrected 4 9)) ready).svc.corrected = [(0x4000009, 1)]) ∧
    ((after .faultRecordAtticWrite { ready with log := { ring := [trecord] } }).log.attic = [{ trecord with inAttic := true }] ∧
      (after .faultRecordAtticWrite ready).log.attic = []) := by decide +kernel

theorem witness_StartBeginsCard_forms :
    ((withCtx0 { state := .draining, regs := card4 }).startCheck 0 0 card4 = none ∧
      ((after (.start 1 0) (withCtx0 { state := .draining, regs := card4 })).ctx 0).state = .drainRestart ∧
      ((after (.start 1 0) (withCtx0 { state := .draining, regs := { card4 with base := 0x1000010 } })).ctx 0).lastStatus = 0x13 ∧
      ((after (.start 1 0) (withCtx0 waiting)).suite 0).dropped = 1 ∧ ((after (.start 1 0) (withCtx0 { state := .drainRestart })).suite 0).dropped = 1) ∧
    (({ withCtx0 { state := .idle, regs := card4 } with svc := { scans := [{ unitClass := 3, units := [0] }] } } : State).callerOut 0 = true ∧
      ((after (.start 1 0) { withCtx0 { state := .idle, regs := card4 } with svc := { scans := [{ unitClass := 3, units := [0] }] } }).ctx 0).heldStart = some card4) ∧
    (((after (.start 1 0) { withCtx0 { state := .idle, regs := card4 } with suites := [(0, { state := .draining })] }).suite 0).dropped = 1) := by
  decide +kernel

/-- A MOVE in flight at index 3 of a context that drains, or runs. -/
def movingCtx (st : CtxState) : Context :=
  { state := st, run := card4, pc := 3, queued := if st = .drainRestart then some card4 else none
    flights := [{ fid := 0, idx := 3, opcode := 0x10, pass := 0, cpl := false, irq := false, issuedAt := 0, kind := .move (cellMove 4) }] }

theorem witness_StopAndAbort_forms :
    ((withCtx0 (movingCtx .waiting)).ringRoom 0 = true ∧ ((after (.stop 0 0) (withCtx0 (movingCtx .waiting))).ctx 0).state = .draining ∧
      ((after (.stop 0 0) (withCtx0 (movingCtx .waiting))).ctx 0).flights.length = 1 ∧
      ((after (.abort 0 0) (withCtx0 (movingCtx .draining))).ctx 0).lastStatus = 0x40 ∧ ((after (.abort 0 0) (withCtx0 (movingCtx .draining))).ctx 0).state = .stopped ∧
      ((after (.abort 0 0) (withCtx0 (movingCtx .drainRestart))).ctx 0).state = .stopped ∧
      ((after (.stop 0 0) (withCtx0 (movingCtx .drainRestart))).ctx 0).queued = none ∧
      ((after (.stop 0 0) (withCtx0 (movingCtx .drainRestart))).ctx 0).state = .draining) ∧
    (((after (.stop 0 0) ready).suite 0).dropped = 1 ∧ ((after (.abort 0 0) ready).suite 0).dropped = 1 ∧
      ((after (.stop 0 0) (withCtx0 (movingCtx .draining))).suite 0).dropped = 1) ∧
    (((after (.abort 0 0) (withCtx0 { movingCtx .waiting with flights := (movingCtx .waiting).flights.map (fun f => { f with done := some { status := 0x23 } }) })).ctx 0).lastStatus = 0x40) := by
  decide +kernel

theorem witness_AssignmentAndClearing_forms :
    (translationFields 0x1007 = 0x1007 ∧ bit 0x1007 13 = false ∧
      ((after (.translation 1 0 0x1007) (withCtx0 { state := .idle })).suite 0).dropped = 1 ∧
      ((after (.translation 0 0 0xFFFC000000009007) (withCtx0 { state := .idle })).ctx 0).trans = [(7, 0x1007)]) ∧
    (((after (.assign 0 0x3000010500) (withCtx0 { state := .clearing })).ctx 0).latched.isSome = true ∧
      (withCtx0 { state := .clearing }).assignCheck 0 0 (assignmentOf 0x3000010500) = none ∧
      (ready.suite 0).quotaCtxEff = [] ∧
      ((after (.assign 0 0x3000010503) { ready with suites := [(0, { state := .serving, quotaCtx := [(5, 9)] })] }).suite 0).quotaCtxEff = [(5, 9)]) := by decide +kernel

/-! ## Further forms: Suites, Bells, service (O25 to O30) -/

theorem witness_GroupEntries_forms :
    (((after (.groupCommit 0 3) (grouped [] {})).suite 0).groupResult = 4 ∧ (after (.groupCommit 0 3) (grouped [] {})).groups = [(3, {})] ∧
      ((after (.groupInvalidate 0 0x103) ready).suite 0).groupResult = 2 ∧
      ((after (.groupInvalidate 0 3) { ready with suites := [(0, { state := .draining })] }).suite 0).groupResult = 6 ∧
      after (.stagedCommitApplied 3) ready = ready) ∧
    ((({ busy3 with groups := [(3, { entry := some (gentry 3 0), staged := some .invalidate })] } : State).groupBusy 3 = true) ∧
      after (.stagedCommitApplied 3) { busy3 with groups := [(3, { entry := some (gentry 3 0), staged := some .invalidate })] } =
        { busy3 with groups := [(3, { entry := some (gentry 3 0), staged := some .invalidate })] }) ∧
    (((after (.groupRead 0 0x3) (grouped [] { entry := some [1], staged := some (.commit [2]) })).suite 0).groupReadback = [1] ∧
      ((after (.groupRead 0 0x1003) (grouped [] { entry := some [1], staged := some .invalidate })).suite 0).groupReadback = [] ∧
      ((after (.groupRead 0 0x103) (grouped [] { entry := some [1] })).suite 0).groupReadback = []) := by decide +kernel

theorem witness_BellBlocksAndDebug_forms :
    (((after (.bellBlockFree 0 0x19000000) { debugging with cellar := { debugging.cellar with
        bells := [(0x19000020, { tenant := 5, tenantValid := true, waiters := [0] })] } }).suite 0).bellResult = 4 ∧
      ready.allocCheck 0 5 = none ∧ ready.blockOffsets = [] ∧ ((after (.bellBlockAllocate 0 5) ready).suite 0).bellResult = 1 ∧
      ((after (.bellBlockAllocate 0 6) ready).suite 0).bellResult = 3) ∧
    (ready.suiteHasCtx 0 255 = true ∧ ((after (.bellDebugSel 0 0x3000) ready).suite 0).dbg.done = true ∧
      ((after (.bellDebugSel 0 0x3000) ready).suite 0).dbg.error = true) := by decide +kernel

theorem witness_SuiteReportsAndQuotas :
    (stalled0.isReady = true ∧ stalled0.suiteOn 0 = true ∧ stalled0.stalled 0 = true ∧ (stalled0.suite 0).stallTold = false ∧
      ((after (.stallDetected 0) stalled0).suite 0).stallTold = true ∧
      ((after (.stallDetected 0) stalled0).suite 0).stallReport.map (fun e => (e.ctx, e.awaited)) = [(0, 9)] ∧
      (stalled0.suite 0).progressAt.toNat + stalled0.deadlockNs = 10000000 ∧
      ((after (.stallDetected 0) { stalled0 with hall := 10000000 }).suite 0).stallHall = 10000000 ∧
      ((after (.stallDetected 0) { stalled0 with hall := 9999999 }).suite 0).stallTold = true ∧
      ready.stalled 0 = false ∧ ((after (.stallClear 0) (after (.stallDetected 0) stalled0)).suite 0).stallReport = [] ∧
      after (.stallDetected 0) (after (.stallDetected 0) stalled0) = after (.stallDetected 0) stalled0) ∧
    (((after (.quotaWrite 0 5 0x01000004) ready).suite 0).quotaCtx = [(5, 4)] ∧ ((after (.quotaWrite 0 5 0x01000004) ready).suite 0).quotaGrp = [] ∧
      ((after (.quotaWrite 0 5 0x00000100) ready).suite 0).quotaGrp = [(5, 0)] ∧
      ((after (.quotaWrite 0 5 0x01010101) { ready with suites := [(0, { state := .serving, quotaCtx := [(5, 7)] })] }).suite 0).quotaCtx = [(5, 7)]) ∧
    (((after (.recordSeq 0 4) { ready with log := { nextSeq := 6, ring := [⟨5, 1, 2, 2, 4, 3, none, false, false, false, 0, 0, 0, 0, 0, 16, 7, 0, false⟩] } }).suite 0).recordValid = true ∧
      ((after (.recordSeq 0 9) ready).suite 0).recordValid = false ∧ ((after (.recordSeq 0 9) ready).suite 0).recordDone = true) := by
  decide +kernel

theorem witness_Bar0Access_forms :
    ((((after (.registerWrite 0 0x100020 5 false) ready).host 0).writeLatch = [(0x100020, 5)]) ∧
      ((after (.registerWrite 0 0x100024 1 false) (after (.registerWrite 0 0x100020 5 false) ready)).ctx 0).regs.base = 0x100000005 ∧
      ((after (.registerWrite 0 0x100020 0x700000009 true) ready).ctx 0).regs.base = 0x700000009 ∧
      after (.registerWrite 0 0x100FFC 9 false) ready = ready ∧
      after (.registerWrite 0 0x100050 0x1007 true) (withCtx0 { state := .idle }) = after (.translation 0 0 0x1007) (withCtx0 { state := .idle }) ∧
      after (.registerWrite 0 0x100014 0 false) (withCtx0 { state := .idle, hist := [(3, 4)] }) = after (.histClear 0 0) (withCtx0 { state := .idle, hist := [(3, 4)] })) ∧
    (ready.accepted 0 0x010 4 = true ∧ ready.pageResets 0 0x010 = false ∧ (ready.reg 0 0x010).isSome = true ∧ isRl 0x1FC = false ∧ isRl 0x200 = true ∧
      after (.rlFieldWrite 0 0x400) ready = ready) := by decide +kernel

theorem witness_EchoChecks_forms :
    (((after (.echoComplete 0 ⟨8, 9, none, false⟩) (echoing true true)).suite 0).echo.outcome = 3 ∧
      ((after (.echoComplete 0 ⟨8, 9, none, true⟩) (echoing true true)).suite 0).echo.outcome = 5 ∧
      ((after (.echoComplete 0 ⟨8, 9, some ⟨17, 1, 3, 4, 5, true, true⟩, false⟩) (echoing true true)).suite 0).echo.outcome = 3 ∧
      ((after (.echoComplete 0 ⟨8, 9, some ⟨17, 1, 3, 4, 5, true, false⟩, false⟩) (echoing true true)).suite 0).echo.outcome = 4 ∧
      ((after (.echoComplete 0 ⟨8, 9, some ⟨17, 1, 3, 4, 5, true, false⟩, false⟩) (echoing true true)).suite 0).echo.diffChunk = 3 ∧
      after (.echoComplete 0 ⟨8, 9, none, true⟩) (echoing false true) = echoing false true) := by decide +kernel

/-- A part in service, in a phase. -/
def partAt (cls idx : Nat) (down : Bool) (p : SvcPhase) : State :=
  { ready with svc := { jobs := [{ unitClass := cls, unitIndex := idx, powerDown := down, phase := p, since := 0 }] } }

theorem witness_SuiteAndCellService_parts :
    ((partAt 3 0 false .draining).partDrained 3 0 = true ∧ ((after (.serviceDrainComplete 3 0) (partAt 3 0 false .draining)).ctx 0).state = .clearing) ∧
    ((partAt 5 0 false .draining).partDrained 5 0 = true ∧ ((after (.serviceDrainComplete 5 0) (partAt 5 0 false .draining)).host 0).state = .heldDown ∧
      ((after (.serviceResetComplete 5 0) (partAt 5 0 false .resetting)).host 0).state = .detect) ∧
    (({ partAt 6 0 false .draining with ports := [(0, upPort)] } : State).partDrained 6 0 = true ∧
      ((after (.serviceDrainComplete 6 0) { partAt 6 0 false .draining with ports := [(0, upPort)] }).port 0).state = .heldDown ∧
      ((partAt 6 0 false .resetting).wired 0).isSome = true ∧ (partAt 6 0 false .resetting).outputsInert = false ∧
      ((after (.serviceResetComplete 6 0) { partAt 6 0 false .resetting with ports := [(0, { upPort with state := .heldDown })] }).port 0).state = .training) := by decide +kernel

/-- Suite 0, which holds one context, in service in a phase. -/
def suiteAt (down : Bool) (p : SvcPhase) : State :=
  { partAt 8 0 down p with hearth := { thearth with config := ((tconfig 5 1).set 0x104 1).set 0x105 0 } }

theorem witness_SuiteAndCellService_suite :
    (suiteAt false .draining).partDrained 8 0 = true ∧ ((after (.serviceDrainComplete 8 0) (suiteAt false .draining)).suite 0).state = .resetting ∧
    ((after (.serviceDrainComplete 8 0) (suiteAt false .draining)).ctx 0).state = .clearing ∧
    ((after (.serviceResetComplete 8 0) (suiteAt false .resetting)).suite 0).state = .serving ∧
    ((after (.serviceResetComplete 8 0) (suiteAt false .resetting)).ctx 0).state = .unassigned ∧
    ((after (.serviceResetComplete 8 0) (suiteAt true .resetting)).suite 0).state = .disabled := by decide +kernel

theorem witness_SuiteAndCellService_others :
    (after (.serviceResetComplete 2 6) (serviced .draining)) = serviced .draining ∧
    ({ partAt 3 0 false .draining with ctxs := [(0, { running [] with flights := [flight .fence] })] } : State).partDrained 3 0 = false ∧
    ((after (.suiteReset 0) { suiteAt false .draining with svc := {}, ctxs := [(0, running [])] }).ctx 0).live = false := by decide +kernel

/-! ## Further forms: links and the census (O31 to O36) -/

theorem witness_ServiceActionsOnPorts_parts :
    (ready.pendingUnit 3 0 = false ∧ ready.svcJob 3 0 = none ∧ ready.serviceable 3 0 false = true ∧ ready.partIndex 3 0 = 0 ∧
      ans (after (.serviceReset (some 7) 1 [3, 1, 0, 0, 0, 0, 0, 0]) { ready with ctxs := [(0, running [])] }) = some (0x28, 1, 0) ∧
      ((after (.serviceReset (some 7) 1 [3, 1, 0, 0, 0, 0, 0, 0]) { ready with ctxs := [(0, running [])] }).ctx 0).live = false) ∧
    (ready.serviceable 5 0 true = true ∧ ((after (.servicePowerDown (some 7) 1 [5, 2, 0, 0, 0, 0, 0, 0]) ready).host 0).blocked = true ∧
      ((after (.serviceHoldDown (some 7) 1 [5, 4, 0, 0, 0, 0, 0, 0]) ready).host 0).state = .heldDown ∧
      ((after (.serviceRelease (some 7) 1 [5, 5, 0, 0, 0, 0, 0, 0]) (withHost { served with state := .heldDown })).host 0).state = .detect) ∧
    (ready.serviceable 2 6 false = true ∧ ans (after (.serviceReset (some 7) 1 [2, 1, 0, 0, 6, 0, 0, 0]) ready) = some (0x28, 1, 0) ∧
      ready.serviceable 2 8 false = false ∧ ans (after (.serviceReset (some 7) 1 [2, 1, 0, 0, 8, 0, 0, 0]) ready) = some (0x28, 0x21, ready.partState 2 8)) := by
  decide +kernel

theorem witness_ServiceActionsOnPorts_suite :
    (ready.serviceable 8 0 false = true ∧ ((after (.serviceReset (some 7) 1 [8, 1, 0, 0, 0, 0, 0, 0]) { ready with ctxs := [] }).suite 0).state = .draining) ∧
    (({ ready with suites := [(0, { state := .disabled })], svc := { out := [(8, 0)] } } : State).partIsOut 8 0 = true ∧
      ((after (.serviceEnable (some 7) 1 [8, 3, 0, 0, 0, 0, 0, 0]) { ready with suites := [(0, { state := .disabled })], svc := { out := [(8, 0)] } }).suite 0).state = .serving) ∧
    ((partAt 3 0 false .draining).svcJob 3 0 = some { unitClass := 3, unitIndex := 0, powerDown := false, phase := .draining, since := 0 } ∧
      ((after (.serviceEnable (some 7) 1 [3, 3, 0, 0, 0, 0, 0, 0]) (partAt 3 0 false .draining)).svcJob 3 0).map (fun j => j.phase) = some .drainRestart ∧
      ans (after (.serviceEnable (some 7) 1 [3, 3, 0, 0, 0, 0, 0, 0]) (partAt 3 0 false .draining)) = some (0x28, 1, 0)) := by decide +kernel

theorem witness_FramesAndSlots_forms :
    (frameCheck (emptyFrame 0 0 0xAAC58632) = true ∧ bit (le (emptyFrame 0 0 0xAAC58632) 4 1) 3 = false ∧
      BitVec.ofNat 16 (le (emptyFrame 0 0 0xAAC58632) 0 2) = ((withPort upPort).port 0).rxSeq + 1 ∧
      ((after (.frameReceived 0 (emptyFrame 0 0 0xAAC58632) true 0) (withPort upPort)).port 0).rxSeq = 0 ∧
      frameCheck (emptyFrame 0 1 0x8C332038) = true ∧
      ((after (.frameReceived 0 (emptyFrame 0 1 0x8C332038) true 0) (unacked 0)).port 0).rxSeq = 0) ∧
    ((withPort { upPort with state := .down }).linkOn 0 = false ∧ after (.frameReceived 0 [] true 0) (withPort { upPort with state := .down }) = withPort { upPort with state := .down }) ∧
    ((after (.frameReceived 0 (emptyFrame 0xFFFF 8 0x39398BAD) true 0) (withPort { upPort with discarding := true })).port 0).discarding = false ∧
    (le (ctlFlit 0x12 17 []) 0 1 = 0x12 ∧ State.slotIn 0 (withPort upPort) (13, ctlFlit 0x12 17 []) = after (.peerAbort 0 (ctlFlit 0x12 17 [])) (withPort upPort) ∧
      State.slotIn 0 (withPort upPort) (12, List.replicate 64 0) = withPort upPort) := by decide +kernel

theorem witness_ReplayAndRecalibration_forms :
    ((withPort { upPort with recalibrating := true }).port 0).recalForced = false ∧
    after (.recalibrationDue 0) (withPort { upPort with recalibrating := true }) = withPort { upPort with recalibrating := true } ∧
    after (.recalibrationForced 0) (withPort upPort) = withPort upPort ∧
    ((after (.recalibrationForced 0) (withPort { upPort with recalDue := true })).port 0).recalForced = true ∧
    after (.pllSettled 0) (withPort upPort) = withPort upPort ∧
    ((after (.pllSettled 0) (withPort { upPort with recalibrating := true, recalForced := true })).port 0).recalForced = false := by decide +kernel

theorem witness_LinkFailureAndTraining :
    (((after (.linkFailureDetected 0) (unacked 0)).port 0).state = .down ∧ ((after (.linkFailureDetected 0) (unacked 0)).port 0).replayBuf = [] ∧
      (after (.linkFailureDetected 1) (unacked 0)) = unacked 0 ∧
      ((after (.pllSettleTimeout 0) (withPort { upPort with recalibrating := true })).port 0).state = .down ∧
      ((after (.pllSettleTimeout 0) (withPort { upPort with state := .training })).port 0).cnt.trainingFailures = 1 ∧
      ((after (.resyncTimeout 0) (withPort { upPort with pauseSeen := true })).port 0).state = .down ∧ after (.resyncTimeout 0) (withPort upPort) = withPort upPort) ∧
    ((withPort { upPort with state := .down }).linksTrain = true ∧
      ((after (.portRetryTimer 0) (withPort { upPort with state := .down })).port 0).state = .training ∧
      after (.portRetryTimer 0) { withPort { upPort with state := .down } with hearth := { thearth with live := some ⟨true, 0⟩ } } =
        { withPort { upPort with state := .down } with hearth := { thearth with live := some ⟨true, 0⟩ } } ∧
      ({ withPort { upPort with state := .down } with hearth := { thearth with startup := .scrubbing } } : State).linksTrain = false) ∧
    (ready.hallId = 7 ∧ ready.wired 0 = some (17, 24) ∧ trainLanes 0xF 0x3 = some 0x3 ∧ trainLanes 0xE 0xD = some 0xC ∧ trainLanes 0x6 0xF = none ∧
      ((after (.trainingComplete 0 (.ok 7 17 24 0xF 0xF [5, 6, 7, 8])) (withPort { state := .training })).port 0).width = 4 ∧
      ((after (.trainingComplete 0 (.ok 7 17 24 0x3 0xF [5, 6, 7, 8])) (withPort { state := .training })).port 0).state = .upNoCensus ∧
      ((after (.trainingComplete 0 (.ok 7 17 24 0x3 0xF [5, 6, 7, 8])) (withPort { state := .training })).port 0).width = 2 ∧
      ((after (.trainingComplete 0 (.ok 7 17 24 0x3 0xF [5, 6, 7, 8])) (withPort { state := .training })).port 0).credits = [5, 6, 7, 8] ∧
      ((after (.trainingComplete 0 (.ok 7 17 24 0x6 0xF [])) (withPort { state := .training })).port 0).state = .down ∧
      ((after (.trainingComplete 0 (.ok 7 17 25 0xF 0xF [])) (withPort { state := .training })).port 0).state = .miswired ∧
      ((after (.trainingComplete 0 .failed) (withPort { state := .training })).port 0).state = .down) := by decide +kernel

theorem witness_CensusAndCommit_refused :
    (({ polled {} with hearth := { thearth with startup := .syncing } } : State).isReady = false ∧
      (after (.censusQuery 0 (cflit 0x20)) { polled {} with hearth := { thearth with startup := .syncing } }).census = {} ∧
      (after (.censusQuery 0 (cflit 0x20)) { polled {} with hearth := { thearth with live := some ⟨true, 0⟩ } }).hearth.censusDropped = 1 ∧
      (after (.censusCommitDone 0 (cflit 0x21)) { polled {} with hearth := { thearth with live := some ⟨true, 0⟩ } }).hearth.censusDropped = 1 ∧
      ctlOk 0x22 (cflit 0x23) = false ∧ ((after (.censusSeen 0 (cflit 0x23)) (polled {})).port 0).cnt.badControl = 1) := by decide +kernel

theorem witness_StatusRecordsAndRefusals_forms :
    ans (after (.keyLoad none 1 []) ready) = some (0x20, 0x12, 0) ∧ ans (after (.scan none 1 []) ready) = some (0x30, 0x12, 0) ∧
    ans (after (.censusStart none 1 []) ready) = some (0x40, 0x12, 0) ∧ allZero [4, 0, 0, 0, 64, 0, 0, 0] 5 3 = true ∧
    ans (after (.censusStart (some 7) 1 []) { ready with hearth := { thearth with startup := .syncing } }) = some (0x40, 0x13, 5) := by decide +kernel

/-! ## Further forms: management (O37 to O45) -/

/-- An engine in Recovery, where no session is asked for. -/
def recovering : State := { hearth := { startup := .bootFailed, smbusOn := true } }

/-- An engine on image A that writes slot B. -/
def writingB : State := { flashing with mgmt := { flashing.mgmt with sessions := [⟨7, none, 0, 0⟩] } }

theorem witness_ImagesFusesAndClock_recovery :
    (recovering.mgmtOn = true ∧ recovering.recovery = true ∧ recovering.inHostSession none = false ∧ recovering.runsFrom true = false ∧
      ans (after (.imageWrite none 1 [1, 0, 0, 0, 0xF8, 0xFF, 0x3F, 0, 9]) recovering) = some (3, 1, 0) ∧
      ans (after (.warmReset none 1 []) recovering) = some (4, 0, 0)) ∧
    (writingB.flashBusy = true ∧ writingB.writingSlot true = true ∧
      ans (after (.imageWrite (some 7) 1 [1, 0, 0, 0, 8, 0, 0, 0, 9]) writingB) = some (3, 0x20, 0x0A000000) ∧
      ans (after (.liveRestart (some 7) 1 [1, 0, 0, 0]) writingB) = some (5, 0x20, 0x0A000000)) ∧
    (restarting.hearth.smbusOn = true ∧ ans (after (.liveRestart none 1 [1, 0, 0, 0]) restarting) = some (5, 0x21, 6)) ∧
    (ready.hearth.live = none ∧ after (.liveRestartComplete none true) ready = ready) := by decide +kernel

/-- Pack 3 is being scanned with. -/
def packScanned (busy : Bool) : State :=
  { ready with
    ports := [(0, { upPort with state := .heldDown })]
    svc := { scans := [{ unitClass := 6, units := [0], tag := 4 }] }
    mgmt := { ready.mgmt with packWriting := if busy then some 3 else none } }

theorem witness_FlashWrites_forms :
    ((packScanned false).packScans 3 = true ∧ (packScanned false).flashBusy = false ∧
      ans (after (.packPush (some 7) 1 [3, 1, 0, 0, 0, 0, 0, 0, 7]) (packScanned false)) = some (0x31, 1, 0) ∧
      after .flashWriteComplete (packScanned true) = packScanned true) ∧
    ((packing [] (some 3)).flashBusy = true ∧
      ans (after (.packPush (some 7) 1 [3, 1, 0, 0, 0, 0, 0, 0, 7]) (packing [] (some 3))) = some (0x31, 0x20, 0x0A000000)) ∧
    ((packing [7] (some 3)).packCheck 3 [7] = some 1 ∧ (after .flashWriteComplete (packing [7] (some 3))).mgmt.packWriting = none) := by decide +kernel

theorem witness_PowerAndResume_forms :
    (({ unused with hearth := { thearth with power := .banked } } : State).isReady = false ∧
      (ans (after (.powerBank (some 7) 1 [1, 0, 0, 0]) { unused with hearth := { thearth with power := .banked } })).map (fun r => r.2.1) = some 0x21 ∧
      (after (.powerUnbank (some 7) 1 [2, 0, 0, 0]) { haltedWith .halted .armed false with hearth := { thearth with power := .banked } }).halt.atStart = true) ∧
    (({ haltedWith .halted .armed false with hearth := { thearth with startup := .haltedAtStart } } : State).resumable = true ∧
      (after (.resume (some 7) 1 []) { haltedWith .halted .armed false with hearth := { thearth with startup := .haltedAtStart } }).hearth.startup = .training) ∧
    (ans (after (.resume (some 7) 1 []) { ready with hearth := { thearth with startup := .training } }) = some (0x32, 0x13, 4)) := by decide +kernel

theorem witness_AbortsCountersAndCensus_forms :
    ((waiting.live = true ∧ (withCtx0 waiting).ringRoom 0 = true) ∧
      ((after (.abortContexts (some 7) 1 (1 :: List.replicate 31 0)) (withCtx0 waiting)).ctx 0).lastStatus = 0x40) ∧
    (({ withPort upPort with svc := { jobs := [{ unitClass := 6, unitIndex := 0, powerDown := false, phase := .draining, since := 0 }] } } : State).svcJob 6 0 ≠ none ∧
      ans (after (.clearCounters (some 7) 1 [0, 0, 0, 0]) { withPort upPort with svc := { jobs := [{ unitClass := 6, unitIndex := 0, powerDown := false, phase := .draining, since := 0 }] } }) =
        some (0x2A, 0x20, 0x06000000)) ∧
    (ans (after (.censusRead (some 7) 1 [0xA0, 0x0F, 0, 0, 0, 0, 0, 0, 0, 0, 0, 0]) { ready with census := { active := true, isOrigin := true, epoch := 4000 } }) = some (0x41, 0, 0) ∧
      ans (after (.censusRead (some 7) 1 [0xA0, 0x0F, 0, 0, 0, 0, 0, 0, 0, 0, 0, 0]) ready) = some (0x41, 0x11, 8) ∧
      ans (after (.censusCommit (some 7) 1 [0xA0, 0x0F, 0, 0, 0, 0, 0, 0]) { ready with census := { committing := true } }) = some (0x42, 0x20, 0x0D000010)) := by
  decide +kernel

/-- Region 3 has reached zero. -/
def lapsed : State :=
  { regioned with cellar := { regioned.cellar with regions := [(3, { extents := [12], leaseS := 30, leftMs := 0, due := true })] } }

theorem witness_WindowMapsAndRenewals_forms :
    ({ regioned with svc := { jobs := [{ unitClass := 2, unitIndex := 12, powerDown := true, phase := .draining, since := 0 }] } } : State).extBusy 12 = true ∧
    ans (after (.map (some 7) 1 [5, 0, 0, 0, 12, 0, 0, 0]) { regioned with svc := { jobs := [{ unitClass := 2, unitIndex := 12, powerDown := true, phase := .draining, since := 0 }] } }) =
      some (0x12, 0x20, 0x0200000C) ∧
    regioned.releaseCheck 7 = some (0x21, 0) ∧ ans (after (.renew (some 7) 1 [0, 0, 7, 0, 0, 0, 0, 0]) regioned) = some (0x13, 0x21, 0) ∧
    ans (after (.renew (some 7) 1 [1, 0, 3, 0, 0, 0, 0, 0]) lapsed) = some (0x13, 0x21, 0) := by decide +kernel

theorem witness_RegionsKeysAndBandwidth_forms :
    ans (after (.regionDelete (some 7) 1 [4, 0, 0, 0]) regioned) = some (0x1A, 0x21, 0) ∧
    ans (after (.keyErase (some 7) 1 [0, 0, 0, 0]) regioned) = some (0x21, 0x25, 0) ∧
    ans (after (.keyLoad (some 7) 1 ([0, 0, 0, 0, 1] ++ List.replicate 63 0)) regioned) = some (0x20, 0x25, 0) := by decide +kernel

theorem granting_is_quiet : CellsQuiet granting := by
  refine ⟨rfl, fun h => ⟨?_, ?_⟩⟩
  · simp only [State.host, granting, ready, FMap.get, FMap.find]
    repeat' split
    all_goals rfl
  · rfl

/-- A scan of one unit of a class, over a state that owns no fuses. -/
def scanOf (cls idx : Nat) : State := { ready with svc := { scans := [{ unitClass := cls, units := [idx], tag := 4 }] } }

theorem witness_Scans_forms :
    (({ ready with svc := { jobs := [{ unitClass := 3, unitIndex := 0, powerDown := false, phase := .draining, since := 0 }] } } : State).svcJob 3 0).isSome = true ∧
    ans (after (.scan (some 7) 4 [3, 1, 0, 0, 0, 0]) { ready with svc := { jobs := [{ unitClass := 3, unitIndex := 0, powerDown := false, phase := .draining, since := 0 }] } }) =
      some (0x30, 0x20, 0x03000000) ∧
    (after (.scanComplete 3 2 false) (scanOf 3 2)).svc.failed = [(3, 2)] ∧
    (after (.scanComplete 5 0 true) (scanOf 5 0)).svc.scans = [] ∧
    ((after (.scanComplete 2 6 false) (scanOf 2 6)).ext 6).state = .quarantined ∧
    (after (.scanComplete 2 6 true) (scanOf 2 6)).svc.scans = [] := by decide +kernel

/-- Cell group 200 is staging, and no other extent is Free. -/
def stagingScan : State :=
  { ready with
    hearth := { thearth with disabledMap := (List.range 800).filter (fun e => e != 200) }
    cellar := { ready.cellar with extents := (200, { state := .staging }) :: ready.cellar.extents, staging := [200] } }

theorem witness_Scans_staging : stagingScan.stagingUnits 2 [200] = [200] ∧ stagingScan.spareExts [200] = 0 := by
  refine ⟨by decide +kernel, ?_⟩
  have hm : stagingScan.hearth.disabledMap = (List.range 800).filter (fun e => e != 200) := rfl
  simp only [State.spareExts, State.freeExts, State.usable, allExtents, State.extUsable, hm, List.length_eq_zero_iff, List.filter_eq_nil_iff, List.mem_filter]
  intro e h
  by_cases he : e = 200
  · simp [he]
  · simp_all

theorem witness_TransportAndSessions_forms :
    ((3 : Nat) ≤ 3 ∧ (mastering 3 false).mgmt.smbusEvent = some ⟨1, [2]⟩ ∧
      (35000000 : Nat) < (({ mastering 1 true with hall := 35004001 } : State).hall - 4000).toNat ∧
      (after .smbusRetry { mastering 1 true with hall := 35004001 }).mgmt.smbusAbandoned = 1 ∧ after .smbusRetry ready = ready ∧
      after .smbusArbitrationLost ready = ready ∧ after .smbusSclTimeout { ready with hearth := { thearth with smbusOn := false } } = { ready with hearth := { thearth with smbusOn := false } }) ∧
    (ready.measurement 4 = some (idBytes (BitVec.ofNat 384 (sha384Nat (mapBytes ready.hearth.disabledMap)))) ∧ ready.measurement 0 = none) ∧
    ((after (.getCertificate 1) ready).mgmt.reply ≠ .error ∧ (after (.challenge 1 5) ready).mgmt.reply ≠ .error ∧ (after (.challenge 2 5) ready).mgmt.reply = .error) ∧
    (ready.hostServing 0 = true ∧ ready.hearth.live = none ∧ (after (.keyExchange ⟨some 0, true, false, 3⟩) ready).mgmt.reply = .session 8 ∧
      (after (.keyExchange ⟨some 0, false, false, 3⟩) ready).mgmt.reply = .error ∧
      (after (.keyExchange ⟨some 0, true, false, 3⟩) granting).mgmt.reply = .busy) ∧
    ((after (.heartbeat 9) ready).mgmt.reply = .error ∧ after (.spdmSessionTimeout 9) ready = ready) := by decide +kernel

/-! ## Further forms: Figures (O46 to O50) -/

/-- A NOP that asks for its entry, with a ring of 16 entries in host memory. -/
def nopEntry (tail : BitVec 16) : State :=
  { ready with ctxs := [(0, { running [fig 0 1 []] with
      run := { card4 with len := 9, ringBase := 0x8000, ringSize := 4 }, ringTail := tail, ringPhase := true })] }

theorem witness_ControlFigures_entry :
    figCpl (fig 0 1 []) = true ∧ figIrq (fig 0 1 []) = false ∧ reaches (nopEntry 15) 0 0 2 (fig 0 1 []) = true ∧ (nopEntry 15).ringRoom 0 = true ∧
    (nopEntry 15).hostServing ((nopEntry 15).ownerHost 0) = true ∧ ((after (.nop 0) (nopEntry 15)).ctx 0).ringTail = 0 ∧
    ((after (.nop 0) (nopEntry 15)).ctx 0).ringPhase = false ∧ ((after (.nop 0) (nopEntry 14)).ctx 0).ringTail = 15 ∧
    ((after (.nop 0) (nopEntry 15)).host 0).path.map (fun e => match e with | .data a b _ _ => (a.toNat, b.length) | _ => (0, 0)) = [(0x81E0, 32)] := by decide +kernel

theorem witness_FetchesAndFailures_forms :
    (after (.figureFetch 0 .ur) { ready with ctxs := [(0, { running [] with pc := 9 })] } = { ready with ctxs := [(0, { running [] with pc := 9 })] } ∧
      (running []).run.len ≤ predict [] 9 [] ∧ (ready.ctx 0).live = false ∧ after (.figureFetch 0 .ur) ready = ready) ∧
    (({ ready with ctxs := [(0, { running [] with pc := 9 })] } : State).turn 0 = true ∧ ({ ready with ctxs := [(0, { running [] with pc := 9 })] } : State).ringRoom 0 = true) ∧
    (({ ready with ctxs := [(0, { running [] with prefetch := [(2, none)] })] } : State).turn 0 = true) := by decide +kernel

theorem witness_FetchesAndFailures_checks :
    ((at2 (fig 1 4 [])).nextOp 0 1 = some (2, fig 1 4 []) ∧ ((at2 (fig 1 4 [])).issueCheck 0 2 (fig 1 4 [])).map (fun r => r.1) = some 0x11 ∧
      ((after (.endCard 0) (at2 (fig 1 4 []))).ctx 0).lastStatus = 0x11) ∧
    (((after (.loop 0) (at2 (fig 2 4 []))).ctx 0).lastStatus = 0x11 ∧ ((after (.mark 0) (at2 (fig 3 4 []))).ctx 0).lastStatus = 0x11 ∧
      ((after (.waitCount 0) (at2 (fig 0x33 4 []))).ctx 0).lastStatus = 0x11 ∧ ((after (.fence 0) (at2 (fig 0x34 4 []))).ctx 0).lastStatus = 0x11) := by decide +kernel

/-- Context 0 with virtual Bell 7 in record 1 of the block of Suite 0, or in one of engine 17, and one Figure. -/
def virtual (away : Bool) (r : BellRec) (f : List Byte) : State :=
  { belled [(0x19000000, ⟨0, 5⟩)] [(0x19000020, r)] with
    ctxs := [(0, { running [f] with trans := [(7, if away then BitVec.ofNat 64 (0x117007 + 0xC80001 * 2 ^ 24) else BitVec.ofNat 64 (0x107007 + 0xC80001 * 2 ^ 24))] })]
    ports := [(0, upPort)] }

/-- Its record, of tenant 5. -/
def vrec (full : Bool) : BellRec := { tenant := 5, tenantValid := true, value := 4, full := full }

theorem witness_BellFigures_virtual :
    (((virtual false (vrec true) []).bellTarget 0 0x8007 false).toOption = some (.virt 0x19000020) ∧
      ((virtual false (vrec true) []).bellTarget 0 0x8007 true).toOption = some (.virt 0x19000020) ∧
      reaches (virtual false (vrec true) (fig 0x31 0 [(0, 8, 9), (8, 2, 0x8007)])) 0 0x31 2 (fig 0x31 0 [(0, 8, 9), (8, 2, 0x8007)]) = true) ∧
    (((after (.bellRingSet 0) (virtual false (vrec true) (fig 0x31 0 [(0, 8, 9), (8, 2, 0x8007)]))).bell 0x19000020).value = 9 ∧
      ((after (.bellRingAdd 0) (virtual false (vrec true) (fig 0x31 4 [(0, 8, 9), (8, 2, 0x8007)]))).bell 0x19000020).value = 13 ∧
      ((after (.bellWait 0) (virtual false (vrec true) (fig 0x30 4 [(0, 8, 4), (8, 2, 0x8007)]))).ctx 0).flights = [] ∧
      ((after (.bellWait 0) (virtual false (vrec false) (fig 0x30 0 [(8, 2, 0x8007)]))).bell 0x19000020).waiters = [0]) ∧
    (((after (.bellRingTake 0) (virtual false (vrec true) (fig 0x31 8 [(8, 2, 0x8007), (10, 1, 6)]))).ctx 0).bell 6 = { value := 4, full := true } ∧
      ((after (.bellRingTake 0) (virtual false (vrec true) (fig 0x31 8 [(8, 2, 0x8007), (10, 1, 6)]))).bell 0x19000020).full = false ∧
      ((after (.bellRingTake 0) (virtual false (vrec false) (fig 0x31 8 [(8, 2, 0x8007), (10, 1, 6)]))).bell 0x19000020).waiters = [0]) := by decide +kernel

theorem witness_BellFigures_away :
    (((virtual true (vrec true) []).bellTarget 0 0x8007 false).toOption = some (.away 17 0x19000020) ∧
      (virtual true (vrec true) []).lowestUp ((virtual true (vrec true) []).routes 17) = some 0 ∧
      ((after (.bellRingSet 0) (virtual true (vrec true) (fig 0x31 0 [(0, 8, 9), (8, 2, 0x8007)]))).port 0).vc0.map (fun x => (x.kind, x.bytes == ringFlit 16 0 5 2 false 9 17 0x19000020 [])) = [(3, true)] ∧
      ((after (.bellRingAdd 0) { virtual true (vrec true) (fig 0x31 4 [(0, 8, 9), (8, 2, 0x8007)]) with ports := [] }).ctx 0).flights.map (fun w => w.sent) = [false]) := by decide +kernel

theorem witness_BarriersAndCounts_root :
    reaches (atGroup bfig (rootEntry 3) 5) 0 0x32 2 bfig = true ∧ (atGroup bfig (rootEntry 3) 5).barrierCheck 3 (rootEntry 3) = none ∧
    geRoot (rootEntry 3) false = 16 ∧ (insertNat 16 []).length < geEngines (rootEntry 3) ∧
    ((after (.barrier 0) (atGroup bfig (rootEntry 3) 5)).grp 3).arrived = [16] := by decide +kernel

theorem witness_MovesAndCollectives_moves :
    (reaches moving 0 0x10 2 mfig = true ∧ moving.moveCheck 0 (cellMove 4) = none ∧ Memory.wf 0 moving.cellar.mem = true ∧
      moving.cellarOpen 0x1000000 4 = true ∧ moving.cellarOpen 0x1000100 4 = true ∧ moving.poisonIn 0x1000000 4 = false ∧
      moving.poisonIn 0x1000100 4 = false ∧ moving.coldExt 0x1000000 4 = none ∧ moving.coldExt 0x1000100 4 = none) ∧
    ((alone (fly 0x10 (.move (cellMove 0)))).writesIn 0 0 = true ∧
      ((after (.moveComplete 0 0) (alone (fly 0x10 (.move (cellMove 0))))).ctx 0).flights = []) ∧
    ((alone (fly 0x10 (.move { cellMove 0 with srcSel := 0x4011, size := 4, got := 4 }))).moveOver 0 0 { cellMove 0 with srcSel := 0x4011, size := 4, got := 4 } = true ∧
      (alone (fly 0x10 (.move (cellMove 4)))).moveOver 0 0 (cellMove 4) = false ∧
      after (.moveComplete 0 0) (alone (fly 0x10 (.move (cellMove 4)))) = alone (fly 0x10 (.move (cellMove 4)))) := by decide +kernel

/-- Everything that `MovesAndCollectives` asks of a collective. -/
def collOk (op : Nat) (block : List Byte) (counts : List ReadResult) : Bool :=
  let s := colling op true
  let e := treeEntry 16 16 0 0
  reaches s 0 op 2 (cfig op) && s.entryFor 0 3 == some e &&
  (match s.collMembers 0 (cfig op) e (.ok block) counts with
   | .ok (b, ms) =>
     let k := s.newColl 0 (cfig op) e b ms
     (s.keptFor 3 k.epoch false).isNone && !s.stagingFits k.reserve && (colling op false).stagingFits k.reserve
   | .error _ => false)

theorem witness_MovesAndCollectives_reducing :
    collOk 0x20 (opBlock true true true true false) [] = true ∧
    collOk 0x21 (opBlock true true true true false) [] = true ∧
    collOk 0x24 (opBlock true true true false false) [] = true := by decide +kernel

theorem witness_MovesAndCollectives_moving :
    collOk 0x22 (opBlock true true true true false) [] = true ∧
    collOk 0x23 (opBlock true true false true false) [] = true ∧
    collOk 0x25 (opBlock true true true true false) [] = true ∧
    collOk 0x26 (opBlock true true true true true) [.ok [1, 0, 0, 0, 3, 0, 0, 0], .ok [0, 0, 0, 0, 2, 0, 0, 0]] = true := by decide +kernel

theorem witness_MovesAndCollectives_complete :
    (formed.arrived 16 = true ∧ formed.allFormed = true ∧ formed.ownDigest.isSome = true ∧ (alone (fly 0x20 (.coll formed))).writesIn 0 0 = true ∧
      ((after (.collectiveComplete 0 0 none) (alone (fly 0x20 (.coll formed)))).ctx 0).flights = []) ∧
    (({ alone (fly 0x20 (.coll { formed with reserved := false })) with cellar := { ready.cellar with staging := [200], waitingStaging := [(0, 0)] } } : State).stagingWanted = some (0, 0, 100) ∧
      100 ≤ ({ alone (fly 0x20 (.coll { formed with reserved := false })) with cellar := { ready.cellar with staging := [200], waitingStaging := [(0, 0)] } } : State).stagingFree ∧
      ({ alone (fly 0x20 (.coll { formed with reserved := false })) with cellar := { ready.cellar with waitingStaging := [(0, 0)] } } : State).stagingFree < 100) := by
  decide +kernel

/-! ## Further forms: chunks, rings and messages (O51 to O54) -/

/-- A chunk of which only the first bytes are formed, and one that waits after a retransmission. -/
def tpart : OutChunk := { tchunk none none 1 with bytes := none, pieces := [(0, [5])] }

/-- The same chunk, awaiting its acknowledgement on port 0. -/
def tsent (owner : Option (Nat × Nat)) (attempt : Nat) : OutChunk := { tchunk owner (some 0) attempt with inWindow := true }

/-- A reply to a chunk that has been given up for part 0x0800_0000. -/
def gaveUp : State := { sending (tchunk none none 1) with outs := [], givenUp := [⟨messageName (chunkFlit 0x08 0), 0x08000000⟩] }

theorem witness_ChunksSent :
    ((sending (tchunk none none 1)).windowOpen (tchunk none none 1) = true ∧ (sending (tchunk none none 1)).choosePort false [0, 4] = some 0 ∧
      ((after (.chunkSend 0) (sending (tchunk none none 1))).port 0).vc0.map (fun x => x.kind) = [1, 0, 2] ∧
      (after (.chunkSend 0) (sending (tchunk none none 1))).outs.map (fun o => (o.port, o.sealed, o.inWindow)) = [(some 0, true, true)]) ∧
    ((sending tpart).windowOpen tpart = true ∧ (after (.chunkSend 0) (sending tpart)).outs.map (fun o => (o.port, o.sealed, o.left)) = [(some 0, false, 1)]) ∧
    (after (.chunkSend 0) (sending (tsent none 1)) = sending (tsent none 1)) ∧
    (ctlOk 0x08 (chunkFlit 0x08 0) = true ∧ (sending (tsent none 1)).outNamed (chunkFlit 0x08 0) = some 0 ∧
      (after (.chunkAck 0 (chunkFlit 0x08 0)) (sending (tsent none 1))).outs = []) ∧
    (ctlOk 0x09 (chunkFlit 0x09 1) = true ∧ (sending (tsent none 1)).outNamed (chunkFlit 0x09 1) = some 0 ∧
      (after (.resendRequest 0 (chunkFlit 0x09 1)) (sending (tsent none 1))).outs.map (fun o => (o.attempt, o.port, o.inWindow)) = [(2, none, true)] ∧
      (after (.resendRequest 0 (chunkFlit 0x09 3)) (sending (tsent none 3))).outs = [tsent none 3]) ∧
    ((after (.ackTimeout 0) (sending (tsent none 2))).outs.map (fun o => o.attempt) = [3] ∧
      ((after (.ackTimeout 0) (sending (tsent none 2))).port 0).cnt.ackTimeouts = 1 ∧
      (after (.ackTimeout 0) (sending (tsent none 3))).outs = [] ∧ after (.ackTimeout 0) (sending (tchunk none none 1)) = sending (tchunk none none 1)) := by decide +kernel

theorem witness_ChunksSent_lost :
    (({ alone (fly 0x20 (.coll formed)) with ports := [(0, upPort)], outs := [tsent (some (0, 0)) 3] } : State).ringRoom 0 = true ∧
      ((after (.ackTimeout 0) { alone (fly 0x20 (.coll formed)) with ports := [(0, upPort)], outs := [tsent (some (0, 0)) 3] }).ctx 0).lastStatus = 0x31) ∧
    (gaveUp.outNamed (chunkFlit 0x08 0) = none ∧
      FMap.find (after (.chunkAck 0 (chunkFlit 0x08 0)) gaveUp).svc.droppedReplies 0x08000000 = some 1 ∧
      FMap.find (after (.resendRequest 0 (chunkFlit 0x09 1)) gaveUp).svc.droppedReplies 0x08000000 = some 1 ∧
      (after (.chunkAck 0 (chunkFlit 0x08 0)) { gaveUp with givenUp := [] }).svc = gaveUp.svc) := by decide +kernel

/-- The packet of a collective of group 3, generation `gen`, chunk 0 of engine 17, sequence 0, that comes down a tree. -/
def cheader (gen : Nat) : List Byte := fields 64 [(0, 1, 16), (1, 1, 17), (2, 2, 3), (4, 2, gen), (6, 4, 0), (10, 4, 0), (15, 1, 1), (16, 1, 16)]

/-- The seal of a chunk of it that holds bytes 5 and 6 and that gives its opcode so. -/
def cseal (crc op epoch : Nat) : List Byte :=
  fields 64 [(0, 2, 3), (2, 2, 1), (4, 4, 0), (8, 4, epoch), (12, 4, 2), (16, 4, crc), (20, 1, 1), (21, 1, 16), (22, 1, 17), (23, 1, 17), (24, 1, op), (28, 5, 4)]

/-- The lane of that chunk. -/
def clane (owner : Option (Nat × Nat)) (epoch : Nat) : Lane :=
  { tlane with flow := 3, isMove := false, gen := 1, chunk := 0, seq := 0, down := true, epoch := epoch, owner := owner, moveAddr := 0, moveSel := 0 }

/-- An ALLREDUCE that waits for its result from engine 17. -/
def comingDown : Coll := { formed with entry := treeEntry 17 17 1 0, done1 := [], finals := [] }

/-- Context 0 runs that Figure on group 3; port 0 is Up, with these lanes. -/
def collecting (lanes : List Lane) : State :=
  { inGroup { entry := some (treeEntry 17 17 1 0) } [fly 0x20 (.coll comingDown)] with lanes := lanes }

theorem witness_ChunksReceived_packets :
    (bit (le (packetHeader 16) 16 1) 3 = true ∧ (receiving [] []).laneOf true 4 1 17 3 = [] ∧
      (after (.packetReceived 0 (packetHeader 16) [5, 6] 0 0) (receiving [] [])).lanes.map (fun l => (l.flow, l.moveAddr, l.pieces)) = [(4, 0x1200000, [(0, [5, 6])])]) ∧
    ((receiving [tlane] []).laneOf true 4 1 17 3 = [tlane] ∧ (headLane 0 (packetHeader 16) 0 0).attempt = tlane.attempt ∧
      (after (.packetReceived 0 (packetHeader 16) [5, 6] 0 0) (receiving [tlane] [])).lanes.map (fun l => l.pieces.length) = [2]) ∧
    ((receiving [] []).forwardPorts true 4 16 = [] ∧ ((after (.packetReceived 0 ((packetHeader 16).set 0 20) [5, 6] 0 0) (receiving [] [])).port 0).cnt.unroutable = 1) ∧
    ((receiving [] []).forwardPorts true 4 24 = [32, 33, 34, 35] ∧ (after (.packetReceived 0 (packetHeader 24) [5, 6] 0 0) (receiving [] [])).lanes.length = 1 ∧
      (after (.packetReceived 0 (packetHeader 24) [5, 6] 0 0) (receiving [] [])).outs.map (fun o => (o.dest, o.pieces)) = [(24, [(0, [5, 6])])]) := by decide +kernel

theorem witness_ChunksReceived_collective_packets :
    ((collecting []).genDiffers false 3 1 true = false ∧
      (collecting []).flightOn 3 (fun k => expects k 16 true 0 0 17 0 0) = some (0, 0) ∧ ((collecting []).collAt 0 0).isSome = true ∧
      (after (.packetReceived 0 (cheader 1) [5, 6] 0 0) (collecting [])).lanes.map (fun l => l.owner) = [some (0, 0)]) ∧
    ((headLane 0 (cheader 1) 0 0).name = (clane none 0).name ∧
      (after (.packetReceived 0 (cheader 1) [5, 6] 0 0) { collecting [] with confirmed := [(clane none 0).name] }).lanes = []) ∧
    ((collecting []).genDiffers false 3 2 true = true ∧ (collecting []).groupFlights 3 = [(0, 0)] ∧ (collecting []).ringRoom 0 = true ∧
      ((after (.packetReceived 0 (cheader 2) [5, 6] 0 0) (collecting [])).ctx 0).lastStatus = 0x14 ∧
      (receiving [] []).genDiffers false 3 2 true = true ∧ (after (.packetReceived 0 (cheader 2) [5, 6] 0 0) (receiving [] [])).droppedChunks.length = 1) := by
  decide +kernel

/-- Extent 9 is of a region that every tenant may write: what a MOVE from another engine needs (its tenant is a free value, entry 31). -/
def landing (lanes : List Lane) : State :=
  { receiving lanes [] with cellar := { ready.cellar with
      extents := [(9, { state := .granted, owner := .region 3, power := .awake })]
      regions := [(3, { extents := [9], leaseS := 30, leftMs := 5, tenants := (List.range 256).map (fun t => (t, true)) })] } }

theorem landing_check (suite : Nat) (t : BitVec 8) : (landing [tlane]).locCheck suite t.toNat true 0x4010 0x1200000 2 = none := by
  have ht : ∀ t : Fin 256, (FMap.get noRegion (landing [tlane]).cellar.regions 3).tenantMay t.val true = true := by decide +kernel
  have h := ht ⟨t.toNat, t.isLt⟩
  have he : (landing [tlane]).ext 9 = { state := .granted, owner := .region 3, power := .awake } := by decide +kernel
  have hx : extentOf 0x1200000 = 9 ∧ extentOf (0x1200000 + 2 - 1) = 9 ∧ selEngine 0x4010 = (landing [tlane]).engineId ∧ selSpace 0x4010 = 1 := by decide +kernel
  have hg : ([9] : List Nat).all (fun e => (FMap.get noRegion (landing [tlane]).cellar.regions 3).extents.contains e) = true := by decide +kernel
  have hd : ([9] : List Nat).any (fun e => (landing [tlane]).hearth.disabledMap.contains e) = false := by decide +kernel
  have hl : (List.range (9 + 1 - 9)).map (fun i => 9 + i) = [9] := rfl
  simp only [State.locCheck, State.cellarCheck, hx, he, hl, hg, hd, h]
  rfl

theorem witness_ChunksReceived_move :
    crc32c [5, 6] = 0x8AE86991 ∧ (landing [tlane]).laneAt 0 4 true 1 17 3 = some tlane ∧ (landing [tlane]).cellarOpen 0x1200000 2 = true ∧
    (landing [tlane]).poisonIn 0x1200000 2 = false ∧ (landing [tlane]).coldExt 0x1200000 2 = none ∧ tlane.whole 2 = true ∧ (landing [tlane]).fetches tlane 2 = none ∧
    (crc32c (tlane.bytes.take 2)).toNat = le (tseal 0x8AE86991) 16 4 ∧ (receiving [tlane] []).locCheck 0 5 true 0x4010 0x1400000 2 = some (0x21, 16) := by decide +kernel

theorem witness_ChunksReceived_collective :
    ((collecting [clane (some (0, 0)) 0]).laneAt 0 3 false 0 17 0 = some (clane (some (0, 0)) 0) ∧ sealMismatch comingDown (cseal 0x8AE86991 0x20 0) = none ∧
      (clane (some (0, 0)) 0).whole 2 = true ∧ (crc32c ((clane (some (0, 0)) 0).bytes.take 2)).toNat = 0x8AE86991) ∧
    ((sealMismatch comingDown (cseal 0x8AE86991 0x22 0)).isSome = true ∧
      ((after (.sealReceived 0 (cseal 0x8AE86991 0x22 0) noAux) (collecting [clane (some (0, 0)) 0])).ctx 0).lastStatus = 0x12) ∧
    ((collecting [clane none 1]).epochClash (clane none 1) = some (0, 0) ∧
      ((after (.sealReceived 0 (cseal 0x8AE86991 0x20 1) noAux) (collecting [clane none 1])).ctx 0).lastStatus = 0x12) ∧
    (({ inGroup { entry := some (treeEntry 17 17 1 0) } [] with lanes := [clane none 0] } : State).epochClash (clane none 0) = none ∧
      (after (.sealReceived 0 (cseal 0x8AE86991 0x20 0) noAux) { inGroup { entry := some (treeEntry 17 17 1 0) } [] with lanes := [clane none 0] }).lanes.map (fun l => l.sealed.isSome) = [true]) := by
  decide +kernel

/-- A chunk for engine 24 that came on port 0 and is passed on: its lane, and it, sent on port 4 or not yet. -/
def passing (port : Option Nat) : State :=
  { receiving [{ tlane with dest := 24 }] [] with outs := [{ forwardOut { tlane with dest := 24 } [32, 33, 34, 35] with port := port, pieces := [(0, [5, 6])] }] }

theorem witness_ChunksReceived_onward :
    ((passing none).outs.findIdx? (fun o => o.owner.isNone && o.passes { tlane with dest := 24 } && o.bytes.isNone) = some 0 ∧
      (after (.sealReceived 0 (tseal 0x8AE86991) noAux) (passing none)).outs.map (fun o => (o.bytes, o.sealed)) = [(some [5, 6], false)] ∧
      (after (.sealReceived 0 (tseal 0x8AE86991) noAux) (passing none)).confirmed = [⟨true, 4, 1, 17, 24, 3⟩]) := by decide +kernel

theorem witness_ChunksReceived_failures :
    ((after (.sealReceived 0 (tseal 0) noAux) (receiving [tlane] [])).lanes = [] ∧ ((after (.sealReceived 0 (tseal 0) noAux) (receiving [tlane] [])).port 0).vc3.length = 1 ∧
      ((after (.sealReceived 0 (tseal 0) noAux) (receiving [tlane] [])).port 0).cnt.checkFailures = 1 ∧
      (after (.sealReceived 0 (tseal 0) noAux) (receiving [tlane] [])).owed = [⟨true, 4, 1, 17, 16, 3⟩]) ∧
    (((after (.sealReceived 0 (tseal 0) noAux) (receiving [{ tlane with attempt := 3 }] [])).port 0).cnt.lost = 1 ∧
      ((after (.sealReceived 0 (cseal 0 0x20 0) noAux) (collecting [{ clane (some (0, 0)) 0 with attempt := 3 }])).ctx 0).lastStatus = 0x31) ∧
    ((after (.sealReceived 0 (tseal 0x8AE86991) noAux) (receiving [{ tlane with poisoned := true }] [])).confirmed = [⟨true, 4, 1, 17, 16, 3⟩] ∧
      ((after (.sealReceived 0 (cseal 0x8AE86991 0x20 0) noAux) (collecting [{ clane (some (0, 0)) 0 with poisoned := true }])).ctx 0).lastStatus = 0x22) := by
  decide +kernel

theorem witness_ChunksReceived_rest :
    (((after (.sealReceived 0 (tseal 0) noAux) (receiving [] [⟨true, 4, 1, 17, 16, 3⟩])).port 0).cnt.duplicates = 1 ∧
      (after (.sealReceived 0 (tseal 0) noAux) { receiving [] [] with droppedChunks := [tlane.asDropped] }).droppedChunks = [] ∧
      (receiving [{ tlane with port := 4 }] []).laneAt 0 4 true 1 17 3 = none ∧ ((after (.sealReceived 0 (tseal 0) noAux) (receiving [{ tlane with port := 4 }] [])).lanes.length = 1) ∧
      ((after (.sealReceived 0 (tseal 0) noAux) (receiving [] [])).port 0).cnt.checkFailures = 1 ∧
      ((after (.sealReceived 0 (tseal 0) noAux) { receiving [] [] with hearth := { thearth with startup := .syncing } }).port 0).cnt.preReadyDrops = 1) ∧
    (ctlOk 0x01 (ctlFlit 0x01 17 [(2, 2, 4), (6, 4, 1), (11, 1, 8), (12, 8, 3), (21, 1, 17)]) = true ∧
      (after (.retractMarker 0 (ctlFlit 0x01 17 [(2, 2, 4), (6, 4, 1), (11, 1, 8), (12, 8, 3), (21, 1, 17)])) (receiving [tlane] [])).lanes = [] ∧
      ((after (.retractMarker 0 (ctlFlit 0x01 17 [(2, 2, 4), (6, 4, 1), (11, 1, 8), (12, 8, 3), (21, 1, 17)])) (receiving [] [])).port 0).cnt.retractReceived = 1) := by
  decide +kernel

/-- The same ring, for engine 24. -/
def tring24 : List Byte := ringFlit 17 2 5 6 true 9 24 0x19000020 []

/-- A chunk of context 2 of engine 17 that this engine has passed on, on port 0. -/
def passed : OutChunk := { forwardOut { tlane with dest := 24, flow := 2 } [0] with port := some 0, sealed := true, bytes := some [5, 6] }

/-- Context 1 is in Clearing after tenant 5. -/
def clearing5 : State := { ringing 5 [] with ctxs := [(1, { state := .clearing, before := some 5 })] }

theorem witness_RemoteRings_forms :
    (clearing5.clearingFor 0x19000020 = some 1 ∧ (after (.remoteBellRing 0 (tring [])) clearing5).rings.map (fun r => r.clearing) = [some 1]) ∧
    (ctlOk 0x02 tring24 = true ∧ ((ringing 5 []).ringOf 0 tring24 true).behind = [] ∧ (ringing 5 []).chunkBefore ((ringing 5 []).ringOf 0 tring24 true) 24 = none ∧
      (ringing 5 []).lowestUp ((ringing 5 []).forwardPorts true 0 24) = none ∧ ((after (.remoteBellRing 0 tring24) (ringing 5 [])).port 0).cnt.unroutable = 1 ∧
      ((after (.remoteBellRing 0 tring24) { ringing 5 [] with ports := [(32, upPort), (0, upPort)] }).port 32).vc0.map (fun x => x.bytes == tring24) = [true]) ∧
    (({ ringing 5 [] with lanes := [{ tlane with dest := 24, flow := 2 }] } : State).ringOf 0 tring24 true).behind ≠ [] ∧
    ((after (.remoteBellRing 0 tring24) { ringing 5 [] with lanes := [{ tlane with dest := 24, flow := 2 }] }).rings.map (fun r => r.onward) = [some tring24]) ∧
    (({ ringing 5 [] with outs := [passed] } : State).chunkBefore (({ ringing 5 [] with outs := [passed] } : State).ringOf 0 tring24 true) 24 = some (0, 0x11102) ∧
      ((after (.remoteBellRing 0 tring24) { ringing 5 [] with outs := [passed] }).port 0).vc0.map (fun x => x.flow) = [0x11102]) ∧
    (after (.remoteRingMarksMet 0) (ringing 5 [{ theld false [] with onward := some tring24 }]) = ringing 5 [{ theld false [] with onward := some tring24 }] ∧
      (after (.remoteRingMarksMet 0) (ringing 6 [theld false []])).rings = []) := by decide +kernel

/-- A transit-only entry of generation 1. -/
def transitEntry : List Byte := fields 512 [(0, 2, 3), (2, 1, 5), (3, 1, 2), (4, 2, 1), (10, 1, 2), (0x10, 1, 17), (0x11, 1, 17)]

/-- An engine that forwards the group up its plane, with its uplink FP33 Up. -/
def transiting : State :=
  let s := inGroup { entry := some (transitEntry.set 11 3) } []
  { s with ports := s.ports ++ [(33, upPort)] }

theorem witness_BarrierMessagesAndAborts_forms :
    (ctlOk 0x10 ((bflit 0x10 0).set 40 1) = false ∧ ((after (.barrierArrival 0 ((bflit 0x10 0).set 40 1)) (inGroup {} [])).port 0).cnt.badControl = 1 ∧
      (after (.barrierArrival 0 (bflit 0x10 0)) (inGroup {} [])).groups = (inGroup {} []).groups) ∧
    (geTransitOnly transitEntry = true ∧ (after (.barrierArrival 0 (bflit 0x10 0)) (inGroup { entry := some transitEntry } [])).groups = [(3, { entry := some transitEntry })] ∧
      (after (.barrierRelease 0 (bflit 0x11 9000)) (inGroup { entry := some transitEntry } [])).groups = [(3, { entry := some transitEntry })]) ∧
    (geTransit (transitEntry.set 11 3) = [32, 33] ∧ transiting.lowestUp [32, 33] = some 33 ∧
      ((after (.barrierArrival 0 (bflit 0x10 0)) transiting).port 33).vc1.length = 1 ∧
      ((after (.barrierRelease 0 (bflit 0x11 9000)) transiting).port 33).vc1.length = 1) ∧
    ((inGroup {} [fly 0x32 (.barrier 3 1 0 0 none false)]).ringRoom 0 = true ∧
      ((after (.barrierArrival 0 (bflit 0x10 0)) (inGroup { entry := some (rootEntry 2), arrived := [16] } [fly 0x32 (.barrier 3 1 0 0 none false)])).ctx 0).flights.map (fun f => f.kind) =
        [.barrier 3 1 0 0 (some (5000 + geLead (rootEntry 2))) false] ∧
      ((after (.barrierArrival 0 (bflit 0x10 0)) (inGroup { entry := some (rootEntry 2), rootSeq := 4 } [])).log.ring.map (fun r => r.event)) = [0x0305] ∧
      ((after (.barrierArrival 0 (bflit 0x10 0)) (inGroup { entry := some (rootEntry 2), rootSeq := 4 } [fly 0x32 (.barrier 3 1 4 0 none false)])).ctx 0).lastStatus = 0x33) ∧
    ((inGroup {} []).lowestUp (gePorts (treeEntry 17 17 2 0) false 0) = none ∧
      (after (.barrierArrival 0 (bflit 0x10 0)) (inGroup { entry := some (treeEntry 17 17 2 0) } [])).groups = [(3, { entry := some (treeEntry 17 17 2 0) })]) := by decide +kernel

theorem witness_BarrierMessagesAndAborts_generations :
    (geGen (treeEntry 17 17 1 0) = 1 ∧
      ((after (.barrierArrival 0 ((bflit 0x10 0).set 4 2)) (inGroup { entry := some (treeEntry 17 17 1 0) } [fly 0x32 (.barrier 3 1 0 0 none false)])).ctx 0).lastStatus = 0x14 ∧
      (inGroup {} [fly 0x32 (.barrier 3 1 0 0 none false)]).groupFlights 3 = [(0, 0)]) ∧
    (((after (.barrierRelease 0 ((bflit 0x11 9000).set 6 1)) (inGroup { entry := some (treeEntry 17 17 1 0) } [fly 0x32 (.barrier 3 1 0 0 none false)])).ctx 0).flights.map (fun f => f.kind) =
        [.barrier 3 1 0 0 none false]) ∧
    ((after (.peerAbort 0 (aflit 0)) (inGroup { entry := some (treeEntry 17 17 1 0), issued := [0] } [])).grp 3).kept = [] ∧
    ((after (.peerAbort 0 (aflit 1)) (inGroup { entry := some (treeEntry 17 17 1 0), barrierSeq := 1 } [])).grp 3).kept = [] := by decide +kernel

/-! ## The Cellar's cipher -/

/-- The example of AES-256 in FIPS 197, C.3. -/
theorem test_aes256_example :
    aesBlock ((List.range 32).map (BitVec.ofNat 8)) ((List.range 16).map (fun i => BitVec.ofNat 8 (17 * i))) =
      [0x8E, 0xA2, 0xB7, 0xCA, 0x51, 0x67, 0x45, 0xBF, 0xEA, 0xFC, 0x49, 0x90, 0x4B, 0x49, 0x60, 0x89] := by decide +kernel

/-- The example of R346. -/
theorem test_unit_tweak : unitTweak 0x25C12340 = [0x8D, 0x04, 0x97, 0, 0, 0, 0, 0, 0, 0, 0, 0, 0, 0, 0, 0] := by decide +kernel

/-! ## Ill-formed commands: each check of WellFormed refuses one -/

theorem witness_CellarMaintenance_arrays :
    (isAlone (alone (fly 0x33 (.waitCount 9000))) 0 (fly 0x33 (.waitCount 9000)) = true ∧
      ((after (.arrayPatrol (.figure 0 0 false 8 1)) (alone (fly 0x33 (.waitCount 9000)))).ctx 0).lastStatus = 0x44 ∧
      (after (.arrayPatrol (.figure 0 0 true 7 1)) (alone (fly 0x33 (.waitCount 9000)))).log.ring.map (fun r => (r.event, r.severity)) = [(0x0201, 2), (0x0301, 2)] ∧
      after (.arrayPatrol (.figure 0 1 false 8 1)) (alone (fly 0x33 (.waitCount 9000))) = alone (fly 0x33 (.waitCount 9000))) ∧
    ((after (.arrayPatrol (.lane 0)) (receiving [tlane] [])).lanes = [] ∧
      ((after (.arrayPatrol (.lane 0)) (receiving [tlane] [])).port 0).vc3.map (fun x => byteAt x.bytes 0) = [0x09]) ∧
    ((after (.arrayPatrol (.heldCopy 0)) (sending (tchunk none (some 0) 2))).outs = [tchunk none none 1] ∧
      ((after (.arrayPatrol (.heldCopy 0)) (sending (tchunk none (some 0) 2))).port 0).cnt.retractSent = 1) ∧
    (((after (.arrayPatrol (.register 5 0)) (withHost { served with slowReadNs := 900 })).host 0).slowReadNs = 1500 ∧
      ((after (.arrayPatrol (.register 4 0)) (withCtx0 { state := .idle, regs := card4 })).ctx 0).regs = {}) ∧
    ((after (.arrayPatrol .hearth) ready).hearth.bootReason = .hearthError ∧ (after (.arrayPatrol .hearth) ready).cellar.extents = []) := by decide +kernel

/-- A payload one byte too long. -/
def long : List Byte := List.replicate 4097 0

theorem test_wf_refuses_payloads :
    ∀ c ∈ ([.getStatus none 0 long, .readRecords none 0 long, .imageWrite none 0 long, .warmReset none 0 long, .liveRestart none 0 long,
      .fuseRaiseMinVersion none 0 long, .fuseRevokeKey none 0 long, .setWallclock none 0 long, .powerBank none 0 long, .powerUnbank none 0 long,
      .powerHoldOn none 0 long, .powerHoldOff none 0 long, .grant none 0 long, .release none 0 long, .map none 0 long, .unmap none 0 long,
      .renew none 0 long, .readExtent none 0 long, .regionCreate none 0 long, .regionRights none 0 long, .regionDelete none 0 long,
      .keyLoad none 0 long, .keyErase none 0 long, .tokenBucket none 0 long, .suiteWeight none 0 long, .serviceReset none 0 long,
      .servicePowerDown none 0 long, .serviceEnable none 0 long, .serviceHoldDown none 0 long, .serviceRelease none 0 long,
      .serviceRetrain none 0 long, .abortContexts none 0 long, .clearCounters none 0 long, .scan none 0 long, .packPush none 0 long,
      .resume none 0 long, .censusStart none 0 long, .censusRead none 0 long, .censusCommit none 0 long] : List Instr), c.wf = false := by
  decide +kernel

theorem test_wf_refuses_flits :
    ∀ c ∈ ([.syncExchange 0 [], .retractMarker 0 [], .chunkAck 0 [], .resendRequest 0 [], .remoteBellRing 0 [], .barrierArrival 0 [],
      .barrierRelease 0 [], .peerAbort 0 [], .censusQuery 0 [], .censusSeen 0 [], .censusConcurrent 0 [], .censusCommitMessage 0 [],
      .censusCommitDone 0 [],
      .packetReceived 0 [] [] 0 0, .packetReceived 0 (List.replicate 64 0) [1] 0 0, .sealReceived 0 [] noAux, .censusSubtreeReply 0 [[]],
      .frameReceived 0 [] true 0] : List Instr), c.wf = false := by decide

theorem test_wf_refuses_answers :
    ∀ c ∈ ([.figureFetch 0 (.ok []), .allreduce 0 (.ok []), .reduceScatter 0 (.ok []), .allgather 0 (.ok []), .broadcast 0 (.ok []),
      .reduce 0 (.ok []),
      .alltoall 0 (.ok []), .alltoallv 0 (.ok []) [], .alltoallv 0 .ur (List.replicate 65 .ur), .dmaReadCompletion 0 1024 .ur,
      .dmaReadCompletion 0 0 (.ok (List.replicate 513 0)), .cxlMemWrite 0 0 [] [] none, .bar0UnsupportedAccess 0 true 0x200000 4 false,
      .registerWrite 0 0x200000 0 false, .rlFieldWrite 0 0x200000, .lowHalfRead 0 0x200000, .leaseExpiry true 48, .leaseExpiry false 800,
      .groupRetentionTimeout 800, .groupWakeComplete 800, .temperatureUpdate [] 750,
      .badCommand none 0 0 4097] : List Instr), c.wf = false := by decide

theorem test_wf_accepts :
    ∀ c ∈ ([.figureFetch 0 (.ok (List.replicate 32 0)), .allreduce 0 (.ok (List.replicate 160 0)), .chunkAck 0 (List.replicate 64 0),
      .leaseExpiry true 47,
      .temperatureUpdate (List.replicate 24 100) 750, .frameReceived 0 (List.replicate 832 0) true 0, .nop 0] : List Instr), c.wf = true := by
  decide +kernel

/-- The table gives its rows no bits: no word spells a command, and none is placed. -/
theorem test_no_word_spells_a_command : decodeTableWord 32 7 = none ∧ (State.reset).withFetchWord 32 7 = State.reset := ⟨rfl, rfl⟩

end Sys2Proof.Tests
end

section
/-! Settling O28: what a host's reads and writes of BAR0 do (R7-R10, R398, R476-R478, R494). An access that reaches a page answers the
operation of that page; the statement's clauses are then one register each. -/

namespace Sys2Proof.Machine

/-! ## An access that reaches BAR0 -/

section Reached
variable {s : State} {h : Nat}

/-- Traffic of a host whose BARs are placed takes effect at once while the engine is not in Doze (R46, R394). -/
theorem State.hostIn_of_decodes (ha : s.asleep = false) (hd : s.decodes h = true) (i : Instr) (f : State → Out) :
    s.hostIn h i f = f s := by
  have hserving : s.hostServing h = true := by
    unfold decodes at hd
    exact (Bool.and_eq_true_iff.1 hd).1
  simp [hostIn, arrive, hserving, ha]

theorem State.bar0_of_decodes (hb : (s.host h).blocked = false) (hd : s.decodes h = true) (read : Bool) (f : State → State) :
    s.bar0 h read f = f s := by
  simp [bar0, hb, hd]

end Reached

/-- A doorbell's outcome is always a next state, so a register write that forwards to the doorbell answers what the doorbell answers. -/
theorem next_nextOr_hostIn (s u : State) (h : Nat) (i : Instr) (g : State → State) :
    (.next (nextOr u (s.hostIn h i fun s => .next (g s))) : Out) = s.hostIn h i fun s => .next (g s) := by
  unfold State.hostIn State.arrive
  split
  · split <;> rfl
  · rfl

theorem Reg.at_wide (base : Nat) (r : Reg) : (r.at base).wide = r.wide := rfl

/-! ## Writes to a context page (R10, R151, R477, R494) -/

section ContextPage
variable {s : State} {h : Fin 16} {c : Fin 256} {i : Nat}

/-- Every offset of an open context page decodes to that page (R138, R398). -/
theorem State.pageOf_ctxPage (hp : CtxPageOpen s h.val c.val i) {o : Nat} (ho : o < 0x1000) :
    s.pageOf h.val (0x100000 + 0x1000 * c.val + o) = .ctx i c.val := by
  obtain ⟨-, -, -, hctx, hhost, -⟩ := hp
  have hc := c.isLt
  have hpage : (0x100000 + 0x1000 * c.val + o - 0x100000) / 0x1000 = c.val := by omega
  unfold pageOf
  rw [if_neg (by omega), if_neg (by omega), if_neg (by omega), if_pos (by omega), hpage]
  simp [hctx, hhost]

theorem ctxPage_mod {o : Nat} (ho : o < 0x1000) : (0x100000 + 0x1000 * c.val + o) % 0x1000 = o := by omega

/-- The register of an open context page is the context's, moved up to the page. -/
theorem State.reg_ctxPage (hp : CtxPageOpen s h.val c.val i) {o : Nat} (ho : o < 0x1000) {r : Reg} (hr : (s.ctx c.val).reg o = some r) :
    s.reg h.val (0x100000 + 0x1000 * c.val + o) = some (r.at (0x100000 + 0x1000 * c.val)) := by
  have hbase : (0x100000 + 0x1000 * c.val + o) / 0x1000 * 0x1000 = 0x100000 + 0x1000 * c.val := by omega
  simp [reg, State.pageOf_ctxPage hp ho, ctxPage_mod ho, hr, hbase, Reg.orReserved]

/-- Every word of an open context page answers, whether a table lists it or not (R8, R398). -/
theorem State.reg_ctxPage_isSome (hp : CtxPageOpen s h.val c.val i) {o : Nat} (ho : o < 0x1000) :
    (s.reg h.val (0x100000 + 0x1000 * c.val + o)).isSome = true := by
  simp [reg, State.pageOf_ctxPage hp ho, Reg.orReserved]

theorem State.pageResets_ctxPage (hp : CtxPageOpen s h.val c.val i) {o : Nat} (ho : o < 0x1000) :
    s.pageResets h.val (0x100000 + 0x1000 * c.val + o) = false := by
  have hpage := State.pageOf_ctxPage hp ho
  obtain ⟨-, -, -, -, -, hsuite⟩ := hp
  simp [pageResets, hpage, hsuite]

theorem State.accepted_ctxPage_word (hp : CtxPageOpen s h.val c.val i) {o : Nat} (ho : o < 0x1000) (ha : o % 4 = 0) :
    s.accepted h.val (0x100000 + 0x1000 * c.val + o) 4 = true := by
  have halign : (0x100000 + 0x1000 * c.val + o) % 4 = 0 := by omega
  simp [accepted, State.reg_ctxPage_isSome hp ho, halign]

theorem State.accepted_ctxPage_wide (hp : CtxPageOpen s h.val c.val i) {o : Nat} (ho : o < 0x1000) (ha : o % 8 = 0) :
    s.accepted h.val (0x100000 + 0x1000 * c.val + o) 8 = true := by
  have halign : (0x100000 + 0x1000 * c.val + o) % 8 = 0 := by omega
  have hnext := State.reg_ctxPage_isSome hp (o := o + 4) (by omega)
  rw [← Nat.add_assoc] at hnext
  simp [accepted, State.reg_ctxPage_isSome hp ho, hnext, halign]

/-- A 32-bit write to an open context page is the write of one half. -/
theorem exec_registerWrite_word (hp : CtxPageOpen s h.val c.val i) (v : Word64) {o : Nat} (ho : o < 0x1000) (ha : o % 4 = 0) :
    exec (.registerWrite h (0x100000 + 0x1000 * c.val + o) v false) s =
      .next (s.writeHalf h (0x100000 + 0x1000 * c.val + o) (v.toNat % 2 ^ 32)) := by
  have hacc := State.accepted_ctxPage_word hp ho ha
  have hres := State.pageResets_ctxPage hp ho
  obtain ⟨hawake, hfree, hdec, -⟩ := hp
  change execRegisterWrite h _ v false s = _
  simp [execRegisterWrite, State.hostIn_of_decodes hawake hdec, State.bar0_of_decodes hfree hdec, hacc, hres]

/-- A 32-bit write to a 32-bit register of an open context page acts at once. -/
theorem exec_registerWrite_narrow (hp : CtxPageOpen s h.val c.val i) (v : Word64) {o : Nat} (ho : o < 0x1000) (ha : o % 4 = 0)
    {r : Reg} (hr : (s.ctx c.val).reg o = some r) (hw : r.wide = false) :
    exec (.registerWrite h (0x100000 + 0x1000 * c.val + o) v false) s = .next (s.writeCtx h i c o (v.toNat % 2 ^ 32)) := by
  rw [exec_registerWrite_word hp v ho ha]
  simp [State.writeHalf, State.reg_ctxPage hp ho hr, Reg.at_wide, hw, State.writeWord, State.pageOf_ctxPage hp ho, ctxPage_mod ho]

/-- A 32-bit write to a register that forwards to a doorbell is that doorbell. -/
theorem exec_registerWrite_doorbell (hp : CtxPageOpen s h.val c.val i) (v : Word64) {o : Nat} (ho : o < 0x1000) (ha : o % 4 = 0)
    {r : Reg} (hr : (s.ctx c.val).reg o = some r) (hw : r.wide = false) {d : Instr} {g : State → State}
    (hdoor : s.writeCtx h i c o (v.toNat % 2 ^ 32) = nextOr s (s.hostIn h.val d fun s => .next (g s))) :
    exec (.registerWrite h (0x100000 + 0x1000 * c.val + o) v false) s = s.hostIn h.val d fun s => .next (g s) := by
  rw [exec_registerWrite_narrow hp v ho ha hr hw, hdoor, next_nextOr_hostIn]

/-- A 64-bit write to a 64-bit register of an open context page sets it whole. -/
theorem exec_registerWrite_wide (hp : CtxPageOpen s h.val c.val i) (v : Word64) {o : Nat} (ho : o < 0x1000) (ha : o % 8 = 0)
    {r : Reg} (hr : (s.ctx c.val).reg o = some r) (hw : r.wide = true) :
    exec (.registerWrite h (0x100000 + 0x1000 * c.val + o) v true) s =
      .next (s.writeWide h (0x100000 + 0x1000 * c.val + o) v) := by
  have hacc := State.accepted_ctxPage_wide hp ho ha
  have hres := State.pageResets_ctxPage hp ho
  have hreg := State.reg_ctxPage hp ho hr
  obtain ⟨hawake, hfree, hdec, -⟩ := hp
  obtain ⟨off, wide, val⟩ := r
  subst hw
  change execRegisterWrite h _ v true s = _
  simp [execRegisterWrite, State.hostIn_of_decodes hawake hdec, State.bar0_of_decodes hfree hdec, hacc, hres, State.writeBoth, hreg, Reg.at]

/-- Outside Clearing a write to a Card register sets the next START's value (R154, R494). -/
theorem State.writeCard_of_ne_clearing {c : Nat} (hc : (s.ctx c).state ≠ .clearing) (f : CardRegs → CardRegs) :
    s.writeCard i c f = s.putCtx c { s.ctx c with regs := f (s.ctx c).regs } := by
  simp [writeCard, hc]

/-- A write to the Card's length register sets the low 25 bits (R494). -/
theorem State.writeCtx_len (s : State) (h : Fin 16) (i : Nat) (c : Fin 256) (v : Nat) :
    s.writeCtx h i c 0x02C v = s.writeCard i c.val (fun r => { r with len := bits v 24 0 }) := rfl

theorem State.writeWide_base (hp : CtxPageOpen s h.val c.val i) (v : Word64) :
    s.writeWide h (0x100000 + 0x1000 * c.val + 0x020) v = s.writeCard i c.val (fun r => { r with base := v }) := by
  simp [writeWide, State.pageOf_ctxPage hp, ctxPage_mod]

theorem State.writeWide_translation (hp : CtxPageOpen s h.val c.val i) (v : Word64) :
    s.writeWide h (0x100000 + 0x1000 * c.val + 0x050) v = nextOr s (execTranslation h c v s) := by
  simp [writeWide, State.pageOf_ctxPage hp, ctxPage_mod]

/-- The base of the Card is the one 64-bit register that covers both of its words (R494). -/
theorem Context.reg_base_low (x : Context) : x.reg 0x020 = some (r64 0x020 x.regs.base.toNat) := rfl

theorem Context.reg_base_high (x : Context) : x.reg 0x024 = some (r64 0x020 x.regs.base.toNat) := rfl

/-- A low half written outside Clearing is kept for the port, and the context is left alone (R10, R477). -/
theorem State.writeHalf_base_low (hp : CtxPageOpen s h.val c.val i) (hc : (s.ctx c.val).state ≠ .clearing) (v : Nat) :
    s.writeHalf h (0x100000 + 0x1000 * c.val + 0x020) v = s.putHost h.val
      { s.host h.val with
        writeLatch := FMap.put (s.host h.val).writeLatch (0x100000 + 0x1000 * c.val + 0x020) (BitVec.ofNat 32 v) } := by
  have hreg := State.reg_ctxPage hp (by decide) (s.ctx c.val).reg_base_low
  simp [writeHalf, hreg, Reg.at, r64, clearingPage, State.pageOf_ctxPage hp, hc]

/-- Two halves side by side are the 64-bit word of their values. -/
theorem ofNat_halves_eq_append (w lo : Word32) : BitVec.ofNat 64 (w.toNat * 2 ^ 32 + lo.toNat) = w ++ lo := by
  apply BitVec.eq_of_toNat_eq
  have hw := w.isLt
  have hlo := lo.isLt
  rw [BitVec.toNat_append, BitVec.toNat_ofNat, ← Nat.shiftLeft_add_eq_or_of_lt hlo, Nat.shiftLeft_eq]
  omega

/-- The high half acts with the low half that the port wrote last (R10, R477). -/
theorem State.writeHalf_base_high (hp : CtxPageOpen s h.val c.val i) (w lo : Word32)
    (hlo : FMap.find (s.host h.val).writeLatch (0x100000 + 0x1000 * c.val + 0x020) = some lo) :
    s.writeHalf h (0x100000 + 0x1000 * c.val + 0x024) w.toNat =
      s.writeCard i c.val (fun r => { r with base := w ++ lo }) := by
  have hreg := State.reg_ctxPage hp (by decide) (s.ctx c.val).reg_base_high
  rw [← ofNat_halves_eq_append, ← State.writeWide_base hp]
  simp [writeHalf, hreg, Reg.at, r64, HostPort.lowHalf, hlo]

/-- R7, R151, R494: the doorbells of a context page, by their offsets, and a word that no table lists (R8). -/
theorem registerWrite_doorbells (hp : CtxPageOpen s h.val c.val i) (v : Word64) :
    let page := 0x100000 + 0x1000 * c.val
    let w : Word32 := BitVec.ofNat 32 (v.toNat % 2 ^ 32)
    exec (.registerWrite h page v false) s = exec (.start h c) s ∧
    exec (.registerWrite h (page + 0x004) v false) s = exec (.stop h c) s ∧
    exec (.registerWrite h (page + 0x008) v false) s = exec (.abort h c) s ∧
    exec (.registerWrite h (page + 0x00C) v false) s = exec (.bell h c w) s ∧
    exec (.registerWrite h (page + 0x010) v false) s = exec (.ringHead h c w) s ∧
    exec (.registerWrite h (page + 0x014) v false) s = exec (.histClear h c) s ∧
    exec (.registerWrite h (page + 0x050) v true) s = exec (.translation h c v) s ∧
    exec (.registerWrite h (page + 0xFFC) v false) s = .next s := by
  refine ⟨?start, ?stop, ?abort, ?bell, ?ringHead, ?histClear, ?translation, ?reserved⟩
  case start => exact exec_registerWrite_doorbell hp v (o := 0x000) (by decide) rfl rfl rfl rfl
  case stop => exact exec_registerWrite_doorbell hp v (o := 0x004) (by decide) rfl rfl rfl rfl
  case abort => exact exec_registerWrite_doorbell hp v (o := 0x008) (by decide) rfl rfl rfl rfl
  case bell => exact exec_registerWrite_doorbell hp v (o := 0x00C) (by decide) rfl rfl rfl rfl
  case ringHead => exact exec_registerWrite_doorbell hp v (o := 0x010) (by decide) rfl rfl rfl rfl
  case histClear => exact exec_registerWrite_doorbell hp v (o := 0x014) (by decide) rfl rfl rfl rfl
  case translation =>
    rw [exec_registerWrite_wide hp v (by decide) rfl rfl rfl, State.writeWide_translation hp]
    exact next_nextOr_hostIn s s h.val _ _
  case reserved => exact exec_registerWrite_narrow hp v (o := 0xFFC) (by decide) rfl rfl rfl

/-- R10, R477, R494: the Card registers of a context that is not in Clearing. -/
theorem registerWrite_cardRegs (hp : CtxPageOpen s h.val c.val i) (v : Word64) (hc : (s.ctx c.val).state ≠ .clearing) :
    let page := 0x100000 + 0x1000 * c.val
    let w : Word32 := BitVec.ofNat 32 (v.toNat % 2 ^ 32)
    exec (.registerWrite h (page + 0x02C) v false) s = .next (s.putCtx c.val
      { s.ctx c.val with regs := { (s.ctx c.val).regs with len := bits (v.toNat % 2 ^ 32) 24 0 } }) ∧
    exec (.registerWrite h (page + 0x020) v true) s = .next (s.putCtx c.val
      { s.ctx c.val with regs := { (s.ctx c.val).regs with base := v } }) ∧
    exec (.registerWrite h (page + 0x020) v false) s = .next (s.putHost h.val
      { s.host h.val with writeLatch := FMap.put (s.host h.val).writeLatch (page + 0x020) w }) ∧
    (∀ lo, FMap.find (s.host h.val).writeLatch (page + 0x020) = some lo →
      exec (.registerWrite h (page + 0x024) v false) s = .next (s.putCtx c.val
        { s.ctx c.val with regs := { (s.ctx c.val).regs with base := w ++ lo } })) := by
  intro page w
  have hw : v.toNat % 2 ^ 32 = w.toNat := by simp [w]
  refine ⟨?len, ?base, ?low, ?high⟩
  case len =>
    rw [exec_registerWrite_narrow hp v (by decide) rfl rfl rfl, State.writeCtx_len, State.writeCard_of_ne_clearing hc]
  case base =>
    rw [exec_registerWrite_wide hp v (by decide) rfl (Context.reg_base_low _) rfl, State.writeWide_base hp,
      State.writeCard_of_ne_clearing hc]
  case low => rw [exec_registerWrite_word hp v (by decide) rfl, State.writeHalf_base_low hp hc]
  case high =>
    intro lo hlo
    rw [exec_registerWrite_word hp v (by decide) rfl, hw, State.writeHalf_base_high hp w lo hlo, State.writeCard_of_ne_clearing hc]

end ContextPage

/-! ## 32-bit reads (R9, R477) -/

theorem HostPort.readHalf_narrow (x : HostPort) {r : Reg} (hw : r.wide = false) (off : Nat) :
    x.readHalf r off = (r.val, x.readLatch) := by
  simp [readHalf, hw]

theorem HostPort.readHalf_low (x : HostPort) (off v : Nat) :
    x.readHalf (r64 off v) off = (v % 2 ^ 64 % 2 ^ 32, BitVec.ofNat 32 (v % 2 ^ 64 / 2 ^ 32)) := by
  simp [readHalf, r64]

theorem HostPort.readHalf_high (x : HostPort) (off v : Nat) :
    x.readHalf (r64 off v) (off + 4) = (x.readLatch.toNat, x.readLatch) := by
  simp [readHalf, r64]

/-- The hall counter is one 64-bit register of the port page, of which a read may take either half (R479). -/
theorem State.reg_hall_low (s : State) (h : Nat) : s.reg h 0x020 = some (r64 0x020 s.hall.toNat) := rfl

theorem State.reg_hall_high (s : State) (h : Nat) : s.reg h 0x024 = some (r64 0x020 s.hall.toNat) := rfl

section PortAccess
variable {s : State} {h : Fin 16}

/-- A read that the port takes completes with what `readHalf` gives, leaves its latch, and changes no more than the host block. -/
theorem exec_lowHalfRead (ha : s.asleep = false) (hb : (s.host h.val).blocked = false) (hd : s.decodes h.val = true) {off : Nat} {r : Reg}
    (hacc : s.accepted h.val off 4 = true) (hres : s.pageResets h.val off = false) (hr : s.reg h.val off = some r) :
    ∃ t, exec (.lowHalfRead h off) s = .next t ∧ (t.host h.val).cpl = .data (toLe 4 ((s.host h.val).readHalf r off).1) ∧
      (t.host h.val).readLatch = ((s.host h.val).readHalf r off).2 ∧ t.ctxs = s.ctxs ∧ t.cellar = s.cellar := by
  refine ⟨s.readWord h.val off, ?_, ?_⟩
  · change execLowHalfRead h off s = _
    simp [execLowHalfRead, State.hostIn_of_decodes ha hd, State.bar0_of_decodes hb hd, hacc]
  · simp [State.readWord, hr, hres]

theorem exec_lowHalfRead_hall (ha : s.asleep = false) (hb : (s.host h.val).blocked = false) (hd : s.decodes h.val = true) :
    ∃ t, exec (.lowHalfRead h 0x020) s = .next t ∧ (t.host h.val).cpl = .data (toLe 4 (s.hall.toNat % 2 ^ 32)) ∧
      (t.host h.val).readLatch = BitVec.ofNat 32 (s.hall.toNat / 2 ^ 32) ∧ t.ctxs = s.ctxs ∧ t.cellar = s.cellar := by
  have hread := exec_lowHalfRead ha hb hd (off := 0x020) rfl rfl (s.reg_hall_low h.val)
  rwa [HostPort.readHalf_low, Nat.mod_eq_of_lt s.hall.isLt] at hread

theorem exec_lowHalfRead_hall_high (ha : s.asleep = false) (hb : (s.host h.val).blocked = false) (hd : s.decodes h.val = true) :
    ∃ t, exec (.lowHalfRead h 0x024) s = .next t ∧ (t.host h.val).cpl = .data (toLe 4 (s.host h.val).readLatch.toNat) ∧
      t.ctxs = s.ctxs ∧ t.cellar = s.cellar := by
  obtain ⟨t, hexec, hcpl, -, hctxs, hcellar⟩ := exec_lowHalfRead ha hb hd (off := 0x024) rfl rfl (s.reg_hall_high h.val)
  rw [HostPort.readHalf_high _ 0x020] at hcpl
  exact ⟨t, hexec, hcpl, hctxs, hcellar⟩

/-! ## RL fields (R7, R478) and refused accesses (R398, R476) -/

/-- A record is an occurrence in the log; the event that it may send is not. -/
@[simp] theorem State.record_log (s : State) (a : RecArgs) : (s.record a).log = (s.logOccurrence a).1 := by
  unfold record
  split
  next l hl => rw [hl]
  next l r hl => rw [hl]; split <;> rfl

/-- A refused write shows in ACCESS_STATUS alone, and is one occurrence in the log (R478). -/
theorem State.rlWrite_effect (s : State) (h off : Nat) :
    (s.rlWrite h off).hearth.rlSeen = true ∧ (s.rlWrite h off).hearth.rlOffset = BitVec.ofNat 21 off ∧
    (s.rlWrite h off).hearth.config = s.hearth.config ∧
    (s.rlWrite h off).log = (s.logOccurrence ⟨0x0105, 0, 5, h, none, off, 0⟩).1 ∧
    (s.rlWrite h off).hosts = s.hosts ∧ (s.rlWrite h off).ctxs = s.ctxs ∧ (s.rlWrite h off).cellar = s.cellar := by
  simp only [rlWrite, record_hearth_rlSeen, record_hearth_rlOffset, record_hearth_config, record_log, record_hosts, record_ctxs,
    record_cellar, true_and, and_true]
  rfl

/-- Outside the RL fields the command has nothing to refuse. -/
theorem exec_rlFieldWrite (ha : s.asleep = false) (hb : (s.host h.val).blocked = false) (hd : s.decodes h.val = true) (off : Nat) :
    exec (.rlFieldWrite h off) s = .next (if isRl off then s.rlWrite h.val off else s) := by
  change execRlFieldWrite h off s = _
  simp [execRlFieldWrite, State.hostIn_of_decodes ha hd, State.bar0_of_decodes hb hd]

theorem isRl_of_bounds {off : Nat} (hlo : 0x200 ≤ off) (hhi : off < 0x400) (ha : off % 4 = 0) : isRl off = true := by
  simp [isRl, hlo, hhi, ha]

theorem exec_bar0UnsupportedAccess (ha : s.asleep = false) (hb : (s.host h.val).blocked = false) (hd : s.decodes h.val = true)
    {wr atomic : Bool} {off size : Nat} (hrefused : atomic = true ∨ s.accepted h.val off size = false) :
    exec (.bar0UnsupportedAccess h wr off size atomic) s = .next (s.putHost h.val { s.host h.val with
      bar0Unsupported := satInc (s.host h.val).bar0Unsupported, cpl := if wr then (s.host h.val).cpl else .ur }) := by
  have hcond : (atomic || !s.accepted h.val off size) = true := by simpa using hrefused
  change execBar0UnsupportedAccess h wr off size atomic s = _
  simp only [execBar0UnsupportedAccess, State.hostIn_of_decodes ha hd, State.bar0_of_decodes hb hd, hcond, if_true]
  cases wr <;> rfl

end PortAccess

/-! ## The statement -/

/-- Settles O28: writes to an open context page, register by register, then the reads, RL fields and refusals of a port that decodes BAR0. -/
theorem bar0Access : Obligations.Bar0Access := by
  refine ⟨fun s h c i v hp => ?writes, fun s h ha hb hd => ⟨?hallLow, ?hallHigh, ?narrow, ?rl, ?notRl, ?refused⟩⟩
  case writes =>
    obtain ⟨start, stop, abort, bell, ringHead, histClear, translation, reserved⟩ := registerWrite_doorbells hp v
    exact ⟨start, stop, abort, bell, ringHead, histClear, translation, reserved, registerWrite_cardRegs hp v⟩
  case hallLow => exact exec_lowHalfRead_hall ha hb hd
  case hallHigh => exact exec_lowHalfRead_hall_high ha hb hd
  case narrow =>
    intro off r hacc hres hr hw
    simpa only [HostPort.readHalf_narrow _ hw] using exec_lowHalfRead ha hb hd hacc hres hr
  case rl =>
    intro off hlo hhi halign
    exact ⟨s.rlWrite h.val off, by rw [exec_rlFieldWrite ha hb hd, if_pos (isRl_of_bounds hlo hhi halign)], s.rlWrite_effect h.val off⟩
  case notRl =>
    intro off hrl
    simp [exec_rlFieldWrite ha hb hd, hrl]
  case refused =>
    intro wr atomic off size hrefused
    exact exec_bar0UnsupportedAccess ha hb hd hrefused

end Sys2Proof.Machine
end

section
/-! What nearly every command keeps, for all commands at once; what one step over a list of units leaves. -/

namespace Sys2Proof.Machine

/-! ## Frames over lists -/

/-- What no step over a list changes, the list leaves. -/
theorem overList_frame {α β : Type} (p : State → β) {f : State → α → State} (hf : ∀ s x, p (f s x) = p s) (l : List α) (s : State) :
    p (overList f l s) = p s := by
  induction l generalizing s with
  | nil => rfl
  | cons x l ih => exact (ih (f s x)).trans (hf s x)

/-! ## What a command keeps -/

/-- The commands of which the laws of `Keeps` say nothing: resets and power loss, the steps of a boot up to the lock, and writes of fuses and flash. -/
def outsideKeeps : Instr → Bool
  | .powerOnReset | .prsntNBreak | .inputVoltageFault _ | .refclkLoss | .refclkRestored | .temperatureUpdate _ _ | .watchdogPeriodEnd
  | .arrayPatrol _ | .warmReset _ _ _ | .resetEnd _ _ | .imageLoadComplete _ _ | .lockingComplete
  | .fuseRaiseMinVersion _ _ _ | .fuseRevokeKey _ _ _ | .flashWriteComplete => true
  | _ => false

/-- Every other command keeps the queue, the fuses, the flash, the pins' samples and the locked configuration. -/
theorem exec_keeps (i : Instr) (s : State) (hi : outsideKeeps i = false) : KeepsOut s (exec i s) := by
  cases i with
  | prsntNMate => exact execPrsntNMate_keeps s .rfl
  | prsntDebounceComplete => exact execPrsntDebounceComplete_keeps s .rfl
  | bulkChargeComplete => exact execBulkChargeComplete_keeps s .rfl
  | scrubComplete bad => exact execScrubComplete_keeps bad s .rfl
  | trainingPhaseEnd => exact execTrainingPhaseEnd_keeps s .rfl
  | syncingComplete port count => exact execSyncingComplete_keeps port count s .rfl
  | counterMasterTimeout => exact execCounterMasterTimeout_keeps s .rfl
  | watchdogCheckIn slot key => exact execWatchdogCheckIn_keeps slot key s .rfl
  | haltInputChange channelB asserted samples => exact execHaltInputChange_keeps channelB asserted samples s .rfl
  | haltDiscrepancyExpiry => exact execHaltDiscrepancyExpiry_keeps s .rfl
  | haltGraceExpiry => exact execHaltGraceExpiry_keeps s .rfl
  | resumeComplete => exact execResumeComplete_keeps s .rfl
  | throttleStepDown => exact execThrottleStepDown_keeps s .rfl
  | throttleStepUp => exact execThrottleStepUp_keeps s .rfl
  | thermalHalt => exact execThermalHalt_keeps s .rfl
  | tapInstruction op => exact execTapInstruction_keeps op s .rfl
  | tapHaltInstruction op => exact execTapHaltInstruction_keeps op s .rfl
  | dozeEntry => exact execDozeEntry_keeps s .rfl
  | dozeWakeComplete => exact execDozeWakeComplete_keeps s .rfl
  | waitCountWake => exact execWaitCountWake_keeps s .rfl
  | bankedEntryComplete => exact execBankedEntryComplete_keeps s .rfl
  | syncExchangeTimer => exact execSyncExchangeTimer_keeps s .rfl
  | syncExchange port flit => exact execSyncExchange_keeps port flit s .rfl
  | epochPulse => exact execEpochPulse_keeps s .rfl
  | syncInEpochEdge => exact execSyncInEpochEdge_keeps s .rfl
  | syncInWireEdge => exact execSyncInWireEdge_keeps s .rfl
  | wireBarrierComplete => exact execWireBarrierComplete_keeps s .rfl
  | figureFetch ctx res => exact execFigureFetch_keeps ctx res s .rfl
  | nop ctx => exact execNop_keeps ctx s .rfl
  | endCard ctx => exact execEndCard_keeps ctx s .rfl
  | loop ctx => exact execLoop_keeps ctx s .rfl
  | mark ctx => exact execMark_keeps ctx s .rfl
  | move ctx => exact execMove_keeps ctx s .rfl
  | moveComplete ctx idx => exact execMoveComplete_keeps ctx idx s .rfl
  | allreduce ctx block => exact execAllreduce_keeps ctx block s .rfl
  | reduceScatter ctx block => exact execReduceScatter_keeps ctx block s .rfl
  | allgather ctx block => exact execAllgather_keeps ctx block s .rfl
  | broadcast ctx block => exact execBroadcast_keeps ctx block s .rfl
  | reduce ctx block => exact execReduce_keeps ctx block s .rfl
  | alltoall ctx block => exact execAlltoall_keeps ctx block s .rfl
  | alltoallv ctx block counts => exact execAlltoallv_keeps ctx block counts s .rfl
  | badOpcode ctx => exact execBadOpcode_keeps ctx s .rfl
  | stagingReservationGranted => exact execStagingReservationGranted_keeps s .rfl
  | collectiveComplete ctx idx treeDigest => exact execCollectiveComplete_keeps ctx idx treeDigest s .rfl
  | bellWait ctx => exact execBellWait_keeps ctx s .rfl
  | bellRingSet ctx => exact execBellRingSet_keeps ctx s .rfl
  | bellRingAdd ctx => exact execBellRingAdd_keeps ctx s .rfl
  | bellRingTake ctx => exact execBellRingTake_keeps ctx s .rfl
  | bellTimeout ctx => exact execBellTimeout_keeps ctx s .rfl
  | barrier ctx => exact execBarrier_keeps ctx s .rfl
  | barrierTargetReached ctx => exact execBarrierTargetReached_keeps ctx s .rfl
  | barrierTimeout ctx => exact execBarrierTimeout_keeps ctx s .rfl
  | waitCount ctx => exact execWaitCount_keeps ctx s .rfl
  | waitCountTarget ctx => exact execWaitCountTarget_keeps ctx s .rfl
  | fence ctx => exact execFence_keeps ctx s .rfl
  | chunkSend n => exact execChunkSend_keeps n s .rfl
  | packetReceived port header body src dst => exact execPacketReceived_keeps port header body src dst s .rfl
  | sealReceived port sealFlit aux => exact execSealReceived_keeps port sealFlit aux s .rfl
  | retractMarker port flit => exact execRetractMarker_keeps port flit s .rfl
  | chunkAck port flit => exact execChunkAck_keeps port flit s .rfl
  | resendRequest port flit => exact execResendRequest_keeps port flit s .rfl
  | ackTimeout n => exact execAckTimeout_keeps n s .rfl
  | remoteBellRing port flit => exact execRemoteBellRing_keeps port flit s .rfl
  | remoteRingMarksMet n => exact execRemoteRingMarksMet_keeps n s .rfl
  | barrierArrival port flit => exact execBarrierArrival_keeps port flit s .rfl
  | barrierRelease port flit => exact execBarrierRelease_keeps port flit s .rfl
  | peerAbort port flit => exact execPeerAbort_keeps port flit s .rfl
  | frameReceived port frame fecOk corrected => exact execFrameReceived_keeps port frame fecOk corrected s .rfl
  | replayTimeout port => exact execReplayTimeout_keeps port s .rfl
  | linkFailureDetected port => exact execLinkFailureDetected_keeps port s .rfl
  | portRetryTimer port => exact execPortRetryTimer_keeps port s .rfl
  | trainingPatternDetected port => exact execTrainingPatternDetected_keeps port s .rfl
  | trainingComplete port res => exact execTrainingComplete_keeps port res s .rfl
  | recalibrationDue port => exact execRecalibrationDue_keeps port s .rfl
  | recalibrationForced port => exact execRecalibrationForced_keeps port s .rfl
  | pllSettled port => exact execPllSettled_keeps port s .rfl
  | pllSettleTimeout port => exact execPllSettleTimeout_keeps port s .rfl
  | resyncTimeout port => exact execResyncTimeout_keeps port s .rfl
  | censusQuery port flit => exact execCensusQuery_keeps port flit s .rfl
  | censusSeen port flit => exact execCensusSeen_keeps port flit s .rfl
  | censusConcurrent port flit => exact execCensusConcurrent_keeps port flit s .rfl
  | censusSubtreeReply port flits => exact execCensusSubtreeReply_keeps port flits s .rfl
  | censusReplyTimeout => exact execCensusReplyTimeout_keeps s .rfl
  | censusCommitMessage port flit => exact execCensusCommitMessage_keeps port flit s .rfl
  | censusCommitDone port flit => exact execCensusCommitDone_keeps port flit s .rfl
  | hostLinkUp host rate width => exact execHostLinkUp_keeps host rate width s .rfl
  | hostLinkDown host => exact execHostLinkDown_keeps host s .rfl
  | hostWidthChange host width => exact execHostWidthChange_keeps host width s .rfl
  | configRequest host req => exact execConfigRequest_keeps host req s .rfl
  | hostSessionEstablished host identity => exact execHostSessionEstablished_keeps host identity s .rfl
  | dmaReadCompletion host tag res => exact execDmaReadCompletion_keeps host tag res s .rfl
  | dmaCompletionTimeout host tag => exact execDmaCompletionTimeout_keeps host tag s .rfl
  | readTagLeak host tag => exact execReadTagLeak_keeps host tag s .rfl
  | porchSweep => exact execPorchSweep_keeps s .rfl
  | hostStall host => exact execHostStall_keeps host s .rfl
  | atsInvalidation host iova len => exact execAtsInvalidation_keeps host iova len s .rfl
  | msixUnmask host vector => exact execMsixUnmask_keeps host vector s .rfl
  | cxlMemRead host addr ecc => exact execCxlMemRead_keeps host addr ecc s .rfl
  | cxlMemWrite host addr data enables ecc => exact execCxlMemWrite_keeps host addr data enables ecc s .rfl
  | bar2Access host addr len write atomic ecc => exact execBar2Access_keeps host addr len write atomic ecc s .rfl
  | tokenAvailable host => exact execTokenAvailable_keeps host s .rfl
  | getDynamicCapacityConfiguration host => exact execGetDynamicCapacityConfiguration_keeps host s .rfl
  | getDynamicCapacityExtentList host => exact execGetDynamicCapacityExtentList_keeps host s .rfl
  | addDynamicCapacityResponse host slots => exact execAddDynamicCapacityResponse_keeps host slots s .rfl
  | releaseDynamicCapacity host slots => exact execReleaseDynamicCapacity_keeps host slots s .rfl
  | bar0UnsupportedAccess host write offset size atomic => exact execBar0UnsupportedAccess_keeps host write offset size atomic s .rfl
  | registerWrite host offset value wide => exact execRegisterWrite_keeps host offset value wide s .rfl
  | rlFieldWrite host offset => exact execRlFieldWrite_keeps host offset s .rfl
  | lease host value => exact execLease_keeps host value s .rfl
  | slowReadNs host value => exact execSlowReadNs_keeps host value s .rfl
  | start host ctx => exact execStart_keeps host ctx s .rfl
  | stop host ctx => exact execStop_keeps host ctx s .rfl
  | abort host ctx => exact execAbort_keeps host ctx s .rfl
  | bell host ctx value => exact execBell_keeps host ctx value s .rfl
  | ringHead host ctx value => exact execRingHead_keeps host ctx value s .rfl
  | histClear host ctx => exact execHistClear_keeps host ctx s .rfl
  | translation host ctx value => exact execTranslation_keeps host ctx value s .rfl
  | assign host value => exact execAssign_keeps host value s .rfl
  | clearingComplete ctx => exact execClearingComplete_keeps ctx s .rfl
  | stallDetected suite => exact execStallDetected_keeps suite s .rfl
  | suiteReset host => exact execSuiteReset_keeps host s .rfl
  | suitePowerDown host => exact execSuitePowerDown_keeps host s .rfl
  | groupCommit host group => exact execGroupCommit_keeps host group s .rfl
  | groupInvalidate host group => exact execGroupInvalidate_keeps host group s .rfl
  | stagedCommitApplied group => exact execStagedCommitApplied_keeps group s .rfl
  | groupRead host value => exact execGroupRead_keeps host value s .rfl
  | bellBlockAllocate host tenant => exact execBellBlockAllocate_keeps host tenant s .rfl
  | bellBlockFree host offset => exact execBellBlockFree_keeps host offset s .rfl
  | bellDebugSel host value => exact execBellDebugSel_keeps host value s .rfl
  | bellDebugClear host => exact execBellDebugClear_keeps host s .rfl
  | stallClear host => exact execStallClear_keeps host s .rfl
  | quotaWrite host tenant value => exact execQuotaWrite_keeps host tenant value s .rfl
  | recordSeq host value => exact execRecordSeq_keeps host value s .rfl
  | echoGo host => exact execEchoGo_keeps host s .rfl
  | echoPeerTimeout suite => exact execEchoPeerTimeout_keeps suite s .rfl
  | echoComplete suite res => exact execEchoComplete_keeps suite res s .rfl
  | leaseTick => exact execLeaseTick_keeps s .rfl
  | leaseExpiry region number => exact execLeaseExpiry_keeps region number s .rfl
  | scrubBatchComplete bad => exact execScrubBatchComplete_keeps bad s .rfl
  | groupRetentionTimeout extent => exact execGroupRetentionTimeout_keeps extent s .rfl
  | groupWakeComplete extent => exact execGroupWakeComplete_keeps extent s .rfl
  | patrolRow lane errors => exact execPatrolRow_keeps lane errors s .rfl
  | patrolCatchUp => exact execPatrolCatchUp_keeps s .rfl
  | faultRecordAtticWrite => exact execFaultRecordAtticWrite_keeps s .rfl
  | smbusArbitrationLost => exact execSmbusArbitrationLost_keeps s .rfl
  | smbusSclTimeout => exact execSmbusSclTimeout_keeps s .rfl
  | setEndpointId eid => exact execSetEndpointId_keeps eid s .rfl
  | getEndpointId => exact execGetEndpointId_keeps s .rfl
  | getMctpVersionSupport => exact execGetMctpVersionSupport_keeps s .rfl
  | getMessageTypeSupport => exact execGetMessageTypeSupport_keeps s .rfl
  | getMeasurements sess index => exact execGetMeasurements_keeps sess index s .rfl
  | getCertificate slot => exact execGetCertificate_keeps slot s .rfl
  | challenge slot nonce => exact execChallenge_keeps slot nonce s .rfl
  | keyExchange req => exact execKeyExchange_keeps req s .rfl
  | heartbeat sess => exact execHeartbeat_keeps sess s .rfl
  | spdmSessionTimeout sess => exact execSpdmSessionTimeout_keeps sess s .rfl
  | getStatus sess tag payload => exact execGetStatus_keeps sess tag payload s .rfl
  | readRecords sess tag payload => exact execReadRecords_keeps sess tag payload s .rfl
  | imageWrite sess tag payload => exact execImageWrite_keeps sess tag payload s .rfl
  | liveRestart sess tag payload => exact execLiveRestart_keeps sess tag payload s .rfl
  | liveRestartComplete flashMiB readOk => exact execLiveRestartComplete_keeps flashMiB readOk s .rfl
  | setWallclock sess tag payload => exact execSetWallclock_keeps sess tag payload s .rfl
  | powerBank sess tag payload => exact execPowerBank_keeps sess tag payload s .rfl
  | powerUnbank sess tag payload => exact execPowerUnbank_keeps sess tag payload s .rfl
  | powerHoldOn sess tag payload => exact execPowerHoldOn_keeps sess tag payload s .rfl
  | powerHoldOff sess tag payload => exact execPowerHoldOff_keeps sess tag payload s .rfl
  | grant sess tag payload => exact execGrant_keeps sess tag payload s .rfl
  | release sess tag payload => exact execRelease_keeps sess tag payload s .rfl
  | map sess tag payload => exact execMap_keeps sess tag payload s .rfl
  | unmap sess tag payload => exact execUnmap_keeps sess tag payload s .rfl
  | renew sess tag payload => exact execRenew_keeps sess tag payload s .rfl
  | readExtent sess tag payload => exact execReadExtent_keeps sess tag payload s .rfl
  | regionCreate sess tag payload => exact execRegionCreate_keeps sess tag payload s .rfl
  | regionRights sess tag payload => exact execRegionRights_keeps sess tag payload s .rfl
  | regionDelete sess tag payload => exact execRegionDelete_keeps sess tag payload s .rfl
  | keyLoad sess tag payload => exact execKeyLoad_keeps sess tag payload s .rfl
  | keyErase sess tag payload => exact execKeyErase_keeps sess tag payload s .rfl
  | tokenBucket sess tag payload => exact execTokenBucket_keeps sess tag payload s .rfl
  | suiteWeight sess tag payload => exact execSuiteWeight_keeps sess tag payload s .rfl
  | serviceReset sess tag payload => exact execServiceReset_keeps sess tag payload s .rfl
  | servicePowerDown sess tag payload => exact execServicePowerDown_keeps sess tag payload s .rfl
  | serviceEnable sess tag payload => exact execServiceEnable_keeps sess tag payload s .rfl
  | serviceHoldDown sess tag payload => exact execServiceHoldDown_keeps sess tag payload s .rfl
  | serviceRelease sess tag payload => exact execServiceRelease_keeps sess tag payload s .rfl
  | serviceRetrain sess tag payload => exact execServiceRetrain_keeps sess tag payload s .rfl
  | serviceDrainComplete unitClass unitIndex => exact execServiceDrainComplete_keeps unitClass unitIndex s .rfl
  | serviceResetComplete unitClass unitIndex => exact execServiceResetComplete_keeps unitClass unitIndex s .rfl
  | abortContexts sess tag payload => exact execAbortContexts_keeps sess tag payload s .rfl
  | clearCounters sess tag payload => exact execClearCounters_keeps sess tag payload s .rfl
  | scan sess tag payload => exact execScan_keeps sess tag payload s .rfl
  | scanComplete unitClass unitIndex pass => exact execScanComplete_keeps unitClass unitIndex pass s .rfl
  | packPush sess tag payload => exact execPackPush_keeps sess tag payload s .rfl
  | resume sess tag payload => exact execResume_keeps sess tag payload s .rfl
  | censusStart sess tag payload => exact execCensusStart_keeps sess tag payload s .rfl
  | censusRead sess tag payload => exact execCensusRead_keeps sess tag payload s .rfl
  | censusCommit sess tag payload => exact execCensusCommit_keeps sess tag payload s .rfl
  | postedCreditReturn host flits => exact execPostedCreditReturn_keeps host flits s .rfl
  | loadIndexUpdate => exact execLoadIndexUpdate_keeps s .rfl
  | smbusRetry => exact execSmbusRetry_keeps s .rfl
  | inputVoltageReturn mv => exact execInputVoltageReturn_keeps mv s .rfl
  | tapReset => exact execTapReset_keeps s .rfl
  | lowHalfRead host offset => exact execLowHalfRead_keeps host offset s .rfl
  | noEnd ctx => exact execNoEnd_keeps ctx s .rfl
  | cardFetchError ctx => exact execCardFetchError_keeps ctx s .rfl
  | atsTranslationCompletion host iova res => exact execAtsTranslationCompletion_keeps host iova res s .rfl
  | badCommand sess tag code len => exact execBadCommand_keeps sess tag code len s .rfl
  | _ => cases hi

/-! ## A management command (R511, R513) -/

/-- What a management command does is its own effect, on a state in which its session has been used, or what it does whatever that effect is. -/
theorem State.command_eq_or (s : State) (sess : Option Nat) (tag : BitVec 16) (code : Nat) (free ready lenOk : Bool) (fields : List (Bool × Nat))
    (f : State → State) :
    s.command sess tag code free ready lenOk fields f = f (s.sessionUsed sess) ∨
      s.command sess tag code free ready lenOk fields f = s.command sess tag code free ready lenOk fields id := by
  simp only [command]
  split
  · exact .inr rfl
  split
  · exact .inr rfl
  split
  · exact .inr rfl
  split
  · exact .inr rfl
  split
  · exact .inr rfl
  · exact .inl rfl

end Sys2Proof.Machine
end

section
/-! Settling O6: the checks of an image, and what the end of Loading makes of them (R61, R62, R71, R72). -/

namespace Sys2Proof.Machine

/-! ## How far an image was read (R62, R71) -/

/-- An image that fails at this check, or at none, has been read past its header: checks 8 through 11 read the whole of it. -/
def headerPassed : Option Nat → Bool
  | some c => decide (8 ≤ c)
  | none => true

/-- Whether the header passes is told by the checks before the read alone, however the read ends. -/
theorem headerPassed_firstFail (ok : Bool) {a b : List (Bool × Nat × Nat)} (ha : ∀ x ∈ a, x.2.1 < 8) (hb : ∀ x ∈ b, 8 ≤ x.2.1) :
    headerPassed ((firstFail (a ++ (!ok, 8, 0) :: b)).map (fun r => r.1)) = (firstFail a).isNone := by
  have hrest : headerPassed ((firstFail b).map (fun r => r.1)) = true := by
    clear ha
    induction b with
    | nil => rfl
    | cons x b ih =>
      rw [List.forall_mem_cons] at hb
      simp only [firstFail]
      split
      · simpa [headerPassed] using hb.1
      · exact ih hb.2
  induction a with
  | nil =>
    cases ok with
    | true => simpa [firstFail] using hrest
    | false => rfl
  | cons x a ih =>
    rw [List.forall_mem_cons] at ha
    simp only [List.cons_append, firstFail]
    split
    · simpa [headerPassed] using ha.1
    · exact ih ha.2

theorem State.blocksRead_eq (s : State) (b : Bool) (mib : Option Nat) (ok : Bool) :
    s.blocksRead b mib = headerPassed (s.imageCheck b mib ok) := by
  have hread : s.blocksRead b mib = headerPassed (s.imageCheck b mib true) := rfl
  rw [hread]
  unfold imageCheck
  refine (headerPassed_firstFail true (a := [_, _, _, _, _, _, _]) (b := [_, _, _]) ?_ ?_).trans
    (headerPassed_firstFail ok (a := [_, _, _, _, _, _, _]) (b := [_, _, _]) ?_ ?_).symm
  all_goals simp

/-! ## The end of Loading -/

/-- The boot ROM has read what it could of the image that it loads (R62). -/
def State.romRead (s : State) (mib : Option Nat) : State :=
  { s with wd := { s.wd with checked := if s.blocksRead s.hearth.loadingB mib then s.wd.checked ||| 0x01 else s.wd.checked } }

section Loading
variable {s : State} {mib : Option Nat} {ok : Bool}

/-- The ROM's check-in leaves what the image checks look at. -/
theorem State.imageCheck_romRead (b : Bool) : (s.romRead mib).imageCheck b mib ok = s.imageCheck b mib ok := rfl

theorem State.romRead_eq (mib : Option Nat) : (if s.blocksRead s.hearth.loadingB mib then
    { s with wd := { s.wd with checked := s.wd.checked ||| 0x01 } } else s : State) = s.romRead mib := by
  unfold romRead
  split <;> rfl

theorem exec_imageLoadComplete_passed (h : s.hearth.startup = .loading) (hc : s.imageCheck s.hearth.loadingB mib ok = none) :
    exec (.imageLoadComplete mib ok) s = .next { s.romRead mib with hearth := { s.hearth.runs s s.hearth.loadingB with
      startup := .locking, config := s.imgConfig s.hearth.loadingB, imageRetire := s.imgRetire s.hearth.loadingB,
      alert := !s.log.unread.isEmpty } } := by
  change execImageLoadComplete mib ok s = _
  simp only [execImageLoadComplete, h, State.romRead_eq, State.imageCheck_romRead, hc]
  rfl

/-- The last image has failed, or no image can be read (R72). -/
theorem exec_imageLoadComplete_last {code : Nat} (h : s.hearth.startup = .loading) (hc : s.imageCheck s.hearth.loadingB mib ok = some code)
    (hlast : code = 1 ∨ s.hearth.loadingB = true) :
    let t := (s.romRead mib).bootRecord s.hearth.loadingB code true
    exec (.imageLoadComplete mib ok) s = .next { t with hearth := { t.hearth with startup := .bootFailed, alert := true } } := by
  have hlast' : (decide (code = 1) || s.hearth.loadingB) = true := by simpa using hlast
  change execImageLoadComplete mib ok s = _
  simp only [execImageLoadComplete, h, State.romRead_eq, State.imageCheck_romRead, hc, hlast', if_true]
  rfl

/-- Image A has failed, and image B is tried (R71). -/
theorem exec_imageLoadComplete_turns {code : Nat} (h : s.hearth.startup = .loading) (hc : s.imageCheck s.hearth.loadingB mib ok = some code)
    (hcode : code ≠ 1) (hA : s.hearth.loadingB = false) :
    let t := (s.romRead mib).bootRecord false code false
    exec (.imageLoadComplete mib ok) s = .next { t with hearth := { t.hearth with loadingB := true, alert := false } } := by
  change execImageLoadComplete mib ok s = _
  rw [hA] at hc
  have hread := State.romRead_eq (s := s) mib
  rw [hA] at hread
  simp only [execImageLoadComplete, h, hA, hread, State.imageCheck_romRead, hc, decide_eq_false hcode, Bool.or_self, Bool.false_eq_true, if_false]
  rfl

theorem exec_imageLoadComplete_other (h : s.hearth.startup ≠ .loading) : exec (.imageLoadComplete mib ok) s = .next s := by
  change execImageLoadComplete mib ok s = _
  simp [execImageLoadComplete, h]

end Loading

theorem exec_resetEnd_of_reset {s : State} (slot : BitVec 3) (room : BitVec 5) (h : s.hearth.startup = .reset) (hp : s.sled.path = .on)
    (hr : s.sled.refclk = true) :
    exec (.resetEnd slot room) s = .next { s with hearth := { s.hearth with
      startup := .loading, slotId := slot, roomId := room, loadingB := false, smbusOn := true, spiSelect := true } } := by
  change execResetEnd slot room s = _
  simp [execResetEnd, h, hp, hr]

@[simp] theorem State.bootRecord_flash (s : State) (b : Bool) (code : Nat) (fatal : Bool) : (s.bootRecord b code fatal).flash = s.flash :=
  record_flash _ _

@[simp] theorem State.bootRecord_fuses (s : State) (b : Bool) (code : Nat) (fatal : Bool) : (s.bootRecord b code fatal).fuses = s.fuses :=
  record_fuses _ _

@[simp] theorem State.bootRecord_wd (s : State) (b : Bool) (code : Nat) (fatal : Bool) : (s.bootRecord b code fatal).wd = s.wd :=
  record_wd _ _

/-- Settles O6: one equation for each way in which Loading ends. -/
theorem imageLoading : Obligations.ImageLoading := by
  intro s
  refine ⟨?start, ?passed, ?last, ?turns⟩
  case start => exact fun slot room h hp hr => exec_resetEnd_of_reset slot room h hp hr
  case passed =>
    intro mib ok h hc
    have hread : s.blocksRead s.hearth.loadingB mib = true := by rw [s.blocksRead_eq _ _ ok, hc]; rfl
    refine ⟨_, exec_imageLoadComplete_passed h hc, rfl, rfl, by dsimp only, by dsimp only, ?_⟩
    simp [State.romRead, hread]
  case last =>
    intro mib ok code h hc hlast
    refine ⟨_, exec_imageLoadComplete_last h hc hlast, rfl, rfl, ?_, ?_, ?_⟩
    · exact State.record_hearth_config _ _
    · exact State.bootRecord_flash _ _ _ _
    · exact State.bootRecord_fuses _ _ _ _
  case turns =>
    intro mib ok code h hc hcode hA
    have hread : s.blocksRead s.hearth.loadingB mib = decide (8 ≤ code) := by rw [s.blocksRead_eq _ _ ok, hc]; rfl
    refine ⟨_, exec_imageLoadComplete_turns h hc hcode hA, ?_, rfl, ?_, ?_, ?_⟩
    · exact (State.record_hearth_startup _ _).trans h
    · simp [State.romRead, hread]
    · exact State.bootRecord_flash _ _ _ _
    · exact State.bootRecord_fuses _ _ _ _

end Sys2Proof.Machine
end

section
/-! Settling O7: from Locking to Ready (R27, R61, R65, R66, R74-R82). -/

namespace Sys2Proof.Machine

/-! ## Locking (R27, R74-R78) -/

theorem State.roleFits_iff (s : State) :
    s.roleFits = true ↔ s.hearth.roomId.toNat ≤ 17 ∧ (s.cfg 6 1 = 1 ↔ 16 ≤ s.hearth.roomId.toNat) := by
  simp only [roleFits, spine, Bool.and_eq_true, decide_eq_true_eq, Bool.beq_eq_decide_eq, decide_eq_decide]

section Conflicts
variable {β : Type} (p : State → β) (hrec : ∀ s a, p (State.record s a) = p s) (hsuite : ∀ s i x, p (State.putSuite s i x) = p s)
include hrec

theorem State.conflict_frame (s : State) (cls idx row keptCls keptIdx : Nat) : p (s.conflict cls idx row keptCls keptIdx) = p s := hrec _ _

theorem State.conflictSync_frame (s : State) (hwire : p { s with hearth := { s.hearth with wireDisabled := true } } = p s) :
    p s.conflictSync = p s := by
  unfold conflictSync
  split
  · exact (conflict_frame p hrec _ _ _ _ _ _).trans hwire
  · rfl

theorem State.conflictSpine_frame (s : State) : p s.conflictSpine = p s := by
  have hstep {c : State → Nat → Bool} {cls : Nat} (s : State) (x : Nat) :
      p (if c s x then s.conflict cls x 5 9 0 else s) = p s := by
    split
    · exact conflict_frame p hrec _ _ _ _ _ _
    · rfl
  unfold conflictSpine
  split
  · rfl
  · exact (overList_frame p hstep _ _).trans (overList_frame p hstep _ _)

theorem State.conflictPorts_frame (s : State) : p s.conflictPorts = p s := by
  refine overList_frame p (fun s x => ?_) _ _
  split
  · exact conflict_frame p hrec _ _ _ _ _ _
  · rfl

include hsuite

theorem State.dropSuite_frame (s : State) (i row keptCls keptIdx : Nat) : p (s.dropSuite i row keptCls keptIdx) = p s :=
  (conflict_frame p hrec _ _ _ _ _ _).trans (hsuite _ _ _)

theorem State.conflictSuites_frame (s : State) : p s.conflictSuites = p s := by
  refine overList_frame p (fun s x => ?_) _ _
  split
  · exact dropSuite_frame p hrec hsuite _ _ _ _ _
  · rfl

theorem State.conflictBonds_frame (s : State) : p s.conflictBonds = p s := by
  refine overList_frame p (fun s x => ?_) _ _
  split
  · split
    · exact dropSuite_frame p hrec hsuite _ _ _ _ _
    · rfl
  · rfl

theorem State.conflictFloors_frame (s : State) : p s.conflictFloors = p s := by
  refine overList_frame p (fun s x => ?_) _ _
  split
  · exact dropSuite_frame p hrec hsuite _ _ _ _ _
  · rfl

end Conflicts

/-- The lock touches ports and host blocks, and what it writes of the Hearth and of the watchdog (R61, R76, R78). -/
theorem State.lock_frame {β : Type} (p : State → β) (hport : ∀ s i x, p (State.putPort s i x) = p s)
    (hhost : ∀ s i x, p (State.putHost s i x) = p s) (s : State) :
    p s.lock = p { s with
      hearth := { s.hearth with startup := .scrubbing, locked := true, configDigest := digest8 s.hearth.config },
      wd := { s.wd with lockPending := true } } :=
  (overList_frame p (fun _ _ => hhost _ _ _) _ _).trans (overList_frame p (fun _ _ => hport _ _ _) _ _)

theorem State.lock_hearth (s : State) :
    s.lock.hearth = { s.hearth with startup := .scrubbing, locked := true, configDigest := digest8 s.hearth.config } :=
  s.lock_frame State.hearth putPort_hearth putHost_hearth

@[simp] theorem State.lock_cellar (s : State) : s.lock.cellar = s.cellar := s.lock_frame State.cellar putPort_cellar putHost_cellar

@[simp] theorem State.lock_ctxs (s : State) : s.lock.ctxs = s.ctxs := s.lock_frame State.ctxs putPort_ctxs putHost_ctxs

/-- The map of disabled units as boot begins it with the image's retire list (R77). -/
def State.mapped (s : State) : State := { s with hearth := { s.hearth with disabledMap := s.bootMap s.hearth.imageRetire } }

@[simp] theorem State.mapped_config (s : State) : s.mapped.hearth.config = s.hearth.config := by simp only [mapped]
@[simp] theorem State.mapped_slotId (s : State) : s.mapped.hearth.slotId = s.hearth.slotId := by simp only [mapped]
@[simp] theorem State.mapped_roomId (s : State) : s.mapped.hearth.roomId = s.hearth.roomId := by simp only [mapped]
@[simp] theorem State.mapped_cellar (s : State) : s.mapped.cellar = s.cellar := by simp only [mapped]
@[simp] theorem State.mapped_ctxs (s : State) : s.mapped.ctxs = s.ctxs := by simp only [mapped]

theorem State.mapped_roleFits (s : State) : s.mapped.roleFits = s.roleFits := by
  unfold roleFits spine cfg mapped
  rfl

/-- The conflicts that boot refuses, in the order in which it looks at them (R75). -/
def State.refuseConflicts (s : State) : State :=
  s.conflictSync.conflictSuites.conflictBonds.conflictFloors.conflictSpine.conflictPorts

theorem State.refuseConflicts_keeps {r s : State} (h : Keeps r s) : Keeps r s.refuseConflicts :=
  conflictPorts_keeps _ (conflictSpine_keeps _ (conflictFloors_keeps _ (conflictBonds_keeps _
    (conflictSuites_keeps _ (conflictSync_keeps _ h)))))

/-- What neither a record nor a Suite nor the wire's use holds, the refusal of conflicts leaves. -/
theorem State.refuseConflicts_frame {β : Type} (p : State → β) (hrec : ∀ s a, p (State.record s a) = p s)
    (hsuite : ∀ s i x, p (State.putSuite s i x) = p s) (s : State)
    (hwire : p { s with hearth := { s.hearth with wireDisabled := true } } = p s) : p s.refuseConflicts = p s := by
  unfold refuseConflicts
  rw [conflictPorts_frame p hrec, conflictSpine_frame p hrec, conflictFloors_frame p hrec hsuite, conflictBonds_frame p hrec hsuite,
    conflictSuites_frame p hrec hsuite, conflictSync_frame p hrec s hwire]

/-- The record of an engine whose role does not fit its Room (R27). -/
def State.unfitRecord (s : State) : State :=
  s.record { event := 0x0603, severity := 4, unitClass := 0x0D, unitIndex := s.engineId,
             detail := s.hearth.slotId.toNat + s.hearth.roomId.toNat * 8 + s.cfg 6 1 * 0x100 }

section Locking
variable {s : State}

theorem exec_lockingComplete_fits (h : s.hearth.startup = .locking) (hfit : s.roleFits = true) :
    exec .lockingComplete s = .next s.mapped.refuseConflicts.lock := by
  rw [← s.mapped_roleFits] at hfit
  change execLockingComplete s = _
  unfold execLockingComplete
  rw [if_neg (by simp [h])]
  exact if_pos hfit

theorem exec_lockingComplete_unfit (h : s.hearth.startup = .locking) (hfit : s.roleFits = false) :
    exec .lockingComplete s =
      .next { s.mapped.unfitRecord with hearth := { s.mapped.unfitRecord.hearth with startup := .held } } := by
  rw [← s.mapped_roleFits] at hfit
  change execLockingComplete s = _
  unfold execLockingComplete
  rw [if_neg (by simp [h])]
  exact if_neg (Bool.eq_false_iff.mp hfit)

theorem exec_lockingComplete_other (h : s.hearth.startup ≠ .locking) : exec .lockingComplete s = .next s := by
  change execLockingComplete s = _
  unfold execLockingComplete
  rw [if_pos (by simp [h])]

end Locking

/-! ## The boot scrub (R79-R82) -/

theorem State.capacityCheck_frame {β : Type} (p : State → β) (hrec : ∀ s a, p (State.record s a) = p s) (s : State) :
    p s.capacityCheck = p s := by
  unfold capacityCheck
  split
  · exact hrec _ _
  · rfl

/-- What no port, no host block and not the start-up state holds, the start of Training leaves. -/
theorem State.beginTraining_frame {β : Type} (p : State → β) (hport : ∀ s i x, p (State.putPort s i x) = p s)
    (hhost : ∀ s i x, p (State.putHost s i x) = p s) (s : State) :
    p s.beginTraining = p { s with hearth := { s.hearth with startup := .training } } := by
  unfold beginTraining
  rw [overList_frame p, overList_frame p]
  · intro s x
    split
    · exact hport _ _ _
    · rfl
  · intro s x
    split
    · exact hhost _ _ _
    · rfl

theorem mem_insertNat {v x : Nat} {l : List Nat} : x ∈ insertNat v l ↔ x = v ∨ x ∈ l := by
  induction l with
  | nil => simp [insertNat]
  | cons a l ih =>
    simp only [insertNat]
    split
    · simp
    · split
      next h => subst h; simp
      · simp only [List.mem_cons, ih]; tauto

theorem mem_foldl_insertNat {x : Nat} {l : List (Nat × Nat)} {m : List Nat} :
    x ∈ l.foldl (fun m b => insertNat b.1 m) m ↔ (∃ b ∈ l, b.1 = x) ∨ x ∈ m := by
  induction l generalizing m with
  | nil => simp
  | cons b l ih =>
    simp only [List.foldl_cons, ih, mem_insertNat, List.exists_mem_cons_iff, eq_comm (a := x)]
    exact or_left_comm.trans or_assoc.symm

/-- The failing groups that the boot scrub takes: usable ones (R80, R81). -/
def State.badGroups (s : State) (bad : List (Nat × Nat)) : List (Nat × Nat) :=
  bad.filter (fun b => b.1 < 800 && b.2 < 32 && s.extUsable b.1)

/-- The map that the boot scrub leaves (R77, R79). -/
def State.scrubbedMap (s : State) (bad : List (Nat × Nat)) : List Nat :=
  (s.badGroups bad).foldl (fun m b => insertNat b.1 m) s.hearth.disabledMap

/-- Each failing group has its record (R80). -/
def State.recordBad (s : State) (l : List (Nat × Nat)) : State :=
  overList (fun s b => s.record { event := 0x0102, severity := 2, unitClass := 1, unitIndex := b.1 * 32 + b.2 }) l s

/-- The disabled-unit map and its digest are final (R79). -/
def State.remapped (s : State) (map : List Nat) : State :=
  { s with hearth := { s.hearth with disabledMap := map, mapDigest := digest8 (mapBytes map) } }

/-- The boot scrub: the failing groups are recorded and join the map, and the Cellar is laid out (R79-R82, R328). -/
def State.bootScrub (s : State) (bad : List (Nat × Nat)) : State :=
  let u := s.recordBad (s.badGroups bad)
  (u.remapped ((s.badGroups bad).foldl (fun m b => insertNat b.1 m) u.hearth.disabledMap)).capacityCheck.layOut

@[simp] theorem State.recordBad_halt (s : State) (l : List (Nat × Nat)) : (s.recordBad l).halt = s.halt := by
  unfold recordBad
  exact overList_frame State.halt (fun _ _ => record_halt _ _) l s

@[simp] theorem State.recordBad_disabledMap (s : State) (l : List (Nat × Nat)) : (s.recordBad l).hearth.disabledMap = s.hearth.disabledMap := by
  unfold recordBad
  exact overList_frame (fun u => u.hearth.disabledMap) (fun _ _ => record_hearth_disabledMap _ _) l s

@[simp] theorem State.layOut_halt (s : State) : s.layOut.halt = s.halt := by simp only [layOut]
@[simp] theorem State.layOut_hearth (s : State) : s.layOut.hearth = s.hearth := by simp only [layOut]

@[simp] theorem State.capacityCheck_halt (s : State) : s.capacityCheck.halt = s.halt := capacityCheck_frame State.halt record_halt s

@[simp] theorem State.capacityCheck_disabledMap (s : State) : s.capacityCheck.hearth.disabledMap = s.hearth.disabledMap :=
  capacityCheck_frame (fun u => u.hearth.disabledMap) record_hearth_disabledMap s

@[simp] theorem State.capacityCheck_mapDigest (s : State) : s.capacityCheck.hearth.mapDigest = s.hearth.mapDigest :=
  capacityCheck_frame (fun u => u.hearth.mapDigest) record_hearth_mapDigest s

theorem State.bootScrub_effect (s : State) (bad : List (Nat × Nat)) :
    let t := s.bootScrub bad
    t.halt = s.halt ∧ t.hearth.disabledMap = s.scrubbedMap bad ∧ t.hearth.mapDigest = digest8 (mapBytes (s.scrubbedMap bad)) ∧
    t.cellar.mem = [] ∧ t.cellar.written = [] ∧ t.cellar.poisoned = [] ∧ t.cellar.regions = [] ∧ t.cellar.keys = [] := by
  refine ⟨?_, ?_, ?_, rfl, rfl, rfl, rfl, rfl⟩
  · simp [bootScrub, remapped]
  · simp [bootScrub, remapped, scrubbedMap]
  · simp [bootScrub, remapped, scrubbedMap]

/-- The start-up state that follows the boot scrub (R61, R63, R458). -/
def State.afterScrub (s : State) : State :=
  if s.halt.atStart then
    { s with hearth := { s.hearth with startup := .haltedAtStart }, halt := { s.halt with state := .halted } }
  else s.beginTraining

theorem State.afterScrub_effect (s : State) :
    s.afterScrub.hearth = { s.hearth with startup := if s.halt.atStart then .haltedAtStart else .training } ∧
    s.afterScrub.cellar = s.cellar := by
  unfold afterScrub
  split
  · exact ⟨rfl, rfl⟩
  · exact ⟨beginTraining_frame State.hearth putPort_hearth putHost_hearth s, beginTraining_frame State.cellar putPort_cellar putHost_cellar s⟩

theorem exec_scrubComplete {s : State} {bad : List (Nat × Nat)} (h : s.hearth.startup = .scrubbing) :
    exec (.scrubComplete bad) s = .next (s.bootScrub bad).afterScrub := by
  change execScrubComplete bad s = _
  unfold execScrubComplete State.afterScrub
  rw [if_neg (by simp [h]), apply_ite Host.Outcome.next]
  rfl

/-! ## Training and Syncing (R65, R66, R316) -/

theorem State.trainFailed_frame {β : Type} (p : State → β) (hrec : ∀ s a, p (State.record s a) = p s)
    (hport : ∀ s i x, p (State.putPort s i x) = p s) (s : State) (i : Nat) : p (s.trainFailed i) = p s := by
  have hdown (u : State) : p (u.downRecord i) = p u := by
    unfold downRecord
    split
    · rfl
    · exact (hrec _ _).trans (hport _ _ _)
  exact (hdown _).trans ((hport _ _ _).trans (hport _ _ _))

theorem exec_trainingPhaseEnd {s : State} (h : s.hearth.startup = .training) :
    ∃ t, exec .trainingPhaseEnd s = .next t ∧ t.hearth.startup = .syncing ∧ t.hall = s.hall ∧ t.cellar = s.cellar := by
  change ∃ t, execTrainingPhaseEnd s = .next t ∧ _
  simp only [execTrainingPhaseEnd, h, bne_self_eq_false, Bool.false_eq_true, if_false]
  refine ⟨_, rfl, rfl, ?_, ?_⟩
  · dsimp only
    refine overList_frame State.hall (fun u i => ?_) _ s
    split
    · exact State.trainFailed_frame State.hall State.record_hall State.putPort_hall u i
    · rfl
  · dsimp only
    refine overList_frame State.cellar (fun u i => ?_) _ s
    split
    · exact State.trainFailed_frame State.cellar State.record_cellar State.putPort_cellar u i
    · rfl

/-- The port and depth that a search of the ports below `n` has found: an offer of least depth, and the lowest port that makes it. -/
def BestOffer (offers : Nat → Option Nat) (n : Nat) : Option (Nat × Nat) → Prop
  | none => ∀ q < n, offers q = none
  | some (p, d) => p < n ∧ offers p = some d ∧ ∀ q < n, ∀ e, offers q = some e → d < e ∨ d = e ∧ p ≤ q

theorem leastDepth_best (offers : Nat → Option Nat) : BestOffer offers 36 (leastDepth offers) := by
  unfold leastDepth
  generalize 36 = n
  induction n with
  | zero => simp [BestOffer]
  | succ n ih =>
    rw [List.range_succ, List.foldl_append, List.foldl_cons, List.foldl_nil]
    generalize hb : (List.range n).foldl _ none = best at ih ⊢
    clear hb
    have hlast {P : Nat → Prop} (hlt : ∀ q < n, P q) (hn : P n) : ∀ q < n + 1, P q := by
      intro q hq
      rcases Nat.lt_succ_iff_lt_or_eq.mp hq with hq | rfl
      · exact hlt q hq
      · exact hn
    cases hn : offers n with
    | none =>
      cases best with
      | none => exact hlast ih hn
      | some x =>
        obtain ⟨hp, hd, hleast⟩ := ih
        exact ⟨by omega, hd, hlast hleast (by simp [hn])⟩
    | some d =>
      cases best with
      | none => exact ⟨by omega, hn, hlast (by simp_all [BestOffer]) (by simp [hn])⟩
      | some x =>
        obtain ⟨p, e⟩ := x
        obtain ⟨hp, he, hleast⟩ := ih
        dsimp only
        split
        · refine ⟨by omega, hn, hlast (fun q hq f hf => ?_) (by simp [hn])⟩
          have := hleast q hq f hf
          omega
        · refine ⟨by omega, he, hlast hleast (fun f hf => ?_)⟩
          rw [hn, Option.some_inj] at hf
          omega

theorem leastDepth_eq_some {offers : Nat → Option Nat} {p d : Nat} (hp : p < 36) (hd : offers p = some d)
    (hleast : ∀ q < 36, ∀ e, offers q = some e → d < e ∨ d = e ∧ p ≤ q) : leastDepth offers = some (p, d) := by
  have hbest := leastDepth_best offers
  cases h : leastDepth offers with
  | none =>
    rw [h] at hbest
    exact absurd (hbest p hp) (by simp [hd])
  | some x =>
    obtain ⟨q, e⟩ := x
    rw [h] at hbest
    obtain ⟨hq, he, hleast'⟩ := hbest
    have h1 := hleast q hq e he
    have h2 := hleast' p hp d hd
    simp only [Option.some_inj, Prod.mk.injEq]
    omega

theorem leastDepth_eq_none {offers : Nat → Option Nat} (h : ∀ p < 36, offers p = none) : leastDepth offers = none := by
  have hbest := leastDepth_best offers
  cases hl : leastDepth offers with
  | none => rfl
  | some x =>
    rw [hl] at hbest
    exact absurd hbest.2.1 (by simp [h _ hbest.1])

/-- A port is not the source that R316 picks where another offers a count of less depth, or of the same on a lower port. -/
theorem leastDepth_ne_of_better {offers : Nat → Option Nat} {p q e d : Nat} (hq : q < 36) (he : offers q = some e)
    (hbetter : ∀ d, offers p = some d → e < d ∨ e = d ∧ q < p) : leastDepth offers ≠ some (p, d) := by
  intro hl
  have hbest := leastDepth_best offers
  rw [hl] at hbest
  obtain ⟨-, hd, hleast⟩ := hbest
  have h1 := hleast q hq e he
  have h2 := hbetter d hd
  omega

/-- A Synced neighbour of depth 2 or less whose source is another engine offers its count (R316). -/
theorem State.offersCount_of_synced {s : State} {p d : Nat} {src : BitVec 8} (hn : (s.port p).nbrStatus = some (.synced, d, src))
    (hup : s.portUp p = true) (hd : d ≤ 2) (hsrc : src.toNat ≠ s.engineId) : s.offersCount p = some d := by
  have hq : s.qualifies p = some d := by simp [qualifies, hn, hup, hd, hsrc]
  simp [offersCount, hq]

/-! ## Ready (R60, R61, R83) -/

/-- The Hearth and the halt as Ready leaves them (R61, R460). -/
def State.madeReady (s : State) : State :=
  { s with
    hearth := { s.hearth with startup := .ready, readyHall := s.hall,
                              syncOut := if s.syncUse 2 && s.halt.state != .halted then .low else .highZ },
    halt := { s.halt with state := if s.halt.state = .resuming then .running else s.halt.state } }

/-- The completion of an ACCEPTED command is a matter of the management block alone (R512, R517). -/
theorem State.acceptAll_frame {β : Type} (p : State → β) (hmgmt : ∀ (s : State) m, p { s with mgmt := m } = p s) (s : State)
    (q : Accepted → Bool) (status detail : Nat) : p (s.acceptAll q status detail) = p s := by
  unfold acceptAll
  refine overList_frame p (fun u a => ?_) _ s
  unfold acceptDone sendEvent
  exact hmgmt u _

/-- What no vector, no host block, no Suite and no management event changes, the services that start at Ready leave. -/
theorem State.becomeReady_frame {β : Type} (p : State → β) (hhost : ∀ s i x, p (State.putHost s i x) = p s)
    (hmsix : ∀ s h v, p (State.msix s h v) = p s) (hsuite : ∀ s i st, p (State.setSuite s i st) = p s)
    (hmgmt : ∀ (s : State) m, p { s with mgmt := m } = p s) (s : State) : p s.becomeReady = p s.madeReady := by
  have hserve (u : State) (h : Nat) : p (u.serveHost h) = p u := by
    unfold serveHost
    dsimp only
    split
    · exact (hmsix _ _ _).trans (hhost _ _ _)
    · exact hhost _ _ _
  unfold becomeReady
  dsimp only
  rw [acceptAll_frame p hmgmt, overList_frame p, overList_frame p]
  · rfl
  · intro u h
    split
    · exact hserve u h
    · rfl
  · intro u i
    split
    · exact hsuite u i _
    · rfl

theorem State.becomeReady_hearth (s : State) : s.becomeReady.hearth = s.madeReady.hearth :=
  becomeReady_frame State.hearth putHost_hearth msix_hearth setSuite_hearth (fun _ _ => rfl) s

theorem State.becomeReady_hall (s : State) : s.becomeReady.hall = s.hall :=
  becomeReady_frame State.hall putHost_hall msix_hall setSuite_hall (fun _ _ => rfl) s

theorem State.becomeReady_sync (s : State) : s.becomeReady.sync = s.sync :=
  becomeReady_frame State.sync putHost_sync msix_sync setSuite_sync (fun _ _ => rfl) s

/-- The count is taken from port `p`, whose neighbour is `d` hops from the master; the master keeps no source (R66, R317). -/
def State.tookCount (s : State) (p d : Nat) (n : Word64) : State :=
  let y := { s.sync with status := .synced, offset2 := 0, slewPhase := 0 }
  { s with hall := n, sync := if s.master then { y with depth := 0, source := none } else { y with depth := d + 1, source := some p } }

theorem exec_syncingComplete_best {s : State} {p : Fin 36} {d : Nat} (n : Word64) (h : s.hearth.startup = .syncing)
    (hs : s.countSource = some (p.val, d)) : exec (.syncingComplete p n) s = .next (s.tookCount p.val d n).becomeReady := by
  change execSyncingComplete p n s = _
  simp only [execSyncingComplete, h, hs, bne_self_eq_false, Bool.false_eq_true, if_false]
  rfl

theorem exec_syncingComplete_other {s : State} {p : Fin 36} (n : Word64) (hs : ∀ d, s.countSource ≠ some (p.val, d)) :
    exec (.syncingComplete p n) s = .next s := by
  change execSyncingComplete p n s = _
  unfold execSyncingComplete
  split
  next q d _ hq =>
    have hne : q ≠ p.val := by
      rintro rfl
      exact hs d hq
    simp [hne]
  next => rfl

/-- The count that the master starts from, alone (R66). -/
def State.startedCount (s : State) : State :=
  { s with hall := 0, sync := { s.sync with status := .synced, depth := 0, source := none, offset2 := 0, slewPhase := 0 } }

theorem exec_counterMasterTimeout_alone {s : State} (h : s.hearth.startup = .syncing) (hm : s.master = true) (hs : s.countSource = none) :
    exec .counterMasterTimeout s = .next s.startedCount.becomeReady := by
  change execCounterMasterTimeout s = _
  unfold execCounterMasterTimeout
  exact if_pos (by simp [h, hm, hs])

/-! ## The statement -/

/-- Settles O7: the lock, the boot scrub, and the end of Training; then the count, taken from the best neighbour or begun by the master. -/
theorem lockingToReady : Obligations.LockingToReady := by
  refine ⟨fun s => ⟨?fits, ?unfit, ?scrub⟩, fun s => ⟨?training, ?best, ?other, ?offer, ?master⟩⟩
  case fits =>
    intro h hroom hrole
    have hkeeps : Keeps s.mapped s.mapped.refuseConflicts := State.refuseConflicts_keeps .rfl
    have hconfig : s.mapped.refuseConflicts.hearth.config = s.mapped.hearth.config := hkeeps.config
    have hcellar : s.mapped.refuseConflicts.cellar = s.mapped.cellar :=
      State.refuseConflicts_frame State.cellar State.record_cellar State.putSuite_cellar _ (by dsimp only)
    have hctxs : s.mapped.refuseConflicts.ctxs = s.mapped.ctxs :=
      State.refuseConflicts_frame State.ctxs State.record_ctxs State.putSuite_ctxs _ (by dsimp only)
    refine ⟨_, exec_lockingComplete_fits h (s.roleFits_iff.mpr ⟨hroom, hrole⟩), ?_⟩
    simp [State.lock_hearth, hconfig, hcellar, hctxs]
  case unfit =>
    intro h hunfit
    have hfit : s.roleFits = false := Bool.eq_false_iff.mpr fun hf => hunfit (s.roleFits_iff.mp hf)
    refine ⟨_, exec_lockingComplete_unfit h hfit, rfl, ?_⟩
    simp [State.unfitRecord, State.mapped]
  case scrub =>
    intro bad h
    obtain ⟨hhalt, hmap, hdigest, hmem, hwritten, hpoisoned, hregions, hkeys⟩ := s.bootScrub_effect bad
    obtain ⟨hhearth, hcellar⟩ := (s.bootScrub bad).afterScrub_effect
    refine ⟨_, exec_scrubComplete h, ?_⟩
    rw [hhearth, hcellar, hhalt, hmap, hdigest]
    refine ⟨rfl, hmem, hwritten, hpoisoned, hregions, hkeys, rfl, fun e he => ?_, fun e i hmem he hi husable => ?_⟩
    · exact mem_foldl_insertNat.mpr (.inr he)
    · exact mem_foldl_insertNat.mpr (.inl ⟨(e, i), by simp [State.badGroups, hmem, he, hi, husable], rfl⟩)
  case training => exact fun h => exec_trainingPhaseEnd h
  case best =>
    intro p d n h hd hleast
    have hs : s.countSource = some (p.val, d) := leastDepth_eq_some p.isLt hd fun q hq e he => hleast ⟨q, hq⟩ e he
    refine ⟨_, exec_syncingComplete_best n h hs, ?_⟩
    rw [State.becomeReady_hearth, State.becomeReady_hall, State.becomeReady_sync]
    refine ⟨rfl, rfl, rfl, ?_⟩
    unfold State.tookCount
    cases s.master <;> exact ⟨rfl, rfl, rfl⟩
  case other =>
    intro p q e n he hbetter
    exact exec_syncingComplete_other n fun d => leastDepth_ne_of_better q.isLt he hbetter
  case offer => exact fun p d src hn hup hd hsrc => State.offersCount_of_synced hn hup hd hsrc
  case master =>
    intro h hm hnone
    refine ⟨_, exec_counterMasterTimeout_alone h hm (leastDepth_eq_none hnone), ?_⟩
    rw [State.becomeReady_hearth, State.becomeReady_hall, State.becomeReady_sync]
    exact ⟨rfl, rfl, rfl, rfl, rfl, rfl⟩

end Sys2Proof.Machine
end

section
/-! Settling O5: past the end of reset the pins' samples stand until the engine resets (R26, R58, R59). -/

namespace Sys2Proof.Machine

/-! ## The pins' samples (R26) -/

/-- The engine ID that the end of reset sampled stands. -/
def PinsKept (s t : State) : Prop := t.hearth.slotId = s.hearth.slotId ∧ t.hearth.roomId = s.hearth.roomId

theorem PinsKept.refl (s : State) : PinsKept s s := ⟨rfl, rfl⟩

theorem PinsKept.of_hearth {s t : State} (h : t.hearth = s.hearth) : PinsKept s t := ⟨by rw [h], by rw [h]⟩

theorem PinsKept.of_hearth_eq {s u t : State} (hu : u.hearth = s.hearth) (h : PinsKept u t) : PinsKept s t := by
  rwa [PinsKept, hu] at h

theorem Keeps.pins {s t : State} (h : Keeps s t) : PinsKept s t := ⟨h.slot, h.room⟩

/-- The command has left the samples, or has reset the engine. -/
def PinsOut (s : State) (o : Out) : Prop := ∃ t, o = .next t ∧ (PinsKept s t ∨ t.hearth.startup = .reset)

theorem PinsOut.kept {s t : State} (h : PinsKept s t) : PinsOut s (.next t) := ⟨t, rfl, .inl h⟩

theorem PinsOut.reset {s t : State} (h : t.hearth.startup = .reset) : PinsOut s (.next t) := ⟨t, rfl, .inr h⟩

theorem KeepsOut.pins {s : State} {o : Out} (h : KeepsOut s o) : PinsOut s o := by
  obtain ⟨t, rfl, hk⟩ := h
  exact .kept hk.pins

/-- A command whose own effect leaves the samples leaves them. -/
theorem State.command_pins {s : State} {sess : Option Nat} {tag : BitVec 16} {code : Nat} {free ready lenOk : Bool} {fields : List (Bool × Nat)}
    {f : State → State} (hf : ∀ u, PinsKept u (f u) ∨ (f u).hearth.startup = .reset) :
    PinsOut s (.next (s.command sess tag code free ready lenOk fields f)) := by
  rcases s.command_eq_or sess tag code free ready lenOk fields f with h | h
  · have hu : PinsKept s (s.sessionUsed sess) := (State.sessionUsed_keeps s sess .rfl).pins
    rw [h]
    refine ⟨_, rfl, (hf _).imp_left fun hk => ⟨hk.1.trans hu.1, hk.2.trans hu.2⟩⟩
  · rw [h]
    exact .kept (State.command_keeps _ _ _ _ _ _ _ _ _ .rfl fun _ hk => hk).pins

theorem execFuse_pins {s : State} {sess : Option Nat} {tag : BitVec 16} {p : List Byte} {action : Nat} {f : State → State}
    (hf : ∀ u, (f u).hearth = u.hearth) : PinsOut s (.next (s.fuseUpdate sess tag p action f)) := by
  unfold State.fuseUpdate
  split
  · exact .kept (.refl s)
  · exact State.command_pins fun u => .inl (.of_hearth (hf u))

/-! ### Resets and the loss of power (R58, R59) -/

theorem execWatchdogPeriodEnd_pins (s : State) : PinsOut s (execWatchdogPeriodEnd s) := by
  by_cases hm : s.wdMissed = 0
  · rw [execWatchdogPeriodEnd, if_pos hm]
    exact .kept ⟨rfl, rfl⟩
  · rw [execWatchdogPeriodEnd, if_neg hm]
    dsimp only
    split
    · exact .reset rfl
    · exact .kept ⟨rfl, rfl⟩

theorem execTemperatureUpdate_pins (l : List Int) (mv : Nat) (s : State) : PinsOut s (execTemperatureUpdate l mv s) := by
  cases l with
  | nil => exact .kept (.refl s)
  | cons t l =>
    simp only [execTemperatureUpdate]
    split
    · exact .reset rfl
    · exact .kept ⟨rfl, rfl⟩

theorem execArrayPatrol_pins (x : ArrayFinding) (s : State) : PinsOut s (execArrayPatrol x s) := by
  cases x with
  | clean => exact .kept (.refl s)
  | corrected cls idx => exact .kept ⟨rfl, rfl⟩
  | uncorrectable cls idx => exact .kept (State.arrayRecord_keeps s _ _ _ _ .rfl).pins
  | figure c fid path cls idx => exact .kept (State.figureFault_keeps s _ _ _ _ _ .rfl).pins
  | lane n =>
    simp only [execArrayPatrol]
    split
    · exact .kept (State.failLane_keeps _ _ _ (State.arrayRecord_keeps s _ _ _ _ .rfl)).pins
    · exact .kept (.refl s)
  | heldCopy n =>
    simp only [execArrayPatrol]
    split
    · exact .kept (State.spoilOut_keeps _ _ _ (State.arrayRecord_keeps s _ _ _ _ .rfl)).pins
    · exact .kept (.refl s)
  | register cls idx => exact .kept (State.registersReset_keeps _ _ _ (State.arrayRecord_keeps s _ _ _ _ .rfl)).pins
  | hearth => exact .reset rfl

/-! ### The steps of a boot (R60, R61, R76) -/

theorem exec_resetEnd_of_ne (slot : BitVec 3) (room : BitVec 5) {s : State} (h : s.hearth.startup ≠ .reset) :
    exec (.resetEnd slot room) s = .next s := by
  change execResetEnd slot room s = _
  simp [execResetEnd, h]

theorem State.bootRecord_pins (s : State) (mib : Option Nat) (b : Bool) (code : Nat) (fatal : Bool) :
    PinsKept s ((s.romRead mib).bootRecord b code fatal) :=
  ⟨record_hearth_slotId _ _, record_hearth_roomId _ _⟩

theorem exec_imageLoadComplete_pins (mib : Option Nat) (ok : Bool) (s : State) : PinsOut s (exec (.imageLoadComplete mib ok) s) := by
  by_cases h : s.hearth.startup = .loading
  · cases hc : s.imageCheck s.hearth.loadingB mib ok with
    | none =>
      rw [exec_imageLoadComplete_passed h hc]
      exact .kept ⟨rfl, rfl⟩
    | some code =>
      by_cases hlast : code = 1 ∨ s.hearth.loadingB = true
      · rw [exec_imageLoadComplete_last h hc hlast]
        exact .kept (s.bootRecord_pins _ _ _ _)
      · rw [not_or, Bool.not_eq_true] at hlast
        rw [exec_imageLoadComplete_turns h hc hlast.1 hlast.2]
        exact .kept (s.bootRecord_pins _ _ _ _)
  · rw [exec_imageLoadComplete_other h]
    exact .kept (.refl s)

theorem exec_lockingComplete_pins (s : State) : PinsOut s (exec .lockingComplete s) := by
  by_cases h : s.hearth.startup = .locking
  · cases hfit : s.roleFits with
    | true =>
      have hk : Keeps s.mapped s.mapped.refuseConflicts := State.refuseConflicts_keeps .rfl
      rw [exec_lockingComplete_fits h hfit]
      refine .kept ?_
      rw [PinsKept, State.lock_hearth]
      exact ⟨hk.slot.trans s.mapped_slotId, hk.room.trans s.mapped_roomId⟩
    | false =>
      rw [exec_lockingComplete_unfit h hfit]
      exact .kept ⟨(State.record_hearth_slotId _ _).trans s.mapped_slotId, (State.record_hearth_roomId _ _).trans s.mapped_roomId⟩
  · rw [exec_lockingComplete_other h]
    exact .kept (.refl s)

theorem execFlashWriteComplete_pins (s : State) : PinsOut s (execFlashWriteComplete s) := by
  unfold execFlashWriteComplete
  split
  · exact .kept (.of_hearth_eq rfl (State.acceptAll_keeps _ _ _ _ .rfl).pins)
  · split
    · exact .kept (.refl s)
    · extract_lets b
      split
      · exact .kept (State.packOver_keeps _ _ _ _ (State.packRecord_keeps s _ .rfl)).pins
      · exact .kept (.of_hearth_eq rfl (State.packOver_keeps _ _ _ _ .rfl).pins)
  · exact .kept (.refl s)

/-- Past the end of reset every command leaves the samples or resets the engine. -/
theorem exec_pins (i : Instr) {s : State} (hs : s.hearth.startup ≠ .reset) : PinsOut s (exec i s) := by
  by_cases hi : outsideKeeps i = false
  · exact (exec_keeps i s hi).pins
  · cases i with
    | powerOnReset =>
      change PinsOut s (execPowerOnReset s)
      unfold execPowerOnReset
      split
      · exact .reset rfl
      · exact .kept (.refl s)
    | prsntNBreak => exact .reset rfl
    | inputVoltageFault mv =>
      change PinsOut s (execInputVoltageFault mv s)
      unfold execInputVoltageFault
      split
      · exact .reset rfl
      · exact .kept (.refl s)
    | refclkLoss =>
      change PinsOut s (execRefclkLoss s)
      unfold execRefclkLoss
      split
      · exact .reset rfl
      · exact .kept ⟨rfl, rfl⟩
    | refclkRestored =>
      change PinsOut s (execRefclkRestored s)
      unfold execRefclkRestored
      split
      · exact .kept (.refl s)
      · split
        · exact .reset rfl
        · exact .kept ⟨rfl, rfl⟩
    | temperatureUpdate l mv => exact execTemperatureUpdate_pins l mv s
    | watchdogPeriodEnd => exact execWatchdogPeriodEnd_pins s
    | arrayPatrol x => exact execArrayPatrol_pins x s
    | warmReset sess tag p => exact State.command_pins fun u => .inr rfl
    | resetEnd slot room => exact exec_resetEnd_of_ne slot room hs ▸ .kept (.refl s)
    | imageLoadComplete mib ok => exact exec_imageLoadComplete_pins mib ok s
    | lockingComplete => exact exec_lockingComplete_pins s
    | fuseRaiseMinVersion sess tag p => exact execFuse_pins fun _ => rfl
    | fuseRevokeKey sess tag p => exact execFuse_pins fun _ => rfl
    | flashWriteComplete => exact execFlashWriteComplete_pins s
    | _ => exact absurd rfl hi

/-- Settles O5: the end of reset samples the pins; every later command leaves the samples or resets the engine. -/
theorem pinsSampledOnce : Obligations.PinsSampledOnce := by
  refine ⟨?sampled, ?later, ?kept⟩
  case sampled =>
    intro s slot room hreset hpath hrefclk
    exact ⟨_, exec_resetEnd_of_reset slot room hreset hpath hrefclk, rfl, rfl, rfl⟩
  case later => exact fun s slot room hs => exec_resetEnd_of_ne slot room hs
  case kept =>
    intro i s t hs ht
    obtain ⟨u, hu, hpins⟩ := exec_pins i hs
    cases hu.symm.trans ht
    exact hpins

end Sys2Proof.Machine
end

section
/-! Settling O40, the management side: what a command meets that the fabric manager sends to a Ready engine (R511, R513), CLEAR_COUNTERS
(R391) and the census commands (R518, R522, R524). -/

namespace Sys2Proof.Machine

/-! ## A command reaches its own checks (R506, R511, R513) -/

/-- The state on which a command acts that needs Ready: its session has been used, and a Doze ends (R44, R506). -/
def State.admitted (s : State) (sess : Option Nat) : State := (s.sessionUsed sess).wake

theorem State.sessionUsed_eq (s : State) (sess : Option Nat) : ∃ l, s.sessionUsed sess = { s with mgmt := { s.mgmt with sessions := l } } := by
  cases sess with
  | none => exact ⟨s.mgmt.sessions, rfl⟩
  | some n => exact ⟨_, rfl⟩

theorem State.wake_eq (s : State) : ∃ pw, s.wake = { s with hearth := { s.hearth with power := pw } } := by
  by_cases h : s.hearth.power = .doze
  · exact ⟨.dozeWaking, if_pos h⟩
  · exact ⟨s.hearth.power, if_neg h⟩

/-- Admission writes when the session was last used, and the power state. -/
theorem State.admitted_eq (s : State) (sess : Option Nat) :
    ∃ l pw, s.admitted sess = { s with mgmt := { s.mgmt with sessions := l }, hearth := { s.hearth with power := pw } } := by
  obtain ⟨l, hl⟩ := s.sessionUsed_eq sess
  obtain ⟨pw, hpw⟩ := (s.sessionUsed sess).wake_eq
  refine ⟨l, pw, ?_⟩
  rw [admitted, hpw, hl]

/-- What neither the sessions nor the power state holds, admission leaves. -/
theorem State.admitted_frame {β : Type} (p : State → β) (s : State) (sess : Option Nat)
    (hp : ∀ l pw, p { s with mgmt := { s.mgmt with sessions := l }, hearth := { s.hearth with power := pw } } = p s) :
    p (s.admitted sess) = p s := by
  obtain ⟨l, pw, h⟩ := s.admitted_eq sess
  rw [h]
  exact hp l pw

section Admitted
variable (s : State) (sess : Option Nat)

@[simp] theorem State.admitted_ctxs : (s.admitted sess).ctxs = s.ctxs := s.admitted_frame State.ctxs sess fun _ _ => rfl
@[simp] theorem State.admitted_ports : (s.admitted sess).ports = s.ports := s.admitted_frame State.ports sess fun _ _ => rfl
@[simp] theorem State.admitted_hosts : (s.admitted sess).hosts = s.hosts := s.admitted_frame State.hosts sess fun _ _ => rfl
@[simp] theorem State.admitted_suites : (s.admitted sess).suites = s.suites := s.admitted_frame State.suites sess fun _ _ => rfl
@[simp] theorem State.admitted_cellar : (s.admitted sess).cellar = s.cellar := s.admitted_frame State.cellar sess fun _ _ => rfl
@[simp] theorem State.admitted_census : (s.admitted sess).census = s.census := s.admitted_frame State.census sess fun _ _ => rfl
@[simp] theorem State.admitted_svc : (s.admitted sess).svc = s.svc := s.admitted_frame State.svc sess fun _ _ => rfl
@[simp] theorem State.admitted_hall : (s.admitted sess).hall = s.hall := s.admitted_frame State.hall sess fun _ _ => rfl
@[simp] theorem State.admitted_accepted : (s.admitted sess).mgmt.accepted = s.mgmt.accepted :=
  s.admitted_frame (fun u => u.mgmt.accepted) sess fun _ _ => rfl
@[simp] theorem State.admitted_config : (s.admitted sess).hearth.config = s.hearth.config :=
  s.admitted_frame (fun u => u.hearth.config) sess fun _ _ => rfl
@[simp] theorem State.admitted_engineId : (s.admitted sess).engineId = s.engineId := s.admitted_frame State.engineId sess fun _ _ => rfl
@[simp] theorem State.admitted_ctx (c : Nat) : (s.admitted sess).ctx c = s.ctx c := by simp [ctx]
@[simp] theorem State.admitted_port (p : Nat) : (s.admitted sess).port p = s.port p := by simp [port]
@[simp] theorem State.admitted_host (h : Nat) : (s.admitted sess).host h = s.host h := by simp [host]
@[simp] theorem State.admitted_svcJob (cls idx : Nat) : (s.admitted sess).svcJob cls idx = s.svcJob cls idx := by simp [svcJob]
@[simp] theorem State.admitted_pendingUnit (cls idx : Nat) : (s.admitted sess).pendingUnit cls idx = s.pendingUnit cls idx := by
  simp [pendingUnit]
@[simp] theorem State.admitted_censusPorts (e : Word64) : (s.admitted sess).censusPorts e = s.censusPorts e := by simp [censusPorts, portUp]
@[simp] theorem State.admitted_commitAllowed (e : Word64) : (s.admitted sess).commitAllowed e = s.commitAllowed e := by simp [commitAllowed]

end Admitted

/-- A session stays open when it is used. -/
theorem State.fmSession_sessionUsed (s : State) (sess : Option Nat) : (s.sessionUsed sess).fmSession sess = s.fmSession sess := by
  cases sess with
  | none => rfl
  | some n =>
    simp only [fmSession, sessionUsed, List.any_map]
    congr 1
    funext x
    by_cases hx : x.id = n <;> simp [hx]

section Ready
variable {s : State} {sess : Option Nat} {tag : BitVec 16} {code : Nat} {lenOk : Bool} {fields : List (Bool × Nat)} {f : State → State}

theorem State.readyCommand_of_ready (h : MgmtReady s sess) (hlen : lenOk = true) (hfields : fields.find? (fun x => x.1) = none) :
    s.readyCommand sess tag code lenOk fields f = f (s.admitted sess) := by
  obtain ⟨hon, hsess, hready⟩ := h
  have hsess' : (s.sessionUsed sess).fmSession sess = true := (s.fmSession_sessionUsed sess).trans hsess
  have hready' : (s.sessionUsed sess).isReady = true := by cases sess <;> exact hready
  simp [readyCommand, command, hon, hsess', hready', hlen, hfields, admitted]

theorem State.readyCommand_badField {bad : Bool} {o : Nat} (h : MgmtReady s sess) (hlen : lenOk = true)
    (hfields : fields.find? (fun x => x.1) = some (bad, o)) :
    s.readyCommand sess tag code lenOk fields f = (s.sessionUsed sess).reply code tag 0x11 (8 + o) := by
  obtain ⟨hon, hsess, hready⟩ := h
  have hsess' : (s.sessionUsed sess).fmSession sess = true := (s.fmSession_sessionUsed sess).trans hsess
  have hready' : (s.sessionUsed sess).isReady = true := by cases sess <;> exact hready
  simp [readyCommand, command, hon, hsess', hready', hlen, hfields]

end Ready

/-! ## Answers (R510) -/

theorem Answered.respond (s : State) (code : Nat) (tag : BitVec 16) (status detail : Nat) (payload : List Byte) :
    Answered (s.respond code tag status detail payload) code tag status detail payload := rfl

section Respond
variable (s : State) (code : Nat) (tag : BitVec 16) (status detail : Nat) (payload : List Byte)

@[simp] theorem State.respond_ctxs : (s.respond code tag status detail payload).ctxs = s.ctxs := rfl
@[simp] theorem State.respond_ctx (c : Nat) : (s.respond code tag status detail payload).ctx c = s.ctx c := rfl
@[simp] theorem State.respond_ports : (s.respond code tag status detail payload).ports = s.ports := rfl
@[simp] theorem State.respond_port (p : Nat) : (s.respond code tag status detail payload).port p = s.port p := rfl
@[simp] theorem State.respond_cellar : (s.respond code tag status detail payload).cellar = s.cellar := rfl
@[simp] theorem State.respond_census : (s.respond code tag status detail payload).census = s.census := rfl

end Respond

/-! ## CLEAR_COUNTERS (R391, R467, R512) -/

section Counters
variable {s : State} {sess : Option Nat} {p : List Byte}

theorem exec_clearCounters (tag : BitVec 16) (h : MgmtReady s sess) (hlen : p.length = 4) (hq : le p 0 1 < 36) (hz : allZero p 1 3 = true) :
    exec (.clearCounters sess tag p) s = .next ((s.admitted sess).ifFree 0x2A tag 6 (le p 0 1)
      (fun s => (s.modPort (le p 0 1) (fun x => { x with cnt := {} })).ok 0x2A tag)) :=
  congrArg Host.Outcome.next (State.readyCommand_of_ready h (by simp [hlen]) (by simp [nonzero, hz, hq]))

theorem clearCounters_free (tag : BitVec 16) (h : MgmtReady s sess) (hlen : p.length = 4) (hq : le p 0 1 < 36) (hz : allZero p 1 3 = true)
    (hjob : s.svcJob 6 (le p 0 1) = none) (hpend : s.pendingUnit 6 (le p 0 1) = false) :
    ∃ t, exec (.clearCounters sess tag p) s = .next t ∧ Answered t 0x2A tag 0 0 [] ∧
      t.port (le p 0 1) = { s.port (le p 0 1) with cnt := {} } ∧ (∀ q, q ≠ le p 0 1 → t.port q = s.port q) ∧ t.ctxs = s.ctxs := by
  refine ⟨_, exec_clearCounters tag h hlen hq hz, ?_⟩
  simp only [State.ifFree, State.admitted_svcJob, hjob, State.admitted_pendingUnit, hpend, Option.isSome_none, Bool.false_eq_true, if_false]
  refine ⟨.respond _ _ _ _ _ _, ?_, fun q hne => ?_, ?_⟩
  · simp [State.ok, State.reply]
  · simp [State.ok, State.reply, State.putPort_port_ne _ _ hne]
  · simp [State.ok, State.reply]

@[simp] theorem State.countTarget_ports (s : State) (part : Nat) : (s.countTarget part).ports = s.ports := by
  unfold countTarget
  split <;> rfl

theorem State.ifFree_busy {s : State} {cls idx : Nat} (code : Nat) (tag : BitVec 16) (f : State → State)
    (hbusy : s.svcJob cls idx ≠ none ∨ s.pendingUnit cls idx = true) :
    Answered (s.ifFree code tag cls idx f) code tag 0x20 (unitDetail cls idx) [] ∧ (s.ifFree code tag cls idx f).ports = s.ports := by
  have hanswer (u : State) (hu : u.ports = s.ports) :
      Answered (u.busy code tag cls idx) code tag 0x20 (unitDetail cls idx) [] ∧ (u.busy code tag cls idx).ports = s.ports := ⟨rfl, hu⟩
  unfold ifFree
  split
  · exact hanswer _ (s.countTarget_ports (unitDetail cls idx))
  next hjob =>
    rw [Option.not_isSome_iff_eq_none] at hjob
    rw [if_pos (hbusy.resolve_left (not_not_intro hjob))]
    exact hanswer s rfl

theorem clearCounters_busy (tag : BitVec 16) (h : MgmtReady s sess) (hlen : p.length = 4) (hq : le p 0 1 < 36) (hz : allZero p 1 3 = true)
    (hbusy : s.svcJob 6 (le p 0 1) ≠ none ∨ s.pendingUnit 6 (le p 0 1) = true) :
    ∃ t, exec (.clearCounters sess tag p) s = .next t ∧ Answered t 0x2A tag 0x20 (0x06000000 + le p 0 1) [] ∧ t.ports = s.ports := by
  obtain ⟨hans, hports⟩ := State.ifFree_busy (s := s.admitted sess) 0x2A tag
    (fun s => (s.modPort (le p 0 1) (fun x => { x with cnt := {} })).ok 0x2A tag) (by simpa using hbusy)
  rw [show unitDetail 6 (le p 0 1) = 0x06000000 + le p 0 1 by simp [unitDetail]] at hans
  exact ⟨_, exec_clearCounters tag h hlen hq hz, hans, by simpa using hports⟩

end Counters

/-! ## Control flits (R369, R376) -/

/-- A control flit joins a queue of its port. -/
theorem State.sendCtl_frame {β : Type} (p : State → β) (hport : ∀ s i x, p (State.putPort s i x) = p s) (s : State) (i type : Nat)
    (l : List (Nat × Nat × Nat)) : p (s.sendCtl i type l) = p s := by
  unfold sendCtl queue queueFlow
  split
  · split <;> exact hport _ _ _
  · rfl

theorem State.putPort_port_state (s : State) {i : Nat} {x : FabPort} (h : x.state = (s.port i).state) (q : Nat) :
    ((s.putPort i x).port q).state = (s.port q).state := by
  rw [putPort_port]
  split
  next hq => rw [h, hq]
  next => rfl

/-- A control flit moves no port's state. -/
@[simp] theorem State.sendCtl_port_state (s : State) (i type : Nat) (l : List (Nat × Nat × Nat)) (q : Nat) :
    ((s.sendCtl i type l).port q).state = (s.port q).state := by
  unfold sendCtl queue queueFlow
  split
  · split <;> (refine s.putPort_port_state ?_ q; rfl)
  · rfl

@[simp] theorem State.sendCtl_census (s : State) (i type : Nat) (l : List (Nat × Nat × Nat)) : (s.sendCtl i type l).census = s.census :=
  s.sendCtl_frame State.census putPort_census i type l

@[simp] theorem State.sendCtl_mgmt (s : State) (i type : Nat) (l : List (Nat × Nat × Nat)) : (s.sendCtl i type l).mgmt = s.mgmt :=
  s.sendCtl_frame State.mgmt putPort_mgmt i type l

/-! ## CENSUS_START and CENSUS_READ (R518, R522) -/

/-- A census that has what it waits for is over at its origin, with its result (R517, R520, R521). -/
theorem State.censusTry_origin {s : State} (ho : s.census.isOrigin = true) (ha : s.census.active = true) :
    s.censusTry.census.epoch = s.census.epoch ∧ s.censusTry.census.isOrigin = true ∧ s.censusTry.census.took = s.census.took ∧
    (s.censusTry.census.active = false ↔ s.census.waiting = []) := by
  unfold censusTry
  by_cases hw : s.census.waiting = []
  · rw [if_pos (by simp [ha, hw]), censusReply]
    dsimp only
    rw [if_pos ho]
    exact ⟨rfl, ho, rfl, fun _ => hw, fun _ => rfl⟩
  · rw [if_neg (by simp [hw])]
    exact ⟨rfl, ho, rfl, by simp [ha], fun h => absurd h hw⟩

/-- The census that an engine begins: every port that carries frames since before its epoch is awaited (R518, R519). -/
theorem State.joinCensus_begun (s : State) (e : Word64) (o : Nat) :
    (s.joinCensus e o none).census.epoch = e ∧ (s.joinCensus e o none).census.isOrigin = true ∧ (s.joinCensus e o none).census.took = true ∧
    ((s.joinCensus e o none).census.active = false ↔ s.censusPorts e = []) := by
  unfold joinCensus
  extract_lets ps k u
  have hps : ps = s.censusPorts e := List.filter_eq_self.mpr (by simp)
  have hcensus : (overList (fun s p => s.sendCtl p 0x20 [(2, 1, o), (4, 8, e.toNat)]) ps u).census = u.census :=
    overList_frame State.census (fun _ _ => sendCtl_census _ _ _ _) ps u
  obtain ⟨hepoch, horigin, htook, hover⟩ := censusTry_origin (s := overList _ ps u) (by rw [hcensus]; rfl) (by rw [hcensus])
  rw [hcensus] at hepoch htook hover
  rw [← hps]
  exact ⟨hepoch, horigin, htook, hover⟩

section Census
variable {s : State} {sess : Option Nat} {p : List Byte}

theorem exec_censusStart (tag : BitVec 16) (h : MgmtReady s sess) (hlen : p.length = 0) :
    let u := s.admitted sess
    exec (.censusStart sess tag p) s = .next (if s.census.active then u.busy 0x40 tag 0x0D s.engineId
      else (u.joinCensus s.hall s.engineId none).respond 0x40 tag 0x00 0 (toLe 8 s.hall.toNat)) := by
  refine congrArg Host.Outcome.next ?_
  rw [State.readyCommand_of_ready h (by simp [hlen]) rfl]
  simp only [State.admitted_census, State.admitted_engineId, State.admitted_hall]

theorem censusStart_begun (tag : BitVec 16) (h : MgmtReady s sess) (hlen : p.length = 0) (ha : s.census.active = false) :
    ∃ t, exec (.censusStart sess tag p) s = .next t ∧ Answered t 0x40 tag 0 0 (toLe 8 s.hall.toNat) ∧ t.census.epoch = s.hall ∧
      t.census.isOrigin = true ∧ t.census.took = true ∧ (t.census.active = false ↔ s.censusPorts s.hall = []) := by
  refine ⟨_, exec_censusStart tag h hlen, ?_⟩
  rw [if_neg (by simp [ha])]
  exact ⟨.respond _ _ _ _ _ _, by simpa using (s.admitted sess).joinCensus_begun s.hall s.engineId⟩

theorem censusStart_busy (tag : BitVec 16) (h : MgmtReady s sess) (hlen : p.length = 0) (ha : s.census.active = true) :
    ∃ t, exec (.censusStart sess tag p) s = .next t ∧ Answered t 0x40 tag 0x20 (0x0D000000 + s.engineId) [] ∧ t.census = s.census := by
  refine ⟨_, exec_censusStart tag h hlen, ?_⟩
  rw [if_pos ha]
  exact ⟨.respond _ _ _ _ _ _, s.admitted_census sess⟩

theorem censusRead_known (tag : BitVec 16) (h : MgmtReady s sess) (hlen : p.length = 12) (hz : allZero p 10 2 = true)
    (hdone : s.census.done = true) (he : s.census.resultEpoch = BitVec.ofNat 64 (le p 0 8)) :
    let out := (s.census.result.drop (le p 8 2)).take 23
    ∃ t, exec (.censusRead sess tag p) s = .next t ∧ Answered t 0x41 tag 0 out.length (toLe 2 s.census.result.length ++
      toLe 1 ((if s.census.flag then 1 else 0) + 2) ++ toLe 1 0 ++ out.flatMap (fun r => r.bytes)) ∧ t.census = s.census := by
  refine ⟨_, congrArg Host.Outcome.next (State.readyCommand_of_ready h (by simp [hlen]) (by simp [hdone, he, nonzero, hz])), ?_, ?_⟩
  · simp [hdone, he, Answered.respond]
  · simp

theorem censusRead_running (tag : BitVec 16) (h : MgmtReady s sess) (hlen : p.length = 12) (hz : allZero p 10 2 = true)
    (hknown : (s.census.done && s.census.resultEpoch == BitVec.ofNat 64 (le p 0 8)) = false)
    (hruns : (s.census.active && s.census.isOrigin && s.census.epoch == BitVec.ofNat 64 (le p 0 8)) = true) :
    ∃ t, exec (.censusRead sess tag p) s = .next t ∧ Answered t 0x41 tag 0 0 (toLe 2 0 ++ toLe 1 0 ++ toLe 1 0) ∧ t.census = s.census := by
  refine ⟨_, congrArg Host.Outcome.next (State.readyCommand_of_ready h (by simp [hlen]) (by simp [hknown, hruns, nonzero, hz])), ?_, ?_⟩
  · simp [hknown, Answered.respond]
  · simp

theorem censusRead_unknown (tag : BitVec 16) (h : MgmtReady s sess) (hlen : p.length = 12)
    (hknown : (s.census.done && s.census.resultEpoch == BitVec.ofNat 64 (le p 0 8)) = false)
    (hruns : (s.census.active && s.census.isOrigin && s.census.epoch == BitVec.ofNat 64 (le p 0 8)) = false) :
    ∃ t, exec (.censusRead sess tag p) s = .next t ∧ Answered t 0x41 tag 0x11 8 [] ∧ t.census = s.census := by
  refine ⟨_, congrArg Host.Outcome.next (State.readyCommand_badField h (by simp [hlen]) (bad := true) (o := 0) (by simp [hknown, hruns])), ?_, ?_⟩
  · exact .respond _ _ _ _ _ _
  · cases sess <;> rfl

/-! ## CENSUS_COMMIT (R512, R524) -/

theorem exec_censusCommit (tag : BitVec 16) (h : MgmtReady s sess) (hlen : p.length = 8) :
    let u := s.admitted sess
    exec (.censusCommit sess tag p) s = .next (if s.census.committing then u.busy 0x42 tag 0x0D s.engineId
      else if s.commitAllowed (BitVec.ofNat 64 (le p 0 8)) then (u.accept 0x42 tag 0x0D [s.engineId] none []).applyCommit
      else u.reply 0x42 tag 0x21 ((if s.census.flag then 1 else 0) + (if s.census.done then 2 else 0))) := by
  refine congrArg Host.Outcome.next ?_
  rw [State.readyCommand_of_ready h (by simp [hlen]) rfl]
  simp only [State.admitted_census, State.admitted_engineId, State.admitted_commitAllowed]

theorem censusCommit_busy (tag : BitVec 16) (h : MgmtReady s sess) (hlen : p.length = 8) (hc : s.census.committing = true) :
    ∃ t, exec (.censusCommit sess tag p) s = .next t ∧ Answered t 0x42 tag 0x20 (0x0D000000 + s.engineId) [] ∧
      t.census = s.census ∧ t.ports = s.ports := by
  refine ⟨_, exec_censusCommit tag h hlen, ?_⟩
  rw [if_pos hc]
  exact ⟨.respond _ _ _ _ _ _, s.admitted_census sess, s.admitted_ports sess⟩

theorem censusCommit_refused (tag : BitVec 16) (h : MgmtReady s sess) (hlen : p.length = 8) (hc : s.census.committing = false)
    (hno : s.commitAllowed (BitVec.ofNat 64 (le p 0 8)) = false) :
    ∃ t, exec (.censusCommit sess tag p) s = .next t ∧
      Answered t 0x42 tag 0x21 ((if s.census.flag then 1 else 0) + (if s.census.done then 2 else 0)) [] ∧ t.census = s.census ∧
      t.ports = s.ports := by
  refine ⟨_, exec_censusCommit tag h hlen, ?_⟩
  rw [if_neg (by simp [hc]), if_neg (by simp [hno])]
  exact ⟨.respond _ _ _ _ _ _, s.admitted_census sess, s.admitted_ports sess⟩

/-- An event does not touch the answer to the command at hand (R510, R517). -/
@[simp] theorem State.acceptAll_response (s : State) (q : Accepted → Bool) (status detail : Nat) :
    (s.acceptAll q status detail).mgmt.response = s.mgmt.response := by
  refine overList_frame (fun u => u.mgmt.response) (fun u a => ?_) _ s
  unfold acceptDone sendEvent Mgmt.event
  dsimp only
  split
  · rfl
  · split <;> rfl

theorem State.commitTry_frame {β : Type} (p : State → β) (hmgmt : ∀ s q st d, p (State.acceptAll s q st d) = p s)
    (hctl : ∀ s i t l, p (State.sendCtl s i t l) = p s) (hcensus : ∀ (s : State) k, p { s with census := k } = p s) (s : State) :
    p s.commitTry = p s := by
  unfold commitTry
  dsimp only
  split
  · rfl
  · split
    · exact (hmgmt _ _ _ _).trans (hcensus _ _)
    · exact (hctl _ _ _ _).trans (hcensus _ _)

/-- What a commit changes at an engine beside its ports' states are the flits that it sends on and the census' own record. -/
theorem State.applyCommit_frame {β : Type} (p : State → β) (hmgmt : ∀ s q st d, p (State.acceptAll s q st d) = p s)
    (hctl : ∀ s i t l, p (State.sendCtl s i t l) = p s) (hcensus : ∀ (s : State) k, p { s with census := k } = p s) (s : State) :
    p s.applyCommit = p { s with ports := s.ports.map (fun (i, x) => (i, if s.commitsPort i then { x with state := .up } else x)) } := by
  unfold applyCommit
  dsimp only
  rw [commitTry_frame p hmgmt hctl hcensus, hcensus]
  exact overList_frame p (fun _ _ => hctl _ _ _ _) _ _

theorem State.applyCommit_port_state (s : State) {q : Nat} (h : s.commitsPort q = true) : (s.applyCommit.port q).state = .up := by
  have hframe := s.applyCommit_frame (fun u => (u.port q).state)
    (fun u r st d => congrArg (fun ps => (FMap.get {} ps q).state) (u.acceptAll_frame State.ports (fun _ _ => rfl) r st d))
    (fun u i t l => u.sendCtl_port_state i t l q) (fun _ _ => rfl)
  refine hframe.trans ?_
  dsimp only [port, FMap.get]
  rw [FMap.find_mapped s.ports (fun i x => if s.commitsPort i then { x with state := .up } else x) q]
  cases hq : FMap.find s.ports q with
  | some x => simp [h]
  | none =>
    have hport : s.port q = {} := by simp [port, FMap.get, hq]
    simp [commitsPort, hport] at h

theorem State.applyCommit_response (s : State) : s.applyCommit.mgmt.response = s.mgmt.response :=
  s.applyCommit_frame (fun u => u.mgmt.response) acceptAll_response (fun u i t l => congrArg (fun m => m.response) (u.sendCtl_mgmt i t l))
    (fun _ _ => rfl)

theorem censusCommit_accepted (tag : BitVec 16) (h : MgmtReady s sess) (hlen : p.length = 8) (hc : s.census.committing = false)
    (hok : s.commitAllowed (BitVec.ofNat 64 (le p 0 8)) = true) :
    ∃ t, exec (.censusCommit sess tag p) s = .next t ∧ Answered t 0x42 tag 0x01 0 [] ∧
      (∀ q, (s.port q).state = .upNoCensus → (s.port q).upTime.toNat < s.census.epoch.toNat → q ∉ s.census.dropped →
        (q ∈ s.census.children ∨ q ∈ s.census.seenPorts) → (t.port q).state = .up) := by
  refine ⟨_, exec_censusCommit tag h hlen, ?_⟩
  rw [if_neg (by simp [hc]), if_pos hok]
  refine ⟨State.applyCommit_response _, fun q hstate htime hdropped hq => State.applyCommit_port_state _ ?_⟩
  have hport : ((s.admitted sess).accept 0x42 tag 0x0D [s.engineId] none []).port q = s.port q := s.admitted_port sess q
  have hcensus : ((s.admitted sess).accept 0x42 tag 0x0D [s.engineId] none []).census = s.census := s.admitted_census sess
  simp [State.commitsPort, hport, hcensus, hstate, htime, hdropped, hq]

end Census

end Sys2Proof.Machine
end

section
/-! Settling O40, the contexts: what ABORT_CONTEXTS does to a context of its mask, and that no other changes (R37, R156). -/

namespace Sys2Proof.Machine

/-! ## A flight is aborted (R37, R161) -/

/-- A peer abort is flits, and the group's own record of it. -/
theorem State.peerAbort_frame {β : Type} (p : State → β) (hport : ∀ s i x, p (State.putPort s i x) = p s)
    (hgrp : ∀ s g x, p (State.putGrp s g x) = p s) (s : State) (g : Nat) (e : List Byte) (key : Nat) (barrier : Bool) (status : Nat) :
    p (s.peerAbort g e key barrier status) = p s := by
  unfold peerAbort
  dsimp only
  split
  · rfl
  · exact (overList_frame p (fun u i => u.sendCtl_frame p hport i _ _) _ _).trans (hgrp _ _ _)

theorem State.tellPeers_frame {β : Type} (p : State → β) (hport : ∀ s i x, p (State.putPort s i x) = p s)
    (hgrp : ∀ s g x, p (State.putGrp s g x) = p s) (s : State) (f : Flight) (status : Nat) : p (s.tellPeers f status) = p s := by
  unfold tellPeers
  split
  · exact s.peerAbort_frame p hport hgrp _ _ _ _ _
  · rfl

/-- What the flights of context `c` that are aborted leave as it was: every other context, and what says whether the ring has room (R133). -/
structure AbortKeeps (c : Nat) (s t : State) : Prop where
  ctx : ∀ d, d ≠ c → t.ctx d = s.ctx d
  config : t.hearth.config = s.hearth.config
  suites : t.suites = s.suites
  hostState : ∀ h, (t.host h).state = (s.host h).state

theorem AbortKeeps.refl (c : Nat) (s : State) : AbortKeeps c s s := ⟨fun _ _ => rfl, rfl, rfl, fun _ => rfl⟩

theorem AbortKeeps.trans {c : Nat} {s t u : State} (h : AbortKeeps c s t) (k : AbortKeeps c t u) : AbortKeeps c s u :=
  ⟨fun d hd => (k.ctx d hd).trans (h.ctx d hd), k.config.trans h.config, k.suites.trans h.suites,
    fun i => (k.hostState i).trans (h.hostState i)⟩

theorem AbortKeeps.putCtx (c : Nat) (s : State) (x : Context) : AbortKeeps c s (s.putCtx c x) :=
  ⟨fun _ hd => s.putCtx_ctx_ne x hd, rfl, rfl, fun _ => rfl⟩

/-- The room of the ring depends on the locked configuration, the Suites, the host's state and the context's own ring. -/
theorem AbortKeeps.ringRoom {c : Nat} {s t : State} (h : AbortKeeps c s t) (hused : (t.ctx c).ringUsed = (s.ctx c).ringUsed)
    (hrun : (t.ctx c).run = (s.ctx c).run) : t.ringRoom c = s.ringRoom c := by
  have hcfg (off len : Nat) : t.cfg off len = s.cfg off len := by simp only [State.cfg, h.config]
  have hhas (i : Nat) : t.suiteHasCtx i c = s.suiteHasCtx i c := by
    rw [State.suiteHasCtx, State.suiteCfg, State.suiteCfg, hcfg, hcfg]
    rfl
  have hon (i : Nat) : t.suiteOn i = s.suiteOn i := by
    rw [State.suiteOn, State.suite, hcfg, h.suites]
    rfl
  have hsuite : t.suiteOfCtx c = s.suiteOfCtx c := by simp only [State.suiteOfCtx, hhas, hon]
  have howner (i : Nat) : t.ownerPort i = s.ownerPort i := by
    simp only [State.ownerPort, State.suiteHasPort, State.suiteCfg, hcfg]
  have hbonded (n : Nat) : t.bonded n = s.bonded n := by simp only [State.bonded, hcfg]
  have hindex (n : Nat) : t.hostIndex n = s.hostIndex n := by rw [State.hostIndex, hbonded, State.hostIndex]
  simp only [State.ringRoom, State.hostServing, State.ownerHost, howner, hindex, hsuite, h.hostState, hused, hrun]

/-- A change to every host block that leaves its number and its state. -/
theorem host_state_mapped (g : Nat × HostPort → Nat × HostPort) (hg : ∀ x, (g x).1 = x.1 ∧ (g x).2.state = x.2.state) (l : FMap HostPort)
    (h : Nat) : (FMap.get ({} : HostPort) (l.map g) h).state = (FMap.get ({} : HostPort) l h).state := by
  induction l with
  | nil => rfl
  | cons x l ih =>
    obtain ⟨hnum, hstate⟩ := hg x
    simp only [FMap.get, FMap.find, List.map_cons, hnum] at ih ⊢
    split
    · exact hstate
    · exact ih

section Flights
variable (s : State) (c : Nat)

theorem State.tellPeers_ctxs (f : Flight) (status : Nat) : (s.tellPeers f status).ctxs = s.ctxs :=
  s.tellPeers_frame State.ctxs putPort_ctxs putGrp_ctxs f status

theorem State.tellPeers_abortKeeps (f : Flight) (status : Nat) : AbortKeeps c s (s.tellPeers f status) where
  ctx d _ := by rw [State.ctx, State.ctx, s.tellPeers_ctxs f status]
  config := s.tellPeers_frame (fun u => u.hearth.config) (fun _ _ _ => rfl) (fun _ _ _ => rfl) f status
  suites := s.tellPeers_frame State.suites putPort_suites putGrp_suites f status
  hostState h := s.tellPeers_frame (fun u => (u.host h).state) (fun _ _ _ => rfl) (fun _ _ _ => rfl) f status

/-- A flight waits at a Bell only. -/
theorem State.clearWaiter_eq (k : FlightKind) : ∃ x, s.clearWaiter c k = { s with cellar := x } := by
  unfold clearWaiter
  split
  · exact ⟨_, rfl⟩
  · exact ⟨_, rfl⟩
  · exact ⟨s.cellar, rfl⟩

theorem State.clearWaiter_abortKeeps (k : FlightKind) : AbortKeeps c s (s.clearWaiter c k) := by
  obtain ⟨x, h⟩ := s.clearWaiter_eq c k
  rw [h]
  exact ⟨fun _ _ => rfl, rfl, rfl, fun _ => rfl⟩

theorem State.dropReads_abortKeeps (fid : Nat) : AbortKeeps c s (s.dropReads c fid) :=
  ⟨fun _ _ => rfl, rfl, rfl, fun h => host_state_mapped _ (by exact fun _ => ⟨rfl, rfl⟩) s.hosts h⟩

theorem State.dropWrites_abortKeeps (fid : Nat) : AbortKeeps c s (s.dropWrites c fid) :=
  ⟨fun _ _ => rfl, rfl, rfl, fun h => host_state_mapped _ (by exact fun _ => ⟨rfl, rfl⟩) s.hosts h⟩

theorem State.dropWire_abortKeeps (f : Flight) : AbortKeeps c s (s.dropWire c f) := by
  unfold dropWire
  dsimp only
  split
  · exact ⟨fun _ _ => rfl, rfl, rfl, fun _ => rfl⟩
  · exact .refl c s

theorem State.freeFlight_abortKeeps (f : Flight) : AbortKeeps c s (s.freeFlight c f) := by
  have hdrops := (((s.clearWaiter_abortKeeps c f.kind).trans (dropReads_abortKeeps _ c f.fid)).trans (dropWrites_abortKeeps _ c f.fid)).trans
    (dropWire_abortKeeps _ c f)
  obtain ⟨hctx, hconfig, hsuites, hhost⟩ := hdrops
  exact ⟨hctx, hconfig, hsuites, hhost⟩

/-- A flight that ends has left the engine, and its context holds its result. -/
theorem State.endFlight_abortKeeps (fid : Nat) (d : Done) : AbortKeeps c s (s.endFlight c fid d) := by
  unfold endFlight
  split
  · split
    · exact .refl c s
    · exact (s.freeFlight_abortKeeps c _).trans (.putCtx c _ _)
  · exact .refl c s

theorem State.abortFlight_abortKeeps (fid : Nat) : AbortKeeps c s (s.abortFlight c fid) := by
  unfold abortFlight
  split
  next f hf =>
    split
    · exact (s.tellPeers_abortKeeps c f _).trans (.putCtx c _ _)
    next hdone =>
      simp only [failFlight, hf, hdone]
      exact (s.tellPeers_abortKeeps c f _).trans (endFlight_abortKeeps _ c fid _)
  · exact .refl c s

theorem State.cancelAll_abortKeeps : AbortKeeps c s (s.cancelAll c) := by
  unfold cancelAll
  generalize (s.ctx c).flights = l
  induction l generalizing s with
  | nil => exact .refl c s
  | cons f l ih => exact (s.abortFlight_abortKeeps c f.fid).trans (ih _)

end Flights

/-! ## The result of an aborted flight (R37) -/

/-- The flight with the result that an abort gives it. -/
def Flight.aborted (f : Flight) : Flight := { f with done := some { status := 0x40 } }

section Results
variable (s : State) (c : Nat)

theorem State.freeFlight_ctxs (f : Flight) : (s.freeFlight c f).ctxs = s.ctxs := by
  have hwaiter : (s.clearWaiter c f.kind).ctxs = s.ctxs := by
    obtain ⟨x, h⟩ := s.clearWaiter_eq c f.kind
    rw [h]
  have hwire (u : State) : (u.dropWire c f).ctxs = u.ctxs := by
    unfold dropWire
    dsimp only
    split <;> rfl
  exact (hwire _).trans hwaiter

theorem State.abortFlight_ctx (fid : Nat) : (s.abortFlight c fid).ctx c = (s.ctx c).modFlight fid Flight.aborted := by
  unfold abortFlight
  have hpeers (f : Flight) (st : Nat) : (s.tellPeers f st).ctx c = s.ctx c := by rw [ctx, ctx, s.tellPeers_ctxs f st]
  have hfree (f : Flight) (st : Nat) : ((s.tellPeers f st).freeFlight c f).ctx c = s.ctx c := by
    rw [ctx, freeFlight_ctxs, s.tellPeers_ctxs f st, ctx]
  split
  next f hf =>
    split
    · simp only [modCtx_eq, putCtx_ctx_self, hpeers]
      rfl
    next hdone =>
      simp only [failFlight, endFlight, hpeers, hf, hdone, modCtx_eq, hfree, Bool.false_eq_true, if_false, putCtx_ctx_self]
      rfl
  next hnone =>
    have hno : ∀ y ∈ (s.ctx c).flights, ¬ y.fid = fid := by simpa [Context.flight] using hnone
    have hsame : (s.ctx c).flights.map (fun y => if y.fid = fid then Flight.aborted y else y) = (s.ctx c).flights :=
      (List.map_congr_left fun y hy => if_neg (hno y hy)).trans (List.map_id' _)
    rw [Context.modFlight, hsame]

/-- Every flight of a context that is aborted has the result 0x40. -/
theorem State.cancelAll_ctx : (s.cancelAll c).ctx c = { s.ctx c with flights := (s.ctx c).flights.map Flight.aborted } := by
  have hover (l : List Flight) (u : State) : (overList (fun s f => s.abortFlight c f.fid) l u).ctx c =
      { u.ctx c with flights := (u.ctx c).flights.map (fun y => if y.fid ∈ l.map Flight.fid then y.aborted else y) } := by
    induction l generalizing u with
    | nil => simp [overList]
    | cons f l ih =>
      refine (ih _).trans ?_
      rw [u.abortFlight_ctx]
      simp only [Context.modFlight, List.map_map]
      congr 2
      funext y
      by_cases hy : y.fid = f.fid <;> by_cases hl : f.fid ∈ l.map Flight.fid <;> simp [hy, hl, Flight.aborted]
  have hall : (s.ctx c).flights.map (fun y => if y.fid ∈ (s.ctx c).flights.map Flight.fid then y.aborted else y) =
      (s.ctx c).flights.map Flight.aborted := List.map_congr_left fun y hy => if_pos (List.mem_map_of_mem hy)
  rw [cancelAll, hover, hall]

end Results

end Sys2Proof.Machine
end

section
/-! Settling O40, a context settles: which flights leave, what a drain's end does, and that no other context changes (R117, R156). -/

namespace Sys2Proof.Machine

/-- Every flight of the context has its result: none waits for anything but its turn to leave. -/
def Context.allDone (x : Context) : Prop := ∀ f ∈ x.flights, f.done.isSome = true

/-- A step of context `c` alone, after which its flights have their results if they had them before. -/
structure SettlesAlone (c : Nat) (s t : State) : Prop where
  others : ∀ d, d ≠ c → t.ctx d = s.ctx d
  done : (s.ctx c).allDone → (t.ctx c).allDone

theorem SettlesAlone.refl (c : Nat) (s : State) : SettlesAlone c s s := ⟨fun _ _ => rfl, id⟩

theorem SettlesAlone.trans {c : Nat} {s t u : State} (h : SettlesAlone c s t) (k : SettlesAlone c t u) : SettlesAlone c s u :=
  ⟨fun d hd => (k.others d hd).trans (h.others d hd), fun hs => k.done (h.done hs)⟩

/-- A step that touches no context. -/
theorem SettlesAlone.of_ctx {c : Nat} {s t : State} (h : ∀ d, t.ctx d = s.ctx d) : SettlesAlone c s t :=
  ⟨fun d _ => h d, fun hs => (h c).symm ▸ hs⟩

theorem SettlesAlone.putCtx {c : Nat} {s : State} {x : Context} (h : (s.ctx c).allDone → x.allDone) : SettlesAlone c s (s.putCtx c x) :=
  ⟨fun _ hd => s.putCtx_ctx_ne x hd, by simpa using h⟩

theorem SettlesAlone.overList {α : Type} {c : Nat} {f : State → α → State} (hf : ∀ s x, SettlesAlone c s (f s x)) (l : List α) (s : State) :
    SettlesAlone c s (overList f l s) := by
  induction l generalizing s with
  | nil => exact .refl c s
  | cons x l ih => exact (hf s x).trans (ih _)

theorem Context.allDone_modFlight {x : Context} (h : x.allDone) (fid : Nat) {g : Flight → Flight} (hg : ∀ f, (g f).done.isSome = true) :
    (x.modFlight fid g).allDone := by
  intro f hf
  obtain ⟨y, hy, rfl⟩ := List.mem_map.mp hf
  split
  · exact hg y
  · exact h y hy

/-! ## One flight leaves (R117-R131) -/

section Complete
variable (s : State) (c : Nat) (f : Flight) (d : Done)

theorem State.ctxVector_ctx (n : Nat) : (s.ctxVector c).ctx n = s.ctx n := s.msix_ctx _ _ n

theorem State.statusRecord_ctx (n : Nat) : (s.statusRecord c f d).ctx n = s.ctx n := by
  unfold statusRecord
  dsimp only
  split
  · exact s.record_ctx _ n
  split
  · exact s.record_ctx _ n
  split
  · exact s.record_ctx _ n
  · rfl

theorem State.progressIn_ctx (i : Option Nat) (n : Nat) : (s.progressIn i).ctx n = s.ctx n := by
  cases i <;> rfl

/-- The ring registers of a context. -/
def Context.withRing (x : Context) (tail : BitVec 16) (used : Nat) (phase : Bool) : Context :=
  { x with ringTail := tail, ringUsed := used, ringPhase := phase }

/-- A completion entry moves the ring of its own context and nothing else of any (R129-R133). -/
theorem State.writeEntry_ctx : ∃ tail used phase, (s.writeEntry c f d).ctx c = (s.ctx c).withRing tail used phase := by
  unfold writeEntry
  dsimp only
  split
  · rw [modCtx_eq, putCtx_ctx_self, post_ctx]
    exact ⟨_, _, _, rfl⟩
  · exact ⟨(s.ctx c).ringTail, (s.ctx c).ringUsed, (s.ctx c).ringPhase, rfl⟩

theorem State.writeEntry_ctx_ne {n : Nat} (h : n ≠ c) : (s.writeEntry c f d).ctx n = s.ctx n := by
  unfold writeEntry
  dsimp only
  split
  · rw [modCtx_eq, putCtx_ctx_ne _ _ h, post_ctx]
  · rfl

theorem State.writeEntry_settles : SettlesAlone c s (s.writeEntry c f d) := by
  refine ⟨fun n hn => s.writeEntry_ctx_ne c f d hn, fun h => ?_⟩
  obtain ⟨tail, used, phase, hx⟩ := s.writeEntry_ctx c f d
  exact hx ▸ h

theorem State.failGroup_settles : SettlesAlone c s (s.failGroup c f) := by
  unfold failGroup
  split
  · exact .refl c s
  · refine .overList (fun u y => ?_) _ s
    have hfree : SettlesAlone c u (if y.done.isSome then u else u.freeFlight c y) := by
      split
      · exact .refl c u
      · exact .of_ctx fun n => by rw [ctx, freeFlight_ctxs, ctx]
    exact hfree.trans (.putCtx fun h => Context.allDone_modFlight h _ fun _ => rfl)

/-- What the context holds once flight `f` has left with the result `d` (R120, R134). -/
def Context.left (x : Context) (f : Flight) (d : Done) : Context :=
  let y := (({ x with flights := x.flights.filter (fun y => y.fid != f.fid) } : Context).collDone f d).countStatus d.status
  if okStatus d.status then (if (match f.kind with | .endCard => true | _ => false) then y.cardEnd else y) else y.failStop d.status

theorem Context.collDone_flights (x : Context) : (x.collDone f d).flights = x.flights := by
  unfold collDone
  split <;> rfl

theorem Context.countStatus_flights (x : Context) (st : Nat) : (x.countStatus st).flights = x.flights := by
  unfold countStatus
  split <;> rfl

theorem Context.left_flights (x : Context) : (x.left f d).flights = x.flights.filter (fun y => y.fid != f.fid) := by
  have hcard (y : Context) : y.cardEnd.flights = y.flights := by
    unfold cardEnd
    split <;> rfl
  have hfail (y : Context) (st : Nat) : (y.failStop st).flights = y.flights := by
    unfold failStop
    dsimp only
    split <;> rfl
  unfold left
  dsimp only
  rw [apply_ite Context.flights, apply_ite Context.flights, hcard, hfail, ite_self, ite_self, countStatus_flights, collDone_flights]

/-- The completion of flight `f` with the result `d` takes a ring entry (R129). -/
def Flight.takesEntry (f : Flight) (d : Done) : Bool :=
  (match f.kind with | .endCard => true | _ => false) || f.cpl || f.irq || !okStatus d.status

/-- The state in which flight `f` with the result `d` leaves its context: its entry is written, its vector and its record are sent, and what
follows it in its group has failed where it failed (R121, R129-R132). -/
def State.delivered (s : State) (c : Nat) (f : Flight) (d : Done) : State :=
  let s := if f.takesEntry d then s.writeEntry c f d else s
  let s := (if f.irq then s.ctxVector c else s).statusRecord c f d
  if okStatus d.status then s else s.failGroup c f

theorem State.complete_eq : s.complete c f d =
    (((s.delivered c f ((s.ctx c).finalDone f d)).modCtx c (fun x => x.left f ((s.ctx c).finalDone f d))).progressIn
      ((s.delivered c f ((s.ctx c).finalDone f d)).suiteOfCtx c)) := rfl

theorem State.delivered_settles : SettlesAlone c s (s.delivered c f d) := by
  unfold delivered
  have hentry : SettlesAlone c s (if f.takesEntry d then s.writeEntry c f d else s) := by
    split
    · exact s.writeEntry_settles c f d
    · exact .refl c s
  have hvector (u : State) : SettlesAlone c u (if f.irq then u.ctxVector c else u) := by
    split
    · exact .of_ctx (u.ctxVector_ctx c)
    · exact .refl c u
  have hrecord (u : State) : SettlesAlone c u (u.statusRecord c f d) := .of_ctx (u.statusRecord_ctx c f d)
  have hgroup (u : State) : SettlesAlone c u (if okStatus d.status then u else u.failGroup c f) := by
    split
    · exact .refl c u
    · exact u.failGroup_settles c f
  exact hentry.trans ((hvector _).trans ((hrecord _).trans (hgroup _)))

theorem State.complete_settles : SettlesAlone c s (s.complete c f d) := by
  rw [complete_eq]
  refine (s.delivered_settles c f _).trans (.trans (.putCtx fun h => ?_) (.of_ctx (progressIn_ctx _ _)))
  intro y hy
  rw [Context.left_flights] at hy
  exact h y (List.mem_of_mem_filter hy)

end Complete

theorem retire_settles (c n : Nat) (s : State) : SettlesAlone c s (retire c n s) := by
  induction n generalizing s with
  | zero => exact .refl c s
  | succ n ih =>
    rw [retire]
    split
    · exact (s.complete_settles c _ _).trans (ih _)
    · exact .refl c s

/-! ## The end of a drain, and the refresh (R137, R156) -/

section Drain
variable (s : State) (c : Nat)

theorem State.wake_ctxs : s.wake.ctxs = s.ctxs := by
  obtain ⟨pw, h⟩ := s.wake_eq
  rw [h]

theorem State.wake_cellar : s.wake.cellar = s.cellar := by
  obtain ⟨pw, h⟩ := s.wake_eq
  rw [h]

/-- The context has stopped, and no START is queued (R156, R164). -/
def Context.ended (x : Context) : Context := { x with state := .stopped, queued := none }

/-- The end of a drain writes its own context, whose flights it leaves, and then sends the context's vector or ends a Doze, or does neither. -/
theorem State.drainEnd_cases : s.drainEnd c = s ∨ ∃ x : Context, x.flights = (s.ctx c).flights ∧
    (s.drainEnd c = s.putCtx c x ∨ s.drainEnd c = (s.putCtx c x).ctxVector c ∨ s.drainEnd c = (s.putCtx c x).wake) := by
  unfold drainEnd
  dsimp only
  split
  · exact .inl rfl
  refine .inr ?_
  split
  next a _ =>
    split
    · exact ⟨(s.ctx c).ended, rfl, .inr (.inl rfl)⟩
    · refine ⟨(s.ctx c).clear a, rfl, ?_⟩
      unfold carryOut
      dsimp only
      split
      · exact .inr (.inr rfl)
      · exact .inl rfl
  · split
    next r _ _ =>
      split
      · exact ⟨(s.ctx c).begin r, rfl, .inl rfl⟩
      · exact ⟨(s.ctx c).ended, rfl, .inr (.inl rfl)⟩
    · exact ⟨(s.ctx c).ended, rfl, .inr (.inl rfl)⟩

theorem State.drainEnd_flights : ((s.drainEnd c).ctx c).flights = (s.ctx c).flights := by
  obtain h | ⟨x, hx, h | h | h⟩ := s.drainEnd_cases c
  · rw [h]
  · rw [h, putCtx_ctx_self, hx]
  · rw [h, ctxVector_ctx, putCtx_ctx_self, hx]
  · rw [h, ctx, wake_ctxs, ← ctx, putCtx_ctx_self, hx]

theorem State.drainEnd_ctx_ne {n : Nat} (hn : n ≠ c) : (s.drainEnd c).ctx n = s.ctx n := by
  obtain h | ⟨x, -, h | h | h⟩ := s.drainEnd_cases c
  · rw [h]
  · rw [h, putCtx_ctx_ne _ _ hn]
  · rw [h, ctxVector_ctx, putCtx_ctx_ne _ _ hn]
  · rw [h, ctx, wake_ctxs, ← ctx, putCtx_ctx_ne _ _ hn]

theorem State.drainEnd_cellar : (s.drainEnd c).cellar = s.cellar := by
  obtain h | ⟨x, -, h | h | h⟩ := s.drainEnd_cases c
  · rw [h]
  · rw [h, putCtx_cellar]
  · rw [h, ctxVector, msix_cellar, putCtx_cellar]
  · rw [h, wake_cellar, putCtx_cellar]

/-- A drain with nothing in flight and no assignment latched ends in Stopped (R156, R157). -/
theorem State.drainEnd_of_draining (hstate : (s.ctx c).state = .draining) (hflights : (s.ctx c).flights = [])
    (hlatched : (s.ctx c).latched = none) :
    s.drainEnd c = (s.putCtx c (s.ctx c).ended).ctxVector c := by
  simp [drainEnd, Context.drains, Context.ended, hstate, hflights, hlatched]

theorem State.drainEnd_of_stopped (hstate : (s.ctx c).state = .stopped) : s.drainEnd c = s := by
  simp [drainEnd, Context.drains, hstate]

theorem State.refresh_eq : s.refresh c = s ∨ ∃ st, s.refresh c = s.putCtx c { s.ctx c with state := st } := by
  unfold refresh
  dsimp only
  split
  · exact .inr ⟨_, rfl⟩
  · exact .inl rfl

theorem State.refresh_of_stopped (hstate : (s.ctx c).state = .stopped) : s.refresh c = s := by
  simp [refresh, Context.live, hstate]

theorem State.refresh_flights : ((s.refresh c).ctx c).flights = (s.ctx c).flights := by
  obtain h | ⟨st, h⟩ := s.refresh_eq c
  · rw [h]
  · rw [h, putCtx_ctx_self]

theorem State.refresh_cellar : (s.refresh c).cellar = s.cellar := by
  obtain h | ⟨st, h⟩ := s.refresh_eq c
  · rw [h]
  · rw [h, putCtx_cellar]

theorem State.drainEnd_settles : SettlesAlone c s (s.drainEnd c) :=
  ⟨fun _ hn => s.drainEnd_ctx_ne c hn, fun h f hf => h f (s.drainEnd_flights c ▸ hf)⟩

theorem State.refresh_settles : SettlesAlone c s (s.refresh c) := by
  obtain h | ⟨st, h⟩ := s.refresh_eq c
  · rw [h]
    exact .refl c s
  · rw [h]
    exact .putCtx id

/-! ## A context whose flights have their results settles (R117, R137, R156) -/

theorem State.settleFlights_settles : SettlesAlone c s (s.settleFlights c) :=
  (retire_settles c _ s).trans ((drainEnd_settles _ c).trans (refresh_settles _ c))

/-- No BELL_RING is left to go. -/
theorem State.ringsGo_of_allDone (h : (s.ctx c).allDone) : s.ringsGo c = s := by
  unfold ringsGo
  have hover (l : List Flight) (hl : ∀ f ∈ l, f.done.isSome = true) : overList (fun s f => s.ringGo c f) l s = s := by
    induction l with
    | nil => rfl
    | cons f l ih =>
      obtain ⟨hf, hl⟩ := List.forall_mem_cons.mp hl
      have hgo : s.ringGo c f = s := by
        unfold ringGo
        split
        · simp [hf]
        · rfl
      exact (congrArg (overList _ l) hgo).trans (ih hl)
  exact hover _ h

theorem State.settle_of_allDone (h : (s.ctx c).allDone) : s.settle c = (s.settleFlights c).settleFlights c := by
  rw [settle, s.ringsGo_of_allDone c h, ringsGo_of_allDone _ c ((s.settleFlights_settles c).done h)]

theorem State.settle_others (h : (s.ctx c).allDone) {d : Nat} (hd : d ≠ c) : (s.settle c).ctx d = s.ctx d := by
  rw [s.settle_of_allDone c h]
  exact ((s.settleFlights_settles c).trans (settleFlights_settles _ c)).others d hd

/-! ## A context with nothing in flight settles -/

theorem retire_of_noFlights (n : Nat) (h : (s.ctx c).flights = []) : retire c n s = s := by
  cases n with
  | zero => rfl
  | succ n => simp [retire, State.readyFlight, h]

theorem State.settleFlights_of_noFlights (h : (s.ctx c).flights = []) : s.settleFlights c = (s.drainEnd c).refresh c := by
  rw [settleFlights, retire_of_noFlights s c _ h]

theorem State.settleFlights_flights (h : (s.ctx c).flights = []) : ((s.settleFlights c).ctx c).flights = [] := by
  rw [s.settleFlights_of_noFlights c h, refresh_flights, drainEnd_flights, h]

theorem State.settleFlights_cellar (h : (s.ctx c).flights = []) : (s.settleFlights c).cellar = s.cellar := by
  rw [s.settleFlights_of_noFlights c h, refresh_cellar, drainEnd_cellar]

theorem Context.allDone_of_noFlights {x : Context} (h : x.flights = []) : x.allDone := by simp [allDone, h]

theorem State.settle_cellar (h : (s.ctx c).flights = []) : (s.settle c).cellar = s.cellar := by
  rw [s.settle_of_allDone c (Context.allDone_of_noFlights h), settleFlights_cellar _ c (s.settleFlights_flights c h), s.settleFlights_cellar c h]

theorem State.settleFlights_of_draining (hstate : (s.ctx c).state = .draining) (hflights : (s.ctx c).flights = [])
    (hlatched : (s.ctx c).latched = none) :
    s.settleFlights c = (s.putCtx c (s.ctx c).ended).ctxVector c := by
  rw [s.settleFlights_of_noFlights c hflights, s.drainEnd_of_draining c hstate hflights hlatched, refresh_of_stopped]
  rw [ctxVector_ctx, putCtx_ctx_self]
  rfl

theorem State.settleFlights_of_stopped (hstate : (s.ctx c).state = .stopped) (hflights : (s.ctx c).flights = []) : s.settleFlights c = s := by
  rw [s.settleFlights_of_noFlights c hflights, s.drainEnd_of_stopped c hstate, s.refresh_of_stopped c hstate]

end Drain

end Sys2Proof.Machine
end

section
/-! Settling O40, ABORT_CONTEXTS (R37, R156, R515): one context is aborted, then every context of the mask. -/

namespace Sys2Proof.Machine

/-! ## A context is aborted (R37, R156) -/

section Abort
variable (s : State) (c : Nat)

theorem State.cancelAll_of_noFlights (h : (s.ctx c).flights = []) : s.cancelAll c = s := by
  rw [cancelAll, h]
  rfl

theorem State.cancelAll_allDone : ((s.cancelAll c).ctx c).allDone := by
  rw [cancelAll_ctx]
  intro f hf
  obtain ⟨y, -, rfl⟩ := List.mem_map.mp hf
  rfl

theorem State.cancelAll_settle_others {d : Nat} (hd : d ≠ c) : ((s.cancelAll c).settle c).ctx d = s.ctx d :=
  (settle_others _ c (s.cancelAll_allDone c) hd).trans ((s.cancelAll_abortKeeps c).ctx d hd)

theorem State.cancelAll_settle_cellar (h : (s.ctx c).flights = []) : ((s.cancelAll c).settle c).cellar = s.cellar := by
  rw [s.cancelAll_of_noFlights c h, s.settle_cellar c h]

/-- An abort leaves a context that runs no Card; otherwise it may write the context's state, and the context's flights are aborted. -/
theorem State.abortCtx_cases (r : StopReason) : s.abortCtx c r = s ∨ s.abortCtx c r = (s.cancelAll c).settle c ∨
    ∃ x : Context, x.flights = (s.ctx c).flights ∧ s.abortCtx c r = ((s.putCtx c x).cancelAll c).settle c := by
  unfold abortCtx
  dsimp only
  split
  · exact .inr (.inr ⟨(s.ctx c).stopIssue r, rfl, rfl⟩)
  · exact .inr (.inr ⟨(s.ctx c).stopIssue r, rfl, rfl⟩)
  · exact .inr (.inl rfl)
  · exact .inr (.inr ⟨{ s.ctx c with state := .draining, queued := none, stopReason := r }, rfl, rfl⟩)
  · exact .inl rfl

theorem State.abortCtx_ctx_ne (r : StopReason) {d : Nat} (hd : d ≠ c) : (s.abortCtx c r).ctx d = s.ctx d := by
  obtain h | h | ⟨x, -, h⟩ := s.abortCtx_cases c r
  · rw [h]
  · rw [h, s.cancelAll_settle_others c hd]
  · rw [h, cancelAll_settle_others _ c hd, putCtx_ctx_ne _ _ hd]

theorem State.abortCtx_cellar (r : StopReason) (hflights : (s.ctx c).flights = []) : (s.abortCtx c r).cellar = s.cellar := by
  obtain h | h | ⟨x, hx, h⟩ := s.abortCtx_cases c r
  · rw [h]
  · rw [h, s.cancelAll_settle_cellar c hflights]
  · rw [h, cancelAll_settle_cellar _ c (by rw [putCtx_ctx_self, hx, hflights]), putCtx_cellar]

theorem State.abortCtx_of_live (r : StopReason) (h : (s.ctx c).live = true) :
    s.abortCtx c r = ((s.putCtx c ((s.ctx c).stopIssue r)).cancelAll c).settle c := by
  obtain hrun | hwait : (s.ctx c).state = .running ∨ (s.ctx c).state = .waiting := by simpa [Context.live] using h
  · simp only [abortCtx, hrun]
  · simp only [abortCtx, hwait]

end Abort

/-! ## A drain with nothing, or one aborted Figure, in flight (R129-R131, R156) -/

section Drain
variable (s : State) (c : Nat)

/-- Once it has stopped the context does not change. -/
theorem State.settle_of_firstStopped (hdone : (s.ctx c).allDone) (hstate : ((s.settleFlights c).ctx c).state = .stopped)
    (hflights : ((s.settleFlights c).ctx c).flights = []) : s.settle c = s.settleFlights c := by
  rw [s.settle_of_allDone c hdone, settleFlights_of_stopped _ c hstate hflights]

theorem State.settleFlights_ctx_of_draining (hstate : (s.ctx c).state = .draining) (hflights : (s.ctx c).flights = [])
    (hlatched : (s.ctx c).latched = none) : (s.settleFlights c).ctx c = (s.ctx c).ended := by
  rw [s.settleFlights_of_draining c hstate hflights hlatched, ctxVector_ctx, putCtx_ctx_self]

theorem State.settle_ctx_of_draining (hstate : (s.ctx c).state = .draining) (hflights : (s.ctx c).flights = [])
    (hlatched : (s.ctx c).latched = none) : (s.settle c).ctx c = (s.ctx c).ended := by
  have hfirst := s.settleFlights_ctx_of_draining c hstate hflights hlatched
  rw [s.settle_of_firstStopped c (Context.allDone_of_noFlights hflights) (by rw [hfirst]; rfl) (by rw [hfirst]; exact hflights), hfirst]

/-- An aborted Figure that is alone in its context leaves where the ring has room. -/
theorem State.readyFlight_of_aborted {f : Flight} (hflights : (s.ctx c).flights = [f.aborted]) (hroom : s.ringRoom c = true) :
    s.readyFlight c = some (f.aborted, { status := 0x40 }) := by
  have hfinished : ∃ entry, (s.ctx c).finished f.aborted = some ({ status := 0x40 }, entry) := by
    cases hgroup : f.kind.group <;> simp [Context.finished, Flight.selfDone, Flight.aborted, hflights, hgroup]
  obtain ⟨entry, hfinished⟩ := hfinished
  simp [readyFlight, hflights, hfinished, hroom]

theorem State.failGroup_of_alone {f : Flight} (h : (s.ctx c).flights = [f]) : s.failGroup c f = s := by
  unfold failGroup
  split
  · rfl
  · simp [h, overList]

/-- A Figure that is alone in its context leaves it, and only the ring registers follow its entry. -/
theorem State.delivered_ctx_of_alone {f : Flight} (d : Done) (h : (s.ctx c).flights = [f]) :
    ∃ tail used phase, (s.delivered c f d).ctx c = (s.ctx c).withRing tail used phase := by
  unfold delivered
  dsimp only
  obtain ⟨tail, used, phase, hentry⟩ : ∃ tail used phase, (if f.takesEntry d then s.writeEntry c f d else s).ctx c =
      (s.ctx c).withRing tail used phase := by
    split
    · exact s.writeEntry_ctx c f d
    · exact ⟨(s.ctx c).ringTail, (s.ctx c).ringUsed, (s.ctx c).ringPhase, rfl⟩
  refine ⟨tail, used, phase, ?_⟩
  generalize (if f.takesEntry d then s.writeEntry c f d else s) = u at hentry ⊢
  have hrecord : ((if f.irq then u.ctxVector c else u).statusRecord c f d).ctx c = u.ctx c := by
    rw [statusRecord_ctx]
    split
    · exact u.ctxVector_ctx c c
    · rfl
  have hgroup : ((if f.irq then u.ctxVector c else u).statusRecord c f d).failGroup c f = (if f.irq then u.ctxVector c else u).statusRecord c f d :=
    failGroup_of_alone _ c (by rw [hrecord, hentry]; exact h)
  rw [hgroup, ite_self, hrecord, hentry]

/-- A context that drains already keeps its stop reason when a Figure of it fails (R120, R156). -/
theorem Context.failStop_of_draining (x : Context) (st : Nat) (h : x.state = .draining) : x.failStop st = { x with lastStatus := st } := by
  simp [failStop, live, h]

/-- What a draining context holds once an aborted Figure has left it. -/
theorem Context.left_of_aborted (x : Context) (f : Flight) (d : Done) (hstate : x.state = .draining) (hd : d.status = 0x40) :
    (x.left f d).state = .draining ∧ (x.left f d).lastStatus = 0x40 ∧ (x.left f d).latched = x.latched ∧
      (x.left f d).stopReason = x.stopReason := by
  have hcoll (y : Context) : (y.collDone f d).state = y.state ∧ (y.collDone f d).latched = y.latched ∧
      (y.collDone f d).stopReason = y.stopReason := by
    unfold collDone
    split <;> exact ⟨rfl, rfl, rfl⟩
  obtain ⟨hst, hlatched, hreason⟩ := hcoll { x with flights := x.flights.filter (fun y => y.fid != f.fid) }
  simp only [left, hd, show okStatus 0x40 = false from rfl, Bool.false_eq_true, if_false]
  have hcounted (y : Context) : (y.countStatus 0x40).state = y.state := rfl
  rw [failStop_of_draining _ _ ((hcounted _).trans (hst.trans hstate))]
  exact ⟨hst.trans hstate, rfl, hlatched, hreason⟩

/-- A context that drains, whose only Figure was aborted, has nothing in flight once that Figure leaves. -/
theorem State.complete_ctx_of_aborted {f : Flight} (hstate : (s.ctx c).state = .draining) (hflights : (s.ctx c).flights = [f.aborted]) :
    let x := (s.complete c f.aborted { status := 0x40 }).ctx c
    x.flights = [] ∧ x.state = .draining ∧ x.lastStatus = 0x40 ∧ x.latched = (s.ctx c).latched ∧ x.stopReason = (s.ctx c).stopReason := by
  have hd : ((s.ctx c).finalDone f.aborted { status := 0x40 }).status = 0x40 := by simp [Context.finalDone, okStatus]
  rw [complete_eq]
  generalize (s.ctx c).finalDone f.aborted { status := 0x40 } = d at hd ⊢
  dsimp only
  rw [progressIn_ctx, modCtx_eq, putCtx_ctx_self]
  obtain ⟨tail, used, phase, hctx⟩ := s.delivered_ctx_of_alone c d hflights
  rw [hctx]
  obtain ⟨hst, hlast, hlatched, hreason⟩ := Context.left_of_aborted ((s.ctx c).withRing tail used phase) f.aborted d hstate hd
  refine ⟨?_, hst, hlast, hlatched, hreason⟩
  rw [Context.left_flights]
  simp [Context.withRing, hflights]

theorem State.settleFlights_of_aborted {f : Flight} (hstate : (s.ctx c).state = .draining) (hflights : (s.ctx c).flights = [f.aborted])
    (hroom : s.ringRoom c = true) : s.settleFlights c = (s.complete c f.aborted { status := 0x40 }).settleFlights c := by
  have hnone := (s.complete_ctx_of_aborted c hstate hflights).1
  have hretire (n : Nat) : retire c (n + 1) s = s.complete c f.aborted { status := 0x40 } := by
    rw [retire, s.readyFlight_of_aborted c hflights hroom]
    exact retire_of_noFlights _ c n hnone
  rw [settleFlights_of_noFlights _ c hnone, settleFlights, hretire]

/-- An aborted Figure that is alone in its context leaves, and the drain that waited for it ends (R37, R156). -/
theorem State.settle_ctx_of_aborted {f : Flight} (hstate : (s.ctx c).state = .draining) (hflights : (s.ctx c).flights = [f.aborted])
    (hlatched : (s.ctx c).latched = none) (hroom : s.ringRoom c = true) :
    let x := (s.settle c).ctx c
    x.flights = [] ∧ x.lastStatus = 0x40 ∧ x.state = .stopped ∧ x.stopReason = (s.ctx c).stopReason := by
  obtain ⟨hnone, hst, hlast, hla, hreason⟩ := s.complete_ctx_of_aborted c hstate hflights
  have hfirst : (s.settleFlights c).ctx c = ((s.complete c f.aborted { status := 0x40 }).ctx c).ended := by
    rw [s.settleFlights_of_aborted c hstate hflights hroom, settleFlights_ctx_of_draining _ c hst hnone (hla.trans hlatched)]
  have hdone : (s.ctx c).allDone := by simp [Context.allDone, hflights, Flight.aborted]
  rw [s.settle_of_firstStopped c hdone (by rw [hfirst]; rfl) (by rw [hfirst]; exact hnone), hfirst]
  exact ⟨hnone, hlast, rfl, hreason⟩

end Drain

section Abort
variable (s : State) (c : Nat)

/-- A context that runs a Card with nothing in flight stops (R156). -/
theorem State.abortCtx_stops (r : StopReason) (hlive : (s.ctx c).live = true) (hflights : (s.ctx c).flights = [])
    (hlatched : (s.ctx c).latched = none) :
    ((s.abortCtx c r).ctx c).state = .stopped ∧ ((s.abortCtx c r).ctx c).stopReason = r := by
  have hctx := s.putCtx_ctx_self c ((s.ctx c).stopIssue r)
  rw [s.abortCtx_of_live c r hlive, cancelAll_of_noFlights _ c (by rw [hctx]; exact hflights),
    settle_ctx_of_draining _ c (by rw [hctx]; rfl) (by rw [hctx]; exact hflights) (by rw [hctx]; exact hlatched), hctx]
  exact ⟨rfl, rfl⟩

/-- A context that runs a Card with one Figure in flight stops, and the Figure completes with 0x40 (R37, R156). -/
theorem State.abortCtx_completes (r : StopReason) {f : Flight} (hlive : (s.ctx c).live = true) (hflights : (s.ctx c).flights = [f])
    (hlatched : (s.ctx c).latched = none) (hroom : s.ringRoom c = true) :
    let x := (s.abortCtx c r).ctx c
    x.flights = [] ∧ x.lastStatus = 0x40 ∧ x.state = .stopped ∧ x.stopReason = r := by
  have hkeeps := (AbortKeeps.putCtx c s ((s.ctx c).stopIssue r)).trans (cancelAll_abortKeeps _ c)
  have hctx := cancelAll_ctx (s.putCtx c ((s.ctx c).stopIssue r)) c
  rw [putCtx_ctx_self] at hctx
  rw [s.abortCtx_of_live c r hlive]
  generalize (s.putCtx c ((s.ctx c).stopIssue r)).cancelAll c = u at hkeeps hctx ⊢
  obtain ⟨hnone, hlast, hst, hreason⟩ := u.settle_ctx_of_aborted c (f := f) (by rw [hctx]; rfl)
    (by rw [hctx]; simp [Context.stopIssue, hflights]) (by rw [hctx]; exact hlatched)
    ((hkeeps.ringRoom (by rw [hctx]; rfl) (by rw [hctx]; rfl)).trans hroom)
  exact ⟨hnone, hlast, hst, hreason.trans (by rw [hctx]; rfl)⟩

end Abort

/-! ## ABORT_CONTEXTS (R37, R515) -/

/-- Context `c` is aborted where the mask of ABORT_CONTEXTS names it. -/
def State.abortMasked (p : List Byte) (s : State) (c : Nat) : State := if bit (le p (c / 8) 1) (c % 8) then s.abortCtx c .abort else s

section Masked
variable {p : List Byte}

theorem State.abortMasked_ctx_ne (s : State) {c d : Nat} (hd : d ≠ c) : (s.abortMasked p c).ctx d = s.ctx d := by
  unfold abortMasked
  split
  · exact s.abortCtx_ctx_ne c .abort hd
  · rfl

theorem State.abortMasked_of_unmasked (s : State) {c : Nat} (h : bit (le p (c / 8) 1) (c % 8) = false) : s.abortMasked p c = s := by
  simp [abortMasked, h]

theorem State.abortMasked_of_masked (s : State) {c : Nat} (h : bit (le p (c / 8) 1) (c % 8) = true) :
    s.abortMasked p c = s.abortCtx c .abort := by
  simp [abortMasked, h]

/-- A context outside the list, or outside the mask, stays as it is. -/
theorem State.abortList_ctx_of_unmasked (l : List Nat) (s : State) {d : Nat} (h : d ∈ l → bit (le p (d / 8) 1) (d % 8) = false) :
    (overList (abortMasked p) l s).ctx d = s.ctx d := by
  induction l generalizing s with
  | nil => rfl
  | cons c l ih =>
    refine (ih _ fun hd => h (List.mem_cons_of_mem _ hd)).trans ?_
    by_cases hc : d = c
    · rw [s.abortMasked_of_unmasked (hc ▸ h (hc ▸ List.mem_cons_self ..))]
    · exact s.abortMasked_ctx_ne hc

/-- A context of the mask is aborted in a state that has it as the first did, whatever else the list has aborted before. -/
theorem State.abortList_ctx_of_masked (l : List Nat) (hl : l.Nodup) (s : State) {d : Nat} (hd : d ∈ l)
    (hmask : bit (le p (d / 8) 1) (d % 8) = true) :
    ∃ u : State, u.ctx d = s.ctx d ∧ (overList (abortMasked p) l s).ctx d = (u.abortCtx d .abort).ctx d := by
  induction l generalizing s with
  | nil => cases hd
  | cons c l ih =>
    obtain ⟨hc, hl⟩ := List.nodup_cons.mp hl
    obtain rfl | hd := List.mem_cons.mp hd
    · exact ⟨s, rfl, (abortList_ctx_of_unmasked l _ fun h => absurd h hc).trans (by rw [s.abortMasked_of_masked hmask])⟩
    · obtain ⟨u, hu, hctx⟩ := ih hl (s.abortMasked p c) hd
      exact ⟨u, hu.trans (s.abortMasked_ctx_ne fun h : d = c => hc (h ▸ hd)), hctx⟩

theorem State.abortList_cellar (l : List Nat) (hl : l.Nodup) (s : State)
    (hflights : ∀ c ∈ l, bit (le p (c / 8) 1) (c % 8) = true → (s.ctx c).flights = []) : (overList (abortMasked p) l s).cellar = s.cellar := by
  induction l generalizing s with
  | nil => rfl
  | cons c l ih =>
    obtain ⟨hc, hl⟩ := List.nodup_cons.mp hl
    obtain ⟨hflights_c, hflights⟩ := List.forall_mem_cons.mp hflights
    have hhead : (s.abortMasked p c).cellar = s.cellar := by
      unfold abortMasked
      split
      next hmask => exact s.abortCtx_cellar c .abort (hflights_c hmask)
      next => rfl
    refine (ih hl _ fun d hd hmask => ?_).trans hhead
    rw [s.abortMasked_ctx_ne fun h : d = c => hc (h ▸ hd)]
    exact hflights d hd hmask

/-- A mask that names one context of the list aborts that one. -/
theorem State.abortList_of_single (l : List Nat) (hl : l.Nodup) (s : State) {c : Nat} (hc : c ∈ l)
    (hmask : ∀ d ∈ l, bit (le p (d / 8) 1) (d % 8) = true ↔ d = c) : overList (abortMasked p) l s = s.abortCtx c .abort := by
  have hnone (l : List Nat) (u : State) (h : ∀ d ∈ l, bit (le p (d / 8) 1) (d % 8) = false) : overList (abortMasked p) l u = u := by
    induction l with
    | nil => rfl
    | cons d l ih =>
      obtain ⟨hd, h⟩ := List.forall_mem_cons.mp h
      exact (congrArg (overList _ l) (u.abortMasked_of_unmasked hd)).trans (ih h)
  induction l with
  | nil => cases hc
  | cons d l ih =>
    obtain ⟨hdl, hl⟩ := List.nodup_cons.mp hl
    obtain ⟨hmask_d, hmask⟩ := List.forall_mem_cons.mp hmask
    by_cases hd : d = c
    · subst hd
      refine (congrArg (overList _ l) (s.abortMasked_of_masked (hmask_d.mpr rfl))).trans (hnone l _ fun e he => ?_)
      exact Bool.eq_false_iff.mpr fun hbit => hdl ((hmask e he).mp hbit ▸ he)
    · refine (congrArg (overList _ l) (s.abortMasked_of_unmasked (Bool.eq_false_iff.mpr fun hbit => hd (hmask_d.mp hbit)))).trans ?_
      exact ih hl ((List.mem_cons.mp hc).resolve_left (Ne.symm hd)) hmask

end Masked

section Command
variable {s : State} {sess : Option Nat} {p : List Byte}

theorem exec_abortContexts (tag : BitVec 16) (h : MgmtReady s sess) (hlen : p.length = 32) :
    exec (.abortContexts sess tag p) s =
      .next ((overList (State.abortMasked p) (List.range 256) (s.admitted sess)).respond 0x29 tag 0 0 []) :=
  congrArg Host.Outcome.next (State.readyCommand_of_ready h (by simp [hlen]) rfl)

theorem abortContexts_unmasked (sess : Option Nat) {d : Nat} (hd : d < 256 → bit (le p (d / 8) 1) (d % 8) = false) :
    (overList (State.abortMasked p) (List.range 256) (s.admitted sess)).ctx d = s.ctx d :=
  (State.abortList_ctx_of_unmasked _ _ fun h => hd (List.mem_range.mp h)).trans (s.admitted_ctx sess d)

theorem abortContexts_others (tag : BitVec 16) (h : MgmtReady s sess) (hlen : p.length = 32) :
    ∃ t, exec (.abortContexts sess tag p) s = .next t ∧ Answered t 0x29 tag 0 0 [] ∧
      (∀ c, (c < 256 → bit (le p (c / 8) 1) (c % 8) = false) → t.ctx c = s.ctx c) := by
  refine ⟨_, exec_abortContexts tag h hlen, .respond _ _ _ _ _ _, fun c hc => ?_⟩
  rw [State.respond_ctx, abortContexts_unmasked sess hc]

theorem abortContexts_idle (tag : BitVec 16) (h : MgmtReady s sess) (hlen : p.length = 32)
    (hflights : ∀ c, c < 256 → bit (le p (c / 8) 1) (c % 8) = true → (s.ctx c).flights = []) :
    ∃ t, exec (.abortContexts sess tag p) s = .next t ∧ Answered t 0x29 tag 0 0 [] ∧ t.cellar = s.cellar ∧
      (∀ c, c < 256 → bit (le p (c / 8) 1) (c % 8) = true → (s.ctx c).latched = none →
        ((s.ctx c).state = .running ∨ (s.ctx c).state = .waiting) → (t.ctx c).state = .stopped ∧ (t.ctx c).stopReason = .abort) ∧
      (∀ c, (c < 256 → bit (le p (c / 8) 1) (c % 8) = false) → t.ctx c = s.ctx c) := by
  refine ⟨_, exec_abortContexts tag h hlen, .respond _ _ _ _ _ _, ?_, fun c hc hmask hlatched hrun => ?_,
    fun c hc => ?_⟩
  · rw [State.respond_cellar]
    refine (State.abortList_cellar _ List.nodup_range _ fun c hc hmask => ?_).trans (s.admitted_cellar sess)
    rw [s.admitted_ctx]
    exact hflights c (List.mem_range.mp hc) hmask
  · obtain ⟨u, hu, hctx⟩ := State.abortList_ctx_of_masked _ List.nodup_range (s.admitted sess) (List.mem_range.mpr hc) hmask
    rw [s.admitted_ctx] at hu
    rw [State.respond_ctx, hctx]
    exact u.abortCtx_stops c .abort (by simpa [hu, Context.live] using hrun) (hu ▸ hflights c hc hmask) (hu ▸ hlatched)
  · rw [State.respond_ctx, abortContexts_unmasked sess hc]

theorem abortContexts_inFlight (tag : BitVec 16) (h : MgmtReady s sess) (hlen : p.length = 32) {c : Nat} {f : Flight} (hc : c < 256)
    (hmask : ∀ d, d < 256 → (bit (le p (d / 8) 1) (d % 8) = true ↔ d = c)) (hflights : (s.ctx c).flights = [f])
    (hlive : (s.ctx c).live = true) (hlatched : (s.ctx c).latched = none) (hroom : s.ringRoom c = true) :
    ∃ t, exec (.abortContexts sess tag p) s = .next t ∧ Answered t 0x29 tag 0 0 [] ∧ (t.ctx c).flights = [] ∧
      (t.ctx c).lastStatus = 0x40 ∧ (t.ctx c).state = .stopped ∧ (t.ctx c).stopReason = .abort := by
  refine ⟨_, exec_abortContexts tag h hlen, .respond _ _ _ _ _ _, ?_⟩
  rw [State.respond_ctx, State.abortList_of_single _ List.nodup_range _ (List.mem_range.mpr hc) fun d hd => hmask d (List.mem_range.mp hd)]
  have hroom' : (s.admitted sess).ringRoom c = true := by
    refine (AbortKeeps.ringRoom (s := s) ⟨fun d _ => s.admitted_ctx sess d, s.admitted_config sess, s.admitted_suites sess, fun i => ?_⟩ ?_ ?_).trans
      hroom
    · rw [s.admitted_host]
    · rw [s.admitted_ctx]
    · rw [s.admitted_ctx]
  have hctx := s.admitted_ctx sess c
  exact (s.admitted sess).abortCtx_completes c .abort (by rw [hctx, hlive]) (by rw [hctx, hflights]) (by rw [hctx, hlatched]) hroom'

end Command

/-- Settles O40: ABORT_CONTEXTS is a run over the contexts of its mask, each of which drains alone; the other commands answer as their checks
give. -/
theorem abortsCountersAndCensus : Obligations.AbortsCountersAndCensus := by
  intro s sess tag p h
  refine ⟨abortContexts_others tag h, abortContexts_idle tag h, fun c f hlen hc hmask hflights hlive hlatched hroom =>
    abortContexts_inFlight tag h hlen hc hmask hflights hlive hlatched hroom, clearCounters_free tag h, clearCounters_busy tag h,
    censusStart_begun tag h, censusStart_busy tag h, censusRead_known tag h, fun hlen hz hknown => ⟨fun hruns => ?_, fun hruns => ?_⟩,
    censusCommit_busy tag h, censusCommit_accepted tag h, censusCommit_refused tag h⟩
  · exact censusRead_running tag h hlen hz (by simpa using hknown) (by simpa [and_assoc] using hruns)
  · exact censusRead_unknown tag h hlen (by simpa using hknown) (by simpa [and_assoc] using hruns)

end Sys2Proof.Machine
end

section
/-! What the work of Figures, ports and host links leaves as it was: the hall count, the flash, the start-up state, the die, the watchdog, the halt
and every byte of the Cellar. The tick (O56), RESUME (O39) and the entry into Banked (O10) rest on it. -/

namespace Sys2Proof.Machine

/-- What stands while contexts settle, ports go down and host links are lost. -/
structure Standing where
  hall : Word64
  flash : Flash
  startup : Startup
  thermal : Thermal
  wd : Watchdog
  halt : Halt
  mem : List Host.Cell

def State.standing (s : State) : Standing := ⟨s.hall, s.flash, s.hearth.startup, s.thermal, s.wd, s.halt, s.cellar.mem⟩

/-- What no step over a list moves, the list does not move. -/
theorem overList_standing {α : Type} {f : State → α → State} (hf : ∀ s x, (f s x).standing = s.standing) (l : List α) (s : State) :
    (overList f l s).standing = s.standing := overList_frame State.standing hf l s

/-! ## Numbered units, records, events and writes toward a host -/

section Units
variable (s : State)

@[simp] theorem State.putCtx_standing (n : Nat) (x : Context) : (s.putCtx n x).standing = s.standing := rfl
@[simp] theorem State.putHost_standing (n : Nat) (x : HostPort) : (s.putHost n x).standing = s.standing := rfl
@[simp] theorem State.putPort_standing (n : Nat) (x : FabPort) : (s.putPort n x).standing = s.standing := rfl
@[simp] theorem State.putSuite_standing (n : Nat) (x : Suite) : (s.putSuite n x).standing = s.standing := rfl
@[simp] theorem State.putGrp_standing (n : Nat) (x : Group) : (s.putGrp n x).standing = s.standing := rfl
@[simp] theorem State.modBell_standing (off : Nat) (f : BellRec → BellRec) : (s.modBell off f).standing = s.standing := rfl
@[simp] theorem State.draw_standing : s.draw.2.standing = s.standing := rfl
@[simp] theorem State.queueFlow_standing (p flow kind : Nat) (b : List Byte) : (s.queueFlow p flow kind b).standing = s.standing := rfl

@[simp] theorem State.queue_standing (p vc kind : Nat) (b : List Byte) : (s.queue p vc kind b).standing = s.standing := by
  unfold queue
  split <;> rfl

@[simp] theorem State.sendCtl_standing (p type : Nat) (l : List (Nat × Nat × Nat)) : (s.sendCtl p type l).standing = s.standing :=
  s.sendCtl_frame State.standing putPort_standing p type l

@[simp] theorem State.wake_standing : s.wake.standing = s.standing := by
  obtain ⟨pw, h⟩ := s.wake_eq
  rw [h]
  rfl

@[simp] theorem State.record_standing (a : RecArgs) : (s.record a).standing = s.standing := by
  unfold record
  split
  · rfl
  · split <;> rfl

@[simp] theorem State.post_standing (h : Nat) (w : HostWrite) : (s.post h w).standing = s.standing := by
  unfold post
  dsimp only
  split <;> rfl

@[simp] theorem State.msix_standing (h v : Nat) : (s.msix h v).standing = s.standing := by
  unfold msix
  dsimp only
  split
  · split <;> rfl
  · split
    · rfl
    · exact s.post_standing _ _

@[simp] theorem State.ctxVector_standing (c : Nat) : (s.ctxVector c).standing = s.standing := s.msix_standing _ _

@[simp] theorem State.progressIn_standing (i : Option Nat) : (s.progressIn i).standing = s.standing := by
  cases i <;> rfl

@[simp] theorem State.countTarget_standing (part : Nat) : (s.countTarget part).standing = s.standing := by
  unfold countTarget
  split <;> rfl

@[simp] theorem State.countService_standing (st d : Nat) : (s.countService st d).standing = s.standing := by
  unfold countService
  split
  · exact s.countTarget_standing d
  · rfl

@[simp] theorem State.acceptAll_standing (q : Accepted → Bool) (status detail : Nat) : (s.acceptAll q status detail).standing = s.standing :=
  s.acceptAll_frame State.standing (fun _ _ => rfl) q status detail

end Units

/-! ## A flight ends (R117-R131, R160, R161) -/

section Flights
variable (s : State) (c : Nat)

@[simp] theorem State.clearWaiter_standing (k : FlightKind) : (s.clearWaiter c k).standing = s.standing := by
  unfold clearWaiter
  split <;> rfl

@[simp] theorem State.dropReads_standing (fid : Nat) : (s.dropReads c fid).standing = s.standing := rfl
@[simp] theorem State.dropWrites_standing (fid : Nat) : (s.dropWrites c fid).standing = s.standing := rfl

@[simp] theorem State.dropWire_standing (f : Flight) : (s.dropWire c f).standing = s.standing := by
  unfold dropWire
  dsimp only
  split <;> rfl

@[simp] theorem State.freeFlight_standing (f : Flight) : (s.freeFlight c f).standing = s.standing := by
  have hdrops : ((((s.clearWaiter c f.kind).dropReads c f.fid).dropWrites c f.fid).dropWire c f).standing = s.standing := by simp
  exact hdrops

@[simp] theorem State.endFlight_standing (fid : Nat) (d : Done) : (s.endFlight c fid d).standing = s.standing := by
  unfold endFlight
  split
  · split
    · rfl
    · simp
  · rfl

@[simp] theorem State.tellPeers_standing (f : Flight) (status : Nat) : (s.tellPeers f status).standing = s.standing :=
  s.tellPeers_frame State.standing putPort_standing putGrp_standing f status

@[simp] theorem State.failFlight_standing (fid : Nat) (d : Done) : (s.failFlight c fid d).standing = s.standing := by
  unfold failFlight
  split
  · split
    · rfl
    · simp
  · rfl

@[simp] theorem State.failWhere_standing (q : Nat → Flight → Bool) (status detail : Nat) : (s.failWhere q status detail).standing = s.standing := by
  refine overList_standing (fun u c => overList_standing (fun u f => ?_) _ u) _ s
  split
  · exact u.failFlight_standing c _ _
  · rfl

@[simp] theorem State.writeEntry_standing (f : Flight) (d : Done) : (s.writeEntry c f d).standing = s.standing := by
  unfold writeEntry
  dsimp only
  split
  · simp
  · rfl

@[simp] theorem State.statusRecord_standing (f : Flight) (d : Done) : (s.statusRecord c f d).standing = s.standing := by
  unfold statusRecord
  dsimp only
  split
  · exact s.record_standing _
  split
  · exact s.record_standing _
  split
  · exact s.record_standing _
  · rfl

@[simp] theorem State.failGroup_standing (f : Flight) : (s.failGroup c f).standing = s.standing := by
  unfold failGroup
  split
  · rfl
  · refine overList_standing (fun u y => ?_) _ s
    rw [modCtx_eq, putCtx_standing]
    split
    · rfl
    · exact u.freeFlight_standing c y

@[simp] theorem State.delivered_standing (f : Flight) (d : Done) : (s.delivered c f d).standing = s.standing := by
  unfold delivered
  have hentry : (if f.takesEntry d then s.writeEntry c f d else s).standing = s.standing := by
    split
    · exact s.writeEntry_standing c f d
    · rfl
  have hvector (u : State) : (if f.irq then u.ctxVector c else u).standing = u.standing := by
    split
    · exact u.ctxVector_standing c
    · rfl
  dsimp only
  split
  · rw [statusRecord_standing, hvector, hentry]
  · rw [failGroup_standing, statusRecord_standing, hvector, hentry]

@[simp] theorem State.complete_standing (f : Flight) (d : Done) : (s.complete c f d).standing = s.standing := by
  rw [complete_eq]
  simp

end Flights

theorem retire_standing (c n : Nat) (s : State) : (retire c n s).standing = s.standing := by
  induction n generalizing s with
  | zero => rfl
  | succ n ih =>
    rw [retire]
    split
    · rw [ih, State.complete_standing]
    · rfl

/-! ## Rings, and a context that settles (R137, R156, R179, R187) -/

section Settle
variable (s : State) (c : Nat)

@[simp] theorem State.drainEnd_standing : (s.drainEnd c).standing = s.standing := by
  obtain h | ⟨x, -, h | h | h⟩ := s.drainEnd_cases c <;> simp [h]

@[simp] theorem State.refresh_standing : (s.refresh c).standing = s.standing := by
  obtain h | ⟨st, h⟩ := s.refresh_eq c <;> simp [h]

@[simp] theorem State.settleFlights_standing : (s.settleFlights c).standing = s.standing := by
  rw [settleFlights, refresh_standing, drainEnd_standing, retire_standing]

@[simp] theorem State.ringLocal_standing (id : Nat) (add : Bool) (v : Word64) : (s.ringLocal c id add v).2.standing = s.standing := by
  simp [ringLocal]

@[simp] theorem State.ringRecord_standing (off : Nat) (add : Bool) (v : Word64) (eng ctx fig : Nat) :
    (s.ringRecord off add v eng ctx fig).2.standing = s.standing := by
  simp [ringRecord]

@[simp] theorem State.takeBell_standing (b : BellRef) (result : Nat) : (s.takeBell c b result).standing = s.standing := by
  cases b <;> simp [takeBell]

@[simp] theorem State.wakeBell_standing (b : BellRef) : (s.wakeBell c b).standing = s.standing := by
  have hwaits (st : Bool × Word64) (ws : List Nat) (u : State) : (overList (fun s w =>
      overList (fun s f => if f.waitMet b st.1 st.2 then s.endFlight w f.fid { status := 0 } else s) (s.ctx w).flights s) ws u).standing =
      u.standing := by
    refine overList_standing (fun u w => overList_standing (fun u f => ?_) _ u) _ u
    split
    · exact u.endFlight_standing w _ _
    · rfl
  unfold wakeBell
  dsimp only
  rw [overList_standing (fun u w => u.settleFlights_standing w)]
  split
  · split
    · rw [endFlight_standing, takeBell_standing, hwaits]
    · exact hwaits _ _ s
  · exact hwaits _ _ s

@[simp] theorem State.ringGo_standing (f : Flight) : (s.ringGo c f).standing = s.standing := by
  unfold ringGo
  split
  · split
    · rfl
    · split
      · simp
      · dsimp only
        split
        · rw [endFlight_standing, countService_standing]
          split
          · exact s.record_standing _
          · rfl
        · simp
      · split
        · rfl
        · simp
  · rfl

@[simp] theorem State.ringsGo_standing : (s.ringsGo c).standing = s.standing := overList_standing (fun u f => u.ringGo_standing c f) _ s

@[simp] theorem State.settle_standing : (s.settle c).standing = s.standing := by simp [settle]

@[simp] theorem State.settleAll_standing : s.settleAll.standing = s.standing := overList_standing (fun u c => u.settle_standing c) _ s

@[simp] theorem State.ringAnswered_standing (f : Flight) : (s.ringAnswered c f).standing = s.standing := by
  unfold ringAnswered
  split
  · split
    · rfl
    · dsimp only
      split <;> simp
  · rfl

@[simp] theorem State.ringsAnswered_standing : s.ringsAnswered.standing = s.standing :=
  overList_standing (fun u c => overList_standing (fun u f => u.ringAnswered_standing c f) _ u) _ s

end Settle

/-! ## Ports that go down, and host links that are lost (R35, R390, R409) -/

section Links
variable (s : State)

@[simp] theorem State.routesLost_standing (p : Nat) : (s.routesLost p).standing = s.standing := by
  unfold routesLost
  dsimp only
  rw [settleAll_standing, overList_standing, failWhere_standing]
  intro u c
  split <;> rfl

@[simp] theorem State.sendMarker_standing (p : Nat) (o : OutChunk) : (s.sendMarker p o).standing = s.standing := by
  simp [sendMarker]

@[simp] theorem State.retractOut_standing (n : Nat) : (s.retractOut n).standing = s.standing := by
  unfold retractOut
  split
  · rfl
  · split
    · rfl
    · extract_lets u
      have hu : u.standing = s.standing := by
        unfold u
        split
        · exact s.sendMarker_standing _ _
        · rfl
      split
      · exact hu
      · exact hu

@[simp] theorem State.loseRings_standing (n : ChunkName) : (s.loseRings n).standing = s.standing := rfl

@[simp] theorem State.dropLane_standing (l : Lane) : (s.dropLane l).standing = s.standing :=
  overList_standing State.retractOut_standing _ _

@[simp] theorem State.syncPick_standing : s.syncPick.standing = s.standing := by
  unfold syncPick
  split
  · rfl
  · split
    · rfl
    · split <;> rfl

@[simp] theorem State.syncPortDown_standing (p : Nat) : (s.syncPortDown p).standing = s.standing := syncPick_standing _

@[simp] theorem State.censusReply_standing : s.censusReply.standing = s.standing := by
  unfold censusReply
  dsimp only
  split
  · rfl
  · refine overList_standing (fun u f => ?_) _ _
    split
    · exact u.queue_standing _ _ _ f
    · rfl

@[simp] theorem State.censusTry_standing : s.censusTry.standing = s.standing := by
  unfold censusTry
  split
  · exact s.censusReply_standing
  · rfl

@[simp] theorem State.commitTry_standing : s.commitTry.standing = s.standing :=
  s.commitTry_frame State.standing acceptAll_standing sendCtl_standing fun _ _ => rfl

@[simp] theorem State.censusPortDown_standing (p : Nat) : (s.censusPortDown p).standing = s.standing :=
  (commitTry_standing _).trans (censusTry_standing _)

@[simp] theorem State.leaveUp_standing (p : Nat) (tgt : PortState) : (s.leaveUp p tgt).standing = s.standing := by
  have hlanes (l : List Lane) (u : State) : (overList (fun s l => (s.loseRings l.name).dropLane l) l u).standing = u.standing :=
    overList_standing (fun u l => (dropLane_standing _ l).trans (u.loseRings_standing _)) l u
  have houts (u : State) (l : List OutChunk) : ({ u with outs := l } : State).standing = u.standing := rfl
  unfold leaveUp leaveUpAs
  dsimp only
  rw [censusPortDown_standing, houts, syncPortDown_standing, routesLost_standing, hlanes]
  rfl

@[simp] theorem State.linkLost_standing (h : Nat) (tgt : HostState) (status detail : Nat) :
    (s.linkLost h tgt status detail).standing = s.standing := by
  unfold linkLost
  dsimp only
  rw [settleAll_standing, modHost_eq, putHost_standing, failWhere_standing]
  rfl

end Links

end Sys2Proof.Machine
end

section
/-! Settling O39: POWER's four actions (R47, R48, R50) and RESUME (R452, R461, R549), on an engine whose fabric manager has a session. -/

namespace Sys2Proof.Machine

/-! ## A command that does not need Ready reaches its own effect (R506, R511, R513) -/

section Session
variable {s : State} {sess : Option Nat}

/-- What the sessions do not hold, the use of one leaves. -/
theorem State.sessionUsed_frame {β : Type} (p : State → β) (s : State) (sess : Option Nat)
    (hp : ∀ l, p { s with mgmt := { s.mgmt with sessions := l } } = p s) : p (s.sessionUsed sess) = p s := by
  obtain ⟨l, h⟩ := s.sessionUsed_eq sess
  rw [h]
  exact hp l

@[simp] theorem State.sessionUsed_hearth : (s.sessionUsed sess).hearth = s.hearth := s.sessionUsed_frame State.hearth sess fun _ => rfl
@[simp] theorem State.sessionUsed_halt : (s.sessionUsed sess).halt = s.halt := s.sessionUsed_frame State.halt sess fun _ => rfl
@[simp] theorem State.sessionUsed_cellar : (s.sessionUsed sess).cellar = s.cellar := s.sessionUsed_frame State.cellar sess fun _ => rfl
@[simp] theorem State.sessionUsed_ctxs : (s.sessionUsed sess).ctxs = s.ctxs := s.sessionUsed_frame State.ctxs sess fun _ => rfl
@[simp] theorem State.sessionUsed_isReady : (s.sessionUsed sess).isReady = s.isReady := s.sessionUsed_frame State.isReady sess fun _ => rfl
@[simp] theorem State.sessionUsed_bankBlocker : (s.sessionUsed sess).bankBlocker = s.bankBlocker :=
  s.sessionUsed_frame State.bankBlocker sess fun _ => rfl

theorem State.command_of_session {tag : BitVec 16} {code : Nat} {free lenOk : Bool} {fields : List (Bool × Nat)} {f : State → State}
    (hon : s.mgmtOn = true) (hsess : s.fmSession sess = true) (hlen : lenOk = true) (hfields : fields.find? (fun x => x.1) = none) :
    s.command sess tag code free false lenOk fields f = f (s.sessionUsed sess) := by
  have hsess' : (s.sessionUsed sess).fmSession sess = true := (s.fmSession_sessionUsed sess).trans hsess
  simp [command, hon, hsess', hlen, hfields]

end Session

/-! ## POWER (R47, R48, R50) -/

section Power
variable {s : State} {sess : Option Nat} {p : List Byte}

theorem State.powerCommand_of_action {tag : BitVec 16} {action : Nat} {f : State → State} (hon : s.mgmtOn = true)
    (hsess : s.fmSession sess = true) (hlen : p.length = 4) (hz : allZero p 1 3 = true) (ha : le p 0 1 = action) :
    s.powerCommand sess tag p action f = f (s.sessionUsed sess) := by
  subst ha
  unfold powerCommand
  rw [if_neg (by simp)]
  exact command_of_session hon hsess (by simp [hlen]) (by simp [nonzero, hz])

theorem State.wake_hearth (s : State) :
    s.wake.hearth = { s.hearth with power := if s.hearth.power = .doze then .dozeWaking else s.hearth.power } := by
  unfold wake
  split <;> rfl

section Action
variable (tag : BitVec 16) (hon : s.mgmtOn = true) (hsess : s.fmSession sess = true) (hlen : p.length = 4) (hz : allZero p 1 3 = true)
include hon hsess hlen hz

theorem powerBank_accepted (ha : le p 0 1 = 1) (hready : s.isReady = true) (hfree : s.bankBlocker = none) :
    ∃ t, exec (.powerBank sess tag p) s = .next t ∧ Answered t 0x08 tag 0x01 0 [] ∧ t.hearth = { s.hearth with power := .banking } ∧
      t.cellar = s.cellar ∧ t.ctxs = s.ctxs := by
  refine ⟨_, congrArg Host.Outcome.next (State.powerCommand_of_action hon hsess hlen hz ha), ?_⟩
  simp only [State.sessionUsed_isReady, hready, State.sessionUsed_bankBlocker, hfree, Bool.not_true, Bool.false_eq_true, if_false]
  exact ⟨rfl, by simp [State.accept, State.respond], State.sessionUsed_cellar, State.sessionUsed_ctxs⟩

theorem powerBank_blocked {d : Nat} (ha : le p 0 1 = 1) (hready : s.isReady = true) (hblocked : s.bankBlocker = some d) :
    ∃ t, exec (.powerBank sess tag p) s = .next t ∧ Answered t 0x08 tag 0x20 d [] ∧ t.hearth = s.hearth := by
  refine ⟨_, congrArg Host.Outcome.next (State.powerCommand_of_action hon hsess hlen hz ha), ?_⟩
  simp only [State.sessionUsed_isReady, hready, State.sessionUsed_bankBlocker, hblocked, Bool.not_true, Bool.false_eq_true, if_false]
  exact ⟨.respond _ _ _ _ _ _, State.sessionUsed_hearth⟩

theorem powerBank_notReady (ha : le p 0 1 = 1) (hready : s.isReady = false) :
    ∃ t, exec (.powerBank sess tag p) s = .next t ∧
      Answered t 0x08 tag 0x21 (if s.hearth.startup = .ready then s.hearth.power.code else s.hearth.startup.code) [] ∧
      t.hearth = s.hearth := by
  refine ⟨_, congrArg Host.Outcome.next (State.powerCommand_of_action hon hsess hlen hz ha), ?_⟩
  simp only [State.sessionUsed_isReady, hready, State.sessionUsed_hearth, Bool.not_false, if_true, beq_iff_eq]
  exact ⟨.respond _ _ _ _ _ _, State.sessionUsed_hearth⟩

/-- The engine starts up again from Scrubbing; a halt that Banked has kept leads to Halted at start (R50). -/
theorem powerUnbank_accepted (ha : le p 0 1 = 2) (hbanked : s.hearth.power = .banked) :
    ∃ t, exec (.powerUnbank sess tag p) s = .next t ∧ Answered t 0x08 tag 0x01 0 [] ∧
      t.hearth = { s.hearth with power := .active, startup := .scrubbing, exempt56 := true } ∧
      (t.halt.atStart = true ↔ s.halt.atStart = true ∨ s.halt.state ≠ .running) ∧ t.halt.state = s.halt.state := by
  refine ⟨_, congrArg Host.Outcome.next (State.powerCommand_of_action hon hsess hlen hz ha), ?_⟩
  simp only [State.sessionUsed_hearth, State.sessionUsed_halt, hbanked, bne_self_eq_false, Bool.false_eq_true, if_false]
  exact ⟨rfl, rfl, by simp [State.accept, State.respond], rfl⟩

theorem powerUnbank_refused (ha : le p 0 1 = 2) (hpower : s.hearth.power ≠ .banked) :
    ∃ t, exec (.powerUnbank sess tag p) s = .next t ∧ Answered t 0x08 tag 0x21 s.hearth.power.code [] ∧ t.hearth = s.hearth := by
  refine ⟨_, congrArg Host.Outcome.next (State.powerCommand_of_action hon hsess hlen hz ha), ?_⟩
  rw [State.sessionUsed_hearth, if_pos (by simpa using hpower)]
  exact ⟨.respond _ _ _ _ _ _, State.sessionUsed_hearth⟩

theorem powerHoldOn_answered (ha : le p 0 1 = 3) : ∃ t, exec (.powerHoldOn sess tag p) s = .next t ∧ Answered t 0x08 tag 0 0 [] ∧
    t.hearth = { s.hearth with mgmtHold := true, power := if s.hearth.power = .doze then .dozeWaking else s.hearth.power } := by
  refine ⟨_, congrArg Host.Outcome.next (State.powerCommand_of_action hon hsess hlen hz ha), .respond _ _ _ _ _ _, ?_⟩
  refine (State.wake_hearth _).trans ?_
  simp only [State.sessionUsed_hearth]

theorem powerHoldOff_answered (ha : le p 0 1 = 4) : ∃ t, exec (.powerHoldOff sess tag p) s = .next t ∧ Answered t 0x08 tag 0 0 [] ∧
    t.hearth = { s.hearth with mgmtHold := false } := by
  refine ⟨_, congrArg Host.Outcome.next (State.powerCommand_of_action hon hsess hlen hz ha), .respond _ _ _ _ _ _, ?_⟩
  exact congrArg (fun h : Hearth => { h with mgmtHold := false }) State.sessionUsed_hearth

end Action

end Power

/-! ## RESUME (R452, R461, R549) -/

section Resume
variable (s : State) (sess : Option Nat)

@[simp] theorem State.admitted_halt : (s.admitted sess).halt = s.halt := s.admitted_frame State.halt sess fun _ _ => rfl
@[simp] theorem State.admitted_wd : (s.admitted sess).wd = s.wd := s.admitted_frame State.wd sess fun _ _ => rfl
@[simp] theorem State.admitted_startup : (s.admitted sess).hearth.startup = s.hearth.startup :=
  s.admitted_frame (fun u => u.hearth.startup) sess fun _ _ => rfl
@[simp] theorem State.admitted_resumable : (s.admitted sess).resumable = s.resumable := s.admitted_frame State.resumable sess fun _ _ => rfl
@[simp] theorem State.admitted_resumeDetail : (s.admitted sess).resumeDetail = s.resumeDetail :=
  s.admitted_frame State.resumeDetail sess fun _ _ => rfl

/-- A Doze that ends leaves the engine as Ready as it was (R42). -/
@[simp] theorem State.admitted_isReady : (s.admitted sess).isReady = s.isReady := by
  have hwake (u : State) : u.wake.isReady = u.isReady := by
    unfold wake
    split
    next h =>
      simp only [isReady, h]
      rfl
    · rfl
  rw [admitted, hwake, sessionUsed_isReady]

theorem State.startup_of_isReady {s : State} (h : s.isReady = true) : s.hearth.startup = .ready := by
  simp only [isReady, Bool.and_eq_true, beq_iff_eq] at h
  exact h.1.1

theorem State.resumable_iff : s.resumable = true ↔ s.halt.state = .halted ∧ s.halt.assertedA = false ∧ s.halt.assertedB = false ∧
    s.wd.state ≠ .fenced ∧ (s.thermal.thermalHalt = false ∨ s.thermal.tj < 380) := by
  simp only [resumable, isHalted, tooHot, Bool.and_eq_true, Bool.not_eq_true', beq_iff_eq, bne_iff_ne, Bool.and_eq_false_iff,
    decide_eq_false_iff_not, not_le, and_assoc]

theorem State.resumeDetail_eq : s.resumeDetail = s.halt.state.code + s.wd.state.code * 2 ^ 8 + s.hearth.startup.code * 2 ^ 16 +
    (if s.halt.state = .halted ∧ s.thermal.thermalHalt = true ∧ 380 ≤ s.thermal.tj then 2 ^ 24 else 0) := by
  simp only [resumeDetail, isHalted, tooHot, Bool.and_eq_true, beq_iff_eq, decide_eq_true_eq]

/-- The halt is over, and its inputs are as they were (R452, R461, R549). -/
def State.resuming : State :=
  { s with wd := s.wd.cleared, halt := { s.halt with state := .resuming, atStart := false }, thermal := { s.thermal with thermalHalt := false } }

/-- Ports and host blocks that train again are all that changes when the links come back (R461). -/
theorem State.trainAgain_standing : s.trainAgain.standing = s.standing := by
  unfold trainAgain
  dsimp only
  rw [overList_standing, overList_standing]
  · intro u i
    split
    · rfl
    · rfl
  · intro u h
    split
    · rfl
    · rfl

theorem State.resumeHalted_standing (h : s.hearth.startup ≠ .haltedAtStart) : s.resumeHalted.standing = s.resuming.standing := by
  have htrain : s.resumeHalted = s.resuming.trainAgain := if_neg h
  rw [htrain, trainAgain_standing]

theorem State.resumeHalted_atStart (h : s.hearth.startup = .haltedAtStart) :
    s.resumeHalted.hearth.startup = .training ∧ s.resumeHalted.halt = { s.halt with state := .resuming, atStart := false } := by
  have hbegin : s.resumeHalted = s.resuming.beginTraining := if_pos h
  rw [hbegin]
  exact ⟨beginTraining_frame (fun u => u.hearth.startup) (fun _ _ _ => rfl) (fun _ _ _ => rfl) _,
    beginTraining_frame State.halt putPort_halt putHost_halt _⟩

/-- What RESUME does to a state in which its session has been used and no Doze is left (R452, R461, R511). -/
def State.resumed (tag : BitVec 16) : State :=
  if !(s.isReady || s.hearth.startup == .haltedAtStart) then s.reply 0x32 tag 0x13 s.hearth.startup.code
  else if s.resumable then s.resumeHalted.accept 0x32 tag 0x0D [s.engineId] none []
  else if s.halt.state == .running && s.wd.state == .fencedClean then ({ s with wd := s.wd.cleared } : State).settleAll.ok 0x32 tag
  else s.reply 0x32 tag 0x21 s.resumeDetail

section Answers
variable {s sess} (tag : BitVec 16)

theorem exec_resume (hon : s.mgmtOn = true) (hsess : s.fmSession sess = true) :
    exec (.resume sess tag []) s = .next ((s.admitted sess).resumed tag) :=
  congrArg Host.Outcome.next (State.command_of_session hon hsess rfl rfl)

theorem State.resumed_of_notReady (hready : s.isReady = false) (hstart : s.hearth.startup ≠ .haltedAtStart) :
    s.resumed tag = s.reply 0x32 tag 0x13 s.hearth.startup.code := by
  simp [resumed, hready, hstart]

theorem State.resumed_of_halted (hstarted : s.isReady = true ∨ s.hearth.startup = .haltedAtStart) (hresumable : s.resumable = true) :
    s.resumed tag = s.resumeHalted.accept 0x32 tag 0x0D [s.engineId] none [] := by
  unfold resumed
  rw [if_neg (by rcases hstarted with h | h <;> simp [h]), if_pos hresumable]

theorem State.resumed_of_fencedClean (hready : s.isReady = true) (hhalt : s.halt.state = .running) (hwd : s.wd.state = .fencedClean) :
    s.resumed tag = ({ s with wd := s.wd.cleared } : State).settleAll.ok 0x32 tag := by
  have hno : s.resumable = false := by simp [resumable, isHalted, hhalt]
  simp [resumed, hready, hno, hhalt, hwd]

theorem State.resumed_of_refused (hready : s.isReady = true) (hno : s.resumable = false)
    (hrun : ¬ (s.halt.state = .running ∧ s.wd.state = .fencedClean)) : s.resumed tag = s.reply 0x32 tag 0x21 s.resumeDetail := by
  unfold resumed
  rw [if_neg (by simp [hready]), if_neg (by simp [hno]), if_neg (by simpa using hrun)]

end Answers

end Resume

/-- Settles O39: each action of POWER, and RESUME in each state that it can meet. -/
theorem powerAndResume : Obligations.PowerAndResume := by
  intro s sess tag hon hsess
  refine ⟨fun p hlen hz => ⟨?bank, ?blocked, ?unready, ?unbank, ?awake, ?holdOn, ?holdOff⟩, fun hready => ⟨?halted, ?fenced, ?refused⟩, ?atStart,
    ?notReady⟩
  case bank => exact powerBank_accepted tag hon hsess hlen hz
  case blocked => exact fun d => powerBank_blocked tag hon hsess hlen hz
  case unready => exact powerBank_notReady tag hon hsess hlen hz
  case unbank => exact powerUnbank_accepted tag hon hsess hlen hz
  case awake => exact powerUnbank_refused tag hon hsess hlen hz
  case holdOn => exact powerHoldOn_answered tag hon hsess hlen hz
  case holdOff => exact powerHoldOff_answered tag hon hsess hlen hz
  case halted =>
    intro hhalt hA hB hwd hcool
    have hstart : (s.admitted sess).hearth.startup ≠ .haltedAtStart := by
      simp [State.startup_of_isReady hready]
    have hstands := State.resumeHalted_standing _ hstart
    refine ⟨_, exec_resume tag hon hsess, ?_⟩
    rw [State.resumed_of_halted tag (.inl (by simpa using hready)) (by simpa [s.resumable_iff] using ⟨hhalt, hA, hB, hwd, hcool⟩)]
    refine ⟨rfl, ?_, ?_, ?_, ?_⟩
    · exact congrArg (fun x => x.halt.state) hstands
    · refine (congrArg (fun x => x.wd.state) hstands).trans ?_
      simp [State.standing, State.resuming, Watchdog.cleared]
    · exact congrArg (fun x => x.thermal.thermalHalt) hstands
    · exact (congrArg (fun x => x.startup) hstands).trans (s.admitted_startup sess)
  case fenced =>
    intro hhalt hwd
    refine ⟨_, exec_resume tag hon hsess, ?_⟩
    rw [State.resumed_of_fencedClean tag (by simpa using hready) (by simpa using hhalt) (by simpa using hwd)]
    refine ⟨.respond _ _ _ _ _ _, (congrArg (fun x => x.wd.state) (State.settleAll_standing _)).trans ?_⟩
    simp [State.standing, Watchdog.cleared, hwd]
  case refused =>
    intro hno hrun
    refine ⟨_, exec_resume tag hon hsess, ?_⟩
    rw [State.resumed_of_refused tag (by simpa using hready) (by simpa using hno) (by simpa using hrun), ← s.resumeDetail_eq]
    rw [s.admitted_resumeDetail]
    exact ⟨.respond _ _ _ _ _ _, s.admitted_halt sess, s.admitted_wd sess⟩
  case atStart =>
    intro hstart hresumable
    obtain ⟨htraining, hhalt⟩ := (s.admitted sess).resumeHalted_atStart (by simpa using hstart)
    refine ⟨_, exec_resume tag hon hsess, ?_⟩
    rw [State.resumed_of_halted tag (.inr (by simpa using hstart)) (by simpa using hresumable)]
    exact ⟨rfl, htraining, congrArg (fun x => x.state) hhalt, congrArg (fun x => x.atStart) hhalt⟩
  case notReady =>
    intro hready hstart
    refine ⟨_, exec_resume tag hon hsess, ?_⟩
    rw [State.resumed_of_notReady tag (by simpa using hready) (by simpa using hstart), s.admitted_startup]
    exact ⟨.respond _ _ _ _ _ _, s.admitted_halt sess, s.admitted_wd sess⟩

end Sys2Proof.Machine
end

section
/-! Settling O56: every command answers and leaves the queue behind it; with nothing queued one hall count passes (R40, R315). -/

namespace Sys2Proof.Machine

/-! ## Every command answers, and leaves the queue -/

/-- A command has answered a next state, with the queue behind it as it was. -/
def QueueOut (s : State) (o : Out) : Prop := ∃ t, o = .next t ∧ t.pending = s.pending

theorem QueueOut.next {s t : State} (h : t.pending = s.pending) : QueueOut s (.next t) := ⟨t, rfl, h⟩

theorem KeepsOut.queue {s : State} {o : Out} (h : KeepsOut s o) : QueueOut s o := by
  obtain ⟨t, rfl, hk⟩ := h
  exact .next hk.pending

/-- A choice between two answers. -/
theorem QueueOut.ite {s : State} {c : Prop} [Decidable c] {o u : Out} (ho : QueueOut s o) (hu : QueueOut s u) :
    QueueOut s (if c then o else u) := by
  split
  · exact ho
  · exact hu

/-- A management command whose own effect leaves the queue leaves it. -/
theorem State.command_queue {s : State} {sess : Option Nat} {tag : BitVec 16} {code : Nat} {free ready lenOk : Bool} {fields : List (Bool × Nat)}
    {f : State → State} (hf : ∀ u, (f u).pending = u.pending) : QueueOut s (.next (s.command sess tag code free ready lenOk fields f)) := by
  rcases s.command_eq_or sess tag code free ready lenOk fields f with h | h
  · rw [h]
    exact .next ((hf _).trans (State.sessionUsed_keeps s sess .rfl).pending)
  · rw [h]
    exact .next (State.command_keeps _ _ _ _ _ _ _ _ _ .rfl fun _ hk => hk).pending

theorem State.fuseUpdate_queue {s : State} {sess : Option Nat} {tag : BitVec 16} {p : List Byte} {action : Nat} {f : State → State}
    (hf : ∀ u, (f u).pending = u.pending) : QueueOut s (.next (s.fuseUpdate sess tag p action f)) := by
  unfold fuseUpdate
  split
  · exact .next rfl
  · exact command_queue hf

theorem execWatchdogPeriodEnd_queue (s : State) : QueueOut s (execWatchdogPeriodEnd s) := by
  by_cases hm : s.wdMissed = 0
  · rw [execWatchdogPeriodEnd, if_pos hm]
    exact .next rfl
  · rw [execWatchdogPeriodEnd, if_neg hm]
    extract_lets first again u v
    have hu : Keeps s u := State.tellSuites_keeps _ (State.record_keeps s _ .rfl)
    clear_value u
    split
    · exact .next hu.pending
    · exact .next hu.pending

theorem execTemperatureUpdate_queue (l : List Int) (mv : Nat) (s : State) : QueueOut s (execTemperatureUpdate l mv s) := by
  cases l with
  | nil => exact .next rfl
  | cons t l =>
    simp only [execTemperatureUpdate]
    split
    · exact .next rfl
    · exact .next rfl

theorem execArrayPatrol_queue (x : ArrayFinding) (s : State) : QueueOut s (execArrayPatrol x s) := by
  cases x with
  | clean => exact .next rfl
  | corrected cls idx => exact .next rfl
  | uncorrectable cls idx => exact .next (s.record_pending _)
  | figure c fid path cls idx => exact .next (State.figureFault_keeps s _ _ _ _ _ .rfl).pending
  | lane n =>
    simp only [execArrayPatrol]
    split
    · exact .next (State.failLane_keeps _ _ _ (State.arrayRecord_keeps s _ _ _ _ .rfl)).pending
    · exact .next rfl
  | heldCopy n =>
    simp only [execArrayPatrol]
    split
    · exact .next (State.spoilOut_keeps _ _ _ (State.arrayRecord_keeps s _ _ _ _ .rfl)).pending
    · exact .next rfl
  | register cls idx => exact .next (State.registersReset_keeps _ _ _ (State.arrayRecord_keeps s _ _ _ _ .rfl)).pending
  | hearth => exact .next (s.record_pending _)

theorem exec_imageLoadComplete_queue (mib : Option Nat) (ok : Bool) (s : State) : QueueOut s (exec (.imageLoadComplete mib ok) s) := by
  by_cases h : s.hearth.startup = .loading
  · cases hc : s.imageCheck s.hearth.loadingB mib ok with
    | none =>
      rw [exec_imageLoadComplete_passed h hc]
      exact .next rfl
    | some code =>
      by_cases hlast : code = 1 ∨ s.hearth.loadingB = true
      · rw [exec_imageLoadComplete_last h hc hlast]
        exact .next (State.record_pending _ _)
      · rw [not_or, Bool.not_eq_true] at hlast
        rw [exec_imageLoadComplete_turns h hc hlast.1 hlast.2]
        exact .next (State.record_pending _ _)
  · rw [exec_imageLoadComplete_other h]
    exact .next rfl

theorem State.mapped_pending (s : State) : s.mapped.pending = s.pending := by simp only [mapped]

theorem exec_lockingComplete_queue (s : State) : QueueOut s (exec .lockingComplete s) := by
  by_cases h : s.hearth.startup = .locking
  · cases hfit : s.roleFits with
    | true =>
      have hk : Keeps s.mapped s.mapped.refuseConflicts := State.refuseConflicts_keeps .rfl
      rw [exec_lockingComplete_fits h hfit]
      exact .next ((State.lock_frame State.pending State.putPort_pending State.putHost_pending _).trans (hk.pending.trans s.mapped_pending))
    | false =>
      rw [exec_lockingComplete_unfit h hfit]
      exact .next ((State.record_pending _ _).trans s.mapped_pending)
  · rw [exec_lockingComplete_other h]
    exact .next rfl

theorem execFlashWriteComplete_queue (s : State) : QueueOut s (execFlashWriteComplete s) := by
  unfold execFlashWriteComplete
  split
  · exact .next (State.acceptAll_keeps _ _ _ _ .rfl).pending
  · split
    · exact .next rfl
    · extract_lets b
      split
      · exact .next (State.packOver_keeps _ _ _ _ (State.packRecord_keeps s _ .rfl)).pending
      · exact .next (State.packOver_keeps _ _ _ _ .rfl).pending
  · exact .next rfl

theorem exec_queue (i : Instr) (s : State) : QueueOut s (exec i s) := by
  by_cases hi : outsideKeeps i = false
  · exact (exec_keeps i s hi).queue
  · cases i with
    | powerOnReset => exact .ite (.next rfl) (.next rfl)
    | prsntNBreak => exact .next rfl
    | inputVoltageFault mv => exact .ite (.next rfl) (.next rfl)
    | refclkLoss => exact .ite (.next rfl) (.next rfl)
    | refclkRestored => exact .ite (.next rfl) (.ite (.next rfl) (.next rfl))
    | temperatureUpdate l mv => exact execTemperatureUpdate_queue l mv s
    | watchdogPeriodEnd => exact execWatchdogPeriodEnd_queue s
    | arrayPatrol x => exact execArrayPatrol_queue x s
    | warmReset sess tag p => exact State.command_queue fun _ => rfl
    | resetEnd slot room => exact .ite (.next rfl) (.next rfl)
    | imageLoadComplete mib ok => exact exec_imageLoadComplete_queue mib ok s
    | lockingComplete => exact exec_lockingComplete_queue s
    | fuseRaiseMinVersion sess tag p => exact State.fuseUpdate_queue fun _ => rfl
    | fuseRevokeKey sess tag p => exact State.fuseUpdate_queue fun _ => rfl
    | flashWriteComplete => exact execFlashWriteComplete_queue s
    | _ => exact absurd rfl hi

/-! ## Time passes (R40, R315) -/

/-- The state without what the passing of time writes, but with the hall count: cycle counts, the sync block, host blocks, ports, contexts and
SYNC_OUT are left out. -/
def State.untimed (s : State) : State :=
  { s with thermal := {}, sync := {}, hosts := [], ports := [], ctxs := [], freeCtr := 0, hearth := { s.hearth with syncOut := .low } }

section Elapse
variable (s : State)

theorem State.refill_untimed (k : Nat) : (s.refill k).untimed = s.untimed := by
  unfold refill
  split <;> rfl

theorem State.laneWindow_untimed (p : Nat) : (s.laneWindow p).untimed = s.untimed := by
  refine overList_frame State.untimed (fun u i => ?_) _ s
  split
  · rfl
  · rfl

theorem State.laneWindows_untimed (k : Nat) : (s.laneWindows k).untimed = s.untimed := by
  unfold laneWindows
  dsimp only
  split
  · rfl
  · exact overList_frame State.untimed (fun u _ => overList_frame State.untimed laneWindow_untimed _ u) _ s

theorem State.endPulse_untimed : s.endPulse.untimed = s.untimed := by
  unfold endPulse
  split
  · split <;> rfl
  · rfl

theorem State.countCycles_untimed (k c : Nat) : (s.countCycles k c).untimed = s.untimed := rfl

/-- `n` counts raise the hall count by `n` and move nothing outside the clock. -/
theorem State.elapse_untimed (n : Nat) (h : s.counting = true) :
    (s.elapse n).untimed = ({ s with hall := s.hall + BitVec.ofNat 64 n } : State).untimed := by
  have hcycles (k : Nat) (l : List Nat) (u : State) : (overList (fun s c => s.countCycles k c) l u).untimed = u.untimed :=
    overList_frame State.untimed (fun u c => u.countCycles_untimed k c) l u
  unfold elapse
  rw [if_neg (by simp [h])]
  extract_lets ends u
  have hu : u.untimed = ({ s with hall := s.hall + BitVec.ofNat 64 n } : State).untimed := by
    simp only [u, endPulse_untimed, laneWindows_untimed, refill_untimed]
    rfl
  split
  · exact hu
  · split
    · exact hu
    · exact (hcycles _ _ _).trans hu

end Elapse

@[simp] theorem State.startRecal_standing (s : State) (p : Nat) : (s.startRecal p).standing = s.standing := rfl

theorem State.portTick_standing (s : State) (p : Nat) : (s.portTick p).standing = s.standing := by
  unfold portTick
  split
  · rfl
  · extract_lets u x phase
    have hu : u.standing = s.standing := by
      unfold u
      split
      · exact s.startRecal_standing p
      · rfl
    split
    · exact hu
    split
    · exact hu
    · exact hu

/-- What contexts and ports do in a tick leaves what stands as the count has left it. -/
theorem State.tick_standing (s : State) (h : s.counting = true) : s.tick.standing = (s.elapse 1).standing := by
  rw [tick, if_pos h, ringsAnswered_standing]
  exact overList_standing portTick_standing _ _

theorem State.tick_hall (s : State) : s.tick.hall = if s.counting then s.hall + 1 else s.hall := by
  split
  next h => exact (congrArg Standing.hall (s.tick_standing h)).trans (congrArg State.hall (s.elapse_untimed 1 h))
  next h => rw [tick, if_neg h]

theorem State.tick_frame (s : State) :
    s.tick.hearth.startup = s.hearth.startup ∧ s.tick.flash = s.flash ∧ s.tick.cellar.mem = s.cellar.mem := by
  by_cases h : s.counting = true
  · have hstands := s.tick_standing h
    have htime := s.elapse_untimed 1 h
    exact ⟨(congrArg Standing.startup hstands).trans (congrArg (fun u => u.hearth.startup) htime :),
      (congrArg Standing.flash hstands).trans (congrArg State.flash htime :),
      (congrArg Standing.mem hstands).trans (congrArg (fun u => u.cellar.mem) htime :)⟩
  · rw [tick, if_neg h]
    exact ⟨rfl, rfl, rfl⟩

/-- Settles O56: what each command answers, and what a tick leaves. -/
theorem commandsAnswerAndTicks : Obligations.CommandsAnswerAndTicks := by
  refine ⟨exec_queue, fun s hempty => ?_⟩
  have hk : Keeps s s.tick := State.tick_keeps s .rfl
  obtain ⟨hstartup, hflash, hmem⟩ := s.tick_frame
  exact ⟨s.tick, by simp [step, hempty], s.tick_hall, hk.pending.trans hempty, hstartup, hk.config, hk.fuses, hflash, hmem⟩

end Sys2Proof.Machine
end

section
/-! Settling O10: Doze and what wakes the engine from it (R43-R46, R52), and the entry into Banked (R50, R51). -/

namespace Sys2Proof.Machine

/-! ## Traffic that meets a dozing engine (R44, R46) -/

section Traffic
variable {s : State} {i : Instr}

theorem exec_of_trafficHost {h : Fin 16} (hi : trafficHost i = some h) (s : State) : ∃ f, exec i s = s.hostIn h.val i f := by
  cases i <;> cases hi <;> (unfold exec; exact ⟨_, rfl⟩)

theorem exec_of_trafficPort {p : Fin 36} (hi : trafficPort i = some p) (s : State) : ∃ f, exec i s = s.fabricIn p.val i f := by
  cases i <;> cases hi <;> (unfold exec; exact ⟨_, rfl⟩)

theorem State.arrive_of_asleep (f : State → Out) (ha : s.asleep = true) : s.arrive i f = .next { s.wake with arrivals := s.arrivals ++ [i] } := if_pos ha

theorem exec_hostTraffic_asleep {h : Fin 16} (hi : trafficHost i = some h) (hserving : s.hostServing h.val = true) (ha : s.asleep = true) :
    exec i s = .next { s.wake with arrivals := s.arrivals ++ [i] } := by
  obtain ⟨f, hf⟩ := exec_of_trafficHost hi s
  rw [hf, State.hostIn, if_pos hserving, State.arrive_of_asleep f ha]

theorem exec_fabricTraffic_asleep {p : Fin 36} (hi : trafficPort i = some p) (hup : s.portUp p.val = true) (ha : s.asleep = true) :
    exec i s = .next { s.wake with arrivals := s.arrivals ++ [i] } := by
  obtain ⟨f, hf⟩ := exec_of_trafficPort hi s
  rw [State.portUp] at hup
  rw [hf, State.fabricIn, if_pos hup, State.arrive_of_asleep f ha]

/-- What has waited has, once the engine is Active, the effect that the command has then. -/
theorem State.arrived_eq (s : State) (hi : trafficHost i ≠ none ∨ trafficPort i ≠ none) : s.arrived i = stateAfter s (exec i s) := by
  rcases hi with hi | hi
  · obtain ⟨h, hi⟩ := Option.ne_none_iff_exists'.mp hi
    cases i <;> cases hi <;> rfl
  · obtain ⟨p, hi⟩ := Option.ne_none_iff_exists'.mp hi
    cases i <;> cases hi <;> rfl

end Traffic

/-! ## Doze is entered and left (R43, R44, R52) -/

section Doze
variable {s : State}

theorem exec_dozeEntry_idle (hready : s.isReady = true) (hactive : s.hearth.power = .active) (hhold : s.activeHold = false)
    (hquiet : s.quiet = true) (hidle : ∀ x ∈ s.ctxs, s.dozeIdle x.1 = true) :
    exec .dozeEntry s = .next { s with hearth := { s.hearth with power := .doze } } := by
  have hall : s.ctxs.all (fun x => s.dozeIdle x.1) = true := List.all_eq_true.mpr hidle
  exact if_pos (by rw [hready, hactive, hhold, hquiet, hall]; rfl)

theorem exec_dozeEntry_held (hhold : s.activeHold = true) : exec .dozeEntry s = .next s := by
  change execDozeEntry s = _
  simp [execDozeEntry, hhold]

theorem exec_dozeWakeComplete (h : s.hearth.power = .dozeWaking) : exec .dozeWakeComplete s = .next (overList State.arrived s.arrivals
    { s with hearth := { s.hearth with power := .active, exempt56 := true }, arrivals := [] }) := if_pos (by rw [h]; rfl)

theorem exec_dozeWakeComplete_traffic (h : s.hearth.power = .dozeWaking)
    (htraffic : ∀ i ∈ s.arrivals, trafficHost i ≠ none ∨ trafficPort i ≠ none) :
    exec .dozeWakeComplete s = .next (s.arrivals.foldl (fun u i => stateAfter u (exec i u))
      { s with hearth := { s.hearth with power := .active, exempt56 := true }, arrivals := [] }) := by
  rw [exec_dozeWakeComplete h]
  exact congrArg Host.Outcome.next (List.foldl_ext _ _ _ fun u i hi => u.arrived_eq (htraffic i hi))

end Doze

/-! ## The wake before a WAIT_COUNT's count (R45) -/

section WaitCount
variable {s : State}

/-- A count that a WAIT_COUNT waits for is one that the hall counter can show. -/
theorem State.earliestCount_lt {n : Nat} (h : s.earliestCount = some n) : n < 2 ^ 64 := by
  suffices hbound : ∀ n, s.earliestCount = some n → n < 2 ^ 64 from hbound n h
  unfold earliestCount
  refine List.foldlRecOn (motive := fun b => ∀ n, b = some n → n < 2 ^ 64) _ _ (by simp) fun b hb t ht n hn => ?_
  have htarget : t < 2 ^ 64 := by
    simp only [List.mem_flatMap, List.mem_filterMap] at ht
    obtain ⟨x, -, f, -, hf⟩ := ht
    split at hf
    next w _ _ =>
      cases hf
      exact w.isLt
    · cases hf
  cases b with
  | none =>
    cases hn
    exact htarget
  | some u =>
    cases hn
    exact lt_of_le_of_lt (min_le_left t u) htarget

theorem State.reach_untimed (s : State) (w : Word64) : ∃ n, (s.reach w).untimed = ({ s with hall := n } : State).untimed := by
  unfold reach
  split
  · by_cases hc : s.counting = true
    · exact ⟨_, s.elapse_untimed _ hc⟩
    · refine ⟨s.hall, ?_⟩
      rw [elapse, if_pos (by simp [hc])]
  · exact ⟨s.hall, rfl⟩

theorem State.reach_frame (s : State) (w : Word64) : (s.reach w).hearth.power = s.hearth.power ∧ (s.reach w).cellar = s.cellar ∧
    (s.reach w).wd = s.wd ∧ (s.reach w).hearth.startup = s.hearth.startup := by
  obtain ⟨n, h⟩ := s.reach_untimed w
  generalize s.reach w = u at h ⊢
  exact ⟨(congrArg (fun u => u.hearth.power) h :), (congrArg State.cellar h :), (congrArg State.wd h :),
    (congrArg (fun u => u.hearth.startup) h :)⟩

theorem State.reach_now (s : State) (w : Word64) (hc : s.counting = true) : (s.reach w).now = max s.now w.toNat := by
  unfold reach now
  split
  next hlt =>
    have hhall := congrArg State.hall (s.elapse_untimed (w.toNat - s.hall.toNat) hc)
    change (s.elapse _).hall = s.hall + BitVec.ofNat 64 (w.toNat - s.hall.toNat) at hhall
    rw [hhall, max_eq_right hlt.le]
    bv_omega
  next hle => rw [max_eq_left (not_lt.mp hle)]

/-- A wake that begins moves the power state alone (R44). -/
theorem State.wake_of_doze {s : State} (h : s.hearth.power = .doze) : s.wake.hearth.power = .dozeWaking ∧ s.wake.cellar = s.cellar ∧
    s.wake.wd = s.wd ∧ s.wake.hearth.startup = s.hearth.startup ∧ s.wake.now = s.now := by
  rw [wake, if_pos h]
  exact ⟨rfl, rfl, rfl, rfl, rfl⟩

theorem exec_waitCountWake {n : Nat} (hdoze : s.hearth.power = .doze) (hn : s.earliestCount = some n) :
    exec .waitCountWake s = .next (s.reach (BitVec.ofNat 64 (n - 1500))).wake := by
  change execWaitCountWake s = _
  simp [execWaitCountWake, hn, hdoze]

theorem waitCountWake_wakes {n : Nat} (hdoze : s.hearth.power = .doze) (hn : s.earliestCount = some n) :
    ∃ t, exec .waitCountWake s = .next t ∧ t.hearth.power = .dozeWaking ∧ t.cellar = s.cellar ∧ t.wd = s.wd ∧
      t.hearth.startup = s.hearth.startup ∧ (s.counting = true → t.now = max s.now (n - 1500)) := by
  refine ⟨_, exec_waitCountWake hdoze hn, ?_⟩
  obtain ⟨hpower, hcellar, hwd, hstartup⟩ := s.reach_frame (BitVec.ofNat 64 (n - 1500))
  obtain ⟨hwakes, hwakeCellar, hwakeWd, hwakeStartup, hwakeNow⟩ := State.wake_of_doze (hpower.trans hdoze)
  refine ⟨hwakes, hwakeCellar.trans hcellar, hwakeWd.trans hwd, hwakeStartup.trans hstartup, fun hc => ?_⟩
  have htarget : (BitVec.ofNat 64 (n - 1500)).toNat = n - 1500 := by
    have hlt := State.earliestCount_lt hn
    simp only [BitVec.toNat_ofNat]
    omega
  rw [hwakeNow, s.reach_now _ hc, htarget]

end WaitCount

/-! ## The entry into Banked (R50, R51) -/

section Banked
variable (s : State)

/-- The links as their far ends see them: every fabric port that is Up goes down, and every host link is lost (R51). -/
def State.linksGone : State :=
  let s := overList (fun s p => if s.portUp p then s.leaveUp p .down else s) (List.range 36) s
  overList (fun s h => if (s.host h).state == .serving || (s.host h).state == .upNotReady then
    s.linkLost h .linkLost 0x23 (s.hostPos h) else s) s.hostIndices s

/-- What the Hearth alone keeps, with every other block without power (R50, R51). -/
def State.powerCut : State :=
  { s with
    hearth := { s.hearth with power := .banked, syncOut := .highZ },
    sync := { s.sync with pulseEnd := none },
    hosts := s.hosts.map (fun (h, x) => (h, HostPort.banked x)), ports := s.ports.map (fun (p, x) => (p, FabPort.banked x)),
    suites := s.suites.map (fun (i, x) => (i, Suite.banked x)),
    ctxs := [], callers := [], groups := [], lanes := [], outs := [], confirmed := [], rings := [], commits := [], owed := [], droppedChunks := [],
    givenUp := [], hallway := [], arrivals := [],
    cellar := { extents := s.cellar.extents.filter (fun x => x.2.state == .quarantined) } }

/-- The commands that wait for a part in service, and the move into Banked itself, are over (R51, R512). -/
def State.bankCommands : State := s.bankService.acceptAll (fun a => a.code == 0x08 && a.units == [1]) 0x00 0

theorem exec_bankedEntryComplete {s : State} (h : s.hearth.power = .banking) :
    exec .bankedEntryComplete s = .next s.linksGone.powerCut.bankCommands := if_neg (by rw [h]; decide)

theorem State.linksGone_standing : s.linksGone.standing = s.standing := by
  unfold linksGone
  dsimp only
  rw [overList_standing, overList_standing]
  · intro u p
    split
    · exact u.leaveUp_standing p _
    · rfl
  · intro u h
    split
    · exact u.linkLost_standing h _ _ _
    · rfl

/-- Commands that are over are a matter of the management and service blocks alone. -/
theorem State.bankCommands_eq : ∃ m v, s.bankCommands = { s with mgmt := m, svc := v } := by
  have hframe : ({ s.bankCommands with mgmt := {}, svc := {} } : State) = { s with mgmt := {}, svc := {} } := by
    have haccept (u : State) (q : Accepted → Bool) (st d : Nat) :
        ({ u.acceptAll q st d with mgmt := {}, svc := {} } : State) = { u with mgmt := {}, svc := {} } :=
      u.acceptAll_frame (fun u => ({ u with mgmt := {}, svc := {} } : State)) (fun _ _ => rfl) q st d
    unfold bankCommands bankService cellarDone
    dsimp only
    rw [haccept, haccept, haccept, haccept]
  exact ⟨s.bankCommands.mgmt, s.bankCommands.svc, congrArg (fun u : State => { u with mgmt := s.bankCommands.mgmt, svc := s.bankCommands.svc }) hframe⟩

/-- A fabric port carries no frames in Banked. -/
theorem State.powerCut_portUp (p : Nat) : s.powerCut.portUp p = false := by
  have hport : s.powerCut.port p = (s.port p).banked := FMap.get_mapped ({} : FabPort) s.ports (fun _ x => x.banked) p rfl
  rw [portUp, hport]
  unfold FabPort.banked
  split
  next h => rw [h]; rfl
  next h => rw [h]; rfl
  · rfl
  · rfl
  · rfl

theorem State.powerCut_hostServing (h : Nat) : s.powerCut.hostServing h = false := by
  have hhost : s.powerCut.host h = (s.host h).banked := FMap.get_mapped ({} : HostPort) s.hosts (fun _ x => x.banked) h rfl
  rw [hostServing, hhost]
  unfold HostPort.banked
  split
  · rfl
  · rfl

end Banked

/-- Settles O10: Doze is entered and left, what wakes the engine waits, and Banked leaves the Hearth alone. -/
theorem powerStates : Obligations.PowerStates := by
  refine ⟨fun s => ⟨?enter, ?held, ?wake, ?traffic, ?host, ?fabric, ?count⟩, fun s hbanking => ?banked⟩
  case enter => exact exec_dozeEntry_idle
  case held => exact exec_dozeEntry_held
  case wake =>
    intro h hnone
    rw [exec_dozeWakeComplete h, hnone]
    rfl
  case traffic => exact exec_dozeWakeComplete_traffic
  case host => exact fun i h => exec_hostTraffic_asleep
  case fabric => exact fun i p => exec_fabricTraffic_asleep
  case count => exact fun n => waitCountWake_wakes
  case banked =>
    obtain ⟨t, ht, hk⟩ := exec_keeps .bankedEntryComplete s rfl
    obtain ⟨m, v, hdone⟩ := s.linksGone.powerCut.bankCommands_eq
    have hstands := s.linksGone_standing
    cases ht.symm.trans ((exec_bankedEntryComplete hbanking).trans (congrArg Host.Outcome.next hdone))
    have hready : s.linksGone.powerCut.isReady = false := by
      simp [State.isReady, State.powerCut]
    refine ⟨_, ht, rfl, rfl, rfl, rfl, rfl, rfl, rfl, rfl, rfl, rfl, rfl, rfl, rfl, fun x hx => ?_, s.linksGone.powerCut_portUp,
      s.linksGone.powerCut_hostServing, congrArg Standing.startup hstands, hk.config, hk.locked, hk.fuses, congrArg Standing.flash hstands, hready⟩
    exact eq_of_beq (List.mem_filter.mp hx).2

end Sys2Proof.Machine
end

section
/-! Settling O59 and O60: a locked configuration stands until a reset (R58, R73, R76), and fuses go one way (R70). -/

namespace Sys2Proof.Machine

/-! ## What a step does to the lock -/

/-- The engine is locked, with the configuration, digest and pin IDs that it had. -/
def ConfigStands (s t : State) : Prop :=
  t.hearth.locked = true ∧ t.hearth.config = s.hearth.config ∧ t.hearth.configDigest = s.hearth.configDigest ∧
  t.hearth.slotId = s.hearth.slotId ∧ t.hearth.roomId = s.hearth.roomId

/-- A reset has started the engine anew. -/
def StartedAnew (t : State) : Prop := t.hearth.startup = .reset ∧ t.hearth.locked = false

/-- A locked engine is past Locking, before and after; and what is locked stands, or the engine has started anew. -/
def LockKept (s t : State) : Prop :=
  LockedPastLocking s → LockedPastLocking t ∧ (s.hearth.locked = true → ConfigStands s t ∨ StartedAnew t)

theorem LockedPastLocking.of_unlocked {t : State} (h : t.hearth.locked = false) : LockedPastLocking t :=
  fun hl => absurd hl (by simp [h])

/-- An engine that has not reached the lock is not locked. -/
theorem LockedPastLocking.unlocked {s : State} (hp : LockedPastLocking s)
    (h : s.hearth.startup = .reset ∨ s.hearth.startup = .loading ∨ s.hearth.startup = .locking) : s.hearth.locked = false := by
  refine Bool.eq_false_iff.mpr fun hl => ?_
  rcases h with h | h | h <;> simpa [h] using hp hl

theorem Keeps.lockKept {s t : State} (h : Keeps s t) : LockKept s t :=
  fun hp => ⟨h.past hp, fun hl => .inl ⟨h.locked.trans hl, h.config, h.digest, h.slot, h.room⟩⟩

theorem LockKept.anew {s t : State} (h : StartedAnew t) : LockKept s t := fun _ => ⟨.of_unlocked h.2, fun _ => .inr h⟩

theorem LockKept.of_hearth {s t : State} (h : t.hearth = s.hearth) : LockKept s t := by
  intro hp
  refine ⟨by rwa [LockedPastLocking, h], fun hl => .inl ?_⟩
  rw [ConfigStands, h]
  exact ⟨hl, rfl, rfl, rfl, rfl⟩

/-- On the way to the lock there is nothing locked to keep. -/
theorem LockKept.boot {s t : State} (h : s.hearth.startup = .reset ∨ s.hearth.startup = .loading ∨ s.hearth.startup = .locking)
    (ht : s.hearth.locked = false → LockedPastLocking t) : LockKept s t := fun hp =>
  have hno := hp.unlocked h
  ⟨ht hno, fun hl => absurd hl (by simp [hno])⟩

/-- A step on from what a command has kept. -/
theorem LockKept.of_keeps {s u t : State} (hk : Keeps s u) (h : LockKept u t) : LockKept s t := by
  intro hp
  obtain ⟨ht, hlock⟩ := h (hk.past hp)
  refine ⟨ht, fun hl => (hlock (hk.locked.trans hl)).imp_left ?_⟩
  rintro ⟨hlocked, hconfig, hdigest, hslot, hroom⟩
  exact ⟨hlocked, hconfig.trans hk.config, hdigest.trans hk.digest, hslot.trans hk.slot, hroom.trans hk.room⟩

/-- A command has left every fuse, and the lock as `LockKept` says. -/
def BootOut (s : State) (o : Out) : Prop := ∃ t, o = .next t ∧ t.fuses = s.fuses ∧ LockKept s t

theorem KeepsOut.boot {s : State} {o : Out} (h : KeepsOut s o) : BootOut s o := by
  obtain ⟨t, rfl, hk⟩ := h
  exact ⟨t, rfl, hk.fuses, hk.lockKept⟩

theorem Keeps.boot {s t : State} (h : Keeps s t) : BootOut s (.next t) := ⟨t, Eq.refl _, h.fuses, h.lockKept⟩

theorem BootOut.anew {s t : State} (hf : t.fuses = s.fuses) (h : StartedAnew t) : BootOut s (.next t) := ⟨t, rfl, hf, .anew h⟩

/-- A choice between two answers. -/
theorem BootOut.ite {s : State} {c : Prop} [Decidable c] {o u : Out} (ho : c → BootOut s o) (hu : ¬ c → BootOut s u) :
    BootOut s (if c then o else u) := by
  split
  next h => exact ho h
  next h => exact hu h

/-! ## The commands that `Keeps` says nothing of -/

theorem execWatchdogPeriodEnd_boot (s : State) : BootOut s (execWatchdogPeriodEnd s) := by
  by_cases hm : s.wdMissed = 0
  · rw [execWatchdogPeriodEnd, if_pos hm]
    exact ⟨_, rfl, rfl, Keeps.rfl (r := s).lockKept⟩
  · rw [execWatchdogPeriodEnd, if_neg hm]
    extract_lets first again u v
    have hu : Keeps s u := State.tellSuites_keeps _ (State.record_keeps s _ .rfl)
    clear_value u
    split
    · exact .anew hu.fuses ⟨rfl, rfl⟩
    · exact ⟨_, rfl, hu.fuses, Keeps.rfl (r := s).lockKept⟩

theorem execTemperatureUpdate_boot (l : List Int) (mv : Nat) (s : State) : BootOut s (execTemperatureUpdate l mv s) := by
  cases l with
  | nil => exact Keeps.rfl.boot
  | cons t l =>
    simp only [execTemperatureUpdate]
    split
    · exact .anew rfl ⟨rfl, rfl⟩
    · exact ⟨_, rfl, rfl, Keeps.rfl (r := s).lockKept⟩

/-- Every finding but one in the Hearth keeps; that one resets (R416). -/
theorem execArrayPatrol_boot (x : ArrayFinding) (s : State) : BootOut s (execArrayPatrol x s) := by
  cases x with
  | clean => exact Keeps.rfl.boot
  | corrected cls idx => exact ⟨_, rfl, rfl, Keeps.rfl (r := s).lockKept⟩
  | uncorrectable cls idx => exact (State.arrayRecord_keeps s _ _ _ _ .rfl).boot
  | figure c fid path cls idx => exact (State.figureFault_keeps s _ _ _ _ _ .rfl).boot
  | lane n =>
    simp only [execArrayPatrol]
    split
    · exact (State.failLane_keeps _ _ _ (State.arrayRecord_keeps s _ _ _ _ .rfl)).boot
    · exact Keeps.rfl.boot
  | heldCopy n =>
    simp only [execArrayPatrol]
    split
    · exact (State.spoilOut_keeps _ _ _ (State.arrayRecord_keeps s _ _ _ _ .rfl)).boot
    · exact Keeps.rfl.boot
  | register cls idx => exact (State.registersReset_keeps _ _ _ (State.arrayRecord_keeps s _ _ _ _ .rfl)).boot
  | hearth => exact .anew (s.record_fuses _) ⟨rfl, rfl⟩

theorem exec_resetEnd_boot (slot : BitVec 3) (room : BitVec 5) (s : State) : BootOut s (exec (.resetEnd slot room) s) := by
  change BootOut s (execResetEnd slot room s)
  refine .ite (fun h => ?_) fun _ => Keeps.rfl.boot
  simp only [Bool.and_eq_true, beq_iff_eq] at h
  exact ⟨_, rfl, rfl, .boot (.inl h.1.1) fun hno => .of_unlocked hno⟩

theorem exec_imageLoadComplete_boot (mib : Option Nat) (ok : Bool) (s : State) : BootOut s (exec (.imageLoadComplete mib ok) s) := by
  by_cases h : s.hearth.startup = .loading
  · have hrecord (b : Bool) (code : Nat) (fatal : Bool) : Keeps (s.romRead mib) ((s.romRead mib).bootRecord b code fatal) :=
      State.bootRecord_keeps _ _ _ _ .rfl
    cases hc : s.imageCheck s.hearth.loadingB mib ok with
    | none =>
      rw [exec_imageLoadComplete_passed h hc]
      exact ⟨_, rfl, rfl, .boot (.inr (.inl h)) fun hno => .of_unlocked hno⟩
    | some code =>
      by_cases hlast : code = 1 ∨ s.hearth.loadingB = true
      · rw [exec_imageLoadComplete_last h hc hlast]
        exact ⟨_, rfl, (hrecord _ _ _).fuses, .boot (.inr (.inl h)) fun hno => .of_unlocked ((hrecord _ _ _).locked.trans hno)⟩
      · rw [not_or, Bool.not_eq_true] at hlast
        rw [exec_imageLoadComplete_turns h hc hlast.1 hlast.2]
        exact ⟨_, rfl, (hrecord _ _ _).fuses, .boot (.inr (.inl h)) fun hno => .of_unlocked ((hrecord _ _ _).locked.trans hno)⟩
  · rw [exec_imageLoadComplete_other h]
    exact Keeps.rfl.boot

theorem State.mapped_fuses (s : State) : s.mapped.fuses = s.fuses := by simp only [mapped]
theorem State.mapped_locked (s : State) : s.mapped.hearth.locked = s.hearth.locked := by simp only [mapped]

theorem exec_lockingComplete_boot (s : State) : BootOut s (exec .lockingComplete s) := by
  by_cases h : s.hearth.startup = .locking
  · cases hfit : s.roleFits with
    | true =>
      have hk : Keeps s.mapped s.mapped.refuseConflicts := State.refuseConflicts_keeps .rfl
      rw [exec_lockingComplete_fits h hfit]
      refine ⟨_, rfl, ?_, .boot (.inr (.inr h)) fun _ _ => .inl ?_⟩
      · exact (State.lock_frame State.fuses State.putPort_fuses State.putHost_fuses _).trans (hk.fuses.trans s.mapped_fuses)
      · rw [State.lock_hearth]
    | false =>
      have hk : Keeps s.mapped s.mapped.unfitRecord := State.record_keeps _ _ .rfl
      rw [exec_lockingComplete_unfit h hfit]
      exact ⟨_, rfl, hk.fuses.trans s.mapped_fuses,
        .boot (.inr (.inr h)) fun hno => .of_unlocked (hk.locked.trans (s.mapped_locked.trans hno))⟩
  · rw [exec_lockingComplete_other h]
    exact Keeps.rfl.boot

/-- A flash write that is over touches the flash, and the commands that waited for it. -/
theorem execFlashWriteComplete_boot (s : State) : BootOut s (execFlashWriteComplete s) := by
  unfold execFlashWriteComplete
  split
  next off b _ =>
    have hk := State.acceptAll_keeps _ (fun a => a.code == 0x03) 0x00 0
      (Keeps.rfl (r := { s with flash := s.flash.writeImage off b, mgmt := { s.mgmt with flashWrite := none } }))
    exact ⟨_, rfl, hk.fuses, hk.lockKept⟩
  next id _ _ =>
    refine .ite (fun _ => Keeps.rfl.boot) fun _ => ?_
    extract_lets b
    split
    · exact (State.packOver_keeps _ _ _ _ (State.packRecord_keeps s _ .rfl)).boot
    · have hk := State.packOver_keeps _ id 0x00 0 (Keeps.rfl (r := { s with flash := s.flash.takePack id (1 - s.packCopy id) b }))
      exact ⟨_, rfl, hk.fuses, hk.lockKept⟩
  next => exact Keeps.rfl.boot

theorem exec_warmReset_boot (sess : Option Nat) (tag : BitVec 16) (p : List Byte) (s : State) : BootOut s (exec (.warmReset sess tag p) s) := by
  change BootOut s (execWarmReset sess tag p s)
  unfold execWarmReset
  rcases s.command_eq_or sess tag 0x04 s.recovery false (p.length == 0) [] (fun s =>
    let s := s.ok 0x04 tag
    let t := s.warmReset .management
    { t with mgmt := { t.mgmt with response := s.mgmt.response } }) with h | h
  · rw [h]
    exact .anew (State.sessionUsed_keeps s sess .rfl).fuses ⟨rfl, rfl⟩
  · rw [h]
    exact (State.command_keeps _ _ _ _ _ _ _ _ _ .rfl fun _ hk => hk).boot

/-! ## FUSE_UPDATE (R70) -/

/-- The two commands that write fuses. -/
def writesFuses : Instr → Bool
  | .fuseRaiseMinVersion _ _ _ | .fuseRevokeKey _ _ _ => true
  | _ => false

/-- FUSE_UPDATE writes its fuse in a state that has kept everything, or does not write it. -/
theorem State.fuseUpdate_cases (s : State) (sess : Option Nat) (tag : BitVec 16) (p : List Byte) (action : Nat) (f : State → State) :
    Keeps s (s.fuseUpdate sess tag p action f) ∨ ∃ u, Keeps s u ∧ s.fuseUpdate sess tag p action f = (f u).ok 0x06 tag := by
  unfold fuseUpdate
  split
  · exact .inl .rfl
  · rcases s.command_eq_or sess tag 0x06 false false (p.length == 8) _ (fun s => (f s).ok 0x06 tag) with h | h
    · exact .inr ⟨s.sessionUsed sess, sessionUsed_keeps s sess .rfl, h⟩
    · rw [h]
      exact .inl (command_keeps _ _ _ _ _ _ _ _ _ .rfl fun _ hk => hk)

theorem State.fuseUpdate_lockKept {s : State} {sess : Option Nat} {tag : BitVec 16} {p : List Byte} {action : Nat} {f : State → State}
    (hf : ∀ u, (f u).hearth = u.hearth) : LockKept s (s.fuseUpdate sess tag p action f) := by
  rcases s.fuseUpdate_cases sess tag p action f with hk | ⟨u, hk, h⟩
  · exact hk.lockKept
  · rw [h]
    exact .of_keeps hk (.of_hearth (hf u))

/-- What no command takes back: key hashes, stepping, grade and fused-off groups as they were, revoke bits and the minimum at least so. -/
structure FusesGrow (x y : Fuses) : Prop where
  keyHash0 : y.keyHash0 = x.keyHash0
  keyHash1 : y.keyHash1 = x.keyHash1
  stepping : y.stepping = x.stepping
  grade : y.grade = x.grade
  fusedOff : y.fusedOff = x.fusedOff
  revoked0 : x.revoked0 = true → y.revoked0 = true
  revoked1 : x.revoked1 = true → y.revoked1 = true
  minSecurity : x.minSecurity.toNat ≤ y.minSecurity.toNat

theorem FusesGrow.of_eq {x y : Fuses} (h : y = x) : FusesGrow x y := by
  subst h
  exact ⟨rfl, rfl, rfl, rfl, rfl, id, id, le_rfl⟩

theorem State.fuseUpdate_grow {s : State} {sess : Option Nat} {tag : BitVec 16} {p : List Byte} {action : Nat} {f : State → State}
    (hf : ∀ u, FusesGrow u.fuses (f u).fuses) : FusesGrow s.fuses (s.fuseUpdate sess tag p action f).fuses := by
  rcases s.fuseUpdate_cases sess tag p action f with hk | ⟨u, hk, h⟩
  · exact .of_eq hk.fuses
  · rw [h, ← hk.fuses]
    exact hf u

theorem le_lt (b : List Byte) (off n : Nat) : le b off n < 256 ^ n := by
  induction n generalizing off with
  | zero => simp [le]
  | succ n ih =>
    have hbyte := (byteAt b off).isLt
    have hrest := ih (off + 1)
    rw [le, pow_succ]
    omega

/-- The larger of a minimum and the 32-bit field of a payload is a 32-bit value. -/
theorem toNat_max_le (m : Word32) (p : List Byte) (off : Nat) : (BitVec.ofNat 32 (max m.toNat (le p off 4))).toNat = max m.toNat (le p off 4) := by
  have hle : le p off 4 < 2 ^ 32 := le_lt p off 4
  rw [BitVec.toNat_ofNat]
  exact Nat.mod_eq_of_lt (max_lt m.isLt hle)

/-! ## The statements -/

/-- What `Keeps` says nothing of leaves the fuses too, FUSE_UPDATE apart, and the lock. -/
theorem exec_boot (i : Instr) (s : State) (hi : writesFuses i = false) : BootOut s (exec i s) := by
  by_cases ho : outsideKeeps i = false
  · exact (exec_keeps i s ho).boot
  · cases i with
    | powerOnReset => exact .ite (fun _ => .anew rfl ⟨rfl, rfl⟩) fun _ => Keeps.rfl.boot
    | prsntNBreak => exact .anew rfl ⟨rfl, rfl⟩
    | inputVoltageFault mv => exact .ite (fun _ => .anew rfl ⟨rfl, rfl⟩) fun _ => Keeps.rfl.boot
    | refclkLoss => exact .ite (fun _ => .anew rfl ⟨rfl, rfl⟩) fun _ => ⟨_, rfl, rfl, Keeps.rfl (r := s).lockKept⟩
    | refclkRestored =>
      exact .ite (fun _ => Keeps.rfl.boot) fun _ => .ite (fun _ => .anew rfl ⟨rfl, rfl⟩) fun _ => ⟨_, rfl, rfl, Keeps.rfl (r := s).lockKept⟩
    | temperatureUpdate l mv => exact execTemperatureUpdate_boot l mv s
    | watchdogPeriodEnd => exact execWatchdogPeriodEnd_boot s
    | arrayPatrol x => exact execArrayPatrol_boot x s
    | warmReset sess tag p => exact exec_warmReset_boot sess tag p s
    | resetEnd slot room => exact exec_resetEnd_boot slot room s
    | imageLoadComplete mib ok => exact exec_imageLoadComplete_boot mib ok s
    | lockingComplete => exact exec_lockingComplete_boot s
    | flashWriteComplete => exact execFlashWriteComplete_boot s
    | fuseRaiseMinVersion sess tag p => cases hi
    | fuseRevokeKey sess tag p => cases hi
    | _ => exact absurd rfl ho

theorem exec_lockKept (i : Instr) (s : State) : ∃ t, exec i s = .next t ∧ LockKept s t := by
  by_cases hi : writesFuses i = false
  · obtain ⟨t, ht, -, hlock⟩ := exec_boot i s hi
    exact ⟨t, ht, hlock⟩
  · cases i with
    | fuseRaiseMinVersion sess tag p => exact ⟨_, rfl, State.fuseUpdate_lockKept fun _ => rfl⟩
    | fuseRevokeKey sess tag p => exact ⟨_, rfl, State.fuseUpdate_lockKept fun _ => rfl⟩
    | _ => exact absurd rfl hi

theorem exec_fusesGrow (i : Instr) (s : State) : ∃ t, exec i s = .next t ∧ FusesGrow s.fuses t.fuses := by
  by_cases hi : writesFuses i = false
  · obtain ⟨t, ht, hfuses, -⟩ := exec_boot i s hi
    exact ⟨t, ht, .of_eq hfuses⟩
  · cases i with
    | fuseRaiseMinVersion sess tag p =>
      refine ⟨_, rfl, State.fuseUpdate_grow fun u => ⟨rfl, rfl, rfl, rfl, rfl, id, id, ?_⟩⟩
      exact (le_max_left _ _).trans_eq (toNat_max_le u.fuses.minSecurity p 4).symm
    | fuseRevokeKey sess tag p =>
      refine ⟨_, rfl, State.fuseUpdate_grow fun u => ⟨rfl, rfl, rfl, rfl, rfl, ?_, ?_, le_rfl⟩⟩
      · exact fun h => by simp [h]
      · exact fun h => by simp [h]
    | _ => exact absurd rfl hi

/-- Settles O59: every command keeps the lock or starts the engine anew, and a tick keeps it. -/
theorem lockedConfigurationStands : Obligations.LockedConfigurationStands := by
  intro s t hpast hstep
  cases hpending : s.pending with
  | nil =>
    rw [step, hpending] at hstep
    cases hstep
    exact (State.tick_keeps s .rfl).lockKept hpast
  | cons c rest =>
    rw [step, hpending] at hstep
    obtain ⟨u, hu, hlock⟩ := exec_lockKept c { s with pending := rest }
    cases hu.symm.trans hstep
    exact hlock hpast

/-- Settles O60: no other command writes a fuse, and FUSE_UPDATE's two only raise the minimum and set a revoke bit. -/
theorem fusesOneWay : Obligations.FusesOneWay := by
  intro c s t ht
  refine ⟨fun hraise hrevoke => ?_, ?_⟩
  · have hc : writesFuses c = false := by
      cases c with
      | fuseRaiseMinVersion sess tag p => exact absurd rfl (hraise sess tag p)
      | fuseRevokeKey sess tag p => exact absurd rfl (hrevoke sess tag p)
      | _ => rfl
    obtain ⟨u, hu, hfuses, -⟩ := exec_boot c s hc
    cases hu.symm.trans ht
    exact hfuses
  · obtain ⟨u, hu, keyHash0, keyHash1, stepping, grade, fusedOff, revoked0, revoked1, minSecurity⟩ := exec_fusesGrow c s
    cases hu.symm.trans ht
    exact ⟨keyHash0, keyHash1, stepping, grade, fusedOff, revoked0, revoked1, minSecurity⟩

end Sys2Proof.Machine
end

section
/-! Settling O2, O3 and O58: what the engine is right after a reset (R58-R61, R141, R156, R318, R394, R423, R452, R460, R487, R529, R537, R547). -/

namespace Sys2Proof.Machine

/-! ## A power-on reset and the loss of power (R58, R59, R423) -/

theorem ErrLog.afterPowerOn_eq (l : ErrLog) :
    l.afterPowerOn = { attic := l.attic, nextSeq := ((l.attic.getLast?).map (fun r => r.seq + 1)).getD 0 } := by
  unfold afterPowerOn
  cases l.attic.getLast? <;> rfl

/-- What a power-on reset leaves is the reset state, with what fuses, flash, Attic, die and sled hold. -/
theorem State.powerOn_eq (s : State) : s.powerOn = { State.reset with
    pending := s.pending, freeCtr := s.freeCtr, sled := s.sled, fuses := s.fuses, flash := s.flash,
    log := { attic := s.log.attic, nextSeq := ((s.log.attic.getLast?).map (fun r => r.seq + 1)).getD 0 },
    thermal := { tj := s.thermal.tj, coreMv := s.thermal.coreMv, cclkMHz := 100 * s.fuses.grade } } := by
  rw [powerOn, ErrLog.afterPowerOn_eq]
  rfl

section Power
variable {s : State}

theorem exec_powerOnReset (hpath : s.sled.path = .sequencing ∨ s.sled.path = .on) (hrefclk : s.sled.refclk = true) :
    exec .powerOnReset s = .next { s.powerOn with sled := { s.sled with path := .on } } :=
  if_pos (by rcases hpath with h | h <;> rw [h, hrefclk] <;> rfl)

theorem exec_refclkLoss_on (h : s.sled.path = .on) : exec .refclkLoss s = .next { s.powerOn with sled := { s.sled with refclk := false } } :=
  if_pos (by rw [h]; rfl)

theorem exec_refclkLoss_off (h : s.sled.path ≠ .on) : exec .refclkLoss s = .next { s with sled := { s.sled with refclk := false } } :=
  if_neg (by simpa using h)

theorem exec_refclkRestored_on (h : s.sled.path = .on) (hrefclk : s.sled.refclk = false) :
    exec .refclkRestored s = .next { s.powerOn with sled := { s.sled with refclk := true } } :=
  (if_neg (by simp [hrefclk])).trans (if_pos (by rw [h]; rfl))

/-- Off the main path REFCLK_25 is seen at the sled alone. -/
theorem exec_refclkRestored_off (h : s.sled.path ≠ .on) :
    exec .refclkRestored s = .next { s with sled := { s.sled with refclk := true } } := by
  change execRefclkRestored s = _
  cases hrefclk : s.sled.refclk with
  | false => simp [execRefclkRestored, hrefclk, h]
  | true =>
    have hsled : s.sled = { s.sled with refclk := true } := by rw [← hrefclk]
    rw [← hsled]
    exact if_pos hrefclk

theorem exec_inputVoltageFault_outside {mv : Nat} (h : mv < 44000 ∨ 60000 < mv) :
    exec (.inputVoltageFault mv) s = .next ({ s with sled := { s.sled with inputMv := mv } } : State).powerLost :=
  if_pos (by simpa using h)

theorem exec_inputVoltageFault_within {mv : Nat} (hlo : 44000 ≤ mv) (hhi : mv ≤ 60000) : exec (.inputVoltageFault mv) s = .next s :=
  if_neg (by simp; omega)

/-- Tj is the highest sensor (R547). -/
theorem exec_temperatureUpdate {l : List Int} {tj : Int} (cv : Nat) (hmem : tj ∈ l) (hmax : ∀ x ∈ l, x ≤ tj) :
    let u : State := { s with thermal := { s.thermal with tj := tj, coreMv := cv } }
    exec (.temperatureUpdate l cv) s = .next (if 460 ≤ tj then u.powerLost else u) := by
  cases l with
  | nil => cases hmem
  | cons x l =>
    have htj : l.foldl max x = tj := Option.some_inj.mp (List.max?_cons'.symm.trans (List.max?_eq_some_iff.mpr ⟨hmem, hmax⟩))
    change execTemperatureUpdate (x :: l) cv s = _
    simp only [execTemperatureUpdate, htj]

end Power

/-- Settles O2: each of these commands leaves what a power-on reset does, or the sled alone. -/
theorem resetsAndPowerLoss : Obligations.ResetsAndPowerLoss := by
  refine ⟨fun s => ?cold, fun s => ?off⟩
  case cold =>
    have hcold := s.powerOn_eq
    refine ⟨fun hpath hrefclk => ?_, fun hpath => ?_, fun hpath hrefclk => ?_, exec_refclkLoss_off, exec_refclkRestored_off⟩
    · rw [exec_powerOnReset hpath hrefclk, hcold]
    · rw [exec_refclkLoss_on hpath, hcold]
    · rw [exec_refclkRestored_on hpath hrefclk, hcold]
  case off =>
    refine ⟨?unmate, fun mv h => ?fault, fun mv hlo hhi => exec_inputVoltageFault_within hlo hhi, fun l cv tj hmem hmax => ?hot⟩
    case unmate =>
      change Host.Outcome.next ({ s with sled := { s.sled with prsntLow := false } } : State).powerLost = _
      rw [State.powerLost, State.powerOn_eq]
    case fault => rw [exec_inputVoltageFault_outside h, State.powerLost, State.powerOn_eq]
    case hot => rw [exec_temperatureUpdate cv hmem hmax, State.powerLost, State.powerOn_eq]

/-! ## No extent granted, no region, no key, no context assigned (R59) -/

/-- The blocks that every reset clears are as they are right after reset. -/
def Cleared (t : State) : Prop := t.cellar = {} ∧ t.ctxs = [] ∧ t.sync = {} ∧ t.hearth.startup = .reset

theorem State.powerOn_cleared (s : State) (x : Sled) : Cleared { s.powerOn with sled := x } := ⟨rfl, rfl, rfl, rfl⟩

theorem State.warmReset_cleared (s : State) (r : BootReason) : Cleared (s.warmReset r) := ⟨rfl, rfl, rfl, rfl⟩

theorem Cleared.nothingGranted {t : State} (h : Cleared t) : (∀ e, (t.ext e).state = .free ∧ (t.ext e).owner = .none) ∧ t.cellar.regions = [] ∧
    (∀ k, FMap.find t.cellar.keys k = none) ∧ (∀ c, (t.ctx c).state = .unassigned ∧ (t.ctx c).asg.valid = false) ∧
    t.sync.status = .unsynced ∧ t.hearth.startup = .reset := by
  obtain ⟨hcellar, hctxs, hsync, hstartup⟩ := h
  have hext (e : Nat) : t.ext e = {} := by rw [State.ext, hcellar]; rfl
  have hctx (c : Nat) : t.ctx c = {} := by rw [State.ctx, hctxs]; rfl
  refine ⟨fun e => ?_, by rw [hcellar], fun k => by rw [hcellar]; rfl, fun c => ?_, by rw [hsync], hstartup⟩
  · rw [hext]
    exact ⟨rfl, rfl⟩
  · rw [hctx]
    exact ⟨rfl, rfl⟩

theorem exec_warmReset_cleared {s : State} {sess : Option Nat} (tag : BitVec 16) (hon : s.mgmtOn = true) (hsess : s.fmSession sess = true) :
    ∃ t, exec (.warmReset sess tag []) s = .next t ∧ Cleared t :=
  ⟨_, congrArg Host.Outcome.next (State.command_of_session hon hsess rfl rfl), rfl, rfl, rfl, rfl⟩

/-- The second miss in a row resets the engine (R451). -/
theorem exec_watchdogPeriodEnd_cleared {s : State} (hmissed : s.wdMissed ≠ 0) (hstreak : 0 < s.wd.streak) :
    ∃ t, exec .watchdogPeriodEnd s = .next t ∧ Cleared t := by
  refine ⟨_, (if_neg hmissed).trans (congrArg Host.Outcome.next (if_pos (by simpa using hstreak))), ?_⟩
  exact State.warmReset_cleared _ _

/-- Settles O3: each reset leaves the blocks that hold grants, regions, keys and assignments as they are right after reset. -/
theorem resetsLeaveNothingGranted : Obligations.ResetsLeaveNothingGranted := by
  intro s
  refine ⟨fun hpath hrefclk => ?_, fun sess tag hon hsess => ?_, fun hmissed hstreak => ?_, ?_⟩
  · exact ⟨_, exec_powerOnReset hpath hrefclk, (s.powerOn_cleared _).nothingGranted⟩
  · obtain ⟨t, ht, hcleared⟩ := exec_warmReset_cleared tag hon hsess
    exact ⟨t, ht, hcleared.nothingGranted⟩
  · obtain ⟨t, ht, hcleared⟩ := exec_watchdogPeriodEnd_cleared hmissed hstreak
    exact ⟨t, ht, hcleared.nothingGranted⟩
  · exact ⟨_, rfl, (State.warmReset_cleared _ _).nothingGranted⟩

/-! ## Right after reset -/

/-- Settles O58: the reset state is empty, so every unit of it is at its default. -/
theorem resetState : Obligations.ResetState := by
  refine ⟨rfl, rfl, rfl, rfl, rfl, rfl, fun c => rfl, fun i => rfl, fun h => rfl, fun p => rfl, fun i t => rfl, rfl, rfl, rfl, rfl, rfl, rfl, ?_⟩
  intro hlocked
  cases hlocked

end Sys2Proof.Machine
end

section
/-! What the settling of contexts and the failing of Figures leave: grants, sessions, and what a host has configured (O12 and O13 rest on it). -/

namespace Sys2Proof.Machine

/-! ## A view that settling does not move -/

/-- A host block without what Figures have in flight through it: reads, writes and the counts of those dropped. -/
def HostPort.configured (x : HostPort) : HostPort :=
  { x with path := [], heldWrites := [], pathSince := 0, droppedWrites := 0, pba := [], tags := [], heldReads := [], targetResets := 0 }

/-- A view of the state that the parts of settling leave: contexts, queues, Bells, records and counts may change under it. -/
structure SettleFrame {β : Type} (p : State → β) : Prop where
  ctx : ∀ s n x, p (State.putCtx s n x) = p s
  host : ∀ s n x, HostPort.configured x = (State.host s n).configured → p (State.putHost s n x) = p s
  port : ∀ s n x, p (State.putPort s n x) = p s
  suite : ∀ s n x, p (State.putSuite s n x) = p s
  grp : ∀ s n x, p (State.putGrp s n x) = p s
  bell : ∀ s off f, p (State.modBell s off f) = p s
  record : ∀ s a, p (State.record s a) = p s
  wake : ∀ s, p (State.wake s) = p s
  service : ∀ (s : State) v, p { s with svc := v } = p s
  freed : ∀ s c f, p (State.freeFlight s c f) = p s

namespace SettleFrame

section
variable {β : Type} {p : State → β} (hp : SettleFrame p) (s : State) (c : Nat)
include hp

theorem post (h : Nat) (w : HostWrite) : p (s.post h w) = p s := by
  unfold State.post
  dsimp only
  split
  · exact hp.host _ _ _ rfl
  · exact hp.host _ _ _ rfl

theorem msix (h v : Nat) : p (s.msix h v) = p s := by
  unfold State.msix
  dsimp only
  split
  · split
    · exact hp.host _ _ _ rfl
    · rfl
  · split
    · exact hp.host _ _ _ rfl
    · exact hp.post s _ _

theorem progressIn (i : Option Nat) : p (s.progressIn i) = p s := by
  cases i with
  | none => rfl
  | some i => exact hp.suite _ _ _

theorem countService (st d : Nat) : p (s.countService st d) = p s := by
  unfold State.countService State.countTarget
  split
  · split
    · exact hp.host _ _ _ rfl
    · exact hp.service _ _
  · rfl

theorem endFlight (fid : Nat) (d : Done) : p (s.endFlight c fid d) = p s := by
  unfold State.endFlight
  split
  · split
    · rfl
    · exact (hp.ctx _ _ _).trans (hp.freed _ _ _)
  · rfl

theorem failFlight (fid : Nat) (d : Done) : p (s.failFlight c fid d) = p s := by
  unfold State.failFlight
  split
  · split
    · rfl
    · exact (hp.endFlight _ _ _ _).trans (s.tellPeers_frame p hp.port hp.grp _ _)
  · rfl

theorem failWhere (q : Nat → Flight → Bool) (status detail : Nat) : p (s.failWhere q status detail) = p s := by
  refine overList_frame p (fun u c => overList_frame p (fun u f => ?_) _ u) _ s
  split
  · exact hp.failFlight u c _ _
  · rfl

theorem writeEntry (f : Flight) (d : Done) : p (s.writeEntry c f d) = p s := by
  unfold State.writeEntry
  dsimp only
  split
  · exact (hp.ctx _ _ _).trans (hp.post s _ _)
  · exact hp.host _ _ _ rfl

theorem statusRecord (f : Flight) (d : Done) : p (s.statusRecord c f d) = p s := by
  unfold State.statusRecord
  dsimp only
  split
  · exact hp.record _ _
  split
  · exact hp.record _ _
  split
  · exact hp.record _ _
  · rfl

theorem failGroup (f : Flight) : p (s.failGroup c f) = p s := by
  unfold State.failGroup
  split
  · rfl
  · refine overList_frame p (fun u y => (hp.ctx _ _ _).trans ?_) _ s
    split
    · rfl
    · exact hp.freed u c y

theorem delivered (f : Flight) (d : Done) : p (s.delivered c f d) = p s := by
  have hentry : p (if f.takesEntry d then s.writeEntry c f d else s) = p s := by
    split
    · exact hp.writeEntry s c f d
    · rfl
  have hvector (u : State) : p (if f.irq then u.ctxVector c else u) = p u := by
    split
    · exact hp.msix u _ _
    · rfl
  unfold State.delivered
  dsimp only
  split
  · rw [hp.statusRecord, hvector, hentry]
  · rw [hp.failGroup, hp.statusRecord, hvector, hentry]

theorem complete (f : Flight) (d : Done) : p (s.complete c f d) = p s := by
  rw [State.complete_eq]
  exact (hp.progressIn _ _).trans ((hp.ctx _ _ _).trans (hp.delivered s c f _))

theorem retire (n : Nat) : p (retire c n s) = p s := by
  induction n generalizing s with
  | zero => rfl
  | succ n ih =>
    rw [Machine.retire]
    split
    · rw [ih, hp.complete]
    · rfl

theorem drainEnd : p (s.drainEnd c) = p s := by
  obtain h | ⟨x, -, h | h | h⟩ := s.drainEnd_cases c <;> rw [h]
  · exact hp.ctx _ _ _
  · exact (hp.msix _ _ _).trans (hp.ctx _ _ _)
  · exact (hp.wake _).trans (hp.ctx _ _ _)

theorem settleFlights : p (s.settleFlights c) = p s := by
  have hrefresh (u : State) : p (u.refresh c) = p u := by
    obtain h | ⟨st, h⟩ := u.refresh_eq c <;> rw [h]
    exact hp.ctx _ _ _
  rw [State.settleFlights, hrefresh, hp.drainEnd, hp.retire]

theorem ringLocal (id : Nat) (add : Bool) (v : Word64) : p (s.ringLocal c id add v).2 = p s :=
  (hp.progressIn _ _).trans (hp.ctx _ _ _)

theorem ringRecord (off : Nat) (add : Bool) (v : Word64) (eng ctx fig : Nat) : p (s.ringRecord off add v eng ctx fig).2 = p s :=
  (hp.progressIn _ _).trans (hp.bell _ _ _)

theorem takeBell (b : BellRef) (result : Nat) : p (s.takeBell c b result) = p s := by
  refine (hp.progressIn _ _).trans ((hp.ctx _ _ _).trans ?_)
  cases b with
  | loc id => exact hp.ctx _ _ _
  | virt o => exact (hp.progressIn _ _).trans (hp.bell _ _ _)
  | away e o => rfl

theorem wakeBell (b : BellRef) : p (s.wakeBell c b) = p s := by
  have hwaits (st : Bool × Word64) (ws : List Nat) (u : State) : p (overList (fun s w =>
      overList (fun s f => if f.waitMet b st.1 st.2 then s.endFlight w f.fid { status := 0 } else s) (s.ctx w).flights s) ws u) = p u := by
    refine overList_frame p (fun u w => overList_frame p (fun u f => ?_) _ u) _ u
    split
    · exact hp.endFlight u w _ _
    · rfl
  unfold State.wakeBell
  dsimp only
  rw [overList_frame p (fun u w => hp.settleFlights u w)]
  split
  · split
    · rw [hp.endFlight, hp.takeBell, hwaits]
    · exact hwaits _ _ s
  · exact hwaits _ _ s

theorem ringGo (f : Flight) : p (s.ringGo c f) = p s := by
  unfold State.ringGo
  split
  · split
    · rfl
    · split
      · exact (hp.wakeBell _ _ _).trans ((hp.endFlight _ _ _ _).trans (hp.ringLocal s c _ _ _))
      · dsimp only
        split
        · rw [hp.endFlight, hp.countService]
          split
          · exact hp.record _ _
          · rfl
        · exact (hp.wakeBell _ _ _).trans ((hp.endFlight _ _ _ _).trans (hp.ringRecord s _ _ _ _ _ _))
      · split
        · rfl
        · exact (hp.ctx _ _ _).trans (hp.port _ _ _)
  · rfl

theorem settle : p (s.settle c) = p s := by
  have hrings (u : State) : p (u.ringsGo c) = p u := overList_frame p (fun u f => hp.ringGo u c f) _ u
  rw [State.settle, hp.settleFlights, hrings, hp.settleFlights, hrings]

theorem settleAll : p s.settleAll = p s := overList_frame p (fun u c => hp.settle u c) _ s

end

end SettleFrame

/-! ## Grants, sessions and host configuration -/

/-- What hosts hold of the engine: extents, sessions, and each host block as configured. -/
structure Tenure where
  extents : FMap Extent
  sessions : List Session
  hosts : Nat → HostPort

def State.tenure (s : State) : Tenure := ⟨s.cellar.extents, s.mgmt.sessions, fun h => (s.host h).configured⟩

theorem State.putHost_tenure (s : State) (n : Nat) (x : HostPort) (h : x.configured = (s.host n).configured) :
    (s.putHost n x).tenure = s.tenure := by
  refine congrArg (Tenure.mk s.cellar.extents s.mgmt.sessions) (funext fun k => ?_)
  rw [putHost_host]
  split
  next hk => rw [hk, h]
  next => rfl

/-- An event goes to the sessions that are open, and opens or closes none (R517). -/
theorem State.sendEvent_sessions (s : State) (code : Nat) (payload : List Byte) : (s.sendEvent code payload).mgmt.sessions = s.mgmt.sessions := by
  unfold sendEvent Mgmt.event
  dsimp only
  split
  · rfl
  · split <;> rfl

theorem State.record_sessions (s : State) (a : RecArgs) : (s.record a).mgmt.sessions = s.mgmt.sessions := by
  unfold record
  split
  · rfl
  · split
    · exact sendEvent_sessions _ _ _
    · rfl

theorem State.record_tenure (s : State) (a : RecArgs) : (s.record a).tenure = s.tenure := by
  have hhosts (h : Nat) : (s.record a).host h = s.host h := s.record_host a h
  simp only [tenure, record_cellar, record_sessions, hhosts]

/-- A host block from which a flight's reads are gone (R160). -/
def HostPort.readsDropped (x : HostPort) (c fid : Nat) : HostPort :=
  { x with heldReads := x.heldReads.filter (fun r => r.owner.flight != (c, fid)),
           tags := x.tags.map (fun t => if t.req.owner.flight = (c, fid) then { t with abandoned := true } else t) }

/-- A host block from which a flight's writes are gone that are not on their path (R160, R253). -/
def HostPort.writesDropped (x : HostPort) (c fid : Nat) : HostPort :=
  { x with heldWrites := x.heldWrites.filter (fun w => match w with | .data _ _ d f => !(d == c && f == fid) | .msix .. => true) }

theorem State.dropReads_host (s : State) (c fid h : Nat) : (s.dropReads c fid).host h = (s.host h).readsDropped c fid :=
  FMap.get_mapped ({} : HostPort) s.hosts (fun _ x => x.readsDropped c fid) h rfl

theorem State.dropWrites_host (s : State) (c fid h : Nat) : (s.dropWrites c fid).host h = (s.host h).writesDropped c fid :=
  FMap.get_mapped ({} : HostPort) s.hosts (fun _ x => x.writesDropped c fid) h rfl

/-- What is left of a host block that has lost reads or writes is configured as before. -/
theorem State.tenure_eq_of_hosts {s t : State} (he : t.cellar = s.cellar) (hm : t.mgmt = s.mgmt)
    (hh : ∀ h, (t.host h).configured = (s.host h).configured) : t.tenure = s.tenure := by
  rw [tenure, he, hm, funext hh, tenure]

theorem State.freeFlight_tenure (s : State) (c : Nat) (f : Flight) : (s.freeFlight c f).tenure = s.tenure := by
  have hwaiter : (s.clearWaiter c f.kind).tenure = s.tenure := by
    unfold clearWaiter
    split <;> rfl
  have hreads (u : State) : (u.dropReads c f.fid).tenure = u.tenure :=
    tenure_eq_of_hosts rfl rfl fun h => by rw [dropReads_host]; rfl
  have hwrites (u : State) : (u.dropWrites c f.fid).tenure = u.tenure :=
    tenure_eq_of_hosts rfl rfl fun h => by rw [dropWrites_host]; rfl
  have hwire (u : State) : (u.dropWire c f).tenure = u.tenure := by
    unfold dropWire
    dsimp only
    split <;> rfl
  calc (s.freeFlight c f).tenure
      = ((((s.clearWaiter c f.kind).dropReads c f.fid).dropWrites c f.fid).dropWire c f).tenure := rfl
    _ = s.tenure := by rw [hwire, hwrites, hreads, hwaiter]

theorem settleFrame_tenure : SettleFrame State.tenure where
  ctx _ _ _ := rfl
  host := State.putHost_tenure
  port _ _ _ := rfl
  suite _ _ _ := rfl
  grp _ _ _ := rfl
  bell _ _ _ := rfl
  record := State.record_tenure
  wake s := by
    obtain ⟨pw, h⟩ := s.wake_eq
    rw [h]
    rfl
  service _ _ := rfl
  freed := State.freeFlight_tenure

end Sys2Proof.Machine
end

section
/-! Settling O12 and O13: host links, configuration requests and host sessions (R83, R335, R349, R352, R393-R395, R400, R401, R409-R412, R467). -/

namespace Sys2Proof.Machine

/-! ## One host block alone changes -/

/-- From `s` to `t` nothing has changed but host block `h`. -/
structure OnlyHost (h : Nat) (s t : State) : Prop where
  rest : t = { s with hosts := t.hosts }
  others : ∀ k, k ≠ h → t.host k = s.host k

theorem OnlyHost.refl (h : Nat) (s : State) : OnlyHost h s s := ⟨rfl, fun _ _ => rfl⟩

theorem OnlyHost.trans {h : Nat} {s t u : State} (hst : OnlyHost h s t) (htu : OnlyHost h t u) : OnlyHost h s u := by
  refine ⟨?_, fun k hk => (htu.others k hk).trans (hst.others k hk)⟩
  have hrest := htu.rest
  rw [hst.rest] at hrest
  exact hrest

theorem OnlyHost.putHost (s : State) (h : Nat) (x : HostPort) : OnlyHost h s (s.putHost h x) :=
  ⟨rfl, fun _ hk => s.putHost_host_ne x hk⟩

theorem OnlyHost.cellar {h : Nat} {s t : State} (ho : OnlyHost h s t) : t.cellar = s.cellar := by rw [ho.rest]
theorem OnlyHost.ctxs {h : Nat} {s t : State} (ho : OnlyHost h s t) : t.ctxs = s.ctxs := by rw [ho.rest]

theorem OnlyHost.post (s : State) (h : Nat) (w : HostWrite) : OnlyHost h s (s.post h w) := by
  unfold State.post
  dsimp only
  split
  · exact .putHost _ _ _
  · exact .putHost _ _ _

theorem OnlyHost.msix (s : State) (h v : Nat) : OnlyHost h s (s.msix h v) := by
  unfold State.msix
  dsimp only
  split
  · split
    · exact .putHost _ _ _
    · exact .refl _ _
  · split
    · exact .putHost _ _ _
    · exact .post _ _ _

theorem OnlyHost.pumpHost (s : State) (h : Nat) : OnlyHost h s (s.pumpHost h) := by
  unfold State.pumpHost
  dsimp only
  split
  · exact .refl _ _
  · exact .putHost _ _ _

/-- A vector leaves every block as configured. -/
theorem State.msix_configured (s : State) (h v k : Nat) : ((s.msix h v).host k).configured = (s.host k).configured :=
  congrFun (congrArg Tenure.hosts (settleFrame_tenure.msix s h v)) k

/-! ## A link comes up and changes its width (R83, R393, R394, R411, R412) -/

section LinkUp
variable (s : State) (h : Nat)

/-- The port serves its host, whatever it sends to tell of degraded operation. -/
theorem State.serveHost_effect : OnlyHost h s (s.serveHost h) ∧
    ((s.serveHost h).host h).configured = ({ s.host h with state := .serving, everServed := true } : HostPort).configured := by
  have hput := OnlyHost.putHost s h { s.host h with state := .serving, everServed := true }
  have hself : ((s.putHost h { s.host h with state := .serving, everServed := true }).host h) = { s.host h with state := .serving, everServed := true } :=
    putHost_host_self _ _ _
  unfold serveHost
  rw [modHost_eq]
  dsimp only
  split
  · exact ⟨hput.trans (.msix _ _ _), (msix_configured _ _ _ _).trans (congrArg _ hself)⟩
  · exact ⟨hput, congrArg _ hself⟩

/-- The host block with its link up, before anything serves. -/
def State.linkedUp (rate width : Nat) : HostPort :=
  { s.host h with state := .upNotReady, rate := rate, width := min width (s.fullWidth h),
                  degraded := s.isDegraded h rate (min width (s.fullWidth h)) }

theorem exec_hostLinkUp {s : State} {h : Fin 16} {rate : Nat} (width : Nat) (hin : h.val ∈ s.hostIndices) (htrains : (s.host h.val).trains = true)
    (hopen : s.portsOpen = true) (hlive : s.hearth.live = none) (hlo : 1 ≤ rate) (hhi : rate ≤ 6) :
    exec (.hostLinkUp h rate width) s = .next (if s.isReady then (s.putHost h.val (s.linkedUp h.val rate width)).serveHost h.val
      else s.putHost h.val (s.linkedUp h.val rate width)) := by
  change execHostLinkUp h rate width s = _
  unfold execHostLinkUp
  exact if_pos (by simp [hin, htrains, hopen, hlive, hlo, hhi])

theorem hostLinkUp_serves {s : State} {h : Fin 16} {rate : Nat} (width : Nat) (hin : h.val ∈ s.hostIndices)
    (htrains : (s.host h.val).trains = true) (hopen : s.portsOpen = true) (hlive : s.hearth.live = none) (hlo : 1 ≤ rate) (hhi : rate ≤ 6) :
    ∃ t, exec (.hostLinkUp h rate width) s = .next t ∧
      (t.host h.val).state = (if s.isReady then .serving else .upNotReady) ∧ (t.host h.val).rate = rate ∧
      (t.host h.val).width = min width (s.fullWidth h.val) ∧ (∀ k, k ≠ h.val → t.host k = s.host k) ∧ t = { s with hosts := t.hosts } := by
  refine ⟨_, exec_hostLinkUp width hin htrains hopen hlive hlo hhi, ?_⟩
  have hput := OnlyHost.putHost s h.val (s.linkedUp h.val rate width)
  have hself := s.putHost_host_self h.val (s.linkedUp h.val rate width)
  cases s.isReady with
  | true =>
    obtain ⟨hserve, hconf⟩ := (s.putHost h.val (s.linkedUp h.val rate width)).serveHost_effect h.val
    rw [hself] at hconf
    exact ⟨congrArg HostPort.state hconf, congrArg HostPort.rate hconf, congrArg HostPort.width hconf, (hput.trans hserve).others,
      (hput.trans hserve).rest⟩
  | false =>
    simp only [Bool.false_eq_true, if_false, hself]
    exact ⟨rfl, rfl, rfl, hput.others, hput.rest⟩

/-- The host block at another width. -/
def State.rewidthed (width : Nat) : HostPort :=
  { s.host h with width := min width (s.fullWidth h), degraded := s.isDegraded h (s.host h).rate (min width (s.fullWidth h)) }

theorem hostWidthChange_serving {s : State} {h : Fin 16} (width : Nat) (hstate : (s.host h.val).state = .serving) :
    ∃ t, exec (.hostWidthChange h width) s = .next t ∧ (t.host h.val).width = min width (s.fullWidth h.val) ∧
      (t.host h.val).state = .serving ∧ (t.host h.val).barsAssigned = (s.host h.val).barsAssigned ∧
      (∀ k, k ≠ h.val → t.host k = s.host k) ∧ t = { s with hosts := t.hosts } := by
  have hexec : exec (.hostWidthChange h width) s = .next ((s.putHost h.val (s.rewidthed h.val width)).msix h.val 2) := by
    change execHostWidthChange h width s = _
    unfold execHostWidthChange
    exact if_pos (by simp [hstate])
  have honly := (OnlyHost.putHost s h.val (s.rewidthed h.val width)).trans (.msix _ h.val 2)
  have hconf := (s.putHost h.val (s.rewidthed h.val width)).msix_configured h.val 2 h.val
  rw [State.putHost_host_self] at hconf
  exact ⟨_, hexec, congrArg HostPort.width hconf, (congrArg HostPort.state hconf).trans hstate, (congrArg HostPort.barsAssigned hconf :),
    honly.others, honly.rest⟩

theorem exec_hostWidthChange_upNotReady {s : State} {h : Fin 16} (width : Nat) (hstate : (s.host h.val).state = .upNotReady) :
    exec (.hostWidthChange h width) s = .next (s.putHost h.val (s.rewidthed h.val width)) := by
  change execHostWidthChange h width s = _
  unfold execHostWidthChange
  exact (if_neg (by simp [hstate])).trans (if_pos (by simp [hstate]))

end LinkUp

/-! ## A link goes down (R352, R409, R410) -/

section LinkDown
variable (s : State) (h : Nat)

/-- The extents as a host's fencing leaves them. -/
def fenced (h : Nat) (x : Extent) : Extent := if x.state = .granted ∧ x.owner = .host h then { x with state := .fenced } else x

theorem fenced_not_granted {h : Nat} {x : Extent} (howner : (fenced h x).owner = .host h) : (fenced h x).state ≠ .granted := by
  unfold fenced at howner ⊢
  split
  · simp
  next hno =>
    rw [if_neg hno] at howner
    exact fun hg => hno ⟨hg, howner⟩

/-- What a lost link leaves: the host's extents fenced, its session gone, its function as after power-on (R409). -/
theorem State.linkLost_tenure (tgt : HostState) (status detail : Nat) :
    let t := s.linkLost h tgt status detail
    t.cellar.extents = s.cellar.extents.map (fun (e, x) => (e, fenced h x)) ∧
    t.mgmt.sessions = s.mgmt.sessions.filter (fun y => y.host != some h) ∧
    (t.host h).state = tgt ∧ (t.host h).barsAssigned = false ∧ (t.host h).busMaster = false ∧ (t.host h).msix = [] := by
  unfold linkLost
  simp only [modHost_eq]
  generalize hu : (s.fenceHost h).putHost h _ = u
  have hfail := settleFrame_tenure.failWhere u (fun c f => u.needsHost h c f) status detail
  generalize hv : u.failWhere _ status detail = v at hfail ⊢
  have hsettle := settleFrame_tenure.settleAll (v.putHost h
    ({ v.host h with droppedWrites := satAdd (v.host h).droppedWrites ((v.host h).path.length + (v.host h).heldWrites.length) } : HostPort).resetFunction)
  have hextents := congrArg Tenure.extents hsettle
  have hsessions := congrArg Tenure.sessions hsettle
  have hhost := congrFun (congrArg Tenure.hosts hsettle) h
  have hvhost := congrFun (congrArg Tenure.hosts hfail) h
  have huhost : u.host h = { s.host h with state := tgt, width := 0, rate := 0, degraded := false } := by
    rw [← hu, putHost_host_self]
    rfl
  simp only [tenure, putHost_host_self] at hhost hvhost
  rw [huhost] at hvhost
  refine ⟨?_, ?_, ?_, ?_, ?_, ?_⟩
  · exact hextents.trans ((congrArg Tenure.extents hfail).trans (by rw [← hu]; rfl))
  · exact hsessions.trans ((congrArg Tenure.sessions hfail).trans (by rw [← hu]; rfl))
  · exact (congrArg HostPort.state hhost).trans (congrArg HostPort.state hvhost)
  · exact congrArg HostPort.barsAssigned hhost
  · exact congrArg HostPort.busMaster hhost
  · exact congrArg HostPort.msix hhost

theorem hostLinkDown_fences {s : State} {h : Fin 16} (hstate : (s.host h.val).state = .serving ∨ (s.host h.val).state = .upNotReady) :
    ∃ t, exec (.hostLinkDown h) s = .next t ∧
      (t.host h.val).state = .linkLost ∧ (t.host h.val).barsAssigned = false ∧ (t.host h.val).busMaster = false ∧ (t.host h.val).msix = [] ∧
      (∀ e, (t.ext e).owner = .host h.val → (t.ext e).state ≠ .granted) ∧ (∀ y ∈ t.mgmt.sessions, y.host ≠ some h.val) := by
  have hexec : exec (.hostLinkDown h) s = .next (s.linkLost h.val .linkLost 0x23 (s.hostPos h.val)) :=
    if_pos (by rcases hstate with h | h <;> rw [h] <;> rfl)
  obtain ⟨hext, hsess, hlost, hbars, hbm, hmsix⟩ := s.linkLost_tenure h.val .linkLost 0x23 (s.hostPos h.val)
  refine ⟨_, hexec, hlost, hbars, hbm, hmsix, fun e howner => ?_, fun y hy => ?_⟩
  · have he : (s.linkLost h.val .linkLost 0x23 (s.hostPos h.val)).ext e = fenced h.val (s.ext e) := by
      rw [State.ext, hext]
      exact FMap.get_mapped ({} : Extent) s.cellar.extents (fun _ => fenced h.val) e rfl
    rw [he] at howner ⊢
    exact fenced_not_granted howner
  · rw [hsess] at hy
    simpa using (List.mem_filter.mp hy).2

end LinkDown

/-- Settles O12: a link trains, changes its width, and goes down. -/
theorem hostLinkUpAndDown : Obligations.HostLinkUpAndDown := fun _ _ =>
  ⟨fun _ width hin htrains hopen hlive hlo hhi => hostLinkUp_serves width hin htrains hopen hlive hlo hhi,
    hostLinkDown_fences, hostWidthChange_serving, exec_hostWidthChange_upNotReady⟩

/-! ## Configuration requests (R83, R335, R395, R400, R401, R467) -/

/-- An engine that is awake takes a host's traffic at once. -/
theorem State.hostIn_of_awake {s : State} (ha : s.asleep = false) (h : Nat) (i : Instr) (f : State → Out) : s.hostIn h i f = f s := by
  unfold hostIn arrive
  split
  · exact if_neg (by simp [ha])
  · rfl

section Config
variable {s : State} {h : Fin 16}

theorem exec_configRequest (req : ConfigReq) (hb : (s.host h.val).blocked = false) (hs : (s.host h.val).state = .serving)
    (ha : s.asleep = false) : exec (.configRequest h req) s =
      .next ((s.config h.val req).answer h.val (match req with | .readClassCode => .data (toLe 3 (s.classCode h.val)) | _ => .done)) := by
  change execConfigRequest h req s = _
  unfold execConfigRequest
  rw [State.hostIn_of_awake ha]
  exact (if_neg (by simp [hb])).trans ((if_neg (by simp [hs])).trans (if_pos (by simp [hs])))

theorem exec_configRequest_upNotReady (req : ConfigReq) (hb : (s.host h.val).blocked = false) (hs : (s.host h.val).state = .upNotReady) :
    exec (.configRequest h req) s = .next (s.answer h.val .rrs) := by
  change execConfigRequest h req s = _
  unfold execConfigRequest State.hostIn
  rw [if_neg (by simp [State.hostServing, hs])]
  simp [hb, hs]

theorem exec_configRequest_blocked (req : ConfigReq) (hb : (s.host h.val).blocked = true) (ha : s.asleep = false) :
    exec (.configRequest h req) s = .next (s.blockedReq h.val (some .ca)) := by
  change execConfigRequest h req s = _
  unfold execConfigRequest
  rw [State.hostIn_of_awake ha]
  simp [hb]

end Config

/-- Reads that go out leave the block as configured. -/
theorem pumpReads_configured (limit : Nat) (now : Word64) (ats : Bool) (n : Nat) (x : HostPort) :
    (pumpReads limit now ats n x).configured = x.configured := by
  induction n generalizing x with
  | zero => rfl
  | succ n ih =>
    rw [pumpReads]
    split
    · rfl
    · split
      · exact ih _
      · rfl

theorem State.pumpHost_configured (s : State) (h : Nat) : ((s.pumpHost h).host h).configured = (s.host h).configured := by
  unfold pumpHost
  dsimp only
  split
  · rfl
  · rw [putHost_host_self]
    exact pumpReads_configured _ _ _ _ _

theorem HostPort.pump_of_noWrites {x : HostPort} (hw : x.heldWrites = []) (ats : Bool) (now : Word64) : x.pump ats now = x := by
  cases x
  cases hw
  simp [pump, pumpWrites]

/-- With nothing held there is nothing to send. -/
theorem State.pumpHost_of_nothingHeld {s : State} {h : Nat} (hr : (s.host h).heldReads = []) (hw : (s.host h).heldWrites = []) :
    (s.pumpHost h).host h = s.host h := by
  unfold pumpHost
  dsimp only
  split
  · rfl
  · rw [putHost_host_self, hr]
    exact HostPort.pump_of_noWrites hw _ _

section Requests
variable (s : State) (h : Nat) (c : HostCpl)

/-- An answer is its completion alone. -/
theorem State.answer_effect : OnlyHost h s (s.answer h c) ∧ (s.answer h c).host h = { s.host h with cpl := c, cplLoad := none } :=
  ⟨.putHost _ _ _, putHost_host_self _ _ _⟩

theorem State.put_answer (x : HostPort) : OnlyHost h s ((s.putHost h x).answer h c) ∧
    ((s.putHost h x).answer h c).host h = { x with cpl := c, cplLoad := none } := by
  obtain ⟨honly, hself⟩ := (s.putHost h x).answer_effect h c
  rw [putHost_host_self] at hself
  exact ⟨(OnlyHost.putHost s h x).trans honly, hself⟩

/-- Bus Master Enable is set, and what was held goes out. -/
theorem State.busMasterOn_effect : let t := (s.config h (.busMaster true)).answer h c
    OnlyHost h s t ∧ (t.host h).busMaster = true ∧ (t.host h).cpl = c ∧
    ((s.host h).heldReads = [] → (s.host h).heldWrites = [] → t.host h = { s.host h with busMaster := true, cpl := c, cplLoad := none }) := by
  have hon := s.putHost_host_self h { s.host h with busMaster := true }
  obtain ⟨honly, hself⟩ := ((s.putHost h { s.host h with busMaster := true }).pumpHost h).answer_effect h c
  have hconf := (s.putHost h { s.host h with busMaster := true }).pumpHost_configured h
  rw [hon] at hconf
  refine ⟨((OnlyHost.putHost _ _ _).trans (.pumpHost _ _)).trans honly, ?_, congrArg HostPort.cpl hself, fun hr hw => ?_⟩
  · exact (congrArg HostPort.busMaster hself).trans (congrArg HostPort.busMaster hconf)
  · rw [pumpHost_of_nothingHeld (by rw [hon]; exact hr) (by rw [hon]; exact hw), hon] at hself
    exact hself

/-- Bus Master Enable is cleared, whatever fails for it (R400). -/
theorem State.busMasterOff_effect : let t := (s.config h (.busMaster false)).answer h c
    (t.host h).busMaster = false ∧ (t.host h).cpl = c := by
  obtain ⟨-, hself⟩ := (s.busMasterOff h).answer_effect h c
  have hbm : ((s.busMasterOff h).host h).busMaster = false := by
    unfold busMasterOff
    rw [modHost_eq]
    have htenure := (settleFrame_tenure.settleAll _).trans (settleFrame_tenure.failWhere (s.putHost h { s.host h with busMaster := false })
      (fun c f => (s.putHost h { s.host h with busMaster := false }).needsHost h c f) 0x23
      ((s.putHost h { s.host h with busMaster := false }).hostPos h))
    have hhost := congrFun (congrArg Tenure.hosts htenure) h
    simp only [tenure, putHost_host_self] at hhost
    exact congrArg HostPort.busMaster hhost
  exact ⟨(congrArg HostPort.busMaster hself).trans hbm, congrArg HostPort.cpl hself⟩

/-- The power state of the function is taken, and contexts settle. -/
theorem State.d3hot_effect (on : Bool) : let t := (s.config h (.d3hot on)).answer h c
    (t.host h).d3hot = on ∧ (t.host h).cpl = c := by
  obtain ⟨-, hself⟩ := (s.putHost h { s.host h with d3hot := on }).settleAll.answer_effect h c
  have hhost := congrFun (congrArg Tenure.hosts (settleFrame_tenure.settleAll (s.putHost h { s.host h with d3hot := on }))) h
  simp only [tenure, putHost_host_self] at hhost
  exact ⟨(congrArg HostPort.d3hot hself).trans (congrArg HostPort.d3hot hhost), congrArg HostPort.cpl hself⟩

end Requests

/-! ## Host sessions (R349, R352, R509) -/

section Session
variable (s : State) (h : Nat) (identity : BitVec 384)

/-- An extent as a session of host `h` under an identity leaves it. -/
def sessionReturns (h : Nat) (identity : BitVec 384) (x : Extent) : Extent :=
  if x.state = .fenced ∧ x.owner = .host h ∧ x.identity = identity then { x with state := .granted } else x

/-- The session alone: what it takes, before it is told of. -/
def State.sessionOpened : State :=
  { s with
    mgmt := { s.mgmt with nextSession := s.mgmt.nextSession + 1,
                          sessions := s.mgmt.sessions.filter (fun y => y.host != some h) ++ [⟨s.mgmt.nextSession, some h, identity, s.hall⟩] },
    cellar := { s.cellar with extents := s.cellar.extents.map (fun (e, x) => (e, sessionReturns h identity x)) } }

/-- A session that opens is told of with vector 1, and the extents that stay Fenced are recorded and reported (R352, R407). -/
theorem State.hostSession_eq : ∃ (b : Bool) (kept : Nat) (p : List Byte), s.hostSession h identity =
    let v := if b then s.sessionOpened h identity else (s.sessionOpened h identity).msix h 1
    if kept = 0 then v
    else (v.record { event := 0x0106, severity := 2, unitClass := 5, unitIndex := h, detail := kept }).sendEvent 0x8003 p :=
  ⟨_, _, _, rfl⟩

/-- Telling of a session moves no extent, no session, no context. -/
theorem State.hostSession_effect : (s.hostSession h identity).mgmt.sessions = (s.sessionOpened h identity).mgmt.sessions ∧
    (s.hostSession h identity).cellar = (s.sessionOpened h identity).cellar ∧ (s.hostSession h identity).ctxs = s.ctxs := by
  obtain ⟨b, kept, p, heq⟩ := s.hostSession_eq h identity
  rw [heq]
  generalize hu : s.sessionOpened h identity = u
  have huctxs : u.ctxs = s.ctxs := by rw [← hu]; rfl
  extract_lets v
  have hv : v.mgmt.sessions = u.mgmt.sessions ∧ v.cellar = u.cellar ∧ v.ctxs = u.ctxs := by
    unfold v
    split
    · exact ⟨rfl, rfl, rfl⟩
    · exact ⟨congrArg Tenure.sessions (settleFrame_tenure.msix u h 1), (OnlyHost.msix u h 1).cellar, (OnlyHost.msix u h 1).ctxs⟩
  obtain ⟨hsessions, hcellar, hctxs⟩ := hv
  split
  · exact ⟨hsessions, hcellar, hctxs.trans huctxs⟩
  · refine ⟨?_, ?_, ?_⟩
    · rw [sendEvent_sessions, record_sessions, hsessions]
    · rw [sendEvent_cellar, record_cellar, hcellar]
    · rw [sendEvent_ctxs, record_ctxs, hctxs, huctxs]

theorem exec_hostSessionEstablished {s : State} {h : Fin 16} (hserving : s.hostServing h.val = true) (ha : s.asleep = false) :
    exec (.hostSessionEstablished h identity) s = .next (s.hostSession h.val identity) := by
  change execHostSessionEstablished h identity s = _
  unfold execHostSessionEstablished
  rw [State.hostIn_of_awake ha]
  simp [hserving]

theorem hostSession_returns {s : State} {h : Fin 16} (hserving : s.hostServing h.val = true) (ha : s.asleep = false) :
    ∃ t, exec (.hostSessionEstablished h identity) s = .next t ∧
      (∀ e x, FMap.find s.cellar.extents e = some x → x.state = .fenced → x.owner = .host h.val → x.identity = identity →
        FMap.find t.cellar.extents e = some { x with state := .granted }) ∧
      (∀ e x, FMap.find s.cellar.extents e = some x → ¬ (x.state = .fenced ∧ x.owner = .host h.val ∧ x.identity = identity) →
        FMap.find t.cellar.extents e = some x) ∧
      t.mgmt.sessions.filter (fun y => y.host == some h.val) = [⟨s.mgmt.nextSession, some h.val, identity, s.hall⟩] ∧
      (∀ y ∈ s.mgmt.sessions, y.host ≠ some h.val → y ∈ t.mgmt.sessions) ∧ t.cellar.mem = s.cellar.mem ∧ t.ctxs = s.ctxs := by
  refine ⟨_, exec_hostSessionEstablished identity hserving ha, ?_⟩
  obtain ⟨hsessions, hcellar, hctxs⟩ := s.hostSession_effect h.val identity
  rw [hsessions, hcellar]
  have hfind (e : Nat) : FMap.find (s.sessionOpened h.val identity).cellar.extents e =
      (FMap.find s.cellar.extents e).map (sessionReturns h.val identity) := FMap.find_mapped _ (fun _ => sessionReturns h.val identity) e
  refine ⟨fun e x hx hstate howner hid => ?_, fun e x hx hno => ?_, ?_, fun y hy hother => ?_, rfl, hctxs⟩
  · rw [hfind, hx, Option.map_some, sessionReturns, if_pos ⟨hstate, howner, hid⟩]
  · rw [hfind, hx, Option.map_some, sessionReturns, if_neg hno]
  · have hnone : (s.mgmt.sessions.filter (fun y => y.host != some h.val)).filter (fun y => y.host == some h.val) = [] := by
      simp [List.filter_filter]
    simp only [State.sessionOpened, List.filter_append, hnone]
    simp
  · exact List.mem_append_left _ (List.mem_filter.mpr ⟨hy, by simpa using hother⟩)

end Session

/-- Settles O13: each request's effect on its host block, and what a host session returns. -/
theorem hostConfigurationAndSession : Obligations.HostConfigurationAndSession := by
  refine ⟨fun s h => ⟨fun hb hs ha => ?serving, fun req => exec_configRequest_upNotReady req, fun req hb ha => ?blocked⟩,
    fun s h ident => hostSession_returns ident⟩
  case serving =>
    have hexec (req : ConfigReq) := exec_configRequest req hb hs ha
    refine ⟨hexec .read, hexec .readClassCode, ?_, ?_, ?_, fun us => ?_, fun on => ?_, fun on => ?_, fun on => ?_⟩
    · obtain ⟨honly, hself⟩ := s.put_answer h.val .done { s.host h.val with barsAssigned := true }
      exact ⟨_, hexec .assignBars, hself, honly.cellar, honly.ctxs, honly.others⟩
    · obtain ⟨honly, hbm, hcpl, hidle⟩ := s.busMasterOn_effect h.val .done
      exact ⟨_, hexec (.busMaster true), hbm, hcpl, hidle, honly.cellar, honly.ctxs, honly.others⟩
    · exact ⟨_, hexec (.busMaster false), s.busMasterOff_effect h.val .done⟩
    · obtain ⟨-, hself⟩ := s.put_answer h.val .done
        { s.host h.val with timeoutUs := if 10000 ≤ us ∧ us ≤ 4000000 then us else (s.host h.val).timeoutUs }
      exact ⟨_, hexec (.completionTimeout us), congrArg HostPort.timeoutUs hself⟩
    · obtain ⟨-, hself⟩ := s.put_answer h.val .done { s.host h.val with tag14 := on && (s.host h.val).rate == 6 }
      exact ⟨_, hexec (.tag14 on), congrArg HostPort.tag14 hself⟩
    · exact ⟨_, hexec (.d3hot on), s.d3hot_effect h.val .done on⟩
    · obtain ⟨honly, hself⟩ := s.put_answer h.val .done { s.host h.val with hdmCommitted := on && s.cxlOn h.val }
      exact ⟨_, hexec (.hdmCommit on), congrArg HostPort.hdmCommitted hself, honly.ctxs, honly.cellar⟩
  case blocked =>
    have hself := s.putHost_host_self h.val
      { s.host h.val with targetResets := satInc (s.host h.val).targetResets, cpl := .ca }
    exact ⟨_, exec_configRequest_blocked req hb ha, congrArg HostPort.cpl hself, congrArg HostPort.targetResets hself⟩

end Sys2Proof.Machine
end

section
/-! Settling O35: census queries, answers, the reply time-out and the commit (R85, R88, R369, R518-R522, R524). -/

namespace Sys2Proof.Machine

/-! ## A census flit arrives (R85, R88, R369) -/

/-- An engine that is awake takes a port's traffic at once. -/
theorem State.fabricIn_of_awake {s : State} (ha : s.asleep = false) (p : Nat) (i : Instr) (f : State → Out) : s.fabricIn p i f = f s := by
  unfold fabricIn arrive
  split
  · exact if_neg (by simp [ha])
  · rfl

section Credits
variable (s : State) (p vc n : Nat)

/-- Credits that go back are a matter of their port's count of them alone. -/
theorem State.returnCredits_port (q : Nat) : ∃ l, (s.returnCredits p vc n).port q = { s.port q with creditReturn := l } := by
  rw [returnCredits, modPort_eq, putPort_port]
  split
  next h => exact ⟨_, by rw [h]⟩
  next => exact ⟨(s.port q).creditReturn, rfl⟩

@[simp] theorem State.returnCredits_port_state (q : Nat) : ((s.returnCredits p vc n).port q).state = (s.port q).state := by
  obtain ⟨l, h⟩ := s.returnCredits_port p vc n q
  rw [h]

@[simp] theorem State.returnCredits_port_upTime (q : Nat) : ((s.returnCredits p vc n).port q).upTime = (s.port q).upTime := by
  obtain ⟨l, h⟩ := s.returnCredits_port p vc n q
  rw [h]

@[simp] theorem State.returnCredits_port_cnt (q : Nat) : ((s.returnCredits p vc n).port q).cnt = (s.port q).cnt := by
  obtain ⟨l, h⟩ := s.returnCredits_port p vc n q
  rw [h]

@[simp] theorem State.returnCredits_census : (s.returnCredits p vc n).census = s.census := rfl
@[simp] theorem State.returnCredits_ctxs : (s.returnCredits p vc n).ctxs = s.ctxs := rfl
@[simp] theorem State.returnCredits_cellar : (s.returnCredits p vc n).cellar = s.cellar := rfl
@[simp] theorem State.returnCredits_hall : (s.returnCredits p vc n).hall = s.hall := rfl
@[simp] theorem State.returnCredits_hearth : (s.returnCredits p vc n).hearth = s.hearth := rfl
@[simp] theorem State.returnCredits_engineId : (s.returnCredits p vc n).engineId = s.engineId := rfl
@[simp] theorem State.returnCredits_portUp (q : Nat) : (s.returnCredits p vc n).portUp q = s.portUp q := by simp [portUp]
@[simp] theorem State.returnCredits_censusPorts (e : Word64) : (s.returnCredits p vc n).censusPorts e = s.censusPorts e := by simp [censusPorts]
@[simp] theorem State.returnCredits_commitsPort (q : Nat) : (s.returnCredits p vc n).commitsPort q = s.commitsPort q := by simp [commitsPort]

end Credits

section Arrival
variable {s : State} {p type : Nat} {f : List Byte} (hup : s.portUp p = true)
include hup

theorem State.censusIn_taken (hready : s.isReady = true) (hlive : s.hearth.live = none) (hok : ctlOk type f = true) :
    s.censusIn p type f = (s.returnCredits p 2 1, true) := by
  simp [censusIn, hup, hready, hlive, hok]

theorem State.censusIn_notReady (hready : s.isReady = false) : s.censusIn p type f = (s.preReady p 2 1, false) := by
  simp [censusIn, hup, hready]

theorem State.censusIn_live (hready : s.isReady = true) (hlive : s.hearth.live.isSome = true) : s.censusIn p type f =
    ({ s.returnCredits p 2 1 with hearth := { s.hearth with censusDropped := satInc s.hearth.censusDropped } }, false) := by
  simp [censusIn, hup, hready, hlive]

theorem State.censusIn_bad (hready : s.isReady = true) (hlive : s.hearth.live = none) (hok : ctlOk type f = false) :
    s.censusIn p type f = ((s.returnCredits p 2 1).badControl p, false) := by
  simp [censusIn, hup, hready, hlive, hok]

end Arrival

/-- The command has no effect but on arrival where its flit is not taken. -/
def NeedsTaken (i : Instr) (s : State) (p type : Nat) (f : List Byte) : Prop :=
  (s.censusIn p type f).2 = false → exec i s = .next (s.censusIn p type f).1

/-- Before Ready the port alone sees the flit; in a live restart it is dropped and counted; a malformed one is counted at its port. -/
theorem NeedsTaken.dropped {i : Instr} {s : State} {p type : Nat} {f : List Byte} (h : NeedsTaken i s p type f) (hup : s.portUp p = true) :
    (s.isReady = false → ∃ t, exec i s = .next t ∧ t = { s with ports := t.ports }) ∧
    (s.isReady = true → s.hearth.live.isSome = true → ∃ t, exec i s = .next t ∧
      t.hearth.censusDropped = satInc s.hearth.censusDropped ∧ t.census = s.census ∧ t.ctxs = s.ctxs) ∧
    (s.isReady = true → s.hearth.live = none → ctlOk type f = false → ∃ t, exec i s = .next t ∧ t = { s with ports := t.ports } ∧
      (t.port p).cnt.badControl = satInc (s.port p).cnt.badControl) := by
  refine ⟨fun hready => ?_, fun hready hlive => ?_, fun hready hlive hok => ?_⟩
  · have hin := State.censusIn_notReady (type := type) (f := f) hup hready
    exact ⟨_, h (by rw [hin]), by rw [hin]; rfl⟩
  · have hin := State.censusIn_live (type := type) (f := f) hup hready hlive
    exact ⟨_, h (by rw [hin]), by rw [hin], by rw [hin]; rfl, by rw [hin]; rfl⟩
  · have hin := State.censusIn_bad hup hready hlive hok
    refine ⟨_, h (by rw [hin]), by rw [hin]; rfl, ?_⟩
    rw [hin]
    simp [State.badControl, State.countPort]

section Rows
variable {s : State} (p : Fin 36) (f : List Byte) (ha : s.asleep = false)
include ha

theorem censusQuery_needsTaken : NeedsTaken (.censusQuery p f) s p.val 0x20 f := by
  intro h
  change execCensusQuery p f s = _
  unfold execCensusQuery
  rw [State.fabricIn_of_awake ha]
  exact if_pos (by simp [h])

theorem censusSeen_needsTaken : NeedsTaken (.censusSeen p f) s p.val 0x22 f := by
  intro h
  change execCensusSeen p f s = _
  unfold execCensusSeen
  rw [State.fabricIn_of_awake ha]
  exact if_neg (by simp [h])

theorem censusConcurrent_needsTaken : NeedsTaken (.censusConcurrent p f) s p.val 0x23 f := by
  intro h
  change execCensusConcurrent p f s = _
  unfold execCensusConcurrent
  rw [State.fabricIn_of_awake ha]
  exact if_neg (by simp [h])

theorem censusCommitMessage_needsTaken : NeedsTaken (.censusCommitMessage p f) s p.val 0x21 f := by
  intro h
  change execCensusCommitMessage p f s = _
  unfold execCensusCommitMessage
  rw [State.fabricIn_of_awake ha]
  exact if_neg (by simp [h])

theorem censusCommitDone_needsTaken : NeedsTaken (.censusCommitDone p f) s p.val 0x26 f := by
  intro h
  change execCensusCommitDone p f s = _
  unfold execCensusCommitDone
  rw [State.fabricIn_of_awake ha]
  exact if_neg (by simp [h])

end Rows

/-! ## The reply, once no port is awaited (R520, R521) -/

/-- A census that is over sends flits on its parent port, or tells of its result. -/
theorem State.censusReply_frame {β : Type} (p : State → β) (hport : ∀ s i x, p (State.putPort s i x) = p s)
    (hevent : ∀ s c b, p (State.sendEvent s c b) = p s) (hcensus : ∀ (s : State) k, p { s with census := k } = p s) (s : State) :
    p s.censusReply = p s := by
  unfold censusReply
  dsimp only
  split
  · exact (hevent _ _ _).trans (hcensus _ _)
  · refine (overList_frame p (fun u f => ?_) _ _).trans (hcensus _ _)
    split
    · exact hport _ _ _
    · rfl

theorem State.censusTry_frame {β : Type} (p : State → β) (hport : ∀ s i x, p (State.putPort s i x) = p s)
    (hevent : ∀ s c b, p (State.sendEvent s c b) = p s) (hcensus : ∀ (s : State) k, p { s with census := k } = p s) (s : State) :
    p s.censusTry = p s := by
  unfold censusTry
  split
  · exact s.censusReply_frame p hport hevent hcensus
  · rfl

@[simp] theorem State.censusTry_ctxs (s : State) : s.censusTry.ctxs = s.ctxs :=
  s.censusTry_frame State.ctxs putPort_ctxs sendEvent_ctxs fun _ _ => rfl
@[simp] theorem State.censusTry_cellar (s : State) : s.censusTry.cellar = s.cellar :=
  s.censusTry_frame State.cellar putPort_cellar sendEvent_cellar fun _ _ => rfl
@[simp] theorem State.censusTry_hall (s : State) : s.censusTry.hall = s.hall :=
  s.censusTry_frame State.hall putPort_hall sendEvent_hall fun _ _ => rfl

/-- What a reply writes of the census: that it is over, and the origin's result. -/
theorem State.censusReply_census (s : State) : ∃ d e g h r,
    s.censusReply.census = { s.census with active := false, done := d, resultEpoch := e, flag := g, doneHall := h, result := r } := by
  unfold censusReply
  dsimp only
  split
  · exact ⟨_, _, _, _, _, rfl⟩
  · refine ⟨s.census.done, s.census.resultEpoch, s.census.flag, s.census.doneHall, s.census.result, ?_⟩
    refine overList_frame State.census (fun u f => ?_) _ _
    split <;> rfl

theorem State.censusTry_census {s : State} (ha : s.census.active = true) : ∃ d e g h r, s.censusTry.census =
    { s.census with active := !s.census.waiting.isEmpty, done := d, resultEpoch := e, flag := g, doneHall := h, result := r } := by
  unfold censusTry
  cases hw : s.census.waiting.isEmpty with
  | true =>
    rw [if_pos (by simp [ha])]
    exact s.censusReply_census
  | false =>
    refine ⟨s.census.done, s.census.resultEpoch, s.census.flag, s.census.doneHall, s.census.result, ?_⟩
    rw [if_neg (by simp), Bool.not_false, ← ha]

/-! ## Queries (R518, R519, R522) -/

/-- A control flit of VC2 joins that queue of its port. -/
theorem State.sendCtl_vc2 {s : State} {p type : Nat} (l : List (Nat × Nat × Nat)) (hup : s.portUp p = true) (hvc : ctlVC type = some 2) :
    ∃ x ∈ ((s.sendCtl p type l).port p).vc2, x.bytes = ctlFlit type s.engineId l := by
  refine ⟨⟨3, ctlFlit type s.engineId l, 0⟩, ?_, rfl⟩
  rw [sendCtl, if_pos hup, hvc]
  simp [queue]

/-- The census that a first query makes the engine join. -/
theorem State.joinCensus_joined (s : State) (e : Word64) (o p : Nat) : let t := s.joinCensus e o (some p)
    t.census.took = true ∧ t.census.epoch = e ∧ t.census.parent = p ∧ t.census.isOrigin = false ∧
    t.census.waiting = (s.censusPorts e).filter (fun q => q != p) ∧ t.census.active = !t.census.waiting.isEmpty ∧
    t.ctxs = s.ctxs ∧ t.cellar = s.cellar ∧ t.hall = s.hall := by
  unfold joinCensus
  extract_lets ps k u t
  have hps : ps = (s.censusPorts e).filter (fun q => q != p) := List.filter_congr fun q _ => by simp [bne, eq_comm]
  generalize hv : overList (fun s q => s.sendCtl q 0x20 [(2, 1, o), (4, 8, e.toNat)]) ps u = v
  have hframe {β : Type} (r : State → β) (hr : ∀ s i type l, r (sendCtl s i type l) = r s) : r v = r u := by
    rw [← hv]
    exact overList_frame r (fun _ _ => hr _ _ _ _) ps u
  have hcensus := hframe State.census sendCtl_census
  have hctxs := hframe State.ctxs (sendCtl_frame State.ctxs putPort_ctxs)
  have hcellar := hframe State.cellar (sendCtl_frame State.cellar putPort_cellar)
  have hhall := hframe State.hall (sendCtl_frame State.hall putPort_hall)
  obtain ⟨d, e', g, h, r, htry⟩ := censusTry_census (s := v) (by rw [hcensus])
  have ht : t = v.censusTry := congrArg censusTry hv
  rw [ht, htry, hcensus, v.censusTry_ctxs, v.censusTry_cellar, v.censusTry_hall, hctxs, hcellar, hhall]
  exact ⟨rfl, rfl, rfl, rfl, hps, rfl, rfl, rfl, rfl⟩

section Query
variable {s : State} {p : Fin 36} {f : List Byte} (hup : s.portUp p.val = true) (ha : s.asleep = false) (hready : s.isReady = true)
  (hlive : s.hearth.live = none) (hok : ctlOk 0x20 f = true) (hsince : (s.port p.val).upTime.toNat < (flitEpoch f).toNat)
include hup ha hready hlive hok hsince

/-- A query on a port that was Up before its census is looked at. -/
theorem exec_censusQuery : exec (.censusQuery p f) s = .next (
    let u := s.returnCredits p.val 2 1
    if s.census.took && s.census.epoch == flitEpoch f then
      ({ u with census := { s.census with seenPorts := insertNat p.val s.census.seenPorts } } : State).sendCtl p.val 0x22 [(4, 8, (flitEpoch f).toNat)]
    else if s.census.active then u.sendCtl p.val 0x23 [(4, 8, (flitEpoch f).toNat), (12, 8, s.census.epoch.toNat)]
    else if s.hearth.readyHall.toNat < (flitEpoch f).toNat then u.joinCensus (flitEpoch f) (le f 2 1) (some p.val)
    else u) := by
  have hmem : (s.censusPorts (flitEpoch f)).contains p.val = true := by
    simp [State.censusPorts, hup, hsince]
  change execCensusQuery p f s = _
  unfold execCensusQuery
  rw [State.fabricIn_of_awake ha]
  simp only [State.censusIn_taken hup hready hlive hok, State.returnCredits_censusPorts, hmem, State.returnCredits_census,
    State.returnCredits_hearth, Bool.not_true, Bool.or_self, Bool.false_eq_true, if_false, apply_ite Host.Outcome.next]

theorem censusQuery_joins (hnew : s.census.took = false ∨ s.census.epoch ≠ flitEpoch f) (hidle : s.census.active = false)
    (hsinceReady : s.hearth.readyHall.toNat < (flitEpoch f).toNat) :
    ∃ t, exec (.censusQuery p f) s = .next t ∧ t.census.took = true ∧ t.census.epoch = flitEpoch f ∧ t.census.parent = p.val ∧
      t.census.isOrigin = false ∧ t.census.waiting = (s.censusPorts (flitEpoch f)).filter (fun q => q != p.val) ∧
      t.census.active = !t.census.waiting.isEmpty ∧ t.ctxs = s.ctxs ∧ t.cellar = s.cellar ∧ t.hall = s.hall := by
  have hno : (s.census.took && s.census.epoch == flitEpoch f) = false := by
    rcases hnew with h | h <;> simp [h]
  refine ⟨_, exec_censusQuery hup ha hready hlive hok hsince, ?_⟩
  rw [if_neg (by simp [hno]), if_neg (by simp [hidle]), if_pos hsinceReady]
  simpa using (s.returnCredits p.val 2 1).joinCensus_joined (flitEpoch f) (le f 2 1) p.val

theorem censusQuery_repeated (htook : s.census.took = true) (hepoch : s.census.epoch = flitEpoch f) :
    ∃ t, exec (.censusQuery p f) s = .next t ∧ p.val ∈ t.census.seenPorts ∧ t.census.waiting = s.census.waiting ∧
      (∃ x ∈ (t.port p.val).vc2, x.bytes = ctlFlit 0x22 s.engineId [(4, 8, (flitEpoch f).toNat)]) ∧ t.ctxs = s.ctxs := by
  refine ⟨_, exec_censusQuery hup ha hready hlive hok hsince, ?_⟩
  rw [if_pos (by simp [htook, hepoch])]
  refine ⟨?_, ?_, State.sendCtl_vc2 _ ((s.returnCredits_portUp p.val 2 1 p.val).trans hup) rfl, State.sendCtl_frame State.ctxs State.putPort_ctxs _ _ _ _⟩
  · rw [State.sendCtl_census]
    exact mem_insertNat.mpr (.inl rfl)
  · rw [State.sendCtl_census]

theorem censusQuery_other (hepoch : s.census.epoch ≠ flitEpoch f) (hactive : s.census.active = true) :
    ∃ t, exec (.censusQuery p f) s = .next t ∧ t.census = s.census ∧
      (∃ x ∈ (t.port p.val).vc2, x.bytes = ctlFlit 0x23 s.engineId [(4, 8, (flitEpoch f).toNat), (12, 8, s.census.epoch.toNat)]) ∧
      t.ctxs = s.ctxs := by
  refine ⟨_, exec_censusQuery hup ha hready hlive hok hsince, ?_⟩
  rw [if_neg (by simp [hepoch]), if_pos hactive]
  exact ⟨State.sendCtl_census _ _ _ _, State.sendCtl_vc2 _ (by simpa using hup) rfl,
    State.sendCtl_frame State.ctxs State.putPort_ctxs _ _ _ _⟩

end Query

/-! ## Answers and the time-out (R520, R521, R522) -/

/-- A forwarded port that has answered is not awaited any more. -/
theorem State.censusAnswered_effect {s : State} (p : Nat) (hactive : s.census.active = true) : let t := s.censusAnswered p
    (∃ d e g h r, t.census = { s.census with
      waiting := s.census.waiting.filter (fun q => q != p), active := !(s.census.waiting.filter (fun q => q != p)).isEmpty,
      done := d, resultEpoch := e, flag := g, doneHall := h, result := r }) ∧ t.ctxs = s.ctxs ∧ t.cellar = s.cellar :=
  ⟨censusTry_census (s := { s with census := { s.census with waiting := s.census.waiting.filter (fun q => q != p) } }) hactive,
    censusTry_ctxs _, censusTry_cellar _⟩

section Answers
variable {s : State} {p : Fin 36} (hup : s.portUp p.val = true) (ha : s.asleep = false) (hready : s.isReady = true)
  (hlive : s.hearth.live = none) (hactive : s.census.active = true)
include hup ha hready hlive hactive

theorem censusSeen_settles {f : List Byte} (hok : ctlOk 0x22 f = true) (hepoch : flitEpoch f = s.census.epoch)
    (hwaits : p.val ∈ s.census.waiting) : ∃ t, exec (.censusSeen p f) s = .next t ∧
      t.census.waiting = s.census.waiting.filter (fun q => q != p.val) ∧ t.census.active = !t.census.waiting.isEmpty ∧
      p.val ∈ t.census.seenPorts ∧ t.ctxs = s.ctxs ∧ t.cellar = s.cellar := by
  have hexec : exec (.censusSeen p f) s = .next (({ s.returnCredits p.val 2 1 with
      census := { s.census with seenPorts := insertNat p.val s.census.seenPorts } } : State).censusAnswered p.val) := by
    change execCensusSeen p f s = _
    unfold execCensusSeen
    rw [State.fabricIn_of_awake ha]
    simp [State.censusIn_taken hup hready hlive hok, hactive, hepoch, hwaits]
  obtain ⟨⟨d, e, g, h, r, hcensus⟩, hctxs, hcellar⟩ := State.censusAnswered_effect (s := { s.returnCredits p.val 2 1 with
      census := { s.census with seenPorts := insertNat p.val s.census.seenPorts } }) p.val hactive
  refine ⟨_, hexec, ?_⟩
  rw [hcensus]
  exact ⟨rfl, rfl, mem_insertNat.mpr (.inl rfl), hctxs, hcellar⟩

theorem exec_censusConcurrent {f : List Byte} (hok : ctlOk 0x23 f = true) (hepoch : flitEpoch f = s.census.epoch) :
    exec (.censusConcurrent p f) s = .next { s.returnCredits p.val 2 1 with census := { s.census with concurrent := true } } := by
  change execCensusConcurrent p f s = _
  unfold execCensusConcurrent
  rw [State.fabricIn_of_awake ha]
  simp [State.censusIn_taken hup hready hlive hok, hactive, hepoch]

theorem censusSubtreeReply_joins {fs : List (List Byte)} {rs : List CensusRec} (hrs : replyRecords (flitEpoch (fs.headD [])) fs = some rs)
    (hepoch : flitEpoch (fs.headD []) = s.census.epoch) (hwaits : p.val ∈ s.census.waiting) :
    ∃ t, exec (.censusSubtreeReply p fs) s = .next t ∧ t.census.records = s.census.records ++ rs ∧ p.val ∈ t.census.children ∧
      t.census.waiting = s.census.waiting.filter (fun q => q != p.val) ∧ t.census.active = !t.census.waiting.isEmpty ∧ t.ctxs = s.ctxs := by
  have hexec : exec (.censusSubtreeReply p fs) s = .next (({ s.returnCredits p.val 2 fs.length with
      census := { s.census with children := insertNat p.val s.census.children, records := s.census.records ++ rs } } : State).censusAnswered
        p.val) := by
    change execCensusSubtreeReply p fs s = _
    unfold execCensusSubtreeReply
    rw [State.fabricIn_of_awake ha]
    simp only [hup, hready, State.returnCredits_hearth, hlive, hrs, Bool.not_true, Bool.false_eq_true, if_false, Option.isSome_none]
    exact if_pos (by simp only [State.returnCredits_census, hactive, hepoch, beq_self_eq_true, Bool.and_self,
      List.contains_eq_mem, hwaits, decide_true])
  obtain ⟨⟨d, e, g, h, r, hcensus⟩, hctxs, -⟩ := State.censusAnswered_effect (s := { s.returnCredits p.val 2 fs.length with
      census := { s.census with children := insertNat p.val s.census.children, records := s.census.records ++ rs } }) p.val hactive
  refine ⟨_, hexec, ?_⟩
  rw [hcensus]
  exact ⟨rfl, mem_insertNat.mpr (.inl rfl), rfl, rfl, hctxs⟩

end Answers

/-! The time-out (R521). -/

/-- The census when its wait is over: those that are awaited are missing, and the reply leaves. -/
def State.censusMissed (u : State) : State := ({ u with census := { u.census with waiting := [], missing := true } } : State).censusReply

theorem State.censusMissed_effect (u : State) : u.censusMissed.census.waiting = [] ∧ u.censusMissed.census.missing = true ∧
    u.censusMissed.census.active = false ∧ u.censusMissed.cellar = u.cellar := by
  obtain ⟨d, e, g, h, r, hcensus⟩ := State.censusReply_census { u with census := { u.census with waiting := [], missing := true } }
  unfold censusMissed
  rw [hcensus]
  exact ⟨rfl, rfl, rfl, State.censusReply_frame State.cellar State.putPort_cellar State.sendEvent_cellar (fun _ _ => rfl) _⟩

theorem exec_censusReplyTimeout {s : State} (hactive : s.census.active = true) (hwaits : s.census.waiting ≠ []) :
    exec .censusReplyTimeout s = .next (s.reach (s.census.forwardedAt + 10000000)).censusMissed := by
  have hopen : (s.census.active && !s.census.waiting.isEmpty) = true := by simp [hactive, hwaits]
  change execCensusReplyTimeout s = _
  unfold execCensusReplyTimeout
  rw [if_pos hopen]
  rfl

theorem censusReplyTimeout_misses {s : State} (hactive : s.census.active = true) (hwaits : s.census.waiting ≠ []) :
    ∃ t, exec .censusReplyTimeout s = .next t ∧ t.census.waiting = [] ∧ t.census.missing = true ∧ t.census.active = false ∧
      t.cellar = s.cellar := by
  obtain ⟨-, hcellar, -, -⟩ := s.reach_frame (s.census.forwardedAt + 10000000)
  refine ⟨_, exec_censusReplyTimeout hactive hwaits, ?_⟩
  generalize s.reach (s.census.forwardedAt + 10000000) = u at hcellar ⊢
  rw [← hcellar]
  exact u.censusMissed_effect

/-! ## The commit (R524) -/

/-- Once no child is awaited the commit is over here. -/
theorem State.commitTry_census (s : State) :
    s.commitTry.census = { s.census with committing := s.census.committing && !s.census.commitWaiting.isEmpty } := by
  unfold commitTry
  dsimp only
  split
  next h =>
    have hsame : (s.census.committing && !s.census.commitWaiting.isEmpty) = s.census.committing := by
      rw [Bool.or_eq_true, Bool.not_eq_true', Bool.not_eq_true'] at h
      rcases h with h | h <;> simp [h]
    rw [hsame]
  next h =>
    rw [Bool.or_eq_true, not_or, Bool.not_eq_true', Bool.not_eq_false, Bool.not_eq_true', Bool.not_eq_false] at h
    split
    · rw [acceptAll_frame State.census (fun _ _ => rfl)]
      simp [h]
    · rw [sendCtl_census]
      simp [h]

/-- Ports that the commit moves to Up, and the others as they were. -/
theorem State.applyCommit_states (s : State) (q : Nat) :
    (s.applyCommit.port q).state = if s.commitsPort q then .up else (s.port q).state := by
  have hframe := s.applyCommit_frame (fun u => (u.port q).state)
    (fun u r st d => congrArg (fun ps => (FMap.get {} ps q).state) (u.acceptAll_frame State.ports (fun _ _ => rfl) r st d))
    (fun u i t l => u.sendCtl_port_state i t l q) (fun _ _ => rfl)
  refine hframe.trans ?_
  by_cases h : s.commitsPort q = true
  · rw [if_pos h]
    exact hframe.symm.trans (s.applyCommit_port_state h)
  · dsimp only [port, FMap.get]
    rw [FMap.find_mapped s.ports (fun i x => if s.commitsPort i then { x with state := .up } else x) q]
    cases hq : FMap.find s.ports q with
    | some x => simp [h]
    | none => simp [h]

/-- A port that the commit moves to Up carried frames before. -/
theorem State.committed_portUp (s : State) (q : Nat) :
    ({ s with ports := s.ports.map (fun (i, x) => (i, if s.commitsPort i then { x with state := .up } else x)) } : State).portUp q = s.portUp q := by
  dsimp only [portUp, port, FMap.get]
  rw [FMap.find_mapped s.ports (fun i x => if s.commitsPort i then { x with state := .up } else x) q]
  cases hq : FMap.find s.ports q with
  | none => rfl
  | some x =>
    by_cases h : s.commitsPort q = true
    · have hstate : x.state = .upNoCensus := by
        simp only [commitsPort, port, FMap.get, hq, Bool.and_eq_true, beq_iff_eq] at h
        exact h.1.1.1
      simp [h, hstate]
    · simp [h]

theorem State.applyCommit_census (s : State) : s.applyCommit.census = { s.census with
    commitWaiting := s.census.children.filter s.portUp, commitCount := 1, committing := !(s.census.children.filter s.portUp).isEmpty } := by
  have hkids := List.filter_congr (l := s.census.children) fun q _ => s.committed_portUp q
  unfold applyCommit
  dsimp only
  rw [commitTry_census]
  dsimp only
  rw [overList_frame State.census fun _ _ => sendCtl_census _ _ _ _, Bool.true_and]
  dsimp only
  rw [hkids]

section Commit
variable {s : State} {p : Fin 36} {f : List Byte} (hup : s.portUp p.val = true) (ha : s.asleep = false) (hready : s.isReady = true)
  (hlive : s.hearth.live = none)
include hup ha hready hlive

theorem censusCommitMessage_applies (hok : ctlOk 0x21 f = true) (htook : s.census.took = true) (hidle : s.census.active = false)
    (hfirst : s.census.committing = false) (horigin : s.census.isOrigin = false) (hepoch : flitEpoch f = s.census.epoch)
    (hparent : s.census.parent = p.val) : ∃ t, exec (.censusCommitMessage p f) s = .next t ∧
      (∀ q, (t.port q).state = (if s.commitsPort q then .up else (s.port q).state)) ∧
      t.census.commitWaiting = s.census.children.filter s.portUp ∧ t.census.commitCount = 1 ∧
      t.census.committing = !t.census.commitWaiting.isEmpty ∧ t.ctxs = s.ctxs ∧ t.cellar = s.cellar := by
  have hexec : exec (.censusCommitMessage p f) s = .next (s.returnCredits p.val 2 1).applyCommit := by
    change execCensusCommitMessage p f s = _
    unfold execCensusCommitMessage
    rw [State.fabricIn_of_awake ha]
    simp [State.censusIn_taken hup hready hlive hok, htook, hidle, hfirst, horigin, hepoch, hparent]
  have hup' : (s.returnCredits p.val 2 1).portUp = s.portUp := funext fun q => s.returnCredits_portUp _ _ _ q
  have hcensus := (s.returnCredits p.val 2 1).applyCommit_census
  rw [State.returnCredits_census, hup'] at hcensus
  refine ⟨_, hexec, fun q => ?_, by rw [hcensus], by rw [hcensus], by rw [hcensus], ?_, ?_⟩
  · simpa using (s.returnCredits p.val 2 1).applyCommit_states q
  · exact State.applyCommit_frame State.ctxs (fun u q st d => u.acceptAll_frame State.ctxs (fun _ _ => rfl) q st d)
      (fun _ _ _ _ => State.sendCtl_frame State.ctxs State.putPort_ctxs _ _ _ _) (fun _ _ => rfl) _
  · exact State.applyCommit_frame State.cellar (fun u q st d => u.acceptAll_frame State.cellar (fun _ _ => rfl) q st d)
      (fun _ _ _ _ => State.sendCtl_frame State.cellar State.putPort_cellar _ _ _ _) (fun _ _ => rfl) _

theorem censusCommitDone_joins (hok : ctlOk 0x26 f = true) (hcommitting : s.census.committing = true) (hepoch : flitEpoch f = s.census.epoch)
    (hwaits : p.val ∈ s.census.commitWaiting) : ∃ t, exec (.censusCommitDone p f) s = .next t ∧
      t.census.commitCount = s.census.commitCount + le f 2 2 ∧
      t.census.commitWaiting = s.census.commitWaiting.filter (fun q => q != p.val) ∧
      t.census.committing = !t.census.commitWaiting.isEmpty ∧ t.ctxs = s.ctxs ∧ t.cellar = s.cellar := by
  have hexec : exec (.censusCommitDone p f) s = .next (({ s.returnCredits p.val 2 1 with census := { s.census with
      commitWaiting := s.census.commitWaiting.filter (fun q => q != p.val),
      commitCount := s.census.commitCount + le f 2 2 } } : State).commitTry) := by
    change execCensusCommitDone p f s = _
    unfold execCensusCommitDone
    rw [State.fabricIn_of_awake ha]
    simp [State.censusIn_taken hup hready hlive hok, hcommitting, hepoch, hwaits]
  refine ⟨_, hexec, ?_⟩
  rw [State.commitTry_census]
  refine ⟨rfl, rfl, by rw [hcommitting, Bool.true_and], ?_, ?_⟩
  · exact State.commitTry_frame State.ctxs (fun u q st d => u.acceptAll_frame State.ctxs (fun _ _ => rfl) q st d)
      (fun _ _ _ _ => State.sendCtl_frame State.ctxs State.putPort_ctxs _ _ _ _) (fun _ _ => rfl) _
  · exact State.commitTry_frame State.cellar (fun u q st d => u.acceptAll_frame State.cellar (fun _ _ => rfl) q st d)
      (fun _ _ _ _ => State.sendCtl_frame State.cellar State.putPort_cellar _ _ _ _) (fun _ _ => rfl) _

end Commit

/-- Settles O35: queries, then answers and the time-out, then the commit, then the flits that are not taken. -/
theorem censusAndCommit : Obligations.CensusAndCommit := by
  refine ⟨fun s p f hup ha hready hlive hok hsince => ?query, fun s p hup ha hready hlive hactive => ?answer,
    fun s p f hup ha hready hlive => ?commit, fun s p f hup ha => ?dropped⟩
  case query =>
    exact ⟨censusQuery_joins hup ha hready hlive hok hsince, censusQuery_repeated hup ha hready hlive hok hsince,
      censusQuery_other hup ha hready hlive hok hsince⟩
  case answer =>
    refine ⟨fun f => censusSeen_settles hup ha hready hlive hactive, fun f hok hepoch => ?_,
      fun fs rs => censusSubtreeReply_joins hup ha hready hlive hactive, censusReplyTimeout_misses hactive⟩
    exact ⟨_, exec_censusConcurrent hup ha hready hlive hactive hok hepoch, rfl, rfl, rfl⟩
  case commit => exact ⟨censusCommitMessage_applies hup ha hready hlive, censusCommitDone_joins hup ha hready hlive⟩
  case dropped =>
    exact ⟨(censusQuery_needsTaken p f ha).dropped hup, (censusCommitMessage_needsTaken p f ha).dropped hup,
      (censusSeen_needsTaken p f ha).dropped hup, (censusConcurrent_needsTaken p f ha).dropped hup,
      (censusCommitDone_needsTaken p f ha).dropped hup⟩

end Sys2Proof.Machine
end

section
/-! Settling O36: GET_STATUS and READ_RECORDS (R425, R426, R515), and the refusals that every command shares (R511, R513). -/

namespace Sys2Proof.Machine

/-! ## Little-endian fields of a payload that is built field by field (R5) -/

@[simp] theorem toLe_length (n v : Nat) : (toLe n v).length = n := by
  induction n generalizing v with
  | zero => rfl
  | succ n ih => simp [toLe, ih]

/-- A field past the first part of a payload is a field of the rest. -/
theorem le_append_right {a : List Byte} {off : Nat} (b : List Byte) (n : Nat) (h : a.length ≤ off) :
    le (a ++ b) off n = le b (off - a.length) n := by
  induction n generalizing off with
  | zero => rfl
  | succ n ih =>
    rw [le, le, ih (by omega), byteAt, byteAt, List.getD_append_right _ _ _ _ h, Nat.sub_add_comm h]

theorem le_toLe_right {n off : Nat} (v : Nat) (b : List Byte) (m : Nat) (h : n ≤ off) : le (toLe n v ++ b) off m = le b (off - n) m := by
  rw [le_append_right b m (by simpa using h), toLe_length]

theorem le_cons_succ (x : Byte) (b : List Byte) (off n : Nat) : le (x :: b) (off + 1) n = le b off n := by
  induction n generalizing off with
  | zero => rfl
  | succ n ih => rw [le, le, ih]; rfl

/-- The field that was written is read back. -/
theorem le_toLe_append (n v : Nat) (b : List Byte) : le (toLe n v ++ b) 0 n = v % 256 ^ n := by
  induction n generalizing v with
  | zero => simp [le, Nat.mod_one]
  | succ n ih =>
    rw [toLe, List.cons_append, le, le_cons_succ, ih, pow_succ', Nat.mod_mul]
    simp [byteAt]

theorem le_toLe (n v : Nat) : le (toLe n v) 0 n = v % 256 ^ n := by simpa using le_toLe_append n v []

/-! ## Who may command (R509, R511) -/

theorem State.inHostSession_sessionUsed (s : State) (sess : Option Nat) : (s.sessionUsed sess).inHostSession sess = s.inHostSession sess := by
  cases sess with
  | none => rfl
  | some n =>
    simp only [inHostSession, sessionUsed, List.any_map]
    congr 1
    funext x
    by_cases hx : x.id = n <;> simp [hx]

section Refusals
variable {s : State} {sess : Option Nat} {tag : BitVec 16} {code : Nat} {free ready lenOk : Bool} {fields : List (Bool × Nat)}
  {f : State → State}

/-- A command that the boot ROM or any master may give reaches its own effect without a session (R72, R511). -/
theorem State.command_of_free (hon : s.mgmtOn = true) (hmay : s.fmSession sess = true ∨ (free = true ∧ s.inHostSession sess = false))
    (hlen : lenOk = true) (hfields : fields.find? (fun x => x.1) = none) :
    s.command sess tag code free false lenOk fields f = f (s.sessionUsed sess) := by
  have hmay' : ((s.sessionUsed sess).fmSession sess || (free && !(s.sessionUsed sess).inHostSession sess)) = true := by
    rw [fmSession_sessionUsed, inHostSession_sessionUsed]
    rcases hmay with h | ⟨h, h'⟩ <;> simp [*]
  simp [command, hon, hmay', hlen, hfields]

theorem State.command_badLength (hon : s.mgmtOn = true) (hsess : s.fmSession sess = true) (hready : s.isReady = true) :
    s.command sess tag code free ready false fields f = (s.sessionUsed sess).reply code tag 0x10 code := by
  simp [command, hon, fmSession_sessionUsed, hsess, hready]

theorem State.readyCommand_noSession (hon : s.mgmtOn = true) (hsess : s.fmSession sess = false) :
    s.readyCommand sess tag code lenOk fields f = (s.sessionUsed sess).reply code tag 0x12 0 := by
  simp [readyCommand, command, hon, fmSession_sessionUsed, hsess]

theorem State.readyCommand_notReady (hon : s.mgmtOn = true) (hsess : s.fmSession sess = true) (hready : s.isReady = false) :
    s.readyCommand sess tag code lenOk fields f = (s.sessionUsed sess).reply code tag 0x13 s.hearth.startup.code := by
  simp [readyCommand, command, hon, fmSession_sessionUsed, hsess, hready]

end Refusals

section Commands
variable {s : State} {sess : Option Nat} (tag : BitVec 16)

/-! ## GET_STATUS (R515, R517) -/

theorem State.statusBytes_sessionUsed (s : State) (sess : Option Nat) : (s.sessionUsed sess).statusBytes = s.statusBytes :=
  s.sessionUsed_frame State.statusBytes sess fun _ => rfl

theorem State.statusBytes_length (s : State) : s.statusBytes.length = 48 := by simp [statusBytes]

/-- What GET_STATUS's payload says, field by field. -/
theorem State.statusBytes_fields (s : State) : le s.statusBytes 0 1 = s.hearth.startup.code ∧ le s.statusBytes 3 1 = s.wd.state.code ∧
    le s.statusBytes 4 1 = s.halt.state.code ∧ le s.statusBytes 12 2 = s.hallId.toNat ∧
    le s.statusBytes 20 8 = s.hearth.mapDigest.toNat ∧ le s.statusBytes 28 8 = s.hearth.configDigest.toNat ∧
    le s.statusBytes 36 8 = s.hall.toNat ∧ le s.statusBytes 44 4 = s.mgmt.lost.toNat := by
  have hstartup : s.hearth.startup.code < 256 := by cases s.hearth.startup <;> decide
  have hwd : s.wd.state.code < 256 := by cases s.wd.state <;> decide
  have hhalt : s.halt.state.code < 256 := by cases s.halt.state <;> decide
  have h16 := s.hallId.isLt
  have hmap := s.hearth.mapDigest.isLt
  have hconfig := s.hearth.configDigest.isLt
  have hhall := s.hall.isLt
  have hlost := s.mgmt.lost.isLt
  simp only [statusBytes, List.append_assoc]
  simp (disch := decide) only [le_toLe_right, le_toLe_append, le_toLe, Nat.reduceSub]
  simp only [Nat.reducePow] at *
  refine ⟨?_, ?_, ?_, ?_, ?_, ?_, ?_, ?_⟩ <;> exact Nat.mod_eq_of_lt ‹_›

theorem getStatus_answered (hon : s.mgmtOn = true) (hhost : s.inHostSession sess = false) : ∃ t b, exec (.getStatus sess tag []) s = .next t ∧
    Answered t 0x01 tag (if s.mgmt.lostSince then 0x22 else 0x00) 0 b ∧ b.length = 48 ∧ le b 0 1 = s.hearth.startup.code ∧
    le b 3 1 = s.wd.state.code ∧ le b 4 1 = s.halt.state.code ∧ le b 12 2 = s.hallId.toNat ∧ le b 20 8 = s.hearth.mapDigest.toNat ∧
    le b 28 8 = s.hearth.configDigest.toNat ∧ le b 36 8 = s.hall.toNat ∧ le b 44 4 = s.mgmt.lost.toNat ∧ t.mgmt.lostSince = false ∧
    t.mgmt.queue = s.mgmt.queue ∧ t.hearth = s.hearth ∧ t.ctxs = s.ctxs ∧ t.cellar = s.cellar := by
  have hlost : (s.sessionUsed sess).mgmt.lostSince = s.mgmt.lostSince := s.sessionUsed_frame (fun u => u.mgmt.lostSince) sess fun _ => rfl
  have hqueue : (s.sessionUsed sess).mgmt.queue = s.mgmt.queue := s.sessionUsed_frame (fun u => u.mgmt.queue) sess fun _ => rfl
  refine ⟨_, s.statusBytes, congrArg Host.Outcome.next (State.command_of_free hon (.inr ⟨rfl, hhost⟩) rfl rfl), ?_, s.statusBytes_length, ?_⟩
  · rw [State.statusBytes_sessionUsed, hlost]
    rfl
  · obtain ⟨h0, h3, h4, h12, h20, h28, h36, h44⟩ := s.statusBytes_fields
    exact ⟨h0, h3, h4, h12, h20, h28, h36, h44, rfl, hqueue, State.sessionUsed_hearth, State.sessionUsed_ctxs, State.sessionUsed_cellar⟩

/-! ## READ_RECORDS (R425, R426) -/

theorem ErrLog.read_length_le (l : ErrLog) (first : Word32) (n : Nat) : (l.read first n).length ≤ n := List.length_take_le _ _

theorem readRecords_answered {p : List Byte} (hon : s.mgmtOn = true) (hsess : s.fmSession sess = true) (hlen : p.length = 8)
    (hlo : 1 ≤ le p 4 1) (hhi : le p 4 1 ≤ 64) (hz : allZero p 5 3 = true) :
    let rs := s.log.read (BitVec.ofNat 32 (le p 0 4)) (le p 4 1)
    ∃ t, exec (.readRecords sess tag p) s = .next t ∧ Answered t 0x02 tag 0 rs.length (rs.flatMap ErrRec.bytes) ∧ rs.length ≤ 64 ∧
      (∀ q, q ∈ t.log.unread ↔ q ∈ s.log.unread ∧ ∀ r ∈ rs, r.seq ≠ q) ∧
      (t.hearth.alert = true ↔ s.hearth.alert = true ∧ t.log.unread ≠ []) ∧ t.log.ring = s.log.ring ∧ t.log.attic = s.log.attic ∧
      t.ctxs = s.ctxs ∧ t.cellar = s.cellar := by
  intro rs
  have hlog : (s.sessionUsed sess).log = s.log := s.sessionUsed_frame State.log sess fun _ => rfl
  have hfields : [(le p 4 1 == 0 || decide (64 < le p 4 1), 4), (nonzero p 5 3, 5)].find? (fun x => x.1) = none := by
    have hcount : (le p 4 1 == 0 || decide (64 < le p 4 1)) = false := by simp; omega
    simp [hcount, nonzero, hz]
  refine ⟨_, congrArg Host.Outcome.next (State.command_of_session hon hsess (by simp [hlen]) hfields), ?_⟩
  rw [hlog, State.sessionUsed_hearth]
  refine ⟨rfl, (s.log.read_length_le _ _).trans hhi, fun q => ?_, ?_, rfl, rfl, State.sessionUsed_ctxs, State.sessionUsed_cellar⟩
  · simp [State.respond, rs]
  · simp [State.respond]

/-! ## The refusals -/

theorem badCommand_unknown {code : BitVec 16} {n : Nat} (hon : s.mgmtOn = true) (hcode : lengthFits code.toNat n = none) :
    exec (.badCommand sess tag code n) s =
      .next { s with mgmt := { s.mgmt with response := some ⟨code.toNat, tag, 0x10, BitVec.ofNat 32 code.toNat, []⟩ } } := by
  change execBadCommand sess tag code n s = _
  simp only [execBadCommand, hcode, hon, if_true]
  rfl

theorem badCommand_length {code : BitVec 16} {n : Nat} (hon : s.mgmtOn = true) (hcode : lengthFits code.toNat n = some false)
    (hsess : s.fmSession sess = true) (hready : s.isReady = true) : ∃ t, exec (.badCommand sess tag code n) s = .next t ∧
      Answered t code.toNat tag 0x10 code.toNat [] ∧ t.ctxs = s.ctxs ∧ t.cellar = s.cellar := by
  have hexec : exec (.badCommand sess tag code n) s = .next ((s.sessionUsed sess).reply code.toNat tag 0x10 code.toNat) := by
    change execBadCommand sess tag code n s = _
    simp only [execBadCommand, hcode, State.command_badLength hon hsess hready, ite_self]
  exact ⟨_, hexec, .respond _ _ _ _ _ _, State.sessionUsed_ctxs, State.sessionUsed_cellar⟩

/-- The commands that need Ready, without a session (R511). -/
theorem commands_notAuthorised (p : List Byte) (hon : s.mgmtOn = true) (hsess : s.fmSession sess = false) :
    (∃ t, exec (.grant sess tag p) s = .next t ∧ Answered t 0x10 tag 0x12 0 [] ∧ t.cellar = s.cellar) ∧
    (∃ t, exec (.keyLoad sess tag p) s = .next t ∧ Answered t 0x20 tag 0x12 0 [] ∧ t.cellar = s.cellar) ∧
    (∃ t, exec (.scan sess tag p) s = .next t ∧ Answered t 0x30 tag 0x12 0 [] ∧ t.svc = s.svc) ∧
    (∃ t, exec (.censusStart sess tag p) s = .next t ∧ Answered t 0x40 tag 0x12 0 [] ∧ t.census = s.census) :=
  ⟨⟨_, congrArg Host.Outcome.next (State.readyCommand_noSession hon hsess), .respond _ _ _ _ _ _, State.sessionUsed_cellar⟩,
    ⟨_, congrArg Host.Outcome.next (State.readyCommand_noSession hon hsess), .respond _ _ _ _ _ _, State.sessionUsed_cellar⟩,
    ⟨_, congrArg Host.Outcome.next (State.readyCommand_noSession hon hsess), .respond _ _ _ _ _ _,
      s.sessionUsed_frame State.svc sess fun _ => rfl⟩,
    ⟨_, congrArg Host.Outcome.next (State.readyCommand_noSession hon hsess), .respond _ _ _ _ _ _,
      s.sessionUsed_frame State.census sess fun _ => rfl⟩⟩

/-- The same before Ready (R511). -/
theorem commands_notReady (p : List Byte) (hon : s.mgmtOn = true) (hsess : s.fmSession sess = true) (hready : s.isReady = false) :
    (∃ t, exec (.grant sess tag p) s = .next t ∧ Answered t 0x10 tag 0x13 s.hearth.startup.code [] ∧ t.cellar = s.cellar) ∧
    (∃ t, exec (.censusStart sess tag p) s = .next t ∧ Answered t 0x40 tag 0x13 s.hearth.startup.code [] ∧ t.census = s.census) :=
  ⟨⟨_, congrArg Host.Outcome.next (State.readyCommand_notReady hon hsess hready), .respond _ _ _ _ _ _, State.sessionUsed_cellar⟩,
    ⟨_, congrArg Host.Outcome.next (State.readyCommand_notReady hon hsess hready), .respond _ _ _ _ _ _,
      s.sessionUsed_frame State.census sess fun _ => rfl⟩⟩

end Commands

/-- Settles O36: each part is a rule of the commands above. -/
theorem statusRecordsAndRefusals : Obligations.StatusRecordsAndRefusals := by
  unfold Obligations.StatusRecordsAndRefusals
  intro s sess tag hon
  exact ⟨getStatus_answered tag hon, fun _ hsess hlen hlo hhi hz => readRecords_answered tag hon hsess hlen hlo hhi hz,
    fun _ _ hcode => badCommand_unknown tag hon hcode, fun _ _ hcode hsess hready => badCommand_length tag hon hcode hsess hready,
    fun p hsess => commands_notAuthorised tag p hon hsess, fun p hsess hready => commands_notReady tag p hon hsess hready⟩

end Sys2Proof.Machine
end

section
/-! Settling O37: image writes, the warm reset, the live restart, the fuses and the clock reference (R58, R70, R72, R86-R90, R427, R515). -/

namespace Sys2Proof.Machine

section SessionUsed
variable {s : State} {sess : Option Nat}

@[simp] theorem State.sessionUsed_fuses : (s.sessionUsed sess).fuses = s.fuses := s.sessionUsed_frame State.fuses sess fun _ => rfl
@[simp] theorem State.sessionUsed_flash : (s.sessionUsed sess).flash = s.flash := s.sessionUsed_frame State.flash sess fun _ => rfl
@[simp] theorem State.sessionUsed_hosts : (s.sessionUsed sess).hosts = s.hosts := s.sessionUsed_frame State.hosts sess fun _ => rfl
@[simp] theorem State.sessionUsed_ports : (s.sessionUsed sess).ports = s.ports := s.sessionUsed_frame State.ports sess fun _ => rfl
@[simp] theorem State.sessionUsed_log : (s.sessionUsed sess).log = s.log := s.sessionUsed_frame State.log sess fun _ => rfl
@[simp] theorem State.sessionUsed_flashWrite : (s.sessionUsed sess).mgmt.flashWrite = s.mgmt.flashWrite :=
  s.sessionUsed_frame (fun u => u.mgmt.flashWrite) sess fun _ => rfl
@[simp] theorem State.sessionUsed_runsFrom (b : Bool) : (s.sessionUsed sess).runsFrom b = s.runsFrom b :=
  s.sessionUsed_frame (fun u => u.runsFrom b) sess fun _ => rfl
@[simp] theorem State.sessionUsed_flashBusy : (s.sessionUsed sess).flashBusy = s.flashBusy :=
  s.sessionUsed_frame State.flashBusy sess fun _ => rfl
@[simp] theorem State.sessionUsed_writingSlot (b : Bool) : (s.sessionUsed sess).writingSlot b = s.writingSlot b :=
  s.sessionUsed_frame (fun u => u.writingSlot b) sess fun _ => rfl
@[simp] theorem State.sessionUsed_imgConfig (b : Bool) : (s.sessionUsed sess).imgConfig b = s.imgConfig b :=
  s.sessionUsed_frame (fun u => u.imgConfig b) sess fun _ => rfl

end SessionUsed

/-! ## IMAGE_WRITE and WARM_RESET (R58, R72, R90, R511) -/

/-- A command of a session, or in recovery of anyone outside a host session (R72, R511). -/
def MayRecover (s : State) (sess : Option Nat) : Prop := s.fmSession sess = true ∨ (s.recovery = true ∧ s.inHostSession sess = false)

section Recovery
variable {s : State} {sess : Option Nat} (tag : BitVec 16) {p : List Byte} (hon : s.mgmtOn = true) (hmay : MayRecover s sess)
include hon hmay

section Image
variable (hlo : 9 ≤ p.length) (hhi : p.length ≤ 4096) (hslot : le p 0 1 ≤ 1) (hz : allZero p 1 3 = true) (hoff : le p 4 4 % 8 = 0)
  (hend : le p 4 4 + (p.length - 8) ≤ 0x400000)
include hlo hhi hslot hz hoff hend

/-- An image write in order reaches its own checks. -/
theorem exec_imageWrite : exec (.imageWrite sess tag p) s = .next (
    if s.runsFrom (le p 0 1 == 1) then (s.sessionUsed sess).reply 0x03 tag 0x21 s.hearth.startup.code
    else if s.flashBusy then (s.sessionUsed sess).busy 0x03 tag 0x0A 0
    else ({ s.sessionUsed sess with mgmt := { (s.sessionUsed sess).mgmt with
      flashWrite := some (slotBase (le p 0 1 == 1) + le p 4 4, p.drop 8) } } : State).accept 0x03 tag 0x0A [0] none []) := by
  have hlen : (decide (9 ≤ p.length) && decide (p.length ≤ 4096)) = true := by simp [hlo, hhi]
  have hfields : [(decide (1 < le p 0 1), 0), (nonzero p 1 3, 1),
      (le p 4 4 % 8 != 0 || decide (0x400000 < le p 4 4 + (p.length - 8)), 4)].find? (fun x => x.1) = none := by
    simp [nonzero, hz, hoff, Nat.not_lt.mpr hslot, Nat.not_lt.mpr hend]
  refine (congrArg Host.Outcome.next (State.command_of_free hon hmay hlen hfields)).trans ?_
  simp only [State.sessionUsed_runsFrom, State.sessionUsed_flashBusy, State.sessionUsed_hearth]

theorem imageWrite_accepted (hruns : s.runsFrom (le p 0 1 == 1) = false) (hfree : s.flashBusy = false) :
    ∃ t, exec (.imageWrite sess tag p) s = .next t ∧ Answered t 0x03 tag 0x01 0 [] ∧
      t.mgmt.flashWrite = some (le p 0 1 * 0x400000 + le p 4 4, p.drop 8) ∧ t.flash = s.flash := by
  have hbase : slotBase (le p 0 1 == 1) = le p 0 1 * 0x400000 := by
    obtain h | h : le p 0 1 = 0 ∨ le p 0 1 = 1 := by omega
    all_goals rw [h]; rfl
  refine ⟨_, exec_imageWrite tag hon hmay hlo hhi hslot hz hoff hend, ?_⟩
  rw [if_neg (by simp [hruns]), if_neg (by simp [hfree]), hbase]
  exact ⟨rfl, rfl, State.sessionUsed_flash⟩

theorem imageWrite_busy (hruns : s.runsFrom (le p 0 1 == 1) = false) (hbusy : s.flashBusy = true) :
    ∃ t, exec (.imageWrite sess tag p) s = .next t ∧ Answered t 0x03 tag 0x20 0x0A000000 [] ∧
      t.mgmt.flashWrite = s.mgmt.flashWrite ∧ t.flash = s.flash := by
  refine ⟨_, exec_imageWrite tag hon hmay hlo hhi hslot hz hoff hend, ?_⟩
  rw [if_neg (by simp [hruns]), if_pos hbusy]
  exact ⟨.respond _ _ _ _ _ _, State.sessionUsed_flashWrite, State.sessionUsed_flash⟩

theorem imageWrite_refused (hruns : s.runsFrom (le p 0 1 == 1) = true) :
    ∃ t, exec (.imageWrite sess tag p) s = .next t ∧ Answered t 0x03 tag 0x21 s.hearth.startup.code [] ∧
      t.mgmt.flashWrite = s.mgmt.flashWrite ∧ t.flash = s.flash := by
  refine ⟨_, exec_imageWrite tag hon hmay hlo hhi hslot hz hoff hend, ?_⟩
  rw [if_pos hruns]
  exact ⟨.respond _ _ _ _ _ _, State.sessionUsed_flashWrite, State.sessionUsed_flash⟩

end Image

theorem warmReset_resets (hlen : p.length = 0) : ∃ t, exec (.warmReset sess tag p) s = .next t ∧ Answered t 0x04 tag 0 0 [] ∧
    t.hearth.startup = .reset ∧ t.hearth.bootReason = .management ∧ t.flash = s.flash ∧ t.fuses = s.fuses ∧ t.ctxs = [] ∧ t.cellar = {} ∧
    t.log.ring.length = s.log.ring.length ∧ t.log.attic = s.log.attic := by
  refine ⟨_, congrArg Host.Outcome.next (State.command_of_free hon hmay (by simp [hlen]) rfl), .respond _ _ _ _ _ _, rfl, rfl,
    State.sessionUsed_flash, State.sessionUsed_fuses, rfl, rfl, ?_,
    congrArg (fun l : ErrLog => l.afterWarm.attic) State.sessionUsed_log⟩
  exact (List.length_map _).trans (congrArg (fun l => l.ring.length) State.sessionUsed_log)

end Recovery

/-! ## LIVE_RESTART (R86-R90) -/

section Session
variable {s : State} {sess : Option Nat} (tag : BitVec 16) {p : List Byte} (hon : s.mgmtOn = true) (hsess : s.fmSession sess = true)

section Live
variable (hlen : p.length = 4) (hslot : le p 0 1 ≤ 1) (hz : allZero p 1 3 = true)
include hon hsess hlen hslot hz

theorem exec_liveRestart : exec (.liveRestart sess tag p) s = .next (
    if s.writingSlot (le p 0 1 == 1) then (s.sessionUsed sess).busy 0x05 tag 0x0A 0
    else if s.hearth.locked && digest8 (s.imgConfig (le p 0 1 == 1)) == s.hearth.configDigest then
      (s.sessionUsed sess).beginLive tag (le p 0 1 == 1)
    else (s.sessionUsed sess).reply 0x05 tag 0x21 s.hearth.startup.code) := by
  have hidle : ¬ (s.hearth.smbusOn && s.hearth.live.isSome) = true := by
    rw [State.mgmtOn, Bool.and_eq_true, Option.isNone_iff_eq_none] at hon
    simp [hon.2]
  have hfields : [(decide (1 < le p 0 1), 0), (nonzero p 1 3, 1)].find? (fun x => x.1) = none := by
    simp [nonzero, hz, Nat.not_lt.mpr hslot]
  refine (if_neg hidle).trans ((congrArg Host.Outcome.next (State.command_of_session hon hsess (by simp [hlen]) hfields)).trans ?_)
  simp only [State.sessionUsed_writingSlot, State.sessionUsed_hearth, State.sessionUsed_imgConfig]

theorem liveRestart_accepted (hfree : s.writingSlot (le p 0 1 == 1) = false) (hlocked : s.hearth.locked = true)
    (hsame : digest8 (s.imgConfig (le p 0 1 == 1)) = s.hearth.configDigest) : ∃ t, exec (.liveRestart sess tag p) s = .next t ∧
      Answered t 0x05 tag 0x01 0 [] ∧ t.hearth = { s.hearth with live := some ⟨le p 0 1 == 1, tag⟩ } ∧ t.mgmt.sessions = [] ∧
      t.ctxs = s.ctxs ∧ t.cellar = s.cellar ∧ t.hosts = s.hosts ∧ t.ports = s.ports := by
  refine ⟨_, exec_liveRestart tag hon hsess hlen hslot hz, ?_⟩
  rw [if_neg (by simp [hfree]), if_pos (by simp [hlocked, hsame])]
  exact ⟨rfl, congrArg (fun h : Hearth => { h with live := some ⟨le p 0 1 == 1, tag⟩ }) State.sessionUsed_hearth, rfl, State.sessionUsed_ctxs,
    State.sessionUsed_cellar, State.sessionUsed_hosts, State.sessionUsed_ports⟩

theorem liveRestart_busy (hwriting : s.writingSlot (le p 0 1 == 1) = true) : ∃ t, exec (.liveRestart sess tag p) s = .next t ∧
    Answered t 0x05 tag 0x20 0x0A000000 [] ∧ t.hearth = s.hearth := by
  refine ⟨_, exec_liveRestart tag hon hsess hlen hslot hz, ?_⟩
  rw [if_pos hwriting]
  exact ⟨.respond _ _ _ _ _ _, State.sessionUsed_hearth⟩

theorem liveRestart_refused (hfree : s.writingSlot (le p 0 1 == 1) = false)
    (hother : s.hearth.locked = false ∨ digest8 (s.imgConfig (le p 0 1 == 1)) ≠ s.hearth.configDigest) :
    ∃ t, exec (.liveRestart sess tag p) s = .next t ∧ Answered t 0x05 tag 0x21 s.hearth.startup.code [] ∧ t.hearth = s.hearth := by
  have hno : ¬ (s.hearth.locked && digest8 (s.imgConfig (le p 0 1 == 1)) == s.hearth.configDigest) = true := by
    rcases hother with h | h <;> simp [h]
  refine ⟨_, exec_liveRestart tag hon hsess hlen hslot hz, ?_⟩
  rw [if_neg (by simp [hfree]), if_neg hno]
  exact ⟨.respond _ _ _ _ _ _, State.sessionUsed_hearth⟩

end Live

/-! ## FUSE_UPDATE and SET_WALLCLOCK (R70, R427) -/

include hon hsess

theorem State.fuseUpdate_of_action {action : Nat} {f : State → State} (hlen : p.length = 8) (ha : le p 0 1 = action) (hother : action ≠ 3 - action)
    (hkey : le p 1 1 ≤ if action = 1 then 0 else 1) (hz : allZero p 2 2 = true) (hrest : action = 2 → allZero p 4 4 = true) :
    s.fuseUpdate sess tag p action f = (f (s.sessionUsed sess)).ok 0x06 tag := by
  subst ha
  unfold fuseUpdate
  rw [if_neg (by simp [hother])]
  refine command_of_session hon hsess (by simp [hlen]) ?_
  simpa [nonzero, hz, hkey] using hrest

theorem fuseRaiseMinVersion_raises (hlen : p.length = 8) (ha : le p 0 1 = 1) (hkey : le p 1 1 = 0) (hz : allZero p 2 2 = true) :
    ∃ t, exec (.fuseRaiseMinVersion sess tag p) s = .next t ∧ Answered t 0x06 tag 0 0 [] ∧
      t.fuses = { s.fuses with minSecurity := t.fuses.minSecurity } ∧
      t.fuses.minSecurity.toNat = max s.fuses.minSecurity.toNat (le p 4 4) ∧ t.flash = s.flash ∧ t.hearth = s.hearth := by
  refine ⟨_, congrArg Host.Outcome.next (State.fuseUpdate_of_action tag hon hsess hlen ha (by decide) hkey.le hz fun h => absurd h (by decide)),
    .respond _ _ _ _ _ _, ?_, ?_, State.sessionUsed_flash, State.sessionUsed_hearth⟩
  · exact congrArg (fun x : Fuses => { x with minSecurity := BitVec.ofNat 32 (max (s.sessionUsed sess).fuses.minSecurity.toNat (le p 4 4)) })
      State.sessionUsed_fuses
  · refine (toNat_max_le _ p 4).trans ?_
    rw [State.sessionUsed_fuses]

theorem fuseRevokeKey_revokes (hlen : p.length = 8) (ha : le p 0 1 = 2) (hkey : le p 1 1 ≤ 1) (hz : allZero p 2 2 = true)
    (hrest : allZero p 4 4 = true) : ∃ t, exec (.fuseRevokeKey sess tag p) s = .next t ∧ Answered t 0x06 tag 0 0 [] ∧
      t.fuses = { s.fuses with revoked0 := s.fuses.revoked0 || le p 1 1 == 0, revoked1 := s.fuses.revoked1 || le p 1 1 == 1 } ∧
      t.flash = s.flash ∧ t.hearth = s.hearth := by
  refine ⟨_, congrArg Host.Outcome.next (State.fuseUpdate_of_action tag hon hsess hlen ha (by decide) hkey hz fun _ => hrest),
    .respond _ _ _ _ _ _, ?_, State.sessionUsed_flash, State.sessionUsed_hearth⟩
  exact congrArg (fun x : Fuses => { x with revoked0 := x.revoked0 || le p 1 1 == 0, revoked1 := x.revoked1 || le p 1 1 == 1 })
    State.sessionUsed_fuses

theorem setWallclock_replaces (hlen : p.length = 16) : ∃ t, exec (.setWallclock sess tag p) s = .next t ∧ Answered t 0x07 tag 0 0 [] ∧
    t.hearth = { s.hearth with wallclock := some (BitVec.ofNat 64 (le p 0 8), BitVec.ofNat 64 (le p 8 8)) } ∧ t.ctxs = s.ctxs ∧
    t.cellar = s.cellar :=
  ⟨_, congrArg Host.Outcome.next (State.command_of_session hon hsess (by simp [hlen]) rfl), .respond _ _ _ _ _ _,
    congrArg (fun h : Hearth => { h with wallclock := some (BitVec.ofNat 64 (le p 0 8), BitVec.ofNat 64 (le p 8 8)) }) State.sessionUsed_hearth,
    State.sessionUsed_ctxs, State.sessionUsed_cellar⟩

end Session

/-! ## The end of a live restart (R71, R87, R89) -/

/-- A live restart is over: the firmware checks in in every slot of its own. -/
def State.liveOver (s : State) : State := { s with hearth := { s.hearth with live := none }, wd := { s.wd with checked := s.wd.checked ||| 0x9F } }

section Complete
variable {s : State} {mib : Option Nat} {ok : Bool} {l : LiveRestart}

theorem exec_liveRestartComplete_passed (hlive : s.hearth.live = some l) (hpass : s.imageCheck l.slotB mib ok = none) :
    exec (.liveRestartComplete mib ok) s =
      .next (({ s with hearth := s.hearth.runs s l.slotB } : State).liveOver.acceptAll (fun a => a.code == 0x05 && a.tag == l.tag) 0x00 0) := by
  change execLiveRestartComplete mib ok s = _
  simp only [execLiveRestartComplete, hlive, hpass]
  rfl

theorem exec_liveRestartComplete_failed {code : Nat} (hlive : s.hearth.live = some l) (hfail : s.imageCheck l.slotB mib ok = some code) :
    exec (.liveRestartComplete mib ok) s =
      .next ((s.bootRecord l.slotB code false).liveOver.acceptAll (fun a => a.code == 0x05 && a.tag == l.tag) 0x26 code) := by
  change execLiveRestartComplete mib ok s = _
  simp only [execLiveRestartComplete, hlive, hfail]
  rfl

theorem exec_liveRestartComplete_none (hlive : s.hearth.live = none) : exec (.liveRestartComplete mib ok) s = .next s := by
  change execLiveRestartComplete mib ok s = _
  simp only [execLiveRestartComplete, hlive]

theorem liveRestartComplete_passed (hlive : s.hearth.live = some l) (hpass : s.imageCheck l.slotB mib ok = none) :
    ∃ t, exec (.liveRestartComplete mib ok) s = .next t ∧ t.hearth.live = none ∧ t.hearth.imageB = l.slotB ∧
      t.hearth.config = s.hearth.config ∧ t.wd.checked = s.wd.checked ||| 0x9F ∧ t.ctxs = s.ctxs ∧ t.cellar = s.cellar ∧ t.hosts = s.hosts := by
  refine ⟨_, exec_liveRestartComplete_passed hlive hpass, ?_⟩
  rw [State.acceptAll_frame State.hearth fun _ _ => rfl, State.acceptAll_frame State.wd fun _ _ => rfl, State.acceptAll_frame State.ctxs fun _ _ => rfl,
    State.acceptAll_frame State.cellar fun _ _ => rfl, State.acceptAll_frame State.hosts fun _ _ => rfl]
  exact ⟨rfl, rfl, rfl, rfl, rfl, rfl, rfl⟩

theorem liveRestartComplete_failed {code : Nat} (hlive : s.hearth.live = some l) (hfail : s.imageCheck l.slotB mib ok = some code) :
    ∃ t, exec (.liveRestartComplete mib ok) s = .next t ∧ t.hearth.live = none ∧ t.hearth.imageB = s.hearth.imageB ∧
      t.hearth.fwVersion = s.hearth.fwVersion ∧ t.ctxs = s.ctxs ∧ t.cellar = s.cellar := by
  refine ⟨_, exec_liveRestartComplete_failed hlive hfail, ?_⟩
  rw [State.acceptAll_frame State.hearth fun _ _ => rfl, State.acceptAll_frame State.ctxs fun _ _ => rfl, State.acceptAll_frame State.cellar fun _ _ => rfl]
  exact ⟨rfl, State.record_hearth_imageB _ _, State.record_hearth_fwVersion _ _, State.record_ctxs _ _, State.record_cellar _ _⟩

/-- While one is under way a second is refused (R88). -/
theorem liveRestart_second (hlive : s.hearth.live = some l) (hon : s.hearth.smbusOn = true) (sess : Option Nat) (tag : BitVec 16)
    (p : List Byte) : ∃ t, exec (.liveRestart sess tag p) s = .next t ∧ Answered t 0x05 tag 0x21 s.hearth.startup.code [] ∧
      t.hearth = s.hearth :=
  ⟨_, if_pos (by simp [hlive, hon]), .respond _ _ _ _ _ _, rfl⟩

end Complete

/-- Settles O37: each part is a rule of the commands above. -/
theorem imagesFusesAndClock : Obligations.ImagesFusesAndClock := by
  unfold Obligations.ImagesFusesAndClock
  refine ⟨fun s sess tag p hon hmay => ⟨fun hlo hhi hslot hz hoff hend => ?_, warmReset_resets tag hon hmay⟩,
    fun s sess tag p hon hsess => ⟨fun hlen hslot hz => ?_, fuseRaiseMinVersion_raises tag hon hsess, fuseRevokeKey_revokes tag hon hsess,
      setWallclock_replaces tag hon hsess⟩,
    fun s mib ok => ⟨fun l hlive => ⟨liveRestartComplete_passed hlive, fun _ => liveRestartComplete_failed hlive, liveRestart_second hlive⟩,
      exec_liveRestartComplete_none⟩⟩
  · exact ⟨imageWrite_accepted tag hon hmay hlo hhi hslot hz hoff hend, imageWrite_busy tag hon hmay hlo hhi hslot hz hoff hend,
      imageWrite_refused tag hon hmay hlo hhi hslot hz hoff hend⟩
  · exact ⟨liveRestart_accepted tag hon hsess hlen hslot hz, liveRestart_busy tag hon hsess hlen hslot hz,
      liveRestart_refused tag hon hsess hlen hslot hz⟩

end Sys2Proof.Machine
end

section
/-! A Figure that fails alone in its context stops the context (R120, R161): what O52's failing chunks lead to. -/

namespace Sys2Proof.Machine

theorem overList_nil {α : Type} (f : State → α → State) (s : State) : overList f [] s = s := rfl

theorem overList_cons {α : Type} (f : State → α → State) (x : α) (l : List α) (s : State) : overList f (x :: l) s = overList f l (f s x) := rfl

/-! ## The Figure has its failing result -/

/-- The flight with its result. -/
def Flight.withResult (f : Flight) (d : Done) : Flight := { f with done := some d }

/-- The context once its only Figure has its result. -/
def Context.onlyDone (x : Context) (w : Flight) (d : Done) : Context := { x with flights := [w.withResult d] }

section Fail
variable (s : State) (c : Nat) {w : Flight} (d : Done)

theorem Context.flight_of_only {x : Context} (h : x.flights = [w]) : x.flight w.fid = some w := by simp [Context.flight, h]

theorem State.failFlight_ctx_of_only (h : (s.ctx c).flights = [w]) (hdone : w.done = none) :
    (s.failFlight c w.fid d).ctx c = (s.ctx c).onlyDone w d := by
  have hpeers : (s.tellPeers w d.status).ctx c = s.ctx c := by rw [ctx, ctx, s.tellPeers_ctxs w d.status]
  have hfree : ((s.tellPeers w d.status).freeFlight c w).ctx c = s.ctx c := by rw [ctx, freeFlight_ctxs, ← ctx, hpeers]
  simp [failFlight, endFlight, hpeers, Context.flight_of_only h, hdone, hfree, Context.modFlight, h, Context.onlyDone, Flight.withResult]

theorem State.failFlight_abortKeeps (fid : Nat) : AbortKeeps c s (s.failFlight c fid d) := by
  unfold failFlight
  split
  · split
    · exact .refl c s
    · exact (s.tellPeers_abortKeeps c _ _).trans (endFlight_abortKeeps _ c fid d)
  · exact .refl c s

end Fail

/-! ## It leaves, and the context stops (R117, R120) -/

section Leave
variable (s : State) (c : Nat) {g : Flight} {d : Done}

theorem State.readyFlight_of_failed (hflights : (s.ctx c).flights = [g]) (hdone : g.done = some d) (hroom : s.ringRoom c = true) :
    s.readyFlight c = some (g, d) := by
  have hfinished : ∃ entry, (s.ctx c).finished g = some (d, entry) := by
    cases hgroup : g.kind.group <;> simp [Context.finished, Flight.selfDone, hdone, hflights, hgroup]
  obtain ⟨entry, hfinished⟩ := hfinished
  simp [readyFlight, hflights, hfinished, hroom]

/-- A failing Figure that leaves begins the drain of a context that runs. -/
theorem Context.left_of_failed (x : Context) (f : Flight) (hlive : x.live = true) (hd : okStatus d.status = false) :
    (x.left f d).state = .draining ∧ (x.left f d).lastStatus = d.status ∧ (x.left f d).latched = x.latched ∧
      (x.left f d).stopReason = .failed ∧ (x.left f d).stopIndex = x.pc ∧ (x.left f d).pc = x.pc := by
  have hcoll (y : Context) : ∃ ls dg fig, y.collDone f d = { y with layers := ls, digest := dg, digestFig := fig } := by
    unfold collDone
    split
    · exact ⟨_, _, _, rfl⟩
    · exact ⟨y.layers, y.digest, y.digestFig, rfl⟩
  have hcount (y : Context) : ∃ a b o, y.countStatus d.status = { y with aborted := a, timedOut := b, orderViolations := o } := by
    unfold countStatus
    split
    · exact ⟨_, y.timedOut, y.orderViolations, rfl⟩
    · exact ⟨y.aborted, _, y.orderViolations, rfl⟩
    · exact ⟨y.aborted, y.timedOut, _, rfl⟩
    · exact ⟨y.aborted, y.timedOut, y.orderViolations, rfl⟩
  obtain ⟨ls, dg, fig, hcoll⟩ := hcoll { x with flights := x.flights.filter (fun y => y.fid != f.fid) }
  obtain ⟨a, b, o, hcount⟩ := hcount { { x with flights := x.flights.filter (fun y => y.fid != f.fid) } with
    layers := ls, digest := dg, digestFig := fig }
  have hrun : x.state = .running ∨ x.state = .waiting := by simpa [live] using hlive
  simp only [left, hcoll, hcount, hd, Bool.false_eq_true, if_false]
  rcases hrun with h | h <;> simp [failStop, live, h]

/-- What a context holds once its only Figure, which failed, has left it. -/
theorem State.complete_ctx_of_failed (hflights : (s.ctx c).flights = [g]) (hlive : (s.ctx c).live = true) (hd : okStatus d.status = false) :
    let x := (s.complete c g d).ctx c
    x.flights = [] ∧ x.state = .draining ∧ x.lastStatus = d.status ∧ x.latched = (s.ctx c).latched ∧ x.stopReason = .failed ∧
      x.stopIndex = (s.ctx c).pc ∧ x.pc = (s.ctx c).pc := by
  have hstatus : ((s.ctx c).finalDone g d).status = d.status := by simp [Context.finalDone, hd]
  rw [complete_eq]
  generalize (s.ctx c).finalDone g d = e at hstatus ⊢
  dsimp only
  rw [progressIn_ctx, modCtx_eq, putCtx_ctx_self]
  obtain ⟨tail, used, phase, hctx⟩ := s.delivered_ctx_of_alone c e hflights
  rw [hctx, ← hstatus]
  have hleft := Context.left_of_failed ((s.ctx c).withRing tail used phase) g (d := e) hlive (hstatus.symm ▸ hd)
  refine ⟨?_, hleft⟩
  rw [Context.left_flights]
  simp [Context.withRing, hflights]

theorem State.settleFlights_of_failed (hflights : (s.ctx c).flights = [g]) (hdone : g.done = some d) (hlive : (s.ctx c).live = true)
    (hd : okStatus d.status = false) (hroom : s.ringRoom c = true) : s.settleFlights c = (s.complete c g d).settleFlights c := by
  obtain ⟨hnone, -⟩ := s.complete_ctx_of_failed c hflights hlive hd
  have hretire (n : Nat) : retire c (n + 1) s = s.complete c g d := by
    rw [retire, s.readyFlight_of_failed c hflights hdone hroom]
    exact retire_of_noFlights _ c n hnone
  rw [settleFlights_of_noFlights _ c hnone, settleFlights, hretire]

/-- The drain that the failure began ends at once, since nothing else is in flight. -/
theorem State.settle_ctx_of_failed (hflights : (s.ctx c).flights = [g]) (hdone : g.done = some d) (hlive : (s.ctx c).live = true)
    (hd : okStatus d.status = false) (hlatched : (s.ctx c).latched = none) (hroom : s.ringRoom c = true) :
    let x := (s.settle c).ctx c
    x.flights = [] ∧ x.lastStatus = d.status ∧ x.state = .stopped ∧ x.stopReason = .failed ∧ x.stopIndex = (s.ctx c).pc ∧
      x.pc = (s.ctx c).pc := by
  obtain ⟨hnone, hst, hlast, hla, hreason, hindex, hpc⟩ := s.complete_ctx_of_failed c hflights hlive hd
  have hfirst : (s.settleFlights c).ctx c = ((s.complete c g d).ctx c).ended := by
    rw [s.settleFlights_of_failed c hflights hdone hlive hd hroom, settleFlights_ctx_of_draining _ c hst hnone (hla.trans hlatched)]
  have hall : (s.ctx c).allDone := by simp [Context.allDone, hflights, hdone]
  rw [s.settle_of_firstStopped c hall (by rw [hfirst]; rfl) (by rw [hfirst]; exact hnone), hfirst]
  exact ⟨hnone, hlast, rfl, hreason, hindex, hpc⟩

end Leave

/-! ## What such a failure leaves of the Cellar and of the confirmed chunks -/

/-- What neither the hosts, the Hearth, the chunks' records nor the Bells hold, a flight that ends leaves. -/
theorem State.freeFlight_frame {β : Type} (p : State → β) (hbells : ∀ (s : State) b, p { s with cellar := { s.cellar with bells := b } } = p s)
    (hhosts : ∀ (s : State) l, p { s with hosts := l } = p s) (hhearth : ∀ (s : State) h, p { s with hearth := h } = p s)
    (hheld : ∀ (s : State) l dr o gu r ws w, p { s with lanes := l, droppedChunks := dr, outs := o, givenUp := gu, cellar := { s.cellar with
      reserved := r, waitingStaging := ws, waiting := w } } = p s) (s : State) (c : Nat) (f : Flight) : p (s.freeFlight c f) = p s := by
  have hwire (u : State) : p (u.dropWire c f) = p u := by
    unfold dropWire
    dsimp only
    split
    · exact hhearth _ _
    · rfl
  have hwaiter : p (s.clearWaiter c f.kind) = p s := by
    unfold clearWaiter
    split
    · exact hbells _ _
    · exact hbells _ _
    · rfl
  calc p (s.freeFlight c f)
    _ = p ((((s.clearWaiter c f.kind).dropReads c f.fid).dropWrites c f.fid).dropWire c f) := hheld _ _ _ _ _ _ _ _
    _ = p (((s.clearWaiter c f.kind).dropReads c f.fid).dropWrites c f.fid) := hwire _
    _ = p ((s.clearWaiter c f.kind).dropReads c f.fid) := hhosts _ _
    _ = p (s.clearWaiter c f.kind) := hhosts _ _
    _ = p s := hwaiter

theorem settleFrame_cellarMem : SettleFrame (fun s => s.cellar.mem) where
  ctx _ _ _ := rfl
  host _ _ _ _ := rfl
  port _ _ _ := rfl
  suite _ _ _ := rfl
  grp _ _ _ := rfl
  bell _ _ _ := rfl
  record s a := by simp
  wake s := by rw [State.wake_cellar]
  service _ _ := rfl
  freed := State.freeFlight_frame (fun s => s.cellar.mem) (fun _ _ => rfl) (fun _ _ => rfl) (fun _ _ => rfl) (fun _ _ _ _ _ _ _ _ => rfl)

theorem settleFrame_confirmed : SettleFrame State.confirmed where
  ctx _ _ _ := rfl
  host _ _ _ _ := rfl
  port _ _ _ := rfl
  suite _ _ _ := rfl
  grp _ _ _ := rfl
  bell _ _ _ := rfl
  record s a := by simp
  wake s := by
    obtain ⟨pw, h⟩ := s.wake_eq
    rw [h]
  service _ _ := rfl
  freed := State.freeFlight_frame State.confirmed (fun _ _ => rfl) (fun _ _ => rfl) (fun _ _ => rfl) (fun _ _ _ _ _ _ _ _ => rfl)

section Stop
variable {s : State} {c : Nat} {w : Flight} (d : Done)

/-- The context of a Figure that fails alone in it stops (R120, R161). -/
theorem State.failed_stops (h : Alone s c w) (hd : okStatus d.status = false) : StoppedBy s ((s.failFlight c w.fid d).settle c) c d.status := by
  obtain ⟨hflights, hdone, hlive, hlatched, hroom⟩ := h
  have hctx := s.failFlight_ctx_of_only c d hflights hdone
  have hroom' : (s.failFlight c w.fid d).ringRoom c = true :=
    ((s.failFlight_abortKeeps c d w.fid).ringRoom (by rw [hctx]; rfl) (by rw [hctx]; rfl)).trans hroom
  have hsettled := (s.failFlight c w.fid d).settle_ctx_of_failed c (g := w.withResult d) (d := d) (by rw [hctx]; rfl) rfl
    (by rw [hctx]; exact hlive) hd (by rw [hctx]; exact hlatched) hroom'
  rw [hctx] at hsettled
  obtain ⟨hnone, hlast, hst, hreason, hindex, hpc⟩ := hsettled
  exact ⟨hnone, hlast, hst, hreason, hindex, hpc,
    (settleFrame_cellarMem.settle _ c).trans (settleFrame_cellarMem.failFlight s c w.fid d)⟩

/-- No BELL_RING waits behind the chunk of a Figure that is alone in its context (R189). -/
theorem State.loseOwnRings_of_only {g : Flight} (h : (s.ctx c).flights = [g]) (dest chunk : Nat) :
    s.loseOwnRings c g.fid dest chunk = s := by
  have hsent : s.loseSentRings c g.fid dest chunk = s := by
    unfold loseSentRings
    rw [h, List.filter_cons_of_neg (by simp)]
    rfl
  unfold loseOwnRings
  rw [h]
  simp only [overList_cons, overList_nil, lt_irrefl, and_false, if_false]
  split <;> exact hsent

end Stop

end Sys2Proof.Machine
end

section
/-! What chunks on a hop leave: data that is sent, speculative data that grows, what is retracted (R281-R297), and the progress of a collective
behind it (O52 rests on it). -/

namespace Sys2Proof.Machine

/-! ## A view that sending data does not move (R283, R285, R295) -/

/-- A fabric port without its data queue, its last unit and its count of retract markers sent. -/
def FabPort.book (x : FabPort) : FabPort := { x with vc0 := [], lastUnit := none, cnt := { x.cnt with retractSent := 0 } }

/-- A view of the state that data on its way out leaves: data queues, outgoing chunks and the rings behind them may change under it. -/
structure SendFrame {β : Type} (p : State → β) : Prop where
  port : ∀ s i x, FabPort.book x = (State.port s i).book → p (State.putPort s i x) = p s
  outs : ∀ (s : State) l, p { s with outs := l } = p s
  rings : ∀ (s : State) l, p { s with rings := l } = p s

namespace SendFrame

section
variable {β : Type} {p : State → β} (hp : SendFrame p) (s : State)
include hp

theorem queueFlow (i flow kind : Nat) (b : List Byte) : p (s.queueFlow i flow kind b) = p s := hp.port _ _ _ rfl

theorem queue (i kind : Nat) (b : List Byte) : p (s.queue i 0 kind b) = p s := hp.queueFlow _ _ _ _ _

theorem sendData (i : Nat) (o : OutChunk) (off : Nat) (b : List Byte) : p (s.sendData i o off b) = p s :=
  overList_frame p (fun u _ => (overList_frame p (fun v _ => hp.queue v _ _ _) _ _).trans (hp.queue u _ _ _)) _ s

theorem modOut (n : Nat) (f : OutChunk → OutChunk) : p (s.modOut n f) = p s := hp.outs _ _

theorem ringsOnward (i : Nat) (o : OutChunk) : p (s.ringsOnward i o) = p s :=
  (overList_frame p (fun u _ => hp.queueFlow u _ _ _ _) _ _).trans (hp.rings _ _)

theorem pushPieces (n : Nat) : p (s.pushPieces n) = p s := by
  unfold State.pushPieces
  split
  · rfl
  split
  · rfl
  split
  · rfl
  · exact (hp.modOut _ _ _).trans (overList_frame p (fun u _ => hp.sendData u _ _ _ _) _ s)

theorem finishOut (n : Nat) : p (s.finishOut n) = p s := by
  unfold State.finishOut
  split
  · rfl
  split
  · split
    · rfl
    · have hsent (u : State) (i : Nat) (o : OutChunk) (off : Nat) (b f : List Byte) (g : OutChunk → OutChunk) :
          p (((u.sendData i o off b).queue i 0 2 f).modOut n g) = p u :=
        (hp.modOut _ _ _).trans ((hp.queue _ _ _ _).trans (hp.sendData _ _ _ _ _))
      dsimp only
      split
      · exact (hp.ringsOnward _ _ _).trans (hsent _ _ _ _ _ _ _)
      · exact hsent _ _ _ _ _ _ _
  · rfl

theorem fillOut (n : Nat) (aux : ChunkAux) (b : List Byte) : p (s.fillOut n aux b) = p s := (hp.finishOut _ _).trans (hp.modOut _ _ _)

theorem feed (l : Lane) (off : Nat) (b : List Byte) : p (s.feed l off b) = p s := by
  refine overList_frame p (fun u i => ?_) _ s
  split
  · split
    · rfl
    · exact (hp.pushPieces _ _).trans (hp.modOut _ _ _)
  · rfl

theorem sendMarker (i : Nat) (o : OutChunk) : p (s.sendMarker i o) = p s := by
  have hctl (l : List (Nat × Nat × Nat)) : p (s.sendCtl i 0x01 l) = p s := by
    unfold State.sendCtl
    split
    · exact hp.queue _ _ _ _
    · rfl
  have hcount (u : State) : p (u.countPort i (fun k => { k with retractSent := satInc k.retractSent })) = p u := hp.port u i _ rfl
  exact (hcount _).trans (hctl _)

theorem retractOut (n : Nat) : p (s.retractOut n) = p s := by
  unfold State.retractOut
  split
  · rfl
  next o _ =>
    split
    · rfl
    · have hmarked : p (match o.port with | some i => s.sendMarker i o | none => s) = p s := by
        split
        · exact hp.sendMarker _ _ _
        · rfl
      dsimp only
      split
      · exact (hp.outs _ _).trans hmarked
      · exact (hp.modOut _ _ _).trans hmarked

/-- A lane that is discarded leaves the other lanes, and what the data that is retracted leaves. -/
theorem dropLane (l : Lane) : p (s.dropLane l) = p { s with lanes := s.lanes.filter (fun x => x != l) } :=
  overList_frame p (fun u i => hp.retractOut u i) _ _

end

end SendFrame

/-- Everything but the ports, the outgoing chunks and the rings behind them. -/
def State.unsent (s : State) : State := { s with ports := [], outs := [], rings := [] }

theorem sendFrame_unsent : SendFrame State.unsent := ⟨fun _ _ _ _ => rfl, fun _ _ => rfl, fun _ _ => rfl⟩

theorem sendFrame_book (q : Nat) : SendFrame (fun s => (s.port q).book) where
  port s i x h := by
    rw [State.putPort_port]
    split
    next hq => rw [h, hq]
    · rfl
  outs _ _ := rfl
  rings _ _ := rfl

/-! ## A view that a collective's progress does not move -/

/-- Beside the data also the send sequences of groups and the hosts' queues may change under the view. -/
structure CollFrame {β : Type} (p : State → β) : Prop extends SendFrame p where
  grp : ∀ s n x, p (State.putGrp s n x) = p s
  host : ∀ s n x, p (State.putHost s n x) = p s

namespace CollFrame

section
variable {β : Type} {p : State → β} (hp : CollFrame p) (s : State)
include hp

theorem takeSeq (flow dest : Nat) : p (s.takeSeq false flow dest).2 = p s := hp.grp _ _ _

theorem post (h : Nat) (w : HostWrite) : p (s.post h w) = p s := by
  unfold State.post
  dsimp only
  split
  · exact hp.host _ _ _
  · exact hp.host _ _ _

theorem postBytes (h iova : Nat) (b : List Byte) (c fid : Nat) : p (s.postBytes h iova b c fid) = p s :=
  overList_frame p (f := fun s (x : Nat × Nat) => s.post h (.data (BitVec.ofNat 64 (iova + x.1)) (slice b x.1 x.2) c fid))
    (fun u _ => hp.post u _ _) _ s

theorem writeSlot (c fid : Nat) (k : Coll) (m : LMember) (pl : Place) (b : List Byte) (keep : Bool) :
    p (s.writeSlot c fid k m pl b keep) = p s := by
  have hflag (u : State) (h : Nat) (w : HostWrite) : p (if k.stream then u.post h w else u) = p u := by
    split
    · exact hp.post u _ _
    · rfl
  unfold State.writeSlot
  dsimp only
  split
  · exact hflag _ _ _
  · exact overList_frame p (fun u _ => (hflag _ _ _).trans (hp.postBytes u _ _ _ _ _)) _ s

theorem deliver (c fid : Nat) (k : Coll) (src dst n : Nat) (b : List Byte) : p (s.deliver c fid k src dst n b) = p s := by
  refine overList_frame p (fun u m => ?_) _ s
  split
  · rfl
  · exact hp.writeSlot _ _ _ _ _ _ _ _

theorem sendOn (c fid : Nat) (k : Coll) (n src dst formedBy : Nat) (seq : Option Nat) (aux : ChunkAux) (b : List Byte) (from_ : Option Nat) :
    p (s.sendOn c fid k n src dst formedBy seq aux b from_) = p s := by
  refine overList_frame p (fun u e => ?_) _ s
  dsimp only
  split
  · exact hp.fillOut _ _ _ _
  · refine (hp.outs _ _).trans ?_
    split
    · rfl
    · exact hp.takeSeq _ _ _

theorem openUp (c fid : Nat) (k : Coll) (n : Nat) : p (s.openUp c fid k n) = p s := (hp.outs _ _).trans (hp.takeSeq _ _ _)

theorem upOpened (c fid : Nat) (k : Coll) (n : Nat) : p (if (s.upOut c fid n).isSome then s else s.openUp c fid k n) = p s := by
  split
  · rfl
  · exact hp.openUp _ _ _ _ _

theorem fillUp (c fid : Nat) (k : Coll) (n : Nat) (x : Part) : p (s.fillUp c fid k n x) = p s := by
  unfold State.fillUp
  dsimp only
  split
  · exact (hp.fillOut _ _ _ _).trans (hp.upOpened _ _ _ _ _)
  · exact hp.upOpened _ _ _ _ _

theorem speculate (c fid n : Nat) : p (s.speculate c fid n) = p s := by
  unfold State.speculate
  split
  · rfl
  split
  · rfl
  next k _ _ =>
    extract_lets ps b u
    have hup : p u = p s := hp.upOpened s c fid k n
    split
    · exact hup
    split
    · split
      · exact hup
      · exact (hp.pushPieces _ _).trans ((hp.modOut _ _ _).trans hup)
    · exact hup

theorem openOnward (c fid : Nat) (k : Coll) (l : Lane) : p (s.openOnward c fid k l) = p s := by
  refine overList_frame p (fun u e => ?_) _ s
  dsimp only
  split
  · rfl
  · exact hp.outs _ _

/-- Bytes that arrive in a lane change that lane, and else what data leaves. -/
theorem intoLane (l : Lane) (off : Nat) (b : List Byte) : p (s.intoLane l off b) =
    p { s with lanes := s.lanes.map (fun x => if x = l then { l with pieces := l.pieces ++ [(off, b)] } else x) } := by
  unfold State.intoLane
  dsimp only
  split
  · exact hp.feed _ _ _ _
  · split
    · split
      · exact hp.speculate _ _ _ _
      · exact hp.feed _ _ _ _
    · rfl

end

end CollFrame

theorem collFrame_ctxs : CollFrame State.ctxs := ⟨⟨fun _ _ _ _ => rfl, fun _ _ => rfl, fun _ _ => rfl⟩, fun _ _ _ => rfl, fun _ _ _ => rfl⟩

theorem collFrame_cellar : CollFrame State.cellar := ⟨⟨fun _ _ _ _ => rfl, fun _ _ => rfl, fun _ _ => rfl⟩, fun _ _ _ => rfl, fun _ _ _ => rfl⟩

/-- Beside those also the contexts may change under the view. -/
structure ProgressFrame {β : Type} (p : State → β) : Prop extends CollFrame p where
  ctx : ∀ s n x, p (State.putCtx s n x) = p s

namespace ProgressFrame

section
variable {β : Type} {p : State → β} (hp : ProgressFrame p) (s : State) (c fid : Nat)
include hp

theorem modColl (g : Coll → Coll) : p (s.modColl c fid g) = p s := hp.ctx _ _ _

theorem countReorder : p (s.countReorder c fid) = p s := (hp.ctx _ _ _).trans (hp.ctx _ _ _)

theorem rootChunk (k : Coll) (n : Nat) (x : Part) : p (s.rootChunk c fid k n x) = p s := by
  unfold State.rootChunk
  extract_lets el b q u v
  have hu : p u = p s := hp.ctx _ _ _
  have hv : p v = p u := hp.modColl _ _ _ _
  exact (hp.sendOn _ _ _ _ _ _ _ _ _ _ _ _).trans ((hp.deliver _ _ _ _ _ _ _ _).trans (hv.trans hu))

theorem nodeTry (n : Nat) : p (s.nodeTry c fid n) = p s := by
  unfold State.nodeTry
  split
  · rfl
  next k _ =>
    dsimp only
    split
    · have hfolded (u : State) (b : Bool) : p (if b then u.countReorder c fid else u) = p u := by
        split
        · exact hp.countReorder _ _ _
        · rfl
      split
      · split
        · exact (hp.rootChunk _ _ _ _ _ _).trans ((hfolded _ _).trans (hp.modColl _ _ _ _))
        · exact (hp.fillUp _ _ _ _ _ _).trans ((hfolded _ _).trans (hp.modColl _ _ _ _))
      · exact (hfolded _ _).trans (hp.modColl _ _ _ _)
    · exact hp.speculate _ _ _ _

theorem acceptColl (k : Coll) (l : Lane) (b : List Byte) (aux : ChunkAux) : p (s.acceptColl c fid k l b aux) = p s := by
  have hfolded : p (if k.ordered && !l.ordered then s.countReorder c fid else s) = p s := by
    split
    · exact hp.countReorder _ _ _
    · rfl
  unfold State.acceptColl
  dsimp only
  split
  · exact (hp.nodeTry _ _ _ _).trans ((hp.modColl _ _ _ _).trans hfolded)
  · exact (hp.sendOn _ _ _ _ _ _ _ _ _ _ _ _).trans ((hp.deliver _ _ _ _ _ _ _ _).trans ((hp.modColl _ _ _ _).trans hfolded))

end

end ProgressFrame

theorem progressFrame_lanes : ProgressFrame State.lanes :=
  ⟨⟨⟨fun _ _ _ _ => rfl, fun _ _ => rfl, fun _ _ => rfl⟩, fun _ _ _ => rfl, fun _ _ _ => rfl⟩, fun _ _ _ => rfl⟩

theorem progressFrame_confirmed : ProgressFrame State.confirmed :=
  ⟨⟨⟨fun _ _ _ _ => rfl, fun _ _ => rfl, fun _ _ => rfl⟩, fun _ _ _ => rfl, fun _ _ _ => rfl⟩, fun _ _ _ => rfl⟩

theorem progressFrame_book (q : Nat) : ProgressFrame (fun s => (s.port q).book) :=
  ⟨⟨sendFrame_book q, fun _ _ _ => rfl, fun _ _ _ => rfl⟩, fun _ _ _ => rfl⟩

end Sys2Proof.Machine
end

section
/-! Settling O52, the packets: a packet opens its chunk's lane, joins it, is dropped, or fails the Figure of its group (R210, R217, R289-R291, R297,
R299, R367, R552). -/

namespace Sys2Proof.Machine

/-! ## Everything but what chunks on a hop write -/

/-- The state without its ports, its chunks in and out, and its records of them. -/
def State.offHop (s : State) : State := { s.unsent with lanes := [], confirmed := [], commits := [], owed := [], droppedChunks := [] }

theorem State.ctxs_of_offHop {s u : State} (h : u.offHop = s.offHop) : u.ctxs = s.ctxs :=
  (congrArg State.ctxs h : u.offHop.ctxs = s.offHop.ctxs)

theorem State.cellar_of_offHop {s u : State} (h : u.offHop = s.offHop) : u.cellar = s.cellar :=
  (congrArg State.cellar h : u.offHop.cellar = s.offHop.cellar)

theorem State.offHop_of_unsent {s u : State} (h : u.unsent = s.unsent) : u.offHop = s.offHop :=
  congrArg (fun v : State => { v with lanes := [], confirmed := [], commits := [], owed := [], droppedChunks := [] }) h

theorem Alone.of_offHop {s u : State} {c : Nat} {w : Flight} (h : u.offHop = s.offHop) (ha : Alone s c w) : Alone u c w := by
  have hrest : Alone u.offHop c w := by
    rw [h]
    exact ha
  exact hrest

theorem StoppedBy.of_offHop {s u t : State} {c st : Nat} (h : u.offHop = s.offHop) (hstop : StoppedBy u t c st) : StoppedBy s t c st := by
  have hrest : StoppedBy u.offHop t c st := hstop
  rw [h] at hrest
  exact hrest

/-! ## A generation that differs (R217) -/

section WrongGen
variable {s : State} {g : Nat}

theorem State.wrongGen_of_none (h : s.groupFlights g = []) : s.wrongGen g = s := by rw [wrongGen, h]

theorem State.wrongGen_stops {c : Nat} {w : Flight} (h : s.groupFlights g = [(c, w.fid)]) (ha : Alone s c w) :
    StoppedBy s (s.wrongGen g) c 0x14 := by
  rw [wrongGen, h]
  exact failed_stops { status := 0x14, detail := BitVec.ofNat 32 g } ha rfl

end WrongGen

/-! ## The lane of a chunk (R289) -/

section Lanes
variable {s : State} {x : Lane}

/-- A chunk has no lane: none of the lanes has its name's fields. -/
theorem State.not_mem_lanes_of_laneOf (h : s.laneOf x.isMove x.flow x.chunk x.formedBy x.seq = []) : x ∉ s.lanes := by
  intro hx
  have hmem : x ∈ s.laneOf x.isMove x.flow x.chunk x.formedBy x.seq := by simp [laneOf, hx]
  simp [h] at hmem

theorem State.laneAt_of_appended {t : State} (hl : t.lanes = s.lanes ++ [x]) (h : s.laneOf x.isMove x.flow x.chunk x.formedBy x.seq = []) :
    t.laneAt x.port x.flow x.isMove x.chunk x.formedBy x.seq = some x := by
  rw [laneOf] at h
  simp [laneAt, laneOf, hl, List.filter_append, h]

/-- A change to the lane that came last. -/
theorem map_replace_last {l : List Lane} (h : x ∉ l) (x' : Lane) : (l ++ [x]).map (fun y => if y = x then x' else y) = l ++ [x'] := by
  have hsame : l.map (fun y => if y = x then x' else y) = l := by
    refine (List.map_congr_left fun y hy => if_neg ?_).trans (List.map_id' l)
    rintro rfl
    exact h hy
  simp [hsame]

end Lanes

/-! ## A lane opens (R289-R291) -/

/-- A lane joins those that are open. -/
def State.withLane (s : State) (l : Lane) : State := { s with lanes := s.lanes ++ [l] }

section Open
variable {s : State} {l : Lane} {ports : List Nat}

theorem State.openLane_of_move (hmine : l.dest = s.engineId) (hmove : l.isMove = true) : s.openLane l ports = s.withLane l := by
  have hdest : ¬ l.dest ≠ (s.withLane l).engineId := not_not.mpr hmine
  exact (if_neg hdest).trans (if_pos hmove)

theorem State.openLane_of_passing (hother : l.dest ≠ s.engineId) (hnone : ∀ o ∈ s.outs, o.passes l = false) :
    s.openLane l ports = { s.withLane l with outs := s.outs ++ [forwardOut l ports] } := by
  have hno : ¬ s.outs.any (fun o => o.passes l) = true := by simpa using hnone
  exact (if_pos (show l.dest ≠ (s.withLane l).engineId from hother)).trans (if_neg hno)

/-- The Figure that a chunk's first packet finds (R367). -/
def State.figureFor (s : State) (l : Lane) : Option (Nat × Nat) :=
  s.flightOn l.flow (fun k => expects k s.engineId l.down l.epoch l.chunk l.formedBy l.src l.dst)

theorem State.openLane_of_figure {c fid : Nat} (hmine : l.dest = s.engineId) (hmove : l.isMove = false) (h : s.figureFor l = some (c, fid)) :
    s.openLane l ports = (s.withLane l).takeLane c fid l := by
  refine (if_neg (not_not.mpr hmine)).trans ((if_neg (by simp [hmove])).trans ?_)
  split
  next c' fid' h' =>
    obtain ⟨rfl, rfl⟩ : c = c' ∧ fid = fid' := by simpa using h.symm.trans h'
    rfl
  next h' => exact absurd (h.symm.trans h') (by simp)

theorem State.openLane_of_noFigure (hmine : l.dest = s.engineId) (hmove : l.isMove = false) (h : s.figureFor l = none) :
    s.openLane l ports = s.withLane l := by
  refine (if_neg (not_not.mpr hmine)).trans ((if_neg (by simp [hmove])).trans ?_)
  split
  next c' fid' h' => exact absurd (h.symm.trans h') (by simp)
  next => rfl

/-- The Figure that takes a chunk owns its lane. -/
theorem State.takeLane_lanes {c fid : Nat} (h : (s.collAt c fid).isSome = true) :
    ∃ r, (s.takeLane c fid l).lanes = s.lanes.map (fun x => if x = l then { l with owner := some (c, fid), rank := r } else x) ∧
      (s.takeLane c fid l).confirmed = s.confirmed := by
  obtain ⟨k, hk⟩ := Option.isSome_iff_exists.mp h
  refine ⟨k.rankNext, ?_⟩
  have hframe {β : Type} {p : State → β} (hp : ProgressFrame p) : p (s.takeLane c fid l) =
      p { s with lanes := s.lanes.map (fun x => if x = l then { l with owner := some (c, fid), rank := k.rankNext } else x),
                 ctxs := (s.modColl c fid (fun k => { k with rankNext := k.rankNext + 1 })).ctxs } := by
    unfold takeLane
    rw [hk]
    dsimp only
    split
    · exact hp.nodeTry _ _ _ _
    · exact (overList_frame p (fun u x => hp.feed u _ _ _) _ _).trans (hp.openOnward _ _ _ _ _)
  exact ⟨hframe progressFrame_lanes, hframe progressFrame_confirmed⟩

theorem State.takeLane_of_none {c fid : Nat} (h : s.collAt c fid = none) : s.takeLane c fid l = s := by
  unfold takeLane
  rw [h]

/-- The lane once its owner, if it has one, and its rank are known. -/
def Lane.owned (l : Lane) (o : Option (Nat × Nat)) (r : Nat) : Lane := { l with owner := o, rank := r }

/-- The lane of a chunk for this engine: a MOVE's has no owner, a collective's that of the Figure that expects it. -/
theorem State.openLane_mine (hmine : l.dest = s.engineId) (howner : l.owner = none)
    (hnone : s.laneOf l.isMove l.flow l.chunk l.formedBy l.seq = []) :
    ∃ o r, (s.openLane l ports).lanes = s.lanes ++ [l.owned o r] ∧ (s.openLane l ports).confirmed = s.confirmed ∧
      (l.isMove = true → o = none) ∧
      (l.isMove = false → (∀ c fid, s.figureFor l = some (c, fid) → (s.collAt c fid).isSome = true) → o = s.figureFor l) ∧
      (o = none → (s.openLane l ports).offHop = s.offHop) := by
  have hsame : l.owned none l.rank = l := by rw [Lane.owned, ← howner]
  cases hmove : l.isMove with
  | true =>
    rw [openLane_of_move hmine hmove]
    exact ⟨none, l.rank, by rw [hsame]; rfl, rfl, fun _ => rfl, fun h => absurd h (by simp), fun _ => rfl⟩
  | false =>
    rcases hon : s.figureFor l with - | ⟨c, fid⟩
    · rw [openLane_of_noFigure hmine hmove hon]
      exact ⟨none, l.rank, by rw [hsame]; rfl, rfl, fun _ => rfl, fun _ _ => rfl, fun _ => rfl⟩
    rw [openLane_of_figure hmine hmove hon]
    cases hat : s.collAt c fid with
    | none =>
      rw [takeLane_of_none (s := s.withLane l) hat]
      refine ⟨none, l.rank, by rw [hsame]; rfl, rfl, fun _ => rfl, fun _ h => ?_, fun _ => rfl⟩
      simpa [hat] using h c fid rfl
    | some k =>
      obtain ⟨r, hlanes, hconfirmed⟩ := takeLane_lanes (s := s.withLane l) (l := l) (Option.isSome_iff_exists.mpr ⟨k, hat⟩)
      refine ⟨some (c, fid), r, ?_, hconfirmed, fun h => absurd h (by simp), fun _ _ => rfl, fun h => absurd h (by simp)⟩
      exact hlanes.trans (map_replace_last (not_mem_lanes_of_laneOf hnone) _)

end Open

/-! ## Bytes join a lane (R289-R291) -/

section Join
variable {s : State} {l : Lane} {ports : List Nat} {off : Nat} {b : List Byte}

/-- The lane with the bytes of one more packet. -/
def Lane.grown (l : Lane) (off : Nat) (b : List Byte) : Lane := { l with pieces := l.pieces ++ [(off, b)] }

/-- A lane has got a packet's bytes. -/
def State.withGrown (s : State) (l : Lane) (off : Nat) (b : List Byte) : State :=
  { s with lanes := s.lanes.map (fun x => if x = l then l.grown off b else x) }

theorem State.intoLane_of_noOwner (h : l.owner = none) : s.intoLane l off b = (s.withGrown l off b).feed (l.grown off b) off b := by
  unfold intoLane
  dsimp only
  split
  · rfl
  next h' => exact absurd (h.symm.trans h') (by simp)

theorem State.intoLane_offHop (h : l.owner = none) : (s.intoLane l off b).offHop = s.offHop := by
  rw [intoLane_of_noOwner h]
  exact (offHop_of_unsent (sendFrame_unsent.feed (s.withGrown l off b) _ _ _)).trans rfl

theorem State.intoLane_lanes (s : State) (l : Lane) (off : Nat) (b : List Byte) :
    (s.intoLane l off b).lanes = s.lanes.map (fun x => if x = l then l.grown off b else x) :=
  progressFrame_lanes.intoLane s l off b

theorem State.intoLane_confirmed (s : State) (l : Lane) (off : Nat) (b : List Byte) : (s.intoLane l off b).confirmed = s.confirmed :=
  progressFrame_confirmed.intoLane s l off b

/-- A packet finds its chunk's record of drops gone, and a MOVE flow that begins anew forgotten (R225). -/
def State.packetTaken (s : State) (l : Lane) : State :=
  let s : State := { s with droppedChunks := s.droppedChunks.filter (fun d => d != l.asDropped) }
  if l.isMove && l.attempt == 1 && s.confirmed.contains l.name then s.renewFlow l else s

theorem State.packetTaken_eq (s : State) (l : Lane) : ∃ dr cf cm, s.packetTaken l = { s with droppedChunks := dr, confirmed := cf, commits := cm } := by
  unfold packetTaken
  dsimp only
  split
  · exact ⟨_, _, _, rfl⟩
  · exact ⟨_, s.confirmed, s.commits, rfl⟩

theorem State.packetTaken_confirmed (h : l.name ∉ s.confirmed) : (s.packetTaken l).confirmed = s.confirmed := by
  unfold packetTaken
  dsimp only
  rw [if_neg (by simp [h])]

/-- A flow that begins anew has no chunk confirmed. -/
theorem State.not_mem_packetTaken (h : l.name ∉ s.confirmed ∨ (l.isMove = true ∧ l.attempt = 1)) : l.name ∉ (s.packetTaken l).confirmed := by
  by_cases hmem : l.name ∈ s.confirmed
  · obtain ⟨hmove, hattempt⟩ := h.resolve_left (not_not.mpr hmem)
    unfold packetTaken
    dsimp only
    rw [if_pos (by simp [hmove, hattempt, hmem])]
    simp [renewFlow, Lane.name, hmove]
  · rw [packetTaken_confirmed hmem]
    exact hmem

/-- The first packet of a chunk opens its lane, and its bytes join it. -/
theorem State.packetIn_of_new {x : Lane} (hnew : l.name ∉ s.confirmed ∨ (l.isMove = true ∧ l.attempt = 1))
    (hnone : s.laneOf l.isMove l.flow l.chunk l.formedBy l.seq = [])
    (hx : ((s.packetTaken l).openLane l ports).laneAt l.port l.flow l.isMove l.chunk l.formedBy l.seq = some x) :
    s.packetIn l ports off b = ((s.packetTaken l).openLane l ports).intoLane x off b := by
  have hnot := not_mem_packetTaken hnew
  have hnone' : (s.packetTaken l).laneOf l.isMove l.flow l.chunk l.formedBy l.seq = [] := by
    obtain ⟨dr, cf, cm, h⟩ := s.packetTaken_eq l
    rw [h]
    exact hnone
  unfold packetIn
  extract_lets u v old fresh
  have hv : v = s.packetTaken l := rfl
  clear_value v
  subst hv
  have hold : old = none := by
    simp only [old, hnone', List.find?_nil]
  rw [if_neg (by simp [hnot]), hold]
  dsimp only [fresh]
  rw [hx]

/-- A packet of a lane's own attempt, on its port, joins it. -/
theorem State.packetIn_of_lane {x : Lane} (hlane : s.laneOf l.isMove l.flow l.chunk l.formedBy l.seq = [x]) (hdest : x.dest = l.dest)
    (hport : x.port = l.port) (hattempt : x.attempt = l.attempt) (hnot : l.name ∉ s.confirmed) :
    s.packetIn l ports off b = (s.packetTaken l).intoLane x off b := by
  have hnot' : l.name ∉ (s.packetTaken l).confirmed := by rwa [packetTaken_confirmed hnot]
  have hlane' : (s.packetTaken l).laneOf l.isMove l.flow l.chunk l.formedBy l.seq = [x] := by
    obtain ⟨dr, cf, cm, h⟩ := s.packetTaken_eq l
    rw [h]
    exact hlane
  unfold packetIn
  extract_lets u v old fresh
  have hv : v = s.packetTaken l := rfl
  clear_value v
  subst hv
  have hold : old = some x := by
    simp only [old, hlane', List.find?_cons, hdest, beq_self_eq_true]
  rw [if_neg (by simp [hnot']), hold]
  exact if_pos ⟨hport, hattempt⟩

/-- A duplicate of a confirmed chunk is discarded (R299). -/
theorem State.packetIn_of_confirmed (hmem : l.name ∈ s.confirmed) (hkept : ¬ (l.isMove = true ∧ l.attempt = 1)) :
    s.packetIn l ports off b = { s with droppedChunks := s.droppedChunks.filter (fun d => d != l.asDropped) } := by
  have htaken : ¬ (l.isMove && l.attempt == 1 && s.confirmed.contains l.name) = true := by
    rintro h
    simp only [Bool.and_eq_true, beq_iff_eq] at h
    exact hkept h.1
  unfold packetIn
  extract_lets u v old fresh
  have hv : v = u := if_neg htaken
  rw [if_pos (by rw [hv]; simpa using hmem), hv]

end Join

/-! ## Outgoing chunks one by one -/

section Outs
variable {s : State}

theorem State.modOut_getElem? (n : Nat) (f : OutChunk → OutChunk) (i : Nat) :
    (s.modOut n f).outs[i]? = (s.outs[i]?).map (fun o => if i = n then f o else o) := by
  rw [modOut]
  by_cases hi : i < s.outs.length
  · simp [hi, List.length_zip]
  · simp [hi]

theorem State.modOut_last {os : List OutChunk} {o : OutChunk} (h : s.outs = os ++ [o]) (f : OutChunk → OutChunk) :
    (s.modOut os.length f).outs = os ++ [f o] := by
  refine List.ext_getElem? fun i => ?_
  rw [modOut_getElem?, h]
  rcases lt_trichotomy i os.length with hi | hi | hi
  · rw [List.getElem?_append_left hi, List.getElem?_append_left hi]
    simp [hi.ne]
  · simp [hi]
  · rw [List.getElem?_append_right hi.le, List.getElem?_append_right hi.le]
    have hpast : i - os.length ≠ 0 := by omega
    simp [hpast]

theorem State.pushPieces_of_noPort {n : Nat} (h : ∀ o, s.outs[n]? = some o → o.port = none) : s.pushPieces n = s := by
  unfold pushPieces
  split
  · rfl
  next o ho =>
    split
    · rfl
    next q hq => exact absurd ((h o ho).symm.trans hq) (by simp)

theorem State.outsWhere_last {os : List OutChunk} {o : OutChunk} (h : s.outs = os ++ [o]) {q : OutChunk → Bool} (hos : ∀ x ∈ os, q x = false)
    (ho : q o = true) : s.outsWhere q = [os.length] := by
  unfold outsWhere
  rw [h, List.length_append, List.length_singleton, List.range_succ, List.filter_append]
  refine (congrArg₂ (· ++ ·) (List.filter_eq_nil_iff.mpr fun i hi => ?_) (List.filter_eq_self.mpr fun i hi => ?_)).trans (List.nil_append _)
  · have hlt := List.mem_range.mp hi
    rw [List.getElem?_append_left hlt, List.getElem?_eq_getElem hlt]
    simp [hos]
  · obtain rfl := List.mem_singleton.mp hi
    simp [ho]

/-- The data of a lane that only the last outgoing chunk passes on. -/
theorem State.feed_last {os : List OutChunk} {o : OutChunk} {l : Lane} {b : List Byte} (h : s.outs = os ++ [o]) (hos : ∀ x ∈ os, x.passes l = false)
    (ho : o.passes l = true) (hbytes : o.bytes = none) (hpieces : o.pieces = []) (hport : o.port = none) (off : Nat) :
    ∃ ps, (s.feed l off b).outs = os ++ [{ o with pieces := ps }] ∧ (off = 0 → ps = [(0, b)]) := by
  have hat : s.outs[os.length]? = some o := by simp [h]
  have hlen : o.formedLen = 0 := by simp [OutChunk.formedLen, hpieces]
  unfold feed
  rw [outsWhere_last h hos ho, overList_cons, overList_nil]
  split
  next o' ho' =>
    obtain rfl : o = o' := by simpa using hat.symm.trans ho'
    by_cases hoff : off = 0
    · have hout : (s.modOut os.length (fun x => { x with pieces := x.pieces ++ [(off, b)] })).outs = os ++ [{ o with pieces := [(0, b)] }] := by
        rw [modOut_last h, hpieces, hoff]
        rfl
      rw [if_neg (by simp [hbytes, hlen, hoff]), pushPieces_of_noPort (by simp [hout, hport]), hout]
      exact ⟨_, rfl, fun _ => rfl⟩
    · rw [if_pos (by simp [hlen, Ne.symm hoff]), h]
      exact ⟨o.pieces, rfl, fun h => absurd h hoff⟩
  next ho' => exact absurd (hat.symm.trans ho') (by simp)

end Outs

end Sys2Proof.Machine
end

section
/-! Settling O52: PACKET_RECEIVED, one rule for each way in which a packet is taken (R210, R217, R289-R291, R299, R367, R552). -/

namespace Sys2Proof.Machine

theorem State.portUp_of_up {s : State} {p : Nat} (h : (s.port p).state = .up) : s.portUp p = true := by simp [portUp, h]

theorem State.returnCredits_forwardPorts (s : State) (p vc n : Nat) (isMove : Bool) (flow dest : Nat) :
    (s.returnCredits p vc n).forwardPorts isMove flow dest = s.forwardPorts isMove flow dest := by
  simp only [forwardPorts, returnCredits_port_state]
  rfl

theorem State.countPort_cnt (s : State) (q : Nat) (f : PortCounters → PortCounters) : ((s.countPort q f).port q).cnt = f (s.port q).cnt := by
  rw [countPort_eq, putPort_port_self]

theorem State.dropUnit_port (s : State) (l : Lane) (q : Nat) : (s.dropUnit l).port q = s.port q := rfl

/-! ## A packet that is taken (R289-R291, R299) -/

section Taken
variable {s : State} {l : Lane} {off : Nat} {b : List Byte}

/-- What the first packet of a chunk for this engine leads to. -/
theorem State.packetIn_opens (hmine : l.dest = s.engineId) (howner : l.owner = none)
    (hnone : s.laneOf l.isMove l.flow l.chunk l.formedBy l.seq = []) (hnew : l.name ∉ s.confirmed ∨ (l.isMove = true ∧ l.attempt = 1)) :
    ∃ o r, (s.packetIn l [] off b).lanes = s.lanes ++ [(l.owned o r).grown off b] ∧ l.name ∉ (s.packetIn l [] off b).confirmed ∧
      (l.isMove = true → o = none) ∧
      (l.isMove = false → (∀ c fid, s.figureFor l = some (c, fid) → (s.collAt c fid).isSome = true) → o = s.figureFor l) ∧
      (o = none → (s.packetIn l [] off b).offHop = s.offHop) := by
  obtain ⟨dr, cf, cm, htaken⟩ := s.packetTaken_eq l
  have hnot := not_mem_packetTaken hnew
  have hnone' : (s.packetTaken l).laneOf l.isMove l.flow l.chunk l.formedBy l.seq = [] := by
    rw [htaken]
    exact hnone
  obtain ⟨o, r, hlanes, hconfirmed, hmove, hcoll, hrest⟩ :=
    openLane_mine (s := s.packetTaken l) (ports := []) (by rw [htaken]; exact hmine) howner hnone'
  have hin : s.packetIn l [] off b = ((s.packetTaken l).openLane l []).intoLane (l.owned o r) off b :=
    packetIn_of_new hnew hnone (laneAt_of_appended (x := l.owned o r) hlanes hnone')
  refine ⟨o, r, ?_, ?_, hmove, ?_, ?_⟩
  · rw [hin, intoLane_lanes, hlanes, map_replace_last (not_mem_lanes_of_laneOf (x := l.owned o r) hnone'), htaken]
  · rw [hin, intoLane_confirmed, hconfirmed]
    exact hnot
  · rw [htaken] at hcoll
    exact hcoll
  · intro ho
    rw [hin, intoLane_offHop (by exact ho), hrest ho, htaken]
    rfl

/-- What the first packet of a chunk that this engine passes on leads to (R289, R293). -/
theorem State.packetIn_forwards {ports : List Nat} (hother : l.dest ≠ s.engineId) (howner : l.owner = none)
    (hnone : s.laneOf l.isMove l.flow l.chunk l.formedBy l.seq = []) (hnew : l.name ∉ s.confirmed) (houts : ∀ o ∈ s.outs, o.passes l = false) :
    ∃ ps, (s.packetIn l ports off b).lanes = s.lanes ++ [l.grown off b] ∧
      (s.packetIn l ports off b).outs = s.outs ++ [{ forwardOut l ports with pieces := ps }] ∧ (off = 0 → ps = [(0, b)]) ∧
      (s.packetIn l ports off b).offHop = s.offHop := by
  obtain ⟨dr, cf, cm, htaken⟩ := s.packetTaken_eq l
  have hnone' : (s.packetTaken l).laneOf l.isMove l.flow l.chunk l.formedBy l.seq = [] := by
    rw [htaken]
    exact hnone
  have hopen : (s.packetTaken l).openLane l ports =
      { (s.packetTaken l).withLane l with outs := (s.packetTaken l).outs ++ [forwardOut l ports] } :=
    openLane_of_passing (by rw [htaken]; exact hother) (by rw [htaken]; exact houts)
  have hin : s.packetIn l ports off b = ((s.packetTaken l).openLane l ports).intoLane l off b :=
    packetIn_of_new (.inl hnew) hnone (laneAt_of_appended (by rw [hopen]; rfl) hnone')
  have hpass : (forwardOut l ports).passes (l.grown off b) = true := by simp [OutChunk.passes, forwardOut, Lane.grown, howner]
  obtain ⟨ps, hfeed, hps⟩ := feed_last (s := ((s.packetTaken l).openLane l ports).withGrown l off b) (os := s.outs) (o := forwardOut l ports)
    (l := l.grown off b) (b := b) (by rw [hopen, htaken]; rfl) houts hpass rfl rfl rfl off
  refine ⟨ps, ?_, ?_, hps, ?_⟩
  · rw [hin, intoLane_lanes, hopen]
    refine (map_replace_last (not_mem_lanes_of_laneOf hnone') _).trans ?_
    rw [htaken]
  · rw [hin, intoLane_of_noOwner howner, hfeed]
  · rw [hin, intoLane_offHop howner, hopen, htaken]
    rfl

end Taken

section Packet
variable {s : State} {p : Fin 36} {h body : List Byte} {src dst : Nat} {l : Lane} (hl : headLane p.val h src dst = l)
  (hup : (s.port p.val).state = .up) (ha : s.asleep = false) (hready : s.isReady = true)
include hl hup ha hready

/-- A packet on a Ready engine's port: no port leads it on, its generation is another, or it is taken. -/
theorem exec_packetReceived : exec (.packetReceived p h body src dst) s = .next (
    let u := s.returnCredits p.val 0 (ceilDiv body.length 64 + 1)
    let ports := if l.dest == s.engineId then [] else s.forwardPorts l.isMove l.flow l.dest
    if !(l.dest == s.engineId) && ports.isEmpty then
      (u.countPort p.val (fun k => { k with unroutable := satInc k.unroutable })).dropUnit l
    else if s.genDiffers l.isMove l.flow l.gen (l.dest == s.engineId) then (u.dropUnit l).wrongGen l.flow
    else u.packetIn l ports (le h 10 4) body) := by
  subst hl
  change execPacketReceived p h body src dst s = _
  unfold execPacketReceived
  rw [State.fabricIn_of_awake ha]
  dsimp only
  rw [if_neg (by simp [State.portUp_of_up hup]), if_neg (by simp [hready]), if_neg (by simp [hup]), State.returnCredits_forwardPorts]
  rw [apply_ite Host.Outcome.next, apply_ite Host.Outcome.next]
  rfl

theorem exec_packetReceived_mine (hmine : l.dest = s.engineId) (hgen : s.genDiffers l.isMove l.flow l.gen true = false) :
    exec (.packetReceived p h body src dst) s =
      .next ((s.returnCredits p.val 0 (ceilDiv body.length 64 + 1)).packetIn l [] (le h 10 4) body) := by
  rw [exec_packetReceived hl hup ha hready]
  simp [hmine, hgen]

theorem exec_packetReceived_wrongGen (hmine : l.dest = s.engineId) (hgen : s.genDiffers l.isMove l.flow l.gen true = true) :
    exec (.packetReceived p h body src dst) s =
      .next (((s.returnCredits p.val 0 (ceilDiv body.length 64 + 1)).dropUnit l).wrongGen l.flow) := by
  rw [exec_packetReceived hl hup ha hready]
  simp [hmine, hgen]

/-! ## The packet's outcomes -/

theorem packetReceived_opens (hmine : l.dest = s.engineId) (hgen : s.genDiffers l.isMove l.flow l.gen true = false)
    (hnone : s.laneOf l.isMove l.flow l.chunk l.formedBy l.seq = []) (hnew : l.name ∉ s.confirmed ∨ (l.isMove = true ∧ l.attempt = 1)) :
    ∃ t x, exec (.packetReceived p h body src dst) s = .next t ∧ t.lanes = s.lanes ++ [x] ∧
      x = { l with owner := x.owner, rank := x.rank, pieces := [(le h 10 4, body)] } ∧ l.name ∉ t.confirmed ∧
      (l.isMove = true → x.owner = none ∧ t.cellar = s.cellar ∧ t.ctxs = s.ctxs) ∧
      (let o := s.flightOn l.flow (fun k => expects k s.engineId l.down l.epoch l.chunk l.formedBy l.src l.dst)
       l.isMove = false → (∀ c fid, o = some (c, fid) → (s.collAt c fid).isSome = true) → x.owner = o) ∧
      (x.owner = none → t.cellar = s.cellar ∧ t.ctxs = s.ctxs) := by
  have hexec := exec_packetReceived_mine (body := body) hl hup ha hready hmine hgen
  subst hl
  generalize hu : s.returnCredits p.val 0 (ceilDiv body.length 64 + 1) = u at hexec
  have hrest : u.offHop = s.offHop := by rw [← hu]; rfl
  obtain ⟨o, r, hlanes, hnot, hmove, hcoll, hkept⟩ := State.packetIn_opens (s := u) (off := le h 10 4) (b := body) (by rw [← hu]; exact hmine) rfl
    (by rw [← hu]; exact hnone) (by rw [← hu]; exact hnew)
  have hstay (ho : o = none) : (u.packetIn (headLane p.val h src dst) [] (le h 10 4) body).cellar = s.cellar ∧
      (u.packetIn (headLane p.val h src dst) [] (le h 10 4) body).ctxs = s.ctxs :=
    ⟨State.cellar_of_offHop ((hkept ho).trans hrest), State.ctxs_of_offHop ((hkept ho).trans hrest)⟩
  refine ⟨_, _, hexec, hlanes.trans (by rw [← hu]; rfl), rfl, hnot, fun hm => ⟨hmove hm, hstay (hmove hm)⟩, ?_, hstay⟩
  rw [← hu] at hcoll
  exact hcoll

theorem packetReceived_joins {x : Lane} (hmine : l.dest = s.engineId) (hgen : s.genDiffers l.isMove l.flow l.gen true = false)
    (hlane : s.laneOf l.isMove l.flow l.chunk l.formedBy l.seq = [x]) (hdest : x.dest = l.dest) (hport : x.port = l.port)
    (hattempt : x.attempt = l.attempt) (hnot : l.name ∉ s.confirmed) : ∃ t, exec (.packetReceived p h body src dst) s = .next t ∧
      t.lanes = s.lanes.map (fun y => if y = x then { x with pieces := x.pieces ++ [(le h 10 4, body)] } else y) ∧
      t.cellar = s.cellar ∧ t.confirmed = s.confirmed := by
  refine ⟨_, exec_packetReceived_mine hl hup ha hready hmine hgen, ?_⟩
  generalize hu : s.returnCredits p.val 0 (ceilDiv body.length 64 + 1) = u
  have hnot' : l.name ∉ u.confirmed := by rw [← hu]; exact hnot
  obtain ⟨dr, cf, cm, htaken⟩ := u.packetTaken_eq l
  rw [State.packetIn_of_lane (by rw [← hu]; exact hlane) hdest hport hattempt hnot', State.intoLane_lanes, State.intoLane_confirmed,
    State.packetTaken_confirmed hnot', collFrame_cellar.intoLane, htaken, ← hu]
  exact ⟨rfl, rfl, rfl⟩

theorem packetReceived_duplicate (hmine : l.dest = s.engineId) (hgen : s.genDiffers l.isMove l.flow l.gen true = false)
    (hmem : l.name ∈ s.confirmed) (hkept : ¬ (l.isMove = true ∧ l.attempt = 1)) : ∃ t, exec (.packetReceived p h body src dst) s = .next t ∧
      t.lanes = s.lanes ∧ t.cellar = s.cellar ∧ t.ctxs = s.ctxs := by
  refine ⟨_, exec_packetReceived_mine hl hup ha hready hmine hgen, ?_⟩
  rw [State.packetIn_of_confirmed (by exact hmem) hkept]
  exact ⟨rfl, rfl, rfl⟩

theorem packetReceived_wrongGen_none (hmine : l.dest = s.engineId) (hgen : s.genDiffers l.isMove l.flow l.gen true = true)
    (hnone : s.groupFlights l.flow = []) : ∃ t, exec (.packetReceived p h body src dst) s = .next t ∧ t.lanes = s.lanes ∧
      l.asDropped ∈ t.droppedChunks ∧ t.ctxs = s.ctxs ∧ t.cellar = s.cellar := by
  refine ⟨_, exec_packetReceived_wrongGen hl hup ha hready hmine hgen, ?_⟩
  rw [State.wrongGen_of_none (by exact hnone)]
  exact ⟨rfl, by simp [State.dropUnit], rfl, rfl⟩

theorem packetReceived_wrongGen_stops {c : Nat} {w : Flight} (hmine : l.dest = s.engineId)
    (hgen : s.genDiffers l.isMove l.flow l.gen true = true) (hflights : s.groupFlights l.flow = [(c, w.fid)]) (hw : Alone s c w) :
    ∃ t, exec (.packetReceived p h body src dst) s = .next t ∧ StoppedBy s t c 0x14 := by
  refine ⟨_, exec_packetReceived_wrongGen hl hup ha hready hmine hgen, ?_⟩
  generalize hu : (s.returnCredits p.val 0 (ceilDiv body.length 64 + 1)).dropUnit l = u
  have hrest : u.offHop = s.offHop := by rw [← hu]; rfl
  have hflights' : u.groupFlights l.flow = [(c, w.fid)] := by rw [← hu]; exact hflights
  exact .of_offHop hrest (State.wrongGen_stops hflights' (hw.of_offHop hrest))

theorem packetReceived_unroutable (hother : l.dest ≠ s.engineId) (hports : s.forwardPorts l.isMove l.flow l.dest = []) :
    ∃ t, exec (.packetReceived p h body src dst) s = .next t ∧ t.lanes = s.lanes ∧ t.outs = s.outs ∧ l.asDropped ∈ t.droppedChunks ∧
      (t.port p.val).cnt.unroutable = satInc (s.port p.val).cnt.unroutable ∧ t.cellar = s.cellar ∧ t.ctxs = s.ctxs := by
  refine ⟨_, exec_packetReceived hl hup ha hready, ?_⟩
  rw [if_pos (by simp [hother, hports])]
  refine ⟨rfl, rfl, by simp [State.dropUnit], ?_, rfl, rfl⟩
  rw [State.dropUnit_port, State.countPort_cnt, State.returnCredits_port_cnt]

theorem packetReceived_forwards (hother : l.dest ≠ s.engineId) (hports : s.forwardPorts l.isMove l.flow l.dest ≠ [])
    (hgen : s.genDiffers l.isMove l.flow l.gen false = false) (hnone : s.laneOf l.isMove l.flow l.chunk l.formedBy l.seq = [])
    (hnot : l.name ∉ s.confirmed) (houts : ∀ o ∈ s.outs, o.passes l = false) : ∃ t o, exec (.packetReceived p h body src dst) s = .next t ∧
      t.lanes = s.lanes ++ [{ l with pieces := [(le h 10 4, body)] }] ∧ t.outs = s.outs ++ [o] ∧ o.owner = none ∧ o.name = l.name ∧
      o.mask = s.forwardPorts l.isMove l.flow l.dest ∧ o.port = none ∧ o.bytes = none ∧ (le h 10 4 = 0 → o.pieces = [(0, body)]) ∧
      t.cellar = s.cellar ∧ t.ctxs = s.ctxs := by
  have hexec : exec (.packetReceived p h body src dst) s = .next ((s.returnCredits p.val 0 (ceilDiv body.length 64 + 1)).packetIn l
      (s.forwardPorts l.isMove l.flow l.dest) (le h 10 4) body) := by
    have hmine : (l.dest == s.engineId) = false := by simp [hother]
    rw [exec_packetReceived hl hup ha hready]
    simp [hmine, hports, hgen]
  subst hl
  obtain ⟨ps, hlanes, hout, hps, hrest⟩ := State.packetIn_forwards (s := s.returnCredits p.val 0 (ceilDiv body.length 64 + 1)) (off := le h 10 4)
    (b := body) (ports := s.forwardPorts (headLane p.val h src dst).isMove (headLane p.val h src dst).flow (headLane p.val h src dst).dest)
    (by exact hother) rfl (by exact hnone) (by exact hnot) (by exact houts)
  have hrest' := hrest.trans (show _ = s.offHop from rfl)
  exact ⟨_, _, hexec, hlanes, hout, rfl, rfl, rfl, rfl, rfl, hps, State.cellar_of_offHop hrest', State.ctxs_of_offHop hrest'⟩

end Packet

end Sys2Proof.Machine
end

section
/-! Settling O52: seals whose chunk does not act here. A check that fails, poison, a chunk that is lost, one that has no lane; and retract markers
(R189, R287, R295, R296, R299-R301). -/

namespace Sys2Proof.Machine

/-! ## Messages about a chunk, and its lane's end -/

section Messages
variable (s : State) (l : Lane)

theorem State.sendCtl_unsent (p type : Nat) (fs : List (Nat × Nat × Nat)) : (s.sendCtl p type fs).unsent = s.unsent :=
  s.sendCtl_frame State.unsent (fun _ _ _ => rfl) p type fs

@[simp] theorem State.sendCtl_offHop (p type : Nat) (fs : List (Nat × Nat × Nat)) : (s.sendCtl p type fs).offHop = s.offHop :=
  offHop_of_unsent (s.sendCtl_unsent p type fs)

@[simp] theorem State.sendCtl_lanes (p type : Nat) (fs : List (Nat × Nat × Nat)) : (s.sendCtl p type fs).lanes = s.lanes :=
  s.sendCtl_frame State.lanes putPort_lanes p type fs

@[simp] theorem State.sendCtl_confirmed (p type : Nat) (fs : List (Nat × Nat × Nat)) : (s.sendCtl p type fs).confirmed = s.confirmed :=
  s.sendCtl_frame State.confirmed putPort_confirmed p type fs

@[simp] theorem State.sendCtl_outs (p type : Nat) (fs : List (Nat × Nat × Nat)) : (s.sendCtl p type fs).outs = s.outs :=
  s.sendCtl_frame State.outs putPort_outs p type fs

/-- A message on VC3 joins that queue of its port. -/
theorem State.sendCtl_port_vc3 {p type : Nat} (fs : List (Nat × Nat × Nat)) (hup : s.portUp p = true) (hvc : ctlVC type = some 3) :
    ∃ x, (s.sendCtl p type fs).port p = { s.port p with vc3 := (s.port p).vc3 ++ [x], lastUnit := some s.hall } := by
  refine ⟨⟨3, ctlFlit type s.engineId fs, 0⟩, ?_⟩
  rw [sendCtl, if_pos hup, hvc]
  simp [queue]

@[simp] theorem State.dropLane_lanes : (s.dropLane l).lanes = s.lanes.filter (fun x => x != l) := progressFrame_lanes.dropLane s l
@[simp] theorem State.dropLane_confirmed : (s.dropLane l).confirmed = s.confirmed := progressFrame_confirmed.dropLane s l
@[simp] theorem State.dropLane_owed : (s.dropLane l).owed = s.owed :=
  (congrArg State.owed (sendFrame_unsent.dropLane s l) : (s.dropLane l).unsent.owed = _)
@[simp] theorem State.dropLane_offHop : (s.dropLane l).offHop = s.offHop :=
  (offHop_of_unsent (sendFrame_unsent.dropLane s l)).trans rfl
@[simp] theorem State.dropLane_book (q : Nat) : ((s.dropLane l).port q).book = (s.port q).book := (sendFrame_book q).dropLane s l

end Messages

/-! ## A check that fails (R295, R300) -/

section Fail
variable {s : State} {l : Lane} {cause : Nat}

/-- Before its third attempt the chunk is asked for again, and is owed. -/
theorem State.failLane_asks (hattempt : l.attempt < 3) (hup : s.portUp l.port = true) : let t := s.failLane l cause
    t.lanes = s.lanes.filter (fun x => x != l) ∧ l.name ∈ t.owed ∧
      (t.port l.port).cnt.checkFailures = satInc (s.port l.port).cnt.checkFailures ∧
      (t.port l.port).vc3.length = (s.port l.port).vc3.length + 1 ∧ t.confirmed = s.confirmed ∧ t.offHop = s.offHop := by
  intro t
  generalize hv : s.countPort l.port (fun k => { k with checkFailures := satInc k.checkFailures }) = v
  have hup' : v.portUp l.port = true := by
    rw [← hv]
    simpa [portUp] using hup
  obtain ⟨x, hx⟩ := v.sendCtl_port_vc3 (type := 0x09)
    (chunkNames l.isMove l.flow l.gen l.chunk l.attempt l.flags l.seq cause l.formedBy l.dest) hup' rfl
  have ht : t = ((v.askResend l cause).owe l.name).dropLane l := by
    rw [← hv]
    exact if_neg (by omega)
  have hbook : (t.port l.port).book = ((v.askResend l cause).port l.port).book := by
    rw [ht, dropLane_book]
    rfl
  have hask : (v.askResend l cause).port l.port = _ := hx
  rw [hask, ← hv] at hbook
  refine ⟨?_, ?_, ?_, ?_, ?_, ?_⟩
  · rw [ht, dropLane_lanes, ← hv]
    simp [owe, askResend]
  · rw [ht, dropLane_owed]
    simp [owe]
  · refine (congrArg (fun x : FabPort => x.cnt.checkFailures) hbook).trans ?_
    simp [FabPort.book]
  · refine (congrArg (fun x : FabPort => x.vc3.length) hbook).trans ?_
    simp [FabPort.book]
  · rw [ht, dropLane_confirmed, ← hv]
    simp [owe, askResend]
  · rw [ht, dropLane_offHop]
    exact (sendCtl_offHop v _ _ _).trans (by rw [← hv]; rfl)

/-- A lane that is lost is counted, its rings are lost, and it is owed no more. -/
def State.countLost (s : State) (l : Lane) : State :=
  ((s.countPort l.port (fun k => { k with lost := satInc k.lost })).loseRings l.name).paid l.name

/-- A lane that is lost, once what was formed from it is retracted. -/
def State.laneLost (s : State) (l : Lane) : State := (s.countLost l).dropLane l

theorem State.laneLost_offHop (s : State) (l : Lane) : (s.laneLost l).offHop = s.offHop := dropLane_offHop (s.countLost l) l

theorem State.countLost_cnt (s : State) (l : Lane) : ((s.countLost l).port l.port).cnt = { (s.port l.port).cnt with lost := satInc (s.port l.port).cnt.lost } :=
  s.countPort_cnt l.port (fun k => { k with lost := satInc k.lost })

theorem State.laneLost_lost (s : State) (l : Lane) : ((s.laneLost l).port l.port).cnt.lost = satInc (s.port l.port).cnt.lost := by
  have hbook : ((s.laneLost l).port l.port).book = ((s.countLost l).port l.port).book := dropLane_book (s.countLost l) l l.port
  have hlost : ((s.laneLost l).port l.port).cnt.lost = ((s.countLost l).port l.port).cnt.lost :=
    (congrArg (fun x : FabPort => x.cnt.lost) hbook :)
  rw [hlost, countLost_cnt]

theorem State.loseLane_of_noOwner (h : l.owner = none) : s.loseLane l = s.laneLost l := by
  unfold loseLane
  dsimp only
  split
  next c fid h' => exact absurd (h.symm.trans h') (by simp)
  next => rfl

/-- The Figure of a chunk fails alone in its context, whatever the chunk's rings (R189, R300, R301). -/
theorem State.failed_with_rings_stops {u : State} {c : Nat} {w : Flight} (hrest : u.offHop = s.offHop) (hw : Alone s c w) (d : Done)
    (hd : okStatus d.status = false) (dest chunk : Nat) :
    StoppedBy s (((u.failFlight c w.fid d).loseOwnRings c w.fid dest chunk).settle c) c d.status := by
  have halone := hw.of_offHop hrest
  have honly : ((u.failFlight c w.fid d).ctx c).flights = [w.withResult d] := by
    obtain ⟨hflights, hdone, -⟩ := halone
    rw [u.failFlight_ctx_of_only c d hflights hdone]
    rfl
  have hrings : (u.failFlight c w.fid d).loseOwnRings c w.fid dest chunk = u.failFlight c w.fid d := loseOwnRings_of_only honly dest chunk
  rw [hrings]
  exact .of_offHop hrest (failed_stops d halone hd)

theorem State.loseLane_stops {c : Nat} {w : Flight} {u : State} (hrest : u.offHop = s.offHop) (howner : l.owner = some (c, w.fid))
    (hw : Alone s c w) : StoppedBy s (u.loseLane l) c 0x31 := by
  unfold loseLane
  dsimp only
  split
  next c' fid' h' =>
    obtain ⟨rfl, rfl⟩ : c = c' ∧ w.fid = fid' := by simpa using howner.symm.trans h'
    exact failed_with_rings_stops (u := u.laneLost l) ((u.laneLost_offHop l).trans hrest) hw
      { status := 0x31, detail := BitVec.ofNat 32 l.chunk } rfl l.dest l.chunk
  next h' => exact absurd (howner.symm.trans h') (by simp)

/-- At its third attempt it is lost (R300). -/
theorem State.failLane_loses (hattempt : 3 ≤ l.attempt) (howner : l.owner = none) : let t := s.failLane l cause
    t.lanes = s.lanes.filter (fun x => x != l) ∧ (t.port l.port).cnt.lost = satInc (s.port l.port).cnt.lost ∧
      t.confirmed = s.confirmed ∧ t.offHop = s.offHop := by
  intro t
  have ht : t = (s.countPort l.port (fun k => { k with checkFailures := satInc k.checkFailures })).laneLost l :=
    (if_pos hattempt).trans (loseLane_of_noOwner howner)
  generalize hv : s.countPort l.port (fun k => { k with checkFailures := satInc k.checkFailures }) = v at ht
  have hcnt : (v.port l.port).cnt = { (s.port l.port).cnt with checkFailures := satInc (s.port l.port).cnt.checkFailures } := by
    rw [← hv, countPort_cnt]
  have hrest : v.offHop = s.offHop := by rw [← hv]; rfl
  have hlanes : (v.countLost l).lanes = s.lanes := by rw [← hv]; rfl
  have hconfirmed : (v.countLost l).confirmed = s.confirmed := by rw [← hv]; rfl
  rw [ht]
  refine ⟨?_, ?_, (dropLane_confirmed (v.countLost l) l).trans hconfirmed, (v.laneLost_offHop l).trans hrest⟩
  · rw [laneLost, dropLane_lanes, hlanes]
  · rw [laneLost_lost, hcnt]

theorem State.failLane_stops {c : Nat} {w : Flight} (hattempt : 3 ≤ l.attempt) (howner : l.owner = some (c, w.fid)) (hw : Alone s c w) :
    StoppedBy s (s.failLane l cause) c 0x31 := by
  have ht : s.failLane l cause = (s.countPort l.port (fun k => { k with checkFailures := satInc k.checkFailures })).loseLane l := if_pos hattempt
  rw [ht]
  exact loseLane_stops rfl howner hw

/-! ## Poison (R301) -/

/-- A poisoned lane is acknowledged, its rings are lost, and it is owed no more. -/
def State.ackPoisoned (s : State) (l : Lane) : State := ((s.ackLane l).loseRings l.name).paid l.name

/-- A poisoned lane, acknowledged and retracted: it never comes again. -/
def State.lanePoisoned (s : State) (l : Lane) : State :=
  let u := (s.ackPoisoned l).dropLane l
  { u with confirmed := u.confirmed ++ [l.name] }

theorem State.lanePoisoned_offHop (s : State) (l : Lane) : (s.lanePoisoned l).offHop = s.offHop := by
  have hdrop : (s.lanePoisoned l).offHop = ((s.ackPoisoned l).dropLane l).offHop := rfl
  rw [hdrop, dropLane_offHop]
  exact sendCtl_offHop s _ _ _

theorem State.poisonLane_of_noOwner (h : l.owner = none) : s.poisonLane l = s.lanePoisoned l := by
  unfold poisonLane
  dsimp only
  split
  next c fid h' => exact absurd (h.symm.trans h') (by simp)
  next => rfl

theorem State.poisonLane_drops (howner : l.owner = none) : let t := s.poisonLane l
    t.lanes = s.lanes.filter (fun x => x != l) ∧ l.name ∈ t.confirmed ∧ t.offHop = s.offHop := by
  rw [poisonLane_of_noOwner howner]
  refine ⟨(dropLane_lanes _ l).trans ?_, by simp [lanePoisoned], s.lanePoisoned_offHop l⟩
  exact congrArg _ (sendCtl_lanes s _ _ _)

theorem State.poisonLane_stops {c : Nat} {w : Flight} (howner : l.owner = some (c, w.fid)) (hw : Alone s c w) :
    StoppedBy s (s.poisonLane l) c 0x22 := by
  unfold poisonLane
  dsimp only
  split
  next c' fid' h' =>
    obtain ⟨rfl, rfl⟩ : c = c' ∧ w.fid = fid' := by simpa using howner.symm.trans h'
    exact failed_with_rings_stops (u := s.lanePoisoned l) (s.lanePoisoned_offHop l) hw
      { status := 0x22, detail := BitVec.ofNat 32 l.formedBy } rfl l.dest l.chunk
  next h' => exact absurd (howner.symm.trans h') (by simp)

/-- The Figure fails, and what was formed from its chunk is retracted (R161). -/
theorem State.dropped_stops {c : Nat} {w : Flight} (hw : Alone s c w) (d : Done) (hd : okStatus d.status = false) :
    StoppedBy s (((s.dropLane l).failFlight c w.fid d).settle c) c d.status :=
  .of_offHop (dropLane_offHop s l) (failed_stops d (hw.of_offHop (dropLane_offHop s l)) hd)

theorem State.dropped_confirmed (s : State) (l : Lane) (c fid : Nat) (d : Done) :
    (((s.dropLane l).failFlight c fid d).settle c).confirmed = s.confirmed :=
  (settleFrame_confirmed.settle _ c).trans ((settleFrame_confirmed.failFlight _ c fid d).trans (dropLane_confirmed s l))

end Fail

/-! ## A seal whose chunk has no lane (R217, R287, R295, R299) -/

section Alone
variable {s : State} {g : Lane}

theorem State.sealAlone_of_dropped (h : g.asDropped ∈ s.droppedChunks) :
    s.sealAlone g = { s with droppedChunks := s.droppedChunks.filter (fun d => d != g.asDropped) } := if_pos (by simpa using h)

/-- A chunk that was confirmed before is acknowledged again. -/
theorem State.sealAlone_of_confirmed (hnot : g.asDropped ∉ s.droppedChunks) {dest : Nat} (hmem : ⟨g.isMove, g.flow, g.chunk, g.formedBy, dest, g.seq⟩ ∈ s.confirmed)
    (hup : s.portUp g.port = true) : let t := s.sealAlone g
    (t.port g.port).cnt.duplicates = satInc (s.port g.port).cnt.duplicates ∧
      (t.port g.port).vc3.length = (s.port g.port).vc3.length + 1 ∧ t.lanes = s.lanes ∧ t.offHop = s.offHop := by
  obtain ⟨x, hx⟩ : ∃ x, s.confirmed.find? (fun x => x.flow == g.flow && x.isMove == g.isMove && x.chunk == g.chunk && x.seq == g.seq &&
      x.formedBy == g.formedBy) = some x := Option.isSome_iff_exists.mp (List.find?_isSome.mpr ⟨_, hmem, by simp⟩)
  intro t
  have ht : t = (s.ackLane { g with dest := x.dest }).countPort g.port (fun k => { k with duplicates := satInc k.duplicates }) := by
    refine (if_neg (by simpa using hnot)).trans ?_
    rw [hx]
  obtain ⟨m, hm⟩ := s.sendCtl_port_vc3 (type := 0x08)
    (chunkNames g.isMove g.flow g.gen g.chunk g.attempt (Lane.flags { g with dest := x.dest }) g.seq 0 g.formedBy x.dest) hup rfl
  have hack : (s.ackLane { g with dest := x.dest }).port g.port = _ := hm
  rw [ht]
  refine ⟨?_, ?_, sendCtl_lanes s _ _ _, sendCtl_offHop s _ _ _⟩
  · rw [countPort_cnt, hack]
  · rw [countPort_eq, putPort_port_self, hack]
    simp

theorem State.sealAlone_of_unconfirmed (hnot : g.asDropped ∉ s.droppedChunks)
    (hno : ∀ dest, ⟨g.isMove, g.flow, g.chunk, g.formedBy, dest, g.seq⟩ ∉ s.confirmed) : s.sealAlone g =
      if !(s.laneOf g.isMove g.flow g.chunk g.formedBy g.seq).isEmpty then s
      else if s.genDiffers g.isMove g.flow g.gen false then s.wrongGen g.flow else s.failLane g 3 := by
  have hnone : s.confirmed.find? (fun x => x.flow == g.flow && x.isMove == g.isMove && x.chunk == g.chunk && x.seq == g.seq &&
      x.formedBy == g.formedBy) = none := by
    refine List.find?_eq_none.mpr fun x hx hsame => hno x.dest ?_
    simp only [Bool.and_eq_true, beq_iff_eq] at hsame
    obtain ⟨⟨⟨⟨hflow, hmove⟩, hchunk⟩, hseq⟩, hformed⟩ := hsame
    rw [← hflow, ← hmove, ← hchunk, ← hseq, ← hformed]
    exact hx
  refine (if_neg (by simpa using hnot)).trans ?_
  rw [hnone]

end Alone

end Sys2Proof.Machine
end

section
/-! A Figure's write of Cellar bytes reads back as it was written (R105, R337, R359), and what a MOVE's chunk that acts here leaves (O52 rests on
both). -/

namespace Sys2Proof.Machine

/-! ## Bytes written unit by unit (R337, R338) -/

/-- The bytes of one unit's part: those of the write that lie in the unit. -/
theorem unitPart_getElem (off : Nat) (b : List Byte) (u : Nat) {i : Nat} (hi : i < (unitPart off b u).2.length) :
    (unitPart off b u).2[i] = byteAt b ((unitPart off b u).1 + i - off) := by
  simp only [unitPart, List.length_take, List.length_drop] at hi
  simp only [unitPart, List.getElem_take, List.getElem_drop, byteAt]
  rw [List.getD_eq_getElem _ _ (by omega)]
  congr 1
  omega

/-- An address is in a unit's part exactly where it is in the unit and in the write. -/
theorem unitPart_covers (off : Nat) (b : List Byte) (u a : Nat) :
    ((unitPart off b u).1 ≤ a ∧ a < (unitPart off b u).1 + (unitPart off b u).2.length) ↔ a / 64 = u ∧ off ≤ a ∧ a < off + b.length := by
  simp only [unitPart, List.length_take, List.length_drop]
  omega

/-- What one unit's write leaves in the memory. -/
theorem Cellar.putUnit_memRead {k : Cellar} {off : Nat} {b : List Byte} {u : Nat} (hwf : Memory.wf 0 k.mem = true) (hclean : u ∉ k.poisoned) (a : Nat) :
    memRead 0 (k.putUnit off b u).mem a =
      if a / 64 = u ∧ off ≤ a ∧ a < off + b.length then byteAt b (a - off) else memRead 0 k.mem a := by
  have hput : (k.putUnit off b u).mem = memPut 0 k.mem (unitPart off b u).1 (unitPart off b u).2 := by
    unfold putUnit
    dsimp only
    rw [if_neg (by simp [hclean])]
  rw [hput]
  by_cases ha : a / 64 = u ∧ off ≤ a ∧ a < off + b.length
  · obtain ⟨hlo, hhi⟩ := (unitPart_covers off b u a).mpr ha
    rw [if_pos ha]
    obtain ⟨i, rfl⟩ := Nat.exists_eq_add_of_le hlo
    rw [memRead_memPut_in hwf (by omega), unitPart_getElem]
  · have hout := mt (unitPart_covers off b u a).mp ha
    rw [if_neg ha, memRead_memPut_out (by omega)]

theorem Cellar.putUnit_poisoned {k : Cellar} {off : Nat} {b : List Byte} {u v : Nat} (h : v ∉ k.poisoned) : v ∉ (k.putUnit off b u).poisoned := by
  unfold putUnit
  dsimp only
  split
  · exact h
  · exact fun hmem => h (List.mem_of_mem_filter hmem)

/-- What a write leaves in the memory, over the units that it touches. -/
theorem Cellar.putUnits_memRead {off : Nat} {b : List Byte} (us : List Nat) {k : Cellar} (hwf : Memory.wf 0 k.mem = true)
    (hclean : ∀ u ∈ us, u ∉ k.poisoned) (a : Nat) :
    memRead 0 (us.foldl (fun k u => k.putUnit off b u) k).mem a =
      if a / 64 ∈ us ∧ off ≤ a ∧ a < off + b.length then byteAt b (a - off) else memRead 0 k.mem a := by
  induction us generalizing k with
  | nil => simp
  | cons u us ih =>
    obtain ⟨hu, hus⟩ := List.forall_mem_cons.mp hclean
    rw [List.foldl_cons, ih (putUnit_wf hwf) fun v hv => putUnit_poisoned (hus v hv), putUnit_memRead hwf hu]
    by_cases hrange : off ≤ a ∧ a < off + b.length <;> by_cases hunit : a / 64 = u <;> simp [hrange, hunit]

/-- Every address of a write is in a unit that the write touches. -/
theorem mem_unitsOf {off len a : Nat} (hlo : off ≤ a) (hhi : a < off + len) : a / 64 ∈ unitsOf off len := by
  refine List.mem_map.mpr ⟨a / 64 - off / 64, List.mem_range.mpr ?_, ?_⟩
  · simp only [ceilDiv]
    omega
  · omega

section Write
variable {s : State} {off : Nat} {b : List Byte}

/-- No cell group of the range is in Retention: none begins to wake. -/
theorem State.touch_of_warm {len : Nat} (h : s.coldExt off len = none) : s.touch off len = s := by
  have hwarm := List.find?_eq_none.mp h
  have hover (l : List Nat) (hl : ∀ e ∈ l, ¬ ((s.ext e).power == .retention) = true) :
      overList (fun s e => if (s.ext e).power = .retention then s.modExt e (fun x => { x with waking := true }) else s) l s = s := by
    induction l with
    | nil => rfl
    | cons e l ih =>
      obtain ⟨he, hl⟩ := List.forall_mem_cons.mp hl
      rw [overList_cons, if_neg (by simpa using he)]
      exact ih hl
  exact hover _ hwarm

/-- A write of a range with no poison and no cell group in Retention reads back as it was written. -/
theorem State.figurePut_memRead (hwf : Memory.wf 0 s.cellar.mem = true) (hwarm : s.coldExt off b.length = none)
    (hclean : s.poisonIn off b.length = false) (a : Nat) : memRead 0 (s.figurePut off b).cellar.mem a =
      if off ≤ a ∧ a < off + b.length then byteAt b (a - off) else memRead 0 s.cellar.mem a := by
  have hno : ∀ u ∈ unitsOf off b.length, u ∉ s.cellar.poisoned := by
    intro u hu hmem
    have hin : s.poisonIn off b.length = true := List.any_eq_true.mpr ⟨u, hu, by simpa using hmem⟩
    exact absurd (hclean.symm.trans hin) (by simp)
  have hbad : (unitsOf off b.length).filter (fun u => (unitPart off b u).2.length < 64 && s.cellar.poisoned.contains u) = [] :=
    List.filter_eq_nil_iff.mpr fun u hu => by simp [hno u hu]
  have hput : s.figurePut off b = s.cellarPut off b := by
    unfold figurePut
    rw [hbad]
    rfl
  rw [hput, cellarPut, touch_of_warm hwarm]
  refine (Cellar.putUnits_memRead _ hwf hno a).trans ?_
  by_cases hrange : off ≤ a ∧ a < off + b.length
  · rw [if_pos ⟨mem_unitsOf hrange.1 hrange.2, hrange⟩, if_pos hrange]
  · rw [if_neg (fun h => hrange h.2), if_neg hrange]

end Write

/-! ## A view that a MOVE's bytes do not move when they land (R105, R294, R467) -/

/-- Hosts, services and the Cellar may change under the view. -/
structure LandFrame {β : Type} (p : State → β) : Prop where
  host : ∀ s n x, p (State.putHost s n x) = p s
  service : ∀ (s : State) v, p { s with svc := v } = p s
  cellar : ∀ (s : State) v, p { s with cellar := v } = p s

namespace LandFrame

section
variable {β : Type} {p : State → β} (hp : LandFrame p) (s : State)
include hp

theorem countTarget (part : Nat) : p (s.countTarget part) = p s := by
  unfold State.countTarget
  split
  · exact hp.host _ _ _
  · exact hp.service _ _

theorem touch (off len : Nat) : p (s.touch off len) = p s := by
  refine overList_frame p (fun u e => ?_) _ s
  split
  · exact hp.cellar _ _
  · rfl

theorem figurePut (off : Nat) (b : List Byte) : p (s.figurePut off b) = p s := by
  refine (hp.cellar _ _).trans ((hp.touch _ _ _).trans (overList_frame p (fun u e => ?_) _ s))
  split
  · exact hp.host _ _ _
  · rfl

theorem moveToCells (c fid off : Nat) (b : List Byte) : p (s.moveToCells c fid off b) = p s := by
  unfold State.moveToCells
  split
  · rfl
  split
  · exact (hp.cellar _ _).trans (hp.touch _ _ _)
  · exact hp.figurePut _ _ _

theorem postBytes (h iova : Nat) (b : List Byte) (c fid : Nat) : p (s.postBytes h iova b c fid) = p s := by
  have hpost (u : State) (w : HostWrite) : p (u.post h w) = p u := by
    unfold State.post
    dsimp only
    split
    · exact hp.host _ _ _
    · exact hp.host _ _ _
  exact overList_frame p (f := fun s (x : Nat × Nat) => s.post h (.data (BitVec.ofNat 64 (iova + x.1)) (slice b x.1 x.2) c fid))
    (fun u _ => hpost u _) _ s

theorem placeMove (sel addr : Nat) (b : List Byte) (c fid : Nat) : p (s.placeMove sel addr b c fid) = p s := by
  unfold State.placeMove
  split
  · exact hp.moveToCells _ _ _ _ _
  split
  · exact hp.countTarget _ _
  · exact hp.postBytes _ _ _ _ _ _

/-- A chunk that no MOVE of this engine fetches acts outside every context. -/
theorem acceptMove {l : Lane} {b : List Byte} (hfetch : s.fetches l b.length = none) : p (s.acceptMove l b) = p s := by
  unfold State.acceptMove
  rw [hfetch]
  dsimp only
  split
  · unfold State.countService
    split
    · exact hp.countTarget _ _
    · rfl
  · exact hp.placeMove _ _ _ _ _ _

end

end LandFrame

section Accept
variable {s : State} {l : Lane} {b : List Byte}

/-- An access that its tenant may not make writes nothing (R342). -/
theorem State.acceptMove_refused {r : Nat × Nat}
    (h : s.locCheck (s.suiteOfTenant l.tenant) l.tenant true l.moveSel.toNat l.moveAddr.toNat b.length = some r) :
    (s.acceptMove l b).cellar = s.cellar := by
  have hcount (u : State) (part : Nat) : (u.countTarget part).cellar = u.cellar := by
    unfold countTarget
    split <;> rfl
  unfold acceptMove
  dsimp only
  rw [h]
  dsimp only
  unfold countService
  split
  · exact hcount _ _
  · rfl

/-- One that it may make, to Cellar bytes that are open, warm and not poisoned, writes them. -/
theorem State.acceptMove_memRead (hfetch : s.fetches l b.length = none)
    (hmay : s.locCheck (s.suiteOfTenant l.tenant) l.tenant true l.moveSel.toNat l.moveAddr.toNat b.length = none)
    (hspace : selSpace l.moveSel.toNat = 1) (hopen : s.cellarOpen l.moveAddr.toNat b.length = true)
    (hwarm : s.coldExt l.moveAddr.toNat b.length = none) (hclean : s.poisonIn l.moveAddr.toNat b.length = false)
    (hwf : Memory.wf 0 s.cellar.mem = true) (a : Nat) : memRead 0 (s.acceptMove l b).cellar.mem a =
      if l.moveAddr.toNat ≤ a ∧ a < l.moveAddr.toNat + b.length then byteAt b (a - l.moveAddr.toNat) else memRead 0 s.cellar.mem a := by
  have hput : s.acceptMove l b = s.figurePut l.moveAddr.toNat b := by
    unfold acceptMove
    dsimp only
    rw [hmay, hfetch]
    dsimp only
    rw [placeMove, if_pos hspace, moveToCells, hopen, hwarm]
    rfl
  rw [hput, figurePut_memRead hwf hwarm hclean]

end Accept

end Sys2Proof.Machine
end

section
/-! A collective's Figure alone in its context takes a confirmed chunk: the partial joins, or the final bytes are recorded (R222, R238, R291, R293). -/

namespace Sys2Proof.Machine

/-! ## The one collective of a context -/

/-- All that the context has in flight is one collective, which has not finished. -/
def Context.OnlyColl (x : Context) (fid : Nat) (k : Coll) : Prop := ∃ w, x.flights = [w] ∧ w.fid = fid ∧ w.done = none ∧ w.kind = .coll k

section Only
variable {s : State} {c fid : Nat} {k : Coll}

theorem State.collAt_of_only (h : (s.ctx c).OnlyColl fid k) : s.collAt c fid = some k := by
  obtain ⟨w, hflights, rfl, hdone, hkind⟩ := h
  simp [collAt, Context.flight_of_only hflights, hdone, hkind, FlightKind.coll?]

theorem Context.OnlyColl.of_ctxs {t : State} (h : (s.ctx c).OnlyColl fid k) (ht : t.ctxs = s.ctxs) : (t.ctx c).OnlyColl fid k := by
  rw [State.ctx, ht]
  exact h

theorem State.modCtx_only (h : (s.ctx c).OnlyColl fid k) {f : Context → Context} (hf : ∀ x, (f x).flights = x.flights) :
    ((s.modCtx c f).ctx c).OnlyColl fid k := by
  rw [modCtx_eq, putCtx_ctx_self]
  obtain ⟨w, hflights, hw⟩ := h
  exact ⟨w, (hf _).trans hflights, hw⟩

theorem State.modFlight_flights {w : Flight} (h : (s.ctx c).flights = [w]) (f : Flight → Flight) :
    ((s.modFlight c w.fid f).ctx c).flights = [f w] := by
  simp [modFlight, Context.modFlight, h]

theorem State.modColl_only (h : (s.ctx c).OnlyColl fid k) (g : Coll → Coll) : ((s.modColl c fid g).ctx c).OnlyColl fid (g k) := by
  obtain ⟨w, hflights, rfl, hdone, hkind⟩ := h
  refine ⟨w.modColl g, modFlight_flights hflights _, ?_, ?_, ?_⟩
  all_goals simp [Flight.modColl, hkind, hdone]

theorem State.countReorder_only (h : (s.ctx c).OnlyColl fid k) :
    ((s.countReorder c fid).ctx c).OnlyColl fid { k with reorders := k.reorders + 1 } := by
  have hcount := modCtx_only (f := fun x => { x with reorders := x.reorders + 1 }) h fun _ => rfl
  obtain ⟨w, hflights, rfl, hdone, hkind⟩ := hcount
  refine ⟨_, modFlight_flights hflights _, ?_, ?_, ?_⟩
  all_goals simp [Flight.modColl, hkind, hdone]

theorem State.countReorder_if_only (h : (s.ctx c).OnlyColl fid k) (b : Bool) :
    ∃ n, ((if b then s.countReorder c fid else s).ctx c).OnlyColl fid { k with reorders := n } := by
  cases b with
  | true => exact ⟨k.reorders + 1, countReorder_only h⟩
  | false => exact ⟨k.reorders, h⟩

end Only

/-! ## What a collective's own records keep -/

theorem Coll.addLag_done1 (k : Coll) (late : Nat) (a b : Word64) : (k.addLag late a b).done1 = k.done1 := by
  unfold addLag
  dsimp only
  split
  · split <;> rfl
  · rfl

theorem Coll.addLag_finals (k : Coll) (late : Nat) (a b : Word64) : (k.addLag late a b).finals = k.finals := by
  unfold addLag
  dsimp only
  split
  · split <;> rfl
  · rfl

theorem Coll.addFinal_hasFinal (k : Coll) (src dst n : Nat) (b : List Byte) : (k.addFinal src dst n b).hasFinal src dst n = true := by
  simp [addFinal, hasFinal]

/-! ## A chunk acts at the collective -/

section Act
variable {s : State} {c fid : Nat} {k : Coll}

/-- Stage 2 of a chunk leaves its partials, or has been done. -/
theorem State.nodeTry_only (h : (s.ctx c).OnlyColl fid k) (n : Nat) :
    ∃ k', ((s.nodeTry c fid n).ctx c).OnlyColl fid k' ∧ (k'.parts = k.parts ∨ (1, 0, n) ∈ k'.done1) := by
  unfold nodeTry
  rw [collAt_of_only h]
  dsimp only
  split
  · have hdone := modColl_only h fun k => { k with parts := k.parts.filter (fun p => p.chunk != n), done1 := (1, 0, n) :: k.done1 }
    obtain ⟨m, hordered⟩ := countReorder_if_only hdone (nodeOrder k n).2
    generalize (if (nodeOrder k n).2 = true then _ else _ : State) = u at hordered ⊢
    split
    next x _ =>
      split
      · obtain ⟨k', hroot, hkept⟩ : ∃ k', ((u.rootChunk c fid k n x).ctx c).OnlyColl fid k' ∧ (1, 0, n) ∈ k'.done1 := by
          unfold rootChunk
          extract_lets el b q v v'
          have hv : (v.ctx c).OnlyColl fid _ := modCtx_only hordered fun _ => rfl
          have hv' := modColl_only hv fun k => (k.addFinal 0 0 n b).addLag x.lateEngine x.lateHall x.earlyHall
          refine ⟨_, hv'.of_ctxs ((collFrame_ctxs.sendOn _ _ _ _ _ _ _ _ _ _ _ _).trans (collFrame_ctxs.deliver _ _ _ _ _ _ _ _)), ?_⟩
          simp [Coll.addLag_done1, Coll.addFinal]
        exact ⟨k', hroot, .inr hkept⟩
      · exact ⟨_, hordered.of_ctxs (collFrame_ctxs.fillUp _ _ _ _ _ _), .inr (by simp)⟩
    · exact ⟨_, hordered, .inr (by simp)⟩
  · exact ⟨k, h.of_ctxs (collFrame_ctxs.speculate _ _ _ _), .inl rfl⟩

/-- A confirmed chunk's operand joins its partials, or its bytes are final here. -/
theorem State.acceptColl_only (h : (s.ctx c).OnlyColl fid k) (l : Lane) (b : List Byte) (aux : ChunkAux) :
    ∃ k', ((s.acceptColl c fid k l b aux).ctx c).OnlyColl fid k' ∧
      (isReducing k.opcode = true → l.down = false →
        (∃ x ∈ k'.parts, x.chunk = l.chunk ∧ x.engine = l.formedBy) ∨ (1, 0, l.chunk) ∈ k'.done1) ∧
      (isReducing k.opcode = false ∨ l.down = true → k'.hasFinal (k.bodyOf l).1 (k.bodyOf l).2 l.chunk = true) := by
  unfold acceptColl
  dsimp only
  obtain ⟨m, hordered⟩ := countReorder_if_only h (k.ordered && !l.ordered)
  generalize (if (k.ordered && !l.ordered) = true then _ else _ : State) = u at hordered ⊢
  split
  next hup =>
    obtain ⟨hred, hdown⟩ : isReducing k.opcode = true ∧ l.down = false := by simpa using hup
    obtain ⟨k', honly, hparts⟩ := nodeTry_only (modColl_only hordered fun k => { k with parts := k.parts ++ [⟨l.chunk, false, l.formedBy, l.rank,
      aux.lowest, bytesAcc b, aux.infIn, aux.ovf, aux.sat, aux.lateEngine.toNat, aux.lateHall, aux.earlyHall⟩] }) l.chunk
    refine ⟨k', honly, fun _ _ => ?_, fun hfinal => ?_⟩
    · rcases hparts with hparts | hdone
      · exact .inl ⟨_, by rw [hparts]; exact List.mem_append_right _ (List.mem_singleton_self _), rfl, rfl⟩
      · exact .inr hdone
    · exact absurd hfinal (by simp [hred, hdown])
  next hup =>
    refine ⟨_, (modColl_only hordered _).of_ctxs ((collFrame_ctxs.sendOn _ _ _ _ _ _ _ _ _ _ _ _).trans (collFrame_ctxs.deliver _ _ _ _ _ _ _ _)),
      fun hred hdown => absurd hup (by simp [hred, hdown]), fun _ => ?_⟩
    split
    · rw [Coll.hasFinal, Coll.addLag_finals]
      exact Coll.addFinal_hasFinal _ _ _ _ _
    · exact Coll.addFinal_hasFinal _ _ _ _ _

end Act

/-! ## A context whose one collective has not finished settles (R137) -/

section Settle
variable {s : State} {c fid : Nat} {k : Coll}

theorem State.ringsGo_of_only (h : (s.ctx c).OnlyColl fid k) : s.ringsGo c = s := by
  obtain ⟨w, hflights, -, -, hkind⟩ := h
  rw [ringsGo, hflights, overList_cons, overList_nil]
  unfold ringGo
  rw [hkind]

theorem State.settleFlights_of_only (h : (s.ctx c).OnlyColl fid k) : s.settleFlights c = s.refresh c := by
  obtain ⟨w, hflights, -, hdone, hkind⟩ := h
  have hnone : s.readyFlight c = none := by
    simp [readyFlight, hflights, Context.finished, Flight.selfDone, hdone, hkind]
  have hretire (n : Nat) : retire c n s = s := by
    cases n with
    | zero => rfl
    | succ n => rw [retire, hnone]
  rw [settleFlights, hretire, drainEnd, if_pos (by simp [hflights])]

theorem State.refresh_only (h : (s.ctx c).OnlyColl fid k) : ((s.refresh c).ctx c).OnlyColl fid k := by
  obtain ⟨w, hflights, hw⟩ := h
  exact ⟨w, (s.refresh_flights c).trans hflights, hw⟩

theorem State.settle_of_only (h : (s.ctx c).OnlyColl fid k) : s.settle c = (s.refresh c).refresh c := by
  rw [settle, ringsGo_of_only h, settleFlights_of_only h, ringsGo_of_only (refresh_only h), settleFlights_of_only (refresh_only h)]

theorem State.settle_only (h : (s.ctx c).OnlyColl fid k) : ((s.settle c).ctx c).OnlyColl fid k := by
  rw [settle_of_only h]
  exact refresh_only (refresh_only h)

theorem ProgressFrame.settle {β : Type} {p : State → β} (hp : ProgressFrame p) (h : (s.ctx c).OnlyColl fid k) : p (s.settle c) = p s := by
  have hrefresh (u : State) : p (u.refresh c) = p u := by
    obtain hu | ⟨st, hu⟩ := u.refresh_eq c
    · rw [hu]
    · rw [hu]
      exact hp.ctx _ _ _
  rw [State.settle_of_only h]
  exact (hrefresh _).trans (hrefresh _)

end Settle

end Sys2Proof.Machine
end

section
/-! Settling O52: a confirmed chunk. It is acknowledged and leaves its lane; a MOVE's bytes land, a collective's act at their Figure, and what this
engine passes on gets its final bytes and its seal (R281, R285, R287, R288, R294). -/

namespace Sys2Proof.Machine

/-! ## The lane's bytes, as the seal gives their length (R286) -/

/-- The lane with its bytes up to the length that its seal gives. -/
def Lane.trimmed (l : Lane) (n : Nat) : Lane := { l with pieces := [(0, l.bytes.take n)] }

theorem Lane.trimmed_bytes (l : Lane) (n : Nat) : (l.trimmed n).bytes = l.bytes.take n := by
  simp [Lane.bytes, Lane.trimmed, sortBy, insertBy]

/-- A lane takes its trimmed form. -/
def State.withTrimmed (s : State) (l : Lane) (n : Nat) : State :=
  { s with lanes := s.lanes.map (fun x => if x = l then l.trimmed n else x) }

/-- Lane `l`, and no lane of another chunk, is gone. -/
def LaneGone (s t : State) (l : Lane) : Prop := (∀ x ∈ t.lanes, x ∈ s.lanes ∧ x ≠ l) ∧ ∀ x ∈ s.lanes, x.name ≠ l.name → x ∈ t.lanes

theorem LaneGone.of_trimmed {s t : State} {l : Lane} {n : Nat} (h : t.lanes = (s.withTrimmed l n).lanes.filter (fun x => x != l.trimmed n)) :
    LaneGone s t l := by
  refine ⟨fun x hx => ?_, fun x hx hname => ?_⟩
  · rw [h, List.mem_filter] at hx
    obtain ⟨hmem, hne⟩ := hx
    obtain ⟨y, hy, rfl⟩ := List.mem_map.mp hmem
    split at hne
    · simp at hne
    next hyl =>
      rw [if_neg hyl]
      exact ⟨hy, hyl⟩
  · have hne : x ≠ l := fun e => hname (by rw [e])
    have hne' : x ≠ l.trimmed n := fun e => hname (by rw [e]; rfl)
    rw [h, List.mem_filter]
    exact ⟨List.mem_map.mpr ⟨x, hx, if_neg hne⟩, by simpa using hne'⟩

/-! ## A chunk is confirmed (R287, R288) -/

/-- The chunk's lane has been acknowledged, counted and recorded, and is gone. -/
def State.confirming (s : State) (l : Lane) : State :=
  let u := (s.ackLane l).countPort l.port (fun k => { k with confirmed := satInc k.confirmed })
  ({ u with lanes := u.lanes.filter (fun x => x != l), confirmed := u.confirmed ++ [l.name] } : State).paid l.name

theorem State.collAt_offHop (s : State) (c fid : Nat) : s.offHop.collAt c fid = s.collAt c fid := rfl

section Confirm
variable (s : State) (l : Lane) {f : List Byte} {aux : ChunkAux}

theorem State.confirming_offHop : (s.confirming l).offHop = s.offHop := sendCtl_offHop s _ _ _

theorem State.confirming_lanes : (s.confirming l).lanes = s.lanes.filter (fun x => x != l) :=
  congrArg (List.filter (fun x => x != l)) (sendCtl_lanes s _ _ _)

theorem State.mem_confirming : l.name ∈ (s.confirming l).confirmed := List.mem_append_right _ (List.mem_singleton_self _)

theorem State.confirming_outs : (s.confirming l).outs = s.outs := sendCtl_outs s _ _ _

theorem State.confirming_port (hup : s.portUp l.port = true) :
    ((s.confirming l).port l.port).cnt.confirmed = satInc (s.port l.port).cnt.confirmed ∧
      ((s.confirming l).port l.port).vc3.length = (s.port l.port).vc3.length + 1 := by
  obtain ⟨m, hm⟩ := s.sendCtl_port_vc3 (type := 0x08) (chunkNames l.isMove l.flow l.gen l.chunk l.attempt l.flags l.seq 0 l.formedBy l.dest) hup rfl
  have hack : (s.ackLane l).port l.port = _ := hm
  have hport : (s.confirming l).port l.port =
      ((s.ackLane l).countPort l.port (fun k => { k with confirmed := satInc k.confirmed })).port l.port := rfl
  rw [hport, countPort_eq, putPort_port_self, hack]
  exact ⟨rfl, by simp⟩

variable {s l}

theorem State.confirmLane_of_passing (hother : l.dest ≠ s.engineId) : s.confirmLane l f aux = (s.confirming l).passOn l f l.bytes aux := by
  have hself : (s.confirming l).engineId = s.engineId :=
    (congrArg State.engineId (s.confirming_offHop l) : (s.confirming l).offHop.engineId = s.offHop.engineId)
  exact if_pos (by rw [← hself] at hother; exact hother)

/-- A confirmed chunk for this engine is committed here, and a ring held behind it is behind one less (R188, R225). -/
def State.committing (s : State) (l : Lane) : State := ((s.confirming l).commit l).ringsBehind l.name

theorem State.commit_eq (s : State) (l : Lane) : ∃ cm, s.commit l = { s with commits := cm } := by
  unfold commit
  dsimp only
  split
  · exact ⟨_, rfl⟩
  · exact ⟨_, rfl⟩

theorem State.committing_eq (s : State) (l : Lane) : ∃ cm rs, s.committing l = { s.confirming l with commits := cm, rings := rs } := by
  obtain ⟨cm, h⟩ := (s.confirming l).commit_eq l
  rw [committing, h]
  exact ⟨cm, _, rfl⟩

theorem State.committing_offHop (s : State) (l : Lane) : (s.committing l).offHop = s.offHop := by
  obtain ⟨cm, rs, h⟩ := s.committing_eq l
  rw [h]
  exact s.confirming_offHop l

theorem State.confirmLane_mine (hmine : l.dest = s.engineId) : s.confirmLane l f aux =
    if l.isMove then (s.committing l).acceptMove l l.bytes
    else match l.owner with
      | some (c, fid) => (match (s.committing l).collAt c fid with
          | some k => ((s.committing l).acceptColl c fid k l l.bytes aux).settle c
          | none => s.committing l)
      | none => s.committing l := by
  have hself : (s.confirming l).engineId = s.engineId :=
    (congrArg State.engineId (s.confirming_offHop l) : (s.confirming l).offHop.engineId = s.offHop.engineId)
  have hmine' : ¬ l.dest ≠ (s.confirming l).engineId := not_not.mpr (hmine.trans hself.symm)
  exact if_neg hmine'

theorem State.confirmLane_of_move (hmine : l.dest = s.engineId) (hmove : l.isMove = true) :
    s.confirmLane l f aux = (s.committing l).acceptMove l l.bytes := by
  rw [confirmLane_mine hmine, if_pos hmove]

theorem State.confirmLane_of_coll {c fid : Nat} {k : Coll} (hmine : l.dest = s.engineId) (hmove : l.isMove = false)
    (howner : l.owner = some (c, fid)) (hat : s.collAt c fid = some k) :
    s.confirmLane l f aux = ((s.committing l).acceptColl c fid k l l.bytes aux).settle c := by
  have hat' : (s.committing l).collAt c fid = some k := by
    rw [← collAt_offHop, committing_offHop, collAt_offHop, hat]
  rw [confirmLane_mine hmine, if_neg (by simp [hmove]), howner]
  dsimp only
  rw [hat']

end Confirm

/-! ## The chunk that is passed on (R281, R285) -/

section Pass
variable {s : State} {n : Nat} {o : OutChunk}

theorem State.sendData_outs (s : State) (p : Nat) (o : OutChunk) (off : Nat) (b : List Byte) : (s.sendData p o off b).outs = s.outs := by
  refine overList_frame State.outs (fun u x => ?_) _ s
  refine (overList_frame State.outs (fun v y => ?_) _ _).trans ?_
  · rfl
  · rfl

theorem State.ringsOnward_outs (s : State) (p : Nat) (o : OutChunk) : (s.ringsOnward p o).outs = s.outs := by
  refine (overList_frame State.outs (fun u r => ?_) _ _).trans ?_
  · rfl
  · rfl

/-- A chunk that has its port and its final bytes is sealed. -/
theorem State.finishOut_out (h : s.outs[n]? = some o) :
    ∃ b, (s.finishOut n).outs[n]? = some { o with sealed := b } ∧ (o.port ≠ none → o.bytes ≠ none → b = true) := by
  unfold finishOut
  rw [h]
  dsimp only
  split
  next q b hq hb =>
    split
    next hsealed => exact ⟨o.sealed, h, fun _ _ => hsealed⟩
    · refine ⟨true, ?_, fun _ _ => rfl⟩
      have hsealed : (((s.sendData q o o.sentLen (b.drop o.sentLen)).queue q 0 2 (o.sealFlit s.engineId b)).modOut n
          (fun x => { x with sealed := true })).outs[n]? = some { o with sealed := true } := by
        have houts : ((s.sendData q o o.sentLen (b.drop o.sentLen)).queue q 0 2 (o.sealFlit s.engineId b)).outs = s.outs := s.sendData_outs _ _ _ _
        rw [modOut_getElem?, houts, h]
        simp
      split
      · rw [ringsOnward_outs]
        exact hsealed
      · exact hsealed
  next hnone =>
    refine ⟨o.sealed, h, fun hport hbytes => ?_⟩
    obtain ⟨q, hq⟩ := Option.ne_none_iff_exists'.mp hport
    obtain ⟨b, hb⟩ := Option.ne_none_iff_exists'.mp hbytes
    exact (hnone q b hq hb).elim

/-- The place in which this engine passes on a lane's chunk. -/
def State.passPlace (s : State) (l : Lane) : Option Nat := s.outs.findIdx? (fun o => o.owner.isNone && o.passes l && o.bytes.isNone)

/-- The chunk with what its seal and its last packet say of it. -/
def OutChunk.sealedAs (o : OutChunk) (f : List Byte) (aux : ChunkAux) : OutChunk :=
  { o with opcode := le f 24 1, dtype := BitVec.ofNat 8 (le f 25 1), root := le f 26 2, size := le f 28 5,
           capacity := le f 33 4, srpad := BitVec.ofNat 8 (le f 37 1), src := aux.src, dst := aux.dst }

/-- The chunk with its final bytes. -/
def OutChunk.filled (o : OutChunk) (aux : ChunkAux) (b : List Byte) : OutChunk :=
  { o with bytes := some b, aux := { aux with src := o.src, dst := o.dst } }

theorem State.passOn_of_place {l : Lane} {f b : List Byte} {aux : ChunkAux} (h : s.passPlace l = some n) :
    s.passOn l f b aux = ((s.modOut n (fun o => o.sealedAs f aux)).modOut n (fun o => o.filled aux b)).finishOut n := by
  unfold passOn
  split
  next i hi =>
    obtain rfl : n = i := by simpa using h.symm.trans hi
    rfl
  next hi => exact absurd (h.symm.trans hi) (by simp)

theorem State.passOn_out {l : Lane} {f b : List Byte} {aux : ChunkAux} (hplace : s.passPlace l = some n) (h : s.outs[n]? = some o) :
    ∃ o', (s.passOn l f b aux).outs[n]? = some o' ∧ o'.bytes = some b ∧ o'.name = o.name ∧ o'.mask = o.mask ∧ o'.port = o.port ∧
      (o.port ≠ none → o'.sealed = true) := by
  have hfilled : ((s.modOut n (fun o => o.sealedAs f aux)).modOut n (fun o => o.filled aux b)).outs[n]? = some ((o.sealedAs f aux).filled aux b) := by
    rw [modOut_getElem?, modOut_getElem?, h]
    simp
  obtain ⟨z, hout, hz⟩ := finishOut_out hfilled
  rw [passOn_of_place hplace]
  exact ⟨_, hout, rfl, rfl, rfl, rfl, fun ho => hz ho (by simp [OutChunk.filled])⟩

theorem SendFrame.passOn {β : Type} {p : State → β} (hp : SendFrame p) (s : State) (l : Lane) (f b : List Byte) (aux : ChunkAux) :
    p (s.passOn l f b aux) = p s := by
  unfold State.passOn
  split
  · exact (hp.fillOut _ _ _ _).trans (hp.modOut _ _ _)
  · rfl

end Pass

end Sys2Proof.Machine
end

section
/-! Settling O52: SEAL_RECEIVED and RETRACT_MARKER, one rule for each way in which a seal's chunk is judged, and the whole (R85, R228, R287, R295, R296,
R300, R301). -/

namespace Sys2Proof.Machine

/-! ## How a seal is judged (R287, R299-R301) -/

/-- Neither the chunk nor its seal is poisoned. -/
def CleanChunk (l : Lane) (f : List Byte) : Prop := l.poisoned = false ∧ bit (le f 21 1) 1 = false

/-- The seal agrees with the whole chunk. -/
def WholeChunk (l : Lane) (f : List Byte) : Prop :=
  le f 12 4 ≤ (l.pieces.map (fun x => x.2.length)).sum ∧ (l.pieces.map (fun x => x.2.length)).sum ≤ le f 12 4 + 63 ∧
    l.whole (l.pieces.map (fun x => x.2.length)).sum = true ∧ (crc32c (l.bytes.take (le f 12 4))).toNat = le f 16 4 ∧
    (l.isMove = true ∨ le f 8 4 = l.epoch)

section Judge
variable {s : State} {l : Lane} {f : List Byte} {aux : ChunkAux}

theorem State.judgeLane_of_poison (h : ¬ CleanChunk l f) : s.judgeLane l f aux = s.poisonLane l := by
  have hpoison : (l.poisoned || bit (le f 21 1) 1) = true := by
    by_contra hno
    rw [Bool.or_eq_true, not_or, Bool.not_eq_true, Bool.not_eq_true] at hno
    exact h hno
  exact if_pos hpoison

theorem State.judgeLane_of_broken (hclean : CleanChunk l f) (h : ¬ WholeChunk l f) : ∃ cause, s.judgeLane l f aux = s.failLane l cause := by
  obtain ⟨hlane, hseal⟩ := hclean
  unfold judgeLane
  dsimp only
  rw [if_neg (by simp [hlane, hseal])]
  split
  · exact ⟨3, rfl⟩
  split
  · exact ⟨2, rfl⟩
  split
  · exact ⟨1, rfl⟩
  next hshort hlong hcheck =>
    simp only [Bool.or_eq_true, decide_eq_true_eq, Bool.not_eq_true', not_or, Bool.not_eq_false, Bool.and_eq_true, not_and] at hlong hcheck
    refine absurd ⟨by omega, by omega, hlong.2, not_not.mp hcheck.1, ?_⟩ h
    cases hmove : l.isMove with
    | true => exact .inl rfl
    | false => exact .inr (by simpa using hcheck.2 hmove)

/-- A whole chunk passes every check; who owns its lane says what becomes of it. -/
theorem State.judgeLane_of_whole (hclean : CleanChunk l f) (h : WholeChunk l f) : s.judgeLane l f aux =
    match l.owner with
    | some (c, fid) => (match s.collAt c fid with
       | some k => (match sealMismatch k f with
          | some o => s.failOwner l { status := 0x12, detail := BitVec.ofNat 32 o }
          | none => (s.withTrimmed l (le f 12 4)).confirmLane (l.trimmed (le f 12 4)) f aux)
       | none => s.dropLane l)
    | none => (s.withTrimmed l (le f 12 4)).confirmLane (l.trimmed (le f 12 4)) f aux := by
  obtain ⟨hlane, hseal⟩ := hclean
  obtain ⟨hlo, hhi, hgaps, hcrc, hepoch⟩ := h
  have hcheck : ¬ ((crc32c (l.bytes.take (le f 12 4))).toNat ≠ le f 16 4 || (!l.isMove && le f 8 4 ≠ l.epoch)) = true := by
    rcases hepoch with h | h <;> simp [hcrc, h]
  refine (if_neg (by simp [hlane, hseal])).trans ((if_neg (by omega)).trans ((if_neg ?_).trans ((if_neg (by simpa using hcheck)).trans ?_)))
  · rw [hgaps]
    simp
    omega
  · rfl

theorem State.judgeLane_confirms_free (hclean : CleanChunk l f) (h : WholeChunk l f) (howner : l.owner = none) :
    s.judgeLane l f aux = (s.withTrimmed l (le f 12 4)).confirmLane (l.trimmed (le f 12 4)) f aux := by
  rw [judgeLane_of_whole hclean h, howner]

theorem State.judgeLane_confirms_owned {c fid : Nat} {k : Coll} (hclean : CleanChunk l f) (h : WholeChunk l f) (howner : l.owner = some (c, fid))
    (hat : s.collAt c fid = some k) (hsame : sealMismatch k f = none) :
    s.judgeLane l f aux = (s.withTrimmed l (le f 12 4)).confirmLane (l.trimmed (le f 12 4)) f aux := by
  rw [judgeLane_of_whole hclean h, howner]
  dsimp only
  rw [hat]
  dsimp only
  rw [hsame]

theorem State.judgeLane_mismatch {c fid o : Nat} {k : Coll} (hclean : CleanChunk l f) (h : WholeChunk l f) (howner : l.owner = some (c, fid))
    (hat : s.collAt c fid = some k) (hother : sealMismatch k f = some o) :
    s.judgeLane l f aux = ((s.dropLane l).failFlight c fid { status := 0x12, detail := BitVec.ofNat 32 o }).settle c := by
  rw [judgeLane_of_whole hclean h, howner]
  dsimp only
  rw [hat]
  dsimp only
  rw [hother]
  dsimp only
  rw [failOwner, howner]

end Judge

/-! ## A seal arrives (R287, R367) -/

theorem State.returnCredits_port_vc3 (s : State) (p vc n q : Nat) : ((s.returnCredits p vc n).port q).vc3 = (s.port q).vc3 := by
  obtain ⟨l, h⟩ := s.returnCredits_port p vc n q
  rw [h]

theorem State.port_of_laneAt {s : State} {p flow chunk formedBy seq : Nat} {isMove : Bool} {l : Lane}
    (h : s.laneAt p flow isMove chunk formedBy seq = some l) : l.port = p := by simpa using List.find?_some h

section Seal
variable {s : State} {p : Fin 36} {f : List Byte} {aux : ChunkAux} {g : Lane} (hg : ghostLane p.val f s.engineId = g)
  (hup : (s.port p.val).state = .up) (ha : s.asleep = false) (hready : s.isReady = true)
include hg hup ha hready

theorem exec_sealReceived : exec (.sealReceived p f aux) s =
    match s.laneAt p.val g.flow g.isMove g.chunk g.formedBy g.seq with
    | none => .next ((s.returnCredits p.val 0 1).sealAlone g)
    | some l =>
      if s.genDiffers l.isMove l.flow g.gen (l.dest == s.engineId) then .next (((s.returnCredits p.val 0 1).dropLane l).wrongGen l.flow)
      else if !l.isMove && l.dest == s.engineId && l.owner.isNone then .next ((s.returnCredits p.val 0 1).keepSealed l f aux)
      else .next ((s.returnCredits p.val 0 1).judgeLane l f aux) := by
  subst hg
  change execSealReceived p f aux s = _
  unfold execSealReceived
  rw [State.fabricIn_of_awake ha]
  dsimp only
  rw [if_neg (by simp [State.portUp_of_up hup]), if_neg (by simp [hready]), if_neg (by simp [hup])]
  rfl

theorem exec_sealReceived_alone (hnone : s.laneAt p.val g.flow g.isMove g.chunk g.formedBy g.seq = none) :
    exec (.sealReceived p f aux) s = .next ((s.returnCredits p.val 0 1).sealAlone g) := by
  rw [exec_sealReceived hg hup ha hready, hnone]

section Lane
variable {l : Lane} (hlane : s.laneAt p.val g.flow g.isMove g.chunk g.formedBy g.seq = some l)
  (hgen : s.genDiffers l.isMove l.flow g.gen (l.dest == s.engineId) = false)
include hlane hgen

theorem exec_sealReceived_waits (howner : l.owner = none) (hmove : l.isMove = false) (hmine : l.dest = s.engineId) :
    exec (.sealReceived p f aux) s = .next ((s.returnCredits p.val 0 1).keepSealed l f aux) := by
  rw [exec_sealReceived hg hup ha hready, hlane]
  dsimp only
  rw [if_neg (by simp [hgen]), if_pos (by simp [howner, hmove, hmine])]

theorem exec_sealReceived_judged (hknown : l.owner ≠ none ∨ l.isMove = true ∨ l.dest ≠ s.engineId) :
    exec (.sealReceived p f aux) s = .next ((s.returnCredits p.val 0 1).judgeLane l f aux) := by
  have hno : ¬ (!l.isMove && l.dest == s.engineId && l.owner.isNone) = true := by
    rintro h
    simp only [Bool.and_eq_true, Bool.not_eq_true', beq_iff_eq, Option.isNone_iff_eq_none] at h
    obtain ⟨⟨hmove, hmine⟩, howner⟩ := h
    rcases hknown with h | h | h
    · exact h howner
    · simp [hmove] at h
    · exact h hmine
  rw [exec_sealReceived hg hup ha hready, hlane]
  dsimp only
  rw [if_neg (by simp [hgen]), if_neg hno]

/-! ## A check that fails, and poison -/

theorem sealReceived_broken (hclean : CleanChunk l f) (hbroken : ¬ WholeChunk l f)
    (hknown : l.owner ≠ none ∨ l.isMove = true ∨ l.dest ≠ s.engineId) :
    (l.attempt < 3 → ∃ t, exec (.sealReceived p f aux) s = .next t ∧ t.lanes = s.lanes.filter (fun x => x != l) ∧ l.name ∈ t.owed ∧
      (t.port p.val).cnt.checkFailures = satInc (s.port p.val).cnt.checkFailures ∧
      (t.port p.val).vc3.length = (s.port p.val).vc3.length + 1 ∧ t.confirmed = s.confirmed ∧ t.cellar = s.cellar ∧ t.ctxs = s.ctxs) ∧
    (3 ≤ l.attempt → l.owner = none → ∃ t, exec (.sealReceived p f aux) s = .next t ∧ t.lanes = s.lanes.filter (fun x => x != l) ∧
      (t.port p.val).cnt.lost = satInc (s.port p.val).cnt.lost ∧ t.confirmed = s.confirmed ∧ t.cellar = s.cellar) ∧
    (∀ c w, 3 ≤ l.attempt → l.owner = some (c, w.fid) → Alone s c w →
      ∃ t, exec (.sealReceived p f aux) s = .next t ∧ StoppedBy s t c 0x31) := by
  have hexec := exec_sealReceived_judged (aux := aux) hg hup ha hready hlane hgen hknown
  obtain ⟨cause, hcause⟩ := State.judgeLane_of_broken (s := s.returnCredits p.val 0 1) (aux := aux) hclean hbroken
  rw [hcause] at hexec
  have hport := State.port_of_laneAt hlane
  have hcnt := s.returnCredits_port_cnt p.val 0 1 p.val
  have hvc3 := s.returnCredits_port_vc3 p.val 0 1 p.val
  have hup' : (s.returnCredits p.val 0 1).portUp l.port = true := by rw [hport, State.returnCredits_portUp, State.portUp_of_up hup]
  generalize hu : s.returnCredits p.val 0 1 = u at *
  have hrest : u.offHop = s.offHop := by rw [← hu]; rfl
  have hlanes : u.lanes = s.lanes := by rw [← hu]; rfl
  have hconfirmed : u.confirmed = s.confirmed := by rw [← hu]; rfl
  refine ⟨fun hattempt => ⟨_, hexec, ?_⟩, fun hattempt howner => ⟨_, hexec, ?_⟩, fun c w hattempt howner hw => ⟨_, hexec, ?_⟩⟩
  · obtain ⟨hl, howed, hfail, hask, hconf, hkept⟩ := State.failLane_asks (cause := cause) hattempt hup'
    rw [hport, hcnt] at hfail
    rw [hport, hvc3] at hask
    exact ⟨hl.trans (by rw [hlanes]), howed, hfail, hask, hconf.trans hconfirmed, State.cellar_of_offHop (hkept.trans hrest),
      State.ctxs_of_offHop (hkept.trans hrest)⟩
  · obtain ⟨hl, hlost, hconf, hkept⟩ := State.failLane_loses (s := u) (cause := cause) hattempt howner
    rw [hport, hcnt] at hlost
    exact ⟨hl.trans (by rw [hlanes]), hlost, hconf.trans hconfirmed, State.cellar_of_offHop (hkept.trans hrest)⟩
  · exact .of_offHop hrest (State.failLane_stops hattempt howner (hw.of_offHop hrest))

theorem sealReceived_poisoned (hpoison : ¬ CleanChunk l f) (hknown : l.owner ≠ none ∨ l.isMove = true ∨ l.dest ≠ s.engineId) :
    (l.owner = none → ∃ t, exec (.sealReceived p f aux) s = .next t ∧ t.lanes = s.lanes.filter (fun x => x != l) ∧ l.name ∈ t.confirmed ∧
      t.cellar = s.cellar ∧ t.ctxs = s.ctxs) ∧
    (∀ c w, l.owner = some (c, w.fid) → Alone s c w → ∃ t, exec (.sealReceived p f aux) s = .next t ∧ StoppedBy s t c 0x22) := by
  have hexec := exec_sealReceived_judged (aux := aux) hg hup ha hready hlane hgen hknown
  rw [State.judgeLane_of_poison hpoison] at hexec
  generalize hu : s.returnCredits p.val 0 1 = u at *
  have hrest : u.offHop = s.offHop := by rw [← hu]; rfl
  have hlanes : u.lanes = s.lanes := by rw [← hu]; rfl
  refine ⟨fun howner => ⟨_, hexec, ?_⟩, fun c w howner hw => ⟨_, hexec, ?_⟩⟩
  · obtain ⟨hl, hconf, hkept⟩ := State.poisonLane_drops (s := u) howner
    exact ⟨hl.trans (by rw [hlanes]), hconf, State.cellar_of_offHop (hkept.trans hrest), State.ctxs_of_offHop (hkept.trans hrest)⟩
  · exact .of_offHop hrest (State.poisonLane_stops howner (hw.of_offHop hrest))

/-! ## A chunk whose Figure has not come (R228, R367) -/

theorem sealReceived_waits (howner : l.owner = none) (hmove : l.isMove = false) (hmine : l.dest = s.engineId) :
    (s.epochClash l = none → ∃ t, exec (.sealReceived p f aux) s = .next t ∧
      t.lanes = s.lanes.map (fun x => if x = l then { l with sealed := some (f, aux) } else x) ∧ t.ctxs = s.ctxs ∧ t.cellar = s.cellar) ∧
    (∀ c w, s.epochClash l = some (c, w.fid) → Alone s c w → ∃ t, exec (.sealReceived p f aux) s = .next t ∧ StoppedBy s t c 0x12) := by
  have hexec := exec_sealReceived_waits (aux := aux) hg hup ha hready hlane hgen howner hmove hmine
  refine ⟨fun hclash => ⟨_, hexec, ?_⟩, fun c w hclash hw => ⟨_, hexec, ?_⟩⟩
  · have hkeep : (s.returnCredits p.val 0 1).keepSealed l f aux = { s.returnCredits p.val 0 1 with
        lanes := s.lanes.map (fun x => if x = l then { l with sealed := some (f, aux) } else x) } := by
      unfold State.keepSealed
      rw [show (s.returnCredits p.val 0 1).epochClash l = none from hclash]
      rfl
    rw [hkeep]
    exact ⟨rfl, rfl, rfl⟩
  · have hkeep : (s.returnCredits p.val 0 1).keepSealed l f aux =
        (((s.returnCredits p.val 0 1).dropLane l).failFlight c w.fid { status := 0x12, detail := 26 }).settle c := by
      unfold State.keepSealed
      rw [show (s.returnCredits p.val 0 1).epochClash l = some (c, w.fid) from hclash]
    rw [hkeep]
    generalize hu : s.returnCredits p.val 0 1 = u
    have hrest : u.offHop = s.offHop := by rw [← hu]; rfl
    exact .of_offHop hrest (State.dropped_stops (hw.of_offHop hrest) { status := 0x12, detail := 26 } rfl)

end Lane

end Seal

end Sys2Proof.Machine
end

section
/-! Settling O52: the seals that confirm a chunk, those whose chunk has no lane, retract markers, what comes before Ready, and the whole (R85, R119, R222,
R285, R287, R294-R296, R299). -/

namespace Sys2Proof.Machine

/-! ## What a MOVE's chunk asks of the state does not depend on the hop -/

section Views
variable {s u : State} (h : u.offHop = s.offHop)
include h

theorem State.fetches_of_offHop (l : Lane) (n : Nat) : u.fetches l n = s.fetches l n := by
  change u.offHop.fetches l n = s.offHop.fetches l n
  rw [h]

theorem State.locCheck_of_offHop (t : Nat) (wr : Bool) (sel addr len : Nat) :
    u.locCheck (u.suiteOfTenant t) t wr sel addr len = s.locCheck (s.suiteOfTenant t) t wr sel addr len := by
  change u.offHop.locCheck (u.offHop.suiteOfTenant t) t wr sel addr len = s.offHop.locCheck (s.offHop.suiteOfTenant t) t wr sel addr len
  rw [h]

theorem State.cellarOpen_of_offHop (off len : Nat) : u.cellarOpen off len = s.cellarOpen off len := by
  change u.offHop.cellarOpen off len = s.offHop.cellarOpen off len
  rw [h]

theorem State.coldExt_of_offHop (off len : Nat) : u.coldExt off len = s.coldExt off len := by
  change u.offHop.coldExt off len = s.offHop.coldExt off len
  rw [h]

theorem State.poisonIn_of_offHop (off len : Nat) : u.poisonIn off len = s.poisonIn off len := by
  change u.offHop.poisonIn off len = s.offHop.poisonIn off len
  rw [h]

end Views

theorem landFrame_lanes : LandFrame State.lanes := ⟨fun _ _ _ => rfl, fun _ _ => rfl, fun _ _ => rfl⟩
theorem landFrame_confirmed : LandFrame State.confirmed := ⟨fun _ _ _ => rfl, fun _ _ => rfl, fun _ _ => rfl⟩
theorem landFrame_port (q : Nat) : LandFrame (fun s => s.port q) := ⟨fun _ _ _ => rfl, fun _ _ => rfl, fun _ _ => rfl⟩
theorem landFrame_ctxs : LandFrame State.ctxs := ⟨fun _ _ _ => rfl, fun _ _ => rfl, fun _ _ => rfl⟩

/-! ## A seal confirms its chunk -/

/-- In `w` the chunk of lane `l`, of the length `n` that its seal gives, has been acknowledged on port `p`, counted and recorded, and its lane is gone. -/
structure ChunkConfirmed (s w : State) (p : Nat) (l : Lane) (n : Nat) : Prop where
  lanes : w.lanes = (s.withTrimmed l n).lanes.filter (fun x => x != l.trimmed n)
  recorded : l.name ∈ w.confirmed
  counted : (w.port p).cnt.confirmed = satInc (s.port p).cnt.confirmed
  acknowledged : (w.port p).vc3.length = (s.port p).vc3.length + 1
  rest : w.offHop = s.offHop

theorem FabPort.confirmed_of_book {x y : FabPort} (h : x.book = y.book) : x.cnt.confirmed = y.cnt.confirmed :=
  (congrArg (fun x : FabPort => x.cnt.confirmed) h :)

section Confirmed
variable {s : State} {p : Nat} {l : Lane} (hup : s.portUp p = true) (hport : l.port = p) (n : Nat)
include hup hport

theorem State.confirming_confirmed :
    ChunkConfirmed s (((s.returnCredits p 0 1).withTrimmed l n).confirming (l.trimmed n)) p l n := by
  subst hport
  obtain ⟨hcount, hack⟩ := ((s.returnCredits l.port 0 1).withTrimmed l n).confirming_port (l.trimmed n)
    ((s.returnCredits_portUp l.port 0 1 l.port).trans hup)
  refine ⟨State.confirming_lanes _ _, State.mem_confirming _ _, hcount.trans ?_, hack.trans ?_, (State.confirming_offHop _ _).trans rfl⟩
  · exact congrArg (fun k : PortCounters => satInc k.confirmed) (s.returnCredits_port_cnt l.port 0 1 l.port)
  · exact congrArg (fun q : List TxFlit => q.length + 1) (s.returnCredits_port_vc3 l.port 0 1 l.port)

theorem State.committing_confirmed :
    ChunkConfirmed s (((s.returnCredits p 0 1).withTrimmed l n).committing (l.trimmed n)) p l n := by
  obtain ⟨hlanes, hmem, hcount, hack, hrest⟩ := confirming_confirmed hup hport n
  obtain ⟨cm, rs, h⟩ := ((s.returnCredits p 0 1).withTrimmed l n).committing_eq (l.trimmed n)
  rw [h]
  exact ⟨hlanes, hmem, hcount, hack, hrest⟩

end Confirmed

section Seal
variable {s : State} {p : Fin 36} {f : List Byte} {aux : ChunkAux} {g : Lane} (hg : ghostLane p.val f s.engineId = g)
  (hup : (s.port p.val).state = .up) (ha : s.asleep = false) (hready : s.isReady = true)
include hg hup ha hready

section Lane
variable {l : Lane} (hlane : s.laneAt p.val g.flow g.isMove g.chunk g.formedBy g.seq = some l)
  (hgen : s.genDiffers l.isMove l.flow g.gen (l.dest == s.engineId) = false) (hclean : CleanChunk l f) (hwhole : WholeChunk l f)
include hlane hgen hclean hwhole

/-- A MOVE's chunk for this engine lands (R105, R119, R294). -/
theorem sealReceived_lands (howner : l.owner = none) (hmove : l.isMove = true) (hmine : l.dest = s.engineId)
    (hfetch : s.fetches l (l.bytes.take (le f 12 4)).length = none) : ∃ t, exec (.sealReceived p f aux) s = .next t ∧ LaneGone s t l ∧
      l.name ∈ t.confirmed ∧ (t.port p.val).cnt.confirmed = satInc (s.port p.val).cnt.confirmed ∧
      (t.port p.val).vc3.length = (s.port p.val).vc3.length + 1 ∧ t.ctxs = s.ctxs ∧
      (∀ r, s.locCheck (s.suiteOfTenant l.tenant) l.tenant true l.moveSel.toNat l.moveAddr.toNat (l.bytes.take (le f 12 4)).length = some r →
        t.cellar = s.cellar) ∧
      (s.locCheck (s.suiteOfTenant l.tenant) l.tenant true l.moveSel.toNat l.moveAddr.toNat (l.bytes.take (le f 12 4)).length = none →
        selSpace l.moveSel.toNat = 1 → s.cellarOpen l.moveAddr.toNat (l.bytes.take (le f 12 4)).length = true →
        s.coldExt l.moveAddr.toNat (l.bytes.take (le f 12 4)).length = none →
        s.poisonIn l.moveAddr.toNat (l.bytes.take (le f 12 4)).length = false → Memory.wf 0 s.cellar.mem = true →
        ∀ a, memRead 0 t.cellar.mem a = if l.moveAddr.toNat ≤ a ∧ a < l.moveAddr.toNat + (l.bytes.take (le f 12 4)).length
          then byteAt (l.bytes.take (le f 12 4)) (a - l.moveAddr.toNat) else memRead 0 s.cellar.mem a) := by
  have hexec := exec_sealReceived_judged (aux := aux) hg hup ha hready hlane hgen (.inr (.inl hmove))
  rw [State.judgeLane_confirms_free hclean hwhole howner, State.confirmLane_of_move (by exact hmine) (by exact hmove), Lane.trimmed_bytes] at hexec
  obtain ⟨hlanes, hmem, hcount, hack, hrest⟩ := State.committing_confirmed (State.portUp_of_up hup) (State.port_of_laneAt hlane) (le f 12 4)
  generalize ((s.returnCredits p.val 0 1).withTrimmed l (le f 12 4)).committing (l.trimmed (le f 12 4)) = w at *
  generalize l.bytes.take (le f 12 4) = b at *
  have hfetch' : w.fetches (l.trimmed (le f 12 4)) b.length = none := (State.fetches_of_offHop hrest _ _).trans hfetch
  have htport : (w.acceptMove (l.trimmed (le f 12 4)) b).port p.val = w.port p.val := (landFrame_port p.val).acceptMove w hfetch'
  have hcellar := State.cellar_of_offHop hrest
  refine ⟨_, hexec, .of_trimmed ((landFrame_lanes.acceptMove w hfetch').trans hlanes), ?_, ?_, ?_, ?_, fun r hr => ?_,
    fun hmay hspace hopen hwarm hpoison hwf a => ?_⟩
  · rw [landFrame_confirmed.acceptMove w hfetch']
    exact hmem
  · rw [htport, hcount]
  · rw [htport, hack]
  · exact (landFrame_ctxs.acceptMove w hfetch').trans (State.ctxs_of_offHop hrest)
  · exact (State.acceptMove_refused ((State.locCheck_of_offHop hrest _ _ _ _ _).trans hr)).trans hcellar
  · refine (State.acceptMove_memRead hfetch' ((State.locCheck_of_offHop hrest _ _ _ _ _).trans hmay) hspace
      ((State.cellarOpen_of_offHop hrest _ _).trans hopen) ((State.coldExt_of_offHop hrest _ _).trans hwarm)
      ((State.poisonIn_of_offHop hrest _ _).trans hpoison) (by rw [hcellar]; exact hwf) a).trans ?_
    rw [hcellar]
    rfl

/-- A chunk of this engine's own collective acts at its Figure (R222, R291, R293). -/
theorem sealReceived_acts {c : Nat} {w : Flight} {k : Coll} (hmine : l.dest = s.engineId) (hmove : l.isMove = false)
    (howner : l.owner = some (c, w.fid)) (hflights : (s.ctx c).flights = [w]) (hdone : w.done = none) (hkind : w.kind = .coll k)
    (hsame : sealMismatch k f = none) : ∃ t w' k', exec (.sealReceived p f aux) s = .next t ∧ l.name ∈ t.confirmed ∧
      (t.port p.val).cnt.confirmed = satInc (s.port p.val).cnt.confirmed ∧ (∀ x ∈ t.lanes, x ≠ l) ∧
      (t.ctx c).flights = [w'] ∧ w'.done = none ∧ w'.kind = .coll k' ∧
      (isReducing k.opcode = true → l.down = false → (∃ x ∈ k'.parts, x.chunk = l.chunk ∧ x.engine = l.formedBy) ∨ (1, 0, l.chunk) ∈ k'.done1) ∧
      (isReducing k.opcode = false ∨ l.down = true → k'.hasFinal (k.bodyOf l).1 (k.bodyOf l).2 l.chunk = true) := by
  have honly : (s.ctx c).OnlyColl w.fid k := ⟨w, hflights, rfl, hdone, hkind⟩
  have hexec := exec_sealReceived_judged (aux := aux) hg hup ha hready hlane hgen (.inl (by simp [howner]))
  rw [State.judgeLane_confirms_owned hclean hwhole howner (State.collAt_of_only (by exact honly)) hsame,
    State.confirmLane_of_coll (by exact hmine) (by exact hmove) (by exact howner) (State.collAt_of_only (by exact honly))] at hexec
  obtain ⟨hlanes, hmem, hcount, -, hrest⟩ := State.committing_confirmed (State.portUp_of_up hup) (State.port_of_laneAt hlane) (le f 12 4)
  generalize ((s.returnCredits p.val 0 1).withTrimmed l (le f 12 4)).committing (l.trimmed (le f 12 4)) = v at *
  obtain ⟨k', hacted, hpartial, hfinal⟩ := State.acceptColl_only (honly.of_ctxs (State.ctxs_of_offHop hrest)) (l.trimmed (le f 12 4))
    (l.trimmed (le f 12 4)).bytes aux
  obtain ⟨w', hflights', -, hdone', hkind'⟩ := State.settle_only hacted
  have hframe {β : Type} {q : State → β} (hq : ProgressFrame q) :
      q ((v.acceptColl c w.fid k (l.trimmed (le f 12 4)) (l.trimmed (le f 12 4)).bytes aux).settle c) = q v :=
    (hq.settle hacted).trans (hq.acceptColl _ _ _ _ _ _ _)
  generalize (v.acceptColl c w.fid k (l.trimmed (le f 12 4)) (l.trimmed (le f 12 4)).bytes aux).settle c = t at *
  have hbook : (t.port p.val).book = (v.port p.val).book := hframe (progressFrame_book p.val)
  obtain ⟨hgone, -⟩ := LaneGone.of_trimmed (s := s) ((hframe progressFrame_lanes).trans hlanes)
  refine ⟨t, w', k', hexec, ?_, (FabPort.confirmed_of_book hbook).trans hcount, fun x hx => (hgone x hx).2, hflights', hdone', hkind', hpartial,
    hfinal⟩
  rw [hframe progressFrame_confirmed]
  exact hmem

/-- A seal that does not fit its Figure fails it (R228, R287). -/
theorem sealReceived_mismatch {c o : Nat} {w : Flight} {k : Coll} (howner : l.owner = some (c, w.fid)) (hkind : w.kind = .coll k)
    (hother : sealMismatch k f = some o) (hw : Alone s c w) :
    ∃ t, exec (.sealReceived p f aux) s = .next t ∧ StoppedBy s t c 0x12 ∧ t.confirmed = s.confirmed := by
  have honly : (s.ctx c).OnlyColl w.fid k := by
    obtain ⟨hflights, hdone, -⟩ := hw
    exact ⟨w, hflights, rfl, hdone, hkind⟩
  have hexec := exec_sealReceived_judged (aux := aux) hg hup ha hready hlane hgen (.inl (by simp [howner]))
  rw [State.judgeLane_mismatch hclean hwhole howner (State.collAt_of_only (by exact honly)) hother] at hexec
  refine ⟨_, hexec, ?_⟩
  generalize hu : s.returnCredits p.val 0 1 = u
  have hrest : u.offHop = s.offHop := by rw [← hu]; rfl
  exact ⟨.of_offHop hrest (State.dropped_stops (hw.of_offHop hrest) { status := 0x12, detail := BitVec.ofNat 32 o } rfl),
    (State.dropped_confirmed _ _ _ _ _).trans (by rw [← hu]; rfl)⟩

/-- A chunk that this engine passes on gets its final bytes, and its seal where it has a port (R281, R285). -/
theorem sealReceived_passes {i : Nat} {o : OutChunk} (howner : l.owner = none) (hother : l.dest ≠ s.engineId)
    (hplace : s.outs.findIdx? (fun o => o.owner.isNone && o.passes l && o.bytes.isNone) = some i) (hat : s.outs[i]? = some o) :
    ∃ t o', exec (.sealReceived p f aux) s = .next t ∧ LaneGone s t l ∧ l.name ∈ t.confirmed ∧
      (t.port p.val).cnt.confirmed = satInc (s.port p.val).cnt.confirmed ∧ t.outs[i]? = some o' ∧
      o'.bytes = some (l.bytes.take (le f 12 4)) ∧ o'.name = o.name ∧ o'.mask = o.mask ∧ o'.port = o.port ∧
      (o.port ≠ none → o'.sealed = true) ∧ t.cellar = s.cellar ∧ t.ctxs = s.ctxs := by
  have hexec := exec_sealReceived_judged (aux := aux) hg hup ha hready hlane hgen (.inr (.inr hother))
  rw [State.judgeLane_confirms_free hclean hwhole howner, State.confirmLane_of_passing (by exact hother), Lane.trimmed_bytes] at hexec
  obtain ⟨hlanes, hmem, hcount, -, hrest⟩ := State.confirming_confirmed (State.portUp_of_up hup) (State.port_of_laneAt hlane) (le f 12 4)
  have houts := ((s.returnCredits p.val 0 1).withTrimmed l (le f 12 4)).confirming_outs (l.trimmed (le f 12 4))
  generalize ((s.returnCredits p.val 0 1).withTrimmed l (le f 12 4)).confirming (l.trimmed (le f 12 4)) = v at *
  have houts' : v.outs = s.outs := houts
  obtain ⟨o', hout, hbytes, hname, hmask, hport, hsealed⟩ := State.passOn_out (s := v) (l := l.trimmed (le f 12 4)) (f := f)
    (b := l.bytes.take (le f 12 4)) (aux := aux) (by rw [State.passPlace, houts']; exact hplace) (by rw [houts']; exact hat)
  have hrest' : (v.passOn (l.trimmed (le f 12 4)) f (l.bytes.take (le f 12 4)) aux).offHop = s.offHop :=
    (State.offHop_of_unsent (sendFrame_unsent.passOn _ _ _ _ _)).trans hrest
  refine ⟨_, o', hexec, .of_trimmed ((progressFrame_lanes.passOn _ _ _ _ _).trans hlanes), ?_, ?_, hout, hbytes, hname, hmask, hport, hsealed,
    State.cellar_of_offHop hrest', State.ctxs_of_offHop hrest'⟩
  · rw [progressFrame_confirmed.passOn]
    exact hmem
  · exact (FabPort.confirmed_of_book ((sendFrame_book p.val).passOn v _ _ _ _)).trans hcount

end Lane

/-! ## A seal whose chunk has no lane -/

section NoLane
variable (hnone : s.laneAt p.val g.flow g.isMove g.chunk g.formedBy g.seq = none)
include hnone

theorem sealReceived_dropped (hmem : g.asDropped ∈ s.droppedChunks) : ∃ t, exec (.sealReceived p f aux) s = .next t ∧
    g.asDropped ∉ t.droppedChunks ∧ t.lanes = s.lanes ∧ t.ctxs = s.ctxs ∧ t.cellar = s.cellar := by
  refine ⟨_, exec_sealReceived_alone hg hup ha hready hnone, ?_⟩
  rw [State.sealAlone_of_dropped (by exact hmem)]
  exact ⟨by simp, rfl, rfl, rfl⟩

variable (hnot : g.asDropped ∉ s.droppedChunks)
include hnot

theorem sealReceived_again {dest : Nat} (hmem : ⟨g.isMove, g.flow, g.chunk, g.formedBy, dest, g.seq⟩ ∈ s.confirmed) :
    ∃ t, exec (.sealReceived p f aux) s = .next t ∧ (t.port p.val).cnt.duplicates = satInc (s.port p.val).cnt.duplicates ∧
      (t.port p.val).vc3.length = (s.port p.val).vc3.length + 1 ∧ t.lanes = s.lanes ∧ t.cellar = s.cellar ∧ t.ctxs = s.ctxs := by
  have hexec := exec_sealReceived_alone (aux := aux) hg hup ha hready hnone
  have hport : g.port = p.val := by rw [← hg]; rfl
  have hcnt := s.returnCredits_port_cnt p.val 0 1 p.val
  have hvc3 := s.returnCredits_port_vc3 p.val 0 1 p.val
  have hup' : (s.returnCredits p.val 0 1).portUp g.port = true := by rw [hport, State.returnCredits_portUp, State.portUp_of_up hup]
  obtain ⟨hdup, hack, hlanes, hrest⟩ := State.sealAlone_of_confirmed (s := s.returnCredits p.val 0 1) (by exact hnot) (by exact hmem) hup'
  rw [hport, hcnt] at hdup
  rw [hport, hvc3] at hack
  have hrest' := hrest.trans (show _ = s.offHop from rfl)
  exact ⟨_, hexec, hdup, hack, hlanes, State.cellar_of_offHop hrest', State.ctxs_of_offHop hrest'⟩

variable (hno : ∀ dest, ⟨g.isMove, g.flow, g.chunk, g.formedBy, dest, g.seq⟩ ∉ s.confirmed)
include hno

/-- An attempt that another has overtaken is of no effect (R295). -/
theorem sealReceived_overtaken (hlanes : s.laneOf g.isMove g.flow g.chunk g.formedBy g.seq ≠ []) :
    ∃ t, exec (.sealReceived p f aux) s = .next t ∧ t.lanes = s.lanes ∧ t.ctxs = s.ctxs := by
  refine ⟨_, exec_sealReceived_alone hg hup ha hready hnone, ?_⟩
  have hlanes' : (s.returnCredits p.val 0 1).laneOf g.isMove g.flow g.chunk g.formedBy g.seq ≠ [] := hlanes
  rw [State.sealAlone_of_unconfirmed (by exact hnot) (by exact hno), if_pos (by simpa using hlanes')]
  exact ⟨rfl, rfl⟩

/-- Of a chunk that has not come every flit is missing (R295). -/
theorem sealReceived_missing (hlanes : s.laneOf g.isMove g.flow g.chunk g.formedBy g.seq = [])
    (hgen : s.genDiffers g.isMove g.flow g.gen false = false) (hattempt : g.attempt < 3) :
    ∃ t, exec (.sealReceived p f aux) s = .next t ∧ (t.port p.val).cnt.checkFailures = satInc (s.port p.val).cnt.checkFailures ∧
      (t.port p.val).vc3.length = (s.port p.val).vc3.length + 1 ∧ g.name ∈ t.owed ∧ t.cellar = s.cellar ∧ t.ctxs = s.ctxs := by
  have hexec := exec_sealReceived_alone (aux := aux) hg hup ha hready hnone
  have hlanes' : (s.returnCredits p.val 0 1).laneOf g.isMove g.flow g.chunk g.formedBy g.seq = [] := hlanes
  have hgen' : (s.returnCredits p.val 0 1).genDiffers g.isMove g.flow g.gen false = false := hgen
  rw [State.sealAlone_of_unconfirmed (by exact hnot) (by exact hno), if_neg (by simp [hlanes']), if_neg (by simp [hgen'])] at hexec
  have hport : g.port = p.val := by rw [← hg]; rfl
  have hcnt := s.returnCredits_port_cnt p.val 0 1 p.val
  have hvc3 := s.returnCredits_port_vc3 p.val 0 1 p.val
  have hup' : (s.returnCredits p.val 0 1).portUp g.port = true := by rw [hport, State.returnCredits_portUp, State.portUp_of_up hup]
  obtain ⟨-, howed, hfail, hask, -, hrest⟩ := State.failLane_asks (s := s.returnCredits p.val 0 1) (cause := 3) hattempt hup'
  rw [hport, hcnt] at hfail
  rw [hport, hvc3] at hask
  have hrest' := hrest.trans (show _ = s.offHop from rfl)
  exact ⟨_, hexec, hfail, hask, howed, State.cellar_of_offHop hrest', State.ctxs_of_offHop hrest'⟩

end NoLane

end Seal

/-! ## Retract markers (R296) -/

section Retract
variable {s : State} {p : Fin 36} {f : List Byte} (hup : (s.port p.val).state = .up) (ha : s.asleep = false) (hready : s.isReady = true)
  (hok : ctlOk 0x01 f = true)
include hup ha hready hok

/-- A marker has come in on a port, and is counted there. -/
def State.marked (s : State) (p : Nat) : State :=
  (s.returnCredits p 0 1).countPort p (fun k => { k with retractReceived := satInc k.retractReceived })

omit hup ha hready hok in
theorem State.marked_received (s : State) (p : Nat) : ((s.marked p).port p).cnt.retractReceived = satInc (s.port p).cnt.retractReceived := by
  rw [marked, countPort_cnt, returnCredits_port_cnt]

/-- The chunk that a marker names. -/
def markerChunk (p : Nat) (f : List Byte) : DroppedChunk :=
  ⟨p, bit (le f 11 1) 3, flowField (bit (le f 11 1) 3) (le f 2 2), le f 6 4, le f 21 1, le f 12 8⟩

theorem exec_retractMarker : exec (.retractMarker p f) s =
    match s.laneAt p.val (flowField (bit (le f 11 1) 3) (le f 2 2)) (bit (le f 11 1) 3) (le f 6 4) (le f 21 1) (le f 12 8) with
    | some l => .next (((s.marked p.val).owe l.name).dropLane l)
    | none => .next { s.marked p.val with droppedChunks := s.droppedChunks.filter (fun x => x != markerChunk p.val f) } := by
  change execRetractMarker p f s = _
  unfold execRetractMarker
  rw [State.fabricIn_of_awake ha]
  dsimp only
  rw [if_neg (by simp [State.portUp_of_up hup]), if_neg (by simp [hready]), if_neg (by simp [hok])]
  rfl

theorem retractMarker_drops {l : Lane} (hlane : s.laneAt p.val (flowField (bit (le f 11 1) 3) (le f 2 2)) (bit (le f 11 1) 3) (le f 6 4)
      (le f 21 1) (le f 12 8) = some l) : ∃ t, exec (.retractMarker p f) s = .next t ∧ t.lanes = s.lanes.filter (fun x => x != l) ∧
      l.name ∈ t.owed ∧ (t.port p.val).cnt.retractReceived = satInc (s.port p.val).cnt.retractReceived ∧ t.cellar = s.cellar ∧
      t.ctxs = s.ctxs := by
  have hexec := exec_retractMarker hup ha hready hok
  rw [hlane] at hexec
  have hrest : (((s.marked p.val).owe l.name).dropLane l).offHop = s.offHop := (State.dropLane_offHop _ l).trans rfl
  have hbook : ((((s.marked p.val).owe l.name).dropLane l).port p.val).book = ((s.marked p.val).port p.val).book :=
    State.dropLane_book ((s.marked p.val).owe l.name) l p.val
  refine ⟨_, hexec, State.dropLane_lanes _ l, ?_, ?_, State.cellar_of_offHop hrest, State.ctxs_of_offHop hrest⟩
  · rw [State.dropLane_owed]
    simp [State.owe]
  · exact (congrArg (fun x : FabPort => x.cnt.retractReceived) hbook :).trans (s.marked_received p.val)

theorem retractMarker_noLane (hnone : s.laneAt p.val (flowField (bit (le f 11 1) 3) (le f 2 2)) (bit (le f 11 1) 3) (le f 6 4) (le f 21 1)
      (le f 12 8) = none) : ∃ t, exec (.retractMarker p f) s = .next t ∧ t.lanes = s.lanes ∧ t.outs = s.outs ∧
      (t.port p.val).cnt.retractReceived = satInc (s.port p.val).cnt.retractReceived ∧ t.cellar = s.cellar ∧ t.ctxs = s.ctxs := by
  have hexec := exec_retractMarker hup ha hready hok
  rw [hnone] at hexec
  exact ⟨_, hexec, rfl, rfl, s.marked_received p.val, rfl, rfl⟩

end Retract

/-! ## Before Ready (R85) -/

/-- Flits that come before Ready are dropped and counted. -/
theorem State.preReady_drops (s : State) (p vc n : Nat) : (s.preReady p vc n).lanes = s.lanes ∧ (s.preReady p vc n).ctxs = s.ctxs ∧
    ((s.preReady p vc n).port p).cnt.preReadyDrops = satInc (s.port p).cnt.preReadyDrops := by
  refine ⟨rfl, rfl, ?_⟩
  rw [preReady, countPort_cnt, returnCredits_port_cnt]

section NotReady
variable {s : State} {p : Fin 36} (hup : (s.port p.val).state = .up) (ha : s.asleep = false) (hready : s.isReady = false)
include hup ha hready

theorem packetReceived_notReady (h body : List Byte) (src dst : Nat) : ∃ t, exec (.packetReceived p h body src dst) s = .next t ∧
    t.lanes = s.lanes ∧ t.ctxs = s.ctxs ∧ (t.port p.val).cnt.preReadyDrops = satInc (s.port p.val).cnt.preReadyDrops := by
  refine ⟨_, ?_, s.preReady_drops p.val 0 (ceilDiv body.length 64 + 1)⟩
  change execPacketReceived p h body src dst s = _
  unfold execPacketReceived
  rw [State.fabricIn_of_awake ha]
  exact (if_neg (by simp [State.portUp_of_up hup])).trans (if_pos (by simp [hready]))

theorem sealReceived_notReady (f : List Byte) (aux : ChunkAux) : ∃ t, exec (.sealReceived p f aux) s = .next t ∧
    t.lanes = s.lanes ∧ t.ctxs = s.ctxs ∧ (t.port p.val).cnt.preReadyDrops = satInc (s.port p.val).cnt.preReadyDrops := by
  refine ⟨_, ?_, s.preReady_drops p.val 0 1⟩
  change execSealReceived p f aux s = _
  unfold execSealReceived
  rw [State.fabricIn_of_awake ha]
  exact (if_neg (by simp [State.portUp_of_up hup])).trans (if_pos (by simp [hready]))

theorem retractMarker_notReady (f : List Byte) : ∃ t, exec (.retractMarker p f) s = .next t ∧
    t.lanes = s.lanes ∧ t.ctxs = s.ctxs ∧ (t.port p.val).cnt.preReadyDrops = satInc (s.port p.val).cnt.preReadyDrops := by
  refine ⟨_, ?_, s.preReady_drops p.val 0 1⟩
  change execRetractMarker p f s = _
  unfold execRetractMarker
  rw [State.fabricIn_of_awake ha]
  exact (if_neg (by simp [State.portUp_of_up hup])).trans (if_pos (by simp [hready]))

end NotReady

/-- Settles O52: each part is a rule of a packet, a seal or a marker above. -/
theorem chunksReceived : Obligations.ChunksReceived := by
  unfold Obligations.ChunksReceived
  intro s p hup ha
  refine ⟨fun hready => ⟨fun h body src dst => ?_, fun f aux => ⟨fun l hlane hgen => ?_, fun hnone => ?_⟩, fun f hok => ?_⟩,
    fun hready h body src dst f aux => ?_⟩
  · exact ⟨packetReceived_opens rfl hup ha hready, fun x => packetReceived_joins rfl hup ha hready, packetReceived_duplicate rfl hup ha hready,
      fun hmine hgen => ⟨packetReceived_wrongGen_none rfl hup ha hready hmine hgen,
        fun c w => packetReceived_wrongGen_stops rfl hup ha hready hmine hgen⟩,
      fun hother => ⟨packetReceived_unroutable rfl hup ha hready hother, packetReceived_forwards rfl hup ha hready hother⟩⟩
  · exact ⟨fun hclean hwhole => sealReceived_lands rfl hup ha hready hlane hgen hclean hwhole,
      fun c w k hclean hwhole hmine hmove howner hflights hdone hkind =>
        ⟨sealReceived_acts rfl hup ha hready hlane hgen hclean hwhole hmine hmove howner hflights hdone hkind,
          fun o => sealReceived_mismatch rfl hup ha hready hlane hgen hclean hwhole howner hkind⟩,
      sealReceived_waits rfl hup ha hready hlane hgen,
      fun i o hclean hwhole => sealReceived_passes rfl hup ha hready hlane hgen hclean hwhole,
      sealReceived_broken rfl hup ha hready hlane hgen, sealReceived_poisoned rfl hup ha hready hlane hgen⟩
  · exact ⟨sealReceived_dropped rfl hup ha hready hnone, fun hnot => ⟨fun dest => sealReceived_again rfl hup ha hready hnone hnot,
      fun hno => ⟨sealReceived_overtaken rfl hup ha hready hnone hnot hno, sealReceived_missing rfl hup ha hready hnone hnot hno⟩⟩⟩
  · exact ⟨fun l => retractMarker_drops hup ha hready hok, retractMarker_noLane hup ha hready hok⟩
  · exact ⟨packetReceived_notReady hup ha hready h body src dst, sealReceived_notReady hup ha hready f aux,
      retractMarker_notReady hup ha hready f⟩

end Sys2Proof.Machine
end

section
/-! Settling O21: what START does in each state of a context whose page is open. -/

namespace Sys2Proof.Machine

section Page
variable {s : State} {h c i : Nat} (hp : CtxPageOpen s h c i)
include hp

/-- A doorbell on an open page does what it does, unless the context is Unassigned or in Clearing (R147, R151). -/
theorem State.ctxDoor_of_open (hu : (s.ctx c).state ≠ .unassigned) (hc : (s.ctx c).state ≠ .clearing) (f : Nat → State → State) :
    s.ctxDoor h c f = f i s := by
  obtain ⟨-, hblocked, hdecodes, hctx, hhost, hsuite⟩ := hp
  simp only [ctxDoor, ctxWrite, bar0_of_decodes hblocked hdecodes, hctx, hhost, ne_eq, not_true_eq_false, if_false, if_neg hsuite]

end Page

section Start
variable {s : State} {h : Fin 16} {c : Fin 256} {i : Nat} (hp : CtxPageOpen s h.val c.val i)
include hp

/-- What START does on an open page, by the context's state (R164). -/
theorem exec_start_of_open (hu : (s.ctx c.val).state ≠ .unassigned) (hc : (s.ctx c.val).state ≠ .clearing) :
    exec (.start h c) s = .next (match (s.ctx c.val).state with
      | .idle => s.startNow i c.val
      | .stopped => s.startNow i c.val
      | .draining => (match s.startCheck i c.val (s.ctx c.val).regs with
        | some st => s.refuseStart c.val st
        | none => s.putCtx c.val { s.ctx c.val with state := .drainRestart, queued := some (s.ctx c.val).regs })
      | _ => s.drop i) := by
  change execStart h c s = _
  exact (State.hostIn_of_awake hp.1 _ _ _).trans (congrArg Host.Outcome.next (State.ctxDoor_of_open hp hu hc _))

theorem exec_start_of_still (hstill : (s.ctx c.val).state = .idle ∨ (s.ctx c.val).state = .stopped) :
    exec (.start h c) s = .next (s.startNow i c.val) := by
  obtain hst | hst := hstill <;> simp [exec_start_of_open hp, hst]

theorem exec_start_of_draining (hst : (s.ctx c.val).state = .draining) :
    exec (.start h c) s = .next (match s.startCheck i c.val (s.ctx c.val).regs with
      | some st => s.refuseStart c.val st
      | none => s.putCtx c.val { s.ctx c.val with state := .drainRestart, queued := some (s.ctx c.val).regs }) := by
  simp [exec_start_of_open hp, hst]

/-- A START while the Card runs, or with one queued, is dropped (R164). -/
theorem exec_start_of_runs (hruns : (s.ctx c.val).live = true ∨ (s.ctx c.val).state = .drainRestart) :
    exec (.start h c) s = .next (s.drop i) := by
  have hstate : (s.ctx c.val).state = .running ∨ (s.ctx c.val).state = .waiting ∨ (s.ctx c.val).state = .drainRestart := by
    simpa [Context.live, or_assoc] using hruns
  obtain hst | hst | hst := hstate <;> simp [exec_start_of_open hp, hst]

end Start

section Begin
variable (s : State) (c : Nat)

theorem Context.begin_live (x : Context) (r : CardRegs) : (x.begin r).live = true := rfl

/-- A Card that has begun has fetched nothing: it has reached a Figure only where it starts behind its end (R101, R127). -/
theorem Context.begin_reached (x : Context) (r : CardRegs) : (x.begin r).reached = decide (r.len ≤ r.startIdx) := rfl

/-- A Card that begins puts its context into Running or Waiting and changes nothing else (R137, R153). -/
theorem State.begin_refresh (r : CardRegs) : ∃ st t, (s.putCtx c ((s.ctx c).begin r)).refresh c = t ∧ t.ctx c = { (s.ctx c).begin r with state := st } ∧
    (st = .running ∨ st = .waiting) ∧ (r.startIdx < r.len → st = .waiting) ∧ (∀ d, d ≠ c → t.ctx d = s.ctx d) ∧ t = { s with ctxs := t.ctxs } := by
  have hlive := (s.ctx c).begin_live r
  have hreached := (s.ctx c).begin_reached r
  generalize (s.ctx c).begin r = x at hlive hreached ⊢
  have hrefresh : (s.putCtx c x).refresh c =
      (s.putCtx c x).putCtx c { x with state := if !x.reached || (s.putCtx c x).heldBack c then .waiting else .running } := by
    simp only [refresh, putCtx_ctx_self, hlive, if_true]
  refine ⟨_, _, hrefresh, putCtx_ctx_self _ _ _, ?_, fun hlt => if_pos ?_, fun d hd => ?_, rfl⟩
  · split
    · exact .inr rfl
    · exact .inl rfl
  · simp only [hreached, decide_eq_false (Nat.not_le.mpr hlt), Bool.not_false, Bool.true_or]
  · rw [putCtx_ctx_ne _ _ hd, putCtx_ctx_ne _ _ hd]

end Begin

section StartNow
variable {s : State} {i c : Nat} (hserving : (s.suite i).state = .serving)

/-- START is dropped while the Suite does not serve (R165). -/
theorem State.startNow_of_notServing (hno : (s.suite i).state ≠ .serving) : s.startNow i c = s.drop i := by
  simp [startNow, hno]

variable (hjob : s.svcJob 3 (c / 8) = none) (hout : (3, c / 8) ∉ s.svc.out)
include hserving hjob hout

/-- With its Suite serving and its Caller in service, START checks its registers (R153). -/
theorem State.startNow_of_bad {st : Nat} (hbad : s.startCheck i c (s.ctx c).regs = some st) : s.startNow i c = s.refuseStart c st := by
  have hnone : s.svc.jobs.any (fun j => j.unitClass == 3 && j.unitIndex == c / 8) = false := by
    simpa [svcJob] using hjob
  simp [startNow, hserving, hnone, hout, hbad]

/-- It then begins the Card, or holds it for the scan (R153, R435). -/
theorem State.startNow_of_good (hok : s.startCheck i c (s.ctx c).regs = none) : s.startNow i c =
    if s.callerOut c then s.modCtx c (fun x => { x with heldStart := some (s.ctx c).regs })
    else (s.putCtx c ((s.ctx c).begin (s.ctx c).regs)).refresh c := by
  have hnone : s.svc.jobs.any (fun j => j.unitClass == 3 && j.unitIndex == c / 8) = false := by
    simpa [svcJob] using hjob
  simp [startNow, hserving, hnone, hout, hok]

end StartNow

/-- Settles O21: START on an open page, state by state; the Card that begins has fetched nothing, so it waits for its first Figure. -/
theorem startBeginsCard : Obligations.StartBeginsCard := by
  unfold Obligations.StartBeginsCard
  intro s h c i hp x dropped
  refine ⟨fun hstill hserving hjob hout => ⟨fun hin hok => ?_, fun hscan hok => ?_, fun st hbad => ?_⟩, fun hst hok => ?_, fun st hst hbad => ?_,
    fun hstill hno => ?_, exec_start_of_runs hp⟩
  · obtain ⟨st, t, hbegun, hctx, hst, hwait, hothers, hframe⟩ := s.begin_refresh c.val x.regs
    refine ⟨t, ?_, ?_⟩
    · rw [exec_start_of_still hp hstill, State.startNow_of_good hserving hjob hout hok, if_neg (by simp [hin]), ← hbegun]
    · rw [hctx]
      refine ⟨?_, hwait, rfl, rfl, rfl, rfl, rfl, rfl, hothers, hframe⟩
      obtain rfl | rfl := hst <;> rfl
  · rw [exec_start_of_still hp hstill, State.startNow_of_good hserving hjob hout hok, if_pos hscan]
    rfl
  · rw [exec_start_of_still hp hstill, State.startNow_of_bad hserving hjob hout hbad]
    rfl
  · rw [exec_start_of_draining hp hst, hok]
  · rw [exec_start_of_draining hp hst, hbad]
    rfl
  · rw [exec_start_of_still hp hstill, State.startNow_of_notServing hno]
    rfl

end Sys2Proof.Machine
end

section
/-! Settling O22: the clause on a Figure that STOP lets run on fails for a BELL_RING that was held until then. -/

namespace Sys2Proof.Machine

/-- A BELL_RING of a Bell at engine 3, which no port led on when it issued (R187, R225). -/
def heldRing : Flight :=
  { fid := 0, idx := 0, opcode := 0x31, pass := 0, cpl := false, irq := false, issuedAt := 0, kind := .ring (.away 3 64) false 1 }

/-- Room 2's engine of slot 0 runs the ring's Card in context 0, and fabric port 8 toward engine 3 has come Up since. -/
def ringHeld : State :=
  { hearth := { startup := .ready, roomId := 2, config := fields 512 [(0x00C, 2, 1), (0x02C, 2, 1), (0x100, 2, 1), (0x104, 2, 256)] }
    hosts := [(0, { state := .serving, barsAssigned := true })]
    suites := [(0, { state := .serving })]
    ports := [(8, { state := .up })]
    ctxs := [(0, { state := .waiting, asg := { tenant := 5, valid := true }, run := { len := 4, ringSize := 4 }, pc := 1, flights := [heldRing] })] }

theorem ringHeld_page : CtxPageOpen ringHeld (0 : Fin 16).val (0 : Fin 256).val 0 := by
  unfold CtxPageOpen
  decide +kernel

/-- The STOP lets the ring go: it leaves through port 8, and its flight says so. -/
theorem ringHeld_stop_leaves : ∀ t, exec (.stop 0 0) ringHeld = .next t → (t.ctx 0).flights = [{ heldRing with sent := true }] := by
  intro t ht
  have hrun : ((nextOr ringHeld (exec (.stop 0 0) ringHeld)).ctx 0).flights = [{ heldRing with sent := true }] := by decide +kernel
  rwa [ht] at hrun

/-- Refutes O22: a BELL_RING runs on under a STOP (R159), but settling lets it leave, so that the flight left is not the flight there was. -/
theorem not_stopAndAbort : ¬ Obligations.StopAndAbort := by
  unfold Obligations.StopAndAbort
  intro h
  obtain ⟨-, -, hrunsOn, -⟩ := h ringHeld 0 0 0 ringHeld_page rfl
  obtain ⟨t, ht, hflights, -⟩ := hrunsOn heldRing rfl rfl rfl rfl (by decide)
  have hleft := (ringHeld_stop_leaves t ht).symm.trans hflights
  exact absurd hleft (by decide)

end Sys2Proof.Machine
end

section
/-! Settling O53: what a ring does at its home, while it waits, and at an engine that passes it on. -/

namespace Sys2Proof.Machine

/-! ## A ring at a record (R173, R179) -/

section Record
variable (s : State)

theorem State.modBell_bell (off : Nat) (f : BellRec → BellRec) : (s.modBell off f).bell off = f (s.bell off) := FMap.get_put _ _ _ _

theorem State.modBell_bell_ne {off o : Nat} (f : BellRec → BellRec) (h : o ≠ off) : (s.modBell off f).bell o = s.bell o :=
  FMap.get_put_ne _ _ _ _ _ h

theorem State.progressIn_bell (i : Option Nat) (o : Nat) : (s.progressIn i).bell o = s.bell o := by cases i <;> rfl

/-- The record that a SET or an ADD leaves (R176, R179). -/
def BellRec.rung (b : BellRec) (now : Word64) (r : HeldRing) : BellRec :=
  { b with value := (ringValue r.add b.value r.value).1, full := true, overflow := b.overflow || (ringValue r.add b.value r.value).2,
           lastHall := now, lastFig := r.figIdx, lastCtx := r.ctx, lastEngine := r.engine,
           doubleFill := if b.full then sat16 b.doubleFill else b.doubleFill }

theorem ringValue_fst (add : Bool) (old v : Word64) : (ringValue add old v).1 = if add then old + v else v := by
  unfold ringValue
  split <;> rfl

theorem ringValue_snd (add : Bool) (old v : Word64) : (ringValue add old v).2 = (add && decide (2 ^ 64 ≤ old.toNat + v.toNat)) := by
  cases add <;> rfl

/-- The record after a ring, each field written out as R176 and R179 give it. -/
theorem BellRec.rung_eq (b : BellRec) (now : Word64) (r : HeldRing) : b.rung now r = { b with
    value := if r.add then b.value + r.value else r.value, full := true,
    overflow := b.overflow || (r.add && decide (2 ^ 64 ≤ b.value.toNat + r.value.toNat)),
    lastHall := now, lastFig := r.figIdx, lastCtx := r.ctx, lastEngine := r.engine,
    doubleFill := if b.full ∧ b.doubleFill ≠ 0xFFFF then b.doubleFill + 1 else b.doubleFill } := by
  have hdouble : (if b.full then sat16 b.doubleFill else b.doubleFill) =
      if b.full ∧ b.doubleFill ≠ 0xFFFF then b.doubleFill + 1 else b.doubleFill := by
    cases b.full <;> simp [sat16]
  rw [rung, ringValue_fst, ringValue_snd, hdouble]

/-- A remote ring with its record's rung state, before any waiter wakes. -/
def State.rungBy (r : HeldRing) : State := (s.ringRecord r.offset r.add r.value r.engine r.ctx r.figIdx).2

variable (r : HeldRing)

theorem State.rungBy_bell : (s.rungBy r).bell r.offset = (s.bell r.offset).rung s.hall r :=
  (progressIn_bell _ _ _).trans (s.modBell_bell _ _)

theorem State.rungBy_bell_ne {o : Nat} (h : o ≠ r.offset) : (s.rungBy r).bell o = s.bell o :=
  (progressIn_bell _ _ _).trans (s.modBell_bell_ne _ h)

/-- A ring changes its Bell and the Suite's progress, and nothing else. -/
theorem State.rungBy_eq : s.rungBy r = { s with cellar := { s.cellar with bells := (s.rungBy r).cellar.bells }, suites := (s.rungBy r).suites } := by
  unfold rungBy ringRecord
  cases s.suiteAt r.offset <;> rfl

/-- A Bell on which nobody waits wakes nobody (R182). -/
theorem State.wakeBell_of_noWaiters {c o : Nat} (h : (s.bell o).waiters = []) : s.wakeBell c (.virt o) = s := by
  simp [wakeBell, waitersOf, h, overList_nil]

end Record

section Apply
variable {s : State} {r : HeldRing}

theorem State.applyRemote_of_allowed (hcheck : s.recordCheck r.tenant.toNat r.offset = none) (hwaiters : (s.bell r.offset).waiters = []) :
    s.applyRemote r = s.rungBy r := by
  have hkept : ((s.rungBy r).bell r.offset).waiters = [] := by rw [rungBy_bell]; exact hwaiters
  rw [applyRemote, hcheck]
  exact wakeBell_of_noWaiters _ hkept

theorem State.countService_parts (u : State) (st d : Nat) :
    (u.countService st d).cellar = u.cellar ∧ (u.countService st d).ctxs = u.ctxs ∧ (u.countService st d).rings = u.rings := by
  unfold countService countTarget
  split
  · split <;> exact ⟨rfl, rfl, rfl⟩
  · exact ⟨rfl, rfl, rfl⟩

/-- A ring that may not ring its record changes no Bell: it is recorded, or counted at the part in service (R173, R467). -/
theorem State.applyRemote_of_refused (hcheck : s.recordCheck r.tenant.toNat r.offset ≠ none) :
    (s.applyRemote r).cellar = s.cellar ∧ (s.applyRemote r).ctxs = s.ctxs ∧ (s.applyRemote r).rings = s.rings := by
  obtain ⟨st, hst⟩ := Option.ne_none_iff_exists'.mp hcheck
  rw [applyRemote, hst]
  dsimp only
  split
  · exact ⟨record_cellar _ _, record_ctxs _ _, record_rings _ _⟩
  · exact countService_parts _ _ _

theorem State.ringArrived_of_clearing {c : Nat} (h : s.clearingFor r.offset = some c) :
    s.ringArrived r = { s with rings := s.rings ++ [{ r with clearing := some c }] } := by rw [ringArrived, h]

theorem State.ringArrived_of_free (h : s.clearingFor r.offset = none) : s.ringArrived r = s.applyRemote r := by rw [ringArrived, h]

end Apply

/-! ## REMOTE_BELL_RING (R22, R188) -/

section Receive
variable {s : State} {p : Fin 36} {f : List Byte} (hup : (s.port p.val).state = .up) (hready : s.isReady = true) (ha : s.asleep = false)
  (hok : ctlOk 0x02 f = true)
include hup hready ha hok

/-- At a Ready engine whose port is Up a well-formed ring has its credit returned, and is relayed, or taken at its home. -/
theorem exec_remoteBellRing_of_ready : exec (.remoteBellRing p f) s = .next (if le f 20 1 ≠ s.engineId then (s.returnCredits p.val 0 1).relayRing p.val f
    else if s.marksMet (s.ringOf p.val f false) then (s.returnCredits p.val 0 1).ringArrived (s.ringOf p.val f false)
    else { s.returnCredits p.val 0 1 with rings := s.rings ++ [s.ringOf p.val f false] }) := by
  have hready' : (s.returnCredits p.val 0 1).isReady = true := hready
  change execRemoteBellRing p f s = _
  rw [execRemoteBellRing, State.fabricIn_of_awake ha]
  simp only [State.portUp_of_up hup, Bool.not_true, Bool.false_eq_true, if_false, hok, hready', State.returnCredits_port_state, hup,
    State.returnCredits_engineId, bne_self_eq_false]
  rw [apply_ite Host.Outcome.next, apply_ite Host.Outcome.next]
  rfl

theorem exec_remoteBellRing_of_home (hhome : le f 20 1 = s.engineId) (hmet : s.marksMet (s.ringOf p.val f false) = true) :
    exec (.remoteBellRing p f) s = .next ((s.returnCredits p.val 0 1).ringArrived (s.ringOf p.val f false)) := by
  rw [exec_remoteBellRing_of_ready hup hready ha hok, if_neg (not_not.mpr hhome), if_pos hmet]

theorem exec_remoteBellRing_of_away (hhome : le f 20 1 ≠ s.engineId) :
    exec (.remoteBellRing p f) s = .next ((s.returnCredits p.val 0 1).relayRing p.val f) := by
  rw [exec_remoteBellRing_of_ready hup hready ha hok, if_pos hhome]

end Receive

section Relay
variable (s : State) (p : Nat) {f : List Byte}

/-- The ring that an engine passes on, and what it is behind, do not depend on the credit that its port returns. -/
theorem State.returnCredits_relayRing : (s.returnCredits p 0 1).relayRing p f =
    if !(s.ringOf p f true).behind.isEmpty then { s.returnCredits p 0 1 with rings := s.rings ++ [s.ringOf p f true] }
    else match s.chunkBefore (s.ringOf p f true) (le f 20 1) with
      | some (q, flow) => (s.returnCredits p 0 1).queueFlow q flow 3 f
      | none => match s.lowestUp (s.forwardPorts true 0 (le f 20 1)) with
        | some q => (s.returnCredits p 0 1).queue q 0 3 f
        | none => (s.returnCredits p 0 1).countPort p (fun k => { k with unroutable := satInc k.unroutable }) := by
  have hlowest : (s.returnCredits p 0 1).lowestUp ((s.returnCredits p 0 1).forwardPorts true 0 (le f 20 1)) =
      s.lowestUp (s.forwardPorts true 0 (le f 20 1)) := by
    simp only [lowestUp, returnCredits_port_state, returnCredits_forwardPorts]
  rw [relayRing, hlowest]
  rfl

theorem State.returnCredits_port_vc0 (vc n q : Nat) : ((s.returnCredits p vc n).port q).vc0 = (s.port q).vc0 := by
  obtain ⟨l, hl⟩ := s.returnCredits_port (p := p) (vc := vc) (n := n) q
  rw [hl]

theorem State.queueFlow_vc0 (q flow kind : Nat) (b : List Byte) : ((s.queueFlow q flow kind b).port q).vc0 = (s.port q).vc0 ++ [⟨kind, b, flow⟩] := by
  simp [queueFlow]

end Relay

/-! ## REMOTE_RING_MARKS_MET (R189, R225) -/

section Met
variable {s : State} {n : Nat} {r : HeldRing} (hring : s.rings[n]? = some r)
include hring

theorem exec_remoteRingMarksMet_of_ring : exec (.remoteRingMarksMet n) s =
    if r.lost then .next { s with rings := s.rings.eraseIdx n }
    else if r.clearing.isSome || r.onward.isSome || !s.marksMet r then .next s
    else .next (({ s with rings := s.rings.eraseIdx n } : State).ringArrived r) := by
  change execRemoteRingMarksMet n s = _
  rw [execRemoteRingMarksMet, hring]

/-- A ring whose marks are met is taken from those that wait, and arrives. -/
theorem exec_remoteRingMarksMet_of_met (hlost : r.lost = false) (hclearing : r.clearing = none) (honward : r.onward = none)
    (hmet : s.marksMet r = true) (hfree : s.clearingFor r.offset = none) :
    exec (.remoteRingMarksMet n) s = .next (({ s with rings := s.rings.eraseIdx n } : State).applyRemote r) := by
  rw [exec_remoteRingMarksMet_of_ring hring, ← State.ringArrived_of_free (s := { s with rings := s.rings.eraseIdx n }) hfree]
  simp [hlost, hclearing, honward, hmet]

end Met

/-- Settles O53: a ring at its home finds the record as it was before its credit went back, so each clause is one outcome of `applyRemote`. -/
theorem remoteRings : Obligations.RemoteRings := by
  unfold Obligations.RemoteRings
  refine fun s => ⟨fun p f hup hready ha hok => ⟨fun hhome => ?_, fun haway => ?_⟩, fun n r hring => ⟨fun hlost => ?_, fun hlost hwaits => ?_,
    fun hlost hclearing honward hmet hfree hcheck hwaiters => ?_, fun hlost hclearing honward hmet hfree hcheck => ?_⟩⟩
  · refine ⟨fun hmet hfree hcheck hwaiters => ⟨_, exec_remoteBellRing_of_home hup hready ha hok hhome hmet, ?_⟩,
      fun hmet hfree hcheck => ⟨_, exec_remoteBellRing_of_home hup hready ha hok hhome hmet, ?_⟩,
      fun c hmet hclearing => ⟨_, exec_remoteBellRing_of_home hup hready ha hok hhome hmet, ?_⟩, fun hmet => ⟨{ s.returnCredits p.val 0 1 with rings := _ }, ?_, rfl, rfl, rfl⟩⟩
    · rw [State.ringArrived_of_free (s := s.returnCredits p.val 0 1) hfree, State.applyRemote_of_allowed (s := s.returnCredits p.val 0 1) hcheck hwaiters]
      refine ⟨?_, fun o ho => State.rungBy_bell_ne _ _ ho, ?_, ?_, ?_⟩
      · rw [State.rungBy_bell]
        exact BellRec.rung_eq _ _ _
      all_goals rw [State.rungBy_eq]; rfl
    · rw [State.ringArrived_of_free (s := s.returnCredits p.val 0 1) hfree]
      exact State.applyRemote_of_refused (s := s.returnCredits p.val 0 1) hcheck
    · rw [State.ringArrived_of_clearing (s := s.returnCredits p.val 0 1) hclearing]
      exact ⟨rfl, rfl, rfl⟩
    · rw [exec_remoteBellRing_of_ready hup hready ha hok, if_neg (not_not.mpr hhome), if_neg (by simp [hmet])]
  · intro r
    refine ⟨fun hbehind => ⟨_, exec_remoteBellRing_of_away hup hready ha hok haway, ?_⟩,
      fun q flow hnone hbefore => ⟨_, exec_remoteBellRing_of_away hup hready ha hok haway, ?_⟩,
      fun q hnone hbefore hport => ⟨_, ⟨3, f, vc0Flow ((s.returnCredits p.val 0 1).port q).vc0 3 f⟩, exec_remoteBellRing_of_away hup hready ha hok haway, ?_⟩,
      fun hnone hbefore hport => ⟨_, exec_remoteBellRing_of_away hup hready ha hok haway, ?_⟩⟩
    · rw [State.returnCredits_relayRing, if_pos (by simpa using hbehind)]
      exact ⟨rfl, rfl, rfl⟩
    · rw [State.returnCredits_relayRing, if_neg (by simp [r, hnone]), hbefore]
      exact ⟨by rw [State.queueFlow_vc0, State.returnCredits_port_vc0], rfl, rfl, rfl⟩
    · rw [State.returnCredits_relayRing, if_neg (by simp [r, hnone]), hbefore, hport]
      exact ⟨(State.queueFlow_vc0 _ _ _ _ _).trans (by rw [State.returnCredits_port_vc0]), rfl, rfl, rfl, rfl⟩
    · rw [State.returnCredits_relayRing, if_neg (by simp [r, hnone]), hbefore, hport]
      exact ⟨by rw [State.countPort_cnt, State.returnCredits_port_cnt], rfl, rfl, rfl⟩
  · rw [exec_remoteRingMarksMet_of_ring hring, if_pos hlost]
  · rw [exec_remoteRingMarksMet_of_ring hring, if_neg (by simp [hlost]), if_pos]
    simpa [Option.isSome_iff_ne_none, or_assoc] using hwaits
  · refine ⟨_, exec_remoteRingMarksMet_of_met hring hlost hclearing honward hmet hfree, ?_⟩
    rw [State.applyRemote_of_allowed (s := { s with rings := s.rings.eraseIdx n }) hcheck hwaiters]
    refine ⟨by rw [State.rungBy_eq], ?_, ?_, fun o ho => State.rungBy_bell_ne _ _ ho, by rw [State.rungBy_eq]⟩
    · rw [State.rungBy_bell]; rfl
    · rw [State.rungBy_bell]
      exact ringValue_fst _ _ _
  · refine ⟨_, exec_remoteRingMarksMet_of_met hring hlost hclearing honward hmet hfree, ?_⟩
    obtain ⟨hcellar, hctxs, hrings⟩ := State.applyRemote_of_refused (s := { s with rings := s.rings.eraseIdx n }) hcheck
    exact ⟨hrings, hcellar, hctxs⟩

end Sys2Proof.Machine
end

section
/-! What settling can do to the state at all, as a chain of single updates: contexts that hold something, writes toward hosts, flits, progress of Suites,
the groups' aborts, Bells, records, and what a flight frees. What every such update keeps, settling keeps (O14, O30, O41 and O54 rest on it). -/

namespace Sys2Proof.Machine

/-! ## The updates -/

/-- The context has nothing in flight and neither runs nor drains. -/
def Context.Quiet (x : Context) : Prop := x.flights = [] ∧ x.live = false ∧ x.drains = false

/-- A host block without its posted writes, and what counts them. -/
def HostPort.writeless (x : HostPort) : HostPort :=
  { x with path := [], heldWrites := [], pathSince := 0, droppedWrites := 0, pba := [], targetResets := 0 }

/-- From `x` to `y` the block has at most taken or dropped writes; only one that serves takes them (R403, R409). -/
def HostPort.Wrote (x y : HostPort) : Prop :=
  y.writeless = x.writeless ∧ (x.state ≠ .serving → y.path = x.path)

/-- A group without its aborts and the root's count. -/
def Group.abortless (x : Group) : Group := { x with seen := [], rootSeq := 0, arrived := [] }

/-- A Suite without its progress (R200). -/
def Suite.still (x : Suite) : Suite := { x with progressAt := 0, stallTold := false }

/-- One update of settling. It changes contexts of `K` alone, and a group's record of aborts only where peers are `told` (R161). -/
inductive SettleStep (K : Nat → Prop) (told : Prop) : State → State → Prop
  | ctx (s : State) (n : Nat) (x : Context) : K n → SettleStep K told s (s.putCtx n x)
  | host (s : State) (n : Nat) (x : HostPort) : (s.host n).Wrote x → SettleStep K told s (s.putHost n x)
  | port (s : State) (n : Nat) (x : FabPort) : SettleStep K told s (s.putPort n x)
  | suite (s : State) (n : Nat) (x : Suite) : x.still = (s.suite n).still → SettleStep K told s (s.putSuite n x)
  | grp (s : State) (n : Nat) (x : Group) : told → x.abortless = (s.grp n).abortless → SettleStep K told s (s.putGrp n x)
  | bell (s : State) (off : Nat) (f : BellRec → BellRec) : SettleStep K told s (s.modBell off f)
  | record (s : State) (a : RecArgs) : SettleStep K told s (s.record a)
  | wake (s : State) : SettleStep K told s s.wake
  | counted (s : State) (m : FMap Word32) : SettleStep K told s { s with svc := { s.svc with targetResets := m } }
  | freed (s : State) (c : Nat) (f : Flight) : SettleStep K told s (s.freeFlight c f)

/-- A chain of such updates. -/
def Settles (K : Nat → Prop) (told : Prop) : State → State → Prop := Relation.ReflTransGen (SettleStep K told)

/-- Outside `K` every context is quiet. -/
def QuietOff (K : Nat → Prop) (s : State) : Prop := ∀ n, ¬ K n → (s.ctx n).Quiet

namespace Settles

variable {K : Nat → Prop} {told : Prop} {s t u : State}

theorem refl (s : State) : Settles K told s s := Relation.ReflTransGen.refl
theorem single (h : SettleStep K told s t) : Settles K told s t := Relation.ReflTransGen.single h
theorem trans (h : Settles K told s t) (k : Settles K told t u) : Settles K told s u := Relation.ReflTransGen.trans h k

/-- What no update changes, no chain changes. -/
theorem frame {β : Type} (p : State → β) (hp : ∀ {a b : State}, SettleStep K told a b → p b = p a) (h : Settles K told s t) : p t = p s := by
  induction h with
  | refl => rfl
  | tail _ hstep ih => exact (hp hstep).trans ih

theorem ctx (h : Settles K told s t) {n : Nat} (hn : ¬ K n) : t.ctx n = s.ctx n := by
  refine h.frame (fun u => u.ctx n) fun hstep => ?_
  cases hstep with
  | ctx m x hm => exact State.putCtx_ctx_ne _ x fun heq : n = m => hn (heq ▸ hm)
  | record a => exact State.record_ctx _ a n
  | wake => rw [State.ctx, State.wake_ctxs, State.ctx]
  | freed c f => rw [State.ctx, State.freeFlight_ctxs, State.ctx]
  | _ => rfl

theorem quietOff (h : Settles K told s t) (hq : QuietOff K s) : QuietOff K t := fun n hn => (h.ctx hn).symm ▸ hq n hn

theorem overList {α : Type} {f : State → α → State} (l : List α) (hf : ∀ u, Settles K told s u → ∀ x ∈ l, Settles K told u (f u x)) :
    Settles K told s (Machine.overList f l s) := by
  have hover (l : List α) (u : State) (hu : Settles K told s u) (hf : ∀ u, Settles K told s u → ∀ x ∈ l, Settles K told u (f u x)) :
      Settles K told u (Machine.overList f l u) := by
    induction l generalizing u with
    | nil => exact refl u
    | cons x l ih =>
      have hx := hf u hu x List.mem_cons_self
      exact hx.trans (ih _ (hu.trans hx) fun v hv y hy => hf v hv y (List.mem_cons_of_mem x hy))
  exact hover l s (refl s) hf

theorem ite {c : Prop} [Decidable c] (ht : c → Settles K told s t) (hu : ¬ c → Settles K told s u) : Settles K told s (if c then t else u) := by
  split
  next hc => exact ht hc
  next hc => exact hu hc

end Settles

/-! ## Writes, flits and counts are chains of updates -/

section Posts
variable {K : Nat → Prop} {told : Prop} (s : State)

theorem State.post_settles (h : Nat) (w : HostWrite) : Settles K told s (s.post h w) := by
  unfold post
  dsimp only
  split
  next hserving => exact .single (.host s h _ ⟨rfl, fun hno => absurd (by simpa using hserving) hno⟩)
  next => exact .single (.host s h _ ⟨rfl, fun _ => rfl⟩)

theorem State.msix_settles (h v : Nat) : Settles K told s (s.msix h v) := by
  unfold msix
  dsimp only
  split
  · split
    · exact .single (.host s h _ ⟨rfl, fun _ => rfl⟩)
    · exact .refl s
  · split
    · exact .single (.host s h _ ⟨rfl, fun _ => rfl⟩)
    · exact s.post_settles h _

theorem State.progressIn_settles (i : Option Nat) : Settles K told s (s.progressIn i) := by
  cases i with
  | none => exact .refl s
  | some i => exact .single (.suite s i _ rfl)

theorem State.countService_settles (st d : Nat) : Settles K told s (s.countService st d) := by
  unfold countService countTarget
  split
  · split
    · exact .single (.host s _ _ ⟨rfl, fun _ => rfl⟩)
    · exact .single (.counted s _)
  · exact .refl s

theorem State.sendCtl_settles (i type : Nat) (l : List (Nat × Nat × Nat)) : Settles K told s (s.sendCtl i type l) := by
  unfold sendCtl queue queueFlow
  split
  · split <;> exact .single (.port s _ _)
  · exact .refl s

theorem Group.dropCount_abortless (x : Group) (b : Bool) {l : List KeptAbort} (key : Nat) :
    (Group.dropCount { x with seen := l } b key).abortless = x.abortless := by
  unfold dropCount
  split <;> rfl

theorem State.peerAbort_settles (ht : told) (g : Nat) (e : List Byte) (key : Nat) (barrier : Bool) (status : Nat) :
    Settles K told s (s.peerAbort g e key barrier status) := by
  unfold peerAbort
  dsimp only
  split
  · exact .refl s
  · exact .trans (.single (.grp s g _ ht (Group.dropCount_abortless _ _ _))) (.overList _ fun u _ i _ => u.sendCtl_settles i _ _)

theorem State.tellPeers_settles (ht : told) (f : Flight) (status : Nat) : Settles K told s (s.tellPeers f status) := by
  unfold tellPeers
  split
  · exact s.peerAbort_settles ht _ _ _ _ _
  · exact .refl s

theorem State.statusRecord_settles (c : Nat) (f : Flight) (d : Done) : Settles K told s (s.statusRecord c f d) := by
  have hrecord (a : RecArgs) : Settles K told s (s.record a) := .single (.record s a)
  unfold statusRecord
  exact .ite (fun _ => hrecord _) fun _ => .ite (fun _ => hrecord _) fun _ => .ite (fun _ => hrecord _) fun _ => .refl s

end Posts

/-! ## A flight ends, and leaves its context -/

section Leave
variable {K : Nat → Prop} {told : Prop} (s : State) {c : Nat} (hc : K c)
include hc

theorem State.modCtx_settles (f : Context → Context) : Settles K told s (s.modCtx c f) := .single (.ctx s c _ hc)

theorem State.endFlight_settles (fid : Nat) (d : Done) : Settles K told s (s.endFlight c fid d) := by
  unfold endFlight
  split
  · exact .ite (fun _ => .refl s) fun _ => .trans (.single (.freed s c _)) (modCtx_settles _ hc _)
  · exact .refl s

theorem State.failFlight_settles (ht : told) (fid : Nat) (d : Done) : Settles K told s (s.failFlight c fid d) := by
  unfold failFlight
  split
  · exact .ite (fun _ => .refl s) fun _ => (s.tellPeers_settles ht _ _).trans (endFlight_settles _ hc _ _)
  · exact .refl s

theorem State.abortFlight_settles (ht : told) (fid : Nat) : Settles K told s (s.abortFlight c fid) := by
  unfold abortFlight
  split
  · exact .ite (fun _ => (s.tellPeers_settles ht _ _).trans (modCtx_settles _ hc _)) fun _ => s.failFlight_settles hc ht _ _
  · exact .refl s

theorem State.cancelAll_settles (ht : told) : Settles K told s (s.cancelAll c) := .overList _ fun u _ f _ => u.abortFlight_settles hc ht f.fid

theorem State.writeEntry_chain (f : Flight) (d : Done) : Settles K told s (s.writeEntry c f d) := by
  unfold writeEntry
  exact .ite (fun _ => (s.post_settles _ _).trans (modCtx_settles _ hc _)) fun _ => .single (.host s _ _ ⟨rfl, fun _ => rfl⟩)

theorem State.failGroup_chain (f : Flight) : Settles K told s (s.failGroup c f) := by
  unfold failGroup
  split
  · exact .refl s
  · exact .overList _ fun u _ y _ => .trans (.ite (fun _ => .refl u) fun _ => .single (.freed u c y)) (modCtx_settles _ hc _)

theorem State.delivered_chain (f : Flight) (d : Done) : Settles K told s (s.delivered c f d) := by
  have hentry : Settles K told s (if f.takesEntry d then s.writeEntry c f d else s) := .ite (fun _ => s.writeEntry_chain hc f d) fun _ => .refl s
  have hvector (u : State) : Settles K told u (if f.irq then u.ctxVector c else u) := .ite (fun _ => u.msix_settles _ _) fun _ => .refl u
  have hgroup (u : State) : Settles K told u (if okStatus d.status then u else u.failGroup c f) := .ite (fun _ => .refl u) fun _ => u.failGroup_chain hc f
  unfold delivered
  exact hentry.trans ((hvector _).trans ((statusRecord_settles _ c f d).trans (hgroup _)))

theorem State.complete_chain (f : Flight) (d : Done) : Settles K told s (s.complete c f d) := by
  rw [complete_eq]
  exact (s.delivered_chain hc f _).trans ((modCtx_settles _ hc _).trans (progressIn_settles _ _))

theorem retire_chain (n : Nat) : Settles K told s (retire c n s) := by
  induction n generalizing s with
  | zero => exact .refl s
  | succ n ih =>
    rw [retire]
    split
    · exact (s.complete_chain hc _ _).trans (ih _)
    · exact .refl s

theorem State.drainEnd_chain : Settles K told s (s.drainEnd c) := by
  obtain h | ⟨x, -, h | h | h⟩ := s.drainEnd_cases c
  · rw [h]; exact .refl s
  · rw [h]; exact .single (.ctx s c x hc)
  · rw [h]; exact .trans (.single (.ctx s c x hc)) (msix_settles _ _ _)
  · rw [h]; exact .trans (.single (.ctx s c x hc)) (.single (.wake _))

theorem State.refresh_chain : Settles K told s (s.refresh c) := by
  obtain h | ⟨st, h⟩ := s.refresh_eq c
  · rw [h]; exact .refl s
  · rw [h]; exact .single (.ctx s c _ hc)

theorem State.ringLocal_settles (id : Nat) (add : Bool) (v : Word64) : Settles K told s (s.ringLocal c id add v).2 :=
  (s.modCtx_settles hc _).trans (progressIn_settles _ _)

theorem State.takeBell_settles (b : BellRef) (result : Nat) : Settles K told s (s.takeBell c b result) := by
  unfold takeBell
  refine .trans ?_ ((modCtx_settles _ hc _).trans (progressIn_settles _ _))
  split
  · exact s.modCtx_settles hc _
  · exact .trans (.single (.bell s _ _)) (progressIn_settles _ _)
  · exact .refl s

end Leave

/-! ## A context settles -/

section Quiet
variable {s : State} {c : Nat} (h : (s.ctx c).Quiet)
include h

theorem State.settleFlights_of_quiet : s.settleFlights c = s := by
  obtain ⟨hflights, hlive, hdrains⟩ := h
  have hdrain : s.drainEnd c = s := by simp [drainEnd, hdrains]
  rw [s.settleFlights_of_noFlights c hflights, hdrain]
  simp [refresh, hlive]

theorem State.settle_of_quiet : s.settle c = s := by
  rw [s.settle_of_allDone c (Context.allDone_of_noFlights h.1), settleFlights_of_quiet h, settleFlights_of_quiet h]

end Quiet

section Settle
variable {K : Nat → Prop} {told : Prop} (s : State) (hq : QuietOff K s)
include hq

theorem State.settleFlights_chain (c : Nat) : Settles K told s (s.settleFlights c) := by
  by_cases hc : K c
  · exact (retire_chain s hc _).trans ((drainEnd_chain _ hc).trans (refresh_chain _ hc))
  · rw [settleFlights_of_quiet (hq c hc)]
    exact .refl s

/-- A flight of a context is met only in a context of `K`. -/
theorem QuietOff.overFlights {α : Type} (p : State → Nat → List α) (hp : ∀ u w, (u.ctx w).flights = [] → p u w = []) {f : State → Nat → α → State}
    (hf : ∀ (u : State) w x, K w → Settles K told u (f u w x)) (w : Nat) : Settles K told s (overList (fun u x => f u w x) (p s w) s) := by
  by_cases hw : K w
  · exact .overList _ fun u _ x _ => hf u w x hw
  · rw [hp s w (hq w hw).1]
    exact .refl s

theorem State.failWhere_settles (ht : told) (q : Nat → Flight → Bool) (status detail : Nat) : Settles K told s (s.failWhere q status detail) := by
  refine .overList _ fun u hu c _ => ?_
  exact QuietOff.overFlights u (hu.quietOff hq) (fun u c => (u.ctx c).flights) (fun _ _ hnone => hnone)
    (f := fun v c f => if f.done.isNone && q c f then v.failFlight c f.fid { status := status, detail := BitVec.ofNat 32 detail } else v)
    (fun v w f hw => .ite (fun _ => v.failFlight_settles hw ht _ _) fun _ => .refl v) c

theorem State.wakeBell_settles (c : Nat) (b : BellRef) : Settles K told s (s.wakeBell c b) := by
  have hwaits (ws : List Nat) (st : Bool × Word64) : Settles K told s (overList (fun s w => overList (fun s f =>
      if f.waitMet b st.1 st.2 then s.endFlight w f.fid { status := 0 } else s) (s.ctx w).flights s) ws s) :=
    .overList _ fun u hu w _ => QuietOff.overFlights u (hu.quietOff hq) (fun u w => (u.ctx w).flights) (fun _ _ hnone => hnone)
      (f := fun v w f => if f.waitMet b st.1 st.2 then v.endFlight w f.fid { status := 0 } else v)
      (fun v w f hw => .ite (fun _ => v.endFlight_settles hw _ _) fun _ => .refl v) w
  unfold wakeBell
  dsimp only
  generalize hu : overList _ _ s = u
  have hsu : Settles K told s u := hu ▸ hwaits _ _
  have htaken : Settles K told u (if (s.bellState c b).1 = true then
      (match (s.waitersOf c b).findSome? (fun w => ((u.ctx w).flights.findSome? (fun f => (f.takes b).map (fun r => (f.fid, r)))).map (fun p => (w, p))) with
       | some (w, fid, r) => (u.takeBell w b r).endFlight w fid { status := 0 }
       | none => u)
      else u) := by
    refine .ite (fun _ => ?_) fun _ => .refl u
    split
    next w fid r hfind =>
      obtain ⟨w', -, htakes⟩ := List.exists_of_findSome?_eq_some hfind
      obtain ⟨p, hp, hpair⟩ := Option.map_eq_some_iff.mp htakes
      obtain ⟨rfl, -⟩ := Prod.mk.inj hpair
      have hw : K w' := by
        by_contra hno
        rw [(hsu.quietOff hq w' hno).1] at hp
        cases hp
      exact (u.takeBell_settles hw b r).trans (endFlight_settles _ hw fid _)
    next => exact .refl u
  refine hsu.trans (htaken.trans (.overList _ fun v hv w _ => v.settleFlights_chain (hv.quietOff ((hsu.trans htaken).quietOff hq)) w))

theorem State.ringGo_settles {c : Nat} (hc : K c) (f : Flight) : Settles K told s (s.ringGo c f) := by
  unfold ringGo
  split
  next b add v _ =>
    refine .ite (fun _ => .refl s) fun _ => ?_
    cases b with
    | loc id =>
      have hrung := (s.ringLocal_settles (told := told) hc id add v).trans (endFlight_settles _ hc f.fid { status := (s.ringLocal c id add v).1 })
      exact hrung.trans (wakeBell_settles _ (hrung.quietOff hq) c _)
    | virt o =>
      dsimp only
      split
      · refine .trans ?_ ((countService_settles _ _ _).trans (endFlight_settles _ hc _ _))
        exact .ite (fun _ => .single (.record s _)) fun _ => .refl s
      · have hrung : Settles K told s (s.ringRecord o add v s.engineId c f.idx).2 := .trans (.single (.bell s o _)) (progressIn_settles _ _)
        have hended := hrung.trans (endFlight_settles _ hc f.fid { status := (s.ringRecord o add v s.engineId c f.idx).1 })
        exact hended.trans (wakeBell_settles _ (hended.quietOff hq) c _)
    | away home off =>
      dsimp only
      split
      · exact .refl s
      · exact .trans (.single (.port s _ _)) (modCtx_settles _ hc _)
  · exact .refl s

theorem State.ringsGo_settles (c : Nat) : Settles K told s (s.ringsGo c) := by
  by_cases hc : K c
  · exact .overList _ fun u hu f _ => u.ringGo_settles (hu.quietOff hq) hc f
  · rw [s.ringsGo_of_allDone c (Context.allDone_of_noFlights (hq c hc).1)]
    exact .refl s

theorem State.settle_settles (c : Nat) : Settles K told s (s.settle c) := by
  have h1 := s.ringsGo_settles (told := told) hq c
  have h2 := h1.trans (settleFlights_chain _ (h1.quietOff hq) c)
  have h3 := h2.trans (ringsGo_settles _ (h2.quietOff hq) c)
  exact h3.trans (settleFlights_chain _ (h3.quietOff hq) c)

theorem State.settleAll_settles : Settles K told s s.settleAll := .overList _ fun u hu c _ => u.settle_settles (hu.quietOff hq) c

theorem State.abortCtx_settles {c : Nat} (hc : K c) (ht : told) (r : StopReason) : Settles K told s (s.abortCtx c r) := by
  have habort (u : State) (hu : Settles K told s u) : Settles K told u ((u.cancelAll c).settle c) :=
    (u.cancelAll_settles hc ht).trans (settle_settles _ ((hu.trans (u.cancelAll_settles hc ht)).quietOff hq) c)
  obtain h | h | ⟨x, -, h⟩ := s.abortCtx_cases c r
  · rw [h]; exact .refl s
  · rw [h]; exact habort s (.refl s)
  · have hput : Settles K told s (s.putCtx c x) := .single (.ctx s c x hc)
    rw [h]; exact hput.trans (habort _ hput)

end Settle

end Sys2Proof.Machine
end

section
/-! Settling O54: control flits on VC1, along an edge, to the children of a tree and along every edge. -/

namespace Sys2Proof.Machine

/-! ## One flit (R386) -/

section Edge
variable (s : State)

/-- A control flit that carries a type of VC1 joins that queue of its port, and no other port's. -/
theorem State.sendCtl_vc1_length {p type : Nat} (l : List (Nat × Nat × Nat)) (hup : s.portUp p = true) (hvc : ctlVC type = some 1) (q : Nat) :
    ((s.sendCtl p type l).port q).vc1.length = (s.port q).vc1.length + if p = q then 1 else 0 := by
  rw [sendCtl, if_pos hup, hvc]
  change ((s.modPort p _).port q).vc1.length = _
  rw [modPort_eq, putPort_port]
  obtain rfl | hq := eq_or_ne q p
  · simp
  · simp [hq, hq.symm]

theorem State.portUp_of_lowestUp {ports : List Nat} {p : Nat} (h : s.lowestUp ports = some p) : s.portUp p = true :=
  portUp_of_up (by simpa using List.find?_some h)

/-- A flit toward a tree neighbour leaves on the lowest Up port of the edge, or nowhere. -/
theorem State.sendEdge_vc1_length (ports : List Nat) {type : Nat} (l : List (Nat × Nat × Nat)) (hvc : ctlVC type = some 1) (q : Nat) :
    ((s.sendEdge ports type l).port q).vc1.length = (s.port q).vc1.length + if s.lowestUp ports = some q then 1 else 0 := by
  unfold sendEdge
  split
  next p hp => simp only [s.sendCtl_vc1_length l (s.portUp_of_lowestUp hp) hvc q, hp, Option.some.injEq]
  next hnone => simp [hnone]

@[simp] theorem State.sendEdge_lowestUp (ports : List Nat) (type : Nat) (l : List (Nat × Nat × Nat)) (ps : List Nat) :
    (s.sendEdge ports type l).lowestUp ps = s.lowestUp ps := by
  unfold sendEdge
  split
  · simp [lowestUp]
  · rfl

theorem State.sendEdge_frame {β : Type} (p : State → β) (hport : ∀ s i x, p (State.putPort s i x) = p s) (ports : List Nat) (type : Nat)
    (l : List (Nat × Nat × Nat)) : p (s.sendEdge ports type l) = p s := by
  unfold sendEdge
  split
  · exact s.sendCtl_frame p hport _ _ _
  · rfl

end Edge

/-! ## A flit to every child, up the plane, and on every edge (R161, R192, R210) -/

section Edges
variable {β : Type} (p : State → β) (hport : ∀ s i x, p (State.putPort s i x) = p s)
include hport

theorem State.toChildren_frame (s : State) (e : List Byte) (type : Nat) (l : List (Nat × Nat × Nat)) : p (s.toChildren e type l) = p s :=
  overList_frame p (fun u _ => u.sendEdge_frame p hport _ _ _) _ s

theorem State.relayUp_frame (s : State) (i : Nat) (e : List Byte) (type : Nat) (f : List Byte) : p (s.relayUp i e type f) = p s := by
  unfold relayUp
  split
  · exact s.sendEdge_frame p hport _ _ _
  · rfl

theorem State.floodAbort_frame (s : State) (g : Nat) (e : List Byte) (k : KeptAbort) (skip : Option Nat) : p (s.floodAbort g e k skip) = p s :=
  overList_frame p (fun u i => u.sendCtl_frame p hport i _ _) _ s

end Edges

/-- Over each port a release leaves once for each child whose lowest Up port it is. -/
theorem State.toChildren_vc1_length (s : State) (e : List Byte) {type : Nat} (l : List (Nat × Nat × Nat)) (hvc : ctlVC type = some 1) (q : Nat) :
    ((s.toChildren e type l).port q).vc1.length = (s.port q).vc1.length +
      ((List.range (geChildren e false)).filter (fun i => s.lowestUp (gePorts e false (i + 1)) == some q)).length := by
  have hover (is : List Nat) (u : State) (hu : ∀ ps, u.lowestUp ps = s.lowestUp ps) :
      ((overList (fun s i => s.sendEdge (gePorts e false (i + 1)) type l) is u).port q).vc1.length =
        (u.port q).vc1.length + (is.filter (fun i => s.lowestUp (gePorts e false (i + 1)) == some q)).length := by
    induction is generalizing u with
    | nil => rfl
    | cons i is ih =>
      rw [overList_cons, ih _ (fun ps => by rw [sendEdge_lowestUp, hu]), u.sendEdge_vc1_length _ _ hvc, hu, List.filter_cons]
      split_ifs with h h' h'
      · simp only [List.length_cons]; omega
      · simp [h] at h'
      · simp [beq_iff_eq.mp h'] at h
      · omega
  exact hover _ s fun _ => rfl

/-! ## What a VC1 flit finds once its credit is back -/

section Credit
variable (s : State) (p vc n : Nat)

theorem State.returnCredits_port_vc1 (q : Nat) : ((s.returnCredits p vc n).port q).vc1 = (s.port q).vc1 := by
  obtain ⟨l, hl⟩ := s.returnCredits_port (p := p) (vc := vc) (n := n) q
  rw [hl]

theorem State.returnCredits_lowestUp (ps : List Nat) : (s.returnCredits p vc n).lowestUp ps = s.lowestUp ps := by
  simp [lowestUp]

theorem State.returnCredits_vc1_length (q : Nat) : ((s.returnCredits p vc n).port q).vc1.length = (s.port q).vc1.length :=
  congrArg List.length (s.returnCredits_port_vc1 p vc n q)

end Credit

end Sys2Proof.Machine
end

section
/-! Settling O54: what a Figure that is alone in its context leads to once it has its result, a failing one or a success. -/

namespace Sys2Proof.Machine

/-! ## Alone, and stopped, in states that share what these say (R120, R133) -/

theorem Alone.of_keeps {s t : State} {c : Nat} {w : Flight} (h : AbortKeeps c s t) (hctx : t.ctx c = s.ctx c) (ha : Alone s c w) : Alone t c w := by
  obtain ⟨hflights, hdone, hlive, hlatched, hroom⟩ := ha
  exact ⟨by rw [hctx, hflights], hdone, by rw [hctx, hlive], by rw [hctx, hlatched], (h.ringRoom (by rw [hctx]) (by rw [hctx])).trans hroom⟩

theorem AbortKeeps.of_parts {s t : State} (c : Nat) (hctxs : t.ctxs = s.ctxs) (hconfig : t.hearth.config = s.hearth.config)
    (hsuites : t.suites = s.suites) (hhosts : t.hosts = s.hosts) : AbortKeeps c s t :=
  ⟨fun d _ => by rw [State.ctx, hctxs, State.ctx], hconfig, hsuites, fun h => by rw [State.host, hhosts, State.host]⟩

theorem StoppedBy.of_ctx {s u t : State} {c st : Nat} (hctx : u.ctx c = s.ctx c) (hmem : u.cellar.mem = s.cellar.mem) (h : StoppedBy u t c st) :
    StoppedBy s t c st := by
  unfold StoppedBy at h ⊢
  rwa [hctx, hmem] at h

section Ends
variable {s : State} {c : Nat} {w : Flight}

theorem State.endFlight_ctx_of_only (d : Done) (h : (s.ctx c).flights = [w]) (hdone : w.done = none) :
    (s.endFlight c w.fid d).ctx c = (s.ctx c).onlyDone w d := by
  have hfree : (s.freeFlight c w).ctx c = s.ctx c := by rw [ctx, freeFlight_ctxs, ← ctx]
  simp [endFlight, Context.flight_of_only h, hdone, hfree, Context.modFlight, h, Context.onlyDone, Flight.withResult]

theorem State.endFlight_ringRoom (d : Done) (h : (s.ctx c).flights = [w]) (hdone : w.done = none) :
    (s.endFlight c w.fid d).ringRoom c = s.ringRoom c := by
  have hctx := s.endFlight_ctx_of_only d h hdone
  exact (s.endFlight_abortKeeps c w.fid d).ringRoom (by rw [hctx]; rfl) (by rw [hctx]; rfl)

/-- A Figure alone in its context that takes a failing result stops the context (R120). -/
theorem State.ended_stops (d : Done) (h : Alone s c w) (hd : okStatus d.status = false) :
    StoppedBy s ((s.endFlight c w.fid d).settle c) c d.status := by
  obtain ⟨hflights, hdone, hlive, hlatched, hroom⟩ := h
  have hctx := s.endFlight_ctx_of_only d hflights hdone
  have hsettled := (s.endFlight c w.fid d).settle_ctx_of_failed c (g := w.withResult d) (d := d) (by rw [hctx]; rfl) rfl
    (by rw [hctx]; exact hlive) hd (by rw [hctx]; exact hlatched) ((s.endFlight_ringRoom d hflights hdone).trans hroom)
  rw [hctx] at hsettled
  obtain ⟨hnone, hlast, hst, hreason, hindex, hpc⟩ := hsettled
  exact ⟨hnone, hlast, hst, hreason, hindex, hpc, (settleFrame_cellarMem.settle _ c).trans (settleFrame_cellarMem.endFlight s c w.fid d)⟩

end Ends

/-! ## A BARRIER completes, and its context runs on (R117, R192) -/

section Completes
variable {c : Nat} {g : Flight} {grp gen o : Nat} {q : Word32} {target : Option Word64} {wire : Bool}

/-- A BARRIER that completes leaves its context at its place in the Card. -/
theorem Context.left_of_barrier (x : Context) (hkind : g.kind = .barrier grp gen q o target wire) :
    (x.left g doneOk).live = x.live ∧ (x.left g doneOk).pc = x.pc := by
  have hcoll (y : Context) : (y.collDone g doneOk).live = y.live ∧ (y.collDone g doneOk).pc = y.pc := by
    unfold collDone
    split <;> exact ⟨rfl, rfl⟩
  have hleft : x.left g doneOk = ({ x with flights := x.flights.filter (fun y => y.fid != g.fid) } : Context).collDone g doneOk := by
    simp only [left, hkind]
    rfl
  rw [hleft]
  exact hcoll _

theorem Context.finalDone_of_barrier (x : Context) (hkind : g.kind = .barrier grp gen q o target wire) : x.finalDone g doneOk = doneOk := by
  simp [finalDone, hkind, doneOk, okStatus]

variable (s : State)

theorem State.complete_ctx_of_barrier (hflights : (s.ctx c).flights = [g]) (hkind : g.kind = .barrier grp gen q o target wire)
    (hlive : (s.ctx c).live = true) : let x := (s.complete c g doneOk).ctx c
    x.flights = [] ∧ x.live = true ∧ x.pc = (s.ctx c).pc := by
  rw [complete_eq, Context.finalDone_of_barrier _ hkind]
  dsimp only
  rw [progressIn_ctx, modCtx_eq, putCtx_ctx_self]
  obtain ⟨tail, used, phase, hctx⟩ := s.delivered_ctx_of_alone c doneOk hflights
  rw [hctx]
  obtain ⟨hstays, hpc⟩ := Context.left_of_barrier ((s.ctx c).withRing tail used phase) hkind
  refine ⟨?_, hstays.trans hlive, hpc⟩
  rw [Context.left_flights]
  simp [Context.withRing, hflights]

/-- A context that runs with nothing in flight only turns between Running and Waiting when it settles (R137). -/
theorem State.settleFlights_ctx_of_live (hflights : (s.ctx c).flights = []) (hlive : (s.ctx c).live = true) :
    let x := (s.settleFlights c).ctx c
    x.flights = [] ∧ x.live = true ∧ x.pc = (s.ctx c).pc := by
  have hdrains : (s.ctx c).drains = false := by
    obtain h | h : (s.ctx c).state = .running ∨ (s.ctx c).state = .waiting := by simpa [Context.live] using hlive
    all_goals simp [Context.drains, h]
  have hdrain : s.drainEnd c = s := by simp [drainEnd, hdrains]
  dsimp only
  rw [s.settleFlights_of_noFlights c hflights, hdrain, refresh, if_pos hlive, putCtx_ctx_self]
  refine ⟨hflights, ?_, rfl⟩
  split <;> rfl

/-- A BARRIER alone in its context leaves it once it has completed, and the context goes on behind it. -/
theorem State.barrierCompletes {w : Flight} (h : Alone s c w) (hkind : w.kind = .barrier grp gen q o target wire) :
    let x := ((s.endFlight c w.fid doneOk).settle c).ctx c
    x.flights = [] ∧ x.pc = (s.ctx c).pc := by
  obtain ⟨hflights, hdone, hlive, -, hroom⟩ := h
  have hctx := s.endFlight_ctx_of_only doneOk hflights hdone
  have hroom' := (s.endFlight_ringRoom doneOk hflights hdone).trans hroom
  generalize s.endFlight c w.fid doneOk = u at hctx hroom'
  have hu : (u.ctx c).flights = [w.withResult doneOk] := by rw [hctx]; rfl
  obtain ⟨hnone, hlive', hpc⟩ := u.complete_ctx_of_barrier hu hkind (by rw [hctx]; exact hlive)
  have hretire (n : Nat) : retire c (n + 1) u = u.complete c (w.withResult doneOk) doneOk := by
    rw [retire, u.readyFlight_of_failed c hu rfl hroom']
    exact retire_of_noFlights _ c n hnone
  have hfirst : u.settleFlights c = (u.complete c (w.withResult doneOk) doneOk).settleFlights c := by
    rw [settleFlights_of_noFlights _ c hnone, settleFlights, hretire]
  obtain ⟨hnone1, hlive1, hpc1⟩ := settleFlights_ctx_of_live _ hnone hlive'
  obtain ⟨hnone2, -, hpc2⟩ := settleFlights_ctx_of_live _ hnone1 hlive1
  have hall : (u.ctx c).allDone := by
    rw [Context.allDone, hu]
    simp [Flight.withResult]
  rw [u.settle_of_allDone c hall, hfirst]
  exact ⟨hnone2, by rw [hpc2, hpc1, hpc, hctx]; rfl⟩

end Completes

/-! ## What settling leaves of the groups and of the late releases -/

theorem settleFrame_lateRelease : SettleFrame (fun s => s.hearth.lateRelease) where
  ctx _ _ _ := rfl
  host _ _ _ _ := rfl
  port _ _ _ := rfl
  suite _ _ _ := rfl
  grp _ _ _ := rfl
  bell _ _ _ := rfl
  record s a := by simp
  wake s := by unfold State.wake; split <;> rfl
  service _ _ := rfl
  freed s c f := by
    obtain ⟨cellar, hwaiter⟩ := s.clearWaiter_eq c f.kind
    unfold State.freeFlight State.dropWire
    rw [hwaiter]
    dsimp only
    split <;> rfl

theorem State.freeFlight_groups (s : State) (c : Nat) (f : Flight) : (s.freeFlight c f).groups = s.groups :=
  State.freeFlight_frame State.groups (fun _ _ => rfl) (fun _ _ => rfl) (fun _ _ => rfl) (fun _ _ _ _ _ _ _ _ => rfl) s c f

/-- Settling in which no peer is told leaves every group. -/
theorem Settles.groups {K : Nat → Prop} {s t : State} (h : Settles K False s t) : t.groups = s.groups := by
  refine h.frame State.groups fun hstep => ?_
  cases hstep with
  | grp n x htold => exact htold.elim
  | record a => exact State.record_groups _ a
  | wake => unfold State.wake; split <;> rfl
  | freed c f => exact State.freeFlight_groups _ c f
  | _ => rfl

/-- A Figure that ends, with what settling its context does then, leaves every group. -/
theorem State.endFlight_settle_groups (s : State) (c fid : Nat) (d : Done) : ((s.endFlight c fid d).settle c).groups = s.groups := by
  have hquiet (u : State) : QuietOff (fun _ => True) u := fun _ hno => absurd trivial hno
  exact ((s.endFlight_settles trivial fid d).trans (settle_settles _ (hquiet _) c)).groups

end Sys2Proof.Machine
end

section
/-! Settling O54: how BARRIER_ARRIVAL, BARRIER_RELEASE and PEER_ABORT are taken, and what has no effect (R161, R192, R210, R217, log 40). -/

namespace Sys2Proof.Machine

@[simp] theorem State.returnCredits_isReady (s : State) (p vc n : Nat) : (s.returnCredits p vc n).isReady = s.isReady := rfl

@[simp] theorem State.returnCredits_grp (s : State) (p vc n g : Nat) : (s.returnCredits p vc n).grp g = s.grp g := rfl

/-- How the three take their flit: its credit goes back, and a well-formed one for a group with an entry does `act` on a Ready engine. -/
def State.groupFlit (s : State) (p type : Nat) (f : List Byte) (act : State → List Byte → Out) : Out :=
  let r := s.ctlIn p 1 type f
  if !r.2 || !r.1.isReady then .next r.1
  else match (r.1.grp (le f 2 2)).entry with
    | none => .next r.1
    | some e => act r.1 e

section Flit
variable {s : State} {p type : Nat} {f : List Byte} (hup : s.portUp p = true) (act : State → List Byte → Out)
include hup

theorem State.groupFlit_of_bad (hbad : ctlOk type f = false) : s.groupFlit p type f act = .next ((s.returnCredits p 1 1).badControl p) := by
  simp [groupFlit, ctlIn, hup, hbad]

theorem State.groupFlit_of_idle (hok : ctlOk type f = true) (hidle : s.isReady = false ∨ (s.grp (le f 2 2)).entry = none) :
    s.groupFlit p type f act = .next (s.returnCredits p 1 1) := by
  simp only [groupFlit, ctlIn, hup, hok, Bool.not_true, Bool.false_eq_true, if_false, Bool.false_or, returnCredits_isReady, returnCredits_grp]
  obtain hno | hno := hidle
  · simp [hno]
  · simp [hno]

theorem State.groupFlit_of_entry (hok : ctlOk type f = true) (hready : s.isReady = true) {e : List Byte} (he : (s.grp (le f 2 2)).entry = some e) :
    s.groupFlit p type f act = act (s.returnCredits p 1 1) e := by
  simp [groupFlit, ctlIn, hup, hok, hready, he]

end Flit

/-! ## The three commands (R192, R210, R217, R370) -/

/-- A BARRIER_ARRIVAL at an engine with the entry `e`. -/
def arrivalTaken (p : Nat) (f : List Byte) (s : State) (e : List Byte) : Out :=
  let g := le f 2 2
  if geGen e ≠ le f 4 2 then .next (s.wrongGen g)
  else if geTransitOnly e then .next (s.relayUp p e 0x10 f)
  else if geRoot e false = s.engineId then .next (s.countArrival g (le f 6 4) (le f 18 1) e)
  else .next (s.toParent e 0x10 [(2, 2, g), (4, 2, geGen e), (6, 4, le f 6 4), (10, 8, le f 10 8), (18, 1, le f 18 1)])

/-- A BARRIER_RELEASE at an engine with the entry `e`. -/
def releaseTaken (p : Nat) (f : List Byte) (s : State) (e : List Byte) : Out :=
  if geGen e ≠ le f 4 2 then .next s
  else if geTransitOnly e then .next (s.relayUp p e 0x11 f)
  else .next (s.release (le f 2 2) (le f 6 4) (le f 18 1) e (BitVec.ofNat 64 (le f 10 8)))

/-- The abort that a PEER_ABORT names (R369). -/
def abortOf (f : List Byte) : KeptAbort := ⟨le f 4 2, le f 6 4, le f 10 1, bit (le f 11 1) 0, le f 12 1⟩

/-- The group has noted an abort, and the abort has gone on (R161, R370). -/
def State.noted (s : State) (p : Nat) (f : List Byte) (e : List Byte) : State :=
  let t := s.modGrp (le f 2 2) (fun x => ({ x with seen := x.seen ++ [abortOf f] }).dropCount (abortOf f).barrier (abortOf f).key)
  if geTransitOnly e then t.relayUp p e 0x12 f else t.floodAbort (le f 2 2) e (abortOf f) (some p)

/-- The Figure that an abort names is over here: its sequence number or its epoch has issued under this entry (log 39). -/
def Group.past (x : Group) (k : KeptAbort) : Bool := if k.barrier then decide (k.key < x.barrierSeq.toNat) else x.issued.contains k.key

/-- A PEER_ABORT at an engine with the entry `e`. -/
def abortTaken (p : Nat) (f : List Byte) (s : State) (e : List Byte) : Out :=
  let g := le f 2 2
  let k := abortOf f
  if (s.grp g).seen.contains k then .next s
  else
    let t := s.noted p f e
    match t.abortNames g k with
    | some (c, fid) => .next ((t.endFlight c fid { status := 0x33, detail := BitVec.ofNat 32 k.engine }).settle c)
    | none => if (t.grp g).past k then .next t else .next (t.modGrp g (fun x => { x with kept := x.kept ++ [k] }))

section Commands
variable {s : State} {p : Fin 36} {f : List Byte} (ha : s.asleep = false)
include ha

theorem exec_barrierArrival : exec (.barrierArrival p f) s = s.groupFlit p.val 0x10 f (arrivalTaken p.val f) := by
  change execBarrierArrival p f s = _
  exact (State.fabricIn_of_awake ha _ _ _).trans rfl

theorem exec_barrierRelease : exec (.barrierRelease p f) s = s.groupFlit p.val 0x11 f (releaseTaken p.val f) := by
  change execBarrierRelease p f s = _
  exact (State.fabricIn_of_awake ha _ _ _).trans rfl

theorem exec_peerAbort : exec (.peerAbort p f) s = s.groupFlit p.val 0x12 f (abortTaken p.val f) := by
  change execPeerAbort p f s = _
  exact (State.fabricIn_of_awake ha _ _ _).trans rfl

/-- Each of the three commands, with its type, takes its flit so. -/
theorem exec_groupFlit {cmd : Instr} {type : Nat}
    (hcmd : (cmd, type) ∈ [(Instr.barrierArrival p f, 0x10), (Instr.barrierRelease p f, 0x11), (Instr.peerAbort p f, 0x12)]) :
    ∃ act, exec cmd s = s.groupFlit p.val type f act := by
  simp only [List.mem_cons, List.not_mem_nil, or_false, Prod.mk.injEq] at hcmd
  obtain ⟨rfl, rfl⟩ | ⟨rfl, rfl⟩ | ⟨rfl, rfl⟩ := hcmd
  · exact ⟨_, exec_barrierArrival ha⟩
  · exact ⟨_, exec_barrierRelease ha⟩
  · exact ⟨_, exec_peerAbort ha⟩

end Commands

/-! ## The root counts and releases (R191, R192, R194) -/

section Root
variable {s : State} {g seq eng : Nat} {e : List Byte}

theorem State.countArrival_of_few (hseq : (s.grp g).rootSeq.toNat = seq) (hfew : (insertNat eng (s.grp g).arrived).length < geEngines e) :
    s.countArrival g seq eng e = s.modGrp g (fun y => { y with arrived := insertNat eng (s.grp g).arrived }) := by
  simp [countArrival, hseq, hfew]

theorem State.countArrival_of_last (hseq : (s.grp g).rootSeq.toNat = seq) (hall : geEngines e ≤ (insertNat eng (s.grp g).arrived).length) :
    s.countArrival g seq eng e = (s.modGrp g (fun y => { y with rootSeq := y.rootSeq + 1, arrived := [] })).release g seq s.engineId e
      (s.hall + BitVec.ofNat 64 (geLead e)) := by
  simp [countArrival, hseq, Nat.not_lt.mpr hall]

theorem State.countArrival_of_other (hseq : (s.grp g).rootSeq.toNat ≠ seq) : s.countArrival g seq eng e = s.failBarrier g seq eng e := by
  simp [countArrival, hseq]

variable {gen : Nat} {t : Word64}

theorem State.takeRelease_of_none (h : s.barrierOn g = none) : s.takeRelease g gen seq t = s := by rw [takeRelease, h]

variable {c : Nat} {w : Flight} {n o : Nat} {q : Word32} {target : Option Word64} {wire : Bool} (hon : s.barrierOn g = some (c, w))
include hon

/-- A release names the BARRIER of its generation and sequence that waits on the network for its release. -/
theorem State.takeRelease_of_other (hkind : w.kind = .barrier g n q o target wire)
    (hno : n ≠ gen ∨ q.toNat ≠ seq ∨ target ≠ none ∨ wire = true) : s.takeRelease g gen seq t = s := by
  rw [takeRelease, hon]
  dsimp only
  rw [hkind]
  cases target with
  | some v => rfl
  | none =>
    cases wire with
    | true => rfl
    | false =>
      have hdiffers : n ≠ gen ∨ q.toNat ≠ seq := by simpa using hno
      exact if_pos hdiffers

theorem State.takeRelease_of_named (hkind : w.kind = .barrier g gen q o none false) (hseq : q.toNat = seq) :
    s.takeRelease g gen seq t = if t.toNat < s.hall.toNat then
        (({ s with hearth := { s.hearth with lateRelease := satInc s.hearth.lateRelease } } : State).endFlight c w.fid doneOk).settle c
      else s.modFlight c w.fid (fun f => f.setTarget t) := by
  rw [takeRelease, hon]
  dsimp only
  rw [hkind]
  exact if_neg (by simp [hseq])

end Root

end Sys2Proof.Machine
end

section
/-! Settling O54: a barrier that fails at its root, an abort that a group notes, and the obligation. -/

namespace Sys2Proof.Machine

/-! ## What a BARRIER or an abort finds does not depend on ports and groups -/

section Found
variable {s t : State} (h : t.ctxs = s.ctxs)
include h

theorem State.barrierOn_of_ctxs (g : Nat) : t.barrierOn g = s.barrierOn g := by rw [barrierOn, h, barrierOn]

theorem State.abortNames_of_ctxs (g : Nat) (k : KeptAbort) : t.abortNames g k = s.abortNames g k := by rw [abortNames, h, abortNames]

theorem State.ctx_of_ctxs (c : Nat) : t.ctx c = s.ctx c := by rw [ctx, h, ctx]

end Found

/-! ## The root fails a barrier (R194) -/

/-- The abort that the root sends for one sequence number is noted, and goes to every neighbour. -/
def State.tellFailed (s : State) (g eng : Nat) (e : List Byte) (key : Nat) : State :=
  (s.modGrp g (fun y => { y with seen := y.seen ++ [⟨geGen e, key, eng, true, 0x33⟩] })).floodAbort g e ⟨geGen e, key, eng, true, 0x33⟩ none

/-- The root has recorded the arrival, told its peers about both sequence numbers, and counts the next one. -/
def State.barrierFailed (s : State) (g seq eng : Nat) (e : List Byte) : State :=
  (((s.record { event := 0x0305, severity := 2, unitClass := 0x0D, unitIndex := eng }).tellFailed g eng e (s.grp g).rootSeq.toNat).tellFailed g eng e
    seq).modGrp g (fun y => { y with rootSeq := y.rootSeq + 1, arrived := [] })

section Failed
variable (s : State) (g seq eng : Nat) (e : List Byte)

theorem State.failBarrier_eq : s.failBarrier g seq eng e = match (s.barrierFailed g seq eng e).barrierOn g with
    | some (c, f) => ((s.barrierFailed g seq eng e).endFlight c f.fid { status := 0x33, detail := BitVec.ofNat 32 eng }).settle c
    | none => s.barrierFailed g seq eng e := rfl

/-- Beside the record only flits and the group's own fields follow. -/
theorem State.barrierFailed_frame {β : Type} (p : State → β) (hport : ∀ s i x, p (State.putPort s i x) = p s)
    (hgrp : ∀ s g x, p (State.putGrp s g x) = p s) : p (s.barrierFailed g seq eng e) =
      p (s.record { event := 0x0305, severity := 2, unitClass := 0x0D, unitIndex := eng }) := by
  have htell (u : State) (key : Nat) : p (u.tellFailed g eng e key) = p u := (floodAbort_frame p hport _ _ _ _ _).trans (hgrp _ _ _)
  exact (hgrp _ _ _).trans ((htell _ _).trans (htell _ _))

theorem State.barrierFailed_grp : ((s.barrierFailed g seq eng e).grp g).rootSeq = (s.grp g).rootSeq + 1 ∧
    ((s.barrierFailed g seq eng e).grp g).arrived = [] := by
  have htell (u : State) (key : Nat) : ((u.tellFailed g eng e key).grp g).rootSeq = (u.grp g).rootSeq := by
    refine (floodAbort_frame (fun v => (v.grp g).rootSeq) (fun _ _ _ => rfl) _ _ _ _ _).trans ?_
    simp
  rw [barrierFailed, modGrp_eq, putGrp_grp_self]
  exact ⟨by rw [htell, htell, record_grp], rfl⟩

theorem State.barrierFailed_ctxs : (s.barrierFailed g seq eng e).ctxs = s.ctxs :=
  (s.barrierFailed_frame g seq eng e State.ctxs (fun _ _ _ => rfl) (fun _ _ _ => rfl)).trans (record_ctxs _ _)

theorem State.barrierFailed_cellar : (s.barrierFailed g seq eng e).cellar = s.cellar :=
  (s.barrierFailed_frame g seq eng e State.cellar (fun _ _ _ => rfl) (fun _ _ _ => rfl)).trans (record_cellar _ _)

theorem State.barrierFailed_log : (s.barrierFailed g seq eng e).log = (s.logOccurrence ⟨0x0305, 2, 0x0D, eng, none, 0, 0⟩).1 :=
  (s.barrierFailed_frame g seq eng e State.log (fun _ _ _ => rfl) (fun _ _ _ => rfl)).trans (record_log _ _)

theorem State.barrierFailed_abortKeeps (c : Nat) : AbortKeeps c s (s.barrierFailed g seq eng e) :=
  .of_parts c (s.barrierFailed_ctxs g seq eng e)
    ((s.barrierFailed_frame g seq eng e (fun u => u.hearth.config) (fun _ _ _ => rfl) (fun _ _ _ => rfl)).trans (record_hearth_config _ _))
    ((s.barrierFailed_frame g seq eng e State.suites (fun _ _ _ => rfl) (fun _ _ _ => rfl)).trans (record_suites _ _))
    ((s.barrierFailed_frame g seq eng e State.hosts (fun _ _ _ => rfl) (fun _ _ _ => rfl)).trans (record_hosts _ _))

theorem State.failBarrier_of_none (h : s.barrierOn g = none) : s.failBarrier g seq eng e = s.barrierFailed g seq eng e := by
  rw [failBarrier_eq, barrierOn_of_ctxs (s.barrierFailed_ctxs g seq eng e), h]

/-- The BARRIER in flight at the root of a failed barrier stops its context, and the root goes on to the next sequence number. -/
theorem State.failBarrier_stops {c : Nat} {w : Flight} (h : s.barrierOn g = some (c, w)) (ha : Alone s c w) :
    StoppedBy s (s.failBarrier g seq eng e) c 0x33 ∧ ((s.failBarrier g seq eng e).grp g).rootSeq = (s.grp g).rootSeq + 1 := by
  have hctx := ctx_of_ctxs (s.barrierFailed_ctxs g seq eng e) c
  rw [failBarrier_eq, barrierOn_of_ctxs (s.barrierFailed_ctxs g seq eng e), h]
  refine ⟨.of_ctx hctx (by rw [barrierFailed_cellar]) (ended_stops _ (ha.of_keeps (s.barrierFailed_abortKeeps g seq eng e c) hctx) rfl), ?_⟩
  rw [grp, endFlight_settle_groups]
  exact (s.barrierFailed_grp g seq eng e).1

end Failed

/-! ## A group notes an abort (R161, R370) -/

section Noted
variable (s : State) (p : Nat) (f e : List Byte)

theorem State.noted_frame {β : Type} (v : State → β) (hport : ∀ s i x, v (State.putPort s i x) = v s)
    (hgrp : ∀ s g x, v (State.putGrp s g x) = v s) : v (s.noted p f e) = v s := by
  unfold noted
  dsimp only
  split
  · exact (relayUp_frame v hport _ _ _ _ _).trans (hgrp _ _ _)
  · exact (floodAbort_frame v hport _ _ _ _ _).trans (hgrp _ _ _)

theorem Group.dropCount_eq (x : Group) (barrier : Bool) (key : Nat) : ∃ r a, x.dropCount barrier key = { x with rootSeq := r, arrived := a } := by
  unfold dropCount
  split
  · exact ⟨_, _, rfl⟩
  · exact ⟨x.rootSeq, x.arrived, rfl⟩

theorem State.noted_grp : ∃ r a, (s.noted p f e).grp (le f 2 2) =
    { s.grp (le f 2 2) with seen := (s.grp (le f 2 2)).seen ++ [abortOf f], rootSeq := r, arrived := a } := by
  obtain ⟨r, a, hdrop⟩ := Group.dropCount_eq { s.grp (le f 2 2) with seen := (s.grp (le f 2 2)).seen ++ [abortOf f] } (abortOf f).barrier (abortOf f).key
  refine ⟨r, a, ?_⟩
  rw [← hdrop]
  unfold noted
  dsimp only
  split
  · exact (relayUp_frame (fun u => u.grp (le f 2 2)) (fun _ _ _ => rfl) _ _ _ _ _).trans (putGrp_grp_self _ _ _)
  · exact (floodAbort_frame (fun u => u.grp (le f 2 2)) (fun _ _ _ => rfl) _ _ _ _ _).trans (putGrp_grp_self _ _ _)

theorem State.noted_ctxs : (s.noted p f e).ctxs = s.ctxs := s.noted_frame p f e State.ctxs (fun _ _ _ => rfl) (fun _ _ _ => rfl)

theorem State.noted_cellar : (s.noted p f e).cellar = s.cellar := s.noted_frame p f e State.cellar (fun _ _ _ => rfl) (fun _ _ _ => rfl)

theorem State.noted_abortKeeps (c : Nat) : AbortKeeps c s (s.noted p f e) :=
  .of_parts c (s.noted_ctxs p f e) (s.noted_frame p f e (fun u => u.hearth.config) (fun _ _ _ => rfl) (fun _ _ _ => rfl))
    (s.noted_frame p f e State.suites (fun _ _ _ => rfl) (fun _ _ _ => rfl)) (s.noted_frame p f e State.hosts (fun _ _ _ => rfl) (fun _ _ _ => rfl))

end Noted

section Abort
variable {s : State} {p : Nat} {f e : List Byte}

theorem abortTaken_of_seen (h : abortOf f ∈ (s.grp (le f 2 2)).seen) : abortTaken p f s e = .next s := by
  simp [abortTaken, h]

/-- A new abort that names no Figure here is noted, and kept unless what it names is over. -/
theorem abortTaken_of_none (hnew : abortOf f ∉ (s.grp (le f 2 2)).seen) (hnone : s.abortNames (le f 2 2) (abortOf f) = none) :
    ∃ t, abortTaken p f s e = .next t ∧ (t.grp (le f 2 2)).seen = (s.grp (le f 2 2)).seen ++ [abortOf f] ∧ t.ctxs = s.ctxs ∧ t.cellar = s.cellar ∧
      (t.grp (le f 2 2)).kept = if (s.grp (le f 2 2)).past (abortOf f) then (s.grp (le f 2 2)).kept else (s.grp (le f 2 2)).kept ++ [abortOf f] := by
  obtain ⟨r, a, hgrp⟩ := s.noted_grp p f e
  have hpast : ((s.noted p f e).grp (le f 2 2)).past (abortOf f) = (s.grp (le f 2 2)).past (abortOf f) := by rw [hgrp]; rfl
  have hnames := (State.abortNames_of_ctxs (s.noted_ctxs p f e) (le f 2 2) (abortOf f)).trans hnone
  by_cases hover : (s.grp (le f 2 2)).past (abortOf f) = true
  · refine ⟨s.noted p f e, ?_, by rw [hgrp], s.noted_ctxs p f e, s.noted_cellar p f e, by rw [hgrp, if_pos hover]⟩
    simp [abortTaken, hnew, hnames, hpast, hover]
  · refine ⟨(s.noted p f e).modGrp (le f 2 2) (fun x => { x with kept := x.kept ++ [abortOf f] }), ?_, ?_, s.noted_ctxs p f e, s.noted_cellar p f e, ?_⟩
    · simp [abortTaken, hnew, hnames, hpast, hover]
    · rw [State.modGrp_eq, State.putGrp_grp_self, hgrp]
    · rw [State.modGrp_eq, State.putGrp_grp_self, hgrp, if_neg hover]

/-- A new abort completes the Figure that it names with 0x33, and is noted. -/
theorem abortTaken_of_some {c : Nat} {w : Flight} (hnew : abortOf f ∉ (s.grp (le f 2 2)).seen)
    (hnames : s.abortNames (le f 2 2) (abortOf f) = some (c, w.fid)) (ha : Alone s c w) :
    ∃ t, abortTaken p f s e = .next t ∧ StoppedBy s t c 0x33 ∧ abortOf f ∈ (t.grp (le f 2 2)).seen := by
  have hctx := State.ctx_of_ctxs (s.noted_ctxs p f e) c
  have hnames' := (State.abortNames_of_ctxs (s.noted_ctxs p f e) (le f 2 2) (abortOf f)).trans hnames
  obtain ⟨r, a, hgrp⟩ := s.noted_grp p f e
  refine ⟨_, ?_, .of_ctx hctx (by rw [State.noted_cellar]) (State.ended_stops { status := 0x33, detail := BitVec.ofNat 32 (abortOf f).engine }
    (ha.of_keeps (s.noted_abortKeeps p f e c) hctx) rfl), ?_⟩
  · simp [abortTaken, hnew, hnames']
  · rw [State.grp, State.endFlight_settle_groups, ← State.grp, hgrp]
    simp

end Abort

/-! ## The release of a group (R192, R193) -/

section Release
variable {s : State} {g seq root : Nat} {e : List Byte} {t : Word64} {c : Nat} {w : Flight} {n o : Nat} {q : Word32}

/-- The release has gone to the children, before this engine takes it. -/
def State.releasing (s : State) (g seq root : Nat) (e : List Byte) (t : Word64) : State :=
  s.toChildren e 0x11 [(2, 2, g), (4, 2, geGen e), (6, 4, seq), (10, 8, t.toNat), (18, 1, root)]

theorem State.releasing_frame {β : Type} (p : State → β) (hport : ∀ s i x, p (State.putPort s i x) = p s) : p (s.releasing g seq root e t) = p s :=
  toChildren_frame p hport s e _ _

theorem State.releasing_ctxs : (s.releasing g seq root e t).ctxs = s.ctxs := releasing_frame State.ctxs fun _ _ _ => rfl

theorem State.release_of_none (h : s.barrierOn g = none) : s.release g seq root e t = s.releasing g seq root e t :=
  takeRelease_of_none ((barrierOn_of_ctxs releasing_ctxs g).trans h)

theorem State.release_of_other {target : Option Word64} {wire : Bool} (hon : s.barrierOn g = some (c, w))
    (hkind : w.kind = .barrier g n q o target wire) (hno : n ≠ geGen e ∨ q.toNat ≠ seq ∨ target ≠ none ∨ wire = true) :
    s.release g seq root e t = s.releasing g seq root e t :=
  takeRelease_of_other ((barrierOn_of_ctxs releasing_ctxs g).trans hon) hkind hno

theorem Flight.setTarget_of_barrier {gen : Nat} (hkind : w.kind = .barrier g gen q o none false) :
    w.setTarget t = { w with kind := .barrier g gen q o (some t) false } := by simp [setTarget, hkind]

variable (hon : s.barrierOn g = some (c, w)) (hkind : w.kind = .barrier g (geGen e) q o none false) (hseq : q.toNat = seq)
include hon hkind hseq

/-- A release whose target has not passed sets the target of the BARRIER that it names. -/
theorem State.release_of_ahead (hahead : s.hall.toNat ≤ t.toNat) :
    s.release g seq root e t = (s.releasing g seq root e t).modFlight c w.fid (fun f => f.setTarget t) := by
  have hhall : (s.releasing g seq root e t).hall = s.hall := releasing_frame State.hall fun _ _ _ => rfl
  refine (takeRelease_of_named ((barrierOn_of_ctxs releasing_ctxs g).trans hon) hkind hseq).trans (if_neg ?_)
  rw [hhall]
  omega

theorem State.release_ahead_flights (hahead : s.hall.toNat ≤ t.toNat) (hflights : (s.ctx c).flights = [w]) :
    ((s.release g seq root e t).ctx c).flights = [{ w with kind := .barrier g (geGen e) q o (some t) false }] := by
  rw [release_of_ahead hon hkind hseq hahead, modFlight_flights (by rw [ctx_of_ctxs releasing_ctxs, hflights]), Flight.setTarget_of_barrier hkind]

theorem State.release_ahead_frame (hahead : s.hall.toNat ≤ t.toNat) {β : Type} (p : State → β) (hport : ∀ s i x, p (State.putPort s i x) = p s)
    (hctx : ∀ s n x, p (State.putCtx s n x) = p s) : p (s.release g seq root e t) = p s := by
  rw [release_of_ahead hon hkind hseq hahead]
  exact (hctx _ _ _).trans (releasing_frame p hport)

/-- A release whose target has passed completes the BARRIER at once, and counts as late (R193). -/
theorem State.release_of_late (hlate : t.toNat < s.hall.toNat) (ha : Alone s c w) : let v := s.release g seq root e t
    (v.ctx c).flights = [] ∧ (v.ctx c).pc = (s.ctx c).pc ∧ v.hearth.lateRelease = satInc s.hearth.lateRelease ∧ v.cellar.mem = s.cellar.mem := by
  have hframe {β : Type} (p : State → β) (hport : ∀ s i x, p (State.putPort s i x) = p s) : p (s.releasing g seq root e t) = p s := releasing_frame p hport
  have htaken := takeRelease_of_named (t := t) ((barrierOn_of_ctxs (releasing_ctxs (s := s) (g := g) (seq := seq) (root := root) (e := e) (t := t)) g).trans hon) hkind hseq
  have hrelease : s.release g seq root e t = _ := htaken
  dsimp only
  rw [hrelease, if_pos (by rw [hframe State.hall fun _ _ _ => rfl]; exact hlate)]
  generalize hu : ({ s.releasing g seq root e t with hearth := { (s.releasing g seq root e t).hearth with
    lateRelease := satInc (s.releasing g seq root e t).hearth.lateRelease } } : State) = u
  have hctxs : u.ctxs = s.ctxs := hu ▸ hframe State.ctxs fun _ _ _ => rfl
  have hkeeps : AbortKeeps c s u := .of_parts c hctxs (hu ▸ hframe (fun v => v.hearth.config) fun _ _ _ => rfl)
    (hu ▸ hframe State.suites fun _ _ _ => rfl) (hu ▸ hframe State.hosts fun _ _ _ => rfl)
  have hcount : u.hearth.lateRelease = satInc s.hearth.lateRelease := by
    rw [← hu]
    exact congrArg satInc (hframe (fun v => v.hearth.lateRelease) fun _ _ _ => rfl)
  have hmem : u.cellar.mem = s.cellar.mem := hu ▸ hframe (fun v => v.cellar.mem) fun _ _ _ => rfl
  obtain ⟨hnone, hpc⟩ := u.barrierCompletes (ha.of_keeps hkeeps (ctx_of_ctxs hctxs c)) hkind
  exact ⟨hnone, hpc.trans (by rw [ctx_of_ctxs hctxs]),
    (settleFrame_lateRelease.settle _ c).trans ((settleFrame_lateRelease.endFlight u c w.fid doneOk).trans hcount),
    (settleFrame_cellarMem.settle _ c).trans ((settleFrame_cellarMem.endFlight u c w.fid doneOk).trans hmem)⟩

end Release

end Sys2Proof.Machine
end

section
/-! Settling O54: the clauses, from the rules for arrivals, releases and aborts. -/

namespace Sys2Proof.Machine

/-- Neither a group, a context nor the Cellar has changed. -/
def QuietFrom (s t : State) : Prop := t.groups = s.groups ∧ t.ctxs = s.ctxs ∧ t.cellar = s.cellar

section Quiet
variable (s : State)

theorem QuietFrom.of_frame {s t : State} (h : ∀ {β : Type} (p : State → β), (∀ s i x, p (State.putPort s i x) = p s) → p t = p s) : QuietFrom s t :=
  ⟨h State.groups fun _ _ _ => rfl, h State.ctxs fun _ _ _ => rfl, h State.cellar fun _ _ _ => rfl⟩

theorem State.returnCredits_quiet (p vc n : Nat) : QuietFrom s (s.returnCredits p vc n) := ⟨rfl, rfl, rfl⟩

theorem State.relayUp_quiet (p i : Nat) (e : List Byte) (type : Nat) (f : List Byte) : QuietFrom s ((s.returnCredits p 1 1).relayUp i e type f) :=
  .of_frame fun v hport => (relayUp_frame v hport _ _ _ _ _).trans (hport _ _ _)

/-- A flit that a transit-only engine relays up its plane leaves on the lowest Up port there (R210, R386). -/
theorem State.relayUp_vc1_length {p : Nat} {e : List Byte} {type : Nat} (f : List Byte) (hvc : ctlVC type = some 1) {q : Nat} (hp : p < 28)
    (hq : s.lowestUp (geTransit e) = some q) :
    (((s.returnCredits p 1 1).relayUp p e type f).port q).vc1.length = (s.port q).vc1.length + 1 := by
  rw [relayUp, if_pos hp, sendEdge_vc1_length _ _ _ hvc, returnCredits_vc1_length, returnCredits_lowestUp, if_pos hq]

theorem State.releasing_quiet (p g seq root : Nat) (e : List Byte) (t : Word64) : QuietFrom s ((s.returnCredits p 1 1).releasing g seq root e t) :=
  .of_frame fun v hport => (releasing_frame v hport).trans (hport _ _ _)

theorem State.returnCredits_abortKeeps (p c : Nat) : AbortKeeps c s (s.returnCredits p 1 1) := .of_parts c rfl rfl rfl rfl

theorem Alone.returnCredits {s : State} {c : Nat} {w : Flight} (h : Alone s c w) (p : Nat) : Alone (s.returnCredits p 1 1) c w :=
  h.of_keeps (s.returnCredits_abortKeeps p c) rfl

end Quiet

section Arrival
variable {s : State} {p : Nat} {f e : List Byte} (hgen : geGen e = le f 4 2)
include hgen

theorem arrivalTaken_of_transit (ht : geTransitOnly e = true) : arrivalTaken p f s e = .next (s.relayUp p e 0x10 f) := by
  simp [arrivalTaken, hgen, ht]

theorem arrivalTaken_of_root (ht : geTransitOnly e = false) (hroot : geRoot e false = s.engineId) :
    arrivalTaken p f s e = .next (s.countArrival (le f 2 2) (le f 6 4) (le f 18 1) e) := by
  simp [arrivalTaken, hgen, ht, hroot]

theorem arrivalTaken_of_node (ht : geTransitOnly e = false) (hroot : geRoot e false ≠ s.engineId) : arrivalTaken p f s e =
    .next (s.sendEdge (gePorts e false 0) 0x10 [(2, 2, le f 2 2), (4, 2, geGen e), (6, 4, le f 6 4), (10, 8, le f 10 8), (18, 1, le f 18 1)]) := by
  simp [arrivalTaken, hgen, ht, hroot, State.toParent]

theorem releaseTaken_of_transit (ht : geTransitOnly e = true) : releaseTaken p f s e = .next (s.relayUp p e 0x11 f) := by
  simp [releaseTaken, hgen, ht]

theorem releaseTaken_of_node (ht : geTransitOnly e = false) :
    releaseTaken p f s e = .next (s.release (le f 2 2) (le f 6 4) (le f 18 1) e (BitVec.ofNat 64 (le f 10 8))) := by
  simp [releaseTaken, hgen, ht]

end Arrival

section Generation
variable {s : State} {p : Nat} {f e : List Byte} (hgen : geGen e ≠ le f 4 2)
include hgen

theorem arrivalTaken_of_wrongGen : arrivalTaken p f s e = .next (s.wrongGen (le f 2 2)) := if_pos hgen

theorem releaseTaken_of_wrongGen : releaseTaken p f s e = .next s := if_pos hgen

end Generation

theorem le8_toNat (f : List Byte) (off : Nat) : (BitVec.ofNat 64 (le f off 8)).toNat = le f off 8 :=
  (BitVec.toNat_ofNat _ _).trans (Nat.mod_eq_of_lt (le_lt f off 8))

theorem Group.past_iff (x : Group) (k : KeptAbort) :
    x.past k = true ↔ (k.barrier = true ∧ k.key < x.barrierSeq.toNat) ∨ (k.barrier = false ∧ k.key ∈ x.issued) := by
  unfold past
  cases k.barrier <;> simp

section Clauses
variable {s : State} {p : Fin 36} {f e : List Byte} (hup : s.portUp p.val = true) (ha : s.asleep = false) (hready : s.isReady = true)
  (he : (s.grp (le f 2 2)).entry = some e)

/-! ### BARRIER_ARRIVAL -/

section Arrivals
variable (hok : ctlOk 0x10 f = true)
include hup ha hready he hok

theorem exec_barrierArrival_of_entry : exec (.barrierArrival p f) s = arrivalTaken p.val f (s.returnCredits p.val 1 1) e := by
  rw [exec_barrierArrival ha, State.groupFlit_of_entry hup _ hok hready he]

theorem barrierArrival_relays (hgen : geGen e = le f 4 2) (ht : geTransitOnly e = true) :
    ∃ t, exec (.barrierArrival p f) s = .next t ∧ QuietFrom s t ∧
      ∀ q, p.val < 28 → s.lowestUp (geTransit e) = some q → (t.port q).vc1.length = (s.port q).vc1.length + 1 :=
  ⟨_, (exec_barrierArrival_of_entry hup ha hready he hok).trans (arrivalTaken_of_transit hgen ht), s.relayUp_quiet _ _ _ _ _,
    fun _ hp hq => s.relayUp_vc1_length f rfl hp hq⟩

theorem barrierArrival_passes (hgen : geGen e = le f 4 2) (ht : geTransitOnly e = false) (hroot : geRoot e false ≠ s.engineId) :
    ∃ t, exec (.barrierArrival p f) s = .next t ∧ QuietFrom s t ∧
      ∀ q, s.lowestUp (gePorts e false 0) = some q → (t.port q).vc1.length = (s.port q).vc1.length + 1 := by
  refine ⟨_, (exec_barrierArrival_of_entry hup ha hready he hok).trans (arrivalTaken_of_node hgen ht hroot),
    .of_frame fun v hport => (State.sendEdge_frame _ v hport _ _ _).trans (hport _ _ _), fun q hq => ?_⟩
  rw [State.sendEdge_vc1_length _ _ _ rfl, State.returnCredits_vc1_length, State.returnCredits_lowestUp, if_pos hq]

theorem barrierArrival_wrongGen (hgen : geGen e ≠ le f 4 2) :
    exec (.barrierArrival p f) s = .next ((s.returnCredits p.val 1 1).wrongGen (le f 2 2)) :=
  (exec_barrierArrival_of_entry hup ha hready he hok).trans (arrivalTaken_of_wrongGen hgen)

variable (hgen : geGen e = le f 4 2) (ht : geTransitOnly e = false) (hroot : geRoot e false = s.engineId)
include hgen ht hroot

theorem barrierArrival_counted : exec (.barrierArrival p f) s =
    .next ((s.returnCredits p.val 1 1).countArrival (le f 2 2) (le f 6 4) (le f 18 1) e) :=
  (exec_barrierArrival_of_entry hup ha hready he hok).trans (arrivalTaken_of_root hgen ht hroot)

theorem barrierArrival_few (hseq : (s.grp (le f 2 2)).rootSeq.toNat = le f 6 4)
    (hfew : (insertNat (le f 18 1) (s.grp (le f 2 2)).arrived).length < geEngines e) :
    ∃ t, exec (.barrierArrival p f) s = .next t ∧
      t.grp (le f 2 2) = { s.grp (le f 2 2) with arrived := insertNat (le f 18 1) (s.grp (le f 2 2)).arrived } ∧
      (∀ k, k ≠ le f 2 2 → t.grp k = s.grp k) ∧ t.ctxs = s.ctxs ∧ t.cellar = s.cellar := by
  refine ⟨_, barrierArrival_counted hup ha hready he hok hgen ht hroot, ?_⟩
  rw [State.countArrival_of_few (s := s.returnCredits p.val 1 1) hseq hfew]
  exact ⟨State.putGrp_grp_self _ _ _, fun k hk => State.putGrp_grp_ne _ _ hk, rfl, rfl⟩

/-- With the last arrival the root releases the group and counts the next sequence number. -/
theorem barrierArrival_last (hseq : (s.grp (le f 2 2)).rootSeq.toNat = le f 6 4)
    (hall : geEngines e ≤ (insertNat (le f 18 1) (s.grp (le f 2 2)).arrived).length) : ∃ u : State,
      u.grp (le f 2 2) = { s.grp (le f 2 2) with rootSeq := (s.grp (le f 2 2)).rootSeq + 1, arrived := [] } ∧ u.ctxs = s.ctxs ∧ u.cellar = s.cellar ∧
      u.hall = s.hall ∧ exec (.barrierArrival p f) s =
        .next (u.release (le f 2 2) (le f 6 4) s.engineId e (s.hall + BitVec.ofNat 64 (geLead e))) := by
  refine ⟨(s.returnCredits p.val 1 1).modGrp (le f 2 2) (fun y => { y with rootSeq := y.rootSeq + 1, arrived := [] }), ?_, rfl, rfl, rfl, ?_⟩
  · exact State.putGrp_grp_self _ _ _
  · rw [barrierArrival_counted hup ha hready he hok hgen ht hroot, State.countArrival_of_last (s := s.returnCredits p.val 1 1) hseq hall]
    rfl

theorem barrierArrival_releases (hseq : (s.grp (le f 2 2)).rootSeq.toNat = le f 6 4)
    (hall : geEngines e ≤ (insertNat (le f 18 1) (s.grp (le f 2 2)).arrived).length) (hon : s.barrierOn (le f 2 2) = none) :
    ∃ t, exec (.barrierArrival p f) s = .next t ∧
      t.grp (le f 2 2) = { s.grp (le f 2 2) with rootSeq := (s.grp (le f 2 2)).rootSeq + 1, arrived := [] } ∧ t.ctxs = s.ctxs ∧ t.cellar = s.cellar := by
  obtain ⟨u, hgrp, hctxs, hcellar, -, hexec⟩ := barrierArrival_last hup ha hready he hok hgen ht hroot hseq hall
  refine ⟨_, hexec, ?_⟩
  rw [State.release_of_none ((State.barrierOn_of_ctxs hctxs _).trans hon)]
  exact ⟨(State.releasing_frame (fun v => v.grp (le f 2 2)) fun _ _ _ => rfl).trans hgrp, State.releasing_ctxs.trans hctxs,
    (State.releasing_frame State.cellar fun _ _ _ => rfl).trans hcellar⟩

/-- The root's own BARRIER takes the target of the release that the last arrival brings about. -/
theorem barrierArrival_sets_target {c : Nat} {w : Flight} {q : Word32} {o : Nat} (hseq : (s.grp (le f 2 2)).rootSeq.toNat = le f 6 4)
    (hall : geEngines e ≤ (insertNat (le f 18 1) (s.grp (le f 2 2)).arrived).length) (hon : s.barrierOn (le f 2 2) = some (c, w))
    (halone : Alone s c w) (hkind : w.kind = .barrier (le f 2 2) (geGen e) q o none false) (hq : q.toNat = le f 6 4)
    (hlead : s.now + geLead e < 2 ^ 64) : ∃ t, exec (.barrierArrival p f) s = .next t ∧
      t.grp (le f 2 2) = { s.grp (le f 2 2) with rootSeq := (s.grp (le f 2 2)).rootSeq + 1, arrived := [] } ∧
      (t.ctx c).flights = [{ w with kind := .barrier (le f 2 2) (geGen e) q o (some (s.hall + BitVec.ofNat 64 (geLead e))) false }] ∧
      t.cellar = s.cellar := by
  obtain ⟨u, hgrp, hctxs, hcellar, hhall, hexec⟩ := barrierArrival_last hup ha hready he hok hgen ht hroot hseq hall
  have hon' := (State.barrierOn_of_ctxs hctxs (le f 2 2)).trans hon
  have hahead : u.hall.toNat ≤ (s.hall + BitVec.ofNat 64 (geLead e)).toNat := by
    rw [State.now] at hlead
    rw [hhall, BitVec.toNat_add, BitVec.toNat_ofNat, Nat.mod_eq_of_lt (a := geLead e) (by omega), Nat.mod_eq_of_lt hlead]
    omega
  exact ⟨_, hexec, (State.release_ahead_frame hon' hkind hq hahead (fun v => v.grp (le f 2 2)) (fun _ _ _ => rfl) fun _ _ _ => rfl).trans hgrp,
    State.release_ahead_flights hon' hkind hq hahead (by rw [State.ctx_of_ctxs hctxs, halone.1]),
    (State.release_ahead_frame hon' hkind hq hahead State.cellar (fun _ _ _ => rfl) fun _ _ _ => rfl).trans hcellar⟩

section OtherSequence
variable (hseq : (s.grp (le f 2 2)).rootSeq.toNat ≠ le f 6 4)
include hseq

theorem barrierArrival_fails : exec (.barrierArrival p f) s =
    .next ((s.returnCredits p.val 1 1).failBarrier (le f 2 2) (le f 6 4) (le f 18 1) e) := by
  rw [barrierArrival_counted hup ha hready he hok hgen ht hroot, State.countArrival_of_other (s := s.returnCredits p.val 1 1) hseq]

theorem barrierArrival_fails_alone (hon : s.barrierOn (le f 2 2) = none) : ∃ t, exec (.barrierArrival p f) s = .next t ∧
    (t.grp (le f 2 2)).rootSeq = (s.grp (le f 2 2)).rootSeq + 1 ∧ (t.grp (le f 2 2)).arrived = [] ∧
    t.log = (s.logOccurrence ⟨0x0305, 2, 0x0D, le f 18 1, none, 0, 0⟩).1 ∧ t.ctxs = s.ctxs ∧ t.cellar = s.cellar := by
  refine ⟨_, barrierArrival_fails hup ha hready he hok hgen ht hroot hseq, ?_⟩
  rw [State.failBarrier_of_none (s := s.returnCredits p.val 1 1) _ _ _ _ hon]
  obtain ⟨hroot', harrived⟩ := (s.returnCredits p.val 1 1).barrierFailed_grp (le f 2 2) (le f 6 4) (le f 18 1) e
  exact ⟨hroot', harrived, State.barrierFailed_log _ _ _ _ _, State.barrierFailed_ctxs _ _ _ _ _, State.barrierFailed_cellar _ _ _ _ _⟩

theorem barrierArrival_fails_figure {c : Nat} {w : Flight} (hon : s.barrierOn (le f 2 2) = some (c, w)) (halone : Alone s c w) :
    ∃ t, exec (.barrierArrival p f) s = .next t ∧ StoppedBy s t c 0x33 ∧ (t.grp (le f 2 2)).rootSeq = (s.grp (le f 2 2)).rootSeq + 1 := by
  obtain ⟨hstops, hcounts⟩ := (s.returnCredits p.val 1 1).failBarrier_stops (le f 2 2) (le f 6 4) (le f 18 1) e hon (halone.returnCredits p.val)
  exact ⟨_, barrierArrival_fails hup ha hready he hok hgen ht hroot hseq, hstops, hcounts⟩

end OtherSequence

end Arrivals

/-! ### BARRIER_RELEASE -/

section Releases
variable (hok : ctlOk 0x11 f = true)
include hup ha hready he hok

theorem exec_barrierRelease_of_entry : exec (.barrierRelease p f) s = releaseTaken p.val f (s.returnCredits p.val 1 1) e := by
  rw [exec_barrierRelease ha, State.groupFlit_of_entry hup _ hok hready he]

theorem barrierRelease_relays (hno : geGen e ≠ le f 4 2 ∨ geTransitOnly e = true) :
    ∃ t, exec (.barrierRelease p f) s = .next t ∧ QuietFrom s t ∧ ∀ q, geGen e = le f 4 2 → p.val < 28 → s.lowestUp (geTransit e) = some q →
      (t.port q).vc1.length = (s.port q).vc1.length + 1 := by
  have hexec := exec_barrierRelease_of_entry hup ha hready he hok
  by_cases hgen : geGen e = le f 4 2
  · exact ⟨_, hexec.trans (releaseTaken_of_transit hgen (hno.resolve_left (not_not.mpr hgen))), s.relayUp_quiet _ _ _ _ _,
      fun _ _ hp hq => s.relayUp_vc1_length f rfl hp hq⟩
  · exact ⟨_, hexec.trans (releaseTaken_of_wrongGen hgen), s.returnCredits_quiet _ _ _, fun _ h => absurd h hgen⟩

variable (hgen : geGen e = le f 4 2) (ht : geTransitOnly e = false)
include hgen ht

theorem exec_barrierRelease_of_node : exec (.barrierRelease p f) s =
    .next ((s.returnCredits p.val 1 1).release (le f 2 2) (le f 6 4) (le f 18 1) e (BitVec.ofNat 64 (le f 10 8))) :=
  (exec_barrierRelease_of_entry hup ha hready he hok).trans (releaseTaken_of_node hgen ht)

theorem barrierRelease_passes (hon : s.barrierOn (le f 2 2) = none) : ∃ t, exec (.barrierRelease p f) s = .next t ∧ QuietFrom s t ∧
    ∀ q, (t.port q).vc1.length = (s.port q).vc1.length +
      ((List.range (geChildren e false)).filter (fun i => s.lowestUp (gePorts e false (i + 1)) == some q)).length := by
  refine ⟨_, exec_barrierRelease_of_node hup ha hready he hok hgen ht, ?_⟩
  rw [State.release_of_none (s := s.returnCredits p.val 1 1) hon]
  refine ⟨s.releasing_quiet _ _ _ _ _ _, fun q => ?_⟩
  rw [State.releasing, State.toChildren_vc1_length _ _ _ rfl, State.returnCredits_vc1_length]
  simp only [State.returnCredits_lowestUp]

theorem barrierRelease_other {c : Nat} {w : Flight} {n o : Nat} {q : Word32} {target : Option Word64} {wire : Bool}
    (hon : s.barrierOn (le f 2 2) = some (c, w)) (hkind : w.kind = .barrier (le f 2 2) n q o target wire)
    (hno : n ≠ le f 4 2 ∨ q.toNat ≠ le f 6 4 ∨ target ≠ none ∨ wire = true) : ∃ t, exec (.barrierRelease p f) s = .next t ∧ QuietFrom s t := by
  refine ⟨_, exec_barrierRelease_of_node hup ha hready he hok hgen ht, ?_⟩
  rw [State.release_of_other (s := s.returnCredits p.val 1 1) hon hkind (hgen.symm ▸ hno)]
  exact s.releasing_quiet _ _ _ _ _ _

section Named
variable {c : Nat} {w : Flight} {q : Word32} {o : Nat} (hon : s.barrierOn (le f 2 2) = some (c, w))
  (hkind : w.kind = .barrier (le f 2 2) (le f 4 2) q o none false) (hq : q.toNat = le f 6 4) (halone : Alone s c w)
include hon hkind hq halone

theorem barrierRelease_sets_target (hahead : s.now ≤ le f 10 8) : ∃ t, exec (.barrierRelease p f) s = .next t ∧
    (t.ctx c).flights = [{ w with kind := .barrier (le f 2 2) (le f 4 2) q o (some (BitVec.ofNat 64 (le f 10 8))) false }] ∧
    t.hearth.lateRelease = s.hearth.lateRelease ∧ t.cellar = s.cellar := by
  have hahead' : (s.returnCredits p.val 1 1).hall.toNat ≤ (BitVec.ofNat 64 (le f 10 8)).toNat := by rw [le8_toNat]; exact hahead
  rw [← hgen] at hkind
  refine ⟨_, exec_barrierRelease_of_node hup ha hready he hok hgen ht, ?_,
    State.release_ahead_frame (s := s.returnCredits p.val 1 1) hon hkind hq hahead' (fun v => v.hearth.lateRelease) (fun _ _ _ => rfl) fun _ _ _ => rfl,
    State.release_ahead_frame (s := s.returnCredits p.val 1 1) hon hkind hq hahead' State.cellar (fun _ _ _ => rfl) fun _ _ _ => rfl⟩
  rw [State.release_ahead_flights (s := s.returnCredits p.val 1 1) hon hkind hq hahead' halone.1, hgen]

theorem barrierRelease_late (hlate : le f 10 8 < s.now) : ∃ t, exec (.barrierRelease p f) s = .next t ∧ (t.ctx c).flights = [] ∧
    (t.ctx c).pc = (s.ctx c).pc ∧ t.hearth.lateRelease = satInc s.hearth.lateRelease ∧ t.cellar.mem = s.cellar.mem := by
  rw [← hgen] at hkind
  exact ⟨_, exec_barrierRelease_of_node hup ha hready he hok hgen ht,
    State.release_of_late (s := s.returnCredits p.val 1 1) hon hkind hq (by rw [le8_toNat]; exact hlate) (halone.returnCredits p.val)⟩

end Named

end Releases

/-! ### PEER_ABORT -/

section Aborts
variable (hok : ctlOk 0x12 f = true)
include hup ha hready he hok

theorem exec_peerAbort_of_entry : exec (.peerAbort p f) s = abortTaken p.val f (s.returnCredits p.val 1 1) e := by
  rw [exec_peerAbort ha, State.groupFlit_of_entry hup _ hok hready he]

theorem peerAbort_seen (hseen : abortOf f ∈ (s.grp (le f 2 2)).seen) : ∃ t, exec (.peerAbort p f) s = .next t ∧ QuietFrom s t :=
  ⟨_, (exec_peerAbort_of_entry hup ha hready he hok).trans (abortTaken_of_seen (s := s.returnCredits p.val 1 1) hseen), s.returnCredits_quiet _ _ _⟩

theorem peerAbort_names {c : Nat} {w : Flight} (hnew : abortOf f ∉ (s.grp (le f 2 2)).seen)
    (hnames : s.abortNames (le f 2 2) (abortOf f) = some (c, w.fid)) (halone : Alone s c w) :
    ∃ t, exec (.peerAbort p f) s = .next t ∧ StoppedBy s t c 0x33 ∧ abortOf f ∈ (t.grp (le f 2 2)).seen := by
  rw [exec_peerAbort_of_entry hup ha hready he hok]
  exact abortTaken_of_some (s := s.returnCredits p.val 1 1) hnew hnames (halone.returnCredits p.val)

theorem peerAbort_kept (hnew : abortOf f ∉ (s.grp (le f 2 2)).seen) (hnone : s.abortNames (le f 2 2) (abortOf f) = none) :
    ∃ t, exec (.peerAbort p f) s = .next t ∧ (t.grp (le f 2 2)).seen = (s.grp (le f 2 2)).seen ++ [abortOf f] ∧ t.ctxs = s.ctxs ∧
      t.cellar = s.cellar ∧
      (t.grp (le f 2 2)).kept = if (s.grp (le f 2 2)).past (abortOf f) then (s.grp (le f 2 2)).kept else (s.grp (le f 2 2)).kept ++ [abortOf f] := by
  rw [exec_peerAbort_of_entry hup ha hready he hok]
  exact abortTaken_of_none (s := s.returnCredits p.val 1 1) hnew hnone

end Aborts

end Clauses

/-- A flit without effect: a malformed one is counted on its port, one that no entry or no Ready engine takes is dropped. -/
theorem groupFlit_withoutEffect {s : State} {p : Fin 36} {f : List Byte} (hup : s.portUp p.val = true) (ha : s.asleep = false) {cmd : Instr} {type : Nat}
    (hcmd : (cmd, type) ∈ [(Instr.barrierArrival p f, 0x10), (Instr.barrierRelease p f, 0x11), (Instr.peerAbort p f, 0x12)]) :
    (ctlOk type f = false → ∃ t, exec cmd s = .next t ∧ (t.port p.val).cnt.badControl = satInc (s.port p.val).cnt.badControl ∧ QuietFrom s t) ∧
    (ctlOk type f = true → s.isReady = false ∨ (s.grp (le f 2 2)).entry = none → ∃ t, exec cmd s = .next t ∧ QuietFrom s t) := by
  obtain ⟨act, hexec⟩ := exec_groupFlit ha hcmd
  refine ⟨fun hbad => ⟨_, hexec.trans (State.groupFlit_of_bad hup act hbad), ?_, rfl, rfl, rfl⟩,
    fun hok hidle => ⟨_, hexec.trans (State.groupFlit_of_idle hup act hok hidle), s.returnCredits_quiet _ _ _⟩⟩
  rw [State.badControl, State.countPort_cnt, State.returnCredits_port_cnt]

/-- Settles O54: each clause is one rule for how the flit is taken at an engine with the entry, or without it. -/
theorem barrierMessagesAndAborts : Obligations.BarrierMessagesAndAborts := by
  unfold Obligations.BarrierMessagesAndAborts
  intro s p f hup ha g x quiet
  refine ⟨fun cmd type hcmd => groupFlit_withoutEffect hup ha hcmd, fun e hready he => ⟨fun hok hgen => ?_, fun hok hno => ?_, fun hok hgen ht => ?_,
    fun hok hgen => ?_, fun hok => ?_⟩⟩
  · refine ⟨fun ht => barrierArrival_relays hup ha hready he hok hgen ht, fun ht hroot hseq => ⟨?_, ?_, ?_⟩, fun ht hroot hseq => ⟨?_, ?_⟩, ?_, ?_⟩
    · exact barrierArrival_few hup ha hready he hok hgen ht hroot hseq
    · exact barrierArrival_releases hup ha hready he hok hgen ht hroot hseq
    · intro c w q o hall hon halone hkind hq hlead
      exact barrierArrival_sets_target hup ha hready he hok hgen ht hroot hseq hall hon halone hkind hq hlead
    · exact barrierArrival_fails_alone hup ha hready he hok hgen ht hroot hseq
    · exact fun c w => barrierArrival_fails_figure hup ha hready he hok hgen ht hroot hseq
    · intro q ht hroot hq
      obtain ⟨t, hexec, hquiet, hsent⟩ := barrierArrival_passes hup ha hready he hok hgen ht hroot
      exact ⟨t, hexec, hsent q hq, hquiet⟩
    · intro ht hroot _
      obtain ⟨t, hexec, hquiet, -⟩ := barrierArrival_passes hup ha hready he hok hgen ht hroot
      exact ⟨t, hexec, hquiet⟩
  · exact barrierRelease_relays hup ha hready he hok hno
  · refine ⟨barrierRelease_passes hup ha hready he hok hgen ht, fun c w q o hon hkind hq halone => ⟨?_, ?_⟩, fun c w n q o target wire hon hkind hno => ?_⟩
    · exact barrierRelease_sets_target hup ha hready he hok hgen ht hon hkind hq halone
    · exact barrierRelease_late hup ha hready he hok hgen ht hon hkind hq halone
    · exact barrierRelease_other hup ha hready he hok hgen ht hon hkind hno
  · have hexec := barrierArrival_wrongGen hup ha hready he hok hgen
    refine ⟨fun hnone => ⟨_, hexec.trans (congrArg Host.Outcome.next (State.wrongGen_of_none (s := s.returnCredits p.val 1 1) hnone)),
      s.returnCredits_quiet _ _ _⟩, fun c w hflights halone => ⟨_, hexec, ?_⟩⟩
    exact State.wrongGen_stops (s := s.returnCredits p.val 1 1) hflights (halone.returnCredits p.val)
  · refine ⟨peerAbort_seen hup ha hready he hok, fun hnew hnone => ?_, fun c w => peerAbort_names hup ha hready he hok⟩
    obtain ⟨t, hexec, hseen, hctxs, hcellar, hkept⟩ := peerAbort_kept hup ha hready he hok hnew hnone
    refine ⟨t, hexec, hseen, hctxs, hcellar, fun hpast => ?_, fun hpast => ?_⟩
    · exact hkept.trans (if_pos ((Group.past_iff _ _).mpr hpast))
    · exact hkept.trans (if_neg (mt (Group.past_iff _ _).mp hpast))

end Sys2Proof.Machine
end

section
/-! Settling O41: while no access waits at the cells, what a batch for the scrubber and a reclaim change (R330, R331, R353). -/

namespace Sys2Proof.Machine

/-! ## Quiet cells -/

section Cells
variable {s t : State}

/-- Cells stay quiet where no access has joined those that wait. -/
theorem CellsQuiet.of_parts (hq : CellsQuiet s) (hwaiting : t.cellar.waiting = []) (hhosts : ∀ h, (t.host h).waitingReqs = (s.host h).waitingReqs)
    (hhall : t.hallway = s.hallway) : CellsQuiet t := by
  obtain ⟨-, hreqs⟩ := hq
  refine ⟨hwaiting, fun h => ⟨(hhosts h).trans (hreqs h).1, ?_⟩⟩
  rw [State.hall_, hhall]
  exact (hreqs h).2

/-- With nothing that waits the queues at an extent's cells do not move. -/
theorem State.cellsGo_of_quiet (hq : CellsQuiet s) (e : Nat) : s.cellsGo e = s := by
  obtain ⟨hwaiting, hreqs⟩ := hq
  have hgo (h : Nat) : s.requestsGo h = s := by
    obtain ⟨hreq, hhall⟩ := hreqs h
    simp [requestsGo, hhall, State.hallGo, hreq, State.porchGo]
  have hover (l : List Nat) : overList State.requestsGo l s = s := by
    induction l with
    | nil => rfl
    | cons h l ih => rw [overList_cons, hgo, ih]
  simp only [cellsGo, hwaiting, List.filter_nil, overList_nil]
  have hself : ({ s with cellar := { s.cellar with waiting := [] } } : State) = s := by rw [← hwaiting]
  rw [hself, hover]

end Cells

/-! ## A batch for the scrubber (R331) -/

/-- From `s` to `t` extents of `es` may have had their cell groups powered, and only the scrubber's queue has changed beside them. -/
structure Powered (es : List Nat) (s t : State) : Prop where
  quiet : CellsQuiet s → CellsQuiet t
  others : ∀ e, e ∉ es → t.ext e = s.ext e
  ext : ∀ e, ∃ power waking, t.ext e = { s.ext e with power := power, waking := waking }
  mem : t.cellar.mem = s.cellar.mem
  ctxs : t.ctxs = s.ctxs
  hosts : t.hosts = s.hosts

namespace Powered
variable {es : List Nat} {s t u : State}

theorem refl (es : List Nat) (s : State) : Powered es s s := ⟨id, fun _ _ => rfl, fun _ => ⟨_, _, rfl⟩, rfl, rfl, rfl⟩

theorem trans (h : Powered es s t) (k : Powered es t u) : Powered es s u := by
  refine ⟨k.quiet ∘ h.quiet, fun e he => (k.others e he).trans (h.others e he), fun e => ?_, k.mem.trans h.mem, k.ctxs.trans h.ctxs,
    k.hosts.trans h.hosts⟩
  obtain ⟨power, waking, hk⟩ := k.ext e
  obtain ⟨_, _, hh⟩ := h.ext e
  exact ⟨power, waking, by rw [hk, hh]⟩

/-- One cell group is powered, and Awake (R329). -/
theorem modExt {e : Nat} (he : e ∈ es) : Powered es s (s.modExt e (fun x => { x with power := .awake, waking := false })) where
  quiet hq := hq.of_parts hq.1 (fun _ => rfl) rfl
  others d hd := State.putExt_ext_ne _ _ fun heq => hd (heq ▸ he)
  ext d := by
    rw [State.modExt, State.putExt_ext]
    split
    next heq => exact ⟨_, _, by rw [heq]⟩
    next => exact ⟨_, _, rfl⟩
  mem := rfl
  ctxs := rfl
  hosts := rfl

end Powered

section Scrub
variable {s : State}

theorem chunksOf_head_subset {n fuel : Nat} {es b : List Nat} {l : List (List Nat)} (h : chunksOf n fuel es = b :: l) : ∀ e ∈ b, e ∈ es := by
  cases fuel with
  | zero => exact absurd h (List.cons_ne_nil _ _).symm
  | succ k =>
    cases es with
    | nil => exact absurd h (List.cons_ne_nil _ _).symm
    | cons a es =>
      obtain ⟨rfl, -⟩ := List.cons.inj h
      exact fun e he => List.mem_of_mem_take he

/-- The batch at the head of the scrubber's queue begins. -/
theorem State.scrubStarts_powered (hq : CellsQuiet s) {es : List Nat} (hes : ∀ j ∈ s.cellar.scrubQ.head?, ∀ e ∈ j.extents, e ∈ es) :
    Powered es s s.scrubStarts := by
  have hover (l : List Nat) (u : State) (hu : CellsQuiet u) (hl : ∀ e ∈ l, e ∈ es) : Powered es u
      (overList (fun s e => (s.modExt e (fun x => { x with power := .awake, waking := false })).cellsGo e) l u) := by
    induction l generalizing u with
    | nil => exact .refl es u
    | cons e l ih =>
      obtain ⟨he, hl⟩ := List.forall_mem_cons.mp hl
      have hstep : Powered es u (u.modExt e (fun x => { x with power := .awake, waking := false })) := .modExt he
      rw [overList_cons, cellsGo_of_quiet (hstep.quiet hu)]
      exact hstep.trans (ih _ (hstep.quiet hu) hl)
  unfold scrubStarts
  split
  · exact .refl es s
  next j l hj => exact hover j.extents s hq (hes j (by rw [hj]; rfl))

theorem State.queueScrub_powered (hq : CellsQuiet s) (es : List Nat) : Powered es s (s.queueScrub es) := by
  unfold queueScrub
  dsimp only
  generalize hu : ({ s with cellar := { s.cellar with scrubQ := s.cellar.scrubQ ++ (chunksOf 8 es.length es).map (fun b => ⟨b⟩) } } : State) = u
  have hqueued : Powered es s u := by
    subst hu
    exact ⟨fun hq => hq.of_parts hq.1 (fun _ => rfl) rfl, fun _ _ => rfl, fun e => ⟨_, _, rfl⟩, rfl, rfl, rfl⟩
  split
  next hidle =>
    refine hqueued.trans (scrubStarts_powered (hqueued.quiet hq) fun j hj e he => ?_)
    rw [← hu] at hj
    rw [List.isEmpty_iff.mp hidle, List.nil_append, List.head?_map] at hj
    obtain ⟨b, hb, rfl⟩ := Option.map_eq_some_iff.mp (Option.mem_def.mp hj)
    obtain ⟨l, hl⟩ := List.head?_eq_some_iff.mp hb
    exact chunksOf_head_subset hl e he
  · exact hqueued

end Scrub

/-! ## A reclaim (R345, R353, R397) -/

theorem settleFrame_hallway : SettleFrame State.hallway where
  ctx _ _ _ := rfl
  host _ _ _ _ := rfl
  port _ _ _ := rfl
  suite _ _ _ := rfl
  grp _ _ _ := rfl
  bell _ _ _ := rfl
  record s a := by simp
  wake s := by unfold State.wake; split <;> rfl
  service _ _ := rfl
  freed := State.freeFlight_frame State.hallway (fun _ _ => rfl) (fun _ _ => rfl) (fun _ _ => rfl) (fun _ _ _ _ _ _ _ _ => rfl)

theorem State.freeFlight_waiting (s : State) (c : Nat) (f : Flight) : (s.freeFlight c f).cellar.waiting.Sublist s.cellar.waiting := by
  have hwaiter : (s.clearWaiter c f.kind).cellar.waiting = s.cellar.waiting := by
    unfold clearWaiter
    split <;> rfl
  have hwire (u : State) : (u.dropWire c f).cellar = u.cellar := by
    unfold dropWire
    dsimp only
    split <;> rfl
  unfold freeFlight
  dsimp only
  rw [hwire]
  exact hwaiter ▸ List.filter_sublist

section Settled
variable {K : Nat → Prop} {told : Prop} {s t : State} (h : Settles K told s t)
include h

/-- What a flight frees waits no longer; nothing else of settling touches the accesses that wait at the cells. -/
theorem Settles.waiting : t.cellar.waiting.Sublist s.cellar.waiting := by
  induction h with
  | refl => exact .refl _
  | tail _ hstep ih =>
    refine .trans ?_ ih
    cases hstep with
    | record a => rw [State.record_cellar]
    | wake => rw [State.wake_cellar]
    | freed c f => exact State.freeFlight_waiting _ c f
    | _ => exact .refl _

/-- What the parts of settling leave, a chain of its updates leaves. -/
theorem Settles.settleFrame {β : Type} {p : State → β} (hp : SettleFrame p) : p t = p s := by
  refine h.frame p fun hstep => ?_
  cases hstep with
  | ctx n x hn => exact hp.ctx _ n x
  | host n x hw =>
    have hconfigured : x.writeless.configured = _ := congrArg HostPort.configured hw.1
    exact hp.host _ n x hconfigured
  | port n x => exact hp.port _ n x
  | suite n x hx => exact hp.suite _ n x
  | grp n x ht hx => exact hp.grp _ n x
  | bell off f => exact hp.bell _ off f
  | record a => exact hp.record _ a
  | wake => exact hp.wake _
  | counted m => exact hp.service _ _
  | freed c f => exact hp.freed _ c f

theorem Settles.ext (e : Nat) : t.ext e = s.ext e := by
  rw [State.ext, State.ext]
  exact congrArg (fun m => FMap.get {} m e) (congrArg Tenure.extents (h.settleFrame settleFrame_tenure))

theorem Settles.configured (n : Nat) : (t.host n).configured = (s.host n).configured :=
  congrFun (congrArg Tenure.hosts (h.settleFrame settleFrame_tenure)) n

theorem Settles.window (n : Nat) : (t.host n).window = (s.host n).window :=
  (congrArg HostPort.window (h.configured n) : (t.host n).configured.window = _)

/-- Settling sets no access waiting at a cell. -/
theorem Settles.cellsQuiet (hq : CellsQuiet s) : CellsQuiet t := by
  have hreqs (n : Nat) : (t.host n).configured.waitingReqs = (s.host n).configured.waitingReqs := by rw [h.configured n]
  exact hq.of_parts (List.sublist_nil.mp (hq.1 ▸ h.waiting)) hreqs (h.settleFrame settleFrame_hallway)

end Settled

section Reclaim
variable {s : State}

/-- Every context may take part in settling. -/
theorem quietOff_true (s : State) : QuietOff (fun _ => True) s := fun _ hno => absurd trivial hno

theorem State.unmapAll_host (s : State) (e k : Nat) : (s.unmapAll e).host k = (s.host k).unmap (s.cxlOn k) e :=
  FMap.get_mapped ({} : HostPort) s.hosts (fun h x => x.unmap (s.cxlOn h) e) k (by cases hcxl : s.cxlOn k <;> rfl)

theorem State.unmapAll_quiet {e : Nat} {x : Extent} (hq : CellsQuiet s) : CellsQuiet ((s.putExt e x).unmapAll e) := by
  refine hq.of_parts hq.1 (fun k => ?_) rfl
  rw [unmapAll_host]
  rfl

/-- A reclaim of extent `e`: the extent and the windows that map it change, its accesses end, and settling follows. -/
theorem State.reclaimOne_settles (hq : CellsQuiet s) (cause e : Nat) : ∃ x : Extent, x.state = .reclaiming ∧ x.cause = cause ∧
    Settles (fun _ => True) True ((s.putExt e x).unmapAll e) (s.reclaimOne cause e) := by
  generalize hx : ({ s.ext e with
    state := .reclaiming, cause := cause, reclaimHall := if (s.ext e).due then (s.ext e).reclaimHall else s.hall, renewMs := none,
    due := false } : Extent) = x
  refine ⟨x, hx ▸ rfl, hx ▸ rfl, ?_⟩
  have hquiet := unmapAll_quiet (e := e) (x := x) hq
  have hfails := ((s.putExt e x).unmapAll e).failWhere_settles (quietOff_true _) trivial
    (fun _ f => f.kind.uses (s.putExt e x).engineId e) 0x22 (s.putExt e x).engineId
  unfold reclaimOne
  dsimp only
  rw [modExt, hx, cellsGo_of_quiet (hfails.cellsQuiet hquiet)]
  split
  next h _ => exact hfails.trans (msix_settles _ h 1)
  · exact hfails

/-- The extent is in Reclaiming for this cause, and no window maps it. -/
def State.Reclaimed (s : State) (cause e : Nat) : Prop :=
  (s.ext e).state = .reclaiming ∧ (s.ext e).cause = cause ∧ ∀ k, ∀ w ∈ (s.host k).window, w.2 ≠ e

theorem Settles.reclaimed {K : Nat → Prop} {told : Prop} {t : State} (h : Settles K told s t) {cause e : Nat} (hr : s.Reclaimed cause e) :
    t.Reclaimed cause e := by
  unfold State.Reclaimed at hr ⊢
  rw [h.ext]
  simpa only [h.window] using hr

theorem State.reclaimOne_of_quiet (hq : CellsQuiet s) (cause e : Nat) : CellsQuiet (s.reclaimOne cause e) ∧
    (∀ d, d ≠ e → (s.reclaimOne cause e).ext d = s.ext d) ∧ (s.reclaimOne cause e).Reclaimed cause e ∧
    ∀ d, s.Reclaimed cause d → (s.reclaimOne cause e).Reclaimed cause d := by
  obtain ⟨x, hstate, hcause, hsettles⟩ := s.reclaimOne_settles hq cause e
  have hwindow (k : Nat) : (((s.putExt e x).unmapAll e).host k).window = (s.host k).window.filter (fun w => w.2 != e) :=
    congrArg HostPort.window (unmapAll_host (s.putExt e x) e k)
  have hself : ((s.putExt e x).unmapAll e).Reclaimed cause e := by
    refine ⟨by rw [← hstate]; exact congrArg Extent.state (putExt_ext_self s e x), by rw [← hcause]; exact congrArg Extent.cause (putExt_ext_self s e x),
      fun k w hw => ?_⟩
    rw [hwindow] at hw
    simpa using (List.mem_filter.mp hw).2
  refine ⟨hsettles.cellsQuiet (unmapAll_quiet hq),
    fun d hd => (hsettles.ext d).trans (putExt_ext_ne s x hd), hsettles.reclaimed hself, fun d hd => ?_⟩
  obtain rfl | hne := eq_or_ne d e
  · exact hsettles.reclaimed hself
  · obtain ⟨hst, hca, hno⟩ := hd
    have hext : ((s.putExt e x).unmapAll e).ext d = s.ext d := putExt_ext_ne s x hne
    refine hsettles.reclaimed ⟨by rw [hext, hst], by rw [hext, hca], fun k w hw => hno k w ?_⟩
    rw [hwindow] at hw
    exact (List.mem_filter.mp hw).1

/-- Extents are reclaimed one after another: each stays reclaimed, and the others as they were. -/
theorem State.reclaimAll_of_quiet (cause : Nat) (l : List Nat) (hq : CellsQuiet s) : let t := overList (State.reclaimOne cause) l s
    CellsQuiet t ∧ (∀ d, d ∉ l → t.ext d = s.ext d) ∧ ∀ d, d ∈ l ∨ s.Reclaimed cause d → t.Reclaimed cause d := by
  induction l generalizing s with
  | nil => exact ⟨hq, fun _ _ => rfl, fun d hd => hd.resolve_left (List.not_mem_nil)⟩
  | cons e l ih =>
    obtain ⟨hquiet, hothers, hself, hkept⟩ := s.reclaimOne_of_quiet hq cause e
    obtain ⟨hquiet', hothers', hall⟩ := ih hquiet
    refine ⟨hquiet', fun d hd => ?_, fun d hd => hall d ?_⟩
    · obtain ⟨hne, hl⟩ := List.ne_and_not_mem_of_not_mem_cons hd
      exact (hothers' d hl).trans (hothers d hne)
    · obtain hmem | hd := hd
      · obtain rfl | hmem := List.mem_cons.mp hmem
        · exact .inr hself
        · exact .inl hmem
      · exact .inr (hkept d hd)

/-- The end of a reclaim: the extents have queued for the scrubber, and every context has settled (R331, R353). -/
theorem State.reclaim_of_quiet (cause : Nat) (es : List Nat) (hq : CellsQuiet s) :
    (∀ e ∈ es, (s.reclaim cause es).Reclaimed cause e) ∧ ∀ e, e ∉ es → (s.reclaim cause es).ext e = s.ext e := by
  obtain ⟨hquiet, hothers, hall⟩ := reclaimAll_of_quiet cause es hq
  have hpowered := queueScrub_powered hquiet es
  have hsettles := settleAll_settles (told := False) ((overList (State.reclaimOne cause) es s).queueScrub es) (quietOff_true _)
  refine ⟨fun e he => hsettles.reclaimed ?_, fun e he => (hsettles.ext e).trans ((hpowered.others e he).trans (hothers e he))⟩
  obtain ⟨hst, hca, hno⟩ := hall e (.inl he)
  obtain ⟨power, waking, hext⟩ := hpowered.ext e
  refine ⟨by rw [hext, hst], by rw [hext, hca], fun k => ?_⟩
  rw [host, hpowered.hosts]
  exact hno k

end Reclaim

end Sys2Proof.Machine
end

section
/-! Settling O41: GRANT and RELEASE at a Ready engine (R140, R333, R348, R349, R353, R512). -/

namespace Sys2Proof.Machine

/-! ## What a command that is let in finds -/

section Admitted
variable {s : State} {sess : Option Nat}

theorem CellsQuiet.admitted (hq : CellsQuiet s) : CellsQuiet (s.admitted sess) :=
  hq.of_parts (by rw [State.admitted_cellar]; exact hq.1) (fun h => by rw [State.admitted_host]) (s.admitted_frame State.hallway sess fun _ _ => rfl)

theorem State.admitted_ext (e : Nat) : (s.admitted sess).ext e = s.ext e := s.admitted_frame (fun u => u.ext e) sess fun _ _ => rfl

/-- The session of a host stays open under a command, and keeps its identity (R349). -/
theorem State.admitted_hostSessionOf (h : Nat) :
    ((s.admitted sess).hostSessionOf h).map (fun x => x.identity) = (s.hostSessionOf h).map (fun x => x.identity) := by
  have hwake : (s.admitted sess).hostSessionOf h = (s.sessionUsed sess).hostSessionOf h := by
    unfold admitted wake
    split <;> rfl
  rw [hwake]
  cases sess with
  | none => rfl
  | some n =>
    simp only [hostSessionOf, sessionUsed, List.find?_map, Option.map_map]
    have hsame (x : Session) : (if x.id = n then { x with lastTraffic := s.hall } else x).host = x.host ∧
        (if x.id = n then { x with lastTraffic := s.hall } else x).identity = x.identity := by split <;> exact ⟨rfl, rfl⟩
    have hhost : ((fun x : Session => x.host == some h) ∘ fun x => if x.id = n then { x with lastTraffic := s.hall } else x) =
        fun x => x.host == some h := funext fun x => by simp only [Function.comp, (hsame x).1]
    rw [hhost]
    exact congrArg (fun f => Option.map f _) (funext fun x => (hsame x).2)

end Admitted

section Accepted
variable (s : State) (code : Nat) (tag : BitVec 16) (cls : Nat) (units : List Nat) (region : Option Nat) (payload : List Byte)

theorem Answered.accept : Answered (s.accept code tag cls units region payload) code tag 0x01 0 payload := rfl

theorem State.accept_cellar : (s.accept code tag cls units region payload).cellar = s.cellar := rfl
theorem State.accept_ctxs : (s.accept code tag cls units region payload).ctxs = s.ctxs := rfl
theorem State.accept_ext (e : Nat) : (s.accept code tag cls units region payload).ext e = s.ext e := rfl
theorem State.accept_host (h : Nat) : (s.accept code tag cls units region payload).host h = s.host h := rfl

end Accepted

/-! ## GRANT (R140, R333, R348, R349) -/

section Take
variable {s : State}

theorem State.putExts_ext (es : List Nat) (x : Extent) (e : Nat) :
    (overList (fun s e => s.putExt e x) es s).ext e = if e ∈ es then x else s.ext e := by
  induction es generalizing s with
  | nil => rfl
  | cons d es ih =>
    rw [overList_cons, ih, putExt_ext]
    by_cases hes : e ∈ es
    · simp [hes]
    · simp [hes]

theorem State.putExts_frame {β : Type} (p : State → β) (hp : ∀ (s : State) e x, p (s.putExt e x) = p s) (es : List Nat) (x : Extent) :
    p (overList (fun s e => s.putExt e x) es s) = p s :=
  overList_frame p (fun u e => hp u e x) es s

/-- Extents that are taken hold what the grant writes, and the others stay (R333). -/
theorem State.takeExts_of_quiet (hq : CellsQuiet s) (es : List Nat) (x : Extent) : let t := s.takeExts es x
    (∀ e ∈ es, (t.ext e).state = x.state ∧ (t.ext e).owner = x.owner ∧ (t.ext e).identity = x.identity ∧ (t.ext e).leaseS = x.leaseS) ∧
    (∀ e, e ∉ es → t.ext e = s.ext e) ∧ t.cellar.mem = s.cellar.mem ∧ t.ctxs = s.ctxs := by
  have hframe {β : Type} (p : State → β) (hp : ∀ (s : State) e x, p (s.putExt e x) = p s) := putExts_frame (s := s) p hp es x
  have hquiet : CellsQuiet (overList (fun s e => s.putExt e x) es s) :=
    hq.of_parts ((hframe (fun u => u.cellar.waiting) fun _ _ _ => rfl).trans hq.1) (fun h => congrArg HostPort.waitingReqs
      (hframe (fun u => u.host h) fun _ _ _ => rfl)) (hframe State.hallway fun _ _ _ => rfl)
  have hpowered := queueScrub_powered hquiet es
  refine ⟨fun e he => ?_, fun e he => ?_, hpowered.mem.trans (hframe (fun u => u.cellar.mem) fun _ _ _ => rfl),
    hpowered.ctxs.trans (hframe State.ctxs fun _ _ _ => rfl)⟩
  · obtain ⟨power, waking, hext⟩ := hpowered.ext e
    rw [putExts_ext, if_pos he] at hext
    rw [takeExts, hext]
    exact ⟨rfl, rfl, rfl, rfl⟩
  · exact (hpowered.others e he).trans ((putExts_ext es x e).trans (if_neg he))

end Take

/-- An extent as a grant writes it (R333). -/
def Extent.grantingTo (h leaseS : Nat) (ses : Session) : Extent :=
  { state := .granting, owner := .host h, leaseS := leaseS, identity := ses.identity, corrected := 0 }

section Grant
variable {s : State} {sess : Option Nat} (tag : BitVec 16) {p : List Byte} (h : MgmtReady s sess) (hlen : p.length = 8)
  (hexists : s.hostExists (le p 0 1) = true) (hz1 : allZero p 1 1 = true) (hlo : 1 ≤ le p 2 2) (hhi : le p 2 2 ≤ 800) (hlease : le p 4 2 ≤ 3600)
  (hz6 : allZero p 6 2 = true)
include h hlen hexists hz1 hlo hhi hlease hz6

theorem exec_grant : exec (.grant sess tag p) s = .next ((s.admitted sess).grantTo tag (le p 0 1) (le p 2 2) (le p 4 2)) :=
  congrArg Host.Outcome.next (State.readyCommand_of_ready h (by simp [hlen])
    (by simp [hexists, nonzero, hz1, hz6, hhi, hlease, Nat.ne_of_gt hlo]))

theorem exec_grant_noSession (hses : s.hostSessionOf (le p 0 1) = none) :
    ∃ t, exec (.grant sess tag p) s = .next t ∧ Answered t 0x10 tag 0x27 (le p 0 1) [] ∧ t.cellar = s.cellar := by
  have hnone : (s.admitted sess).hostSessionOf (le p 0 1) = none := by
    simpa [hses] using s.admitted_hostSessionOf (sess := sess) (le p 0 1)
  refine ⟨_, exec_grant tag h hlen hexists hz1 hlo hhi hlease hz6, ?_⟩
  have hreply : (s.admitted sess).grantTo tag (le p 0 1) (le p 2 2) (le p 4 2) = (s.admitted sess).reply 0x10 tag 0x27 (le p 0 1) := by
    rw [State.grantTo, hnone]
  rw [hreply]
  exact ⟨.respond _ _ _ _ _ _, s.admitted_cellar sess⟩

variable {ses : Session} {i : Nat} (hses : s.hostSessionOf (le p 0 1) = some ses) (hsuite : s.suiteOfPort (le p 0 1) = some i)
include hses hsuite

/-- With a session and a Suite a grant finds its key, its ceiling and its room as they were. -/
theorem exec_grant_session : ∃ ses' : Session, ses'.identity = ses.identity ∧ exec (.grant sess tag p) s = .next (
    let u := s.admitted sess
    if (FMap.find s.cellar.keys (le p 0 1)).isNone then u.reply 0x10 tag 0x25 (le p 0 1)
    else if s.suiteCfg i 8 2 < s.suiteHeld i + le p 2 2 then u.reply 0x10 tag 0x23 i
    else if s.grantable (some i) < le p 2 2 then u.reply 0x10 tag 0x22 0
    else (u.takeExts (s.freeExts.take (le p 2 2)) (Extent.grantingTo (le p 0 1) (s.leaseOf (le p 4 2)) ses')).accept 0x10 tag 2 (s.freeExts.take (le p 2 2)) none
        (chosenBytes (s.freeExts.take (le p 2 2)))) := by
  have hframe {β : Type} (v : State → β) := s.admitted_frame v sess
  have hident := s.admitted_hostSessionOf (sess := sess) (le p 0 1)
  rw [hses] at hident
  obtain ⟨ses', hses', hsame⟩ := Option.map_eq_some_iff.mp hident
  refine ⟨ses', hsame, ?_⟩
  rw [exec_grant tag h hlen hexists hz1 hlo hhi hlease hz6, State.grantTo, hses', hframe (fun u => u.suiteOfPort (le p 0 1)) fun _ _ => rfl, hsuite,
    State.admitted_cellar]
  dsimp only
  rw [hframe (fun u => u.suiteCfg i 8 2) fun _ _ => rfl, hframe (fun u => u.suiteHeld i) fun _ _ => rfl,
    hframe (fun u => u.grantable (some i)) fun _ _ => rfl, hframe State.freeExts fun _ _ => rfl,
    hframe (fun u => u.leaseOf (le p 4 2)) fun _ _ => rfl]
  rfl

theorem exec_grant_noKey (hkey : FMap.find s.cellar.keys (le p 0 1) = none) :
    ∃ t, exec (.grant sess tag p) s = .next t ∧ Answered t 0x10 tag 0x25 (le p 0 1) [] ∧ t.cellar = s.cellar := by
  obtain ⟨ses', -, hexec⟩ := exec_grant_session tag h hlen hexists hz1 hlo hhi hlease hz6 hses hsuite
  refine ⟨_, hexec, ?_⟩
  simp only [hkey, Option.isNone_none, if_true]
  exact ⟨.respond _ _ _ _ _ _, s.admitted_cellar sess⟩

variable {key : List Byte} (hkey : FMap.find s.cellar.keys (le p 0 1) = some key)
include hkey

theorem exec_grant_ceiling (hover : s.suiteCfg i 8 2 < s.suiteHeld i + le p 2 2) :
    ∃ t, exec (.grant sess tag p) s = .next t ∧ Answered t 0x10 tag 0x23 i [] ∧ t.cellar = s.cellar := by
  obtain ⟨ses', -, hexec⟩ := exec_grant_session tag h hlen hexists hz1 hlo hhi hlease hz6 hses hsuite
  refine ⟨_, hexec, ?_⟩
  simp only [hkey, Option.isNone_some, Bool.false_eq_true, if_false, hover, if_true]
  exact ⟨.respond _ _ _ _ _ _, s.admitted_cellar sess⟩

variable (hunder : s.suiteHeld i + le p 2 2 ≤ s.suiteCfg i 8 2)
include hunder

theorem exec_grant_noRoom (hroom : s.grantable (some i) < le p 2 2) :
    ∃ t, exec (.grant sess tag p) s = .next t ∧ Answered t 0x10 tag 0x22 0 [] ∧ t.cellar = s.cellar := by
  obtain ⟨ses', -, hexec⟩ := exec_grant_session tag h hlen hexists hz1 hlo hhi hlease hz6 hses hsuite
  refine ⟨_, hexec, ?_⟩
  simp only [hkey, Option.isNone_some, Bool.false_eq_true, if_false, Nat.not_lt.mpr hunder, hroom, if_true]
  exact ⟨.respond _ _ _ _ _ _, s.admitted_cellar sess⟩

theorem exec_grant_taken (hroom : le p 2 2 ≤ s.grantable (some i)) : let es := s.freeExts.take (le p 2 2)
    ∃ t, exec (.grant sess tag p) s = .next t ∧ Answered t 0x10 tag 0x01 0 (toLe 2 es.length ++ toLe 2 0 ++ es.flatMap (fun e => toLe 2 e)) ∧
      (CellsQuiet s → (∀ e ∈ es, (t.ext e).state = .granting ∧ (t.ext e).owner = .host (le p 0 1) ∧ (t.ext e).identity = ses.identity ∧
        (t.ext e).leaseS = (if le p 4 2 = 0 then s.defaultLease else le p 4 2)) ∧
        (∀ e, e ∉ es → t.ext e = s.ext e) ∧ t.cellar.mem = s.cellar.mem ∧ t.ctxs = s.ctxs) := by
  obtain ⟨ses', hsame, hexec⟩ := exec_grant_session tag h hlen hexists hz1 hlo hhi hlease hz6 hses hsuite
  refine ⟨_, hexec, ?_⟩
  simp only [hkey, Option.isNone_some, Bool.false_eq_true, if_false, Nat.not_lt.mpr hunder, Nat.not_lt.mpr hroom]
  refine ⟨.accept _ _ _ _ _ _ _, fun hq => ?_⟩
  obtain ⟨htaken, hothers, hmem, hctxs⟩ := State.takeExts_of_quiet (hq.admitted (sess := sess)) (s.freeExts.take (le p 2 2))
    (Extent.grantingTo (le p 0 1) (s.leaseOf (le p 4 2)) ses')
  simp only [State.accept_ext, State.accept_cellar, State.accept_ctxs]
  refine ⟨fun e he => ?_, fun e he => (hothers e he).trans (State.admitted_ext e), hmem.trans (by rw [State.admitted_cellar]),
    hctxs.trans (s.admitted_ctxs sess)⟩
  obtain ⟨hstate, howner, hident, hleaseS⟩ := htaken e he
  exact ⟨hstate, howner, hident.trans hsame, hleaseS⟩

end Grant

/-! ## RELEASE (R353, R512) -/

theorem FMap.mem_of_find {α : Type} {m : FMap α} {k : Nat} {v : α} (h : FMap.find m k = some v) : (k, v) ∈ m := by
  induction m with
  | nil => cases h
  | cons w m ih =>
    obtain ⟨j, x⟩ := w
    unfold FMap.find at h
    split at h
    next heq => rw [heq, Option.some.inj h]; exact List.mem_cons_self
    next => exact List.mem_cons_of_mem _ (ih h)

section Release
variable {s : State} {sess : Option Nat} (tag : BitVec 16) {p : List Byte} (h : MgmtReady s sess) (hlen : p.length = 4 + 2 * le p 0 2)
  (hlo : 1 ≤ le p 0 2) (hhi : le p 0 2 ≤ 800) (hz : allZero p 2 2 = true) (hes : ∀ e ∈ releaseList p, e < 800)
include h hlen hlo hhi hz hes

theorem exec_release : exec (.release sess tag p) s = .next (match (releaseList p).findSome? s.releaseCheck with
    | some (st, d) => (s.admitted sess).reply 0x11 tag st d
    | none => ((s.admitted sess).reclaim 2 (releaseList p).eraseDups).accept 0x11 tag 2 (releaseList p).eraseDups none []) := by
  have hcheck : (s.admitted sess).releaseCheck = s.releaseCheck := s.admitted_frame State.releaseCheck sess fun _ _ => rfl
  have hbelow (i : Nat) (hi : i < le p 0 2) : (releaseList p).getD i 0 < 800 := by
    have hlength : i < (releaseList p).length := by simpa [releaseList] using hi
    rw [List.getD_eq_getElem _ _ hlength]
    exact hes _ (List.getElem_mem hlength)
  have hready := State.readyCommand_of_ready (tag := tag) (code := 0x11) (lenOk := 4 ≤ p.length && p.length == 4 + 2 * le p 0 2)
    (fields := [(le p 0 2 == 0 || 800 < le p 0 2, 0), (nonzero p 2 2, 2)] ++
      (List.range (le p 0 2)).map (fun i => (decide (800 ≤ (releaseList p).getD i 0), 4 + 2 * i)))
    (f := fun s => match (releaseList p).findSome? s.releaseCheck with
      | some (st, d) => s.reply 0x11 tag st d
      | none => (s.reclaim 2 (releaseList p).eraseDups).accept 0x11 tag 2 (releaseList p).eraseDups none [])
    h (by simp [hlen]) ?_
  · exact (congrArg Host.Outcome.next hready).trans (by rw [hcheck])
  · refine List.find?_eq_none.mpr fun x hx => ?_
    obtain hx | hx := List.mem_append.mp hx
    · obtain rfl | rfl : x = _ ∨ x = _ := by simpa using hx
      · simp [hhi, Nat.ne_of_gt hlo]
      · simp [nonzero, hz]
    · obtain ⟨i, hi, rfl⟩ := List.mem_map.mp hx
      simpa using hbelow i (List.mem_range.mp hi)

theorem exec_release_refused {st d : Nat} (hcheck : (releaseList p).findSome? s.releaseCheck = some (st, d)) :
    ∃ t, exec (.release sess tag p) s = .next t ∧ Answered t 0x11 tag st d [] ∧ t.cellar = s.cellar := by
  exact ⟨(s.admitted sess).reply 0x11 tag st d, (exec_release tag h hlen hlo hhi hz hes).trans (by rw [hcheck]), rfl, s.admitted_cellar sess⟩

theorem exec_release_reclaims (hcheck : ∀ e ∈ releaseList p, s.releaseCheck e = none) : ∃ t, exec (.release sess tag p) s = .next t ∧
    Answered t 0x11 tag 0x01 0 [] ∧ (CellsQuiet s → (∀ e ∈ releaseList p, (t.ext e).state = .reclaiming ∧ (t.ext e).cause = 2 ∧
      ∀ k slot, FMap.find (t.host k).window slot ≠ some e) ∧ ∀ e, e ∉ releaseList p → t.ext e = s.ext e) := by
  have hnone : (releaseList p).findSome? s.releaseCheck = none := List.findSome?_eq_none_iff.mpr hcheck
  refine ⟨((s.admitted sess).reclaim 2 (releaseList p).eraseDups).accept 0x11 tag 2 (releaseList p).eraseDups none [],
    (exec_release tag h hlen hlo hhi hz hes).trans (by rw [hnone]), .accept _ _ _ _ _ _ _, fun hq => ?_⟩
  obtain ⟨hreclaimed, hothers⟩ := State.reclaim_of_quiet 2 (releaseList p).eraseDups (hq.admitted (sess := sess))
  simp only [State.accept_ext, State.accept_host]
  refine ⟨fun e he => ?_, fun e he => (hothers e (by simpa using he)).trans (State.admitted_ext e)⟩
  obtain ⟨hstate, hcause, hno⟩ := hreclaimed e (by simpa using he)
  exact ⟨hstate, hcause, fun k slot hfind => hno k (slot, e) (FMap.mem_of_find hfind) rfl⟩

end Release

/-- Settles O41: the checks of GRANT and RELEASE one by one, then the extents that each takes. -/
theorem grantsAndReleases : Obligations.GrantsAndReleases := by
  unfold Obligations.GrantsAndReleases
  refine fun s sess tag p h => ⟨fun hlen hexists hz1 hlo hhi hlease hz6 => ⟨fun ses i key hses hsuite hkey hunder hroom => ?_, fun i hses _ => ?_,
    fun ses i hses hsuite hkey => ?_, fun ses i key hses hsuite hkey => ⟨fun hover => ?_, fun hunder hroom => ?_⟩⟩,
    fun hlen hlo hhi hz hes => ⟨exec_release_reclaims tag h hlen hlo hhi hz hes, fun st d => exec_release_refused tag h hlen hlo hhi hz hes⟩⟩
  · exact exec_grant_taken tag h hlen hexists hz1 hlo hhi hlease hz6 hses hsuite hkey hunder hroom
  · exact exec_grant_noSession tag h hlen hexists hz1 hlo hhi hlease hz6 hses
  · exact exec_grant_noKey tag h hlen hexists hz1 hlo hhi hlease hz6 hses hsuite hkey
  · exact exec_grant_ceiling tag h hlen hexists hz1 hlo hhi hlease hz6 hses hsuite hkey hover
  · exact exec_grant_noRoom tag h hlen hexists hz1 hlo hhi hlease hz6 hses hsuite hkey hunder hroom

end Sys2Proof.Machine
end

section
/-! Settling O14: what becomes of a host block's read tags while Figures end, contexts settle and read data goes on (R160, R401). -/

namespace Sys2Proof.Machine

/-! ## The tags of a host block -/

/-- A host block without its posted writes and what counts writes that are dropped. -/
def HostPort.readView (x : HostPort) : HostPort := { x.writeless with poisonPartialDrops := 0 }

/-- A host block without what reads have in flight either. -/
def HostPort.readless (x : HostPort) : HostPort := { x.readView with tags := [], heldReads := [] }

/-- The numbers of a block's tags, each with whether its read has timed out. -/
def HostPort.tagNumbers (x : HostPort) : List (Nat × Bool) := x.tags.map (fun t => (t.tag, t.timedOut))

/-- From `x` to `y` the block keeps its tags' numbers, and takes up no read. -/
structure ReadsKept (x y : HostPort) : Prop where
  rest : y.readless = x.readless
  tags : y.tagNumbers = x.tagNumbers
  held : x.heldReads = [] → y.heldReads = []

namespace ReadsKept
variable {x y z : HostPort}

theorem refl (x : HostPort) : ReadsKept x x := ⟨rfl, rfl, id⟩

theorem trans (h : ReadsKept x y) (k : ReadsKept y z) : ReadsKept x z :=
  ⟨k.rest.trans h.rest, k.tags.trans h.tags, k.held ∘ h.held⟩

theorem of_readView (h : y.readView = x.readView) : ReadsKept x y where
  rest := congrArg (fun z : HostPort => ({ z with tags := [], heldReads := [] } : HostPort)) h
  tags := (congrArg HostPort.tagNumbers h : y.readView.tagNumbers = _)
  held hno := (congrArg HostPort.heldReads h : y.readView.heldReads = _).trans hno

theorem of_wrote (h : x.Wrote y) : ReadsKept x y := .of_readView (congrArg (fun z : HostPort => ({ z with poisonPartialDrops := 0 } : HostPort)) h.1)

variable (h : ReadsKept x y)
include h

theorem busMaster : y.busMaster = x.busMaster := (congrArg HostPort.busMaster h.rest : y.readless.busMaster = _)
theorem slowReads : y.slowReads = x.slowReads := (congrArg HostPort.slowReads h.rest : y.readless.slowReads = _)
theorem droppedReplies : y.droppedReplies = x.droppedReplies := (congrArg HostPort.droppedReplies h.rest : y.readless.droppedReplies = _)
theorem tagLeaks : y.tagLeaks = x.tagLeaks := (congrArg HostPort.tagLeaks h.rest : y.readless.tagLeaks = _)

end ReadsKept

theorem HostPort.tag?_eq_none_iff (x : HostPort) (t : Nat) : x.tag? t = none ↔ ∀ p ∈ x.tagNumbers, p.1 ≠ t := by
  simp [tag?, tagNumbers]

theorem ReadsKept.tag?_none {x y : HostPort} {t : Nat} (h : ReadsKept x y) (hnone : x.tag? t = none) : y.tag? t = none := by
  rw [HostPort.tag?_eq_none_iff] at hnone ⊢
  rwa [h.tags]

/-- A tag that has timed out is in use until it is reclaimed (R415). -/
theorem HostPort.tag?_timedOut {x : HostPort} {t : Nat} (huse : ∃ p ∈ x.tagNumbers, p.1 = t) (hall : ∀ p ∈ x.tagNumbers, p.1 = t → p.2 = true) :
    ∃ y, x.tag? t = some y ∧ y.timedOut = true := by
  cases hfind : x.tag? t with
  | none =>
    obtain ⟨p, hp, hpt⟩ := huse
    exact absurd hpt ((x.tag?_eq_none_iff t).mp hfind p hp)
  | some y =>
    refine ⟨y, rfl, hall (y.tag, y.timedOut) (List.mem_map_of_mem (List.mem_of_find?_eq_some hfind)) ?_⟩
    simpa using List.find?_some hfind

/-- A tag that is free is not in use. -/
theorem HostPort.freeTag_tag? (x : HostPort) (t : Nat) : (x.freeTag t).finishAts.tag? t = none := by
  rw [tag?_eq_none_iff]
  intro p hp
  obtain ⟨y, hy, rfl⟩ := List.mem_map.mp hp
  simpa using (List.mem_filter.mp hy).2

/-- With Bus Master Enable clear, or nothing held, no read goes out (R400). -/
theorem State.pumpHost_readsKept (s : State) (h : Nat) (hno : (s.host h).busMaster = false ∨ (s.host h).heldReads = []) :
    ReadsKept (s.host h) ((s.pumpHost h).host h) := by
  unfold pumpHost
  dsimp only
  split
  · exact .refl _
  next hbm =>
    obtain hclear | hheld := hno
    · exact absurd hclear (by simpa using hbm)
    · rw [putHost_host_self, hheld]
      exact .of_readView rfl

theorem State.pumpHost_readless (s : State) (h : Nat) : ((s.pumpHost h).host h).readless = (s.host h).readless := by
  have hreads (limit : Nat) (now : Word64) (ats : Bool) (n : Nat) (x : HostPort) : (pumpReads limit now ats n x).readless = x.readless := by
    induction n generalizing x with
    | zero => rfl
    | succ n ih =>
      rw [pumpReads]
      split
      · rfl
      · split
        · exact ih _
        · rfl
  unfold pumpHost
  dsimp only
  split
  · rfl
  · rw [putHost_host_self]
    exact hreads _ _ _ _ _

/-! ## What settling leaves of them -/

theorem State.freeFlight_host (s : State) (c : Nat) (f : Flight) (n : Nat) :
    (s.freeFlight c f).host n = ((s.host n).readsDropped c f.fid).writesDropped c f.fid := by
  have hwaiter : (s.clearWaiter c f.kind).host n = s.host n := by
    obtain ⟨x, h⟩ := s.clearWaiter_eq c f.kind
    rw [h, host, host]
  have hwire (u : State) : (u.dropWire c f).host n = u.host n := by
    unfold dropWire
    dsimp only
    split <;> rfl
  change ((((s.clearWaiter c f.kind).dropReads c f.fid).dropWrites c f.fid).dropWire c f).host n = _
  rw [hwire, dropWrites_host, dropReads_host, hwaiter]

theorem HostPort.dropped_readsKept (x : HostPort) (c fid : Nat) : ReadsKept x ((x.readsDropped c fid).writesDropped c fid) where
  rest := rfl
  tags := by
    simp only [tagNumbers, writesDropped, readsDropped, List.map_map]
    refine List.map_congr_left fun t _ => ?_
    simp only [Function.comp_apply]
    split <;> rfl
  held hno := by simp [writesDropped, readsDropped, hno]

theorem Settles.readsKept {K : Nat → Prop} {told : Prop} {s t : State} (h : Settles K told s t) (n : Nat) : ReadsKept (s.host n) (t.host n) := by
  induction h with
  | refl => exact .refl _
  | tail _ hstep ih =>
    refine ih.trans ?_
    cases hstep with
    | host m x hw =>
      rw [State.putHost_host]
      split
      next heq => exact heq ▸ .of_wrote hw
      next => exact .refl _
    | record a => rw [State.record_host]; exact .refl _
    | wake =>
      obtain ⟨pw, hwake⟩ := State.wake_eq ‹_›
      rw [hwake]
      exact .refl _
    | freed c f => rw [State.freeFlight_host]; exact HostPort.dropped_readsKept _ c f.fid
    | _ => exact .refl _

/-- A read that has failed ends its Figure, and its context settles. -/
theorem State.readFailed_readsKept (s : State) (h : Nat) (o : ReadOwner) (n : Nat) : ReadsKept (s.host n) ((s.readFailed h o).host n) :=
  ((s.failFlight_settles (K := fun _ => True) trivial (told := True) trivial _ _).trans (settle_settles _ (quietOff_true _) _)).readsKept n

/-! ## What read data leaves of them -/

/-- What the host blocks keep while read data goes to its Figure. -/
def State.readViews (s : State) : Nat → HostPort := fun n => (s.host n).readView

section Data
variable (s : State)

theorem State.putHost_readViews {n : Nat} {x : HostPort} (h : x.readView = (s.host n).readView) : (s.putHost n x).readViews = s.readViews := by
  funext m
  change ((s.putHost n x).host m).readView = _
  rw [putHost_host]
  split
  next hm => rw [h, hm]; rfl
  next => rfl

theorem sendFrame_readViews : SendFrame State.readViews := ⟨fun _ _ _ _ => rfl, fun _ _ => rfl, fun _ _ => rfl⟩

theorem State.post_readViews (h : Nat) (w : HostWrite) : (s.post h w).readViews = s.readViews := by
  unfold post
  dsimp only
  split <;> exact s.putHost_readViews rfl

theorem State.postBytes_readViews (h iova : Nat) (b : List Byte) (c fid : Nat) : (s.postBytes h iova b c fid).readViews = s.readViews :=
  overList_frame State.readViews (f := fun s (x : Nat × Nat) => s.post h (.data (BitVec.ofNat 64 (iova + x.1)) (slice b x.1 x.2) c fid))
    (fun u _ => u.post_readViews _ _) _ s

theorem State.writeSlot_readViews (c fid : Nat) (k : Coll) (m : LMember) (pl : Place) (b : List Byte) (keep : Bool) :
    (s.writeSlot c fid k m pl b keep).readViews = s.readViews := by
  have hflag (u : State) (h : Nat) (w : HostWrite) : (if k.stream then u.post h w else u).readViews = u.readViews := by
    split
    · exact u.post_readViews _ _
    · rfl
  unfold writeSlot
  dsimp only
  split
  · exact hflag _ _ _
  · exact overList_frame State.readViews (fun u _ => (hflag _ _ _).trans (u.postBytes_readViews _ _ _ _ _)) _ s

theorem State.deliver_readViews (c fid : Nat) (k : Coll) (src dst n : Nat) (b : List Byte) : (s.deliver c fid k src dst n b).readViews = s.readViews := by
  refine overList_frame State.readViews (fun u m => ?_) _ s
  split
  · rfl
  · exact u.writeSlot_readViews _ _ _ _ _ _ _

theorem State.sendOn_readViews (c fid : Nat) (k : Coll) (n src dst formedBy : Nat) (seq : Option Nat) (aux : ChunkAux) (b : List Byte)
    (from_ : Option Nat) : (s.sendOn c fid k n src dst formedBy seq aux b from_).readViews = s.readViews := by
  refine overList_frame State.readViews (fun u e => ?_) _ s
  dsimp only
  split
  · exact sendFrame_readViews.fillOut _ _ _ _
  · split <;> rfl

theorem State.upOpened_readViews (c fid : Nat) (k : Coll) (n : Nat) :
    (if (s.upOut c fid n).isSome then s else s.openUp c fid k n).readViews = s.readViews := by
  split <;> rfl

theorem State.fillUp_readViews (c fid : Nat) (k : Coll) (n : Nat) (x : Part) : (s.fillUp c fid k n x).readViews = s.readViews := by
  unfold fillUp
  dsimp only
  split
  · exact (sendFrame_readViews.fillOut _ _ _ _).trans (s.upOpened_readViews _ _ _ _)
  · exact s.upOpened_readViews _ _ _ _

theorem State.speculate_readViews (c fid n : Nat) : (s.speculate c fid n).readViews = s.readViews := by
  unfold speculate
  split
  · rfl
  split
  · rfl
  next k _ _ =>
    extract_lets ps b u
    have hup : u.readViews = s.readViews := s.upOpened_readViews c fid k n
    split
    · exact hup
    split
    · split
      · exact hup
      · exact (sendFrame_readViews.pushPieces _ _).trans ((sendFrame_readViews.modOut _ _ _).trans hup)
    · exact hup

theorem State.rootChunk_readViews (c fid : Nat) (k : Coll) (n : Nat) (x : Part) : (s.rootChunk c fid k n x).readViews = s.readViews :=
  (sendOn_readViews _ _ _ _ _ _ _ _ _ _ _ _).trans (deliver_readViews _ _ _ _ _ _ _ _)

theorem State.nodeTry_readViews (c fid n : Nat) : (s.nodeTry c fid n).readViews = s.readViews := by
  unfold nodeTry
  split
  · rfl
  next k _ =>
    dsimp only
    split
    · have hfolded (u : State) (b : Bool) : (if b then u.countReorder c fid else u).readViews = u.readViews := by
        split <;> rfl
      split
      · split
        · exact (rootChunk_readViews _ _ _ _ _ _).trans (hfolded _ _)
        · exact (fillUp_readViews _ _ _ _ _ _).trans (hfolded _ _)
      · exact hfolded _ _
    · exact s.speculate_readViews _ _ _

theorem State.stage1Try_readViews (c fid n : Nat) : (s.stage1Try c fid n).readViews = s.readViews := by
  unfold stage1Try
  split
  · rfl
  next k _ =>
    dsimp only
    split
    · rfl
    · refine (nodeTry_readViews _ _ _ _).trans ?_
      split <;> rfl

theorem State.copyTry_readViews (c fid mi : Nat) (m : LMember) (src dst n : Nat) : (s.copyTry c fid mi m src dst n).readViews = s.readViews := by
  unfold copyTry
  split
  · rfl
  · dsimp only
    split
    · rfl
    · exact (sendOn_readViews _ _ _ _ _ _ _ _ _ _ _ _).trans (deliver_readViews _ _ _ _ _ _ _ _)

theorem State.progress_readViews (c fid : Nat) : (s.progress c fid).readViews = s.readViews := by
  unfold progress
  split
  · rfl
  next k _ =>
    split
    · rfl
    split
    · exact overList_frame State.readViews (fun u n => u.stage1Try_readViews c fid n) _ s
    · exact overList_frame State.readViews (fun u _ => overList_frame State.readViews (fun v _ =>
        overList_frame State.readViews (fun v n => v.copyTry_readViews c fid _ _ _ _ n) _ v) _ u) _ s

theorem State.collPiece_readViews (c fid mi off : Nat) (b : List Byte) : (s.collPiece c fid mi off b).readViews = s.readViews :=
  progress_readViews _ _ _

theorem State.touch_readViews (off len : Nat) : (s.touch off len).readViews = s.readViews := by
  refine overList_frame State.readViews (fun u e => ?_) _ s
  split <;> rfl

theorem State.figurePut_readViews (off : Nat) (b : List Byte) : (s.figurePut off b).readViews = s.readViews := by
  have hput (u : State) : (u.cellarPut off b).readViews = u.readViews := u.touch_readViews off b.length
  refine (hput _).trans (overList_frame State.readViews (fun u x => ?_) _ s)
  split
  · exact u.putHost_readViews rfl
  · rfl

theorem State.moveToCells_readViews (c fid off : Nat) (b : List Byte) : (s.moveToCells c fid off b).readViews = s.readViews := by
  unfold moveToCells
  split
  · rfl
  split
  · exact s.touch_readViews off b.length
  · exact s.figurePut_readViews off b

theorem State.placeMove_readViews (sel addr : Nat) (b : List Byte) (c fid : Nat) : (s.placeMove sel addr b c fid).readViews = s.readViews := by
  unfold placeMove
  split
  · exact s.moveToCells_readViews _ _ _ _
  split
  · unfold countTarget
    split
    · exact s.putHost_readViews rfl
    · rfl
  · exact s.postBytes_readViews _ _ _ _ _

theorem State.moveChunk_readViews (c fid n : Nat) : (s.moveChunk c fid n).readViews = s.readViews := by
  unfold moveChunk
  split
  · rfl
  split
  · rfl
  · split <;> rfl

theorem State.movePiece_readViews (c fid off : Nat) (b : List Byte) : (s.movePiece c fid off b).readViews = s.readViews := by
  unfold movePiece
  split
  · rfl
  · dsimp only
    split
    · exact placeMove_readViews _ _ _ _ _ _
    · exact overList_frame State.readViews (fun u n => u.moveChunk_readViews c fid n) _ _

/-- Data that has been read goes on, and every host block keeps its tags. -/
theorem State.readData_readsKept (o : ReadOwner) (b : List Byte) (n : Nat) : ReadsKept (s.host n) ((s.readData o b).host n) := by
  have hsettle (u : State) (c : Nat) (h : u.readViews = s.readViews) : ReadsKept (s.host n) ((u.settle c).host n) :=
    (ReadsKept.of_readView (congrFun h n)).trans ((settle_settles (told := False) u (quietOff_true u) c).readsKept n)
  cases o with
  | coll c f m off => exact hsettle _ c (s.collPiece_readViews c f m off b)
  | move c f off => exact hsettle _ c (s.movePiece_readViews c f off b)

theorem State.slowRead_readsKept (h : Nat) (t : ReadTag) (n : Nat) : ((s.slowRead h t).host n).busMaster = (s.host n).busMaster ∧
    ((s.slowRead h t).host n).tagNumbers = (s.host n).tagNumbers := by
  have hcount (c : Nat) : (s.countSlow c h).host n = if n = h then { s.host h with slowReads := satInc (s.host h).slowReads } else s.host n :=
    s.putHost_host h n _
  unfold slowRead
  split
  · rw [hcount]
    split
    next hn => rw [hn]; exact ⟨rfl, rfl⟩
    next => exact ⟨rfl, rfl⟩
  · exact ⟨rfl, rfl⟩

end Data

end Sys2Proof.Machine
end

section
/-! Settling O14: the time that passes up to a read's timeout or a stalled path (R40, R315, R354) leaves what the Figure of a read needs. -/

namespace Sys2Proof.Machine

/-- From `s` to `t` time has passed: contexts have counted cycles and token buckets have filled. -/
structure Elapsed (s t : State) : Prop where
  ctx : ∀ c, ∃ a b, t.ctx c = { s.ctx c with waitingCycles := a, ringFull := b }
  host : ∀ h, ∃ k, t.host h = { s.host h with tokens := k }
  config : t.hearth.config = s.hearth.config
  suites : t.suites = s.suites
  cellar : t.cellar = s.cellar

namespace Elapsed
variable {s t u : State}

/-- What leaves the contexts, the hosts and these parts passes no time of theirs. -/
theorem of_parts (hctxs : t.ctxs = s.ctxs) (hhosts : t.hosts = s.hosts) (hconfig : t.hearth.config = s.hearth.config)
    (hsuites : t.suites = s.suites) (hcellar : t.cellar = s.cellar) : Elapsed s t where
  ctx c := ⟨_, _, by rw [State.ctx, hctxs, State.ctx]⟩
  host h := ⟨_, by rw [State.host, hhosts, State.host]⟩
  config := hconfig
  suites := hsuites
  cellar := hcellar

theorem refl (s : State) : Elapsed s s := of_parts rfl rfl rfl rfl rfl

theorem trans (h : Elapsed s t) (k : Elapsed t u) : Elapsed s u where
  ctx c := by
    obtain ⟨_, _, hs⟩ := h.ctx c
    obtain ⟨a, b, ht⟩ := k.ctx c
    exact ⟨a, b, by rw [ht, hs]⟩
  host n := by
    obtain ⟨_, hs⟩ := h.host n
    obtain ⟨b, ht⟩ := k.host n
    exact ⟨b, by rw [ht, hs]⟩
  config := k.config.trans h.config
  suites := k.suites.trans h.suites
  cellar := k.cellar.trans h.cellar

theorem overList {α : Type} {f : State → α → State} (hf : ∀ u x, Elapsed u (f u x)) (l : List α) (s : State) : Elapsed s (Machine.overList f l s) := by
  induction l generalizing s with
  | nil => exact refl s
  | cons x l ih => exact (hf s x).trans (ih _)

end Elapsed

section Passes
variable (s : State)

theorem State.refill_elapsed (k : Nat) : Elapsed s (s.refill k) := by
  unfold refill
  split
  · exact .refl s
  · refine ⟨fun c => ⟨_, _, rfl⟩, fun h => ?_, rfl, rfl, rfl⟩
    have hmapped : ({ s with hosts := s.hosts.map (fun (h, x) => (h, x.refill k)) } : State).host h = (s.host h).refill k :=
      FMap.get_mapped ({} : HostPort) s.hosts (fun _ x => x.refill k) h rfl
    rw [hmapped, HostPort.refill]
    split <;> exact ⟨_, rfl⟩

theorem State.laneWindows_elapsed (k : Nat) : Elapsed s (s.laneWindows k) := by
  have hwindow (u : State) (p : Nat) : Elapsed u (u.laneWindow p) := by
    refine .overList (fun v i => ?_) _ u
    split
    · exact .refl v
    · exact .of_parts rfl rfl rfl rfl rfl
  unfold laneWindows
  dsimp only
  split
  · exact .refl s
  · exact .overList (fun u _ => .overList hwindow _ u) _ s

theorem State.endPulse_elapsed : Elapsed s s.endPulse := by
  unfold endPulse
  split
  · split
    · exact .of_parts rfl rfl rfl rfl rfl
    · exact .refl s
  · exact .refl s

theorem State.countCycles_elapsed (k c : Nat) : Elapsed s (s.countCycles k c) where
  ctx d := by
    unfold countCycles
    rw [modCtx_eq, putCtx_ctx]
    split
    next hd => exact ⟨_, _, by rw [hd]⟩
    next => exact ⟨_, _, rfl⟩
  host h := ⟨_, rfl⟩
  config := rfl
  suites := rfl
  cellar := rfl

theorem State.elapse_elapsed (n : Nat) : Elapsed s (s.elapse n) := by
  unfold elapse
  split
  · exact .refl s
  · extract_lets ends u t k th y v
    have hstart : Elapsed s { s with hall := s.hall + BitVec.ofNat 64 n, sync := s.sync.slew n } := .of_parts rfl rfl rfl rfl rfl
    have hu : Elapsed s u := hstart.trans ((refill_elapsed _ _).trans ((laneWindows_elapsed _ _).trans (endPulse_elapsed _)))
    have hv : Elapsed s v := hu.trans (.of_parts rfl rfl rfl rfl rfl)
    split
    · exact hu
    split
    · exact hv
    · exact hv.trans (.overList (fun w c => w.countCycles_elapsed k c) _ v)

theorem State.reach_elapsed (w : Word64) : Elapsed s (s.reach w) := by
  unfold reach
  split
  · exact s.elapse_elapsed _
  · exact .refl s

end Passes

/-! ## A Figure alone in its context is so still -/

namespace Elapsed
variable {s t : State} {c : Nat} (h : Elapsed s t)
include h

theorem ringRoom : t.ringRoom c = s.ringRoom c := by
  obtain ⟨a, b, hctx⟩ := h.ctx c
  have hhost (n : Nat) : (t.host n).state = (s.host n).state := by
    obtain ⟨k, hk⟩ := h.host n
    rw [hk]
  have hkeeps : AbortKeeps c { s with ctxs := t.ctxs } t := ⟨fun _ _ => rfl, h.config, h.suites, hhost⟩
  have hsame : ({ s with ctxs := t.ctxs } : State).ringRoom c = s.ringRoom c := by
    unfold State.ringRoom
    have hc : ({ s with ctxs := t.ctxs } : State).ctx c = _ := hctx
    rw [hc]
    rfl
  exact (hkeeps.ringRoom rfl rfl).trans hsame

theorem alone {w : Flight} (ha : Alone s c w) : Alone t c w := by
  obtain ⟨a, b, hctx⟩ := h.ctx c
  obtain ⟨hflights, hdone, hlive, hlatched, hroom⟩ := ha
  refine ⟨?_, hdone, ?_, ?_, h.ringRoom.trans hroom⟩
  all_goals rw [hctx]
  · exact hflights
  · exact hlive
  · exact hlatched

theorem stoppedBy {u : State} {st : Nat} (hstop : StoppedBy t u c st) : StoppedBy s u c st := by
  obtain ⟨a, b, hctx⟩ := h.ctx c
  unfold StoppedBy at hstop ⊢
  rwa [hctx, h.cellar] at hstop

theorem tag? (n tag : Nat) : (t.host n).tag? tag = (s.host n).tag? tag := by
  obtain ⟨k, hk⟩ := h.host n
  rw [hk]
  rfl

end Elapsed

end Sys2Proof.Machine
end

section
/-! Settling O14: completions, timeouts and leaks of read tags (R160, R401, R415, R468). -/

namespace Sys2Proof.Machine

/-- The block's tag is free, and invalidations that waited for its read are completed (R399, R401). -/
def State.tagFreed (s : State) (h tag : Nat) : State := s.modHost h (fun x => (x.freeTag tag).finishAts)

/-- The block's read with this tag has timed out (R401). -/
def HostPort.timeOut (x : HostPort) (tag : Nat) : HostPort :=
  { x with tags := x.tags.map (fun y => if y.tag = tag then { y with timedOut := true } else y) }

/-- The block's tag is reclaimed, and counted as a leak (R415). -/
def HostPort.leaked (x : HostPort) (tag : Nat) : HostPort := { (x.freeTag tag).finishAts with tagLeaks := satInc x.tagLeaks }

section Parts
variable (s : State)

theorem State.tagFreed_host (h tag : Nat) : (s.tagFreed h tag).host h = ((s.host h).freeTag tag).finishAts := s.putHost_host_self h _

theorem AbortKeeps.putHost (c : Nat) {h : Nat} {x : HostPort} (hstate : x.state = (s.host h).state) : AbortKeeps c s (s.putHost h x) where
  ctx _ _ := rfl
  config := rfl
  suites := rfl
  hostState n := by
    rw [State.putHost_host]
    split
    next hn => rw [hstate, hn]
    next => rfl

/-- A read that fails is the end of a Figure alone in its context (R120, R401). -/
theorem State.readFailed_stops {s : State} (h : Nat) {o : ReadOwner} {w : Flight} (ha : Alone s o.flight.1 w) (hf : w.fid = o.flight.2) :
    StoppedBy s (s.readFailed h o) o.flight.1 0x23 := by
  unfold readFailed
  rw [← hf]
  exact failed_stops { status := 0x23, detail := BitVec.ofNat 32 (s.hostPos h) } ha rfl

theorem StoppedBy.pumpHost {s t : State} {c st : Nat} (h : Nat) (hstop : StoppedBy s t c st) : StoppedBy s (t.pumpHost h) c st := by
  have honly := OnlyHost.pumpHost t h
  have hctx : (t.pumpHost h).ctx c = t.ctx c := by rw [State.ctx, honly.ctxs, State.ctx]
  unfold StoppedBy at hstop ⊢
  rwa [hctx, honly.cellar]

theorem State.pumpHost_tag? {s : State} {h tag : Nat} (hnone : (s.host h).tag? tag = none)
    (hno : (s.host h).busMaster = false ∨ (s.host h).heldReads = []) : ((s.pumpHost h).host h).tag? tag = none :=
  (s.pumpHost_readsKept h hno).tag?_none hnone

theorem State.pumpHost_droppedReplies (h : Nat) : ((s.pumpHost h).host h).droppedReplies = (s.host h).droppedReplies :=
  (congrArg HostPort.droppedReplies (s.pumpHost_readless h) : ((s.pumpHost h).host h).readless.droppedReplies = _)

theorem State.pumpHost_tagLeaks (h : Nat) : ((s.pumpHost h).host h).tagLeaks = (s.host h).tagLeaks :=
  (congrArg HostPort.tagLeaks (s.pumpHost_readless h) : ((s.pumpHost h).host h).readless.tagLeaks = _)

/-- A tag that is reclaimed is free, and the leak is counted and recorded. -/
theorem State.leaked_reclaims (h tag : Nat) (a : RecArgs) : let t := ((s.putHost h ((s.host h).leaked tag)).record a).pumpHost h
    ((s.host h).busMaster = false ∨ (s.host h).heldReads = [] → (t.host h).tag? tag = none) ∧
    (t.host h).tagLeaks = satInc (s.host h).tagLeaks ∧ t.cellar = s.cellar := by
  generalize hu : (s.putHost h ((s.host h).leaked tag)).record a = u
  have huhost : u.host h = (s.host h).leaked tag := by rw [← hu, record_host, putHost_host_self]
  refine ⟨fun hidle => pumpHost_tag? ?_ ?_, ?_, ?_⟩
  · rw [huhost]
    exact (s.host h).freeTag_tag? tag
  · rw [huhost]
    exact hidle
  · rw [pumpHost_tagLeaks, huhost, HostPort.leaked]
  · rw [(OnlyHost.pumpHost u h).cellar, ← hu, record_cellar, putHost_cellar]

end Parts

/-! ## What the three commands do with a tag in use -/

section Tags
variable {s : State} {h : Fin 16} {tag : Nat} {x : ReadTag} (hx : (s.host h.val).tag? tag = some x)
include hx

theorem exec_dmaCompletionTimeout_abandoned (ht : x.timedOut = false) (ha : x.abandoned = true) : exec (.dmaCompletionTimeout h tag) s =
    .next (((s.reach (x.issuedAt + BitVec.ofNat 64 (1000 * (s.host h.val).timeoutUs))).tagFreed h.val tag).pumpHost h.val) := by
  change execDmaCompletionTimeout h tag s = _
  simp only [execDmaCompletionTimeout, hx, ht, ha, Bool.false_eq_true, if_false, if_true, State.tagFreed]

theorem exec_dmaCompletionTimeout_live (ht : x.timedOut = false) (ha : x.abandoned = false) : exec (.dmaCompletionTimeout h tag) s =
    .next (((s.reach (x.issuedAt + BitVec.ofNat 64 (1000 * (s.host h.val).timeoutUs))).modHost h.val (fun y => y.timeOut tag)).readFailed
      h.val x.req.owner) := by
  change execDmaCompletionTimeout h tag s = _
  simp only [execDmaCompletionTimeout, hx, ht, ha, Bool.false_eq_true, if_false, HostPort.timeOut]

theorem exec_readTagLeak_timedOut (ht : x.timedOut = true) : exec (.readTagLeak h tag) s =
    .next ((((s.reach (x.issuedAt + BitVec.ofNat 64 (1000 * (s.host h.val).timeoutUs + 1000000))).modHost h.val
      (fun x => x.leaked tag)).record
        { event := 0x0501, severity := 2, unitClass := 5, unitIndex := h.val, addr := x.req.iova.toNat }).pumpHost h.val) := by
  change execReadTagLeak h tag s = _
  simp only [execReadTagLeak, hx, ht, Bool.not_true, Bool.false_eq_true, if_false, HostPort.leaked]

theorem exec_dmaReadCompletion_unclaimed (res : ReadResult) (hno : x.abandoned = true ∨ x.timedOut = true) :
    exec (.dmaReadCompletion h tag res) s =
      .next (((s.tagFreed h.val tag).modHost h.val (fun x => { x with droppedReplies := satInc x.droppedReplies })).pumpHost h.val) := by
  change execDmaReadCompletion h tag res s = _
  unfold execDmaReadCompletion
  dsimp only
  rw [hx]
  exact congrArg (fun u : State => Host.Outcome.next (u.pumpHost h.val)) (if_pos (by simpa using hno))

variable (ha : x.abandoned = false) (ht : x.timedOut = false)
include ha ht

theorem exec_dmaReadCompletion_failed (res : ReadResult) (hres : (∀ b, res ≠ .ok b) ∨ ∃ b, res = .ok b ∧ b.length ≠ x.req.len) :
    exec (.dmaReadCompletion h tag res) s = .next (((s.tagFreed h.val tag).readFailed h.val x.req.owner).pumpHost h.val) := by
  change execDmaReadCompletion h tag res s = _
  unfold execDmaReadCompletion
  dsimp only
  rw [hx]
  refine congrArg (fun u : State => Host.Outcome.next (u.pumpHost h.val)) ((if_neg (by simp [ha, ht])).trans ?_)
  cases res with
  | ok b =>
    obtain hno | ⟨_, ⟨⟩, hlen⟩ := hres
    · exact absurd rfl (hno b)
    · exact if_neg hlen
  | _ => rfl

theorem exec_dmaReadCompletion_ok {b : List Byte} (hlen : b.length = x.req.len) :
    exec (.dmaReadCompletion h tag (.ok b)) s =
      .next ((((s.tagFreed h.val tag).slowRead h.val x).readData x.req.owner b).pumpHost h.val) := by
  change execDmaReadCompletion h tag (.ok b) s = _
  unfold execDmaReadCompletion
  dsimp only
  rw [hx]
  exact congrArg (fun u : State => Host.Outcome.next (u.pumpHost h.val)) ((if_neg (by simp [ha, ht])).trans (if_pos hlen))

end Tags

section Outcomes
variable {s : State} {h : Fin 16} {tag : Nat} {x : ReadTag} (hx : (s.host h.val).tag? tag = some x)
include hx

theorem dmaReadCompletion_unclaimed (res : ReadResult) (hno : x.abandoned = true ∨ x.timedOut = true) :
    ∃ t, exec (.dmaReadCompletion h tag res) s = .next t ∧
      ((s.host h.val).busMaster = false ∨ (s.host h.val).heldReads = [] → (t.host h.val).tag? tag = none) ∧
      (t.host h.val).droppedReplies = satInc (s.host h.val).droppedReplies ∧ t.ctxs = s.ctxs ∧ t.cellar = s.cellar := by
  refine ⟨_, exec_dmaReadCompletion_unclaimed hx res hno, ?_⟩
  rw [State.modHost_eq, State.tagFreed_host]
  generalize hy : ({ ((s.host h.val).freeTag tag).finishAts with
    droppedReplies := satInc ((s.host h.val).freeTag tag).finishAts.droppedReplies } : HostPort) = y
  generalize hu : (s.tagFreed h.val tag).putHost h.val y = u
  have hhost : u.host h.val = y := by rw [← hu, State.putHost_host_self]
  have honly := OnlyHost.pumpHost u h.val
  refine ⟨fun hidle => State.pumpHost_tag? ?_ ?_, ?_, ?_, ?_⟩
  · rw [hhost, ← hy]
    exact (s.host h.val).freeTag_tag? tag
  · rw [hhost, ← hy]
    exact hidle
  · rw [u.pumpHost_droppedReplies, hhost, ← hy]
    rfl
  · rw [honly.ctxs, ← hu]
    rfl
  · rw [honly.cellar, ← hu]
    rfl

/-- While no read goes out, a completion frees its tag for good. -/
theorem dmaReadCompletion_frees (res : ReadResult) :
    ∃ t, exec (.dmaReadCompletion h tag res) s = .next t ∧ ((s.host h.val).busMaster = false → (t.host h.val).tag? tag = none) := by
  have hnone : ((s.tagFreed h.val tag).host h.val).tag? tag = none := by
    rw [State.tagFreed_host]
    exact (s.host h.val).freeTag_tag? tag
  have hbm : ((s.tagFreed h.val tag).host h.val).busMaster = (s.host h.val).busMaster := by
    rw [State.tagFreed_host]
    rfl
  have hpump (u : State) (hu : ReadsKept ((s.tagFreed h.val tag).host h.val) (u.host h.val)) (hclear : (s.host h.val).busMaster = false) :
      ((u.pumpHost h.val).host h.val).tag? tag = none :=
    State.pumpHost_tag? (hu.tag?_none hnone) (.inl (hu.busMaster.trans (hbm.trans hclear)))
  by_cases hno : x.abandoned = true ∨ x.timedOut = true
  · obtain ⟨t, ht, hfree, -⟩ := dmaReadCompletion_unclaimed hx res hno
    exact ⟨t, ht, fun hclear => hfree (.inl hclear)⟩
  · obtain ⟨ha, ht⟩ : x.abandoned = false ∧ x.timedOut = false := by simpa using hno
    by_cases hres : ∃ b, res = .ok b ∧ b.length = x.req.len
    · obtain ⟨b, rfl, hlen⟩ := hres
      refine ⟨_, exec_dmaReadCompletion_ok hx ha ht hlen, fun hclear => ?_⟩
      have hslow := (s.tagFreed h.val tag).slowRead_readsKept h.val x h.val
      have hdata := ((s.tagFreed h.val tag).slowRead h.val x).readData_readsKept x.req.owner b h.val
      refine State.pumpHost_tag? (hdata.tag?_none ?_) (.inl (hdata.busMaster.trans (hslow.1.trans (hbm.trans hclear))))
      rw [HostPort.tag?_eq_none_iff] at hnone ⊢
      rwa [hslow.2]
    · have hfailed : (∀ b, res ≠ .ok b) ∨ ∃ b, res = .ok b ∧ b.length ≠ x.req.len := by
        by_cases hok : ∃ b, res = .ok b
        · obtain ⟨b, rfl⟩ := hok
          exact .inr ⟨b, rfl, fun hlen => hres ⟨b, rfl, hlen⟩⟩
        · exact .inl fun b hb => hok ⟨b, hb⟩
      exact ⟨_, exec_dmaReadCompletion_failed hx ha ht res hfailed, hpump _ (State.readFailed_readsKept _ _ _ _)⟩

theorem dmaReadCompletion_failed {w : Flight} (res : ReadResult) (ha : x.abandoned = false) (ht : x.timedOut = false)
    (halone : Alone s x.req.owner.flight.1 w) (hf : w.fid = x.req.owner.flight.2)
    (hres : (∀ b, res ≠ .ok b) ∨ ∃ b, res = .ok b ∧ b.length ≠ x.req.len) :
    ∃ t, exec (.dmaReadCompletion h tag res) s = .next t ∧ StoppedBy s t x.req.owner.flight.1 0x23 ∧
      ((s.host h.val).heldReads = [] → (t.host h.val).tag? tag = none) := by
  refine ⟨_, exec_dmaReadCompletion_failed hx ha ht res hres, ?_, fun hheld => ?_⟩
  · have hkept : Alone (s.tagFreed h.val tag) x.req.owner.flight.1 w := .of_keeps (.putHost s _ rfl) rfl halone
    exact .pumpHost h.val (.of_ctx (u := s.tagFreed h.val tag) rfl rfl (State.readFailed_stops h.val hkept hf))
  · have hkept := (s.tagFreed h.val tag).readFailed_readsKept h.val x.req.owner h.val
    rw [State.tagFreed_host] at hkept
    exact State.pumpHost_tag? (hkept.tag?_none ((s.host h.val).freeTag_tag? tag)) (.inr (hkept.held hheld))

theorem dmaCompletionTimeout_abandoned (ht : x.timedOut = false) (ha : x.abandoned = true) :
    ∃ t, exec (.dmaCompletionTimeout h tag) s = .next t ∧
      ((s.host h.val).busMaster = false ∨ (s.host h.val).heldReads = [] → (t.host h.val).tag? tag = none) ∧
      (t.host h.val).droppedReplies = (s.host h.val).droppedReplies := by
  rw [exec_dmaCompletionTimeout_abandoned hx ht ha]
  have hpassed := s.reach_elapsed (x.issuedAt + BitVec.ofNat 64 (1000 * (s.host h.val).timeoutUs))
  generalize s.reach _ = v at hpassed ⊢
  obtain ⟨k, hhost⟩ := hpassed.host h.val
  refine ⟨_, rfl, fun hidle => State.pumpHost_tag? ?_ ?_, ?_⟩
  · rw [State.tagFreed_host]
    exact (v.host h.val).freeTag_tag? tag
  · rw [State.tagFreed_host, hhost]
    exact hidle
  · rw [State.pumpHost_droppedReplies, State.tagFreed_host, hhost]
    rfl

theorem dmaCompletionTimeout_live {w : Flight} (ht : x.timedOut = false) (ha : x.abandoned = false)
    (halone : Alone s x.req.owner.flight.1 w) (hf : w.fid = x.req.owner.flight.2) :
    ∃ t, exec (.dmaCompletionTimeout h tag) s = .next t ∧ StoppedBy s t x.req.owner.flight.1 0x23 ∧
      ∃ y, (t.host h.val).tag? tag = some y ∧ y.timedOut = true := by
  rw [exec_dmaCompletionTimeout_live hx ht ha]
  have hpassed := s.reach_elapsed (x.issuedAt + BitVec.ofNat 64 (1000 * (s.host h.val).timeoutUs))
  generalize s.reach _ = v at hpassed ⊢
  rw [State.modHost_eq]
  refine ⟨_, rfl, ?_, ?_⟩
  · have hkept : Alone (v.putHost h.val ((v.host h.val).timeOut tag)) x.req.owner.flight.1 w :=
      .of_keeps (.putHost v _ rfl) rfl (hpassed.alone halone)
    exact hpassed.stoppedBy (.of_ctx (u := v.putHost h.val ((v.host h.val).timeOut tag)) rfl rfl
      (State.readFailed_stops h.val hkept hf))
  · have hkept := (v.putHost h.val ((v.host h.val).timeOut tag)).readFailed_readsKept h.val x.req.owner h.val
    rw [State.putHost_host_self] at hkept
    have htag : (v.host h.val).tag? tag = some x := (hpassed.tag? h.val tag).trans hx
    have hnum : x.tag = tag := by simpa using List.find?_some htag
    have hmarked : ∀ p ∈ ((v.host h.val).timeOut tag).tagNumbers, p.1 = tag → p.2 = true := by
      simp only [HostPort.tagNumbers, HostPort.timeOut, List.map_map, List.mem_map, Function.comp_apply]
      rintro p ⟨y, -, rfl⟩ hy
      split at hy
      next heq => simp [heq]
      next hne => exact absurd hy hne
    refine HostPort.tag?_timedOut ?_ ?_
    · rw [hkept.tags]
      refine ⟨(tag, true), ?_, rfl⟩
      simp only [HostPort.tagNumbers, HostPort.timeOut, List.map_map, List.mem_map, Function.comp_apply]
      exact ⟨x, List.mem_of_find?_eq_some htag, by simp [hnum]⟩
    · rw [hkept.tags]
      exact hmarked

theorem readTagLeak_reclaims (ht : x.timedOut = true) : ∃ t, exec (.readTagLeak h tag) s = .next t ∧
    ((s.host h.val).busMaster = false ∨ (s.host h.val).heldReads = [] → (t.host h.val).tag? tag = none) ∧
    (t.host h.val).tagLeaks = satInc (s.host h.val).tagLeaks ∧ t.cellar = s.cellar := by
  have hpassed := s.reach_elapsed (x.issuedAt + BitVec.ofNat 64 (1000 * (s.host h.val).timeoutUs + 1000000))
  obtain ⟨k, hhost⟩ := hpassed.host h.val
  obtain ⟨hfree, hleaks, hcellar⟩ := State.leaked_reclaims (s.reach (x.issuedAt + BitVec.ofNat 64 (1000 * (s.host h.val).timeoutUs + 1000000)))
    h.val tag { event := 0x0501, severity := 2, unitClass := 5, unitIndex := h.val, addr := x.req.iova.toNat }
  exact ⟨_, exec_readTagLeak_timedOut hx ht, fun hidle => hfree (by rw [hhost]; exact hidle), hleaks.trans (by rw [hhost]),
    hcellar.trans hpassed.cellar⟩

end Outcomes

end Sys2Proof.Machine
end

section
/-! Settling O14: read data of a MOVE toward another engine joins what its source has given (R256, R282). -/

namespace Sys2Proof.Machine

/-- All that the context has in flight is one MOVE, which has not finished. -/
def Context.OnlyMove (x : Context) (fid : Nat) (m : MoveFlight) : Prop := ∃ w, x.flights = [w] ∧ w.fid = fid ∧ w.done = none ∧ w.kind = .move m

section Move
variable {s : State} {c fid : Nat} {m : MoveFlight}

theorem State.moveAt_of_only (h : (s.ctx c).OnlyMove fid m) : s.moveAt c fid = some m := by
  obtain ⟨w, hflights, rfl, hdone, hkind⟩ := h
  simp [moveAt, Context.flight_of_only hflights, hdone, hkind]

theorem State.modMove_only (h : (s.ctx c).OnlyMove fid m) (g : MoveFlight → MoveFlight) : ((s.modMove c fid g).ctx c).OnlyMove fid (g m) := by
  obtain ⟨w, hflights, rfl, hdone, hkind⟩ := h
  refine ⟨_, modFlight_flights hflights _, ?_, ?_, ?_⟩
  all_goals simp [hkind, hdone]

theorem State.modCtx_onlyMove (h : (s.ctx c).OnlyMove fid m) {f : Context → Context} (hf : ∀ x, (f x).flights = x.flights) :
    ((s.modCtx c f).ctx c).OnlyMove fid m := by
  rw [modCtx_eq, putCtx_ctx_self]
  obtain ⟨w, hflights, hw⟩ := h
  exact ⟨w, (hf _).trans hflights, hw⟩

/-- A chunk that leaves keeps what has been read of the MOVE. -/
theorem State.moveChunk_only (h : (s.ctx c).OnlyMove fid m) (n : Nat) :
    ∃ k, ((s.moveChunk c fid n).ctx c).OnlyMove fid k ∧ k.toRead = m.toRead ∧ k.pieces = m.pieces := by
  unfold moveChunk
  rw [moveAt_of_only h]
  dsimp only
  split
  · exact ⟨m, h, rfl, rfl⟩
  · split
    · exact ⟨m, h, rfl, rfl⟩
    · have hseq : ((s.takeSeq true c m.dstEngine).2.ctx c).OnlyMove fid m := modCtx_onlyMove h fun _ => rfl
      generalize hu : ({ (s.takeSeq true c m.dstEngine).2 with outs := _ } : State) = u
      have hctx : u.ctx c = (s.takeSeq true c m.dstEngine).2.ctx c := by rw [← hu]; rfl
      exact ⟨_, modMove_only (s := u) (hctx ▸ hseq) _, rfl, rfl⟩

theorem State.moveChunks_only (h : (s.ctx c).OnlyMove fid m) (l : List Nat) :
    ∃ k, ((overList (fun s n => s.moveChunk c fid n) l s).ctx c).OnlyMove fid k ∧ k.toRead = m.toRead ∧ k.pieces = m.pieces := by
  induction l generalizing s m with
  | nil => exact ⟨m, h, rfl, rfl⟩
  | cons n l ih =>
    obtain ⟨k, hk, hread, hpieces⟩ := moveChunk_only h n
    obtain ⟨k', hk', hread', hpieces'⟩ := ih hk
    exact ⟨k', hk', hread'.trans hread, hpieces'.trans hpieces⟩

theorem State.movePiece_only (h : (s.ctx c).OnlyMove fid m) (hdst : m.dstEngine ≠ s.engineId) (off : Nat) (b : List Byte) :
    ∃ k, ((s.movePiece c fid off b).ctx c).OnlyMove fid k ∧ k.toRead = m.toRead - b.length ∧ k.pieces = m.pieces ++ [(off, b)] := by
  unfold movePiece
  rw [moveAt_of_only h]
  dsimp only
  have hread := modMove_only h fun m => { m with toRead := m.toRead - b.length }
  have hpieces := modMove_only hread fun m => { m with pieces := m.pieces ++ [(off, b)] }
  split
  next heq => exact absurd heq hdst
  next => exact moveChunks_only hpieces _

/-! ## The context settles, and the MOVE stays in flight (R137) -/

theorem State.ringsGo_of_onlyMove (h : (s.ctx c).OnlyMove fid m) : s.ringsGo c = s := by
  obtain ⟨w, hflights, -, -, hkind⟩ := h
  rw [ringsGo, hflights, overList_cons, overList_nil]
  unfold ringGo
  rw [hkind]

theorem State.settleFlights_of_onlyMove (h : (s.ctx c).OnlyMove fid m) : s.settleFlights c = s.refresh c := by
  obtain ⟨w, hflights, -, hdone, hkind⟩ := h
  have hnone : s.readyFlight c = none := by
    simp [readyFlight, hflights, Context.finished, Flight.selfDone, hdone, hkind]
  have hretire (n : Nat) : retire c n s = s := by
    cases n with
    | zero => rfl
    | succ n => rw [retire, hnone]
  rw [settleFlights, hretire, drainEnd, if_pos (by simp [hflights])]

theorem State.refresh_onlyMove (h : (s.ctx c).OnlyMove fid m) : ((s.refresh c).ctx c).OnlyMove fid m := by
  obtain ⟨w, hflights, hw⟩ := h
  exact ⟨w, (s.refresh_flights c).trans hflights, hw⟩

theorem State.settle_onlyMove (h : (s.ctx c).OnlyMove fid m) : ((s.settle c).ctx c).OnlyMove fid m := by
  have hfirst := refresh_onlyMove h
  rw [settle, ringsGo_of_onlyMove h, settleFlights_of_onlyMove h, ringsGo_of_onlyMove hfirst, settleFlights_of_onlyMove hfirst]
  exact refresh_onlyMove hfirst

end Move

theorem State.pumpHost_slowReads (s : State) (h : Nat) : ((s.pumpHost h).host h).slowReads = (s.host h).slowReads :=
  (congrArg HostPort.slowReads (s.pumpHost_readless h) : ((s.pumpHost h).host h).readless.slowReads = _)

theorem dmaReadCompletion_moves {s : State} {h : Fin 16} {tag : Nat} {x : ReadTag} (hx : (s.host h.val).tag? tag = some x)
    (c f off : Nat) (b : List Byte) (w : Flight) (m : MoveFlight) (ha : x.abandoned = false) (ht : x.timedOut = false)
    (howner : x.req.owner = .move c f off) (hlen : b.length = x.req.len) (halone : Alone s c w) (hf : w.fid = f) (hkind : w.kind = .move m)
    (hdst : m.dstEngine ≠ s.engineId) (hheld : (s.host h.val).heldReads = []) (hfast : s.hall.toNat - x.issuedAt.toNat ≤ x.threshold) :
    ∃ t v n, exec (.dmaReadCompletion h tag (.ok b)) s = .next t ∧ (t.ctx c).flights = [v] ∧ v.done = none ∧ v.kind = .move n ∧
      n.toRead = m.toRead - b.length ∧ n.pieces = m.pieces ++ [(off, b)] ∧ (t.host h.val).tag? tag = none ∧
      (t.host h.val).slowReads = (s.host h.val).slowReads := by
  obtain ⟨hflights, hdone, -⟩ := halone
  have honly : ((s.tagFreed h.val tag).ctx c).OnlyMove f m := ⟨w, hflights, hf, hdone, hkind⟩
  have hslow : (s.tagFreed h.val tag).slowRead h.val x = s.tagFreed h.val tag := if_neg (not_lt.mpr hfast)
  have hdata := (s.tagFreed h.val tag).readData_readsKept x.req.owner b h.val
  have hexec := exec_dmaReadCompletion_ok hx ha ht hlen
  rw [hslow] at hexec
  obtain ⟨n, hpiece, hread, hpieces⟩ := State.movePiece_only honly hdst off b
  have hmove : (((s.tagFreed h.val tag).readData x.req.owner b).ctx c).OnlyMove f n := by
    rw [howner]
    exact State.settle_onlyMove hpiece
  rw [State.tagFreed_host] at hdata
  generalize (s.tagFreed h.val tag).readData x.req.owner b = u at hexec hdata hmove
  obtain ⟨v, hv, -, hvdone, hvkind⟩ := hmove
  have hctx : (u.pumpHost h.val).ctx c = u.ctx c := by rw [State.ctx, (OnlyHost.pumpHost u h.val).ctxs, State.ctx]
  refine ⟨_, v, n, hexec, by rw [hctx, hv], hvdone, hvkind, hread, hpieces, ?_, ?_⟩
  · exact State.pumpHost_tag? (hdata.tag?_none ((s.host h.val).freeTag_tag? tag)) (.inr (hdata.held hheld))
  · rw [u.pumpHost_slowReads, hdata.slowReads]
    rfl

end Sys2Proof.Machine
end

section
/-! Settling O14: the posted-write path of a host block, its credit, and a path that has stalled (R54, R56, R403, R408, R413, R414). -/

namespace Sys2Proof.Machine

/-! ## Credit comes back (R403) -/

theorem HostWrite.flits_pos (w : HostWrite) : 0 < w.flits := by
  cases w with
  | data => exact lt_of_lt_of_le one_pos (le_max_left _ _)
  | msix => exact one_pos

theorem dropCredited_zero (l : List HostWrite) : dropCredited 0 l = l := by
  cases l with
  | nil => rfl
  | cons w l => exact if_neg (Nat.not_le.mpr w.flits_pos)

theorem dropCredited_head (w : HostWrite) (l : List HostWrite) : dropCredited w.flits (w :: l) = l := by
  rw [dropCredited, if_pos le_rfl, Nat.sub_self, dropCredited_zero]

/-- Writes enter the path in their order. -/
theorem pumpWrites_append (ready : HostWrite → Bool) (path l : List HostWrite) :
    (pumpWrites ready path l).1 ++ (pumpWrites ready path l).2 = path ++ l := by
  induction l generalizing path with
  | nil => rfl
  | cons w l ih =>
    rw [pumpWrites]
    split
    · rw [ih, List.append_assoc, List.singleton_append]
    · rfl

/-- The path never holds more flits than its credits (R56). -/
theorem pumpWrites_flits (ready : HostWrite → Bool) (path l : List HostWrite) (h : pathFlits path ≤ 256) :
    pathFlits (pumpWrites ready path l).1 ≤ 256 := by
  induction l generalizing path with
  | nil => exact h
  | cons w l ih =>
    rw [pumpWrites]
    split
    next hfits =>
      refine ih _ ?_
      simp only [Bool.and_eq_true, decide_eq_true_eq] at hfits
      simpa [pathFlits] using hfits.2
    next => exact h

namespace HostPort
variable (x : HostPort) (n : Nat) (ats : Bool) (now : Word64)

/-- The block with its credit back, before later writes follow. -/
def uncredited : HostPort := { x with path := dropCredited n x.path, pathSince := now }

theorem credited_eq : x.credited n ats now = if x.busMaster then (x.uncredited n now).pump ats now else x.uncredited n now := rfl

theorem credited_of_noWrites (hw : x.heldWrites = []) : x.credited n ats now = x.uncredited n now := by
  have hpump := pump_of_noWrites (x := x.uncredited n now) hw ats now
  rw [credited_eq, hpump, ite_self]

theorem credited_writes : (x.credited n ats now).path ++ (x.credited n ats now).heldWrites = dropCredited n x.path ++ x.heldWrites := by
  rw [credited_eq]
  split
  · exact pumpWrites_append _ _ _
  · rfl

theorem credited_flits (h : pathFlits (dropCredited n x.path) ≤ 256) : pathFlits (x.credited n ats now).path ≤ 256 := by
  rw [credited_eq]
  split
  · exact pumpWrites_flits _ _ _ h
  · exact h

end HostPort

/-- A write that is no message loses none. -/
theorem refusedMsix_single {w : HostWrite} (draw : Nat) (h : ∀ a d v, w ≠ .msix a d v) : refusedMsix draw [w] = 0 := by
  cases w with
  | data => rfl
  | msix a d v => exact absurd rfl (h a d v)

theorem satAdd_zero (w : Word32) : satAdd w 0 = w := by
  simp only [satAdd, Nat.add_zero]
  split
  · bv_omega
  · simp

section Credit
variable (s : State) (h : Fin 16) (n : Nat)

theorem exec_postedCreditReturn (hs : (s.host h.val).state = .serving) : exec (.postedCreditReturn h n) s = .next (s.draw.2.putHost h.val
    { (s.host h.val).credited n (s.atsOn h.val) s.hall with
      msixLost := satAdd (s.host h.val).msixLost (refusedMsix s.freeCtr ((s.host h.val).taken n)) }) :=
  if_pos (by simp [State.hostServing, hs])

theorem exec_postedCreditReturn_notServing (hs : (s.host h.val).state ≠ .serving) : exec (.postedCreditReturn h n) s = .next s :=
  if_neg (by simp [State.hostServing, hs])

theorem exec_postedCreditReturn_noWrites (hs : (s.host h.val).state = .serving) (hw : (s.host h.val).heldWrites = []) :
    exec (.postedCreditReturn h n) s = .next (s.draw.2.putHost h.val { s.host h.val with
      path := dropCredited n (s.host h.val).path
      pathSince := s.hall
      msixLost := satAdd (s.host h.val).msixLost (refusedMsix s.freeCtr ((s.host h.val).taken n)) }) := by
  rw [exec_postedCreditReturn s h n hs, HostPort.credited_of_noWrites _ _ _ _ hw]
  rfl

theorem postedCreditReturn_head (w : HostWrite) (l : List HostWrite) (hs : (s.host h.val).state = .serving)
    (hw : (s.host h.val).heldWrites = []) (hpath : (s.host h.val).path = w :: l) :
    ∃ t, exec (.postedCreditReturn h w.flits) s = .next t ∧ (t.host h.val).path = dropCredited 0 l ∧ (t.host h.val).pathSince = s.hall ∧
      (t.host h.val).heldWrites = [] ∧ ((∀ a d v, w ≠ .msix a d v) → (t.host h.val).msixLost = (s.host h.val).msixLost) := by
  have htaken : (s.host h.val).taken w.flits = [w] := by
    rw [HostPort.taken, hpath, dropCredited_head]
    simp
  refine ⟨_, exec_postedCreditReturn_noWrites s h w.flits hs hw, ?_⟩
  rw [State.putHost_host_self, hpath, dropCredited_head, htaken, dropCredited_zero]
  exact ⟨rfl, rfl, hw, fun hdata => by rw [refusedMsix_single _ hdata, satAdd_zero]⟩

theorem postedCreditReturn_follows (hs : (s.host h.val).state = .serving) : ∃ t, exec (.postedCreditReturn h n) s = .next t ∧
    (t.host h.val).path ++ (t.host h.val).heldWrites = dropCredited n (s.host h.val).path ++ (s.host h.val).heldWrites ∧
    (pathFlits (dropCredited n (s.host h.val).path) ≤ 256 → pathFlits (t.host h.val).path ≤ 256) ∧
    (t.host h.val).msixLost = satAdd (s.host h.val).msixLost (refusedMsix s.freeCtr ((s.host h.val).taken n)) ∧
    (∀ k, k ≠ h.val → t.host k = s.host k) ∧ t = { s with hosts := t.hosts, freeCtr := s.freeCtr + 1 } := by
  refine ⟨_, exec_postedCreditReturn s h n hs, ?_⟩
  rw [State.putHost_host_self]
  exact ⟨(s.host h.val).credited_writes n _ _, (s.host h.val).credited_flits n _ _, rfl, fun k hk => s.draw.2.putHost_host_ne _ hk, rfl⟩

end Credit

/-! ## A path that has stalled (R414) -/

/-- Settling puts no write on the path of a block that does not serve (R409). -/
theorem Settles.path {K : Nat → Prop} {told : Prop} {s t : State} (h : Settles K told s t) {n : Nat} (hs : (s.host n).state ≠ .serving) :
    (t.host n).path = (s.host n).path := by
  induction h with
  | refl => rfl
  | tail hchain hstep ih =>
    refine Eq.trans ?_ ih
    have hstate : ((_ : State).host n).configured.state = (s.host n).configured.state := congrArg HostPort.state (Settles.configured hchain n)
    cases hstep with
    | host m x hw =>
      rw [State.putHost_host]
      split
      next heq =>
        rw [heq]
        exact hw.2 fun hserving => hs (hstate.symm.trans (heq ▸ hserving))
      next => rfl
    | record a => rw [State.record_host]
    | wake =>
      obtain ⟨pw, hwake⟩ := State.wake_eq ‹_›
      rw [hwake]
      rfl
    | freed c f => rw [State.freeFlight_host]; rfl
    | _ => rfl

/-- A link that is lost leaves nothing on the path, and the stalls counted as they were. -/
theorem State.linkLost_host (s : State) (h : Nat) (status detail : Nat) : let t := s.linkLost h .linkLost status detail
    (t.host h).state = .linkLost ∧ (t.host h).path = [] ∧ (t.host h).hostStalls = (s.host h).hostStalls := by
  have hstate := (s.linkLost_tenure h .linkLost status detail).2.2.1
  unfold linkLost at hstate ⊢
  simp only [modHost_eq] at hstate ⊢
  generalize hu : (s.fenceHost h).putHost h _ = u at hstate ⊢
  have hfails : Settles (fun _ => True) True u (u.failWhere (fun c f => u.needsHost h c f) status detail) :=
    u.failWhere_settles (quietOff_true u) trivial _ _ _
  generalize u.failWhere _ status detail = v at hfails hstate ⊢
  generalize hw : v.putHost h _ = w at hstate ⊢
  have hsettles : Settles (fun _ => True) True w w.settleAll := w.settleAll_settles (quietOff_true w)
  have huhost : (u.host h).hostStalls = (s.host h).hostStalls ∧ (u.host h).state = .linkLost := by
    rw [← hu, putHost_host_self]
    exact ⟨rfl, rfl⟩
  have hstalls {a b : State} (hab : Settles (fun _ => True) True a b) : (b.host h).configured.hostStalls = (a.host h).configured.hostStalls :=
    congrArg HostPort.hostStalls (hab.configured h)
  have hkept : (v.host h).configured.state = (u.host h).configured.state := congrArg HostPort.state (hfails.configured h)
  have hlost : (w.host h).configured.state = (u.host h).configured.state := by
    rw [← hw, putHost_host_self]
    exact hkept
  have hwhost : (w.host h).path = [] ∧ (w.host h).hostStalls = (v.host h).hostStalls := by
    rw [← hw, putHost_host_self]
    exact ⟨rfl, rfl⟩
  refine ⟨hstate, ?_, ?_⟩
  · refine (hsettles.path fun hserving => ?_).trans hwhost.1
    have hboth : HostState.linkLost = HostState.serving := huhost.2.symm.trans (hlost.symm.trans hserving)
    cases hboth
  · exact (hstalls hsettles).trans (hwhost.2.trans ((hstalls hfails).trans huhost.1))

/-- The host block that has stalled: its event goes out, and the stall is counted. -/
def State.stallTold (s : State) (h : Nat) : State := (s.msix h 2).modHost h (fun x => { x with hostStalls := satInc x.hostStalls })

theorem State.stallTold_hostStalls (s : State) (h : Nat) : ((s.stallTold h).host h).hostStalls = satInc (s.host h).hostStalls := by
  have hmsix : ((s.msix h 2).host h).configured.hostStalls = (s.host h).configured.hostStalls :=
    congrArg HostPort.hostStalls (s.msix_configured h 2 h)
  rw [stallTold, modHost_eq, putHost_host_self]
  exact congrArg satInc hmsix

theorem exec_hostStall {s : State} {h : Fin 16} (hs : (s.host h.val).state = .serving) (hpath : (s.host h.val).path ≠ []) :
    exec (.hostStall h) s =
      let u := ((s.reach ((s.host h.val).pathSince + 50000000)).record
        { event := 0x0501, severity := 3, unitClass := 5, unitIndex := h.val }).stallTold h.val
      .next (u.linkLost h.val .linkLost 0x23 (u.hostPos h.val)) := by
  change execHostStall h s = _
  have hcond : ((s.host h.val).state == HostState.serving && !(s.host h.val).path.isEmpty) = true := by simp [hs, hpath]
  simp only [execHostStall, hcond, if_true, State.stallTold]

theorem hostStall_counts (s : State) (h : Fin 16) (hs : (s.host h.val).state = .serving) (hpath : (s.host h.val).path ≠ []) :
    ∃ t, exec (.hostStall h) s = .next t ∧ (t.host h.val).state = .linkLost ∧
      (t.host h.val).hostStalls = satInc (s.host h.val).hostStalls ∧ (t.host h.val).path = [] := by
  rw [exec_hostStall hs hpath]
  obtain ⟨k, hpassed⟩ := (s.reach_elapsed ((s.host h.val).pathSince + 50000000)).host h.val
  generalize s.reach ((s.host h.val).pathSince + 50000000) = v at hpassed ⊢
  dsimp only
  generalize hu : (v.record { event := 0x0501, severity := 3, unitClass := 5, unitIndex := h.val }).stallTold h.val = u
  obtain ⟨hstate, hempty, hstalls⟩ := u.linkLost_host h.val 0x23 (u.hostPos h.val)
  refine ⟨_, rfl, hstate, hstalls.trans ?_, hempty⟩
  rw [← hu, State.stallTold_hostStalls, State.record_host, hpassed]

/-- Settles O14: a read tag's completion, timeout and leak, and the posted-write path's sweep, stall and credit. -/
theorem porchReadsAndWrites : Obligations.PorchReadsAndWrites := by
  refine ⟨fun s h tag x hx => ⟨fun res hno => dmaReadCompletion_unclaimed hx res hno, dmaReadCompletion_frees hx,
    fun w res ha ht halone hf hres => dmaReadCompletion_failed hx res ha ht halone hf hres,
    fun c f off b w m ha ht howner hlen halone hf hkind hdst hheld hfast =>
      dmaReadCompletion_moves hx c f off b w m ha ht howner hlen halone hf hkind hdst hheld hfast,
    dmaCompletionTimeout_abandoned hx, fun w ht ha halone hf => dmaCompletionTimeout_live hx ht ha halone hf, readTagLeak_reclaims hx⟩,
    fun s => ⟨rfl, hostStall_counts s, exec_postedCreditReturn_noWrites s, postedCreditReturn_head s, postedCreditReturn_follows s,
      exec_postedCreditReturn_notServing s⟩⟩

end Sys2Proof.Machine
end

section
/-! Settling O30: SUITE_CMD drains a Suite and aborts its contexts (R141, R463, R466, R493). -/

namespace Sys2Proof.Machine

/-! ## What settling leaves of Suites and of the parts in service -/

theorem Settles.suite {K : Nat → Prop} {told : Prop} {s t : State} (h : Settles K told s t) (n : Nat) : (t.suite n).still = (s.suite n).still := by
  refine h.frame (fun u => (u.suite n).still) fun hstep => ?_
  cases hstep with
  | suite m x hx =>
    rw [State.putSuite_suite]
    split
    next hn => rw [hx, hn]
    next => rfl
  | record a => rw [State.suite, State.record_suites]; rfl
  | wake =>
    obtain ⟨pw, hwake⟩ := State.wake_eq ‹_›
    rw [hwake]
    rfl
  | freed c f =>
    rw [State.suite, State.freeFlight_frame State.suites (fun _ _ => rfl) (fun _ _ => rfl) (fun _ _ => rfl) (fun _ _ _ _ _ _ _ _ => rfl)]
    rfl
  | _ => rfl

theorem Settles.suiteState {K : Nat → Prop} {told : Prop} {s t : State} (h : Settles K told s t) (n : Nat) :
    (t.suite n).state = (s.suite n).state :=
  (congrArg Suite.state (h.suite n) : (t.suite n).still.state = _)

/-- The services under way, and the parts that are out of service or have failed. -/
def State.serviced (s : State) : List SvcJob × List (Nat × Nat) × List (Nat × Nat) := (s.svc.jobs, s.svc.out, s.svc.failed)

theorem Settles.serviced {K : Nat → Prop} {told : Prop} {s t : State} (h : Settles K told s t) : t.serviced = s.serviced := by
  refine h.frame State.serviced fun hstep => ?_
  cases hstep with
  | record a => rw [State.serviced, State.record_svc, State.serviced]
  | wake =>
    obtain ⟨pw, hwake⟩ := State.wake_eq ‹_›
    rw [hwake]
    rfl
  | freed c f => exact State.freeFlight_frame State.serviced (fun _ _ => rfl) (fun _ _ => rfl) (fun _ _ => rfl) (fun _ _ _ _ _ _ _ _ => rfl) _ c f
  | _ => rfl

theorem State.jobs_of_serviced {s t : State} (h : t.serviced = s.serviced) : t.svc.jobs = s.svc.jobs := congrArg Prod.fst h
theorem State.out_of_serviced {s t : State} (h : t.serviced = s.serviced) : t.svc.out = s.svc.out := congrArg (fun x => x.2.1) h

/-! ## A context that is aborted runs no more (R158, R160, R166) -/

/-- The context does not run, and will not when its drain ends. -/
def Context.Halts (x : Context) : Prop := x.live = false ∧ x.state ≠ .drainRestart

theorem Context.Halts.of_state {x y : Context} (h : x.Halts) (hs : y.state = x.state) : y.Halts := by
  unfold Halts live at h ⊢
  rwa [hs]

theorem Context.left_state {x : Context} (h : x.live = false) (f : Flight) (d : Done) : (x.left f d).state = x.state := by
  have hcoll (y : Context) : (y.collDone f d).state = y.state := by
    unfold collDone
    split <;> rfl
  have hcount (y : Context) (st : Nat) : (y.countStatus st).state = y.state := by
    unfold countStatus
    split <;> rfl
  unfold left
  dsimp only
  generalize hy : (({ x with flights := x.flights.filter (fun y => y.fid != f.fid) } : Context).collDone f d).countStatus d.status = y
  have hstate : y.state = x.state := by rw [← hy, hcount, hcoll]
  have hlive : y.live = false := by rw [live, hstate, ← live, h]
  have hfail : (y.failStop d.status).state = y.state := by
    have hkept : ({ y with lastStatus := d.status } : Context).live = false := hlive
    simp [failStop, hkept]
  have hcard : y.cardEnd = y := by simp [cardEnd, hlive]
  rw [hcard, apply_ite Context.state, hfail, ite_self, ite_self, hstate]

section Halting
variable (s : State) (c : Nat)

theorem State.failGroup_state (f : Flight) : ((s.failGroup c f).ctx c).state = (s.ctx c).state := by
  unfold failGroup
  split
  · rfl
  · refine overList_frame (fun u => (u.ctx c).state) (fun u y => ?_) _ s
    rw [modCtx_eq, putCtx_ctx_self]
    split
    · rfl
    · change ((u.freeFlight c y).ctx c).state = _
      rw [ctx, freeFlight_ctxs, ctx]

theorem State.delivered_state (f : Flight) (d : Done) : ((s.delivered c f d).ctx c).state = (s.ctx c).state := by
  have hentry : ((if f.takesEntry d then s.writeEntry c f d else s).ctx c).state = (s.ctx c).state := by
    split
    · obtain ⟨tail, used, phase, h⟩ := s.writeEntry_ctx c f d
      rw [h]
      rfl
    · rfl
  have hvector (u : State) : (if f.irq then u.ctxVector c else u).ctx c = u.ctx c := by
    split
    · exact u.ctxVector_ctx c c
    · rfl
  unfold delivered
  dsimp only
  split
  · rw [statusRecord_ctx, hvector, hentry]
  · rw [failGroup_state, statusRecord_ctx, hvector, hentry]

theorem State.complete_halts (f : Flight) (d : Done) (h : (s.ctx c).Halts) : ((s.complete c f d).ctx c).Halts := by
  rw [complete_eq, progressIn_ctx, modCtx_eq, putCtx_ctx_self]
  have hdelivered := h.of_state (s.delivered_state c f ((s.ctx c).finalDone f d))
  exact hdelivered.of_state (Context.left_state hdelivered.1 f _)

theorem retire_halts (n : Nat) (h : (s.ctx c).Halts) : ((retire c n s).ctx c).Halts := by
  induction n generalizing s with
  | zero => exact h
  | succ n ih =>
    rw [retire]
    split
    · exact ih _ (s.complete_halts c _ _ h)
    · exact h

theorem State.drainEnd_halts (h : (s.ctx c).Halts) : ((s.drainEnd c).ctx c).Halts := by
  have hstopped (u : State) (x : Context) (hx : x.state = .stopped) : (((u.putCtx c x).ctxVector c).ctx c).Halts := by
    rw [ctxVector_ctx, putCtx_ctx_self]
    simp [Context.Halts, Context.live, hx]
  unfold drainEnd
  dsimp only
  split
  · exact h
  split
  next a _ =>
    split
    · exact hstopped s _ rfl
    · unfold carryOut
      dsimp only
      split
      · rw [ctx, wake_ctxs, ← ctx, putCtx_ctx_self]
        exact ⟨rfl, by simp [Context.clear]⟩
      · rw [putCtx_ctx_self]
        exact ⟨rfl, by simp [Context.clear]⟩
  · split
    next hrestart _ => exact absurd hrestart h.2
    · exact hstopped s _ rfl

theorem State.settleFlights_halts (h : (s.ctx c).Halts) : ((s.settleFlights c).ctx c).Halts := by
  have hdrained := drainEnd_halts _ c (retire_halts s c (2 * (s.ctx c).flights.length + 1) h)
  unfold settleFlights
  rw [refresh, hdrained.1]
  exact hdrained

/-- A context whose flights are aborted, and which was to end so, does not run. -/
theorem State.cancelAll_settle_halts (h : (s.ctx c).Halts) : (((s.cancelAll c).settle c).ctx c).Halts := by
  rw [settle_of_allDone _ c (s.cancelAll_allDone c)]
  refine settleFlights_halts _ c (settleFlights_halts _ c ?_)
  rw [cancelAll_ctx]
  exact h.of_state rfl

theorem State.abortCtx_halts (r : StopReason) : ((s.abortCtx c r).ctx c).Halts := by
  have hput (x : Context) (hx : x.state = .draining) : ((((s.putCtx c x).cancelAll c).settle c).ctx c).Halts := by
    refine cancelAll_settle_halts _ c ?_
    rw [putCtx_ctx_self]
    simp [Context.Halts, Context.live, hx]
  unfold abortCtx
  dsimp only
  cases hstate : (s.ctx c).state with
  | running => exact hput _ rfl
  | waiting => exact hput _ rfl
  | drainRestart => exact hput _ rfl
  | draining => exact s.cancelAll_settle_halts c (by simp [Context.Halts, Context.live, hstate])
  | _ => simp [Context.Halts, Context.live, hstate]

/-- A context that is idle, stopped or unassigned is not aborted. -/
theorem State.abortCtx_of_rest (r : StopReason) (h : (s.ctx c).state = .idle ∨ (s.ctx c).state = .stopped ∨ (s.ctx c).state = .unassigned) :
    s.abortCtx c r = s := by
  obtain h | h | h := h
  all_goals simp [abortCtx, h]

end Halting

/-- Contexts that are aborted one after another run no more. -/
theorem State.abortAll_live (r : StopReason) (l : List Nat) (s : State) : ∀ c, c ∈ l →
    ((overList (fun s c => s.abortCtx c r) l s).ctx c).live = false := by
  have hkept (l : List Nat) (s : State) (c : Nat) (h : (s.ctx c).live = false) : ((overList (fun s c => s.abortCtx c r) l s).ctx c).live = false := by
    induction l generalizing s with
    | nil => exact h
    | cons d l ih =>
      refine ih _ ?_
      obtain rfl | hne := eq_or_ne c d
      · exact (s.abortCtx_halts c r).1
      · rw [s.abortCtx_ctx_ne d r hne, h]
  induction l generalizing s with
  | nil => exact fun c hc => absurd hc List.not_mem_nil
  | cons d l ih =>
    intro c hc
    obtain rfl | hc := List.mem_cons.mp hc
    · exact hkept l _ c (s.abortCtx_halts c r).1
    · exact ih _ c hc

theorem State.abortAll_of_rest (r : StopReason) (l : List Nat) (s : State)
    (h : ∀ c ∈ l, (s.ctx c).state = .idle ∨ (s.ctx c).state = .stopped ∨ (s.ctx c).state = .unassigned) :
    overList (fun s c => s.abortCtx c r) l s = s := by
  induction l with
  | nil => rfl
  | cons c l ih =>
    obtain ⟨hc, hl⟩ := List.forall_mem_cons.mp h
    rw [overList_cons, s.abortCtx_of_rest c r hc, ih hl]

theorem State.abortAll_settles (r : StopReason) (l : List Nat) (s : State) :
    Settles (fun _ => True) True s (overList (fun s c => s.abortCtx c r) l s) :=
  .overList l fun u _ _ _ => u.abortCtx_settles (quietOff_true u) trivial trivial r

/-! ## A Suite changes its state (R141, R407) -/

section Suites
variable (s : State) (i : Nat)

theorem State.setSuite_suite (st : SuiteState) (n : Nat) : (s.setSuite i st).suite n = if n = i then { s.suite i with state := st } else s.suite n :=
  (msix_suite _ _ 0 n).trans (s.putSuite_suite i n _)

theorem State.setSuite_state (st : SuiteState) : ((s.setSuite i st).suite i).state = st := by
  rw [setSuite_suite, if_pos rfl]

theorem State.setSuite_serviced (st : SuiteState) : (s.setSuite i st).serviced = s.serviced := by
  rw [serviced, setSuite_svc, serviced]

theorem State.suiteCtxs_of_config {s t : State} (h : t.hearth.config = s.hearth.config) (i : Nat) : t.suiteCtxs i = s.suiteCtxs i := by
  simp only [suiteCtxs, suiteCfg, cfg, h]

/-- An echo that is aborted leaves the Suite's state, its contexts and the parts in service (R434). -/
theorem State.echoAbort_frame : ((s.echoAbort i).suite i).state = (s.suite i).state ∧ (s.echoAbort i).ctxs = s.ctxs ∧
    (s.echoAbort i).serviced = s.serviced ∧ (s.echoAbort i).hearth.config = s.hearth.config := by
  unfold echoAbort echoDone
  rw [modSuite_eq]
  generalize hu : s.putSuite i { s.suite i with echo := { (s.suite i).echo with busy := false, outcome := 5 } } = u
  refine ⟨?_, ?_, ?_, ?_⟩
  · rw [suiteEvent, msix_suite, record_suite, ← hu, putSuite_suite_self]
  · rw [suiteEvent_ctxs, record_ctxs, ← hu]
    rfl
  · rw [serviced, suiteEvent_svc, record_svc, ← hu]
    rfl
  · rw [suiteEvent_hearth]
    simp [← hu]

/-- A Suite that drains is Draining, and none of its contexts runs; one that is at rest keeps its contexts (R141, R466). -/
theorem State.drainSuite_effect : let t := s.drainSuite i
    (t.suite i).state = .draining ∧ t.serviced = s.serviced ∧ (∀ c ∈ s.suiteCtxs i, (t.ctx c).live = false) ∧
    ((∀ c ∈ s.suiteCtxs i, (s.ctx c).state = .idle ∨ (s.ctx c).state = .stopped ∨ (s.ctx c).state = .unassigned) → t.ctxs = s.ctxs) := by
  have hset := s.setSuite_state i .draining
  unfold drainSuite
  extract_lets u v
  obtain ⟨hstate, hctxs, hserviced, hconfig⟩ : (v.suite i).state = .draining ∧ v.ctxs = s.ctxs ∧ v.serviced = s.serviced ∧
      v.hearth.config = s.hearth.config := by
    have hu : u.ctxs = s.ctxs ∧ u.serviced = s.serviced ∧ u.hearth.config = s.hearth.config :=
      ⟨s.setSuite_ctxs i .draining, s.setSuite_serviced i .draining, by rw [setSuite_hearth]⟩
    unfold v
    split
    · obtain ⟨hs, hc, hv, hg⟩ := u.echoAbort_frame i
      exact ⟨hs.trans hset, hc.trans hu.1, hv.trans hu.2.1, hg.trans hu.2.2⟩
    · exact ⟨hset, hu⟩
  have habort := v.abortAll_settles .suiteDrain (v.suiteCtxs i)
  have hsame : v.suiteCtxs i = s.suiteCtxs i := suiteCtxs_of_config hconfig i
  refine ⟨(habort.suiteState i).trans hstate, (habort.serviced).trans hserviced, fun c hc => ?_, fun hrest => ?_⟩
  · exact abortAll_live .suiteDrain (v.suiteCtxs i) v c (hsame ▸ hc)
  · refine (congrArg State.ctxs (abortAll_of_rest .suiteDrain (v.suiteCtxs i) v fun c hc => ?_)).trans hctxs
    have hctx : v.ctx c = s.ctx c := by rw [ctx, hctxs, ctx]
    rw [hctx]
    exact hrest c (hsame ▸ hc)

end Suites

/-! ## SUITE_CMD (R463, R485, R493) -/

section SuiteCmd
variable {s : State} {h : Fin 16} {i : Nat} (hopen : OwnerPageOpen s h.val i)

section Door
include hopen

theorem State.ownerWrite_of_open (f : Nat → State → State) : s.ownerWrite h.val f = f i s := by
  obtain ⟨-, hblocked, hdecodes, howned, hsuite⟩ := hopen
  simp only [ownerWrite, bar0_of_decodes hblocked hdecodes, howned, if_neg hsuite]

theorem exec_suiteReset_of_open : exec (.suiteReset h) s = .next (s.suiteCmd i false) := by
  change execSuiteReset h s = _
  rw [execSuiteReset, State.hostIn_of_awake hopen.1, State.ownerWrite_of_open hopen]

theorem exec_suitePowerDown_of_open : exec (.suitePowerDown h) s = .next (s.suiteCmd i true) := by
  change execSuitePowerDown h s = _
  rw [execSuitePowerDown, State.hostIn_of_awake hopen.1, State.ownerWrite_of_open hopen]

end Door

theorem State.suiteCmd_drains (hfree : s.svcJob 8 i = none) (hserving : (s.suite i).state = .serving) (hon : s.suiteOn i = true) (down : Bool) :
    let t := s.suiteCmd i down
    (t.suite i).state = .draining ∧
    (((s.suite i).echo.busy = false ∧
      ∀ c ∈ s.suiteCtxs i, (s.ctx c).state = .idle ∨ (s.ctx c).state = .stopped ∨ (s.ctx c).state = .unassigned) → t.ctxs = s.ctxs) ∧
    (∀ c ∈ s.suiteCtxs i, (t.ctx c).live = false) ∧
    t.svc.jobs = s.svc.jobs ++ [{ unitClass := 8, unitIndex := i, powerDown := down, since := s.hall }] := by
  have hable : s.serviceable 8 i down = true := by simp [serviceable, partOn, hon, hserving]
  have hcmd : s.suiteCmd i down = s.beginService 8 i down := by simp only [suiteCmd, hfree, hable, if_true]
  rw [hcmd]
  generalize hu : ({ s with svc := { s.svc with
    jobs := s.svc.jobs ++ [{ unitClass := 8, unitIndex := i, powerDown := down, since := s.hall }] } } : State) = u
  have hbegin : s.beginService 8 i down = u.drainSuite i := by rw [← hu]; rfl
  obtain ⟨hstate, hserviced, hlive, hrest⟩ := u.drainSuite_effect i
  rw [hbegin]
  refine ⟨hstate, ?_, ?_, ?_⟩
  · rintro ⟨-, hquiet⟩
    have hctxs : u.ctxs = s.ctxs := by rw [← hu]
    refine (hrest ?_).trans hctxs
    rw [← hu]
    exact hquiet
  · rw [← hu] at hlive ⊢
    exact hlive
  · rw [jobs_of_serviced hserviced, ← hu]

/-- A command that does not find the Suite Serving is dropped and counted. -/
theorem State.suiteCmd_drops (hfree : s.svcJob 8 i = none) (hserving : (s.suite i).state ≠ .serving) (down : Bool) :
    s.suiteCmd i down = s.putSuite i { s.suite i with dropped := satInc (s.suite i).dropped } := by
  have hable : s.serviceable 8 i down = false := by simp [serviceable, hserving]
  simp only [suiteCmd, hfree, hable, Bool.false_eq_true, if_false, drop, modSuite_eq]

end SuiteCmd

end Sys2Proof.Machine
end

section
/-! Settling O30: a drain whose condition holds is over, and the part is reset (R464, R466, R469). -/

namespace Sys2Proof.Machine

/-! ## The contexts that a part's reset goes over -/

section Contexts
variable {P : Context → Prop} {f : Context → Context}

/-- What the change of each context brings about holds for every context of the list. -/
theorem State.modCtxs_mem (hf : ∀ x, P (f x)) (l : List Nat) (s : State) {c : Nat} (hc : c ∈ l) :
    P ((overList (fun s c => s.modCtx c f) l s).ctx c) := by
  have hkept (l : List Nat) (s : State) (h : P (s.ctx c)) : P ((overList (fun s c => s.modCtx c f) l s).ctx c) := by
    induction l generalizing s with
    | nil => exact h
    | cons d l ih =>
      refine ih _ ?_
      change P ((s.putCtx d (f (s.ctx d))).ctx c)
      rw [putCtx_ctx]
      split
      next => exact hf _
      next => exact h
  induction l generalizing s with
  | nil => exact absurd hc List.not_mem_nil
  | cons d l ih =>
    obtain rfl | hc := List.mem_cons.mp hc
    · refine hkept l _ ?_
      change P ((s.putCtx c (f (s.ctx c))).ctx c)
      rw [putCtx_ctx_self]
      exact hf _
    · exact ih _ hc

/-- What the change of a context leaves stays through the list. -/
theorem State.modCtxs_view {β : Type} (p : Context → β) (hp : ∀ x, p (f x) = p x) (l : List Nat) (s : State) (c : Nat) :
    p ((overList (fun s c => s.modCtx c f) l s).ctx c) = p (s.ctx c) := by
  refine overList_frame (fun u => p (u.ctx c)) (fun u d => ?_) l s
  rw [modCtx_eq, putCtx_ctx]
  split
  next hc => rw [hp, hc]
  next => rfl

end Contexts

/-- A change of contexts one after another leaves what does not look at contexts. -/
theorem State.modCtxs_frame {β : Type} (p : State → β) (hp : ∀ s n x, p (State.putCtx s n x) = p s) (f : Context → Context) (l : List Nat)
    (s : State) : p (overList (fun s c => s.modCtx c f) l s) = p s :=
  overList_frame p (fun u c => hp u c _) l s

/-! ## A part is reset (R469) -/

section Reset
variable (s : State) (e : Nat)

theorem State.resetPart_svc (cls : Nat) : (s.resetPart cls e).svc = s.svc := by
  unfold resetPart
  split
  · rfl
  · exact modCtxs_frame State.svc (fun _ _ _ => rfl) _ _ s
  · rfl
  · rfl
  · exact (modCtxs_frame State.svc (fun _ _ _ => rfl) _ _ _).trans (s.setSuite_svc e .resetting)

/-- A cell group that is reset holds no byte, and no other byte changes. -/
theorem State.resetPart_cells (hq : (s.ext e).state ≠ .quarantined) : let t := s.resetPart 2 e
    (t.ext e).state = .free ∧ (∀ a, e * 0x200000 ≤ a → a < (e + 1) * 0x200000 → memRead 0 t.cellar.mem a = 0) ∧
    (∀ a, extentOf a ≠ e → memRead 0 t.cellar.mem a = memRead 0 s.cellar.mem a) ∧ t.ctxs = s.ctxs := by
  have hmem : (s.resetPart 2 e).cellar.mem = memClear s.cellar.mem (e * 0x200000) ((e + 1) * 0x200000) := rfl
  refine ⟨?_, fun a hlo hhi => ?_, fun a ha => ?_, rfl⟩
  · have hext : (s.resetPart 2 e).ext e = _ := State.putExt_ext_self _ e _
    rw [hext]
    exact if_neg hq
  · rw [hmem, memRead_memClear, if_pos ⟨hlo, hhi⟩]
  · rw [hmem, memRead_memClear, if_neg]
    rintro ⟨hlo, hhi⟩
    refine ha ?_
    rw [extentOf]
    omega

/-- The assigned contexts of a Caller that is reset are in Clearing. -/
theorem State.resetPart_caller {c : Nat} (hc : c ∈ callerCtxs e) (hvalid : (s.ctx c).asg.valid = true) :
    ((s.resetPart 3 e).ctx c).state = .clearing := by
  have hasg : ((s.resetPart 3 e).ctx c).asg = (s.ctx c).asg := by
    refine modCtxs_view Context.asg (fun x => ?_) _ s c
    split <;> rfl
  have hvalid' : ((s.resetPart 3 e).ctx c).asg.valid = true := by rw [hasg, hvalid]
  refine modCtxs_mem (P := fun x => x.asg.valid = true → x.state = .clearing) (fun x => ?_) (callerCtxs e) s hc hvalid'
  split
  next => exact fun _ => rfl
  next hno => exact fun h => absurd h hno

theorem State.resetPart_host : ((s.resetPart 5 e).host e).state = .heldDown ∧ ((s.resetPart 5 e).host e).busMaster = false := by
  have hhost : (s.resetPart 5 e).host e = _ := State.putHost_host_self _ e _
  rw [hhost]
  exact ⟨rfl, rfl⟩

theorem State.resetPart_port : ((s.resetPart 6 e).port e).state = .heldDown ∧ ((s.resetPart 6 e).port e).replayBuf = [] := by
  have hport : (s.resetPart 6 e).port e = _ := State.putPort_port_self _ e _
  rw [hport]
  exact ⟨rfl, rfl⟩

/-- A Suite that is reset is Resetting, and its contexts are in Clearing where they were assigned. -/
theorem State.resetPart_suite : ((s.resetPart 8 e).suite e).state = .resetting ∧
    ∀ c ∈ s.suiteCtxs e, ((s.resetPart 8 e).ctx c).state = .clearing ∨ ((s.resetPart 8 e).ctx c).state = .unassigned := by
  refine ⟨?_, fun c hc => ?_⟩
  · exact (modCtxs_frame (fun u => (u.suite e).state) (fun _ _ _ => rfl) _ _ _).trans (s.setSuite_state e .resetting)
  · refine modCtxs_mem (P := fun x => x.state = .clearing ∨ x.state = .unassigned) (fun x => ?_) (s.suiteCtxs e) _ hc
    split
    next h => exact .inr h
    next => exact .inl rfl

end Reset

/-! ## SERVICE_DRAIN_COMPLETE -/

theorem State.reach_svc (s : State) (w : Word64) : (s.reach w).svc = s.svc := by
  obtain ⟨n, h⟩ := s.reach_untimed w
  generalize s.reach w = u at h ⊢
  exact (congrArg State.svc h :)

section DrainComplete
variable {s : State} {cls e : Nat} {j : SvcJob} (hj : s.svcJob cls e = some j)
include hj

/-- A drain that is over leads to the part's reset; a fabric port with frames unacknowledged has then waited 100 µs. -/
theorem exec_serviceDrainComplete_drained (hphase : j.phase ≠ .resetting) (hdrained : s.partDrained cls e = true) :
    ∃ u : State, (cls ≠ 6 → u = s) ∧ u.svc = s.svc ∧ exec (.serviceDrainComplete cls e) s = .next ((u.modJob j
      { j with phase := .resetting, powerDown := j.powerDown && decide (j.phase ≠ .drainRestart) }).resetPart cls e) := by
  generalize hu : (if (decide (cls = 6) && !(s.port e).drained) = true then s.reach (j.since + 100000) else s) = u
  have hexec : exec (.serviceDrainComplete cls e) s = .next ((u.modJob j
      { j with phase := .resetting, powerDown := j.powerDown && decide (j.phase ≠ .drainRestart) }).resetPart cls e) := by
    change execServiceDrainComplete cls e s = _
    rw [← hu]
    simp only [execServiceDrainComplete, hj, hphase, hdrained, decide_false, Bool.not_true, Bool.or_self, Bool.false_eq_true, if_false]
  refine ⟨u, fun hne => ?_, ?_, hexec⟩
  · rw [← hu]
    exact if_neg (by simp [hne])
  · rw [← hu]
    split
    · exact s.reach_svc _
    · rfl

theorem exec_serviceDrainComplete_undrained (hphase : j.phase ≠ .resetting) (hdrained : s.partDrained cls e = false) :
    exec (.serviceDrainComplete cls e) s = .next s := by
  change execServiceDrainComplete cls e s = _
  simp only [execServiceDrainComplete, hj, hphase, hdrained, decide_false, Bool.not_false, Bool.or_true, if_true]

theorem serviceDrainComplete_resets (hphase : j.phase ≠ .resetting) (hdrained : s.partDrained cls e = true) :
    ∃ t, exec (.serviceDrainComplete cls e) s = .next t ∧
      t.svc.jobs = s.svc.jobs.map (fun x => if x = j then
        { j with phase := .resetting, powerDown := j.powerDown && decide (j.phase ≠ .drainRestart) } else x) ∧
      (cls = 2 → (s.ext e).state ≠ .quarantined → (t.ext e).state = .free ∧
        (∀ a, e * 0x200000 ≤ a → a < (e + 1) * 0x200000 → memRead 0 t.cellar.mem a = 0) ∧
        (∀ a, extentOf a ≠ e → memRead 0 t.cellar.mem a = memRead 0 s.cellar.mem a) ∧ t.ctxs = s.ctxs) ∧
      (cls = 3 → ∀ c ∈ callerCtxs e, (s.ctx c).asg.valid = true → (t.ctx c).state = .clearing) ∧
      (cls = 5 → (t.host e).state = .heldDown ∧ (t.host e).busMaster = false) ∧
      (cls = 6 → (t.port e).state = .heldDown ∧ (t.port e).replayBuf = []) ∧
      (cls = 8 → (t.suite e).state = .resetting ∧
        ∀ c ∈ s.suiteCtxs e, (t.ctx c).state = .clearing ∨ (t.ctx c).state = .unassigned) := by
  obtain ⟨u, hsame, hsvc, hexec⟩ := exec_serviceDrainComplete_drained hj hphase hdrained
  refine ⟨_, hexec, ?_, ?_, ?_, ?_, ?_, ?_⟩
  · rw [State.resetPart_svc, ← hsvc]
    rfl
  · rintro rfl hq
    obtain rfl := hsame (by decide)
    exact State.resetPart_cells _ e hq
  · rintro rfl c hc hvalid
    obtain rfl := hsame (by decide)
    exact State.resetPart_caller _ e hc hvalid
  · rintro rfl
    exact State.resetPart_host _ e
  · rintro rfl
    exact State.resetPart_port _ e
  · rintro rfl
    obtain rfl := hsame (by decide)
    exact State.resetPart_suite _ e

end DrainComplete

end Sys2Proof.Machine
end

section
/-! Settling O30: a reset that completes leaves the part out of service, or in it again (R464, R470, R473, R512). -/

namespace Sys2Proof.Machine

/-! ## A host link that is lost, as a chain of updates (R409) -/

section LinkLost
variable {K : Nat → Prop} (s : State) (h : Nat) (tgt : HostState) (status detail : Nat) (hq : QuietOff K s)
include hq

/-- The block's link is down, its Figures fail, its function is reset, and every context settles. -/
theorem State.linkLost_chain : ∃ (x y : HostPort) (v : State), Settles K True ((s.fenceHost h).putHost h x) v ∧
    Settles K True (v.putHost h y) (s.linkLost h tgt status detail) := by
  unfold linkLost
  simp only [modHost_eq]
  generalize hu : (s.fenceHost h).putHost h _ = u
  have hfails : Settles K True u (u.failWhere (fun c f => u.needsHost h c f) status detail) :=
    u.failWhere_settles (by rw [← hu]; exact hq) trivial _ _ _
  generalize u.failWhere (fun c f => u.needsHost h c f) status detail = v at hfails ⊢
  rw [← hu] at hfails
  have hquiet : QuietOff K v := hfails.quietOff hq
  exact ⟨_, _, v, hfails, settleAll_settles (v.putHost h _) hquiet⟩

/-- Settling does not reach the contexts that are quiet. -/
theorem State.linkLost_ctx {n : Nat} (hn : ¬ K n) : (s.linkLost h tgt status detail).ctx n = s.ctx n := by
  obtain ⟨x, y, v, hfails, hsettles⟩ := s.linkLost_chain h tgt status detail hq
  exact (hsettles.ctx hn).trans (hfails.ctx hn)

theorem State.linkLost_quietOff : QuietOff K (s.linkLost h tgt status detail) := fun n hn => by
  rw [s.linkLost_ctx h tgt status detail hq hn]
  exact hq n hn

omit hq in
theorem State.linkLost_suiteState (i : Nat) : ((s.linkLost h tgt status detail).suite i).state = (s.suite i).state := by
  obtain ⟨x, y, v, hfails, hsettles⟩ := s.linkLost_chain h tgt status detail (quietOff_true s)
  exact (hsettles.suiteState i).trans (hfails.suiteState i)

omit hq in
theorem State.linkLost_serviced : (s.linkLost h tgt status detail).serviced = s.serviced := by
  obtain ⟨x, y, v, hfails, hsettles⟩ := s.linkLost_chain h tgt status detail (quietOff_true s)
  exact hsettles.serviced.trans hfails.serviced

end LinkLost

/-! ## What the end of a reset leaves of the parts in service (R473) -/

section Cleared
variable (s : State)

theorem State.carryOut_serviced (c : Nat) (a : Assignment) : (s.carryOut c a).serviced = s.serviced := by
  unfold carryOut
  dsimp only
  split
  · exact (Settles.single (K := fun _ => True) (told := True) (.wake (s.putCtx c ((s.ctx c).clear a)))).serviced
  · rfl

theorem State.applyRemote_serviced (r : HeldRing) : (s.applyRemote r).serviced = s.serviced := by
  unfold applyRemote
  split
  · split
    · rw [serviced, ringBlocked, record_svc, serviced]
    · exact (s.countService_settles (K := fun _ => True) (told := True) _ _).serviced
  · have hrung : Settles (fun _ => True) True s (s.ringRecord r.offset r.add r.value r.engine r.ctx r.figIdx).2 :=
      .trans (.single (.bell s r.offset _)) (progressIn_settles _ _)
    exact (hrung.trans (wakeBell_settles _ (quietOff_true _) 0 (.virt r.offset))).serviced

theorem State.clearingDone_serviced (c : Nat) : (s.clearingDone c).serviced = s.serviced := by
  unfold clearingDone
  extract_lets y held u v w
  have hw : w.serviced = s.serviced := by
    refine overList_frame State.serviced (fun x r => ?_) held v
    split
    · exact x.applyRemote_serviced _
    · rw [serviced, ringBlocked, record_svc, serviced]
  split
  · exact (w.carryOut_serviced c _).trans hw
  · exact hw

theorem State.setEntry_serviced (g : Nat) (x : Option (List Byte)) : (s.setEntry g x).serviced = s.serviced := rfl

theorem State.setEntry_ctx (g : Nat) (x : Option (List Byte)) (c : Nat) : (s.setEntry g x).ctx c = s.ctx c := rfl

theorem State.suiteCleared_serviced (i : Nat) : (s.suiteCleared i).serviced = s.serviced := by
  unfold suiteCleared
  extract_lets u v
  have hv : v.serviced = u.serviced := by
    unfold v
    exact overList_frame State.serviced (fun x g => x.setEntry_serviced g none) _ u
  have hu : u.serviced = s.serviced := modCtxs_frame State.serviced (fun _ _ _ => rfl) _ _ s
  clear_value v
  exact hv.trans hu

theorem State.partCleared_serviced (cls e : Nat) : (s.partCleared cls e).serviced = s.serviced := by
  unfold partCleared
  split
  · rfl
  · refine overList_frame State.serviced (fun u c => ?_) _ s
    split
    · exact u.clearingDone_serviced c
    · rfl
  · rfl
  · rfl
  · exact s.suiteCleared_serviced e

/-- The contexts of a Suite whose reset ends hold nothing (R473). -/
theorem State.suiteCleared_ctx (i : Nat) {c : Nat} (hc : c ∈ s.suiteCtxs i) : ∃ n, (s.suiteCleared i).ctx c = { nextFid := n } := by
  unfold suiteCleared
  extract_lets u v
  have hu : ∃ n, u.ctx c = { nextFid := n } :=
    modCtxs_mem (P := fun x => ∃ n, x = ({ nextFid := n } : Context)) (fun x => ⟨_, rfl⟩) (s.suiteCtxs i) s hc
  have hv : v.ctx c = u.ctx c := by
    unfold v
    exact overList_frame (fun x => x.ctx c) (fun x g => x.setEntry_ctx g none c) _ u
  obtain ⟨n, hn⟩ := hu
  clear_value v
  exact ⟨n, hv.trans hn⟩

end Cleared

/-! ## Out of service (R141, R464, R493) -/

section Out
variable (s : State)

/-- The links of a Suite's ports go down with it. -/
def State.suitePortDown (s : State) (h : Nat) : State :=
  if (s.host h).state == .heldDown then s else s.linkLost h .disabled 0x23 (s.hostPos h)

theorem State.suitePortsDown_frame {β : Type} (p : State → β) (hp : ∀ s h tgt status detail, p (State.linkLost s h tgt status detail) = p s)
    (l : List Nat) : p (overList State.suitePortDown l s) = p s := by
  refine overList_frame p (fun u h => ?_) l s
  unfold suitePortDown
  split
  · rfl
  · exact hp _ _ _ _ _

/-- A Suite that is out of service, before its ports go down. -/
def State.suiteOut (s : State) (e : Nat) : State :=
  let u := s.setSuite e .disabled
  { u with svc := { u.svc with out := u.svc.out ++ [(8, e)] } }

theorem State.partOut_suite (e : Nat) : s.partOut 8 e = overList State.suitePortDown ((s.suiteOut e).suiteHosts e) (s.suiteOut e) := rfl

theorem State.partOut_jobs (cls e : Nat) : (s.partOut cls e).svc.jobs = s.svc.jobs := by
  by_cases hcls : cls = 8
  · subst hcls
    rw [partOut_suite, jobs_of_serviced (suitePortsDown_frame _ State.serviced linkLost_serviced _)]
    exact congrArg (fun v => v.jobs) (s.setSuite_svc e .disabled)
  · unfold partOut
    split
    · rfl
    · rfl
    next => exact absurd rfl hcls
    · rfl

theorem State.partOut_out {cls : Nat} (e : Nat) (hcls : cls = 2 ∨ cls = 3 ∨ cls = 8) : (cls, e) ∈ (s.partOut cls e).svc.out := by
  have hlast (l : List (Nat × Nat)) (x : Nat × Nat) : x ∈ l ++ [x] := List.mem_append_right _ (List.mem_singleton_self _)
  obtain rfl | rfl | rfl := hcls
  · exact hlast _ _
  · exact hlast _ _
  · rw [partOut_suite, out_of_serviced (suitePortsDown_frame _ State.serviced linkLost_serviced _)]
    exact hlast _ _

theorem State.partOut_disables (e : Nat) : ((s.partOut 8 e).suite e).state = .disabled := by
  rw [partOut_suite, suitePortsDown_frame _ (fun u => (u.suite e).state) (fun u h tgt st d => u.linkLost_suiteState h tgt st d e)]
  exact s.setSuite_state e .disabled

/-- Contexts that hold nothing keep holding nothing. -/
theorem State.partOut_ctx {K : Nat → Prop} (e : Nat) (hq : QuietOff K s) {c : Nat} (hc : ¬ K c) : (s.partOut 8 e).ctx c = s.ctx c := by
  have hover (l : List Nat) (u : State) (hu : QuietOff K u) : (overList State.suitePortDown l u).ctx c = u.ctx c := by
    induction l generalizing u with
    | nil => rfl
    | cons h l ih =>
      rw [overList_cons]
      by_cases hheld : ((u.host h).state == .heldDown) = true
      · rw [suitePortDown, if_pos hheld]
        exact ih u hu
      · rw [suitePortDown, if_neg hheld, ih _ (u.linkLost_quietOff h _ _ _ hu), u.linkLost_ctx h _ _ _ hu hc]
  have hctxs : (s.suiteOut e).ctxs = s.ctxs := s.setSuite_ctxs e .disabled
  have hctx (n : Nat) : (s.suiteOut e).ctx n = s.ctx n := by rw [ctx, hctxs, ctx]
  rw [partOut_suite, hover _ _ fun n hn => (hctx n).symm ▸ hq n hn, hctx]

end Out

/-! ## In service again (R394, R435, R464, R473) -/

section Back
variable (s : State)

theorem State.callerBack_serviced (k : Nat) : (s.callerBack k).serviced = s.serviced := by
  refine overList_frame State.serviced (fun u c => ?_) _ s
  dsimp only
  split
  · split
    · exact u.carryOut_serviced c _
    · rfl
  · split
    · exact (Settles.serviced (K := fun _ => True) (told := True) (refresh_chain _ trivial) :)
    · rfl
  · rfl

theorem State.portBack_serviced (p : Nat) : (s.portBack p).serviced = s.serviced := by
  unfold portBack
  split
  · rfl
  · split <;> rfl

/-- The Suite's ports that were disabled with it wait for a partner again. -/
def State.suitePortBack (s : State) (h : Nat) : State := if (s.host h).state == .disabled then s.hostBack h else s

theorem State.suitePortsBack_frame {β : Type} (p : State → β) (hp : ∀ s h x, p (State.putHost s h x) = p s) (l : List Nat) :
    p (overList State.suitePortBack l s) = p s := by
  refine overList_frame p (fun u h => ?_) l s
  unfold suitePortBack
  split
  · exact hp _ _ _
  · rfl

/-- The part is no longer out of service. -/
def State.partIn (s : State) (cls e : Nat) : State := { s with svc := { s.svc with out := s.svc.out.filter (fun u => u != (cls, e)) } }

theorem State.partBack_suite {e : Nat} (hfailed : (8, e) ∉ s.svc.failed) :
    s.partBack 8 e = overList State.suitePortBack ((s.partIn 8 e).suiteHosts e) ((s.partIn 8 e).setSuite e .serving) :=
  if_neg (by simpa using hfailed)

theorem State.partBack_serviced (cls e : Nat) : (s.partBack cls e).serviced = (s.partIn cls e).serviced := by
  unfold partBack
  dsimp only
  split
  · rfl
  · split
    · rfl
    · exact callerBack_serviced _ e
    · rfl
    · exact portBack_serviced _ e
    · exact (suitePortsBack_frame _ State.serviced (fun _ _ _ => rfl) _).trans (setSuite_serviced _ e .serving)

theorem State.partBack_out (cls e : Nat) : (cls, e) ∉ (s.partBack cls e).svc.out := by
  rw [out_of_serviced (s.partBack_serviced cls e)]
  intro hmem
  simpa using (List.mem_filter.mp hmem).2

theorem State.partBack_serves {e : Nat} (hfailed : (8, e) ∉ s.svc.failed) : ((s.partBack 8 e).suite e).state = .serving := by
  rw [s.partBack_suite hfailed, suitePortsBack_frame _ (fun u => (u.suite e).state) (fun _ _ _ => rfl)]
  exact setSuite_state _ e .serving

/-- A Suite that serves again, or that failed a scan, keeps its contexts. -/
theorem State.partBack_ctxs (e : Nat) : (s.partBack 8 e).ctxs = s.ctxs := by
  by_cases hfailed : (8, e) ∈ s.svc.failed
  · have hin : s.partBack 8 e = s.partIn 8 e := if_pos (by simpa using hfailed)
    rw [hin]
    rfl
  · rw [s.partBack_suite hfailed, suitePortsBack_frame _ State.ctxs (fun _ _ _ => rfl)]
    exact setSuite_ctxs _ e .serving

theorem State.partBack_host {e : Nat} (hfailed : (5, e) ∉ s.svc.failed) (hon : s.outputsInert = false) :
    (s.partBack 5 e).host e = { s.host e with state := .detect } := by
  have hback : s.partBack 5 e = (s.partIn 5 e).hostBack e := if_neg (by simpa using hfailed)
  have hin : (s.partIn 5 e).outputsInert = false := hon
  rw [hback, hostBack, hin, modHost_eq, putHost_host_self]
  rfl

theorem State.partBack_port {e : Nat} (hfailed : (6, e) ∉ s.svc.failed) (hon : s.outputsInert = false) (hwired : (s.wired e).isSome = true) :
    ((s.partBack 6 e).port e).state = .training := by
  have hback : s.partBack 6 e = (s.partIn 6 e).portBack e := if_neg (by simpa using hfailed)
  have hin : (s.partIn 6 e).outputsInert = false := hon
  have hwire : ((s.partIn 6 e).wired e).isNone = false := by
    have hsame : (s.partIn 6 e).wired e = s.wired e := rfl
    rw [hsame]
    cases hw : s.wired e with
    | none => rw [hw] at hwired; cases hwired
    | some x => rfl
  have hport : ((s.partIn 6 e).retrain e).port e = _ := putPort_port_self _ e _
  rw [hback, portBack, hwire, hin, if_neg Bool.false_ne_true, if_neg Bool.false_ne_true, hport, modPort_eq, putPort_port_self]
  rfl

end Back

end Sys2Proof.Machine
end

section
/-! Settling O30: SERVICE_RESET_COMPLETE, and the obligation (R464, R473, R512). -/

namespace Sys2Proof.Machine

/-- The service is no longer under way. -/
def State.jobEnded (s : State) (j : SvcJob) : State := { s with svc := { s.svc with jobs := s.svc.jobs.filter (fun x => x != j) } }

/-- Where a part is once its reset has ended: out of service, or in it again. -/
def State.partDone (s : State) (cls e : Nat) (down : Bool) : State := if down then s.partOut cls e else s.partBack cls e

section Done
variable (s : State) (cls e : Nat) (j : SvcJob) (down : Bool)

/-- The state in which the part's commands complete. -/
def State.resetOver : State := ((s.jobEnded j).partCleared cls e).partDone cls e j.powerDown

theorem State.partDone_jobs : (s.partDone cls e down).svc.jobs = s.svc.jobs := by
  unfold partDone
  split
  · exact s.partOut_jobs cls e
  · exact jobs_of_serviced (s := s.partIn cls e) (s.partBack_serviced cls e)

theorem State.resetOver_jobs : (s.resetOver cls e j).svc.jobs = s.svc.jobs.filter (fun x => x != j) := by
  rw [resetOver, partDone_jobs, jobs_of_serviced (partCleared_serviced _ cls e), jobEnded]

theorem State.resetOver_out (hdown : j.powerDown = true) (hcls : cls = 2 ∨ cls = 3 ∨ cls = 8) : (cls, e) ∈ (s.resetOver cls e j).svc.out := by
  rw [resetOver, partDone, if_pos hdown]
  exact partOut_out _ e hcls

theorem State.resetOver_in (hup : j.powerDown = false) : (cls, e) ∉ (s.resetOver cls e j).svc.out := by
  rw [resetOver, partDone, if_neg (by simp [hup])]
  exact partBack_out _ cls e

/-- What a part has failed stays as it was through the end of its reset. -/
theorem State.partCleared_failed : ((s.jobEnded j).partCleared cls e).svc.failed = s.svc.failed :=
  congrArg (fun x => x.2.2) (partCleared_serviced (s.jobEnded j) cls e)

/-- A cell group's power is off, in service or out of it. -/
theorem State.resetOver_cells : ((s.resetOver 2 e j).ext e).power = .off ∧ (s.resetOver 2 e j).ctxs = s.ctxs := by
  have hext : ((s.jobEnded j).partCleared 2 e).ext e = { s.ext e with power := .off } := putExt_ext_self _ e _
  have hdone (u : State) : (u.partDone 2 e j.powerDown).ext e = u.ext e ∧ (u.partDone 2 e j.powerDown).ctxs = u.ctxs := by
    unfold partDone
    split
    · exact ⟨rfl, rfl⟩
    · unfold partBack
      dsimp only
      split <;> exact ⟨rfl, rfl⟩
  obtain ⟨hkept, hctxs⟩ := hdone ((s.jobEnded j).partCleared 2 e)
  rw [resetOver, hkept, hext, hctxs]
  exact ⟨rfl, rfl⟩

theorem State.resetOver_host (hup : j.powerDown = false) (hfailed : (5, e) ∉ s.svc.failed) (hon : s.outputsInert = false) :
    ((s.resetOver 5 e j).host e).state = .detect ∧ ((s.resetOver 5 e j).host e).blocked = false := by
  have hhost : ((s.jobEnded j).partCleared 5 e).host e = { s.host e with blocked := false } := putHost_host_self _ e _
  have hback := partBack_host ((s.jobEnded j).partCleared 5 e) (e := e) (by rwa [partCleared_failed]) hon
  rw [resetOver, partDone, if_neg (by simp [hup]), hback, hhost]
  exact ⟨rfl, rfl⟩

theorem State.resetOver_port (hup : j.powerDown = false) (hfailed : (6, e) ∉ s.svc.failed) (hon : s.outputsInert = false)
    (hwired : (s.wired e).isSome = true) : ((s.resetOver 6 e j).port e).state = .training := by
  rw [resetOver, partDone, if_neg (by simp [hup])]
  exact partBack_port _ (by rwa [partCleared_failed]) hon hwired

/-- The contexts of a Suite whose reset is over hold nothing. -/
theorem State.resetOver_ctx {c : Nat} (hc : c ∈ s.suiteCtxs e) :
    ((s.resetOver 8 e j).ctx c).state = .unassigned ∧ ((s.resetOver 8 e j).ctx c).asg.valid = false := by
  have hcleared (d : Nat) (hd : d ∈ s.suiteCtxs e) : ∃ n, ((s.jobEnded j).suiteCleared e).ctx d = { nextFid := n } :=
    suiteCleared_ctx (s.jobEnded j) e hd
  have hquiet : QuietOff (fun d => d ∉ s.suiteCtxs e) ((s.jobEnded j).suiteCleared e) := fun d hd => by
    obtain ⟨n, hn⟩ := hcleared d (not_not.mp hd)
    rw [hn]
    exact ⟨rfl, rfl, rfl⟩
  have hctx : (s.resetOver 8 e j).ctx c = ((s.jobEnded j).suiteCleared e).ctx c := by
    rw [resetOver, partDone]
    split
    · exact partOut_ctx _ e hquiet (not_not.mpr hc)
    · rw [ctx, partBack_ctxs]
      rfl
  obtain ⟨n, hn⟩ := hcleared c hc
  rw [hctx, hn]
  exact ⟨rfl, rfl⟩

theorem State.resetOver_suite_down (hdown : j.powerDown = true) : ((s.resetOver 8 e j).suite e).state = .disabled := by
  rw [resetOver, partDone, if_pos hdown]
  exact partOut_disables _ e

theorem State.resetOver_suite_up (hup : j.powerDown = false) (hfailed : (8, e) ∉ s.svc.failed) :
    ((s.resetOver 8 e j).suite e).state = .serving := by
  rw [resetOver, partDone, if_neg (by simp [hup])]
  exact partBack_serves _ (by rwa [partCleared_failed])

end Done

/-! ## SERVICE_RESET_COMPLETE -/

section ResetComplete
variable {s : State} {cls e : Nat} {j : SvcJob} (hj : s.svcJob cls e = some j)
include hj

theorem exec_serviceResetComplete_resetting (hphase : j.phase = .resetting) : exec (.serviceResetComplete cls e) s =
    .next ((s.resetOver cls e j).acceptAll (fun a => a.code == 0x28 && a.unitClass == cls && a.units == [e]) 0x00 0) := by
  change execServiceResetComplete cls e s = _
  simp only [execServiceResetComplete, hj, hphase, ne_eq, not_true_eq_false, if_false]
  rfl

theorem exec_serviceResetComplete_draining (hphase : j.phase ≠ .resetting) : exec (.serviceResetComplete cls e) s = .next s := by
  change execServiceResetComplete cls e s = _
  simp only [execServiceResetComplete, hj]
  exact if_pos hphase

theorem serviceResetComplete_ends (hphase : j.phase = .resetting) : ∃ t, exec (.serviceResetComplete cls e) s = .next t ∧
    t.svc.jobs = s.svc.jobs.filter (fun x => x != j) ∧
    (cls = 2 → (t.ext e).power = .off ∧ t.ctxs = s.ctxs) ∧
    (cls = 5 → j.powerDown = false → (5, e) ∉ s.svc.failed → s.outputsInert = false → (t.host e).state = .detect ∧ (t.host e).blocked = false) ∧
    (cls = 6 → j.powerDown = false → (6, e) ∉ s.svc.failed → s.outputsInert = false → (s.wired e).isSome = true →
      (t.port e).state = .training) ∧
    (cls = 8 → (∀ c ∈ s.suiteCtxs e, (t.ctx c).state = .unassigned ∧ (t.ctx c).asg.valid = false) ∧
      (j.powerDown = true → (t.suite e).state = .disabled) ∧
      (j.powerDown = false → (8, e) ∉ s.svc.failed → (t.suite e).state = .serving)) ∧
    (j.powerDown = true → (cls = 2 ∨ cls = 3 ∨ cls = 8) → (cls, e) ∈ t.svc.out) ∧
    (j.powerDown = false → (cls, e) ∉ t.svc.out) := by
  refine ⟨_, exec_serviceResetComplete_resetting hj hphase, ?_⟩
  have hframe {β : Type} (p : State → β) (hp : ∀ (s : State) m, p { s with mgmt := m } = p s) :=
    (s.resetOver cls e j).acceptAll_frame p hp (fun a => a.code == 0x28 && a.unitClass == cls && a.units == [e]) 0x00 0
  have hsvc := hframe State.svc (fun _ _ => rfl)
  have hctxs := hframe State.ctxs (fun _ _ => rfl)
  have hctx (c : Nat) := hframe (fun u => u.ctx c) (fun _ _ => rfl)
  have hext := hframe (fun u => u.ext e) (fun _ _ => rfl)
  have hhost := hframe (fun u => u.host e) (fun _ _ => rfl)
  have hport := hframe (fun u => u.port e) (fun _ _ => rfl)
  have hsuite := hframe (fun u => u.suite e) (fun _ _ => rfl)
  simp only [hsvc, hctxs, hctx, hext, hhost, hport, hsuite]
  refine ⟨s.resetOver_jobs cls e j, ?_, ?_, ?_, ?_, s.resetOver_out cls e j, s.resetOver_in cls e j⟩
  · rintro rfl
    exact s.resetOver_cells e j
  · rintro rfl
    exact s.resetOver_host e j
  · rintro rfl
    exact s.resetOver_port e j
  · rintro rfl
    exact ⟨fun c hc => s.resetOver_ctx e j hc, s.resetOver_suite_down e j, s.resetOver_suite_up e j⟩

end ResetComplete

/-- Settles O30: SUITE_CMD, and the drain, the reset and the end state of a part in service. -/
theorem suiteAndCellService : Obligations.SuiteAndCellService := by
  refine ⟨fun s h i hopen hfree => ⟨fun hserving hon => ⟨?_, ?_⟩, fun hno => ⟨?_, ?_⟩⟩, fun s cls e j _ hj =>
    ⟨serviceDrainComplete_resets hj, exec_serviceDrainComplete_undrained hj, serviceResetComplete_ends hj, exec_serviceResetComplete_draining hj⟩⟩
  · exact ⟨_, exec_suiteReset_of_open hopen, State.suiteCmd_drains hfree hserving hon false⟩
  · exact ⟨_, exec_suitePowerDown_of_open hopen, State.suiteCmd_drains hfree hserving hon true⟩
  · refine ⟨_, exec_suiteReset_of_open hopen, ?_⟩
    rw [State.suiteCmd_drops hfree hno, State.putSuite_suite_self]
    exact ⟨rfl, rfl, rfl⟩
  · refine ⟨_, exec_suitePowerDown_of_open hopen, ?_⟩
    rw [State.suiteCmd_drops hfree hno, State.putSuite_suite_self]
    exact ⟨rfl, rfl, rfl⟩

end Sys2Proof.Machine
end
